-- ==== Sys2Proof/Word.lean ====
section
/-! DEFINITION. The word types of the block and the table type that numbered resources are kept in. -/

namespace Sys2Proof

/-- A byte. -/
abbrev Byte := BitVec 8

/-- A register or descriptor word of 32 bits (R15). -/
abbrev W32 := BitVec 32

/-- A 64-bit register or address (R15). -/
abbrev W64 := BitVec 64

/-- A status code of Table 0-7 (R17). -/
abbrev Status := BitVec 16

/-- Sparse bytes: `(offset, byte)` pairs with strictly rising offsets and no zero byte; an unlisted offset
reads as zero. Block contents, strips, staging memory and mailbox areas are kept so. -/
abbrev Mem := List (Nat × Byte)

/-- A table of numbered resources: `(number, value)` pairs with strictly rising numbers. -/
abbrev Tab (α : Type) := List (Nat × α)

end Sys2Proof
end

