-- ==== Sys2Proof/Syntax.lean ====
section
/-! DEFINITION. The commands of the block: one constructor of `Instr` per row of spec/opcode_table.json. The table gives no
operand fields, so the operands are what the row's rule names: the decoded fields of the packet, frame, entry,
register write or mailbox command that arrives, or the resource whose timer or activity comes due. -/

namespace Sys2Proof

/-- A reference clock input (R569): SD_REFCLK of a tile pair, or REFCLK_PCIE. -/
inductive RefClk where
  | sd (pair : Nat)
  | pcie
  deriving DecidableEq, Repr

/-- Why a received datagram is discarded without acknowledgment (R299, R301). -/
inductive DiscardCause where
  | checksum | version | reservedType | length | bodySize | wrongSide
  deriving DecidableEq, Repr

/-- How a frame came on an Ethernet link (R361, R364): the VID of an IEEE 802.1Q tag, an IEEE 802.1ad service tag, its length in bytes,
whether it is a fragment, and whether it has IPv4 options or IPv6 extension headers. -/
structure Carriage where
  vid : Option Nat := none
  stag : Bool := false
  length : Nat := 64
  fragment : Bool := false
  options : Bool := false
  deriving DecidableEq, Repr

/-- A frame that comes on an Ethernet link: how it came, and on which port. -/
structure Arrival extends carriage : Carriage where
  port : Nat
  deriving DecidableEq, Repr

/-- The SBT header of a received packet: its 32 bytes (Table 7-1), with the port on which its datagram arrived and the datagram's
addresses and UDP ports (R298). -/
structure SbtHdr where
  port : Nat
  dst : BitVec 128
  dport : BitVec 16
  addr : BitVec 128
  udp : BitVec 16
  /-- IP CE marking of the datagram (R306, R310). -/
  ce : Bool
  carriage : Carriage := {}
  bytes : List Byte
  deriving DecidableEq, Repr

/-- The CMD capsule (Table 7-7). `opcode` is byte 0 as it arrived, `flags` byte 1, `volume` bytes 4-5;
`reservedZero` says that bytes 6-7 and 18-63 are zero. -/
structure Capsule where
  opcode : Byte
  flags : Byte
  tag : BitVec 16
  volume : BitVec 16
  lba : W64
  length : BitVec 16
  reservedZero : Bool
  deriving DecidableEq, Repr

/-- The CONNECT body (Table 7-3). -/
structure ConnectBody where
  tenantConn : W32
  maxData : BitVec 16
  qdepth : BitVec 16
  tenantId : BitVec 128
  deriving DecidableEq, Repr

/-- A segment descriptor (Table 10-3), as the BUF and LIST parameters of mailbox commands carry it (R477).
`reservedZero` says its reserved bits are zero. -/
structure SegDesc where
  address : W64
  segLen : W32
  typ : BitVec 2
  window : BitVec 6
  reservedZero : Bool
  deriving DecidableEq, Repr

/-- What GO finds in the command area of mailbox `mb` besides the named parameters (Table 11-4, R578):
`hdrReserved` is the offset (8-15) of the first non-zero reserved header byte, `fieldReserved` the offset in the
parameter area of the first non-zero gap or reserved byte. -/
structure Go where
  mb : Nat
  cmdId : W32
  paramLen : Nat
  hdrReserved : Option Nat
  fieldReserved : Option Nat
  deriving DecidableEq, Repr

/-- The sync character of a Moonstone frame as received (R73): `at_` is the local instant in ns at which its reference point reached
EPOCH_IN, and `timed` says that it is K28.5 (else K28.1). -/
structure MoonSync where
  at_ : Nat
  timed : Bool
  deriving DecidableEq, Repr

/-- A Moonstone frame as received (R73): its sync character, and `body` with its 31 data characters, bytes 1 to 31 of Table 2-3. -/
structure MoonFrame extends sync : MoonSync where
  body : List Byte
  deriving DecidableEq, Repr

/-- The arguments of a SEAL frame beside its phase (Table 2-4). -/
structure SealArgs where
  sealEpoch : BitVec 48
  accepted : BitVec 16
  finished : BitVec 16
  withdrawn : BitVec 16
  deriving DecidableEq, Repr

/-- The header of a received partner frame: its 32 bytes (Table 8-4) and the CRC32C that ends the frame (R379). -/
structure PartnerHdr where
  /-- The link on which it arrived, by lowest port. -/
  port : Nat
  bytes : List Byte
  crc : W32
  deriving DecidableEq, Repr

/-- The outcome an NVMe member gives for a command (R206, R371, R377). -/
inductive NvmeStatus where
  | success
  /-- Status Code Type 2h, Media and Data Integrity Errors. -/
  | mediaError
  /-- Namespace Not Ready with Do Not Retry set. -/
  | notReadyDnr
  /-- Transient Transport Error, or another status with DNR clear that R206 does not cover. -/
  | retryable
  /-- Any other status with DNR set. -/
  | otherDnr
  /-- A C2HData data digest failure. -/
  | dataDigest
  deriving DecidableEq, Repr

/-- The status of a PCIe completion (R414). -/
inductive CplStatus where
  | sc | ur | ca | crs
  deriving DecidableEq, Repr

/-- A completion for a device read request (R409): its Byte Count and Lower Address fields and its data. -/
structure HostCpl where
  tag : Nat
  status : CplStatus
  poisoned : Bool
  byteCount : Nat
  lowerAddr : Nat
  data : List Byte
  deriving DecidableEq, Repr

/-- A field of a function's configuration space on which the device's behaviour rests (R393, R403, R408, R410, R411, R415, R430). -/
inductive CfgField where
  | maxPayload | maxReadRequest | relaxedOrdering | tag10 | completionTimeout | atsEnable | pmeEnable | pmeStatus | msixEnable | msixMask
  | vfBar2Size
  deriving DecidableEq, Repr

/-- A register that host software writes and that has no row of its own: a word of BAR 0, a field of configuration space, or the Vector
Control of an MSI-X vector in BAR 4 (R393, R399, R403). -/
inductive RegPlace where
  | bar0 (off : Nat)
  | config (f : CfgField)
  | vector (v : Nat)
  deriving DecidableEq, Repr

/-- A TLP that reaches a window aperture (R420, R421). `viaPf` says it came through PF BAR 2, `byteEnables` has one Boolean
per byte. -/
structure WinTlp where
  window : Nat
  viaPf : Bool
  requester : BitVec 16
  offset : Nat
  atomic : Bool
  deriving DecidableEq, Repr

/-- The result of an ATS translation request (R419). -/
structure Translation where
  req : Nat
  status : CplStatus
  readOk : Bool
  writeOk : Bool
  page : BitVec 52
  deriving DecidableEq, Repr

/-- D-states of a function that PMCSR can select (Table 9-17). -/
inductive DState where
  | d0 | d1 | d3hot
  deriving DecidableEq, Repr

/-- The steps of member queue setup (R367). -/
inductive QueueStep where
  | tcp | icResp (hdgst ddgst : Bool) (maxH2c : Nat) | connect (granted : Bool) (cntlid : Nat) | property (ready : Bool)
  | identify (queues : Nat) (mqes : Nat) (ioccsz : Nat) (dlfeat1 lba4k : Bool) (capacity : Nat)
  deriving DecidableEq, Repr

/-- How a member queue's connection broke (R374). -/
inductive BreakCause where
  | linkDown | reset | unacknowledged | headerDigest | pduError
  deriving DecidableEq, Repr

/-- An ARP or IPv6 Neighbour Discovery message (R356, R360): a request for one of the link's addresses, or an
announcement of a neighbour's. -/
inductive NeighbourMsg where
  | request (target : BitVec 128) (sender : BitVec 128) (mac : BitVec 48)
  | answer (sender : BitVec 128) (mac : BitVec 48)
  deriving DecidableEq, Repr

/-- PORT_CONFIG parameters (Table 11-8). -/
structure PortParams where
  port : Nat
  role : Nat
  mode : Nat
  flags : Nat
  pcp : Nat
  vlan : Nat
  mtu : Nat
  xoff : Nat
  pfcMask : BitVec 8
  prefix4 : Nat
  prefix6 : Nat
  poolMask : BitVec 64
  ipv4 : BitVec 32
  gw4 : BitVec 32
  ipv6 : BitVec 128
  gw6 : BitVec 128
  deriving DecidableEq, Repr

/-- POOL_CREATE parameters (Table 11-10). -/
structure PoolParams where
  pool : Nat
  k : Nat
  s : Nat
  n : Nat
  seed : BitVec 16
  seedGiven : Bool
  mirrorGiven : Bool
  mirror0 : Nat
  mirror1 : Nat
  members : List Nat
  spares : List Nat
  deriving DecidableEq, Repr

/-- What the device finds of a named member over its first admin queue (R367, R368, R371): capacity in bytes, whether
DLFEAT bits 2:0 read 001b, and whether digests, LBA format and metadata meet R367 and R368. -/
structure MemberIdent where
  member : Nat
  capacity : Nat
  dlfeat1 : Bool
  fit : Bool
  deriving DecidableEq, Repr

/-- VOLUME_CREATE parameters (Table 11-8); `list` is what the device reads from LIST (R488). -/
structure VolParams where
  vol : Nat
  pool : Nat
  home : Nat
  attr : BitVec 8
  policy : Nat
  extents : Nat
  buf : SegDesc
  list : List Nat
  deriving DecidableEq, Repr

/-- MEMBER_DEFINE parameters (Table 11-8, R365). -/
structure MemberParams where
  member : Nat
  group : Nat
  family : Nat
  tcpPort : Nat
  nsid : BitVec 32
  addr : BitVec 128
  nqn : List Byte
  deriving DecidableEq, Repr

/-- A Region Attribute Table entry (Table 6-7). -/
structure RatEntry where
  firstRow : Nat
  rows : Nat
  policy : Nat
  valid : Bool
  deriving DecidableEq, Repr

/-- EPOCH_CONFIG parameters (Table 11-8, Table 2-13). -/
structure EpochParams where
  role : Nat
  guard : Nat
  period : Nat
  periodValid : Bool
  dlyAdj : Int
  sealTimeoutMs : Nat
  deriving DecidableEq, Repr

/-- Where a maintenance operation comes from: a dispatched CACHE_OP ring entry, or the CACHE_MAINT command of a
mailbox (section Maintenance operations). -/
inductive MaintSrc where
  | ring (entry : Nat)
  | mailbox (g : Go)
  deriving DecidableEq, Repr

/-- The operands of a maintenance operation (Table 10-8). `reservedZero` says its reserved bits are zero. -/
structure MaintArgs where
  force : Bool
  discard : Bool
  vol : Nat
  first : Nat
  count : Nat
  reservedZero : Bool
  deriving DecidableEq, Repr

/-- The description a POOL_OFFER carries (R381): pool creation parameters, the member definitions by pool index, and the
volumes with extent list, attributes, policy and RAT. -/
structure PoolDesc where
  k : Nat
  s : Nat
  n : Nat
  seed : BitVec 16
  mirror0 : Nat
  mirror1 : Nat
  members : List MemberParams
  vols : List (Nat × List Nat × BitVec 8 × Nat × List RatEntry)
  /-- The wrapped keys of volumes that hold one (R498). -/
  keys : List (Nat × List Byte) := []
  deriving DecidableEq, Repr

/-- An Amber record type (Table 4-5). -/
inductive RecKind where
  | intent | data | retire | sealRec | mirrorMove
  deriving DecidableEq, Repr

/-- An Amber record: the header of Table 4-4 with its payload blocks (Table 4-6 flags by name). `slotMask` and `blockMask`
are the header's masks; `payload` holds the payload bytes from offset 0. -/
structure Rec where
  kind : RecKind
  epoch : BitVec 48
  vol : Nat
  row : Nat
  fullrow : Bool := false
  spilled : Bool := false
  zero : Bool := false
  recon : Bool := false
  relocated : Bool := false
  partner : Bool := false
  uc : Bool := false
  generation : Nat := 0
  slotMask : BitVec 32 := 0
  blockMask : BitVec 128 := 0
  seq : Nat
  ref : Nat := 0
  aux : BitVec 32 := 0
  payloadBlocks : Nat := 0
  payload : Mem := []
  deriving DecidableEq, Repr

/-- The strip slots that the members' capacities give (R123), the progress record and the Lost-Strip Table as they stand on the
members (Tables 5-4, 5-6 and 5-8): an importing device loads them (R386). Failure-list entries are (pool index, Peridot home), table entries (pool row, strip, cause, epoch). -/
structure MetaImage where
  slots : Nat := 0
  segSize : Nat := 0
  state : Nat := 0
  gen : Nat := 0
  cursor : Nat := 0
  baseCursor : Nat := 0
  critCursor : Nat := 0
  copyCursor : Nat := 0
  scrubCursor : Nat := 0
  passEpoch : BitVec 48 := 0
  failList : List (Nat × Option Nat) := []
  baseList : List (Nat × Option Nat) := []
  copy : Option (Nat × Nat) := none
  lstFull : Bool := false
  broken : Bool := false
  lst : List (Nat × Nat × Nat × BitVec 48) := []
  deriving DecidableEq, Repr

/-- What an importing or restarting device reads of a pool from a member: the header fields (R383, R388) and, for an import, the
progress record and the Lost-Strip Table (R386). -/
structure PoolHeader where
  owner : BitVec 64
  lease : BitVec 32
  suspended : Bool
  image : MetaImage
  /-- seed (R151). -/
  seed : BitVec 16 := 0
  /-- generation of the unit read, and whether its CRC32C is good (R248). -/
  gen : Nat := 0
  crcGood : Bool := true
  deriving DecidableEq, Repr

/-- The commands of the block. -/
inductive Instr where
  -- Power, reset and boot
  /-- R573; `failed` lists the tiles that fail their power-up self-test (R50). -/
  | deviceStart (failed : List Nat)
  /-- R569 -/
  | refclkLoss (c : RefClk)
  /-- R471; `headers` are the pool headers read before replay (R388), by pool. -/
  | firmwareUp (headers : List (Nat × PoolHeader))
  -- Tiles and the home path
  /-- R28; the command of handle `id` reaches its home tile. -/
  | homeTileAcceptance (id : Nat)
  /-- R24 -/
  | routeSwitch (src dst : Nat)
  /-- R39 -/
  | meshHeartbeat (tile : Nat)
  /-- R39 -/
  | heartbeatTimeout (tile : Nat)
  /-- R154 -/
  | rangeLockGrant (id : Nat)
  /-- R167; record `seq` of `tile`'s own ring. -/
  | recordCommit (tile seq : Nat)
  /-- R97 -/
  | ackHoldRelease (id : Nat)
  /-- R182 -/
  | partnerConfirmTimeout (tile seq : Nat)
  /-- R170 -/
  | relocation (tile : Nat)
  /-- R171; part `part` of the command of handle `id`. -/
  | journalSpaceWaitEnd (id part : Nat)
  /-- R194 -/
  | mramCommitFailure (tile : Nat)
  /-- R259; a destage of volume row `row`. -/
  | destageStart (vol row : Nat)
  /-- R188; the destage of handle `d`. -/
  | destageComplete (d : Nat)
  /-- R190 -/
  | mirrorRecopyComplete (pool tile : Nat)
  /-- R211; the member command of handle `m`. -/
  | readDeadline (m : Nat)
  -- Moonstone: the rows of frames bring the sync character and the data characters of a frame
  /-- R86 -/
  | edge (sync : MoonSync) (body : List Byte)
  /-- R76 -/
  | invalidFrame (sync : MoonSync) (body : List Byte)
  /-- R106 -/
  | announce (sync : MoonSync) (body : List Byte)
  /-- R107 -/
  | poll (sync : MoonSync) (body : List Byte)
  /-- R108 -/
  | done (sync : MoonSync) (body : List Byte)
  /-- R108 -/
  | failed (sync : MoonSync) (body : List Byte)
  /-- R95 -/
  | holdover (sync : MoonSync) (body : List Byte)
  /-- R81 -/
  | trainCount (f : MoonFrame)
  /-- R81 -/
  | trainResult (at_ : Nat) (timed : Bool) (body : List Byte)
  /-- R116; a read of EPOCH_NOW: 64 bits, or 32 bits of its lower or upper half. -/
  | epochNowRead (wide upper : Bool)
  -- Members and rebuild
  /-- R206; the member command of handle `m`. -/
  | memberCommandCompletion (m : Nat) (st : NvmeStatus) (data : Mem)
  /-- R205 -/
  | memberCommandTimeout (m : Nat)
  /-- R205 -/
  | memberReachTimeout (member : Nat)
  /-- R206; `warning` is the Critical Warning byte of the SMART / Health log page. -/
  | smartLogPoll (member : Nat) (warning : Byte)
  /-- R229; pool whose command is issued. -/
  | rebuildCommandIssue (pool : Nat)
  /-- R224 -/
  | rebuildRowComplete (pool : Nat)
  /-- R224 -/
  | cursorMetadataWrite (pool : Nat)
  /-- R225 -/
  | rowInterlockGrant (pool row : Nat)
  /-- R243 -/
  | copybackRowComplete (pool : Nat)
  /-- R246; the row whose turn it is. -/
  | scrubRow (pool row : Nat)
  -- Cache tier
  /-- R258; `line` 64 + e names entry e of the side buffer (R275). -/
  | lineFillComplete (tile line : Nat)
  /-- R261; the command of handle `id` waits for a line. -/
  | lineAllocation (id part : Nat)
  /-- R265; eviction-buffer entry `entry`, or with EVMODE 1 line `entry`. -/
  | evictionComplete (tile entry : Nat)
  /-- R267 -/
  | evmodeSwitch (tile : Nat)
  /-- R273 -/
  | directorySweep (tile : Nat)
  /-- R291; cause as in Table 6-11, `word` the 256-bit word of the last error. -/
  | lineRetirement (tile line : Nat) (cause : Nat) (word : Nat)
  /-- R279 -/
  | zeroLine (src : MaintSrc) (a : MaintArgs)
  /-- R281 -/
  | invalKey (src : MaintSrc) (a : MaintArgs)
  /-- R281 -/
  | invalRange (src : MaintSrc) (a : MaintArgs)
  /-- R279 -/
  | cleanKey (src : MaintSrc) (a : MaintArgs)
  /-- R279 -/
  | cleanRange (src : MaintSrc) (a : MaintArgs)
  /-- R282 -/
  | lock (src : MaintSrc) (a : MaintArgs)
  /-- R279 -/
  | unlock (src : MaintSrc) (a : MaintArgs)
  /-- R283 -/
  | invalAll (src : MaintSrc) (a : MaintArgs)
  /-- R284; the CACHE_CTL value written. -/
  | enDirectClear (v : W32)
  /-- R286 -/
  | enSet (v : W32)
  /-- R264 -/
  | lfsrSeedLoad (v : W32)
  /-- R267 -/
  | evmodeChange (v : W32)
  -- Serosh Block Transport
  /-- R312 -/
  | connect (h : SbtHdr) (b : ConnectBody)
  /-- R315 -/
  | close (h : SbtHdr) (reason : Byte)
  /-- R36 -/
  | read (h : SbtHdr) (c : Capsule)
  /-- R33 -/
  | write (h : SbtHdr) (c : Capsule)
  /-- R337 -/
  | flush (h : SbtHdr) (c : Capsule)
  /-- R321 -/
  | writeZeroes (h : SbtHdr) (c : Capsule)
  /-- R321 -/
  | deallocate (h : SbtHdr) (c : Capsule)
  /-- R322 -/
  | verify (h : SbtHdr) (c : Capsule)
  /-- R332 -/
  | dataOut (h : SbtHdr) (tag : BitVec 16) (offset : W32) (ddgst : W32) (payload : List Byte)
  /-- R338 -/
  | abort (h : SbtHdr) (tag : BitVec 16)
  /-- R343 -/
  | errlogReq (h : SbtHdr) (kind : Byte) (page : BitVec 16)
  /-- R344 -/
  | resume (h : SbtHdr) (disposition : Byte) (freezeId : BitVec 16)
  /-- R304 -/
  | ack (h : SbtHdr)
  /-- R301 -/
  | sbtPacketDiscard (port : Nat) (cause : DiscardCause)
  /-- R323 -/
  | unknownConnectionPacket (h : SbtHdr) (isClose5 : Bool)
  /-- R306; connection of device identifier `conn`. -/
  | delayedAck (conn : W32)
  /-- R308; packet `seq` of connection `conn`. -/
  | retransmitTimeout (conn : W32) (seq : W32)
  /-- R309 -/
  | connectionLoss (conn : W32)
  /-- R309 -/
  | creditProbe (conn : W32)
  /-- R314 -/
  | refusalRetentionExpiry (addr : BitVec 128) (udp : BitVec 16) (tenantConn seq : W32)
  /-- R315 -/
  | indexReuse (tile index : Nat)
  /-- R330; the grant the device sizes, for the command of handle `id`. -/
  | xferRdy (id : Nat) (offset length : Nat)
  /-- R334; the command of handle `id`. -/
  | commandCompletion (id : Nat)
  -- Ports and partner links
  /-- R355; link named by its lowest port. -/
  | linkUp (port : Nat)
  /-- R355 -/
  | linkDown (port : Nat)
  /-- R353 -/
  | fecErrorSecond (port codewords : Nat)
  /-- R362; the priorities a PFC frame names, and their pause quanta. -/
  | pfcFrame (port : Nat) (classes : BitVec 8) (quanta : Nat)
  /-- R362; ingress occupancy in KiB at that moment. -/
  | pfcRepeat (port occupancyKib : Nat)
  /-- R360 -/
  | neighbourResolve (tile : Nat) (addr : BitVec 128)
  /-- R366 -/
  | memberQueueSetup (member tile : Nat) (admin : Bool) (step : QueueStep)
  /-- R367 -/
  | keepAlive (member : Nat)
  /-- R374 -/
  | memberQueueBreak (member tile : Nat) (admin : Bool) (cause : BreakCause)
  /-- R376; `connected` says whether the attempt succeeds. -/
  | memberReconnectAttempt (member tile : Nat) (connected : Bool)
  /-- R377 -/
  | memberReissue (m : Nat)
  /-- R372 -/
  | poolInitComplete (pool : Nat)
  /-- R489 -/
  | extentZeroingComplete (pool extent : Nat)
  /-- R380 -/
  | hello (h : PartnerHdr)
  /-- R380 -/
  | nack (h : PartnerHdr)
  /-- R381 -/
  | poolOffer (h : PartnerHdr) (pool : Nat) (d : PoolDesc)
  /-- R381 -/
  | poolReply (h : PartnerHdr) (pool : Nat) (result : Nat)
  /-- R381 -/
  | poolWithdraw (h : PartnerHdr) (pool : Nat)
  /-- R382; the fragment of record `r`'s image at `fragOffset`; the last one's arrival completes the record. -/
  | record (h : PartnerHdr) (seq fragOffset originTile : Nat) (last : Bool) (r : Rec)
  /-- R181 -/
  | confirm (h : PartnerHdr) (seq originTile result : Nat)
  /-- R385; the header read at the import. -/
  | release (h : PartnerHdr) (pool : Nat) (hds : List PoolHeader)
  /-- R386 -/
  | releaseAck (h : PartnerHdr) (pool result : Nat)
  /-- R380; partner link number. -/
  | partnerResendTimer (link : Nat)
  /-- R380 -/
  | helloSend (link : Nat)
  /-- R380 -/
  | partnerLinkTimeout (link : Nat)
  /-- R383; how many of the three metadata members complete the write, and OWNER as found. -/
  | leaseRenewal (pool completed : Nat) (owner : BitVec 64)
  /-- R384 -/
  | leaseLoss (pool : Nat)
  /-- R385; the header read first. -/
  | autoImport (pool : Nat) (hds : List PoolHeader)
  /-- R385; the header read again. -/
  | importCheck (pool : Nat) (hds : List PoolHeader)
  -- Host endpoint
  /-- R391; negotiated rate in GT/s and width. -/
  | pcieLinkUp (rate width : Nat)
  /-- R391; a retrain to a lower rate or width, or with width 0 link down. -/
  | pcieLinkDown (rate width : Nat)
  /-- R428 -/
  | dStateEntry (fn : Nat) (d : DState)
  /-- R428 -/
  | d0Return (fn : Nat)
  /-- R395 -/
  | vfEnable (enable : Bool) (numVfs : Nat)
  /-- R398 -/
  | functionLevelReset (fn : Nat)
  /-- R409 -/
  | hostCompletion (c : HostCpl)
  /-- R412 -/
  | completionTimeout (tag : Nat)
  /-- R412 -/
  | tagQuarantineEnd (tag : Nat)
  /-- R419 -/
  | translationCompletion (t : Translation)
  /-- R417; the page range invalidated for a function. -/
  | invalidationRequest (fn itag : Nat) (page : BitVec 52) (pages : Nat)
  /-- R421 -/
  | windowWrite (t : WinTlp) (data : List (Option Byte))
  /-- R421 -/
  | windowRead (t : WinTlp) (len : Nat)
  /-- R424; the function that writes and the device window number. -/
  | winCommit (fn window : Nat) (v : W32)
  /-- R426; offset in the window's register block. -/
  | windowDirectWrite (fn window offset : Nat) (v : W32)
  -- Work rings
  /-- R448 -/
  | sqDb (fn sq : Nat)
  /-- R454 -/
  | sqDispatch (tile : Nat)
  /-- R442; the dispatched entry of handle `id`. -/
  | ringRead (id : Nat)
  /-- R442 -/
  | ringWrite (id : Nat)
  /-- R442 -/
  | ringFlush (id : Nat)
  /-- R442 -/
  | ringWriteZeroes (id : Nat)
  /-- R442 -/
  | ringDeallocate (id : Nat)
  /-- R443 -/
  | pqCompute (id : Nat)
  /-- R444 -/
  | reconstruct (id : Nat)
  /-- R445 -/
  | copy (id : Nat)
  /-- R447 -/
  | skip (id : Nat)
  /-- R461 -/
  | cqHeadDb (fn cq : Nat) (v : W32)
  /-- R459 -/
  | cqAggTimer (cq : Nat)
  /-- R462 -/
  | sqDisable (fn sq : Nat) (v : W32)
  /-- R462 -/
  | sqDrainComplete (sq : Nat)
  /-- R466 -/
  | sqEnable (fn sq : Nat) (v : W32)
  /-- R467 -/
  | cqEnable (fn cq : Nat) (v : W32)
  /-- R467 -/
  | cqDisable (fn cq : Nat) (v : W32)
  -- Mailbox commands
  /-- R485; the value written to MBX_DOORBELL. -/
  | mailboxCancel (mb : Nat) (v : W32)
  /-- R470 -/
  | overrun (mb : Nat) (v : W32)
  /-- R474 -/
  | configStored (mb : Nat)
  /-- R474 -/
  | devInfo (g : Go)
  /-- R396 -/
  | funcAssign (g : Go) (vf kind op first last : Nat)
  /-- R396 -/
  | withdraw (g : Go) (vf kind op first last : Nat)
  /-- R358 -/
  | portConfig (g : Go) (p : PortParams)
  /-- R357 -/
  | portStop (g : Go) (port : Nat)
  /-- R357 -/
  | portStart (g : Go) (port : Nat)
  /-- R389 -/
  | portStatus (g : Go) (port : Nat)
  /-- R389 -/
  | portStats (g : Go) (port : Nat) (buf : SegDesc)
  /-- R389 -/
  | portTest (g : Go) (port pattern seconds : Nat)
  /-- R349 -/
  | sbtConfig (g : Go) (udpPort credit lossMs : Nat)
  /-- R313 -/
  | sbtTenantSet (g : Go) (index : Nat) (tenantId : BitVec 128) (ranges : List (Nat × Nat))
  /-- R313 -/
  | sbtTenantRemove (g : Go) (index : Nat) (tenantId : BitVec 128) (ranges : List (Nat × Nat))
  /-- R349 -/
  | sbtConnList (g : Go) (tile : Nat) (buf : SegDesc)
  /-- R315 -/
  | sbtConnClose (g : Go) (conn : W32)
  /-- R345 -/
  | sbtThrottle (g : Go) (scope target : Nat) (ident : W32) (grace duration : Nat)
  /-- R349 -/
  | sbtStats (g : Go) (scope : Nat) (ident : W32) (buf : SegDesc)
  /-- R486; `found` is what Identify gives for each named member. -/
  | poolCreate (g : Go) (p : PoolParams) (found : List MemberIdent)
  /-- R487 -/
  | poolDelete (g : Go) (pool : Nat)
  /-- R482 -/
  | poolStart (g : Go) (pool : Nat)
  /-- R481 -/
  | poolStop (g : Go) (pool : Nat)
  /-- R579 -/
  | poolStatus (g : Go) (pool : Nat)
  /-- R219; `found` is what Identify gives for each named member. -/
  | hotspareSet (g : Go) (pool : Nat) (members : List Nat) (found : List MemberIdent)
  /-- R250 -/
  | poolDegradedConfig (g : Go) (pool deadlineUs scrubDays : Nat)
  /-- R231 -/
  | rebuildConfig (g : Go) (floorPct : Nat)
  /-- R250 -/
  | rebuildStatus (g : Go) (pool : Nat) (buf : SegDesc)
  /-- R245 -/
  | scrubStart (g : Go) (pool : Nat)
  /-- R245 -/
  | scrubPause (g : Go) (pool : Nat)
  /-- R245 -/
  | scrubResume (g : Go) (pool : Nat)
  /-- R250 -/
  | lstRead (g : Go) (pool first : Nat) (buf : SegDesc)
  /-- R488 -/
  | volumeCreate (g : Go) (p : VolParams)
  /-- R489 -/
  | volumeDelete (g : Go) (vol : Nat)
  /-- R482 -/
  | volumeStart (g : Go) (vol : Nat)
  /-- R480 -/
  | volumeStop (g : Go) (vol : Nat)
  /-- R480 -/
  | volumeStopComplete (mb : Nat)
  /-- R490 -/
  | volumeSet (g : Go) (vol mask home : Nat) (attr : BitVec 8) (policy : Nat)
  /-- R579 -/
  | volumeStatus (g : Go) (vol : Nat)
  /-- R488 -/
  | volumeSetExtents (g : Go) (vol extents : Nat) (buf : SegDesc) (list : List Nat)
  /-- R365 -/
  | memberDefine (g : Go) (p : MemberParams)
  /-- R204 -/
  | memberStatus (g : Go) (member : Nat)
  /-- R250 -/
  | memberFail (g : Go) (member : Nat)
  /-- R219 -/
  | memberReplace (g : Go) (pool index member : Nat) (found : MemberIdent)
  /-- R378 -/
  | partnerConfig (g : Go) (port link : Nat) (autoImport : Bool) (identity : BitVec 64)
  /-- R389 -/
  | partnerStatus (g : Go) (link : Nat)
  /-- R385; the header read first. -/
  | poolImport (g : Go) (pool : Nat) (hds : List PoolHeader)
  /-- R385 -/
  | poolRelease (g : Go) (pool : Nat)
  /-- R118 -/
  | epochConfig (g : Go) (p : EpochParams)
  /-- R81 -/
  | epochTrain (g : Go)
  /-- R105 -/
  | epochSeal (g : Go) (action : Nat) (es : BitVec 64)
  /-- R108 -/
  | sealFailRequest (g : Go) (action : Nat) (es : BitVec 64)
  /-- R118 -/
  | epochSealStatus (g : Go)
  /-- R111 -/
  | epochCmapRead (g : Go) (vol : Nat) (buf : SegDesc)
  /-- R118 -/
  | epochStats (g : Go)
  /-- R201 -/
  | journalStatus (g : Go) (scope ident : Nat) (buf : SegDesc)
  /-- R201 -/
  | journalMirrorSet (g : Go) (pool index0 index1 : Nat)
  /-- R381 -/
  | journalPartner (g : Go) (pool link : Nat)
  /-- R381 -/
  | journalPartnerClear (g : Go) (pool link : Nat)
  /-- R201 -/
  | journalDrain (g : Go) (scope ident : Nat)
  /-- R201 -/
  | journalDrainComplete (mb : Nat)
  /-- R287 -/
  | cacheDisable (g : Go)
  /-- R287 -/
  | cacheDisableQuiesced (mb : Nat)
  /-- R287 -/
  | cacheEnable (g : Go)
  /-- R270 -/
  | cacheConfig (g : Go) (tile mask zGib delayUs : Nat)
  /-- R278 -/
  | cacheRatSet (g : Go) (vol policy : Nat) (entries : List RatEntry)
  /-- R278 -/
  | cacheRatGet (g : Go) (vol : Nat)
  /-- R296 -/
  | cacheStats (g : Go) (tile : Nat) (buf : SegDesc)
  /-- R492 -/
  | shortSelftest (g : Go) (kind pool : Nat)
  /-- R492 -/
  | extendedSelftest (g : Go) (kind pool : Nat)
  /-- R493; a finished test, with what the short test found: faulty lines, bad MRAM words by tile, tiles whose known-answer
  tests failed. -/
  | selftestComplete (kind pool : Nat) (badLines : List (Nat × Nat)) (badMram : List Nat) (badCitrine : List (Nat × Nat))
  /-- R493 -/
  | selftestStatus (g : Go) (kind pool : Nat)
  /-- R491 -/
  | selftestAbort (g : Go) (kind pool : Nat)
  /-- R523 -/
  | jetStatus (g : Go)
  /-- R499 -/
  | jetToken (g : Go)
  /-- R523 -/
  | jetClear (g : Go) (token : W32)
  /-- R523 -/
  | jetClearDone (mb : Nat)
  /-- R494 -/
  | fwInfo (g : Go)
  /-- R495; `data` is what the device reads from BUF. -/
  | fwDownload (g : Go) (offset length : Nat) (buf : SegDesc) (data : List Byte)
  /-- R496 -/
  | fwVerifyPending (g : Go) (action : Nat)
  /-- R496 -/
  | fwClearPending (g : Go) (action : Nat)
  /-- R496 -/
  | fwConfirm (g : Go) (action : Nat)
  /-- R497 -/
  | secPubkey (g : Go) (buf : SegDesc)
  /-- R497 -/
  | kekLoad (g : Go) (hostPub wrapped : List Byte)
  /-- R498 -/
  | keyLoad (g : Go) (vol : Nat) (wrapped : List Byte)
  /-- R498 -/
  | keyDestroy (g : Go) (vol : Nat)
  /-- R494 -/
  | secMeasure (g : Go) (buf : SegDesc)
  /-- R500 -/
  | powerStateSet (g : Go) (st : Nat)
  /-- R500 -/
  | powerStatus (g : Go)
  /-- R429 -/
  | powerD3cold (g : Go) (enable : Nat)
  /-- R534 -/
  | thermalConfig (g : Go) (warn throttle critical graceMs : Nat)
  -- Faults, Jet and JTAG
  /-- R518; the value written. -/
  | faultAck (v : W32)
  /-- R502; queue slot. -/
  | f2TimerExpiry (slot : Nat)
  /-- R503 -/
  | f3Contained (slot : Nat)
  /-- R510 -/
  | f3ContainmentTimeout (slot : Nat)
  /-- R507; the domain's kind and number (Table 12-10). -/
  | correlationWindowClose (kind ident : Nat)
  /-- R516 -/
  | aliveKick (v : W32)
  /-- R522; word read. -/
  | jetDataRead (word : Nat)
  /-- R522 -/
  | jetCursorWrite (v : W32)
  -- Housekeeping and power
  /-- R530; the reading of the next channel of a tile. -/
  | channelConversion (tile : Nat) (value : BitVec 16)
  /-- R530 -/
  | roundEnd (tile : Nat)
  /-- R537 -/
  | tripComparator (tile diode : Nat)
  /-- R10; function, place, width in bytes and value. -/
  | registerWrite (fn : Nat) (p : RegPlace) (width : Nat) (v : BitVec 64)
  -- Of several of the families above, placed last: Lean's code generator wants constructors with operands first
  /-- R528; the boundary data shifted in. -/
  | extest (tdi : List Bool)
  /-- R528 -/
  | samplePreload (tdi : List Bool)
  /-- R528 -/
  | frzSelect (v : BitVec 16)
  /-- R529; the bits shifted in from TDI. -/
  | frzShift (tdi : List Bool)
  /-- R528 -/
  | frzMemaddr (v : BitVec 64)
  /-- R515 -/
  | coreWatchdog (tile core : Nat)
  /-- R543; T0's hottest diode as the aux domain reads it, in 0.25 °C units. -/
  | auxTempPoll (value : BitVec 11)
  /-- R575 -/
  | smbusBlockRead (command : Byte)
  /-- R24; the two adjacent tiles. -/
  | meshLinkLoss (a b : Nat)
  /-- R569 -/
  | refclkReturn (c : RefClk)
  /-- R356; the request's source address, with its identifier, sequence number and data as one payload. -/
  | echoRequest (a : Arrival) (src dst : BitVec 128) (payload : List Byte)
  /-- R360 -/
  | neighbourDiscovery (a : Arrival) (m : NeighbourMsg)
  /-- R389; bits and errors per lane. -/
  | portTestComplete (mb : Nat) (counts : List (Nat × Nat))
  /-- R230; the port and the pool whose extended test reads. -/
  | selftestCommandIssue (pool port : Nat)
  -- Commands without operands
  /-- R566 -/
  | pwrOkLoss
  /-- R570 -/
  | sysResetNAssert
  /-- R55 -/
  | perstNAssert
  /-- R571 -/
  | perstNRelease
  /-- R525 -/
  | freezeNLow
  /-- R195 -/
  | replayComplete
  /-- R68 -/
  | epochEdge
  /-- R94 -/
  | missLimit
  /-- R94 -/
  | unsynchronised
  /-- R95 -/
  | holdoverSend
  /-- R92 -/
  | rephase
  /-- R82 -/
  | trainTimeout
  /-- R107 -/
  | sealMapsStored
  /-- R108 -/
  | sealTimeout
  /-- R109 -/
  | sealLocalEnd
  /-- R348 -/
  | powerStateEntry
  /-- R499 -/
  | jetTokenExpiry
  /-- R513 -/
  | aliveToggle
  /-- R516 -/
  | hostWatchdog
  /-- R521 -/
  | jetSuppressionWindow
  /-- R528 -/
  | idcode
  /-- R528 -/
  | clamp
  /-- R528 -/
  | highz
  /-- R528 -/
  | frzStatus
  /-- R528 -/
  | frzMemdata
  /-- R528 -/
  | frzInfo
  /-- R541 -/
  | shutdownClose
  /-- R546 -/
  | ps2Wake
  /-- R546 -/
  | ps2Idle
  /-- R528 -/
  | testLogicReset
  deriving DecidableEq, Repr

end Sys2Proof
end

