-- ==== Sys2Proof/Decode.lean ====
section
/-! DEFINITION. The commands a table word spells. No row of spec/opcode_table.json gives bits: commands reach the block as
packets, frames, entries and register writes already taken apart, so no word spells one. -/

namespace Sys2Proof

/-- The command that an `nbits`-bit word spells by the table's bits: none, since no row gives bits. -/
def decodeTableWord (_nbits _w : Nat) : Option Instr := none

end Sys2Proof
end

