-- ==== Sys2Proof/Config.lean ====
section
/-! DEFINITION. What the spec leaves to the fuses, to other standards or to chance: opaque constants, so that no
proof can rest on a value of theirs. -/

namespace Sys2Proof.Config

/-- The 12 ASCII characters of the serial number (Table 9-7), fused. -/
opaque serial : BitVec 96
/-- DEV_UUID (Table 9-7), fused. -/
opaque uuid : BitVec 128
/-- DEV_IDENTITY (Table 9-7, R378), fused. -/
opaque identity : BitVec 64
/-- The silicon stepping (Table 9-7), fused. -/
opaque stepping : BitVec 4
/-- The fused base MAC address (R360). -/
opaque baseMac : BitVec 48
/-- The temperature coefficients c0, c1 and c2 of reference `r` of tile `t`, fused (R532). -/
opaque trimCoeff : Nat → Nat → Int × Int × Int

/-- The bandgap reference's nominal voltage in mV, which the spec does not give (Table 13-1). -/
opaque bandgapMv : BitVec 12

/-- A fresh 64-bit value the spec leaves open: applied to `State.freeIx`. -/
opaque free : Nat → BitVec 64
/-- A fresh 32-bit random draw (initial SEQ, R303; Jet token, R499; Spinel seed, R150). -/
opaque random32 : Nat → BitVec 32
/-- The FEC-corrected codewords that a link has counted, which no row brings (R389): applied to `State.freeIx`. -/
opaque fecCorrected : Nat → BitVec 64
/-- A fresh byte of a memory whose content the spec leaves undefined: draw and offset. -/
opaque freeByte : Nat → Nat → Byte
/-- The result of an operation whose data the spec leaves undefined (R445 overlap): draw and offset. -/
opaque freeBit : Nat → Nat → Bool

/-- Whether a read of an Agate line meets a correctable ECC error (R289), and the block in which a read of an HBM store slot meets an
uncorrectable one, if any (R290, R293): events of the memory cells, by draw. -/
opaque lineError : Nat → Bool
opaque slotError : Nat → Option (BitVec 7)

/-- SHA-384 of a byte string (R494); the standard is cited, not restated. -/
opaque sha384 : List Byte → BitVec 384
/-- ECDSA P-384 verification of a 64-byte header part against a 96-byte signature under the fused key (R494). -/
opaque signatureGood : List Byte → List Byte → Bool
/-- VERSION, SVN and SHA-384 (header and body) of the firmware image the factory wrote to slot A (R494). -/
opaque factoryVersion : Nat
opaque factorySvn : Nat
opaque factoryDigest : BitVec 384
/-- The public key and certificate chain that SEC_PUBKEY returns (R497). -/
opaque pubKeyChain : List Byte
/-- The KEK that HOST_PUB and WRAPPED give by ECDH, HKDF and RFC 3394; none on an integrity failure (R497). -/
opaque kekUnwrap : List Byte → List Byte → Option (BitVec 256)
/-- The 64 bytes RFC 3394 unwraps from WRAPPED under a KEK; none on failure (R498). -/
opaque keyUnwrap : BitVec 256 → List Byte → Option (BitVec 512)
/-- AES-XTS-256 of one 4,096-byte block: key, tweak, data (R498, section Encryption keys). -/
opaque xtsEncrypt : BitVec 512 → BitVec 128 → Mem → Mem
/-- The inverse of `xtsEncrypt`. -/
opaque xtsDecrypt : BitVec 512 → BitVec 128 → Mem → Mem

/-- FRZ_INFO of a tile and chain: chain length and chain map identifier of the stepping (R528, R529). -/
opaque scanChainLength : Nat → Nat → BitVec 24
/-- The chain map identifier (R529). -/
opaque chainMapId : BitVec 32
/-- The 10 stored check bits beside a 256-bit word of a readable memory (Table 12-16). -/
opaque checkBits : Nat → Nat → Nat → BitVec 10
/-- A word of a readable memory whose layout the spec does not give: tile, memory, word address, draw. -/
opaque rawWord : Nat → Nat → Nat → Nat → BitVec 256

/-- The cause code of Jet 0x800A (Table 12-15), whose values the spec does not give: applied to the case of R510,
in the order of its list. -/
opaque f4Cause : Nat → BitVec 16

end Sys2Proof.Config
end

