-- ==== Sys2Proof/Machine/Bytes.lean ====
section
/-! DEFINITION. Tables, sparse bytes, little-endian words, CRCs and the field GF(2^8) of the parity arithmetic. -/

namespace Sys2Proof

/-! ### Tables of numbered resources -/

/-- The entry of number `k`. -/
def Tab.get? {α : Type} (t : Tab α) (k : Nat) : Option α :=
  match t with
  | [] => none
  | (j, v) :: rest => if j = k then some v else Tab.get? rest k

/-- The entry of number `k`, or the default of a resource nothing has changed yet. -/
def Tab.getD {α : Type} (t : Tab α) (k : Nat) (d : α) : α := (Tab.get? t k).getD d

/-- The table with entry `k` set, numbers strictly rising. -/
def Tab.set {α : Type} (t : Tab α) (k : Nat) (v : α) : Tab α :=
  match t with
  | [] => [(k, v)]
  | (j, w) :: rest => if k < j then (k, v) :: (j, w) :: rest else if k = j then (k, v) :: rest else (j, w) :: Tab.set rest k v

/-- The table without entry `k`. -/
def Tab.erase {α : Type} (t : Tab α) (k : Nat) : Tab α := t.filter (fun e => e.1 != k)

/-- Entry `k` changed by `f` if it is there. -/
def Tab.adjust {α : Type} (t : Tab α) (k : Nat) (f : α → α) : Tab α :=
  t.map (fun e => if e.1 = k then (e.1, f e.2) else e)

/-- The numbers in use. -/
def Tab.keys {α : Type} (t : Tab α) : List Nat := t.map Prod.fst

/-- The canonical form of a table: numbers strictly rising. -/
def Tab.wf {α : Type} (t : Tab α) : Bool := decide (t.Pairwise (fun a b => a.1 < b.1))

/-! ### Sparse bytes -/

/-- The byte at offset `a`; an unlisted offset reads as zero. -/
def Mem.get (m : Mem) (a : Nat) : Byte := Tab.getD m a 0

/-- The byte at offset `a` set; writing zero removes the entry. -/
def Mem.set (m : Mem) (a : Nat) (b : Byte) : Mem :=
  match m with
  | [] => if b = 0 then [] else [(a, b)]
  | (k, v) :: rest =>
    if a < k then (if b = 0 then (k, v) :: rest else (a, b) :: (k, v) :: rest)
    else if a = k then (if b = 0 then rest else (a, b) :: rest)
    else (k, v) :: Mem.set rest a b

/-- The canonical form: offsets strictly rising, no zero byte. -/
def Mem.wf (m : Mem) : Bool := Tab.wf m && m.all (fun e => e.2 != 0)

/-- `n` bytes from offset `a`, as sparse bytes from offset 0. -/
def Mem.slice (m : Mem) (a n : Nat) : Mem :=
  (m.filter (fun e => decide (a ≤ e.1) && decide (e.1 < a + n))).map (fun e => (e.1 - a, e.2))

/-- `m` with the `n` bytes from offset `a` replaced by those of `src`. -/
def Mem.paste (m : Mem) (a n : Nat) (src : Mem) : Mem :=
  m.filter (fun e => decide (e.1 < a)) ++
    ((src.filter (fun e => decide (e.1 < n))).map (fun e => (a + e.1, e.2))) ++
    m.filter (fun e => decide (a + n ≤ e.1))

/-- Sparse bytes of a byte list laid from offset `a`. -/
def Mem.ofListAt (a : Nat) : List Byte → Mem
  | [] => []
  | b :: rest => if b = 0 then Mem.ofListAt (a + 1) rest else (a, b) :: Mem.ofListAt (a + 1) rest

/-- Sparse bytes of a byte list. -/
def Mem.ofList (l : List Byte) : Mem := Mem.ofListAt 0 l

/-- `n` bytes from offset `a` as a list. -/
def Mem.bytes (m : Mem) (a n : Nat) : List Byte := (List.range n).map (fun i => Mem.get m (a + i))

/-- Bitwise exclusive or, byte by byte. -/
def Mem.xor (m₁ m₂ : Mem) : Mem := m₂.foldl (fun acc e => Mem.set acc e.1 (Mem.get acc e.1 ^^^ e.2)) m₁

/-! ### Little-endian words (R7) -/

/-- The number a little-endian byte string spells. -/
def leNat : List Byte → Nat
  | [] => 0
  | b :: rest => b.toNat + 256 * leNat rest

/-- `n` little-endian bytes of a number. -/
def leBytes : Nat → Nat → List Byte
  | 0, _ => []
  | n + 1, v => BitVec.ofNat 8 v :: leBytes n (v / 256)

/-- `n` bytes of a list from offset `a`, as a little-endian number. -/
def leField (l : List Byte) (a n : Nat) : Nat := leNat ((l.drop a).take n)

/-- Bits `hi:lo` of a number. -/
def bits (v hi lo : Nat) : Nat := v / 2 ^ lo % 2 ^ (hi - lo + 1)

/-- Bit `i` of a number. -/
def bit (v i : Nat) : Bool := v / 2 ^ i % 2 = 1

/-- A field placed at bit `lo`. -/
def field (lo v : Nat) : Nat := v * 2 ^ lo

/-- A flag placed at bit `lo`. -/
def flag (lo : Nat) (b : Bool) : Nat := if b then 2 ^ lo else 0

/-! ### CRCs -/

/-- One bit of CRC-32C in reflected form (polynomial 0x1EDC6F41). -/
def crc32cBit (c : BitVec 32) : BitVec 32 := if c.getLsbD 0 then (c >>> 1) ^^^ 0x82F63B78#32 else c >>> 1

/-- One byte of CRC-32C. -/
def crc32cByte (c : BitVec 32) (b : Byte) : BitVec 32 :=
  let x := c ^^^ b.setWidth 32
  crc32cBit (crc32cBit (crc32cBit (crc32cBit (crc32cBit (crc32cBit (crc32cBit (crc32cBit x)))))))

/-- CRC-32C (R173). -/
def crc32c (l : List Byte) : BitVec 32 := (l.foldl crc32cByte 0xFFFFFFFF#32) ^^^ 0xFFFFFFFF#32

/-- One bit of the CRC-16 of R74 (polynomial 0x1021, no reflection). -/
def crc16Bit (c : BitVec 16) : BitVec 16 := if c.getLsbD 15 then (c <<< 1) ^^^ 0x1021#16 else c <<< 1

/-- One byte of that CRC-16. -/
def crc16Byte (c : BitVec 16) (b : Byte) : BitVec 16 :=
  let x := c ^^^ (b.setWidth 16 <<< 8)
  crc16Bit (crc16Bit (crc16Bit (crc16Bit (crc16Bit (crc16Bit (crc16Bit (crc16Bit x)))))))

/-- CRC-16 (R74): initial value 0xFFFF, no final inversion. -/
def crc16 (l : List Byte) : BitVec 16 := l.foldl crc16Byte 0xFFFF#16

/-! ### GF(2^8) (R131) -/

/-- Multiplication by g = 0x02: shift left, and reduce by 0x11D when bit 8 is set. -/
def gfDouble (a : Byte) : Byte := if a.getLsbD 7 then (a <<< 1) ^^^ 0x1D#8 else a <<< 1

/-- Product by shift and add over the `n` low bits of the second factor. -/
def gfMulAux : Nat → Byte → Byte → Byte
  | 0, _, _ => 0
  | n + 1, a, b => (if b.getLsbD 0 then a else 0) ^^^ gfMulAux n (gfDouble a) (b >>> 1)

/-- The product of GF(2^8) with reducing polynomial 0x11D (R131). -/
def gfMul (a b : Byte) : Byte := gfMulAux 8 a b

/-- g^i. -/
def gfPow : Nat → Byte
  | 0 => 1
  | i + 1 => gfDouble (gfPow i)

/-- a^n. -/
def gfNpow (a : Byte) : Nat → Byte
  | 0 => 1
  | n + 1 => gfMul a (gfNpow a n)

/-- The inverse of a non-zero element: a^254. -/
def gfInv (a : Byte) : Byte := gfNpow a 254

/-- log to base g, for a non-zero element: the least i with g^i = a. -/
def gfLog (a : Byte) : Nat := ((List.range 255).find? (fun i => gfPow i == a)).getD 0

/-- Sparse bytes scaled by a coefficient. -/
def Mem.scale (c : Byte) (m : Mem) : Mem :=
  if c = 0 then [] else (m.map (fun e => (e.1, gfMul c e.2))).filter (fun e => e.2 != 0)

/-! ### Parity of a row (R132-R134) -/

/-- P: the exclusive or of the data strips. -/
def parityP (ds : List Mem) : Mem := ds.foldl Mem.xor []

/-- Q from data strip index `i` on: the sum of g^i · Di. -/
def parityQFrom (i : Nat) : List Mem → Mem
  | [] => []
  | d :: rest => Mem.xor (Mem.scale (gfPow i) d) (parityQFrom (i + 1) rest)

/-- Q: the sum of g^i · Di. -/
def parityQ (ds : List Mem) : Mem := parityQFrom 0 ds

/-- The strip at position `j` among those obtained; an absent one counts as zero content. -/
def stripOf (got : List (Nat × Mem)) (j : Nat) : Mem := Tab.getD got j []

/-- The data strips of a row of `k`, those of `skip` taken as zero. -/
def dataStrips (k : Nat) (got : List (Nat × Mem)) (skip : List Nat) : List Mem :=
  (List.range k).map (fun i => if skip.contains i then [] else stripOf got i)

/-- Recovery of erased positions of a row by Table 3-3, from the strips obtained: the row's k + 2 strips. `erased` holds at
most two positions, in ascending order. -/
def recover (k : Nat) (got : List (Nat × Mem)) (erased : List Nat) : List (Nat × Mem) :=
  let whole (ds : List Mem) : List (Nat × Mem) :=
    ((List.range k).zip ds) ++ [(k, parityP ds), (k + 1, parityQ ds)]
  match erased with
  | [] => got
  | [x] =>
    if x < k then
      let dx := Mem.xor (stripOf got k) (parityP (dataStrips k got [x]))
      Tab.set got x dx
    else if x = k then Tab.set got k (parityP (dataStrips k got []))
    else Tab.set got (k + 1) (parityQ (dataStrips k got []))
  | x :: y :: _ =>
    if y < k then
      let pxy := Mem.xor (stripOf got k) (parityP (dataStrips k got [x, y]))
      let qxy := Mem.xor (stripOf got (k + 1)) (parityQ (dataStrips k got [x, y]))
      let dx := Mem.scale (gfInv (gfPow x ^^^ gfPow y)) (Mem.xor qxy (Mem.scale (gfPow y) pxy))
      let dy := Mem.xor pxy dx
      Tab.set (Tab.set got x dx) y dy
    else if x < k then
      if y = k then
        let qx := parityQ (dataStrips k got [x])
        let dx := Mem.scale (gfInv (gfPow x)) (Mem.xor (stripOf got (k + 1)) qx)
        whole (dataStrips k (Tab.set got x dx) [])
      else
        let dx := Mem.xor (stripOf got k) (parityP (dataStrips k got [x]))
        whole (dataStrips k (Tab.set got x dx) [])
    else whole (dataStrips k got [])

/-- Positions the formula of Table 3-3 for the erasure reads. -/
def recoverSources (k : Nat) (erased : List Nat) : List Nat :=
  match erased with
  | [] => []
  | [x] => if x < k then (List.range (k + 1)).filter (· != x) else List.range k
  | x :: y :: _ =>
    if y < k then (List.range (k + 2)).filter (fun j => j != x && j != y)
    else if x < k then
      if y = k then (List.range (k + 2)).filter (fun j => j != x && j != k)
      else (List.range (k + 1)).filter (· != x)
    else List.range k

/-- The two syndromes of a byte column (R246). -/
def syndromeP (k : Nat) (strips : List Mem) (o : Nat) : Byte :=
  ((List.range (k + 1)).map (fun i => Mem.get (strips.getD i []) o)).foldl (· ^^^ ·) 0

/-- S_Q = Q ⊕ Σ g^i·Di at offset `o` (R246). -/
def syndromeQ (k : Nat) (strips : List Mem) (o : Nat) : Byte :=
  ((List.range k).map (fun i => gfMul (gfPow i) (Mem.get (strips.getD i []) o))).foldl (· ^^^ ·)
    (Mem.get (strips.getD (k + 1) []) o)

/-- Offsets at which any strip holds a non-zero byte: every other offset is consistent. -/
def touchedOffsets (strips : List Mem) : List Nat := (strips.flatMap Tab.keys).eraseDups

/-- The suspect a non-zero pair of syndromes names (R246): a position, or none. -/
def suspect (k : Nat) (sp sq : Byte) : Option Nat :=
  if sp = 0 then some (k + 1)
  else if sq = 0 then some k
  else
    let z := (gfLog sq + 255 - gfLog sp) % 255
    if z < k then some z else none

/-- What scrub finds of a row (R246): none when consistent, else the one strip every inconsistent offset names, if any. -/
def scrubVerdict (k : Nat) (strips : List Mem) : Option (Option Nat) :=
  let bad := (touchedOffsets strips).filter (fun o => syndromeP k strips o != 0 || syndromeQ k strips o != 0)
  match bad with
  | [] => none
  | o :: _ =>
    let s0 := suspect k (syndromeP k strips o) (syndromeQ k strips o)
    if s0.isSome && bad.all (fun o' => suspect k (syndromeP k strips o') (syndromeQ k strips o') == s0) then some s0
    else some none

/-! ### Block masks (R253, Table 4-4) -/

/-- The mask of blocks `first … first + count − 1` of a row. -/
def blockMask (first count : Nat) : BitVec 128 := (BitVec.ofNat 128 (2 ^ count - 1)) <<< first

/-- The four blocks of position `j`. -/
def stripMask (j : Nat) : BitVec 128 := blockMask (4 * j) 4

/-- The blocks a mask marks, in increasing bit order. -/
def maskBlocks (m : BitVec 128) : List Nat := (List.range 128).filter (fun i => m.getLsbD i)

/-- Positions a mask touches. -/
def maskStrips (m : BitVec 128) : List Nat := (List.range 32).filter (fun j => m &&& stripMask j != 0)

/-- Block columns a mask touches. -/
def maskCols (m : BitVec 128) : BitVec 4 :=
  (List.range 4).foldl (fun c b => if (List.range 32).any (fun j => m.getLsbD (4 * j + b)) then c ||| (1#4 <<< b) else c) 0

/-- Number of blocks a mask marks. -/
def maskCount (m : BitVec 128) : Nat := (maskBlocks m).length

/-- `m` with the marked blocks (4,096 bytes each) taken from `src`. -/
def Mem.mergeBlocks (m src : Mem) (mask : BitVec 128) : Mem :=
  m.filter (fun e => !mask.getLsbD (e.1 / 4096)) |> fun keep =>
    (src.filter (fun e => mask.getLsbD (e.1 / 4096))).foldl (fun acc e => Mem.set acc e.1 e.2) keep

/-- Only the marked blocks of `m`. -/
def Mem.onlyBlocks (m : Mem) (mask : BitVec 128) : Mem := m.filter (fun e => mask.getLsbD (e.1 / 4096))

/-- Saturating increment. -/
def satInc (v limit : Nat) : Nat := if v < limit then v + 1 else v

end Sys2Proof
end

