-- ==== Sys2Proof/Machine/State.lean ====
section
/-! DEFINITION. The state of the block as plain data: every register, table, queue, timer flag and pin the spec gives it, the
queue of waiting commands, and State.reset. Each field names its width, the file and rule of spec/ and its reset
value. -/

namespace Sys2Proof.Machine

/-- The three parts of the family (Table 0-1). -/
inductive Part where
  | efv2 | efv4 | efv8
  deriving DecidableEq, Repr

/-- Where the device stands between power loss and service (R55, R573, R543). -/
inductive Phase where
  /-- PWR_OK low. -/
  | off
  /-- SYS_RESET_N asserted with PWR_OK high. -/
  | held
  /-- Started, firmware not up (R471). -/
  | boot
  /-- Firmware up, replay running (R195). -/
  | replay
  /-- Replay complete. -/
  | ready
  /-- D3cold (R429). -/
  | d3cold
  /-- Power-gated after a thermal shutdown (R543). -/
  | shutdown
  deriving DecidableEq, Repr

/-! ### Inputs and pins -/

/-- The pins whose level the state keeps (Table 14-6). -/
structure Pins where
  /-- 1 bit; 14_package R566; reset: high. -/
  pwrOk : Bool := true
  /-- 1 bit; 14_package R570; reset: low, SYS_RESET_N rises with DEVICE_START. -/
  sysResetN : Bool := false
  /-- 1 bit; 14_package R571; reset: low (asserted). -/
  perstN : Bool := false
  /-- 1 bit, asserted low; 12_faults R514; reset: released. -/
  faultN : Bool := true
  /-- 1 bit; 12_faults R513; reset: low. -/
  alive : Bool := false
  /-- 1 bit, open drain; 09_pcie R430; reset: released. -/
  wakeN : Bool := true
  /-- 1 bit; 02_epochs R112: the bypass joins EPOCH_IN to EPOCH_OUT; reset: closed (SYS_RESET_N asserted). -/
  bypassClosed : Bool := true
  /-- ns; 02_epochs R114: the instant at which the bypass last opened or closed; reset: 0. -/
  bypassAt : Nat := 0
  /-- per SD_REFCLK pair, in range; 14_package R569; reset: present. -/
  sdRefclk : List Bool := [true, true, true, true]
  /-- 1 bit; 14_package R569: REFCLK_PCIE in range; reset: present. -/
  pcieRefclk : Bool := true
  deriving DecidableEq, Repr

/-! ### Moonstone -/

/-- A seal a device takes part in or has seen (R105-R109). -/
structure Seal where
  /-- E_s. -/
  es : BitVec 48 := 0
  /-- PHASE: 1 ANNOUNCE, 2 POLL, 3 DONE, 4 FAILED (Table 2-4); 0 none. -/
  phase : Nat := 0
  accepted : Nat := 0
  finished : Nat := 0
  withdrawn : Nat := 0
  /-- this device takes part (R106). -/
  takesPart : Bool := false
  /-- its maps are frozen (R106). -/
  frozen : Bool := false
  /-- it has finished: maps stored and writes below E_s on members (R107). -/
  stored : Bool := false
  /-- COUNT with which ANNOUNCE returned to the master (R108). -/
  announceCount : Option (BitVec 10) := none
  deriving DecidableEq, Repr

/-- A TRAIN in progress (R81). -/
structure Train where
  /-- master: the instant its COUNT frame was sent. -/
  sentAt : Option Nat := none
  /-- master: the mailbox whose EPOCH_TRAIN waits. -/
  mb : Option Nat := none
  /-- the position taken from COUNT, not yet confirmed by RESULT. -/
  seen : Option Nat := none
  deriving DecidableEq, Repr

/-- The Moonstone block (chapter 02). -/
structure Moon where
  /-- 2 bits; R79, Table 2-10 ROLE; reset: 0 STANDALONE. -/
  role : Nat := 0
  /-- 48 bits; R66; reset: DEDUCED 32,768 (factory store 0 plus 32,768, R69, R70), log entry 3. -/
  epoch : BitVec 48 := 32768
  /-- ns; R67: local instant of the edge that began this epoch; reset: 0. -/
  edgeAt : Nat := 0
  /-- signed ns; R86: what the next edge moves by; reset: 0. -/
  edgeShift : Int := 0
  /-- signed ns; R86: what the edge after the next moves by, when an EDGE frame comes before its own edge; reset: 0. -/
  shiftAfter : Int := 0
  /-- numbers and instants of the edges before the running epoch's, newest first (R86, R89: a frame comes D_eff after its edge, which
  may be more than one period); reset: empty. -/
  edges : List (BitVec 48 × Nat) := []
  /-- 3 bits; R66, Table 2-11 PERIOD; reset: 2. -/
  period : Nat := 2
  /-- 3 bits; R118: a stored change waiting for the next edge; reset: none. -/
  periodNext : Option Nat := none
  /-- R118: a period set by EPOCH_CONFIG whose configuration has not been stored yet; reset: none. -/
  periodSet : Option Nat := none
  /-- 5 bits; R96, Table 2-11 GUARD, 0.5 µs units; reset: 4. -/
  guard : Nat := 4
  /-- R96: a change waiting for the next edge; reset: none. -/
  guardNext : Option Nat := none
  /-- signed ns ±1,000; R118; reset: 0. -/
  dlyAdj : Int := 0
  /-- ms; R108; reset: 2,000. -/
  sealTimeoutMs : Nat := 2000
  /-- 1 bit; R82, Table 2-10 TRAINED; reset: 0. -/
  trained : Bool := false
  /-- 10 bits; R81, Table 2-11 POSITION; reset: 0. -/
  position : Nat := 0
  /-- R81: trained hop count p − 1; reset: 0. -/
  hops : Nat := 0
  /-- 24 bits; R81, Table 2-12 D_NS; reset: 0. -/
  delay : Int := 0
  /-- R81: a new D waiting for the next EDGE frame; reset: none. -/
  delayNext : Option Int := none
  /-- signed ppb; R86: oscillator trim; reset: 0. -/
  trim : Int := 0
  /-- 8 bits; R93, Table 2-12 MISSES; reset: 0. -/
  misses : Nat := 0
  /-- R93: an EDGE frame was accepted since the last local edge; reset: false. -/
  acceptedThis : Bool := false
  /-- R93: the EDGE frame of the next edge has been accepted already; reset: false. -/
  acceptedNext : Bool := false
  /-- R95: a valid frame was received since the last local edge; reset: false. -/
  validThis : Bool := false
  /-- R95: consecutive predicted edges without a valid frame; reset: 0. -/
  silent : Nat := 0
  /-- ns; R92, R94: instant of the last accepted frame; reset: none. -/
  lastAccepted : Option Nat := none
  /-- R94: past 0.5 s without an accepted frame; reset: false. -/
  unsynced : Bool := false
  /-- R88: stays behind until the next TRAIN; reset: false. -/
  behind : Bool := false
  /-- R91: offsets in ns of the consecutive out-of-window frames, newest first; reset: empty. -/
  strays : List Int := []
  /-- signed ns; R92: what a re-phase adds to D at the next edge; reset: 0. -/
  dShift : Int := 0
  /-- ns; R81, R105: the loop delay L of the last TRAIN; reset: 0. -/
  loop : Nat := 0
  /-- R95: a HOLDOVER frame has been sent in this epoch; reset: false. -/
  holdoverSent : Bool := false
  /-- ns; R73, R78: the instant from which EPOCH_OUT is free of this device's own control frames; reset: 0. -/
  lineFree : Nat := 0
  /-- R75, R80: epochs of the EDGE frames this master has sent that have not returned, newest first; reset: empty. -/
  edgesOut : List (BitVec 48) := []
  /-- R88, R81: number to take at the next edge; reset: none. -/
  adopt : Option (BitVec 48) := none
  /-- R81; reset: nothing in progress. -/
  train : Train := {}
  /-- R105-R109; reset: none seen. -/
  sealSt : Seal := {}
  /-- 1 bit; Table 2-10 SEAL_ACTIVE; reset: 0. -/
  sealActive : Bool := false
  /-- W1C bits 8-13 of EPOCH_STATUS; Table 2-10; reset: 0. -/
  rephased : Bool := false
  masterConflict : Bool := false
  epochBehind : Bool := false
  sealDone : Bool := false
  sealFailed : Bool := false
  breakSeen : Bool := false
  /-- 10 bits; Table 2-10 BREAK_POS; reset: 0. -/
  breakPos : BitVec 10 := 0
  /-- 32 bits; R116: latched upper half of EPOCH_NOW; reset: none. -/
  latch : Option W32 := none
  /-- counts of EPOCH_STATS (Table 2-13): misses, holdovers, re-phases, false marks, CRC failures; reset: 0. -/
  nMisses : Nat := 0
  nHoldovers : Nat := 0
  nRephases : Nat := 0
  nFalseMarks : Nat := 0
  nCrcFails : Nat := 0
  /-- R504: STANDALONE behaviour after a contained Moonstone F3, until the next EPOCH_CONFIG; reset: false. -/
  contained : Bool := false
  deriving DecidableEq, Repr

/-! ### Cache tier -/

/-- A row's content in a line, entry or slot (R253): tag, 128 valid and dirty bits (bit 4j + b), data bytes (offset
16,384·j within the row). `unrec` marks blocks R290 found unrecoverable. -/
structure CRow where
  vol : Nat
  row : Nat
  valid : BitVec 128 := 0
  dirty : BitVec 128 := 0
  unrec : BitVec 128 := 0
  data : Mem := []
  deriving DecidableEq, Repr

/-- Agate line states other than Invalid (Table 6-2). -/
inductive LineState where
  | filling | clean | dirty | writing
  deriving DecidableEq, Repr

/-- An Agate line that holds a row (R253-R257). -/
structure Line where
  st : LineState
  c : CRow
  locked : Bool := false
  kill : Bool := false
  /-- the destage mask (Table 6-3). -/
  mask : BitVec 128 := 0
  /-- fetches into the line still in flight, by fetch handle. -/
  fetches : List Nat := []
  /-- blocks set invalid while it fills: fetch data for them is discarded (R262). -/
  skip : BitVec 128 := 0
  /-- brought by a class B fetch that no read has hit yet (R276, R296; log entry 124). -/
  byB : Bool := false
  deriving DecidableEq, Repr

/-- A side-buffer entry (R275): Filling or Clean. -/
structure SideEnt where
  filling : Bool
  kill : Bool := false
  c : CRow
  fetches : List Nat := []
  /-- order of arrival, for the oldest Clean entry. -/
  age : Nat := 0
  deriving DecidableEq, Repr

/-- An HBM store slot with its directory way (Table 6-6). -/
structure Slot where
  c : CRow
  /-- STATE of the way: 1 clean, 2 dirty, 3 writing. -/
  st : Nat := 1
  /-- AGE 0-3. -/
  age : Nat := 0
  /-- way 0-3 of its bucket. -/
  way : Nat := 0
  mask : BitVec 128 := 0
  deriving DecidableEq, Repr

/-- An entry of the line retirement list (Table 6-11). -/
structure RetiredLine where
  line : Nat
  cause : Nat
  ceCount : Nat
  epoch : BitVec 48
  offset : BitVec 16
  word : Nat
  deriving DecidableEq, Repr

/-- Correctable-error count of a line (R289): count and instant of the first error counted. -/
structure CeCount where
  count : Nat := 0
  first : Nat := 0
  deriving DecidableEq, Repr

/-- The cache part of a tile. -/
structure Tier where
  /-- lines E00-E63 that hold a row; 06_agate R256; reset: all Invalid. -/
  lines : Tab Line := []
  /-- 8 entries; R265; reset: empty. -/
  evb : Tab CRow := []
  /-- EVMODE 1: lines whose eviction is being written (R266); reset: none. -/
  leaving : List Nat := []
  /-- 8 entries; R275; reset: empty. -/
  side : Tab SideEnt := []
  /-- stripe store slots in use, by slot index; R269-R272; reset: empty. -/
  store : Tab Slot := []
  /-- slots off the free list after an uncorrectable error; R293; reset: none. -/
  badSlots : List Nat := []
  /-- 64 × 64 bits; R263: age matrix; reset: DESIGN CHOICE 0, log entry 4. -/
  age : Tab (BitVec 64) := []
  /-- 16 bits; R264; reset: 0xACE1 advanced t times at start. -/
  lfsr : BitVec 16 := 0xACE1
  /-- 1 bit; R267: the EVMODE in force on this tile; reset: 0. -/
  evmode : Bool := false
  /-- R267: a change to EVMODE 1 waits for the buffer to drain; reset: false. -/
  evmodeWait : Bool := false
  /-- lines in the order they were locked, newest first; R292; reset: none. -/
  lockOrder : List Nat := []
  /-- R289; reset: 0. -/
  ce : Tab CeCount := []
  /-- dirty blocks (volume, pool row, block) whose content is being read from a spill copy after an uncorrectable error (R290); reset:
  none. -/
  recovering : List (Nat × Nat × Nat) := []
  /-- 4 KiB MRAM list; Table 6-11; reset: kept in MRAM, DESIGN CHOICE empty at first start, log entry 5. -/
  retired : List RetiredLine := []
  /-- 16 entries of (volume, next LBA, run), most recent first; R274; reset: empty. -/
  streams : List (Nat × Nat × Nat) := []
  /-- GiB; R269, R270: Z; reset: 3. -/
  zGib : Nat := 3
  /-- Z bytes; R269: the staging extents; reset: DESIGN CHOICE 0, log entry 6. -/
  staging : Mem := []
  /-- directory sweep running; R273; reset: false. -/
  sweeping : Bool := false
  /-- lines whose class B fill runs; R276; reset: none. -/
  classB : List Nat := []
  /-- CACHE_STATS counts (Table 6-15): hits and misses of the Agate lines, the eviction buffer, the side buffer and the HBM store, in that
  order; class A and B fetches and hits, evictions, kills, correctable and uncorrectable errors; log entry 124; reset: 0. -/
  hits : List Nat := [0, 0, 0, 0]
  misses : List Nat := [0, 0, 0, 0]
  nClassA : Nat := 0
  nHitA : Nat := 0
  nClassB : Nat := 0
  nHitB : Nat := 0
  nEvict : Nat := 0
  nKill : Nat := 0
  nCe : Nat := 0
  nUe : Nat := 0
  deriving DecidableEq, Repr

/-- The cache registers (Tables 6-12, 6-13) and commands in progress. -/
structure CacheRegs where
  /-- CACHE_CTL EN, 1 bit; R294; reset: 1. -/
  en : Bool := true
  /-- REPL, 1 bit; reset: 0. -/
  repl : Bool := false
  /-- EVMODE, 1 bit; reset: 0. -/
  evmode : Bool := false
  /-- PFA_EN and PFB_EN, 1 bit each; reset: 1. -/
  pfa : Bool := true
  pfb : Bool := true
  /-- PF_DEPTH, 3 bits; reset: 1. -/
  pfDepth : BitVec 3 := 1
  /-- LFSR_SEED, 16 bits; reset: 0xACE1. -/
  seed : BitVec 16 := 0xACE1
  /-- CACHE_STATUS STALE_RISK, RETIRED, LOW_LINES, UE_SEEN, WRITE_IGNORED, W1C; reset: 0. -/
  staleRisk : Bool := false
  retiredSeen : Bool := false
  lowLines : Bool := false
  ueSeen : Bool := false
  writeIgnored : Bool := false
  /-- R285: 0x3005 was recorded in this disable; reset: false. -/
  staleLogged : Bool := false
  /-- R287: the mailbox of a running CACHE_DISABLE; reset: none. -/
  disabling : Option Nat := none
  /-- R287: a running CACHE_ENABLE; reset: none. -/
  enabling : Option Nat := none
  deriving DecidableEq, Repr

/-- The DEALLOCATE that a DISCARD makes in a degraded row (R160, R161, R281), while the strips its DATA record carries are fetched: the
ring and SEQUENCE of its INTENT, its blocks, the data strips on failed members it does not wholly cover, and its spill place. -/
structure Discard where
  vol : Nat
  row : Nat
  ring : Nat
  seq : Nat
  mask : BitVec 128
  need : List Nat
  spill : Option Nat := none
  /-- SEQUENCE of its DATA record in the ring, its header not written yet. -/
  dataRec : Option Nat := none
  /-- spill writes outstanding (R179). -/
  spills : Nat := 0
  /-- its DATA record is in place. -/
  ready : Bool := false
  deriving DecidableEq, Repr

/-- A maintenance operation in progress (R279-R283). -/
structure Maint where
  id : Nat
  src : MaintSrc
  /-- operation code of Table 6-8. -/
  op : Nat
  force : Bool
  discard : Bool
  vol : Nat
  /-- rows still to be done, (volume, volume row). -/
  todo : List (Nat × Nat)
  /-- the row it has begun, waiting (R282). -/
  epoch : BitVec 48
  removed : Nat := 0
  written : Nat := 0
  killed : Nat := 0
  skipped : Nat := 0
  /-- 0x0044 when DISCARD could not act (R281). -/
  status : Status := 0
  /-- DEALLOCATEs of degraded rows under way; reset: none. -/
  discards : List Discard := []
  deriving DecidableEq, Repr

/-! ### Amber -/

/-- A record in a ring, with its place and copies (R167, R176). -/
structure RingRec where
  r : Rec
  /-- byte offset in the ring (R168). -/
  off : Nat
  own : Bool := false
  mirror : Bool := false
  /-- partner confirmation: not wanted, awaited, given or waived (R181, R182). -/
  partnerWait : Bool := false
  committed : Bool := false
  retired : Bool := false
  /-- PARTNER records: link, origin tile and sequence at origin (R382). -/
  origin : Option (Nat × Nat × Nat) := none
  /-- an INTENT of a DEALLOCATE (R371). -/
  trim : Bool := false
  /-- an INTENT whose write has been stamped (R97, R98): the acknowledgment epoch. -/
  stamp : Option (BitVec 48) := none
  /-- a DATA record whose payload still arrives: its header, written last, is not there yet (R164). -/
  open_ : Bool := false
  deriving DecidableEq, Repr

/-- An epoch store as it stands in MRAM (R70): the number and the CRC32C written over it. -/
structure EpochCopy where
  epoch : BitVec 48
  crc : W32
  deriving DecidableEq, Repr

/-- A store of number `e` as it is written: the CRC covers the number's six bytes (R7, R70, R173; the layout is log entry 108). -/
def epochCopy (e : BitVec 48) : EpochCopy := { epoch := e, crc := crc32c (leBytes 6 e.toNat) }

/-- A head slot (R169): slot count, head SEQUENCE and offset, and the CRC32C written over them. -/
structure HeadSlot where
  count : BitVec 32 := 0
  seq : Nat := 0
  off : Nat := 0
  crc : W32 := 0
  deriving DecidableEq, Repr

/-- A tile's own ring (R166-R171). -/
structure Amber where
  /-- records from the newest head slot's head onward, oldest first; 04_journal R168; reset: kept in MRAM, DESIGN CHOICE empty,
  log entry 5. -/
  recs : List RingRec := []
  /-- next SEQUENCE, 64 bits; R168; reset: kept, DESIGN CHOICE 0, log entry 5. -/
  nextSeq : Nat := 0
  /-- tail offset below 30 MiB; R168; reset: kept, DESIGN CHOICE 0, log entry 5. -/
  tail : Nat := 0
  /-- newest head slot; R169; reset: kept, DESIGN CHOICE 0, log entry 5. -/
  head : HeadSlot := {}
  /-- the 1,024 head slots that have been written, by place; R169; reset: kept, DESIGN CHOICE none, log entry 5. -/
  slots : Tab HeadSlot := []
  /-- SEAL and MIRROR_MOVE records that wait for room (R171), oldest first; reset: none. -/
  waitCtl : List Rec := []
  /-- relocations done (JOURNAL_STATUS); R170; reset: 0. -/
  relocations : Nat := 0
  /-- R194: the own half cannot commit; reset: false. -/
  failed : Bool := false
  /-- 04_journal Table 4-3, 02_epochs R70: the epoch store in this tile's own half; reset: the factory's valid store of epoch 0. -/
  store : EpochCopy := epochCopy 0
  /-- the copy of this tile's epoch store in its buddy's mirror half (R70, R167); reset: as `store`. -/
  storeMirror : EpochCopy := epochCopy 0
  /-- R40, R167: the buddy has adopted this ring; reset: false. -/
  adopted : Bool := false
  /-- R38: SRAM index of unretired records in this tile's mirror ring, by SEQUENCE; reset: empty. -/
  mirrorIndex : List Nat := []
  deriving DecidableEq, Repr

/-- An entry of a range-lock table (R153): holder is a command handle, or an adopted INTENT (tile, SEQUENCE) (R40), or a
maintenance operation. -/
inductive Holder where
  | cmd (id : Nat)
  | adopted (tile seq : Nat)
  | maint (id : Nat)
  deriving DecidableEq, Repr

structure Lock where
  holder : Holder
  vol : Nat
  lba : Nat
  len : Nat
  write : Bool
  deriving DecidableEq, Repr

/-! ### Commands in flight -/

/-- What a command does (Tables 7-8, 10-2). -/
inductive BlockOp where
  | read | write | flush | zeroes | dealloc | verify
  deriving DecidableEq, Repr

/-- A command's source (R28, R30). -/
inductive Src where
  | sbt (conn : W32) (tag : BitVec 16)
  | ring (entry : Nat)
  | maint (id : Nat)
  deriving DecidableEq, Repr

/-- Where a command stands (R326, R153, R334). -/
inductive CmdPhase where
  /-- received, behind a barrier or held by a freeze (R336, R340). -/
  | received
  /-- on its way to the home tile (R28). -/
  | forwarded
  /-- accepted, waiting for its lock (R154). -/
  | accepted
  /-- lock granted, running. -/
  | locked
  /-- acknowledgment held to the end of the guard window (R97). -/
  | held
  /-- outcome decided, completion not yet sent (R334). -/
  | finished
  deriving DecidableEq, Repr

/-- Which line of Table 4-1 a row part takes. -/
inductive AckMode where
  /-- records in MRAM (first WB line, first UC line, ZERO parts of R161). -/
  | mram
  /-- INTENT committed and both spill writes complete. -/
  | spill
  /-- member writes complete and RETIRE committed. -/
  | members
  deriving DecidableEq, Repr

/-- A row part (R129, R156). Block numbers are row-local, `first` and `count`. -/
structure RowPart where
  /-- volume row q and pool row v (R127). -/
  q : Nat
  row : Nat
  first : Nat
  count : Nat
  policy : Nat := 0
  mode : AckMode := .mram
  /-- SEQUENCE of its INTENT and of its DATA record, once appended. -/
  intent : Option Nat := none
  dataRec : Option Nat := none
  /-- the part waits for ring space, an INTENT limit, spill space (R171, R163) or the state of its row (R162, R258). -/
  waiting : Bool := false
  /-- spill writes outstanding, 0-2 (R179). -/
  spills : Nat := 0
  /-- REF offset of its spill reservation, in 4 KiB units (R180). -/
  spillRef : Option Nat := none
  /-- its data has been taken into the tier, the UC record, or for a read gathered. -/
  taken : Bool := false
  /-- it has reached its acknowledgment point, or for a read its data. -/
  acked : Bool := false
  status : Status := 0
  /-- fetches of a read part still in flight, and the blocks they are to bring. -/
  fetches : List Nat := []
  missing : BitVec 128 := 0
  /-- R160: data strips on failed members whose old content its DATA record carries, that content, and whether it is there. -/
  reconNeed : List Nat := []
  recon : Mem := []
  reconReady : Bool := true
  /-- a direct write without a line (UC lines of Table 4-1). -/
  direct : Bool := false
  /-- the INTENT carries SPILLED and the DATA payload goes to the segment. -/
  spillWanted : Bool := false
  /-- a DATA record belongs to it, in MRAM or spilled (Table 4-1, R160, R161). -/
  wantData : Bool := false
  /-- its records carry UC (R162, R284). -/
  uc : Bool := false
  /-- RETIRE records that its acknowledgment waits for once its member writes are complete (R159). -/
  retires : Option (List Nat) := none
  deriving DecidableEq, Repr

/-- A command from arrival to completion. -/
structure Cmd where
  id : Nat
  src : Src
  /-- the receiving tile (R30). -/
  rx : Nat
  op : BlockOp
  vol : Nat
  lba : Nat
  len : Nat
  ordered : Bool := false
  prefetch : Bool := false
  destage : Bool := false
  phase : CmdPhase := .received
  /-- acceptance: epoch (R28) and order at the home tile (R29). -/
  epoch : BitVec 48 := 0
  order : Nat := 0
  home : Nat := 0
  parts : List RowPart := []
  /-- DATA_IN bytes sent (R333). -/
  sent : Nat := 0
  /-- data received so far by byte offset of the command, and which 1,024-byte units have arrived. -/
  data : Mem := []
  arrived : List Nat := []
  /-- outstanding grants (offset, length) (R330). -/
  grants : List (Nat × Nat) := []
  /-- earlier write-kind commands a FLUSH waits for, and records with DESTAGE (R337). -/
  waitCmds : List Nat := []
  waitRecs : List (Nat × Nat) := []
  status : Status := 0
  /-- acknowledgment stamp (R98) and HELD. -/
  stampEpoch : BitVec 48 := 0
  stampOffset : BitVec 16 := 0
  heldFlag : Bool := false
  /-- named by an ABORT while held (R100). -/
  abortWaiting : Bool := false
  /-- it runs to completion on the storage side without RESP or completion entry (R56, R317, R338). -/
  mute : Bool := false
  /-- a ring write whose data fetch has begun, its INTENTs committed (R33). -/
  asked : Bool := false
  /-- its place in the order of sending between its two tiles (R24); none while it has not been sent. -/
  fwd : Option Nat := none
  deriving DecidableEq, Repr

/-! ### Member I/O -/

/-- What a fetch of strips is for. -/
inductive FetchDest where
  | line (tile line : Nat)
  | side (tile entry : Nat)
  | part (cmd part : Nat)
  | destage (d : Nat)
  | rebuild (pool : Nat)
  /-- a row that scrub reads (R245). -/
  | scrub (pool : Nat)
  /-- a row that the extended self-test reads (R492). -/
  | selftest (pool : Nat)
  /-- the RECON strips of a DEALLOCATE that operation `maint` makes in pool row `row` (R281). -/
  | discard (maint row : Nat)
  deriving DecidableEq, Repr

/-- The three pipelines (Table 1-6). -/
inductive Pipe where
  | host | rebuild | verify
  deriving DecidableEq, Repr

/-- A fetch of strips of one row, block columns `cols` of each (R216, Table 3-3). -/
structure Fetch where
  id : Nat
  pool : Nat
  row : Nat
  vol : Nat
  cols : BitVec 4
  /-- positions wanted. -/
  want : List Nat
  /-- strips obtained, (position, bytes). -/
  got : List (Nat × Mem) := []
  /-- positions taken as erased: failed, late or unreadable (R211, R216, R232). -/
  erased : List Nat := []
  dest : FetchDest
  pipe : Pipe := .host
  tile : Nat := 0
  /-- positions whose blocks a read found unreadable and that are to be rewritten (R232). -/
  repair : List Nat := []
  /-- the class of R229 that its reads belong to in the rebuild pipeline. -/
  cls : Nat := 1
  /-- P and Q of the row do not belong to its data: no strip is recovered from them (R196, R198). -/
  torn : Bool := false
  /-- every strip with a place is read, block by block but for the blocks in `bad`, and each block column recovered by itself (R233). -/
  salvage : Bool := false
  /-- blocks found unreadable: position and block columns (R232, R233). -/
  bad : List (Nat × BitVec 4) := []
  deriving DecidableEq, Repr

/-- NVMe I/O commands used (Table 8-3). -/
inductive NvmeOp where
  | read | write | writeZeroes | dsm | flush
  deriving DecidableEq, Repr

/-- What a member command is for. -/
inductive Purpose where
  | fetch (f pos : Nat)
  | destage (d pos : Nat)
  | spill (cmd part : Nat)
  | rebuildWrite (pool pos : Nat)
  | copyWrite (pool pos : Nat)
  | repair (pool row pos : Nat)
  | metadata (pool : Nat)
  /-- Lost-Strip Table entries written to a metadata member while the MRAM slice is full (R237). -/
  | lstWrite (pool : Nat)
  /-- the frozen change map of a volume written to a metadata member (R107, R247). -/
  | mapWrite (pool vol : Nat)
  /-- the data area of a member zeroed at pool creation (R372). -/
  | initZero (pool : Nat)
  /-- a strip of a released extent zeroed (R489). -/
  | extentZero (pool extent : Nat)
  /-- the spill copy of the INTENT `seq` of ring `tile`, read for replay from mirror member `which` (R197). -/
  | spillRead (tile seq which : Nat)
  /-- the re-copy of a live spill record of `tile`'s segment, `n` units at `ref` of the journal extent area (R190). -/
  | recopyRead (pool tile ref n : Nat)
  | recopyWrite (pool tile ref : Nat)
  /-- the spill copy `which` of an INTENT read to recover block `block` of a row (R290). -/
  | ueRead (ring seq vol row block which : Nat)
  /-- a spill write of a DEALLOCATE that operation `maint` makes in pool row `row` (R281). -/
  | discardSpill (maint row : Nat)
  deriving DecidableEq, Repr

/-- A member command outstanding (R205-R211, R375, R377). -/
structure MCmd where
  id : Nat
  member : Nat
  pool : Nat
  tile : Nat
  op : NvmeOp
  /-- member byte offset and length. -/
  off : Nat
  len : Nat
  data : Mem := []
  /-- FUA, set on every Write and Write Zeroes (Table 8-3). -/
  fua : Bool := false
  /-- generation and CRC32C of each 4 KiB unit of a metadata write (R248). -/
  units : List (BitVec 64 × W32) := []
  purpose : Purpose
  pipe : Pipe
  /-- the class of R229 it belongs to in the rebuild pipeline. -/
  cls : Nat := 1
  /-- its data bytes have been charged (R228). -/
  charged : Bool := false
  /-- the read has passed its deadline (R211). -/
  late : Bool := false
  /-- a write issued again after its timeout (R207). -/
  reissued : Bool := false
  /-- waiting 100 µs after a retryable error (R377), or waiting for a path (R375). -/
  retrying : Bool := false
  retried : Bool := false
  noPath : Bool := false
  /-- waits for its pipeline's allowance (R228). -/
  throttled : Bool := false
  deriving DecidableEq, Repr

/-- A destage of one row (R185-R188). -/
structure Destage where
  id : Nat
  tile : Nat
  pool : Nat
  vol : Nat
  q : Nat
  row : Nat
  /-- blocks it writes (BLOCK_MASK arrangement) and their new content. -/
  mask : BitVec 128
  data : Mem
  /-- the INTENTs whose blocks it writes: ring and SEQUENCE. The ring is the home tile's own, or a lost tile's it has adopted (R41). -/
  intents : List (Nat × Nat)
  rmw : Bool := false
  fetch : Option Nat := none
  /-- member writes outstanding. -/
  writes : List Nat := []
  /-- its writes have been issued. -/
  issued : Bool := false
  /-- new P and Q (R132). -/
  p : Mem := []
  qs : Mem := []
  /-- from UC records, not from a line or slot. -/
  uc : Bool := false
  /-- data strips to release with Dataset Management (R371). -/
  trim : List Nat := []
  /-- replay, adoption, LST or broken-row conversion: P and Q are recomputed from every data strip (R196, R233, R240). -/
  resync : Bool := false
  /-- lost strips that are written zero where they have a place (R233). -/
  zeros : List Nat := []
  /-- P and Q of the row may not belong to its data (R196, R198). -/
  torn : Bool := false
  /-- every strip is written to its available place, each block column recovered by itself (R233). -/
  salvage : Bool := false
  /-- strips of the row that have a home are written there although the cursor has not passed the row yet (R240). -/
  homes : Bool := false
  /-- the pipeline that issues its member commands, and their class (R229). -/
  pipe : Pipe := .host
  cls : Nat := 1
  /-- strips whose content on members is known without a read: wholly valid in the line (R186), or reconstructed (R160). -/
  known : List (Nat × Mem) := []
  deriving DecidableEq, Repr

/-- A row under replay or adoption (R196, R41): the tile that completes it, its INTENTs (ring and SEQUENCE) in generation order, those
whose spill copies are being read, and the copies found. -/
structure ReplayRow where
  tile : Nat
  pool : Nat
  vol : Nat
  row : Nat
  intents : List (Nat × Nat)
  reads : List (Nat × Nat) := []
  copies : List ((Nat × Nat) × Rec) := []
  deriving DecidableEq, Repr

/-! ### Configuration kept in the boot flash (R474, R475) -/

/-- A link's configuration (R356-R364). -/
structure LinkCfg where
  p : PortParams
  started : Bool := false
  deriving DecidableEq, Repr

/-- A tenant table entry (R313). -/
structure TenantCfg where
  tenantId : BitVec 128
  ranges : List (Nat × Nat)
  deriving DecidableEq, Repr

/-- A pool's configuration (R124, R150, R177, R210, R219, R245). -/
structure PoolCfg where
  k : Nat
  s : Nat
  n : Nat
  seed : BitVec 16
  /-- device member number of each pool index (R125). -/
  members : List Nat
  spares : List Nat
  /-- mirror set, pool indices (R177). -/
  mirror0 : Nat
  mirror1 : Nat
  /-- strip slots S (R123). -/
  slots : Nat
  deadlineUs : Nat := 400
  scrubDays : Nat := 30
  /-- partner link (R181). -/
  partner : Option Nat := none
  /-- the stored running state (R474). -/
  running : Bool := false
  /-- reserved by a partner: link and its pool description (R381). -/
  reserved : Option Nat := none
  deriving DecidableEq, Repr

/-- A volume's configuration (R128, R278, R490, R498). -/
structure VolCfg where
  pool : Nat
  home : Nat
  attr : BitVec 8
  policy : Nat
  extents : List Nat
  rat : List RatEntry := []
  running : Bool := false
  /-- the volume key and the 72 bytes that wrap it (R498). -/
  key : Option (BitVec 512) := none
  wrapped : List Byte := []
  deriving DecidableEq, Repr

/-- A partner link's configuration (R378). -/
structure PartnerCfg where
  port : Nat
  autoImport : Bool
  identity : BitVec 64
  deriving DecidableEq, Repr

/-- The device configuration (R474, R475). -/
structure Cfg where
  /-- links with configuration, by lowest port; 08_ports R356; reset: none (factory). -/
  links : Tab LinkCfg := []
  /-- 16 bits; R298; reset: 47589. -/
  udpPort : Nat := 47589
  /-- R349; reset: 256. -/
  credit : Nat := 256
  /-- ms; R309; reset: 500. -/
  lossMs : Nat := 500
  /-- 4,096 entries; R313; reset: none. -/
  tenants : Tab TenantCfg := []
  /-- R150; reset: none. -/
  pools : Tab PoolCfg := []
  /-- R26; reset: none. -/
  vols : Tab VolCfg := []
  /-- R365; reset: none. -/
  members : Tab MemberParams := []
  /-- R378; reset: none. -/
  partners : Tab PartnerCfg := []
  /-- EPOCH_CONFIG values (R118); reset: STANDALONE, guard 4, period 2. -/
  epochRole : Nat := 0
  epochGuard : Nat := 4
  epochPeriod : Nat := 2
  dlyAdj : Int := 0
  sealTimeoutMs : Nat := 2000
  /-- µs per tile; R259; reset: 32. -/
  destageUs : Tab Nat := []
  /-- GiB per tile; R270; reset: 3. -/
  zGib : Tab Nat := []
  /-- percent; R231; reset: 10. -/
  floorPct : Nat := 10
  /-- °C and ms; R534; reset: 95, 100, 110, 20. -/
  warn : Nat := 95
  throttle : Nat := 100
  critical : Nat := 110
  graceMs : Nat := 20
  /-- R429; reset: disabled. -/
  d3coldEn : Bool := false
  /-- KEK, kept wrapped under a fused key (R497); reset: none. -/
  kek : Option (BitVec 256) := none
  deriving DecidableEq, Repr

/-- A change to the description a partner has accepted (R381): a volume's configuration, or none when it is deleted, a pool's, or
a member that replaces a failed pool index. -/
inductive CfgChange where
  | vol (v : Nat) (c : Option VolCfg)
  | pool (p : Nat) (c : PoolCfg)
  | replace (p index member : Nat)
  deriving DecidableEq, Repr

/-- A copy of the configuration in flash (R475): blank, not valid, or a generation and its configuration. -/
inductive FlashCopy where
  | blank
  | bad
  | good (gen : Nat) (c : Cfg)
  deriving DecidableEq, Repr

/-- The boot flash (R494, R574). -/
structure Flash where
  /-- 32 MiB each; R494; reset: kept in flash, DESIGN CHOICE empty, log entry 5. -/
  slotA : Mem := []
  slotB : Mem := []
  /-- slot A still holds the image the factory wrote, which verifies (R494); reset: DESIGN CHOICE true, log entry 5. -/
  factoryA : Bool := true
  /-- 0 A, 1 B; R494; reset: DESIGN CHOICE A, log entry 5. -/
  active : Nat := 0
  /-- 0 none, 1 A, 2 B; R496; reset: none. -/
  pending : Nat := 0
  /-- R475; reset: blank, as on a new part. -/
  copyA : FlashCopy := .blank
  copyB : FlashCopy := .blank
  /-- configuration generation; R474; reset: 0. -/
  gen : Nat := 0
  deriving DecidableEq, Repr

/-! ### Pools, volumes and members at run time -/

/-- POOL_STATUS STATE (Table 11-8). -/
inductive PoolState where
  | absent | initialising | stopped | running | offline | reserved
  deriving DecidableEq, Repr

/-- A FAIL_LIST entry (Table 5-4). -/
structure FailEnt where
  index : Nat
  /-- Peridot home, device member number. -/
  home : Option Nat := none
  deriving DecidableEq, Repr

/-- A Lost-Strip Table entry (Table 5-6). -/
structure LstEnt where
  row : Nat
  strip : Nat
  cause : Nat
  epoch : BitVec 48
  /-- committed on the rebuild tile and its buddy, or on the metadata members (R237). -/
  committed : Bool := true
  deriving DecidableEq, Repr

/-- Blocks to be rewritten under the row interlock (R232, R246), by the pipeline that found them. -/
structure Repair where
  row : Nat
  pos : Nat
  cols : BitVec 4
  data : Mem
  pipe : Pipe := .host
  cls : Nat := 3
  deriving DecidableEq, Repr

/-- The row a pass, copyback or scrub is working on (R224, R243, R245). -/
structure RowWork where
  row : Nat
  interlock : Bool := false
  fetch : Option Nat := none
  writes : List Nat := []
  issued : Bool := false
  deriving DecidableEq, Repr

/-- A spill segment of a tile (R178, R180): head and tail, and the reserved ranges (offset, length) in 4 KiB units, oldest first, with
the epoch in which freed space was freed. -/
structure SpillSeg where
  head : Nat := 0
  tail : Nat := 0
  used : List (Nat × Nat) := []
  freed : List (Nat × Nat × BitVec 48) := []
  deriving DecidableEq, Repr

/-- A pool's run-time state (R204-R248). -/
structure Pool where
  st : PoolState := .stopped
  /-- R220; rebuild tile. -/
  tile : Nat := 0
  /-- Table 5-4 STATE: 0 idle, 1 critical sweep, 2 main pass. -/
  pstate : Nat := 0
  gen : Nat := 0
  cursor : Nat := 0
  baseCursor : Nat := 0
  critCursor : Nat := 0
  copyCursor : Nat := 0
  scrubCursor : Nat := 0
  passEpoch : BitVec 48 := 0
  failList : List FailEnt := []
  baseList : List FailEnt := []
  /-- COPY_TARGET: pool index under copyback and the replacement member. -/
  copy : Option (Nat × Nat) := none
  lstFull : Bool := false
  broken : Bool := false
  /-- broken rows already reported in this list change (R239). -/
  brokenLogged : Bool := false
  lst : List LstEnt := []
  /-- strips (row, position) whose entry a write has removed and whose content no destage has written yet (R235): their part of
  P and Q is still zero (R234). -/
  fresh : List (Nat × Nat) := []
  /-- a new pass starts at the next epoch edge (R223). -/
  passPending : Bool := false
  /-- the cursors have moved since they were last written to member metadata (R224). -/
  cursorsMoved : Bool := false
  /-- the row in progress of sweep or pass, of copyback, of scrub. -/
  work : Option RowWork := none
  copyWork : Option RowWork := none
  scrubWork : Option RowWork := none
  /-- rows below CURSOR, and below BASE_CURSOR, that were not converted for want of LST entries (R238): the cursor does not bring them
  home, and they stay broken. -/
  refused : List Nat := []
  refusedBase : List Nat := []
  /-- rows to be made consistent with strips that entered the LST, once their running destage has ended (R233): the row and its unreadable
  blocks. -/
  salvages : List (Nat × List (Nat × BitVec 4)) := []
  /-- interlocks granted (R225): rows. -/
  interlocks : List Nat := []
  /-- interlocks asked for and not granted. -/
  interlockWait : List Nat := []
  /-- blocks to be rewritten once the interlock is granted (R232, R246). -/
  repairs : List Repair := []
  /-- bytes charged in this epoch per class: sweep, pass, copyback, scrub (R229). -/
  charged : List Nat := [0, 0, 0, 0]
  /-- scrub running, paused (R245) and the counts of skipped rows: unretired INTENT, unavailable strip, broken. -/
  scrubbing : Bool := false
  scrubPaused : Bool := false
  skipIntent : Nat := 0
  skipMissing : Nat := 0
  skipBroken : Nat := 0
  /-- initialisation pending (R372). -/
  init : Bool := false
  /-- members whose data area is still to be zeroed, each with the byte offset its next command begins at (R372). -/
  initWork : List (Nat × Nat) := []
  /-- extents being zeroed (R489), and for each the strips zeroed so far, counted row by row. -/
  zeroing : List Nat := []
  zeroNext : Tab Nat := []
  /-- R177, R190: mirror set usable, and the tiles still re-copying (tile). -/
  mirrorUsable : Bool := true
  recopying : List Nat := []
  /-- the replacement sought (R193): pool index position 0 or 1 of the failed mirror member, or both lost. -/
  mirrorLost : List Nat := []
  /-- the mirror set that the pool journal state holds once the device has replaced a member of the configured one (R190, R193). -/
  mirrorSet : Option (Nat × Nat) := none
  /-- the pool index being replaced (MIRROR_MOVE, Table 4-5). -/
  mirrorOld : Nat := 0
  /-- spill segment size in bytes stored in pool metadata (R178) and the segments by tile. -/
  segSize : Nat := 0
  /-- an imported pool whose journal extent area has not been divided anew: it does not spill yet (R178); reset: false. -/
  segPending : Bool := false
  segs : Tab SpillSeg := []
  /-- partner mirroring is suspended (R182, R183). -/
  suspended : Bool := false
  /-- header fields (R383). -/
  owner : BitVec 64 := 0
  lease : BitVec 32 := 0
  /-- renewals without success (R384). -/
  leaseOk : Bool := true
  /-- offline because OWNER names another device (R384, R388). -/
  disowned : Bool := false
  /-- header read by a running import (R385), and its mailbox. -/
  importHdr : Option PoolHeader := none
  importMb : Option Nat := none
  /-- the row the resynchronising pass of an unprotected import comes to next, and rows beyond it already resynchronised (R387);
  reset: no such pass. -/
  resyncAt : Option Nat := none
  synced : List Nat := []
  /-- metadata generation (R248). -/
  metaGen : Nat := 0
  deriving DecidableEq, Repr

/-- VOLUME_STATUS STATE, with the draining stage of VOLUME_STOP (R480). -/
inductive VolState where
  | stopped | running | stopping | offline
  deriving DecidableEq, Repr

/-- A frozen change map (R104, R111): bits set and the FULL flag. -/
structure FrozenMap where
  bits : List Nat
  full : Bool
  deriving DecidableEq, Repr

/-- A volume's run-time state. -/
structure Vol where
  st : VolState := .stopped
  /-- current home tile (R26, R40). -/
  home : Nat := 0
  /-- active change map (R102): bits set, and whether it was lost (R111). -/
  active : List Nat := []
  activeFull : Bool := false
  /-- frozen map of the running seal, not yet replaced by DONE, and the one readable (R111). -/
  freezing : Option FrozenMap := none
  frozen : Option FrozenMap := none
  /-- no map kept on the buddy beyond 2,048 (R103). -/
  noMap : Bool := false
  /-- JOURNAL_DRAIN or VOLUME_STOP at priority. -/
  draining : Bool := false
  deriving DecidableEq, Repr

/-- A member's queue (R366, R367). -/
structure Queue where
  tile : Nat
  admin : Bool
  /-- setup step reached: 0 TCP … 5 identified; connected when set up. -/
  step : Nat := 0
  connected : Bool := false
  port : Nat := 0
  depth : Nat := 128
  deriving DecidableEq, Repr

/-- Member states of Table 5-1 (codes 0-4); 5 and 6 are computed. -/
inductive MemberState where
  | online | lagging | failed | replacing | spare
  deriving DecidableEq, Repr

/-- A member's run-time state (R204-R209). -/
structure Member where
  st : MemberState := .online
  /-- consecutive timeouts (R205). -/
  strikes : Nat := 0
  timeouts : Nat := 0
  deadlines : Nat := 0
  repairs : Nat := 0
  declared : BitVec 48 := 0
  /-- the pool in which it was declared failed and may not be used again (R209). -/
  failedIn : Option Nat := none
  capacity : Nat := 0
  dlfeat1 : Bool := false
  /-- MQES and the I/O queues the member grants (R366); reset: 127, 8 until identified. -/
  mqes : Nat := 127
  granted : Nat := 8
  /-- CNTLID, IOCCSZ and MAXH2CDATA as the member gave them (R367, R370); reset: 0xFFFF, 4 and 4,096 until it has, log entry 122. -/
  cntlid : Nat := 0xFFFF
  ioccsz : Nat := 4
  maxH2c : Nat := 4096
  /-- the first admin queue has been set up (R367). -/
  identified : Bool := false
  /-- R367: ICResp did not enable both digests. -/
  unusable : Bool := false
  queues : List Queue := []
  keepAlives : Nat := 0
  deriving DecidableEq, Repr

/-! ### Serosh Block Transport -/

/-- An error-log entry (Table 7-15). -/
structure ErrEnt where
  tag : BitVec 16
  status : Status
  opcode : Nat
  vol : Nat
  badLba : Nat
  epoch : BitVec 48
  offset : BitVec 16
  deriving DecidableEq, Repr

/-- Packets of the device kept for retransmission or ordered delivery. -/
inductive TxBody where
  | accept (result maxData limit : Nat) (deviceConn : W32) (epoch : BitVec 48)
  | close (reason : Nat)
  | xferRdy (tag : BitVec 16) (offset length : Nat)
  | dataIn (tag : BitVec 16) (offset : Nat) (len : Nat) (data : Mem)
  | resp (tag : BitVec 16) (status : Status) (freeze held : Bool) (epoch : BitVec 48) (offset : BitVec 16) (freezeId : BitVec 16)
  | abortResp (tag : BitVec 16) (status : Status)
  | errlog (state kind : Nat) (page : BitVec 16) (freezeId : BitVec 16) (nErr nHeld overflow : Nat) (errors : List ErrEnt) (tags : List (BitVec 16))
  | slow (reason target grace duration : Nat)
  | credit (limit reason : Nat)
  | ack
  deriving DecidableEq, Repr

/-- A sequenced packet not yet acknowledged (R305-R309). -/
structure TxPkt where
  seq : W32
  body : TxBody
  /-- instant of first transmission; sent at all (the window may hold it back, R305). -/
  sentAt : Nat := 0
  sent : Bool := false
  retx : Bool := false
  deriving DecidableEq, Repr

/-- A tenant packet's content, as delivered in SEQ order (R304). -/
inductive RxBody where
  | cmd (op : BlockOp) (c : Capsule)
  | dataOut (tag : BitVec 16) (offset : W32) (ddgst : W32) (payload : List Byte)
  | abort (tag : BitVec 16)
  | errlogReq (kind : Byte) (page : BitVec 16)
  | resume (disposition : Byte) (freezeId : BitVec 16)
  | close (reason : Byte)
  deriving DecidableEq, Repr

/-- Connection states (Table 7-6). -/
inductive ConnState where
  | open | settling | settled | closing | lost
  deriving DecidableEq, Repr

/-- A SLOW request in force or waiting (R345-R347). -/
structure Slow where
  target : Nat := 256
  /-- instant at which the grace passes. -/
  from_ : Nat := 0
  /-- epochs left; none until cancelled. -/
  left : Option Nat := none
  deriving DecidableEq, Repr

/-- An SBT connection (R302-R344). -/
structure Conn where
  tile : Nat
  index : Nat
  gen : BitVec 16
  port : Nat
  /-- the address to which the tenant sent CONNECT (R298). -/
  dst : BitVec 128
  addr : BitVec 128
  udp : BitVec 16
  tenantConn : W32
  tenant : Nat
  connectSeq : W32
  /-- the ACCEPT that answered its CONNECT (R312). -/
  accept : TxBody
  acceptSeq : W32
  st : ConnState := .open
  maxData : Nat
  limit : Nat
  /-- a lowered LIMIT and the CREDIT whose acknowledgment applies it (R325). -/
  limitNext : Option (Nat × W32) := none
  /-- LIMIT before a SLOW (R346). -/
  limitBefore : Option Nat := none
  /-- receive side: next SEQ expected, packets stored out of order, unacknowledged count, CE marking of the last packet. -/
  rxNext : W32
  stored : List (W32 × RxBody × Bool) := []
  unacked : Nat := 0
  lastCe : Bool := false
  /-- CE marking of the newest packet ACK covers (R310). -/
  coveredCe : Bool := false
  tsRecent : BitVec 16 := 0
  /-- send side: next SEQ, peer's latest ACK, packets unacknowledged or waiting for the window. -/
  txNext : W32
  txAcked : W32
  tx : List TxPkt := []
  cwnd : Rat := 16
  alpha : Rat := 1
  acked : Nat := 0
  marked : Nat := 0
  windowEnd : W32
  fastRetx : Bool := false
  haveSample : Bool := false
  srtt : Nat := 0
  rttvar : Nat := 0
  rto : Nat := 1000
  /-- freeze (R340-R344). -/
  freezeId : BitVec 16 := 0
  log : List ErrEnt := []
  overflow : Nat := 0
  /-- tags named by an ABORT found unfinished, held RESPs to be followed by ABORT_RESP (R100, R338). -/
  aborted : List (BitVec 16) := []
  /-- close: its own CLOSE has been sent. -/
  closeSent : Bool := false
  /-- throttling: requests and enforcement (R345-R347). -/
  slow : Option Slow := none
  enforced : Option Slow := none
  /-- a standing SBT_THROTTLE request (R540): instant 0 once it is in force, and the epochs it has left. -/
  hostReq : Option Slow := none
  refRate : Nat := 65536
  /-- payload bytes of this epoch and of the 16 before, newest first (R346). -/
  bytesNow : Nat := 0
  bytesPast : List Nat := []
  /-- bytes still allowed in this epoch under enforcement; none without. -/
  allowance : Option Nat := none
  /-- counts for SBT_STATS, by kind (R349). -/
  counts : Tab Nat := []
  deriving DecidableEq, Repr

/-- A refusing ACCEPT kept for 20 ms (R314). -/
structure Refusal1 where
  addr : BitVec 128
  udp : BitVec 16
  tenantConn : W32
  seq : W32
  result : Nat
  /-- the SEQ and EPOCH of its ACCEPT. -/
  isn : W32
  epoch : BitVec 48
  deriving DecidableEq, Repr

/-- The SBT engines (chapter 07). -/
structure Sbt where
  /-- connections, oldest first; 07_transport R316; reset: none. -/
  conns : List Conn := []
  /-- R314; reset: none. -/
  refusals : List Refusal1 := []
  /-- last generation given to (tile, index); R302; reset: none used. -/
  gens : List ((Nat × Nat) × BitVec 16) := []
  /-- identifiers freed and waiting 20 ms; R315; reset: none. -/
  cooling : List (Nat × Nat) := []
  /-- counts for SBT_STATS, by 16 × tile + kind: packets, retransmissions, timeouts, CE marks, discards of R332, freezes, refused
  CONNECTs, then the discards of R301 by cause; R349; reset: 0. -/
  counts : Tab Nat := []
  /-- packets of R323; reset: 0. -/
  nUnknown : Nat := 0
  /-- when a remote address and port was last answered by a CLOSE of REASON 5 (R323); reset: none. -/
  answered : List (BitVec 128 × BitVec 16 × Nat) := []
  /-- unknown-connection packets per port: begin of the running second and count (Table 7-19); reset: none. -/
  unknownRate : Tab (Nat × Nat) := []
  deriving DecidableEq, Repr

/-! ### Ports and partner links -/

/-- A link's run-time state (R355, R362). -/
structure Link where
  up : Bool := false
  trained : Bool := false
  started : Bool := false
  /-- paused by PFC (R362). -/
  paused : Bool := false
  /-- above XOFF, PFC being sent. -/
  xoff : Bool := false
  ingressKib : Nat := 0
  nFrames : Nat := 0
  nUncorrectable : Nat := 0
  /-- frames discarded, by cause (R361, R362, R364, R389). -/
  discards : Tab Nat := []
  nPfcRx : Nat := 0
  nPfcTx : Nat := 0
  /-- a PORT_TEST runs, for the mailbox. -/
  test : Option Nat := none
  deriving DecidableEq, Repr

/-- A sequenced partner frame's body (Table 8-5). -/
inductive PartnerBody where
  | offer (pool : Nat) (d : PoolDesc)
  | reply (pool result : Nat)
  | withdraw (pool : Nat)
  /-- a fragment of a record's image: its offset, and whether it is the last (R382). -/
  | record (seq originTile frag : Nat) (last : Bool) (r : Rec)
  | confirm (seq originTile result : Nat)
  | release (pool : Nat)
  | releaseAck (pool result : Nat)
  deriving DecidableEq, Repr

/-- A partner link's run-time state (R380). -/
structure Partner where
  up : Bool := false
  /-- stopped by containment (Table 12-2). -/
  stopped : Bool := false
  lseq : W32 := 0
  expect : W32 := 0
  /-- frames unacknowledged, oldest first, at most 512. -/
  unacked : List (W32 × PartnerBody) := []
  /-- records awaiting confirmation (tile, SEQUENCE). -/
  awaiting : List (Nat × Nat) := []
  /-- pools whose JOURNAL_PARTNER waits for POOL_REPLY, with the mailbox. -/
  offers : List (Nat × Nat) := []
  /-- pools whose POOL_RELEASE waits for RELEASE_ACK, with the mailbox. -/
  releases : List (Nat × Nat) := []
  deriving DecidableEq, Repr

/-! ### Host endpoint -/

/-- Window registers (Table 9-15) of one window: active and shadow fields. -/
structure WinRegs where
  base : BitVec 32 := 0
  limit : BitVec 32 := 0
  target : BitVec 64 := 0
  ctl : BitVec 32 := 0
  deriving DecidableEq, Repr

/-- A peer window (R420-R426). -/
structure Window where
  act : WinRegs := {}
  sh : WinRegs := {}
  directWrite : Bool := false
  dropped : Bool := false
  commitErr : Bool := false
  readRefused : Bool := false
  /-- REFUSED, 8 bits saturating. -/
  refused : Nat := 0
  deriving DecidableEq, Repr

/-- A function's registers (Tables 9-8, 9-9, 9-12) and D-state. -/
structure Func where
  d : DState := .d0
  /-- INT_MASK, 7 bits; 09_pcie R402; reset: 0x7F. -/
  intMask : BitVec 7 := 0x7F
  /-- INT_VEC[c], 11 bits each; R402; reset: 0. -/
  intVec : List (BitVec 11) := [0, 0, 0, 0, 0, 0, 0, 0]
  /-- REQ_STATUS, 5 bits W1C; R412; reset: 0. -/
  reqStatus : BitVec 5 := 0
  /-- REQ_COUNTS; R413; reset: 0. -/
  timeouts : BitVec 32 := 0
  lateDropped : BitVec 16 := 0
  atsRefused : BitVec 16 := 0
  /-- ATS Enable, Max_Read_Request_Size and Max_Payload_Size from configuration space (R408, R415); reset: PRESUMED clear, 512 (R408),
  128 (PCIe), log entry 123. -/
  ats : Bool := false
  mrrs : Nat := 512
  mps : Nat := 128
  /-- Enable Relaxed Ordering; R410; reset: PRESUMED set (PCIe), log entry 123. -/
  relaxed : Bool := true
  /-- 10-Bit Tag Requester Enable; R408; reset: PRESUMED clear (PCIe), log entry 123. -/
  tag10 : Bool := false
  /-- 4 bits; Completion Timeout Value of Device Control 2; R411; reset: 0000b (the default encoding). -/
  cto : Nat := 0
  /-- MSI-X Enable, Function Mask and the vectors whose Mask bit is clear; R403; reset: PRESUMED clear, clear, none (PCIe), log entry
  123. -/
  msixEnable : Bool := false
  msixMask : Bool := false
  vecOpen : List Nat := []
  /-- PME (R430); reset: 0. -/
  pmeEn : Bool := false
  pmeStatus : Bool := false
  /-- vectors with pending message while masked or held (R403, R428). -/
  heldMsgs : List Nat := []
  /-- level of each vector's OR as last seen (R403), vectors that are high. -/
  high : List Nat := []
  deriving DecidableEq, Repr

/-- What a host read request fetches. -/
inductive ReqPurpose where
  | header (sq : Nat)
  | body (sq : Nat)
  | data (entry seg : Nat)
  deriving DecidableEq, Repr

/-- An outstanding non-posted read request (R408, R409). -/
structure HostReq where
  tag : Nat
  fn : Nat
  purpose : ReqPurpose
  addr : Nat
  len : Nat
  /-- offset of this piece within the whole fetch, bytes received so far. -/
  base : Nat := 0
  got : List Byte := []
  /-- the instant at which it fails for want of a completion (R411, R412). -/
  due : Nat := 0
  deriving DecidableEq, Repr

/-- A DMA write that waits for its function's D0 or for a translation (R416, R428), and the ring entry whose data it carries. -/
structure DmaWrite where
  fn : Nat
  addr : Nat
  len : Nat
  data : Mem
  entry : Option Nat := none
  /-- the Relaxed Ordering attribute (R410). -/
  ro : Bool := false
  deriving DecidableEq, Repr

/-- A translation request outstanding (R416): function, page and whether it is for a write. -/
structure TrReq where
  id : Nat
  fn : Nat
  page : Nat
  write : Bool
  deriving DecidableEq, Repr

/-- An address-translation cache entry (R415). -/
structure AtcEnt where
  fn : Nat
  page : BitVec 52
  target : BitVec 52
  r : Bool
  w : Bool
  deriving DecidableEq, Repr

/-- The endpoint (chapter 09). -/
structure Pcie where
  /-- link up with rate (GT/s) and width; R391; reset: down. -/
  linkUp : Bool := false
  rate : Nat := 0
  width : Nat := 0
  /-- NumVFs in force, 0 when VF Enable is clear; R395; reset: 0. -/
  numVfs : Nat := 0
  /-- GiB of every VF's BAR 2, 1 to 64; R392 (Table 9-1), R397; reset: 4. -/
  vfBar2Gib : Nat := 4
  /-- functions with non-default registers, 0 PF0, n VF n; reset: defaults. -/
  funcs : Tab Func := []
  /-- windows; R423; reset: 0. -/
  windows : Tab Window := []
  /-- resource holders other than PF0: SQ, CQ, window, by number; R396; reset: PF0. -/
  sqOwner : Tab Nat := []
  cqOwner : Tab Nat := []
  winOwner : Tab Nat := []
  /-- volume ranges of a VF; R396; reset: none. -/
  volRanges : Tab (List (Nat × Nat)) := []
  /-- requests outstanding, and quarantined tags, each with its function and the instant at which its quarantine ends; R408, R412; reset:
  none. -/
  reqs : List HostReq := []
  quarantine : Tab (Nat × Nat) := []
  /-- requests that wait for a tag, a translation or D0 (R412, R416), oldest first; reset: none. -/
  waitReqs : List HostReq := []
  waitWrites : List DmaWrite := []
  /-- translation; R415, R416; reset: empty. -/
  trReqs : List TrReq := []
  atc : List AtcEnt := []
  nextTr : Nat := 0
  /-- lower halves of 64-bit registers held (R16), by kind of register block, and number and offset; reset: none. -/
  halves : List ((Nat × Nat) × W32) := []
  /-- AER log: kinds recorded, newest first (R412-R414, R421); reset: empty. -/
  aer : List Nat := []
  deriving DecidableEq, Repr

/-! ### Work rings -/

/-- A parsed segment descriptor (Table 10-3). -/
structure Seg where
  addr : Nat
  len : Nat
  typ : Nat
  window : Nat
  /-- staging place a TYPE 1 descriptor resolved to when its entry started (R425, R440): tile and byte offset. -/
  place : Option (Nat × Nat) := none
  deriving DecidableEq, Repr

/-- A fetched entry: its bytes, header fields and position (R437, R449). -/
structure Entry where
  len : Nat
  opc : Nat
  cpl : Bool
  ord : Bool
  tag : BitVec 16
  bytes : List Byte
  /-- malformed (R436). -/
  malformed : Bool := false
  /-- its fetch failed (R414). -/
  failed : Bool := false
  deriving DecidableEq, Repr

/-- An entry dispatched and not yet reported (R451, R457). -/
structure Live where
  id : Nat
  sq : Nat
  /-- the function that holds the SQ. -/
  fn : Nat
  tag : BitVec 16
  opc : Nat
  cpl : Bool
  ord : Bool
  /-- order in the SQ. -/
  index : Nat
  bytes : List Byte
  segs : List Seg := []
  /-- dispatched, waiting for its own row to start it. -/
  started : Bool := false
  /-- outcome that waits for the entry's data writes (R410, R442). -/
  finishing : Option Status := none
  /-- outcome decided. -/
  outcome : Option Status := none
  result : BitVec 64 := 0
  /-- left its batch with an ALONE completion (R457). -/
  alone : Bool := false
  epoch : BitVec 48 := 0
  offset : BitVec 16 := 0
  held : Bool := false
  /-- data fetched from the segments so far, by byte offset in the whole. -/
  data : Mem := []
  deriving DecidableEq, Repr

/-- A submission ring (Table 10-12, R448-R466). -/
structure Sq where
  base : BitVec 64 := 0
  headword : BitVec 64 := 0
  en : Bool := false
  size : Nat := 4
  cq : Nat := 0
  active : Bool := false
  draining : Bool := false
  fetchStop : Bool := false
  formatErr : Bool := false
  writeIgnored : Bool := false
  cfgStatus : Status := 0
  posHead : Nat := 0
  posWrap : Bool := false
  weight : Nat := 0
  burst : Nat := 7
  dispatched : BitVec 32 := 0
  discarded : BitVec 16 := 0
  /-- dispatched head and scan position with their wrap bits (R433, R448). -/
  head : Nat := 0
  headWrap : Bool := false
  scan : Nat := 0
  scanWrap : Bool := false
  /-- scan running: a header read is outstanding; a doorbell came meanwhile (R448). -/
  scanning : Bool := false
  again : Bool := false
  /-- header fetched, body read outstanding: what has arrived of it and how much is to come. -/
  partial_ : List Byte := []
  bodyData : Mem := []
  bodyLeft : Nat := 0
  /-- fetched entries ahead of the dispatched head (R449). -/
  fetched : List Entry := []
  /-- published head index and wrap (R450). -/
  pub : Nat := 0
  pubWrap : Bool := false
  /-- arbitration credit (R454). -/
  credit : Nat := 0
  /-- index the next dispatched entry takes (R457). -/
  nextIndex : Nat := 0
  /-- last index to report at a disable (R462). -/
  closeAt : Option Nat := none
  deriving DecidableEq, Repr

/-- A completion entry (Table 10-9) without its phase. -/
structure Cqe where
  sq : Nat
  tag : BitVec 16
  status : Status
  count : Nat
  held : Bool := false
  alone : Bool := false
  auto : Bool := false
  ringLost : Bool := false
  result : BitVec 64 := 0
  epoch : BitVec 48 := 0
  offset : BitVec 16 := 0
  deriving DecidableEq, Repr

/-- A completion ring (Table 10-13, R456-R467). -/
structure Cq where
  base : BitVec 64 := 0
  en : Bool := false
  ien : Bool := false
  size : Nat := 4
  vector : Nat := 0
  aggCount : Nat := 0
  aggTime : Nat := 0
  active : Bool := false
  backpressure : Bool := false
  bpSeen : Bool := false
  headErr : Bool := false
  writeIgnored : Bool := false
  cfgStatus : Status := 0
  tail : Nat := 0
  tailWrap : Bool := false
  head : Nat := 0
  headWrap : Bool := false
  bpCount : BitVec 32 := 0
  /-- completions waiting on-die, oldest first (R460). -/
  waiting : List Cqe := []
  /-- entries written since the last message, and the AGG timer (R459). -/
  sinceMsg : Nat := 0
  timer : Bool := false
  deriving DecidableEq, Repr

/-- The ring arbiter of a tile (R454, R539). -/
structure Arb where
  rr : Nat := 0
  /-- data bytes dispatched in this epoch and in the 16 before (R539, R346). -/
  bytesNow : Nat := 0
  bytesPast : List Nat := []
  refRate : Nat := 65536
  deriving DecidableEq, Repr

/-! ### Mailboxes -/

/-- What a mailbox's running command waits for. -/
inductive Running where
  /-- behind an earlier command that names the same object (R472). -/
  | waiting
  | config (st : Status)
  | volumeStop (vol : Nat)
  /-- its last step: the stopped state is being stored (R474). -/
  | volumeStopped (vol : Nat)
  | drain (scope ident : Nat)
  | power
  | cacheDisable
  | cacheMaint (id : Nat)
  | train
  | sealing
  | portTest (port : Nat)
  | partnerOffer (pool : Nat)
  | release (pool : Nat)
  | importing (pool : Nat)
  | jetClear
  | poolCreate (pool : Nat)
  deriving DecidableEq, Repr

/-- A response (Table 11-5). -/
structure Resp where
  status : Status := 0
  cmdId : W32 := 0
  detail : W32 := 0
  data : List Byte := []
  deriving DecidableEq, Repr

/-- A mailbox (Tables 11-1 to 11-3). -/
structure Mailbox where
  /-- 3,072 bytes; 11_mailbox R469; reset: DESIGN CHOICE 0, log entry 6. -/
  area : Mem := []
  busy : Bool := false
  done : Bool := false
  overrun : Bool := false
  writeIgnored : Bool := false
  lastStatus : Status := 0
  resp : Resp := {}
  /-- GO of the command that runs, and what it waits for. -/
  cmdId : W32 := 0
  running : Option Running := none
  /-- response data a waiting command will carry. -/
  data : List Byte := []
  /-- a change that waits for the partner's POOL_REPLY (R381). -/
  change : Option CfgChange := none
  /-- no response is written (R473). -/
  orphan : Bool := false
  /-- R472: the objects its command names, (kind, number): 0 pool, 1 volume, 2 link, 3 partner link; order of its GO. -/
  objs : List (Nat × Nat) := []
  ticket : Nat := 0
  deriving DecidableEq, Repr

/-! ### Jade, Jet, ALIVE, JTAG -/

/-- FAULT_ENTRY (Table 12-10). -/
structure FaultEnt where
  code : BitVec 16
  source : BitVec 16
  ident : Nat
  cls : Nat
  correlated : Bool := false
  /-- 1 F2 awaiting, 2 F2 held, 3 F3 under containment. -/
  st : Nat
  domKind : Nat
  domId : Nat
  repeats : Nat := 0
  /-- timer value in ms at entry (R502) and instant of entry. -/
  timerMs : Nat := 100
  since : Nat := 0
  /-- the containment action has been carried out by the rule that raised the fault (R504). -/
  acted : Bool := false
  deriving DecidableEq, Repr

/-- A correlation window (R507): domain, faults seen (code, source), highest class, escalated, and the event's queue slot. -/
structure CorrWin where
  domKind : Nat
  domId : Nat
  faults : List (BitVec 16 × BitVec 16)
  cls : Nat
  escalated : Bool := false
  slot : Option Nat := none
  repeats : Nat := 0
  deriving DecidableEq, Repr

/-- Jade (R501-R518). -/
structure Jade where
  /-- 16 entries; 12_faults R506; reset: free. -/
  queue : Tab FaultEnt := []
  /-- last ID given; R506; reset: DESIGN CHOICE 0, log entry 7. -/
  lastId : Nat := 0
  /-- R507; reset: none. -/
  windows : List CorrWin := []
  /-- FAULT_STATUS W1C bits; Table 12-6; reset: 0. -/
  f1Seen : Bool := false
  f3Seen : Bool := false
  escalated : Bool := false
  queueFull : Bool := false
  ackErr : Bool := false
  hwdog : Bool := false
  prevF4 : Bool := false
  prevFreeze : Bool := false
  /-- ESC_TIMER_F2, 14 bits, ms; Table 12-8; reset: 100. -/
  escMs : Nat := 100
  /-- F4 latched (R510-R512) and its cause code; reset: not. -/
  f4 : Bool := false
  f4Cause : Nat := 0
  /-- frozen (R525); reset: not. -/
  frozen : Bool := false
  /-- ALIVE_CTL RUNNING, HWDOG_EN, HWDOG_MS; Table 12-11; reset: 0, 0, 1,000. -/
  aliveRunning : Bool := false
  hwdogEn : Bool := false
  hwdogMs : Nat := 1000
  /-- the host watchdog runs (R516); reset: no. -/
  hwdogRunning : Bool := false
  deriving DecidableEq, Repr

/-- A Jet record (Table 12-12). `slotUsed` records have CODE non-zero. -/
structure JetRec where
  epoch : BitVec 48
  offset : BitVec 16
  code : BitVec 16
  source : BitVec 16
  cls : Nat
  correlated : Bool := false
  escalated : Bool := false
  lap : Bool := true
  data : List Byte := []
  deriving DecidableEq, Repr

/-- Jet (R519-R523). -/
structure Jet where
  /-- up to 1,024 records in order; R519; reset: kept in MRAM, DESIGN CHOICE empty, log entry 5. -/
  pinned : List JetRec := []
  /-- 3,072 slots by index; R519; reset: kept, DESIGN CHOICE empty, log entry 5. -/
  circ : Tab JetRec := []
  /-- next circulating index and LAP value of the running lap; R521; reset: 0, 1. -/
  next : Nat := 0
  lap : Bool := true
  /-- JET_STATE RECORDING; reset: 1. -/
  recording : Bool := true
  /-- JET_OVERWRITES, 32 bits saturating; reset: 0. -/
  overwrites : Nat := 0
  /-- TOTAL of JET_STATUS (R523); reset: 0. -/
  total : Nat := 0
  lastClear : BitVec 48 := 0
  /-- JET_CURSOR: INDEX 12 bits, AREA 1 bit; reset: 0. -/
  index : Nat := 0
  area : Bool := false
  /-- the latched record's image; R522; reset: none. -/
  latched : Option (List Byte) := none
  /-- records buffered during a clear (R523) or in D3cold (R521), oldest first, at most 64, and the overflow by code. -/
  buffer : List JetRec := []
  overflow : Tab Nat := []
  /-- counts per CODE in the 1 ms window, written and suppressed; R521; reset: none. -/
  written : Tab Nat := []
  suppressed : Tab Nat := []
  /-- T0 has been declared lost: Jade on T1 keeps the records (R51); reset: false. -/
  toT1 : Bool := false
  /-- fault records kept by T1 after the loss of T0 (R51); reset: none. -/
  keptByT1 : List JetRec := []
  /-- the token that JET_CLEAR accepts (R499); reset: none. -/
  token : Option W32 := none
  deriving DecidableEq, Repr

/-- The TAP (R528). -/
structure Jtag where
  /-- instruction register, 8 bits; R528; reset: IDCODE 0x02 (test-logic reset). -/
  ir : BitVec 8 := 0x02
  /-- FRZ_SELECT, FRZ_MEMADDR; reset: DESIGN CHOICE 0, log entry 7. -/
  select : BitVec 16 := 0
  memaddr : BitVec 64 := 0
  /-- boundary register content preloaded; reset: DESIGN CHOICE empty, log entry 7. -/
  boundary : List Bool := []
  /-- bits shifted into scan chains (tile, chain, bits); reset: none. -/
  chains : List ((Nat × Nat) × List Bool) := []
  deriving DecidableEq, Repr

/-! ### Housekeeping -/

/-- A Carnelian slice (R530-R536). -/
structure HkSlice where
  /-- next channel to convert, 24 when the round's conversions are done; 13_housekeeping R530; reset: 0. -/
  next : Nat := 0
  /-- last reading of each channel, signed 16 bits; Table 13-11 HK_CHAN_DATA; reset: 0. -/
  readings : Tab (BitVec 16) := []
  /-- HEALTHY of each channel at the last round end, channels in range; reset: none (0). -/
  healthy : List Nat := []
  /-- diodes excluded until SYS_RESET_N (R531); reset: none. -/
  excluded : List Nat := []
  /-- diode readings of the last 8 rounds, newest first (R536); reset: none. -/
  past : List (List Int) := []
  /-- voltage channels outside ±5 % at the last round (R531); reset: none. -/
  voltBad : List Nat := []
  /-- HK_TEMP TEMP, DIODE, RISE, GOOD; Table 13-11; reset: 0, 0, 0, 8. -/
  temp : Int := 0
  diode : Nat := 0
  rise : Nat := 0
  good : Nat := 8
  /-- the rate-of-rise alarm stands on the tile (R536, R538); reset: no. -/
  alarm : Bool := false
  /-- trims of the three references, in 64ths of the fused coefficients' unit (R532); reset: 0. -/
  trims : List Int := [0, 0, 0]
  deriving DecidableEq, Repr

/-- Operational power states (Table 13-7). -/
inductive Ps where
  | ps0 | ps1 | ps2
  deriving DecidableEq, Repr

/-- Housekeeping (chapter 13). -/
structure Hk where
  slices : Tab HkSlice := []
  /-- HK_STATUS W1C bits 0-4; Table 13-11; reset: 0 (PREV_SHUTDOWN from MRAM). -/
  warn : Bool := false
  throttle : Bool := false
  rise : Bool := false
  channel : Bool := false
  prevShutdown : Bool := false
  /-- LEVEL, 2 bits; reset: 0. -/
  level : Nat := 0
  /-- ENFORCING, 1 bit; reset: 0. -/
  enforcing : Bool := false
  /-- PREV_CAUSE, 2 bits, and the cause stored in MRAM; reset: 0. -/
  prevCause : Nat := 0
  storedCause : Nat := 0
  /-- thresholds in force and those waiting for the next round end (R534); reset: 95, 100, 110, 20. -/
  tWarn : Nat := 95
  tThrottle : Nat := 100
  tCritical : Nat := 110
  graceMs : Nat := 20
  /-- TARGET in force, 9 bits; reset: 256. -/
  target : Nat := 256
  /-- throttle sequence: running, instant the grace ends, rounds at Throttle since the last step (R538); reset: not running. -/
  running : Bool := false
  graceEnd : Nat := 0
  roundsAt : Nat := 0
  /-- HK_ROUND, 32 bits; reset: 0. -/
  rounds : BitVec 32 := 0
  /-- HK_FAULTS VOLT, OSC, SENSOR, 8 bits each W1C; reset: 0. -/
  volt : BitVec 8 := 0
  osc : BitVec 8 := 0
  sensor : BitVec 8 := 0
  /-- HK_CHAN_SEL TILE 3 bits, CHANNEL 5 bits; reset: 0. -/
  selTile : Nat := 0
  selChan : Nat := 0
  /-- orderly shutdown in progress (R541); reset: no. -/
  closing : Bool := false
  /-- the shutdown in progress ends in D3cold (R429); reset: no. -/
  toD3cold : Bool := false
  /-- the aux domain's reading of T0 (R543); reset: 0. -/
  auxTemp : BitVec 11 := 0
  /-- operational power state, pending entry and its mailbox, PS2 idle (R544-R546); reset: PS0. -/
  ps : Ps := .ps0
  psPending : Option (Ps × Nat) := none
  ps2Idle : Bool := false
  deriving DecidableEq, Repr

/-- A self-test's state (R491-R493). -/
structure Test where
  /-- 0 never run, 1 running, 2 paused, 3 passed, 4 failed, 5 aborted. -/
  st : Nat := 0
  row : Nat := 0
  progress : Nat := 0
  failures : Nat := 0
  /-- ns it has run before its last pause, and the instant from which it runs now (R492). -/
  ran : Nat := 0
  startedAt : Nat := 0
  rows : Nat := 0
  inconsistent : Nat := 0
  listed : List Nat := []
  /-- the fetch of the row being checked. -/
  fetch : Option Nat := none
  deriving DecidableEq, Repr

/-- Firmware and security state (R494-R499). -/
structure Sec where
  /-- fused SVN; 11_mailbox R496; reset: kept in fuses, DESIGN CHOICE 0, log entry 5. -/
  fusedSvn : Nat := 0
  /-- measurement log: digests, oldest first; R494; reset: empty. -/
  measured : List (BitVec 384) := []
  /-- running image's version and SVN; reset: DESIGN CHOICE 0 until a start loads one, log entry 5. -/
  version : Nat := 0
  svn : Nat := 0
  /-- both slots failed (R494). -/
  bootFailed : Bool := false
  deriving DecidableEq, Repr

/-! ### Tiles, budgets, outputs -/

/-- A tile (R19). -/
structure Tile where
  /-- in service; 01_architecture R50; reset: in service. -/
  inService : Bool := true
  /-- instant of its last heartbeat (R39); reset: 0. -/
  lastBeat : Nat := 0
  tier : Tier := {}
  amber : Amber := {}
  /-- 4,096 entries; R31, R153; reset: empty. -/
  locks : List Lock := []
  /-- order of acceptance (R29); reset: 0. -/
  nextOrder : Nat := 0
  arb : Arb := {}
  /-- 4,096 neighbour entries (R360), oldest first: link, address, MAC; reset: empty. -/
  neighbours : List (Nat × BitVec 128 × BitVec 48) := []
  /-- INTENTs and last GENERATION are in the ring; tile clocks stopped (R525); reset: running. -/
  clocksStopped : Bool := false
  deriving DecidableEq, Repr

/-- Routes (R23, R24). -/
structure Mesh where
  /-- lost links between adjacent tiles; reset: none. -/
  lostLinks : List (Nat × Nat) := []
  /-- (sender, destination) pairs that wait to use a new route (R24); reset: none. -/
  switching : List (Nat × Nat) := []
  deriving DecidableEq, Repr

/-- Per-epoch member-bandwidth budgets (R227-R230); index 0 receive, 1 transmit. -/
structure Budget where
  /-- host bytes moved in this epoch. -/
  h : List Nat := [0, 0]
  /-- allowances left: host, rebuild, verify (may go negative by overdraft). -/
  host : List Int := [0, 0]
  r : List Int := [0, 0]
  v : List Int := [0, 0]
  /-- the budgets computed at the last edge, for REBUILD_STATUS: host, rebuild and verify, each receive and transmit. -/
  last : List Nat := [0, 0, 0, 0, 0, 0]
  deriving DecidableEq, Repr

/-- How the data of an NVMe command goes to its member (R370): none, in the capsule, or in H2CData PDUs after R2T, each at an offset with
a length. -/
inductive DataForm where
  | none
  | inCapsule
  | h2c (pdus : List (Nat × Nat))
  deriving DecidableEq, Repr

/-- What the device sends to set a queue up (R363, R364, R367): the TCP connection with its MSS and options, ICReq, Fabrics Connect with QID
(zero for the admin queue), CNTLID, KATO in ms, queue entries and names, and the admin commands of steps 4 and 5. -/
inductive SetupMsg where
  | tcp (addr : BitVec 128) (tcpPort mss : Nat) (windowScale timestamps sack ecn : Bool)
  | icReq (pfv hpda : Nat) (hdgst ddgst : Bool) (maxr2t : Nat)
  | connect (admin : Bool) (cntlid kato entries : Nat) (hostNqn : List Byte) (hostId : BitVec 128) (subNqn : List Byte)
  | setCc (en : Bool) (iosqes iocqes : Nat)
  | getCsts
  | identify (cns : Nat) (nsid : BitVec 32)
  | setQueues (n : Nat)
  deriving DecidableEq, Repr

/-- What the device emits. -/
inductive Output where
  /-- an SBT packet in its datagram (R298, R299, R361): port, (PCP, VID) of the VLAN tag, source and destination address and UDP port, the
  IP ECN field, and the bytes of header and body. -/
  | sbt (port : Nat) (tag : Option (Nat × Nat)) (src : BitVec 128) (sport : BitVec 16) (dst : BitVec 128) (dport : BitVec 16) (ecn : Nat)
    (hdr body : List Byte)
  /-- an NVMe command on an I/O queue, and how its data goes (R370). -/
  | member (m : MCmd) (form : DataForm)
  /-- an NVMe command on the admin queue: opcode, and the log identifier of a Get Log Page (Table 8-3). -/
  | nvmeAdmin (member opcode lid : Nat)
  /-- a message of queue setup (R367), on its port. -/
  | nvmeSetup (member tile : Nat) (admin : Bool) (port : Nat) (m : SetupMsg)
  /-- a Moonstone frame (R73): the instant in ns at which its reference point leaves EPOCH_OUT, whether its sync character is K28.5,
  and its 31 data characters. -/
  | moon (at_ : Nat) (timed : Bool) (body : List Byte)
  /-- a partner frame (R379): header, body and CRC32C. -/
  | partner (link : Nat) (hdr body : List Byte) (crc : W32)
  | heartbeat (src dst : Nat)
  | forward (src dst id : Nat)
  | dmaRead (fn tag addr len : Nat)
  /-- a write of host memory, with its Relaxed Ordering attribute (R410). -/
  | dmaWrite (fn addr len : Nat) (data : Mem) (ro : Bool)
  | translation (fn id addr : Nat)
  | invalidated (fn itag : Nat)
  | msix (fn vector : Nat)
  | pme (fn : Nat)
  | peerCompletion (status : CplStatus) (data : List Byte)
  | readData (v : BitVec 64)
  | echoReply (port : Nat) (tag : Option (Nat × Nat)) (src dst : BitVec 128) (payload : List Byte)
  | neighbourMsg (port : Nat) (tag : Option (Nat × Nat)) (target : BitVec 128) (mac : BitVec 48)
  | pfc (port : Nat) (quanta : Nat)
  | tdo (bits : List Bool)
  | smbus (bytes : List Byte)
  | smbusNack
  deriving DecidableEq, Repr

/-- The block's state. -/
structure State where
  /-- which part this is; 00_scope R1; reset: DESIGN CHOICE EFV-8, log entry 1. -/
  part : Part := .efv8
  /-- ns since the first command; the model's own clock (log entry 2); reset: 0. -/
  clock : Nat := 0
  /-- draws of free values taken; the model's own; reset: DESIGN CHOICE 0, log entry 8. -/
  freeIx : Nat := 0
  /-- the next handle; the model's own; reset: DESIGN CHOICE 1, log entry 8. -/
  nextId : Nat := 1
  /-- what has been emitted, oldest first; the model's own outbox; reset: empty, log entry 8. -/
  out : List Output := []
  /-- 01_architecture R55, 14_package R572; reset: held in reset, log entry 9. -/
  phase : Phase := .held
  pins : Pins := {}
  moon : Moon := {}
  tiles : Tab Tile := []
  mesh : Mesh := {}
  cmds : List Cmd := []
  mcmds : List MCmd := []
  fetches : List Fetch := []
  destages : List Destage := []
  /-- 04_journal R196, R41; reset: none. -/
  replays : List ReplayRow := []
  maints : List Maint := []
  budget : Budget := {}
  cfg : Cfg := {}
  flash : Flash := {}
  pools : Tab Pool := []
  vols : Tab Vol := []
  members : Tab Member := []
  sbt : Sbt := {}
  links : Tab Link := []
  partners : Tab Partner := []
  pcie : Pcie := {}
  sqs : Tab Sq := []
  cqs : Tab Cq := []
  live : List Live := []
  mbx : Tab Mailbox := []
  cache : CacheRegs := {}
  jade : Jade := {}
  jet : Jet := {}
  jtag : Jtag := {}
  hk : Hk := {}
  tests : List ((Nat × Nat) × Test) := []
  sec : Sec := {}
  /-- the queue of waiting commands, first in, first out; reset: empty. -/
  pending : List Instr := []
  deriving DecidableEq, Repr

/-- What stops the block. The spec gives every command an effect, so no command faults. -/
inductive Fault where
  /-- Raised by no command: a command whose arrival the spec excludes leaves the state as it is. Safe. -/
  | none
  deriving DecidableEq, Repr

/-- What the model refuses. -/
inductive Refusal where
  /-- A command of the table not modelled yet: raised by Dispatch.lean alone. Safe. -/
  | notModelled (mnemonic : String)
  deriving DecidableEq, Repr

/-- Eight tiles in service; the part decides which of them exist. -/
def tilesAtReset : Tab Tile :=
  [(0, {}), (1, {}), (2, {}), (3, {}), (4, {}), (5, {}), (6, {}), (7, {})]

/-- The machine held in reset: every field at its reset value, the queue empty (R9, R55). -/
def State.reset : State := { tiles := tilesAtReset }

end Sys2Proof.Machine
end

