-- ==== Sys2Proof/Machine/Layout.lean ====
section
/-! DEFINITION. Where a block lies: rows, strips, the Peridot and Spinel layouts and spare homes (chapter 03). -/

namespace Sys2Proof.Machine

namespace PoolCfg

/-- w = k + 2 (R120). -/
def w (c : PoolCfg) : Nat := c.k + 2

/-- A pool of w members is Peridot (R135). -/
def peridot (c : PoolCfg) : Bool := c.n == c.w

/-- n_eff (R138). -/
def ne (c : PoolCfg) : Nat := c.n - c.s

/-- Blocks in a row of the pool. -/
def rowBlocks (c : PoolCfg) : Nat := 4 * c.k

/-- lcm(w, n_eff) (R143). -/
def period (c : PoolCfg) : Nat := Nat.lcm c.w c.ne

/-- Layout rows, laps and usable rows of a period (R143). -/
def perRows (c : PoolCfg) : Nat := c.period / c.w
def perLaps (c : PoolCfg) : Nat := c.period / c.ne
def perUsable (c : PoolCfg) : Nat := c.perRows - c.perLaps + 1

/-- Usable rows in the first `c1` laps of a period (R144). -/
def before (c : PoolCfg) (c1 : Nat) : Nat := if c1 = 0 then 0 else c1 * c.ne / c.w - (c1 - 1)

/-- The lap of a period that holds usable row `u`: the greatest c1 with before(c1) ≤ u (R144). -/
def lapOf (c : PoolCfg) (u : Nat) : Nat → Nat → Nat
  | 0, c1 => c1
  | fuel + 1, c1 => if c1 + 1 < c.perLaps ∧ c.before (c1 + 1) ≤ u then lapOf c u fuel (c1 + 1) else c1

/-- Layout row of pool row `v` (R130, R144). -/
def layoutRow (c : PoolCfg) (v : Nat) : Nat :=
  if c.peridot then v
  else
    let per := v / c.perUsable
    let u := v % c.perUsable
    let c1 := c.lapOf u c.perLaps 0
    per * c.perRows + (c1 * c.ne + c.w - 1) / c.w + (u - c.before c1)

/-- Lap of a layout row (R142). -/
def lap (c : PoolCfg) (r : Nat) : Nat := r * c.w / c.ne

/-- A seam row holds no data (R143). -/
def seam (c : PoolCfg) (r : Nat) : Bool := decide (c.ne - c.w < r * c.w % c.ne)

/-- Pool rows of the pool (R152). -/
def poolRows (c : PoolCfg) : Nat :=
  if c.peridot then c.slots
  else c.slots / c.perLaps * c.perUsable + c.before (c.slots % c.perLaps)

/-- Pool extents (R152). -/
def extents (c : PoolCfg) : Nat := c.poolRows / 1024

end PoolCfg

/-- The mixing function H (R139). -/
def spinelH (seed : BitVec 16) (v : BitVec 32) : BitVec 32 :=
  let x := v ^^^ (seed.setWidth 32 * 0x00010001#32)
  let x := x ^^^ (x >>> 16)
  let x := x * 0x7feb352d#32
  let x := x ^^^ (x >>> 15)
  let x := x * 0x846ca68b#32
  x ^^^ (x >>> 16)

/-- Primality by trial division, for p of at most 1,061. -/
def isPrime (p : Nat) : Bool := decide (2 ≤ p) && (List.range p).all (fun d => d < 2 || p % d != 0)

/-- The smallest prime at or above `n`, within `fuel` steps. -/
def primeFrom : Nat → Nat → Nat
  | 0, n => n
  | fuel + 1, n => if isPrime n then n else primeFrom fuel (n + 1)

/-- p of R140. -/
def spinelP (n : Nat) : Nat := primeFrom 64 n

/-- a_c and b_c of lap `c` (R140). -/
def spinelA (cfg : PoolCfg) (c : Nat) : Nat := 1 + (spinelH cfg.seed (BitVec.ofNat 32 c)).toNat % (spinelP cfg.n - 1)
def spinelB (cfg : PoolCfg) (c : Nat) : Nat := (spinelH cfg.seed (BitVec.ofNat 32 c ^^^ 0xA5A5#32)).toNat % spinelP cfg.n

/-- The cycle walk of R140, with the affine map of `a`, `b`, `p`. -/
def spinelWalk (a b p n : Nat) : Nat → Nat → Nat
  | 0, x => x
  | fuel + 1, x => let y := (a * x + b) % p; if y < n then y else spinelWalk a b p n fuel y

/-- π_c(x) (R140). -/
def spinelPi (cfg : PoolCfg) (c x : Nat) : Nat :=
  spinelWalk (spinelA cfg c) (spinelB cfg c) (spinelP cfg.n) cfg.n (spinelP cfg.n) x

/-- π_c^(−1)(y): the position x of lap c that lies on pool index y. -/
def spinelPiInv (cfg : PoolCfg) (c y : Nat) : Nat := ((List.range cfg.n).find? (fun x => spinelPi cfg c x == y)).getD 0

/-- Pool index of strip position `j` of pool row `v` (R136, R142). -/
def poolIndex (cfg : PoolCfg) (v j : Nat) : Nat :=
  if cfg.peridot then
    let pv := cfg.w - 1 - v % cfg.w
    if j = cfg.k then pv else if j = cfg.k + 1 then (pv + 1) % cfg.w else (pv + 2 + j) % cfg.w
  else
    let r := cfg.layoutRow v
    spinelPi cfg (cfg.lap r) ((r * cfg.w + j) % cfg.ne)

/-- Strip slot of pool row `v` on its members (R135, R143). -/
def stripSlot (cfg : PoolCfg) (v : Nat) : Nat := if cfg.peridot then v else cfg.lap (cfg.layoutRow v)

/-- 80 GiB: the data area of a member (Table 3-2). -/
def dataArea : Nat := 80 * 2 ^ 30

/-- Member byte offset of a strip slot (R123). -/
def slotOffset (σ : Nat) : Nat := dataArea + σ * 16384

/-- Member byte offset of block `b` of position `j` of row `v`. -/
def blockOffset (cfg : PoolCfg) (v b : Nat) : Nat := slotOffset (stripSlot cfg v) + b * 4096

/-- Position that pool index `ix` holds in row `v`, if any. -/
def positionOf (cfg : PoolCfg) (v ix : Nat) : Option Nat := (List.range cfg.w).find? (fun j => poolIndex cfg v j == ix)

/-- Whether position x of lap c belongs to a seam row (R143). -/
def seamPosition (cfg : PoolCfg) (c x : Nat) : Bool := cfg.seam ((c * cfg.ne + x) / cfg.w)

/-- R147, one failure at a time: columns taken so far and the home of `f` in lap `c`. -/
def spareHomeAux (cfg : PoolCfg) (c : Nat) (failed : List Nat) (f : Nat) : List Nat → List Nat → Option Nat
  | [], _ => none
  | fm :: rest, taken =>
    let x := spinelPiInv cfg c fm
    if cfg.ne ≤ x || seamPosition cfg c x then spareHomeAux cfg c failed f rest taken
    else
      let col := (List.range cfg.s).find? (fun col => !taken.contains col && !failed.contains (spinelPi cfg c (cfg.ne + col)))
      if fm = f then col.map (fun col => spinelPi cfg c (cfg.ne + col))
      else spareHomeAux cfg c failed f rest (match col with | some col => col :: taken | none => taken)

/-- The pool index that holds failed index `f`'s strip in lap `c` (R147). -/
def spareHome (cfg : PoolCfg) (fl : List FailEnt) (c f : Nat) : Option Nat :=
  let failed := fl.map (·.index)
  spareHomeAux cfg c failed f failed []

/-- Device member number of a pool index (R125). -/
def memberAt (cfg : PoolCfg) (ix : Nat) : Nat := cfg.members.getD ix 0

/-- The home of the strip at failed pool index `ix` of row `v` under a failure list (R219), as a device member number. -/
def homeOf (cfg : PoolCfg) (fl : List FailEnt) (v ix : Nat) : Option Nat :=
  if cfg.peridot then (fl.find? (fun e => e.index == ix)).bind (·.home)
  else (spareHome cfg fl (cfg.lap (cfg.layoutRow v)) ix).map (memberAt cfg)

/-- Whether pool index `ix` is in the failure list. -/
def isFailedIx (fl : List FailEnt) (ix : Nat) : Bool := fl.any (fun e => e.index == ix)

/-- Whether the strip at position `j` of row `v` is in the Lost-Strip Table (R234). -/
def isLost (p : Pool) (v j : Nat) : Bool := p.lst.any (fun e => e.row == v && e.strip == j)

/-- At home under the first two conditions of R222. A row that was not converted for want of LST entries stays broken (R238): the cursor
has brought none of its strips home. -/
def atHomeBase (cfg : PoolCfg) (p : Pool) (v ix : Nat) : Bool :=
  match homeOf cfg p.failList v ix with
  | none => false
  | some h => (decide (v < p.cursor) && !p.refused.contains v) ||
      (decide (v < p.baseCursor) && !p.refusedBase.contains v && homeOf cfg p.baseList v ix == some h)

/-- A critical row (R222): two or more strips of failed entries, not lost, not at home under the first two conditions. -/
def critical (cfg : PoolCfg) (p : Pool) (v : Nat) : Bool :=
  decide (2 ≤ ((List.range cfg.w).filter (fun j =>
    let ix := poolIndex cfg v j
    isFailedIx p.failList ix && !isLost p v j && !atHomeBase cfg p v ix)).length)

/-- At home (R222). -/
def atHome (cfg : PoolCfg) (p : Pool) (v ix : Nat) : Bool :=
  (homeOf cfg p.failList v ix).isSome &&
    (atHomeBase cfg p v ix || (decide (v < p.critCursor) && critical cfg p v))

/-- Whether copyback of the row is done (R243). -/
def copied (p : Pool) (v ix : Nat) : Bool :=
  match p.copy with
  | some (t, _) => t == ix && decide (v < p.copyCursor)
  | none => false

/-- The member a strip is read from: its own, its home, its copyback replacement, or none (R216, R226, R243). -/
def readPlace (cfg : PoolCfg) (p : Pool) (v j : Nat) : Option Nat :=
  let ix := poolIndex cfg v j
  if isLost p v j then none
  else if !isFailedIx p.failList ix then some (memberAt cfg ix)
  else if copied p v ix then p.copy.map (·.2)
  else if atHome cfg p v ix then homeOf cfg p.failList v ix
  else none

/-- The members a destage writes a strip to (R217, R226). -/
def writePlaces (cfg : PoolCfg) (p : Pool) (v j : Nat) : List Nat :=
  let ix := poolIndex cfg v j
  if !isFailedIx p.failList ix then [memberAt cfg ix]
  else
    (if atHome cfg p v ix then (homeOf cfg p.failList v ix).toList else []) ++
      (if copied p v ix then (p.copy.map (·.2)).toList else [])

/-- Positions without an available place to read (R216), lost strips excepted. -/
def missing (cfg : PoolCfg) (p : Pool) (v : Nat) : List Nat :=
  (List.range cfg.w).filter (fun j => !isLost p v j && (readPlace cfg p v j).isNone)

/-- A broken row (R239). -/
def brokenRow (cfg : PoolCfg) (p : Pool) (v : Nat) : Bool := decide (3 ≤ (missing cfg p v).length)

/-- A degraded row (R160): a strip on a failed member. -/
def degradedRow (cfg : PoolCfg) (p : Pool) (v : Nat) : Bool :=
  (List.range cfg.w).any (fun j => isFailedIx p.failList (poolIndex cfg v j))

/-- Pool row of volume row `q` (R127). -/
def poolRowOf (v : VolCfg) (q : Nat) : Nat := 1024 * v.extents.getD (q / 1024) 0 + q % 1024

/-- Blocks of a volume (R128). -/
def volBlocks (c : PoolCfg) (v : VolCfg) : Nat := v.extents.length * 1024 * c.rowBlocks

/-- The row parts of a range (R129): volume row, first row-local block and count, in order. -/
def splitRange (k4 : Nat) : Nat → Nat → Nat → List (Nat × Nat × Nat)
  | 0, _, _ => []
  | fuel + 1, lba, len =>
    if len = 0 then [] else
      let b := lba % k4
      let n := min len (k4 - b)
      (lba / k4, b, n) :: splitRange k4 fuel (lba + n) (len - n)

/-- Bucket of a row in the store directory (R271). -/
def bucketOf (vol row : Nat) : Nat :=
  (spinelH (BitVec.ofNat 16 vol) (BitVec.ofNat 32 row ^^^ (BitVec.ofNat 32 (row / 2 ^ 32) <<< 24))).toNat % 65536

end Sys2Proof.Machine
end

