-- ==== Sys2Proof/Machine/Ops.lean ====
section
/-! DEFINITION. The quantities of the three parts and the named operations over the state that the families share. -/

namespace Sys2Proof.Machine

/-- The outcome type of a command. -/
abbrev Result := Host.Outcome State Fault Refusal

/-! ### Parts (Table 0-1, Table 0-5) -/

/-- Tiles of the part. -/
def Part.tiles : Part → Nat
  | .efv2 => 2
  | .efv4 => 4
  | .efv8 => 8

/-- Tiles per mesh row (Table 1-2). -/
def Part.columns : Part → Nat
  | .efv2 => 2
  | .efv4 => 2
  | .efv8 => 4

def Part.rows : Part → Nat
  | .efv2 => 1
  | .efv4 => 2
  | .efv8 => 2

def Part.ports (p : Part) : Nat := 32 * p.tiles
def Part.members (p : Part) : Nat := 128 * p.tiles
def Part.volumes (p : Part) : Nat := 2048 * p.tiles
def Part.sqs (p : Part) : Nat := 256 * p.tiles
def Part.cqs (p : Part) : Nat := 64 * p.tiles

/-- Which tile holds a port, an SQ, a CQ (R4, R21). -/
def tileOfPort (port : Nat) : Nat := port / 32
def tileOfSq (n : Nat) : Nat := n / 256
def tileOfCq (n : Nat) : Nat := n / 64

/-- The buddy of a tile (R38). -/
def buddy (t : Nat) : Nat := if t % 2 = 0 then t + 1 else t - 1

/-! ### Phases -/

/-- Clocks run and Jade has not latched F4: commands act. -/
def running (s : State) : Bool :=
  !s.jade.f4 && !s.jade.frozen &&
    (match s.phase with
     | .boot | .replay | .ready => true
     | _ => false)

/-- Firmware is up (R471). -/
def fwUp (s : State) : Bool :=
  running s && (match s.phase with | .replay | .ready => true | _ => false)

/-- Replay is complete (R195, R471): pools and volumes serve. -/
def serving (s : State) : Bool := running s && s.phase == .ready

/-- A tile that the part has and that is in service. -/
def tileUp (s : State) (t : Nat) : Bool :=
  decide (t < s.part.tiles) && (match Tab.get? s.tiles t with | some x => x.inService | none => false)

/-- The tile that serves what belongs to tile `t`: itself, or its buddy once it is lost (R40, R45). -/
def hostOf (s : State) (t : Nat) : Nat := if tileUp s t then t else buddy t

/-- The tile on which an SQ or a CQ is hosted (R45). -/
def sqTile (s : State) (n : Nat) : Nat := hostOf s (tileOfSq n)
def cqTile (s : State) (n : Nat) : Nat := hostOf s (tileOfCq n)

/-- Tiles in service, in order. -/
def upTiles (s : State) : List Nat := (List.range s.part.tiles).filter (tileUp s)

/-- A tile without a buddy in service (R48). -/
def unpaired (s : State) (t : Nat) : Bool := !tileUp s (buddy t)

/-! ### Access to numbered resources -/

def getTile (s : State) (t : Nat) : Tile := Tab.getD s.tiles t {}
def setTile (s : State) (t : Nat) (x : Tile) : State := { s with tiles := Tab.set s.tiles t x }
def modTile (s : State) (t : Nat) (f : Tile → Tile) : State := setTile s t (f (getTile s t))
def modTier (s : State) (t : Nat) (f : Tier → Tier) : State := modTile s t (fun x => { x with tier := f x.tier })
def modAmber (s : State) (t : Nat) (f : Amber → Amber) : State := modTile s t (fun x => { x with amber := f x.amber })

/-- Every tile of the part changed by `f`, which sees its number. -/
def modTiles (s : State) (f : Nat → Tile → Tile) : State :=
  (List.range s.part.tiles).foldl (fun s t => modTile s t (f t)) s

def getPool (s : State) (p : Nat) : Pool := Tab.getD s.pools p { st := .absent }
def setPool (s : State) (p : Nat) (x : Pool) : State := { s with pools := Tab.set s.pools p x }
def modPool (s : State) (p : Nat) (f : Pool → Pool) : State := setPool s p (f (getPool s p))
def poolCfg? (s : State) (p : Nat) : Option PoolCfg := Tab.get? s.cfg.pools p
def setPoolCfg (s : State) (p : Nat) (c : PoolCfg) : State := { s with cfg := { s.cfg with pools := Tab.set s.cfg.pools p c } }

/-- A pool that does not exist, standing in where one is looked up by a stale number. -/
def noPool : PoolCfg :=
  { k := 4, s := 0, n := 6, seed := 0, members := [], spares := [], mirror0 := 0, mirror1 := 1, slots := 0 }

def poolCfg (s : State) (p : Nat) : PoolCfg := (poolCfg? s p).getD noPool

def getVol (s : State) (v : Nat) : Vol := Tab.getD s.vols v {}
def setVol (s : State) (v : Nat) (x : Vol) : State := { s with vols := Tab.set s.vols v x }
def modVol (s : State) (v : Nat) (f : Vol → Vol) : State := setVol s v (f (getVol s v))
def volCfg? (s : State) (v : Nat) : Option VolCfg := Tab.get? s.cfg.vols v
def setVolCfg (s : State) (v : Nat) (c : VolCfg) : State := { s with cfg := { s.cfg with vols := Tab.set s.cfg.vols v c } }

/-- A volume that does not exist. -/
def noVol : VolCfg := { pool := 0, home := 0, attr := 0, policy := 0, extents := [] }

def volCfg (s : State) (v : Nat) : VolCfg := (volCfg? s v).getD noVol

/-- The pool configuration of a volume. -/
def poolOfVol (s : State) (v : Nat) : PoolCfg := poolCfg s (volCfg s v).pool

/-- The volumes of a pool. -/
def volsOfPool (s : State) (p : Nat) : List Nat :=
  (s.cfg.vols.filter (fun e => e.2.pool == p)).map Prod.fst

def getMember (s : State) (m : Nat) : Member := Tab.getD s.members m {}
def setMember (s : State) (m : Nat) (x : Member) : State := { s with members := Tab.set s.members m x }
def modMember (s : State) (m : Nat) (f : Member → Member) : State := setMember s m (f (getMember s m))

def getLink (s : State) (p : Nat) : Link := Tab.getD s.links p {}
def setLink (s : State) (p : Nat) (x : Link) : State := { s with links := Tab.set s.links p x }
def modLink (s : State) (p : Nat) (f : Link → Link) : State := setLink s p (f (getLink s p))

def getPartner (s : State) (l : Nat) : Partner := Tab.getD s.partners l {}
def setPartner (s : State) (l : Nat) (x : Partner) : State := { s with partners := Tab.set s.partners l x }
def modPartner (s : State) (l : Nat) (f : Partner → Partner) : State := setPartner s l (f (getPartner s l))

def getFunc (s : State) (f : Nat) : Func := Tab.getD s.pcie.funcs f {}
def setFunc (s : State) (f : Nat) (x : Func) : State := { s with pcie := { s.pcie with funcs := Tab.set s.pcie.funcs f x } }
def modFunc (s : State) (f : Nat) (g : Func → Func) : State := setFunc s f (g (getFunc s f))

def getWindow (s : State) (w : Nat) : Window := Tab.getD s.pcie.windows w {}
def setWindow (s : State) (w : Nat) (x : Window) : State :=
  { s with pcie := { s.pcie with windows := Tab.set s.pcie.windows w x } }
def modWindow (s : State) (w : Nat) (f : Window → Window) : State := setWindow s w (f (getWindow s w))

def getSq (s : State) (n : Nat) : Sq := Tab.getD s.sqs n {}
def setSq (s : State) (n : Nat) (x : Sq) : State := { s with sqs := Tab.set s.sqs n x }
def modSq (s : State) (n : Nat) (f : Sq → Sq) : State := setSq s n (f (getSq s n))

def getCq (s : State) (n : Nat) : Cq := Tab.getD s.cqs n {}
def setCq (s : State) (n : Nat) (x : Cq) : State := { s with cqs := Tab.set s.cqs n x }
def modCq (s : State) (n : Nat) (f : Cq → Cq) : State := setCq s n (f (getCq s n))

def getMbx (s : State) (n : Nat) : Mailbox := Tab.getD s.mbx n {}
def setMbx (s : State) (n : Nat) (x : Mailbox) : State := { s with mbx := Tab.set s.mbx n x }
def modMbx (s : State) (n : Nat) (f : Mailbox → Mailbox) : State := setMbx s n (f (getMbx s n))

def getSlice (s : State) (t : Nat) : HkSlice := Tab.getD s.hk.slices t {}
def setSlice (s : State) (t : Nat) (x : HkSlice) : State := { s with hk := { s.hk with slices := Tab.set s.hk.slices t x } }

def getCmd? (s : State) (id : Nat) : Option Cmd := s.cmds.find? (fun c => c.id == id)
def modCmd (s : State) (id : Nat) (f : Cmd → Cmd) : State :=
  { s with cmds := s.cmds.map (fun c => if c.id = id then f c else c) }
def dropCmd (s : State) (id : Nat) : State := { s with cmds := s.cmds.filter (fun c => c.id != id) }

def getLive? (s : State) (id : Nat) : Option Live := s.live.find? (fun l => l.id == id)
def modLive (s : State) (id : Nat) (f : Live → Live) : State :=
  { s with live := s.live.map (fun l => if l.id = id then f l else l) }

def getMCmd? (s : State) (id : Nat) : Option MCmd := s.mcmds.find? (fun m => m.id == id)
def modMCmd (s : State) (id : Nat) (f : MCmd → MCmd) : State :=
  { s with mcmds := s.mcmds.map (fun m => if m.id = id then f m else m) }
def dropMCmd (s : State) (id : Nat) : State := { s with mcmds := s.mcmds.filter (fun m => m.id != id) }

def getFetch? (s : State) (id : Nat) : Option Fetch := s.fetches.find? (fun f => f.id == id)
def modFetch (s : State) (id : Nat) (f : Fetch → Fetch) : State :=
  { s with fetches := s.fetches.map (fun x => if x.id = id then f x else x) }
def dropFetch (s : State) (id : Nat) : State := { s with fetches := s.fetches.filter (fun x => x.id != id) }

def getDestage? (s : State) (id : Nat) : Option Destage := s.destages.find? (fun d => d.id == id)
def modDestage (s : State) (id : Nat) (f : Destage → Destage) : State :=
  { s with destages := s.destages.map (fun d => if d.id = id then f d else d) }

/-! ### Handles, free values and the outbox -/

/-- A fresh handle for a command, fetch, member command, destage or entry: the value of `nextId`. -/
def bump (s : State) : State := { s with nextId := s.nextId + 1 }

/-- One draw of a free value taken. -/
def drawn (s : State) : State := { s with freeIx := s.freeIx + 1 }

/-- Something emitted. -/
def emit (s : State) (o : Output) : State := { s with out := s.out ++ [o] }

def emits (s : State) (os : List Output) : State := { s with out := s.out ++ os }

/-! ### Time -/

/-- The offset within the epoch, in 16 ns units (R67). -/
def nowOffset (s : State) : BitVec 16 := BitVec.ofNat 16 ((s.clock - s.moon.edgeAt) / 16)

/-- The epoch period in ns: 16 µs · 2^PERIOD (R66, Table 2-11). -/
def periodNs (s : State) : Nat := 16000 * 2 ^ s.moon.period

/-- The pins once the bypass is closed or open: the instant of the change is kept (R112, R114). -/
def bypassPins (s : State) (closed : Bool) : Pins :=
  { s.pins with bypassClosed := closed, bypassAt := if s.pins.bypassClosed = closed then s.pins.bypassAt else s.clock }

/-- Home tile of a volume now (R26, R40). -/
def homeTile (s : State) (v : Nat) : Nat := (getVol s v).home

/-- An in-range list element changed. -/
def setAt {α : Type} (l : List α) (i : Nat) (x : α) : List α := l.set i x

/-- A list without duplicates of `x`, with `x` at the end. -/
def addOnce (l : List Nat) (x : Nat) : List Nat := if l.contains x then l else l ++ [x]

/-! ### Storing the configuration (R474, R475) -/

/-- The generation of a flash copy that passes its CRC. -/
def copyGen (c : FlashCopy) : Option Nat :=
  match c with
  | .good g _ => some g
  | _ => none

/-- The configuration stored last. -/
def storedCfg (f : Flash) : Option Cfg :=
  match f.copyA, f.copyB with
  | .good g c, b => if g = f.gen then some c else match b with
    | .good _ d => some d
    | _ => some c
  | _, .good _ d => some d
  | _, _ => none

/-- The configuration stored in the copy that is not the applied one, with the next generation. -/
def storeCfg (s : State) : State :=
  let f := s.flash
  let g := f.gen + 1
  let new : FlashCopy := .good g s.cfg
  { s with flash := if copyGen f.copyA = some f.gen then { f with gen := g, copyB := new } else { f with gen := g, copyA := new } }

end Sys2Proof.Machine
end

