-- ==== Sys2Proof/Machine/Jade.lean ====
section
/-! DEFINITION. Jade and Jet as operations: writing a record, raising a fault, correlation, the fault queue and F4
(chapter 12). Every family calls these; the rows of the fault family are in Faults.lean. -/

namespace Sys2Proof.Machine

/-! ### Sources (Table 12-2) -/

def srcMember (m : Nat) : BitVec 16 := BitVec.ofNat 16 (0x1000 + m)
def srcPool (p : Nat) : BitVec 16 := BitVec.ofNat 16 (0x2000 + p)
def srcAmber (t : Nat) : BitVec 16 := BitVec.ofNat 16 (0x3000 + 512 * t)
def srcAgate (t : Nat) : BitVec 16 := BitVec.ofNat 16 (0x4000 + 512 * t)
def srcCitrine (t pipe : Nat) : BitVec 16 := BitVec.ofNat 16 (0x5000 + 512 * t + 128 * pipe)
def srcLink (p : Nat) : BitVec 16 := BitVec.ofNat 16 (0x6000 + p)
def srcHost (f : Nat) : BitVec 16 := BitVec.ofNat 16 (0x7000 + f)
def srcMoon : BitVec 16 := 0x8000
def srcCarnelian (t c : Nat) : BitVec 16 := BitVec.ofNat 16 (0x9000 + 512 * t + c)
def srcCore (t c : Nat) : BitVec 16 := BitVec.ofNat 16 (0xA000 + 512 * t + c)
def srcMesh (t : Nat) : BitVec 16 := BitVec.ofNat 16 (0xB000 + 512 * t)
def srcPartner (l : Nat) : BitVec 16 := BitVec.ofNat 16 (0xC000 + l)
def srcBoot : BitVec 16 := 0xD000
def srcJade (t : Nat) : BitVec 16 := BitVec.ofNat 16 (0xE000 + 512 * t)

def srcKind (src : BitVec 16) : Nat := src.toNat / 4096
def srcInst (src : BitVec 16) : Nat := src.toNat % 4096

/-- The pool that holds a member, as member or hot spare (R505). -/
def poolOfMember (s : State) (m : Nat) : Option Nat :=
  (s.cfg.pools.find? (fun e => e.2.members.contains m || e.2.spares.contains m ||
    (Tab.get? s.pools e.1).any (fun p => p.failList.any (fun x => x.home == some m) || p.copy.any (fun c => c.2 == m)))).map Prod.fst

/-- Domain kinds (Table 12-10). -/
def domDevice : Nat := 0
def domTile : Nat := 1
def domPool : Nat := 2

/-- The domain of a source: kind and number (Table 12-2, R505). -/
def domainOf (s : State) (src : BitVec 16) : Option (Nat × Nat) :=
  let i := srcInst src
  match srcKind src with
  | 1 => (poolOfMember s (i % 1024)).map (fun p => (domPool, p))
  | 2 => some (domPool, i % 64)
  | 3 => some (domTile, i / 512)
  | 4 => some (domTile, i / 512)
  | 5 => some (domTile, i / 512)
  | 6 => some (domTile, tileOfPort (i % 256))
  | 7 => some (domDevice, 0)
  | 8 => some (domDevice, 0)
  | 9 => some (domTile, i / 512)
  | 10 => some (domTile, i / 512)
  | 11 => some (domTile, i / 512)
  | 12 => some (domDevice, 0)
  | 13 => some (domDevice, 0)
  | 14 => some (domDevice, 0)
  | _ => none

/-- A device-domain source without a containment action (R504, Table 12-2). -/
def uncontainable (src : BitVec 16) : Bool := srcKind src == 13 || srcKind src == 14

/-! ### Jet (R519-R523) -/

/-- Records in the circulating area before it wraps. -/
def jetCirc : Nat := 3072
def jetPinned : Nat := 1024

/-- A record stored in the next slot (R519, R521). -/
def Jet.store (j : Jet) (r : JetRec) : Jet :=
  if j.pinned.length < jetPinned then { j with pinned := j.pinned ++ [{ r with lap := true }], total := j.total + 1 }
  else
    { j with
      circ := Tab.set j.circ j.next { r with lap := j.lap }
      overwrites := if (Tab.get? j.circ j.next).isSome then satInc j.overwrites 0xFFFFFFFF else j.overwrites
      next := (j.next + 1) % jetCirc
      lap := if j.next + 1 = jetCirc then !j.lap else j.lap
      total := j.total + 1 }

/-- A record buffered, 64 at most; the excess is counted by CODE (R521, R523). -/
def Jet.hold (j : Jet) (r : JetRec) : Jet :=
  if j.buffer.length < 64 then { j with buffer := j.buffer ++ [r] }
  else { j with overflow := Tab.set j.overflow r.code.toNat (Tab.getD j.overflow r.code.toNat 0 + 1) }

/-- Whether a record of this code is one too many in its 1 ms window (R521). -/
def Jet.tooMany (j : Jet) (code : BitVec 16) : Bool :=
  decide (code.toNat / 4096 ≠ 8) && decide (16 ≤ Tab.getD j.written code.toNat 0)

/-- Jade takes a record: suppression, the buffers, or a slot. -/
def Jet.take (j : Jet) (buffering t0Lost : Bool) (r : JetRec) : Jet :=
  let c := r.code.toNat
  if t0Lost then
    if 1 ≤ r.cls ∧ j.keptByT1.length < 64 then { j with keptByT1 := j.keptByT1 ++ [r] } else j
  else if buffering then j.hold r
  else if j.tooMany r.code then { j with suppressed := Tab.set j.suppressed c (Tab.getD j.suppressed c 0 + 1) }
  else
    let j := { j with written := Tab.set j.written c (Tab.getD j.written c 0 + 1) }
    if j.recording then j.store r else j.hold r

/-- One Jet record (R519-R521), stamped with the epoch and offset now. -/
def jetRec (s : State) (code : BitVec 16) (src : BitVec 16) (cls : Nat) (corr esc : Bool) (data : List Byte) : State :=
  { s with
    jet := s.jet.take (s.phase == .d3cold || s.phase == .shutdown) (!tileUp s 0 || s.jet.toT1)
      { epoch := s.moon.epoch, offset := nowOffset s, code := code, source := src, cls := cls, correlated := corr,
        escalated := esc, data := data } }

/-- A record of class F0. -/
def jetInfo (s : State) (code : BitVec 16) (src : BitVec 16) (data : List Byte) : State :=
  jetRec s code src 0 false false data

/-! ### F4 (R510-R512) -/

/-- F4 entry (Table 12-4): latched, FAULT_N asserted, ALIVE low, links and PCIe down, bypass closed, training lost. -/
def enterF4 (s : State) (cause : Nat) : State :=
  if s.jade.f4 then s
  else
    let s := jetRec s 0x800A (srcJade 0) 4 false false (leBytes 2 (Config.f4Cause cause).toNat)
    { s with
      jade := { s.jade with f4 := true, f4Cause := cause, aliveRunning := false }
      pins := { bypassPins s true with faultN := false, alive := false }
      moon := { s.moon with trained := false }
      links := s.links.map (fun e => (e.1, { e.2 with up := false }))
      partners := s.partners.map (fun e => (e.1, { e.2 with up := false }))
      pcie := { s.pcie with linkUp := false } }

/-- The cases of R510, in the order of its list. -/
def causeTimeout : Nat := 0
def causeCorrelation : Nat := 1
def causeQueueFull : Nat := 2
def causeNoAction : Nat := 3
def causePartition : Nat := 4
def causeSelftest : Nat := 5

/-! ### The fault queue (R506, R507) -/

/-- The host cannot reach the device: F2 timers are held (R502). -/
def hostAway (s : State) : Bool :=
  !s.pins.perstN || (getFunc s 0).d != .d0 || !s.pcie.linkUp || !tileUp s 0

/-- F2 entries in the queue. -/
def f2Count (q : Tab FaultEnt) : Nat := (q.filter (fun e => e.2.st == 1 || e.2.st == 2)).length

/-- The lowest free slot. -/
def freeSlot (q : Tab FaultEnt) : Option Nat := (List.range 16).find? (fun i => (Tab.get? q i).isNone)

/-- The next ID: one greater than the last, skipping zero and the IDs of live entries (R506). -/
def nextFaultId (j : Jade) : Nat :=
  ((List.range 255).map (fun i => (j.lastId + i) % 255 + 1)).find? (fun id => !j.queue.any (fun e => e.2.ident == id))
    |>.getD 0

def domWindow (j : Jade) (dk di : Nat) : Option CorrWin := j.windows.find? (fun w => w.domKind == dk && w.domId == di)

/-- A window changed. -/
def modWin (s : State) (dk di : Nat) (f : CorrWin → CorrWin) : State :=
  { s with jade := { s.jade with
      windows := s.jade.windows.map (fun w => if w.domKind = dk ∧ w.domId = di then f w else w) } }

/-- A fault as it is raised: code, class, source, event data, and whether the raising rule carries the containment out
itself (R504). -/
structure FaultArg where
  code : BitVec 16
  cls : Nat
  src : BitVec 16
  data : List Byte := []
  acted : Bool := false
  /-- raised by the containment action itself (R508). -/
  marked : Bool := false

/-- A new queue entry for an event of class `cls` (2 or 3) whose first fault is `code` of `src` (R506). -/
def makeEntry (s : State) (code src : BitVec 16) (cls dk di : Nat) (corr acted : Bool) : State :=
  let full := cls == 2 && (decide (12 ≤ f2Count s.jade.queue) || (freeSlot s.jade.queue).isNone)
  let s := if full then
      jetRec { s with jade := { s.jade with queueFull := true } } 0x800C src 3 false false (leBytes 2 code.toNat)
    else s
  let cls := if full then 3 else cls
  match freeSlot s.jade.queue with
  | none => enterF4 s causeQueueFull
  | some i =>
    if cls = 3 ∧ uncontainable src ∧ !acted then enterF4 s causeNoAction
    else
      let id := nextFaultId s.jade
      let e : FaultEnt :=
        { code := code, source := src, ident := id, cls := cls, correlated := corr,
          st := if cls = 3 then 3 else if hostAway s then 2 else 1,
          domKind := dk, domId := di, timerMs := s.jade.escMs, since := s.clock, acted := acted }
      let s := { s with jade := { s.jade with
        queue := Tab.set s.jade.queue i e, lastId := id, f3Seen := s.jade.f3Seen || cls == 3 } }
      modWin s dk di (fun w => { w with slot := some i, cls := cls })

/-- The entry of an event whose class is now `cls` (R507): updated, made, or F4. -/
def placeEvent (s : State) (dk di : Nat) (code src : BitVec 16) (cls : Nat) (corr acted : Bool) : State :=
  if 4 ≤ cls then enterF4 s causeCorrelation
  else if cls < 2 then s
  else
    match (domWindow s.jade dk di).bind (·.slot) with
    | none => makeEntry s code src cls dk di corr acted
    | some i =>
      match Tab.get? s.jade.queue i with
      | none => makeEntry s code src cls dk di corr acted
      | some e =>
        if cls = 3 ∧ e.st ≠ 3 then
          if uncontainable e.source ∧ !(e.acted || acted) then enterF4 s causeNoAction
          else
            { s with jade := { s.jade with
              queue := Tab.set s.jade.queue i
                { e with cls := 3, st := 3, correlated := corr, since := s.clock, acted := e.acted || acted }
              f3Seen := true } }
        else { s with jade := { s.jade with queue := Tab.set s.jade.queue i { e with correlated := corr } } }

/-- The first fault of an event: its code and source. -/
def firstFault (w : CorrWin) : BitVec 16 × BitVec 16 := w.faults.getLastD (0, 0)

/-- The record of a fault itself; an F1 recorded sets F1_SEEN (Table 12-6). -/
def recordFault (s : State) (a : FaultArg) (corr : Bool) : State :=
  let s := if a.cls = 1 then { s with jade := { s.jade with f1Seen := true } } else s
  jetRec s a.code a.src a.cls corr false a.data

/-- A fault that joins an open window (R507); record 0x8003 names the entry that the event has or now takes, 0 when it enters F4. -/
def joinWindow (s : State) (w : CorrWin) (a : FaultArg) : State :=
  let dk := w.domKind
  let di := w.domId
  if w.faults.contains (a.code, a.src) then
    let s := modWin s dk di (fun w => { w with repeats := satInc w.repeats 255 })
    match w.slot with
    | none => s
    | some i => { s with jade := { s.jade with
        queue := Tab.adjust s.jade.queue i (fun e => { e with repeats := satInc e.repeats 255 }) } }
  else
    let s := recordFault s a true
    let cls := if w.escalated then max w.cls a.cls else min 4 (max w.cls a.cls + 1)
    let s := modWin s dk di (fun w => { w with faults := (a.code, a.src) :: w.faults, cls := cls, escalated := true })
    let id := ((w.slot.bind (Tab.get? s.jade.queue)).map (·.ident)).getD (if cls = 4 then 0 else nextFaultId s.jade)
    let s := if w.escalated then s
      else jetRec { s with jade := { s.jade with escalated := true } } 0x8003 (firstFault w).2 cls true true
        (leBytes 1 id ++ leBytes 2 a.code.toNat ++ leBytes 2 a.src.toNat)
    placeEvent s dk di (firstFault w).1 (firstFault w).2 cls true a.acted

/-- A fault is raised (R501, R504-R508): recorded in Jet and, from F1 up, entered into its domain's window and the queue. -/
def raise (s : State) (a : FaultArg) : State :=
  match domainOf s a.src with
  | none => recordFault s a false
  | some (dk, di) =>
    if a.cls = 0 ∨ s.jade.f4 ∨ a.marked ∨ (dk = domTile ∧ !tileUp s di) then
      recordFault s a false
    else if 4 ≤ a.cls then enterF4 (recordFault s a false) causePartition
    else
      match domWindow s.jade dk di with
      | some w => joinWindow s w a
      | none =>
        let s := recordFault s a false
        let s := { s with jade := { s.jade with
          windows := s.jade.windows ++ [{ domKind := dk, domId := di, faults := [(a.code, a.src)], cls := a.cls }] } }
        placeEvent s dk di a.code a.src a.cls false a.acted

/-- An entry freed: it leaves the queue and its event (R506). -/
def freeEntry (s : State) (slot : Nat) : State :=
  { s with jade := { s.jade with
      queue := Tab.erase s.jade.queue slot
      windows := s.jade.windows.map (fun w => if w.slot = some slot then { w with slot := none } else w) } }

/-- An F2 entry's timer as the host's reach leaves it (R502): held while the host cannot reach the device, started again in
full when it can. -/
def settleEnt (away : Bool) (now : Nat) (e : FaultEnt) : FaultEnt :=
  if away then (if e.st = 1 then { e with st := 2 } else e)
  else if e.st = 2 then { e with st := 1, since := now } else e

/-- The timers of the fault queue after a command (R502). -/
def settleF2 (s : State) : State :=
  { s with jade := { s.jade with queue := s.jade.queue.map (fun e => (e.1, settleEnt (hostAway s) s.clock e.2)) } }

end Sys2Proof.Machine
end

