-- ==== Sys2Proof/Machine/Flags.lean ====
section
/-! DEFINITION. Status words: every register of BAR 0 as host software reads it, the interrupt causes and the discovery
table (chapters 02, 06, 09, 10, 11, 12, 13). -/

namespace Sys2Proof.Machine

/-! ### Moonstone (Tables 2-9 to 2-12) -/

/-- SYNC: 0 standalone, 1 synchronised, 2 holdover, 3 not synchronised (Table 2-10). -/
def moonSync (m : Moon) : Nat :=
  if m.role = 0 ∨ m.contained then 0
  else if !m.trained || m.unsynced then 3
  else if m.role = 1 then 1
  else if 0 < m.misses then 2 else 1

def epochStatus (m : Moon) : Nat :=
  moonSync m + field 2 m.role + flag 4 m.trained + flag 5 m.sealActive + flag 8 m.rephased + flag 9 m.masterConflict +
    flag 10 m.epochBehind + flag 11 m.sealDone + flag 12 m.sealFailed + flag 13 m.breakSeen + field 16 m.breakPos.toNat

def epochInfo (m : Moon) : Nat := m.period + field 8 m.guard + field 16 m.position

def epochDelay (m : Moon) : Nat := (BitVec.ofInt 24 m.delay).toNat + field 24 m.misses

/-- EPOCH_NOW (Table 2-9). -/
def epochNow (s : State) : Nat := field 16 s.moon.epoch.toNat + (nowOffset s).toNat

/-! ### Cache (Tables 6-12 to 6-14) -/

def cacheCtl (c : CacheRegs) : Nat :=
  flag 0 c.en + flag 1 c.repl + flag 2 c.evmode + flag 3 c.pfa + flag 4 c.pfb + field 8 c.pfDepth.toNat +
    field 16 c.seed.toNat

/-- Lines of a tile that are not retired. -/
def liveLines (t : Tier) : Nat := 64 - t.retired.length

def lockedLines (t : Tier) : Nat := (t.lines.filter (fun e => e.2.locked)).length

def isDirtyLine (l : Line) : Bool :=
  match l.st with
  | .dirty => true
  | .writing => true
  | _ => false

def dirtyLines (t : Tier) : Nat := (t.lines.filter (fun e => isDirtyLine e.2)).length

def sumTiles (s : State) (f : Tile → Nat) : Nat :=
  ((List.range s.part.tiles).map (fun t => f (getTile s t))).foldl (· + ·) 0

def tileBits (s : State) (f : Tile → Bool) : Nat :=
  ((List.range s.part.tiles).map (fun t => flag t (f (getTile s t)))).foldl (· + ·) 0

def cacheStatusLo (s : State) : Nat :=
  flag 0 s.cache.en + flag 1 s.cache.staleRisk + flag 2 (tileBits s (fun t => !t.tier.evb.isEmpty) != 0) +
    flag 3 s.cache.retiredSeen + flag 4 s.cache.lowLines + flag 5 s.cache.ueSeen + flag 6 s.cache.writeIgnored +
    flag 7 (!s.maints.isEmpty) + field 8 (tileBits s (fun t => decide (liveLines t.tier < 56))) +
    field 16 (sumTiles s (fun t => dirtyLines t.tier))

def cacheStatusHi (s : State) : Nat :=
  sumTiles s (fun t => lockedLines t.tier) + field 16 (sumTiles s (fun t => liveLines t.tier))

def cacheTile (t : Tier) : Nat :=
  liveLines t + field 8 (lockedLines t) + field 16 (dirtyLines t) + field 24 t.evb.length + field 28 t.side.length

/-! ### Faults and ALIVE (Tables 12-6 to 12-11) -/

def faultStatus (j : Jade) : Nat :=
  flag 0 j.f1Seen + flag 1 (j.queue.any (fun e => e.2.st == 1 || e.2.st == 2)) + flag 2 j.f3Seen + flag 3 j.escalated +
    flag 4 j.queueFull + flag 5 j.ackErr + flag 6 j.hwdog + flag 7 j.prevF4 + flag 8 j.prevFreeze +
    field 16 j.queue.length

def faultPending (j : Jade) : Nat :=
  (j.queue.map (fun e => if e.2.st = 3 then 2 ^ (16 + e.1) else 2 ^ e.1)).foldl (· + ·) 0

/-- FAULT_ENTRY (Table 12-10). -/
def faultEntry (e : FaultEnt) : Nat :=
  e.code.toNat + field 16 e.source.toNat + field 32 e.ident + field 40 e.cls + flag 43 e.correlated + field 44 e.st +
    field 48 e.domKind + field 50 e.domId + field 56 e.repeats

def aliveCtl (s : State) : Nat :=
  flag 0 s.pins.alive + flag 1 s.jade.aliveRunning + flag 2 s.jade.hwdogEn + field 16 s.jade.hwdogMs

/-! ### Housekeeping (Table 13-11) -/

def hkStatus (h : Hk) : Nat :=
  flag 0 h.warn + flag 1 h.throttle + flag 2 h.rise + flag 3 h.channel + flag 4 h.prevShutdown + field 8 h.level +
    field 10 h.enforcing.toNat + field 16 h.prevCause

def hkThresh (h : Hk) : Nat := h.tWarn + field 8 h.tThrottle + field 16 h.tCritical + field 24 120

def hkThrottle (h : Hk) : Nat := h.graceMs + field 16 h.target

def hkTemp (x : HkSlice) : Nat :=
  (BitVec.ofInt 11 x.temp).toNat + field 12 x.diode + field 16 (min 255 x.rise) + field 24 x.good

def hkFaults (h : Hk) : Nat := h.volt.toNat + field 8 h.osc.toNat + field 16 h.sensor.toNat

def hkChanData (s : State) : Nat :=
  let x := getSlice s s.hk.selTile
  (Tab.getD x.readings s.hk.selChan 0).toNat + flag 24 (x.healthy.contains s.hk.selChan)

/-! ### Jet (Tables 12-12 to 12-14) -/

/-- The 32-byte image of a record (Table 12-12). -/
def jetImage (r : JetRec) : List Byte :=
  leBytes 6 r.epoch.toNat ++ leBytes 2 r.offset.toNat ++ leBytes 2 r.code.toNat ++ leBytes 2 r.source.toNat ++
    leBytes 1 (r.cls + flag 4 r.correlated + flag 5 r.escalated + flag 7 r.lap) ++
    (r.data ++ List.replicate 19 0).take 19

/-- The image of a slot: zero when empty. -/
def jetSlotImage (r : Option JetRec) : List Byte :=
  match r with
  | some r => jetImage r
  | none => List.replicate 32 0

/-- The record at pinned or circulating index `i`. -/
def jetAt (j : Jet) (area : Bool) (i : Nat) : Option JetRec := if area then Tab.get? j.circ i else j.pinned[i]?

def jetWrapped (j : Jet) : Bool := decide (jetCirc ≤ j.circ.length)

def jetState (j : Jet) : Nat :=
  j.pinned.length + field 16 j.next + flag 28 (jetWrapped j) + flag 29 j.recording

def jetCursor (j : Jet) : Nat := j.index + flag 12 j.area

/-! ### Functions, windows and rings (Tables 9-12, 9-15, 10-12, 10-13) -/

def sqOwner (s : State) (n : Nat) : Nat := Tab.getD s.pcie.sqOwner n 0
def cqOwner (s : State) (n : Nat) : Nat := Tab.getD s.pcie.cqOwner n 0
def winOwner (s : State) (w : Nat) : Nat := Tab.getD s.pcie.winOwner w 0

/-- The SQs, CQs and windows a VF holds, in ascending order of device number (R396). -/
def vfSqs (s : State) (fn : Nat) : List Nat := (s.pcie.sqOwner.filter (fun e => e.2 == fn)).map Prod.fst
def vfCqs (s : State) (fn : Nat) : List Nat := (s.pcie.cqOwner.filter (fun e => e.2 == fn)).map Prod.fst
def vfWins (s : State) (fn : Nat) : List Nat := (s.pcie.winOwner.filter (fun e => e.2 == fn)).map Prod.fst

/-- A function that exists: PF0, or VF 1 to NumVFs (R395). -/
def fnExists (s : State) (fn : Nat) : Bool := fn == 0 || decide (fn ≤ s.pcie.numVfs)

def winW1c (w : Window) : Bool := w.directWrite || w.dropped || w.commitErr || w.readRefused

def winStatus (s : State) (n : Nat) : Nat :=
  let w := getWindow s n
  (w.act.ctl.toNat % 2) + flag 1 w.directWrite + flag 2 w.dropped + flag 3 w.commitErr + flag 4 w.readRefused +
    field 8 w.refused + field 16 (winOwner s n)

/-- WIN_EVENT (Table 9-12): PF0 sees every window it holds, a VF its local indices. -/
def winEvent (s : State) (fn : Nat) : Nat :=
  let wins := if fn = 0 then (List.range 64).filter (fun w => winOwner s w == 0) else vfWins s fn
  let bitOf (w : Nat) : Nat := if fn = 0 then w else (wins.findIdx? (· == w)).getD 0
  (wins.map (fun w => if winW1c (getWindow s w) then 2 ^ bitOf w else 0)).foldl (· + ·) 0

/-- The CQ an SQ is bound to: a VF names its local index (Table 10-12, R396). -/
def sqCq (s : State) (n : Nat) : Option Nat :=
  let c := (getSq s n).cq
  if sqOwner s n = 0 then some c else (vfCqs s (sqOwner s n))[c]?

def sqBpWait (s : State) (n : Nat) : Bool := (getSq s n).active && (sqCq s n).any (fun c => (getCq s c).backpressure)

def sqCtl (q : Sq) : Nat := flag 0 q.en + field 8 q.size + field 16 q.cq

def sqStatus (s : State) (n : Nat) : Nat :=
  let q := getSq s n
  flag 0 q.active + flag 1 q.draining + flag 2 (sqBpWait s n) + flag 3 q.fetchStop + flag 4 q.formatErr +
    flag 5 q.writeIgnored + field 16 q.cfgStatus.toNat

/-- SQ_POS: what host software wrote, or what the device set at the end of draining (R462). -/
def sqPos (q : Sq) : Nat := q.posHead + flag 16 q.posWrap

def sqWeight (q : Sq) : Nat := q.weight + field 8 q.burst

def cqCtl (q : Cq) : Nat := flag 0 q.en + flag 1 q.ien + field 8 q.size + field 16 q.vector

def cqAgg (q : Cq) : Nat := q.aggCount + field 8 q.aggTime

/-- CQ_STATUS (Table 10-13): HELD counts the 64 places on-die (R460). -/
def cqStatus (q : Cq) : Nat :=
  flag 0 q.active + flag 1 q.backpressure + flag 2 q.bpSeen + flag 3 q.headErr + flag 4 q.writeIgnored +
    field 8 (min 64 q.waiting.length) + field 16 q.cfgStatus.toNat

def cqPos (q : Cq) : Nat := q.tail + flag 16 q.tailWrap

/-- MBX_STATUS (Table 11-3). -/
def mbxStatus (s : State) (m : Mailbox) : Nat :=
  flag 0 (fwUp s) + flag 1 (m.busy && !m.orphan) + flag 2 m.done + flag 3 m.overrun + flag 4 m.writeIgnored + field 16 m.lastStatus.toNat

/-- The response area of a mailbox: header of Table 11-5, then the data. -/
def respBytes (r : Resp) : List Byte :=
  leBytes 2 r.status.toNat ++ leBytes 2 r.data.length ++ leBytes 4 r.cmdId.toNat ++ leBytes 4 r.detail.toNat ++
    List.replicate 4 0 ++ r.data

/-! ### Interrupt causes (R402) -/

/-- INT_CAUSE bit `c` of function `fn`. -/
def causeSet (s : State) (fn c : Nat) : Bool :=
  match c with
  | 0 => fn == 0 && faultStatus s.jade / 2 % 64 != 0
  | 1 => fn == 0 && hkStatus s.hk % 32 != 0
  | 2 => fn == 0 && epochStatus s.moon / 256 % 64 != 0
  | 3 => fn == 0 && (s.cache.staleRisk || s.cache.retiredSeen || s.cache.lowLines || s.cache.ueSeen)
  | 4 => winEvent s fn != 0
  | 5 => (getFunc s fn).reqStatus != 0
  | 6 => (getMbx s fn).done
  | _ => false

def intCause (s : State) (fn : Nat) : Nat := ((List.range 7).map (fun c => flag c (causeSet s fn c))).foldl (· + ·) 0

/-! ### Reading a register (R5, R10, R13, R400) -/

def deviceId (p : Part) : Nat := 0x0E00 + p.tiles

def tilesLog2 : Part → Nat
  | .efv2 => 1
  | .efv4 => 2
  | .efv8 => 3

def devId (s : State) : Nat := deviceId s.part + field 16 (tilesLog2 s.part) + field 24 Config.stepping.toNat

/-- Word `i` of a number. -/
def wordOf (v i : Nat) : Nat := v / 2 ^ (32 * i) % 2 ^ 32

/-- Word `i` of a byte list. -/
def wordOfBytes (l : List Byte) (i : Nat) : Nat := leField l (4 * i) 4

/-- A word of a mailbox (Table 11-1). -/
def readMbx (s : State) (m off : Nat) : Nat :=
  let x := getMbx s m
  if off < 0xC00 then leNat (Mem.bytes x.area off 4)
  else if off < 0xFF0 then wordOfBytes (respBytes x.resp) ((off - 0xC00) / 4)
  else if off = 0xFF4 then mbxStatus s x
  else 0

/-- A word of an SQ configuration block. -/
def readSq (s : State) (n off : Nat) : Nat :=
  let q := getSq s n
  match off with
  | 0x00 => wordOf q.base.toNat 0
  | 0x04 => wordOf q.base.toNat 1
  | 0x08 => wordOf q.headword.toNat 0
  | 0x0C => wordOf q.headword.toNat 1
  | 0x10 => sqCtl q
  | 0x14 => sqStatus s n
  | 0x18 => sqPos q
  | 0x1C => sqWeight q
  | 0x20 => q.dispatched.toNat
  | 0x24 => q.discarded.toNat
  | _ => 0

/-- A word of a CQ configuration block. -/
def readCq (s : State) (n off : Nat) : Nat :=
  let q := getCq s n
  match off with
  | 0x00 => wordOf q.base.toNat 0
  | 0x04 => wordOf q.base.toNat 1
  | 0x08 => cqCtl q
  | 0x0C => cqAgg q
  | 0x10 => cqStatus q
  | 0x14 => cqPos q
  | 0x18 => q.bpCount.toNat
  | _ => 0

/-- A word of a window register block (Table 9-13). -/
def readWin (s : State) (n off : Nat) : Nat :=
  let w := getWindow s n
  match off with
  | 0x00 => w.act.base.toNat
  | 0x04 => w.act.limit.toNat
  | 0x08 => wordOf w.act.target.toNat 0
  | 0x0C => wordOf w.act.target.toNat 1
  | 0x10 => w.act.ctl.toNat
  | 0x14 => winStatus s n
  | 0x20 => w.sh.base.toNat
  | 0x24 => w.sh.limit.toNat
  | 0x28 => wordOf w.sh.target.toNat 0
  | 0x2C => wordOf w.sh.target.toNat 1
  | 0x30 => w.sh.ctl.toNat
  | _ => 0

/-- The registers of Table 9-6 that a VF also has; of INT_MASK a VF has bits 4 to 6 (Table 9-5, R402). -/
def readShared (s : State) (fn off : Nat) : Nat :=
  let f := getFunc s fn
  if off = 0 then devId s
  else if 0x10 ≤ off ∧ off < 0x20 then wordOf Config.serial.toNat ((off - 0x10) / 4)
  else if off = 0x100 then intCause s fn
  else if off = 0x104 then (if fn = 0 then f.intMask.toNat else field 4 (bits f.intMask.toNat 6 4))
  else if 0x140 ≤ off ∧ off < 0x160 then (f.intVec.getD ((off - 0x140) / 4) 0).toNat
  else if off = 0x500 then f.reqStatus.toNat
  else if off = 0x508 then f.timeouts.toNat
  else if off = 0x50C then f.lateDropped.toNat + field 16 f.atsRefused.toNat
  else if off = 0x520 then wordOf (winEvent s fn) 0
  else if off = 0x524 then wordOf (winEvent s fn) 1
  else 0

/-- A word of the device register block (Table 9-6), at a word-aligned offset. -/
def readBlock (s : State) (off : Nat) : Nat :=
  if 0x20 ≤ off ∧ off < 0x30 then wordOf Config.uuid.toNat ((off - 0x20) / 4)
  else if 0x30 ≤ off ∧ off < 0x38 then wordOf Config.identity.toNat ((off - 0x30) / 4)
  else if off = 0x200 then faultStatus s.jade
  else if off = 0x208 then s.jade.escMs
  else if off = 0x20C then faultPending s.jade
  else if 0x280 ≤ off ∧ off < 0x300 then
    ((Tab.get? s.jade.queue ((off - 0x280) / 8)).map (fun e => wordOf (faultEntry e) (off / 4 % 2))).getD 0
  else if off = 0x300 then aliveCtl s
  else if off = 0x380 then hkStatus s.hk
  else if off = 0x384 then hkThresh s.hk
  else if off = 0x388 then hkThrottle s.hk
  else if off = 0x38C then s.hk.rounds.toNat
  else if 0x390 ≤ off ∧ off < 0x3B0 then
    (if (off - 0x390) / 4 < s.part.tiles then hkTemp (getSlice s ((off - 0x390) / 4)) else 0)
  else if off = 0x3B0 then hkFaults s.hk
  else if off = 0x3B4 then s.hk.selTile + field 8 s.hk.selChan
  else if off = 0x3B8 then hkChanData s
  else if off = 0x400 then wordOf (epochNow s) 0
  else if off = 0x404 then (match s.moon.latch with | some v => v.toNat | none => wordOf (epochNow s) 1)
  else if off = 0x408 then epochStatus s.moon
  else if off = 0x40C then epochInfo s.moon
  else if off = 0x410 then epochDelay s.moon
  else if off = 0x480 then cacheCtl s.cache
  else if off = 0x488 then cacheStatusLo s
  else if off = 0x48C then cacheStatusHi s
  else if 0x4A0 ≤ off ∧ off < 0x4C0 then
    (if (off - 0x4A0) / 4 < s.part.tiles then cacheTile (getTile s ((off - 0x4A0) / 4)).tier else 0)
  else readShared s 0 off

/-- A word of the Jet window (Table 12-13), JET_DATA of a held latch included. -/
def readJet (s : State) (off : Nat) : Nat :=
  if off = 0x10000 then jetCursor s.jet
  else if off = 0x10004 then jetState s.jet
  else if off = 0x10008 then s.jet.overwrites
  else if 0x10020 ≤ off ∧ off < 0x10040 then
    wordOfBytes (s.jet.latched.getD (jetSlotImage (jetAt s.jet s.jet.area s.jet.index))) ((off - 0x10020) / 4)
  else if 0x20000 ≤ off ∧ off < 0x40000 then
    let slot := (off - 0x20000) / 32
    let r := if slot < jetPinned then jetAt s.jet false slot else jetAt s.jet true (slot - jetPinned)
    wordOfBytes (jetSlotImage r) (off % 32 / 4)
  else 0

/-- A naturally aligned 32-bit read of PF BAR 0 (R15, R400). -/
def readPf (s : State) (off : Nat) : W32 :=
  BitVec.ofNat 32 <|
    if off < 0x10000 then readBlock s off
    else if off < 0x40000 then readJet s off
    else if off < 0x80000 then
      let m := (off - 0x40000) / 0x1000
      if m ≠ 0 ∧ m ≤ s.pcie.numVfs then 0 else readMbx s m (off % 0x1000)
    else if 0x200000 ≤ off ∧ off < 0x220000 then
      let n := (off - 0x200000) / 64
      if n < s.part.sqs ∧ sqOwner s n = 0 then readSq s n (off % 64) else 0
    else if 0x220000 ≤ off ∧ off < 0x228000 then
      let n := (off - 0x220000) / 64
      if n < s.part.cqs ∧ cqOwner s n = 0 then readCq s n (off % 64) else 0
    else if 0x300000 ≤ off ∧ off < 0x301000 then
      let w := (off - 0x300000) / 64
      if winOwner s w = 0 ∨ 0x20 ≤ off % 64 then readWin s w (off % 64) else 0
    else 0

/-- A naturally aligned 32-bit read of VF BAR 0 (Table 9-5). -/
def readVf (s : State) (fn off : Nat) : W32 :=
  BitVec.ofNat 32 <|
    if off < 0x1000 then readShared s fn off
    else if off < 0x2000 then readMbx s fn (off - 0x1000)
    else if 0x4000 ≤ off ∧ off < 0x8000 then
      (((vfSqs s fn)[(off - 0x4000) / 64]?).map (fun n => readSq s n (off % 64))).getD 0
    else if 0x8000 ≤ off ∧ off < 0x9000 then
      (((vfCqs s fn)[(off - 0x8000) / 64]?).map (fun n => readCq s n (off % 64))).getD 0
    else if 0x9000 ≤ off ∧ off < 0xA000 then
      (((vfWins s fn)[(off - 0x9000) / 64]?).map (fun n => readWin s n (off % 64))).getD 0
    else 0

/-- A naturally aligned 32-bit read of a function's BAR 0. -/
def readReg32 (s : State) (fn off : Nat) : W32 := if fn = 0 then readPf s off else readVf s fn off

/-- A read of `width` bytes of a function's BAR 0 (R15): a naturally aligned word, or two words, the one at the lower address in bits 31:0;
any other read returns 0xFFFF_FFFF. A 64-bit read of EPOCH_NOW is one instant (R116). What a read does besides is EPOCH_NOW_READ and
JET_DATA_READ. -/
def readReg (s : State) (fn off width : Nat) : BitVec 64 :=
  if width = 4 ∧ off % 4 = 0 then (readReg32 s fn off).setWidth 64
  else if width = 8 ∧ off % 8 = 0 then
    (if fn = 0 ∧ off = 0x400 then BitVec.ofNat 64 (epochNow s) else readReg32 s fn (off + 4) ++ readReg32 s fn off)
  else 0xFFFFFFFF

/-! ### The discovery table (R405-R407) -/

/-- An EFDT entry (R406). -/
def efdtEntry (typ attr off size : Nat) : List Byte := leBytes 2 typ ++ leBytes 2 attr ++ leBytes 4 off ++ leBytes 8 size

/-- The 24 entries: Table 9-11 for the PF, then the regions of the VFs (Tables 9-3 and 9-5). -/
def efdtEntries (p : Part) : List Byte :=
  efdtEntry 1 0 0 0x10000 ++ efdtEntry 2 0 0x10000 0x30000 ++ efdtEntry 3 0 0x40000 0x40000 ++
    efdtEntry 4 0 0x100000 (8 * p.sqs) ++ efdtEntry 5 0 0x110000 (8 * p.cqs) ++ efdtEntry 6 0 0x200000 (64 * p.sqs) ++
    efdtEntry 7 0 0x220000 (64 * p.cqs) ++ efdtEntry 8 0 0x300000 0x1000 ++ efdtEntry 9 2 0 0x1000000000 ++
    efdtEntry 10 4 0 0x8000 ++ efdtEntry 11 4 0x8000 0x100 ++ efdtEntry 0x10 0 p.sqs p.cqs ++
    efdtEntry 0x11 0 64 0x40000000 ++ efdtEntry 0x12 0 0xFF 0 ++
    efdtEntry 1 8 0 0x1000 ++ efdtEntry 3 8 0x1000 0x1000 ++ efdtEntry 4 8 0x2000 0x800 ++ efdtEntry 5 8 0x2800 0x200 ++
    efdtEntry 6 8 0x4000 0x4000 ++ efdtEntry 7 8 0x8000 0x1000 ++ efdtEntry 8 8 0x9000 0x1000 ++
    efdtEntry 9 10 0 0x1000000000 ++ efdtEntry 10 12 0 0x400 ++ efdtEntry 11 12 0x800 8

/-- The header with a given CRC. -/
def efdtHeader (p : Part) (crc : Nat) : List Byte :=
  [0x45#8, 0x46#8, 0x44#8, 0x54#8] ++ leBytes 2 0x0100 ++ leBytes 2 24 ++ leBytes 4 416 ++ leBytes 2 (deviceId p) ++
    List.replicate 14 0 ++ leBytes 4 crc

/-- The Efusha Discovery Table. -/
def efdt (p : Part) : List Byte :=
  efdtHeader p (crc32c (efdtHeader p 0 ++ efdtEntries p)).toNat ++ efdtEntries p

end Sys2Proof.Machine
end

