-- ==== Sys2Proof/Machine/Irq.lean ====
section
/-! DEFINITION. Interrupt messages (R402-R404, R428) and the end of every command: interrupt levels are compared with those
last seen, and PME follows wake events (R430). -/

namespace Sys2Proof.Machine

/-- A function may write to the host: its D-state and PF0's are D0, and the link is up (Table 9-17). -/
def canDma (s : State) (fn : Nat) : Bool :=
  (getFunc s 0).d == .d0 && (getFunc s fn).d == .d0 && s.pcie.linkUp && s.pins.perstN && tileUp s 0

/-- A vector's message may go (R403): MSI-X is enabled, and neither the function nor the vector is masked. -/
def msixOpen (f : Func) (v : Nat) : Bool := f.msixEnable && !f.msixMask && f.vecOpen.contains v

/-- A message on a vector: sent, or kept pending until the function may send it (R403, R428). -/
def sendMsg (s : State) (fn v : Nat) : State :=
  if canDma s fn && msixOpen (getFunc s fn) v then emit s (.msix fn v)
  else modFunc s fn (fun f => { f with heldMsgs := addOnce f.heldMsgs v })

/-- The vectors on which an unmasked cause of the function is set (R403). -/
def highVectors (s : State) (fn : Nat) : List Nat :=
  let f := getFunc s fn
  (((List.range 7).filter (fun c => causeSet s fn c && !f.intMask.getLsbD c)).map (fun c => (f.intVec.getD c 0).toNat)).eraseDups

/-- Levels of one function compared with those last seen: a rise sends the vector's message (R403). -/
def irqFn (s : State) (fn : Nat) : State :=
  let now := highVectors s fn
  let was := (getFunc s fn).high
  if now = was then s
  else
    let s := modFunc s fn (fun f => { f with high := now })
    (now.filter (fun v => !was.contains v)).foldl (fun s v => sendMsg s fn v) s

/-- Levels of every function that exists. -/
def irqUpdate (s : State) : State := (List.range (s.pcie.numVfs + 1)).foldl irqFn s

/-- After a write that clears a source bit of cause `c`: the message again if its vector is still high (R403). -/
def resend (s : State) (fn c : Nat) : State :=
  let v := ((getFunc s fn).intVec.getD c 0).toNat
  if (highVectors s fn).contains v && (getFunc s fn).high.contains v then sendMsg s fn v else s

/-- The state after every effect: F2 timers as the host's reach leaves them (R502), then the interrupt levels (R403). -/
def settled (s : State) : State := irqUpdate (settleF2 s)

/-- The end of a command that has taken its effect. -/
def done (s : State) : Result := .next (settled s)

/-- A wake event (R430): a fault of class F2 or above, or a temperature threshold of Warn or above. -/
def wakeEvent (s : State) : State :=
  if s.phase == .d3cold then { s with pins := { s.pins with wakeN := false } }
  else
    match (getFunc s 0).d with
    | .d0 => s
    | _ =>
      let s := modFunc s 0 (fun f => { f with pmeStatus := true })
      if (getFunc s 0).pmeEn then emit s (.pme 0) else s

/-- A fault raised, with its wake event (R430). -/
def fault (s : State) (a : FaultArg) : State :=
  let s' := raise s a
  if 2 ≤ a.cls ∨ s'.jade.f3Seen != s.jade.f3Seen ∨ s.jade.queue.length < s'.jade.queue.length then wakeEvent s' else s'

/-- A fault of a class with no further data. -/
def fault0 (s : State) (code : BitVec 16) (cls : Nat) (src : BitVec 16) : State :=
  fault s { code := code, cls := cls, src := src }

end Sys2Proof.Machine
end

