-- ==== Sys2Proof/Machine/Requester.lean ====
section
/-! DEFINITION. The device as PCIe requester (R408-R419): reads and writes of host memory, tags, and address translation. -/

namespace Sys2Proof.Machine

def modPcie (s : State) (f : Pcie → Pcie) : State := { s with pcie := f s.pcie }

/-- AER's log (R412-R414, R421): 1 completion timeout, 2 unexpected completion, 3 poisoned TLP, 4 unsupported request. -/
def aer (s : State) (kind : Nat) : State := modPcie s (fun p => { p with aer := kind :: p.aer })

/-- REQ_STATUS bit `b` set (Table 9-12). -/
def reqStatus (s : State) (fn b : Nat) : State := modFunc s fn (fun f => { f with reqStatus := f.reqStatus ||| (1#5 <<< b) })

/-- Pieces of a transfer that crosses no boundary of `mx` bytes from its start and no 4 KiB boundary: offset and length. -/
def pieces (mx : Nat) : Nat → Nat → Nat → Nat → List (Nat × Nat)
  | 0, _, _, _ => []
  | fuel + 1, addr, off, len =>
    if len = 0 then [] else
      let n := min (min mx len) (4096 - addr % 4096)
      (off, n) :: pieces mx fuel (addr + n) (off + n) (len - n)

def split (mx addr len : Nat) : List (Nat × Nat) := pieces (max 64 mx) (len / 64 + len / 4096 + 2) addr 0 len

/-! ### Translation (R415, R416) -/

/-- The cache entry for a page. -/
def atcFind? (s : State) (fn page : Nat) : Option AtcEnt := s.pcie.atc.find? (fun e => e.fn == fn && e.page.toNat == page)

/-- The bus address to use: the address itself without ATS, a cached translation, or none on a miss. -/
def translate (s : State) (fn addr : Nat) (write : Bool) : Option Nat :=
  if !(getFunc s fn).ats then some addr
  else
    match atcFind? s fn (addr / 4096) with
    | some e => if (if write then e.w else e.r) then some (e.target.toNat * 4096 + addr % 4096) else none
    | none => none

/-- A Translation Request, one for a page and 64 at most outstanding (R416). -/
def askPage (s : State) (fn page : Nat) (write : Bool) : State :=
  if s.pcie.trReqs.any (fun t => t.fn == fn && t.page == page && t.write == write) || decide (64 ≤ s.pcie.trReqs.length) then s
  else
    let id := s.pcie.nextTr
    emit (modPcie s (fun p => { p with trReqs := p.trReqs ++ [{ id := id, fn := fn, page := page, write := write }], nextTr := p.nextTr + 1 }))
      (.translation fn id (4096 * page))

/-- A hit makes its entry the most recently used. -/
def atcTouch (s : State) (fn addr : Nat) : State :=
  match atcFind? s fn (addr / 4096) with
  | some e => modPcie s (fun p => { p with atc := e :: p.atc.filter (· != e) })
  | none => s

/-! ### Tags (R408, R412) -/

/-- Tags of a function: 14 bits in FLIT mode, which is the mode of 64 GT/s; otherwise 10 bits or 8 as enabled (R408). -/
def tagCount (s : State) (fn : Nat) : Nat := if s.pcie.rate = 64 then 16384 else if (getFunc s fn).tag10 then 1024 else 256

/-- The completion timeout in ns by its encoding (Table 9-12a); none for a reserved one. -/
def ctoNs? : Nat → Option Nat
  | 0 => some 10000000
  | 1 => some 100000
  | 2 => some 10000000
  | 5 => some 55000000
  | 6 => some 210000000
  | 9 => some 900000000
  | 10 => some 3500000000
  | 13 => some 13000000000
  | 14 => some 64000000000
  | _ => none

/-- The completion timeout in use for a function's requests (R411). -/
def ctoNs (s : State) (fn : Nat) : Nat := (ctoNs? (getFunc s fn).cto).getD 10000000

def tagInUse (s : State) (t : Nat) : Bool := s.pcie.reqs.any (fun r => r.tag == t) || s.pcie.quarantine.any (fun e => e.1 == t)

/-- The lowest free tag for a function, with at most 4,096 requests outstanding. -/
def freeTag (s : State) (fn : Nat) : Option Nat :=
  if 4096 ≤ s.pcie.reqs.length then none
  else (List.range (min (tagCount s fn) (s.pcie.reqs.length + s.pcie.quarantine.length + 1))).find? (fun t => !tagInUse s t)

/-! ### Reads and writes -/

/-- One waiting read tried. -/
def tryRead (s : State) (r : HostReq) : State :=
  if !canDma s r.fn then s
  else
    match translate s r.fn r.addr false, freeTag s r.fn with
    | some a, some t =>
      let s := modPcie s (fun p => { p with waitReqs := p.waitReqs.erase r, reqs := p.reqs ++ [{ r with tag := t, due := s.clock + ctoNs s r.fn }] })
      emit (atcTouch s r.fn r.addr) (.dmaRead r.fn t a r.len)
    | none, _ => askPage s r.fn (r.addr / 4096) false
    | _, none => s

/-- Waiting writes of a function in order: the first that cannot go holds the rest. -/
def tryWrites (s : State) (fn : Nat) : State :=
  (s.pcie.waitWrites.foldl (fun (acc : State × Bool) w =>
    if acc.2 || w.fn != fn then acc
    else if !canDma acc.1 fn then (acc.1, true)
    else
      match translate acc.1 fn w.addr true with
      | some a =>
        let s := modPcie acc.1 (fun p => { p with waitWrites := p.waitWrites.erase w })
        (emit (atcTouch s fn w.addr) (.dmaWrite fn a w.len w.data w.ro), false)
      | none => (askPage acc.1 fn (w.addr / 4096) true, true)) (s, false)).1

/-- Everything that waits tried again. -/
def pumpDma (s : State) : State :=
  let s := (List.range (s.pcie.numVfs + 1)).foldl tryWrites s
  s.pcie.waitReqs.foldl tryRead s

/-- A read of host memory, split at Max_Read_Request_Size and every 4 KiB (R408). -/
def hostRead (s : State) (fn : Nat) (purpose : ReqPurpose) (addr len : Nat) : State :=
  let rs : List HostReq := (split (getFunc s fn).mrrs addr len).map (fun e =>
    { tag := 0, fn := fn, purpose := purpose, addr := addr + e.1, len := e.2, base := e.1 })
  let s := modPcie s (fun p => { p with waitReqs := p.waitReqs ++ rs })
  rs.foldl tryRead s

/-- The data of a READ ring entry (R410). -/
def isReadData (s : State) (entry : Option Nat) : Bool :=
  match entry with
  | some id => s.live.any (fun l => l.id == id && l.opc == 1)
  | none => false

/-- A write of host memory, split at Max_Payload_Size and every 4 KiB (R408); Relaxed Ordering on writes of read data alone (R410). -/
def hostWrite (s : State) (fn addr len : Nat) (data : Mem) (entry : Option Nat) : State :=
  let ro := (getFunc s fn).relaxed && isReadData s entry
  let ws : List DmaWrite := (split (getFunc s fn).mps addr len).map (fun e =>
    { fn := fn, addr := addr + e.1, len := e.2, data := Mem.slice data e.1 e.2, entry := entry, ro := ro })
  tryWrites (modPcie s (fun p => { p with waitWrites := p.waitWrites ++ ws })) fn

/-- Requests whose answer nothing waits for any more: their completions are taken and discarded. -/
def voidReqs (s : State) (p : HostReq → Bool) : State :=
  modPcie s (fun x =>
    { x with
      waitReqs := x.waitReqs.filter (fun r => !p r)
      reqs := x.reqs.map (fun r => if p r then { r with purpose := .data 0 0 } else r) })

/-- A read of SQ `n`'s entries. -/
def ofSq (n : Nat) (r : HostReq) : Bool :=
  match r.purpose with
  | .header k => k == n
  | .body k => k == n
  | .data _ _ => false

/-- A ring entry still has data writes that wait. -/
def writesWait (s : State) (entry : Nat) : Bool := s.pcie.waitWrites.any (fun w => w.entry == some entry)

end Sys2Proof.Machine
end

