-- ==== Sys2Proof/Machine/Operands.lean ====
section
/-! DEFINITION. What every mailbox command has in common (chapter 11): GO, the checks of Table 11-6 with their DETAIL, waiting
behind a command on the same object, responses, and the buffers of R477. -/

namespace Sys2Proof.Machine

/-! ### Objects a command names (R472) -/

def objPool (p : Nat) : Nat × Nat := (0, p)
def objVol (v : Nat) : Nat × Nat := (1, v)
def objLink (p : Nat) : Nat × Nat := (2, p)
def objPartner (l : Nat) : Nat × Nat := (3, l)

/-- The mark of a command that can be cancelled, on its own mailbox alone (R485): no two mailboxes share it. -/
def objCancel (mb : Nat) : Nat × Nat := (4, mb)

/-- Another mailbox runs an earlier command on one of the objects. -/
def mbxBlocked (s : State) (mb : Nat) (objs : List (Nat × Nat)) (ticket : Nat) : Bool :=
  s.mbx.any (fun e => e.1 != mb && e.2.busy && decide (e.2.ticket < ticket) && e.2.objs.any (fun o => objs.contains o))

/-! ### Responses (R470, R473) -/

/-- The end of a mailbox's command: response, LAST_STATUS, BUSY clear, DONE set; nothing is written for a mailbox whose
function state was taken away (R473). -/
def mbxFinish (s : State) (mb : Nat) (st : Status) (detail : Nat) (data : List Byte) : State :=
  let m := getMbx s mb
  if m.orphan then setMbx s mb {}
  else
    setMbx s mb
      { m with
        busy := false, done := true, lastStatus := st, running := none, data := [], objs := []
        resp := { status := st, cmdId := m.cmdId, detail := BitVec.ofNat 32 detail, data := if st = 0 then data else [] } }

/-- Success with response data. -/
def mbxOk (s : State) (mb : Nat) (data : List Byte) : State := mbxFinish s mb 0 0 data

/-- The command runs on, waiting for `r`. -/
def mbxPark (s : State) (mb : Nat) (r : Running) (data : List Byte) : State :=
  modMbx s mb (fun m => { m with running := some r, data := data })

/-- A change of configuration: it completes with status 0 once it has been stored (R474). -/
def mbxStore (s : State) (mb : Nat) (data : List Byte) : State := mbxPark s mb (.config 0) data

/-! ### Checks (Table 11-6, R578) -/

/-- A check that fails: status and DETAIL. -/
structure Check where
  fails : Bool
  status : Status
  detail : Nat := 0

/-- The first failing check decides (R478). -/
def firstFailing : List Check → Option Check
  | [] => none
  | c :: rest => if c.fails then some c else firstFailing rest

/-- The lowest offset among the fields in error (R578). -/
def lowestField (l : List (Nat × Bool)) : Option Nat := (l.filter (·.2)).map (·.1) |>.min?

/-- A check of the parameter area: reserved bytes and values out of range, at the lowest offset (check 4, R578). -/
def fieldCheck (g : Go) (fields : List (Nat × Bool)) : Check :=
  let fields := match g.fieldReserved with
    | some o => (o, true) :: fields
    | none => fields
  match lowestField fields with
  | some o => { fails := true, status := 0x0002, detail := o }
  | none => { fails := false, status := 0x0002 }

/-- Check 4: header, PARAM_LEN, fields. -/
def formChecks (g : Go) (len : Nat) (fields : List (Nat × Bool)) : List Check :=
  [{ fails := g.hdrReserved.isSome, status := 0x0002, detail := 0x80000000 + g.hdrReserved.getD 0 },
   { fails := g.paramLen != len, status := 0x0002, detail := min g.paramLen len },
   fieldCheck g fields]

/-- Checks 1 and 3, and those every command shares. -/
def gateChecks (s : State) (g : Go) (vfMay refused : Bool) : List Check :=
  [{ fails := !fwUp s, status := 0x0103 },
   { fails := g.mb != 0 && !vfMay, status := 0x0101 },
   { fails := s.hk.closing, status := 0x0102 },
   { fails := refused, status := 0x0101 }]

/-- Check 5 for a named resource other than a volume. -/
def need (present : Bool) (off : Nat) : Check := { fails := !present, status := 0x0002, detail := off }

/-- Check 5 for a named volume. -/
def needVol (present : Bool) : Check := { fails := !present, status := 0x0003 }

/-- Check 6. -/
def needReplay (s : State) : Check := { fails := s.phase != .ready, status := 0x0102 }

def needStopped (stopped : Bool) : Check := { fails := !stopped, status := 0x0100 }
def needRunning (run : Bool) : Check := { fails := !run, status := 0x0006 }
def needFree (conflict : Bool) : Check := { fails := conflict, status := 0x0102 }
def refuse (b : Bool) (st : Status) : Check := { fails := b, status := st }

/-- The mailbox's registers can be reached: through the function it belongs to, or through PF0 while that VF does not exist
(Table 9-17, R51, R400). -/
def mbxReachable (s : State) (mb : Nat) : Bool := running s && decide (mb < 64) && canDma s (if fnExists s mb then mb else 0)

/-- The mailbox once GO has been taken: BUSY, DONE clear, the command's identifier and objects, its place in the order. -/
def mbxTake (s : State) (g : Go) (objs : List (Nat × Nat)) (r : Option Running) : State :=
  let m := getMbx s g.mb
  let ticket := if m.busy then m.ticket else s.nextId
  setMbx (if m.busy then s else bump s) g.mb
    { m with busy := true, done := false, cmdId := g.cmdId, running := r, objs := objs, ticket := ticket, orphan := false }

/-- GO on mailbox `g.mb` (R470, R472, R478). `vfMay` says that a VF may issue the command, `refused` that a role or security
rule refuses it; then come the layout's length, its fields in error, the object checks, and the effect. A GO while BUSY sets
OVERRUN, unless the mailbox's own command was waiting behind another. -/
def mbxRun (s : State) (g : Go) (vfMay refused : Bool) (len : Nat) (fields : List (Nat × Bool)) (checks : List Check)
    (objs : List (Nat × Nat)) (effect : State → State) : Result :=
  let m := getMbx s g.mb
  if !mbxReachable s g.mb then .next s
  else if m.busy && m.running != some .waiting then
    done (setMbx s g.mb { m with overrun := true })
  else
    let ticket := if m.busy then m.ticket else s.nextId
    let w := mbxTake s g objs (some .waiting)
    match firstFailing (gateChecks s g vfMay (refused && !mbxBlocked s g.mb objs ticket) ++ formChecks g len fields) with
    | some c => done (mbxFinish w g.mb c.status c.detail [])
    | none =>
      if mbxBlocked s g.mb objs ticket then done w
      else
        match firstFailing checks with
        | some c => done (mbxFinish w g.mb c.status c.detail [])
        | none => done (effect (mbxTake s g objs none))

/-- A volume that a mailbox's function may name (R396, R484): any for PF0, those in its ranges for a VF. -/
def fnMayVol (s : State) (fn vol : Nat) : Bool :=
  fn == 0 || (Tab.getD s.pcie.volRanges fn []).any (fun r => decide (r.1 ≤ vol) && decide (vol ≤ r.2))

/-- A pool, or a volume through its pool, whose number a partner has reserved (R381). -/
def poolReserved (s : State) (p : Nat) : Bool := (poolCfg s p).reserved.isSome
def volReserved (s : State) (v : Nat) : Bool := (volCfg? s v).isSome && poolReserved s (volCfg s v).pool

/-- A volume that exists for a function (R6, R396, R381). -/
def volExists (s : State) (fn vol : Nat) : Bool :=
  decide (vol < s.part.volumes) && (volCfg? s vol).isSome && fnMayVol s fn vol && !volReserved s vol

/-- Checks 5 and 6 for a volume named at `off`: beyond the part or the function's ranges, reserved, or not created (R6, R381). -/
def volObj (s : State) (fn vol off : Nat) : List Check :=
  [needVol (decide (vol < s.part.volumes) && fnMayVol s fn vol), { fails := volReserved s vol, status := 0x0002, detail := off },
   needVol ((volCfg? s vol).isSome), needReplay s]

/-- Checks 5 and 6 for a pool named at `off`. -/
def poolObj (s : State) (pool off : Nat) : List Check :=
  [need ((poolCfg? s pool).isSome && !poolReserved s pool) off, needReplay s]

/-! ### Buffers (R477) -/

/-- A BUF or LIST descriptor in error: not TYPE 0, or a reserved bit set. -/
def badBuf (b : SegDesc) : Bool := b.typ != 0 || !b.reservedZero

/-- Bulk data written to a buffer: what fits, its addresses translated as for a ring entry (R477). -/
def writeBuf (s : State) (fn : Nat) (b : SegDesc) (data : List Byte) : State :=
  let n := min data.length b.segLen.toNat
  if n = 0 then s else hostWrite s fn b.address.toNat n (Mem.ofList (data.take n)) none

/-- The same for sparse bytes of length `len`. -/
def writeBufMem (s : State) (fn : Nat) (b : SegDesc) (len : Nat) (data : Mem) : State :=
  let n := min len b.segLen.toNat
  if n = 0 then s else hostWrite s fn b.address.toNat n (Mem.slice data 0 n) none

/-- BYTES of a response: the full length. -/
def bytesField (data : List Byte) : List Byte := leBytes 4 data.length

/-- Counts as 8-byte little-endian words: how the model lays out a buffer whose layout the spec does not give. -/
def countBytes (l : List Nat) : List Byte := l.flatMap (leBytes 8)

end Sys2Proof.Machine
end

