-- ==== Sys2Proof/Machine/Wire.lean ====
section
/-! DEFINITION. The bytes of headers and frames on the wire (R8): big-endian fields, the SBT header of Table 7-1, the partner frame header
of Table 8-4, and the Moonstone frame of Table 2-3 with its CRC. -/

namespace Sys2Proof

/-! ### Big-endian fields (R8) -/

/-- `n` bytes of a number, most significant byte first. -/
def beBytes (n v : Nat) : List Byte := (leBytes n v).reverse

/-- The number a big-endian byte string spells. -/
def beNat (l : List Byte) : Nat := leNat l.reverse

/-- `n` bytes of a list from offset `a`, as a big-endian number. -/
def beField (l : List Byte) (a n : Nat) : Nat := beNat ((l.drop a).take n)

/-- The big-endian field of `n` bytes at offset `a` replaced. -/
def putBe (l : List Byte) (a n v : Nat) : List Byte := l.take a ++ beBytes n v ++ l.drop (a + n)

/-! ### SBT headers (Table 7-1) -/

def SbtHdr.version (h : SbtHdr) : Nat := beField h.bytes 0 1 / 16
def SbtHdr.type (h : SbtHdr) : Nat := beField h.bytes 1 1
def SbtHdr.ackValid (h : SbtHdr) : Bool := bit (beField h.bytes 2 1) 0
def SbtHdr.ece (h : SbtHdr) : Bool := bit (beField h.bytes 2 1) 1
def SbtHdr.connId (h : SbtHdr) : W32 := BitVec.ofNat 32 (beField h.bytes 4 4)
def SbtHdr.seq (h : SbtHdr) : W32 := BitVec.ofNat 32 (beField h.bytes 8 4)
def SbtHdr.ack (h : SbtHdr) : W32 := BitVec.ofNat 32 (beField h.bytes 12 4)
def SbtHdr.sack (h : SbtHdr) : BitVec 64 := BitVec.ofNat 64 (beField h.bytes 16 8)
def SbtHdr.length (h : SbtHdr) : Nat := beField h.bytes 24 2
def SbtHdr.tsval (h : SbtHdr) : BitVec 16 := BitVec.ofNat 16 (beField h.bytes 28 2)
def SbtHdr.tsecr (h : SbtHdr) : BitVec 16 := BitVec.ofNat 16 (beField h.bytes 30 2)

/-- The 32 header bytes of a packet, VERSION 1, reserved bytes zero. -/
def sbtHeader (type : Nat) (ackValid ece retx : Bool) (connId seq ack : W32) (sack : BitVec 64) (length : Nat) (tsval tsecr : BitVec 16) :
    List Byte :=
  [0x10] ++ beBytes 1 type ++ beBytes 1 (flag 0 ackValid + flag 1 ece + flag 2 retx) ++ [0] ++ beBytes 4 connId.toNat ++ beBytes 4 seq.toNat ++
    beBytes 4 ack.toNat ++ beBytes 8 sack.toNat ++ beBytes 2 length ++ [0, 0] ++ beBytes 2 tsval.toNat ++ beBytes 2 tsecr.toNat

/-! ### Partner frame headers (Table 8-4) -/

def PartnerHdr.type (h : PartnerHdr) : Nat := beField h.bytes 1 1
def PartnerHdr.lseq (h : PartnerHdr) : W32 := BitVec.ofNat 32 (beField h.bytes 4 4)
def PartnerHdr.lack (h : PartnerHdr) : W32 := BitVec.ofNat 32 (beField h.bytes 8 4)
def PartnerHdr.sender (h : PartnerHdr) : BitVec 64 := BitVec.ofNat 64 (beField h.bytes 12 8)

/-- The CRC32C over header and body agrees (R379). -/
def PartnerHdr.crcGood (h : PartnerHdr) (body : List Byte) : Bool := crc32c (h.bytes ++ body) == h.crc

/-- The 32 header bytes of a partner frame, VERSION 1, reserved bytes zero. -/
def partnerHeader (type length : Nat) (lseq lack : W32) (sender : BitVec 64) (link : Nat) (epoch : BitVec 48) : List Byte :=
  [0x10] ++ beBytes 1 type ++ beBytes 2 length ++ beBytes 4 lseq.toNat ++ beBytes 4 lack.toNat ++ beBytes 8 sender.toNat ++
    beBytes 1 (link % 8) ++ [0, 0, 0] ++ beBytes 6 epoch.toNat ++ [0, 0]

/-! ### Frames on an Ethernet link (R361, R364) -/

/-- The VLAN tag of a frame that a link sends: PCP and VID; untagged with VLAN 0. -/
def linkTag (p : PortParams) : Option (Nat × Nat) := if p.vlan = 0 then none else some (p.pcp, p.vlan)

/-- Why a link discards a frame: 0 a service tag, 1 another VLAN, 2 longer than the MTU plus 22 B, 3 a fragment, options or extension
headers. With VLAN 0 the link takes untagged and priority-tagged frames. -/
def badCarriage (p : PortParams) (c : Carriage) : Option Nat :=
  if c.stag then some 0
  else if !(if p.vlan = 0 then c.vid.getD 0 == 0 else c.vid == some p.vlan) then some 1
  else if p.mtu + 22 < c.length then some 2
  else if c.fragment || c.options then some 3
  else none

/-! ### Moonstone frames (R73, R74, R76) -/

/-- The big-endian field of `n` bytes at frame offset `o` (byte 0 is the sync character, which `body` leaves out). -/
def frameField (f : MoonFrame) (o n : Nat) : Nat := beField f.body (o - 1) n

/-- EPOCH. -/
def frameNumber (f : MoonFrame) : BitVec 48 := BitVec.ofNat 48 (frameField f 2 6)

/-- ORIGIN: bits 15:6 of bytes 8-9. -/
def frameOrigin (f : MoonFrame) : BitVec 10 := BitVec.ofNat 10 (frameField f 8 2 / 64)

/-- OVF: bit 15 of bytes 10-11. -/
def frameOvf (f : MoonFrame) : Bool := bit (frameField f 10 2) 15

/-- COUNT: bits 9:0 of bytes 10-11. -/
def frameCount (f : MoonFrame) : BitVec 10 := BitVec.ofNat 10 (frameField f 10 2)

/-- COMMAND: 1 EDGE, 2 SEAL, 3 HOLDOVER, 4 TRAIN. -/
def frameCommand (f : MoonFrame) : Nat := frameField f 12 1

def kEdge : Nat := 1
def kSeal : Nat := 2
def kHoldover : Nat := 3
def kTrain : Nat := 4

/-- PERIOD of an EDGE frame: the code of the epoch that begins at its edge (3 bits of byte 14, Table 2-1). -/
def framePeriod (f : MoonFrame) : Nat := frameField f 14 1

/-- PHASE of a SEAL or TRAIN frame, REASON of a HOLDOVER frame (Table 2-4). -/
def framePhase (f : MoonFrame) : Nat := frameField f 14 1

/-- The arguments of a SEAL frame (Table 2-4). -/
def frameSeal (f : MoonFrame) : SealArgs :=
  { sealEpoch := BitVec.ofNat 48 (frameField f 16 6), accepted := BitVec.ofNat 16 (frameField f 22 2),
    finished := BitVec.ofNat 16 (frameField f 24 2), withdrawn := BitVec.ofNat 16 (frameField f 26 2) }

/-- LOOP_NS and N of a TRAIN RESULT frame (Table 2-4). -/
def frameLoop (f : MoonFrame) : Nat := frameField f 16 4
def frameDevices (f : MoonFrame) : Nat := frameField f 20 2

/-- The CRC over bytes 1-29 agrees with bytes 30-31 (R73, R74). -/
def frameCrcGood (f : MoonFrame) : Bool := f.body.length == 31 && crc16 (f.body.take 29) == BitVec.ofNat 16 (frameField f 30 2)

/-- A frame a device acts on (R76): good CRC, TYPE as SYNC wants it, COMMAND not reserved and of the kind SYNC announces. -/
def frameValid (f : MoonFrame) : Bool :=
  frameCrcGood f && frameField f 1 1 == (if f.timed then 0x10 else 0x11) &&
    (if f.timed then frameCommand f == kEdge else decide (2 ≤ frameCommand f) && decide (frameCommand f ≤ 4))

/-- A valid frame of a command, and for SEAL and TRAIN of a phase. -/
def frameIs (f : MoonFrame) (command : Nat) (phase : Option Nat) : Bool :=
  frameValid f && frameCommand f == command && (match phase with | some p => framePhase f == p | none => true)

/-- The 31 data characters of a frame: TYPE, the fields of Table 2-3, 16 argument bytes and the CRC. -/
def frameBody (timed : Bool) (epoch : BitVec 48) (origin : BitVec 10) (ovf : Bool) (count : BitVec 10) (command : Nat)
    (args : List Byte) : List Byte :=
  let b := [if timed then 0x10 else 0x11] ++ beBytes 6 epoch.toNat ++ beBytes 2 (field 6 origin.toNat) ++
    beBytes 2 (flag 15 ovf + count.toNat) ++ [BitVec.ofNat 8 command, 0] ++ (args ++ List.replicate 16 0).take 16
  b ++ beBytes 2 (crc16 b).toNat

/-- COUNT and OVF as a retiming device forwards them (Table 2-3, R75). -/
def hop (f : MoonFrame) : BitVec 10 × Bool :=
  if frameCount f = 1023 then (1023, true) else (frameCount f + 1, frameOvf f)

/-- A frame as forwarded (R75): COUNT, OVF and the fields of `edits` (offset, bytes, value) changed, and the CRC adjusted for those
changes alone, so that a frame whose CRC fails still fails it. -/
def hopBody (f : MoonFrame) (edits : List (Nat × Nat × Nat)) : List Byte :=
  let old := f.body.take 29
  let reserved := frameField f 10 2 / 1024 % 32
  let new := edits.foldl (fun b e => putBe b (e.1 - 1) e.2.1 e.2.2)
    (putBe old 9 2 (flag 15 (hop f).2 + field 10 reserved + (hop f).1.toNat))
  new ++ beBytes 2 (BitVec.ofNat 16 (frameField f 30 2) ^^^ crc16 old ^^^ crc16 new).toNat

/-- Argument bytes of the commands (Table 2-4). -/
def edgeArgs (period : Nat) : List Byte := beBytes 1 period
def holdoverArgs (reason : Nat) : List Byte := beBytes 1 reason
def sealArgs (phase : Nat) (a : SealArgs) : List Byte :=
  beBytes 1 phase ++ [0] ++ beBytes 6 a.sealEpoch.toNat ++ beBytes 2 a.accepted.toNat ++ beBytes 2 a.finished.toNat ++
    beBytes 2 a.withdrawn.toNat
def trainArgs (phase loopNs n : Nat) : List Byte := beBytes 1 phase ++ [0] ++ beBytes 4 loopNs ++ beBytes 2 n

end Sys2Proof
end

