-- ==== Sys2Proof/Machine/Amber.lean ====
section
/-! DEFINITION. The Amber record rings (chapter 04): record images, occupancy and space, appending, committing, retiring,
relocation copies, and the frames that carry records to a partner. -/

namespace Sys2Proof.Machine

/-! ### Record images (R172-R174, Tables 4-4 to 4-6) -/

/-- TYPE (Table 4-5). -/
def recType : RecKind → Nat
  | .intent => 1
  | .data => 2
  | .retire => 3
  | .sealRec => 4
  | .mirrorMove => 5

/-- FLAGS (Table 4-6). -/
def recFlags (r : Rec) : Nat :=
  flag 0 r.fullrow + flag 1 r.spilled + flag 2 r.zero + flag 3 r.recon + flag 4 r.relocated + flag 5 r.partner + flag 6 r.uc

/-- LENGTH in 64-byte units. -/
def recUnits (r : Rec) : Nat := 1 + 64 * r.payloadBlocks

/-- Bytes of a record in the ring. -/
def recBytes (r : Rec) : Nat := 64 * recUnits r

/-- Header bytes 0-59. -/
def recHead (r : Rec) : List Byte :=
  leBytes 1 0xA3 ++ leBytes 1 (recType r.kind) ++ leBytes 2 (recUnits r) ++ leBytes 6 r.epoch.toNat ++ leBytes 2 r.vol ++
    leBytes 5 r.row ++ leBytes 1 (recFlags r) ++ leBytes 2 r.generation ++ leBytes 4 r.slotMask.toNat ++
    leBytes 16 r.blockMask.toNat ++ leBytes 8 r.seq ++ leBytes 8 r.ref ++ leBytes 4 r.aux.toNat

/-- The header of a record with its CRC over header and payload (R173). -/
def recHeader (r : Rec) : List Byte :=
  recHead r ++ leBytes 4 (crc32c (recHead r ++ Mem.bytes r.payload 0 (4096 * r.payloadBlocks))).toNat

/-- A header read back from bytes; the payload is laid beside it. -/
def recOfBytes (b : List Byte) (payload : Mem) : Rec :=
  let f := leField b 17 1
  { kind := (match leField b 1 1 with | 1 => .intent | 2 => .data | 3 => .retire | 4 => .sealRec | _ => .mirrorMove)
    epoch := BitVec.ofNat 48 (leField b 4 6), vol := leField b 10 2, row := leField b 12 5, fullrow := bit f 0, spilled := bit f 1
    zero := bit f 2, recon := bit f 3, relocated := bit f 4, partner := bit f 5, uc := bit f 6, generation := leField b 18 2
    slotMask := BitVec.ofNat 32 (leField b 20 4), blockMask := BitVec.ofNat 128 (leField b 24 16), seq := leField b 40 8
    ref := leField b 48 8, aux := BitVec.ofNat 32 (leField b 56 4), payloadBlocks := leField b 2 2 / 64, payload := payload }

/-! ### Rings (R166-R171) -/

/-- 30 MiB. -/
def ringBytes : Nat := 30 * 2 ^ 20
def mib : Nat := 2 ^ 20

def sumBytes (l : List RingRec) : Nat := (l.map (fun r => recBytes r.r)).foldl (· + ·) 0

/-- The records from the head (the first not retired) to the tail. -/
def Amber.live (a : Amber) : List RingRec := a.recs.dropWhile (·.retired)

/-- Bytes from head to tail (R156). -/
def Amber.used (a : Amber) : Nat := sumBytes a.live

/-- Bytes from the tail up to the head of the newest head slot (R171). -/
def Amber.space (a : Amber) : Nat := ringBytes - sumBytes a.recs

/-- Occupancy above 75 % (Table 4-1, R170). -/
def Amber.high (a : Amber) : Bool := decide (3 * ringBytes < 4 * a.used)

/-- Whether a record other than a RETIRE or a relocation copy fits (R171). -/
def Amber.fits (a : Amber) (bytes : Nat) : Bool := decide (bytes + 3 * mib ≤ a.space)

/-- Unretired INTENTs, PARTNER ones included (R163). -/
def Amber.intents (a : Amber) : List RingRec := a.recs.filter (fun r => r.r.kind == .intent && !r.retired)

/-- Unretired INTENTs of a row in this ring. -/
def Amber.rowIntents (a : Amber) (vol row : Nat) : List RingRec :=
  a.intents.filter (fun r => r.r.vol == vol && r.r.row == row && !r.r.partner)

/-- GENERATION `a` comes before `b`: compared modulo 2^16 (R175). -/
def genBefore (a b : Nat) : Bool := a % 65536 != b % 65536 && decide ((b + 65536 - a % 65536) % 65536 < 32768)

/-- An element put in its place in a list in generation order. -/
def insGen {α : Type} (gen : α → Nat) (x : α) : List α → List α
  | [] => [x]
  | y :: l => if genBefore (gen y) (gen x) then y :: insGen gen x l else x :: y :: l

/-- A list in generation order (R175, R196). -/
def genSort {α : Type} (gen : α → Nat) (l : List α) : List α := l.foldr (insGen gen) []

/-- The bytes of a head slot before its CRC (R169; the layout is log entry 109). -/
def slotBody (count : BitVec 32) (seq off : Nat) : List Byte := leBytes 8 seq ++ leBytes 4 off ++ leBytes 4 count.toNat ++ leBytes 44 0

/-- A head slot as it is written, with its CRC32C. -/
def headSlot (count : BitVec 32) (seq off : Nat) : HeadSlot :=
  { count := count, seq := seq, off := off, crc := crc32c (slotBody count seq off) }

def slotGood (h : HeadSlot) : Bool := h.crc == crc32c (slotBody h.count h.seq h.off)

/-- The next head slot in rotation (R169). -/
def Amber.writeHead (a : Amber) (seq off : Nat) : Amber :=
  let h := headSlot (a.head.count + 1) seq off
  { a with head := h, slots := Tab.set a.slots (h.count.toNat % 1024) h }

/-- The good head slot of highest count, counts compared modulo 2^32 (R196; log entry 109). -/
def newestSlot (l : List HeadSlot) : Option HeadSlot :=
  (l.filter slotGood).foldl (fun best h =>
    match best with
    | none => some h
    | some b => if (h.count - b.count).toNat < 2 ^ 31 then some h else some b) none

/-- A record that the head passes: retired, and no longer awaiting its partner's confirmation (R169, R181). -/
def RingRec.passed (r : RingRec) : Bool := r.retired && !r.partnerWait

/-- R169: once the head has advanced 1 MiB past the newest head slot, the next slot is written and the space before it freed. -/
def Amber.advance (a : Amber) : Amber :=
  if mib ≤ sumBytes (a.recs.takeWhile RingRec.passed) then
    let a := { a with recs := a.recs.dropWhile RingRec.passed }
    match a.recs with
    | r :: _ => a.writeHead r.r.seq r.off
    | [] => a.writeHead a.nextSeq a.tail
  else a

/-- A record at the tail (R168). -/
def Amber.append (a : Amber) (r : RingRec) : Amber :=
  { a with
    recs := a.recs ++ [{ r with r := { r.r with seq := a.nextSeq }, off := a.tail }]
    nextSeq := a.nextSeq + 1
    tail := (a.tail + recBytes r.r) % ringBytes }

/-- A record of a ring changed, by SEQUENCE. -/
def Amber.adjust (a : Amber) (seq : Nat) (f : RingRec → RingRec) : Amber :=
  { a with recs := a.recs.map (fun r => if r.r.seq = seq then f r else r) }

def Amber.find? (a : Amber) (seq : Nat) : Option RingRec := a.recs.find? (fun r => r.r.seq == seq)

/-- The RETIRE of an INTENT (Table 4-5). -/
def retireOf (i : Rec) (epoch : BitVec 48) : Rec :=
  { kind := .retire, epoch := epoch, vol := i.vol, row := i.row, generation := i.generation, blockMask := i.blockMask,
    partner := i.partner, seq := 0, ref := i.seq }

/-- The RETIRE record `x` appended: the INTENT it names and that INTENT's DATA are retired, the head advances (R169, R188). -/
def Amber.retire (a : Amber) (x : RingRec) : Amber :=
  let mark (r : RingRec) : RingRec :=
    if r.r.seq = x.r.ref ∨ (r.r.kind = .data ∧ r.r.ref = x.r.ref) then { r with retired := true } else r
  (({ a with recs := a.recs.map mark } : Amber).append x).advance

/-! ### Partner frames (R380, R382) -/

/-- The port of a partner link can carry frames: configured, up, and not stopped by containment (R355, Table 12-2). -/
def partnerWired (s : State) (link : Nat) : Bool :=
  match Tab.get? s.cfg.partners link with
  | some c => (getLink s c.port).up && !(getPartner s link).stopped && ((Tab.get? s.cfg.links c.port).any (fun l => l.p.role == 3))
  | none => false

/-- A record's image: header and payload, little-endian inside the frame (R379). -/
def recImage (r : Rec) : List Byte := recHeader r ++ Mem.bytes r.payload 0 (4096 * r.payloadBlocks)

/-- A Region Attribute Table entry (Table 6-7). -/
def ratBytes (e : RatEntry) : List Byte :=
  leBytes 5 e.firstRow ++ leBytes 5 e.rows ++ leBytes 1 (e.policy + flag 7 e.valid) ++ leBytes 5 0

/-- MEMBER_DEFINE's parameters (Table 11-8). -/
def memberDefBytes (m : MemberParams) : List Byte :=
  leBytes 2 m.member ++ leBytes 1 m.group ++ leBytes 1 m.family ++ leBytes 2 m.tcpPort ++ leBytes 2 0 ++ leBytes 4 m.nsid.toNat ++
    leBytes 1 m.nqn.length ++ leBytes 3 0 ++ leBytes 16 m.addr.toNat ++ (m.nqn ++ List.replicate 223 0).take 223

/-- A pool's description as a POOL_OFFER carries it (R381), in the mailbox layouts of the commands that set it, one after another: pool
creation (Table 11-10), each member's MEMBER_DEFINE, each volume's VOLUME_CREATE with its extent list in place of LIST, its CACHE_RAT_SET,
and its wrapped key. The order and what stands for LIST are the model's (log entry 125). -/
def descBytes (pool : Nat) (d : PoolDesc) : List Byte :=
  leBytes 2 pool ++ leBytes 1 d.k ++ leBytes 1 d.s ++ leBytes 2 d.n ++ leBytes 2 d.seed.toNat ++ leBytes 1 3 ++ leBytes 1 0 ++
    leBytes 2 d.mirror0 ++ leBytes 2 d.mirror1 ++ leBytes 2 0 ++ d.members.flatMap (fun m => leBytes 2 m.member) ++
    d.members.flatMap memberDefBytes ++
    d.vols.flatMap (fun v =>
      leBytes 2 v.1 ++ leBytes 2 pool ++ leBytes 1 0xFF ++ leBytes 1 v.2.2.1.toNat ++ leBytes 1 v.2.2.2.1 ++ leBytes 1 0 ++
        leBytes 4 v.2.1.length ++ v.2.1.flatMap (leBytes 4) ++ leBytes 2 v.1 ++ leBytes 1 v.2.2.2.1 ++ leBytes 1 v.2.2.2.2.length ++
        v.2.2.2.2.flatMap ratBytes) ++
    d.keys.flatMap (fun k => leBytes 2 k.1 ++ k.2)

/-- TYPE and body of a sequenced frame (Table 8-5). -/
def partnerBytes (b : PartnerBody) : Nat × List Byte :=
  match b with
  | .offer pool d => (0x10, beBytes 2 pool ++ [0, 0] ++ descBytes pool d)
  | .reply pool result => (0x11, beBytes 2 pool ++ beBytes 1 result)
  | .withdraw pool => (0x12, beBytes 2 pool)
  | .record seq origin frag last r =>
    (0x20, beBytes 8 seq ++ beBytes 4 frag ++ beBytes 1 (origin % 8 + flag 7 last) ++ [0, 0, 0] ++ ((recImage r).drop frag).take 16384)
  | .confirm seq origin result => (0x21, beBytes 8 seq ++ beBytes 1 (origin % 8) ++ beBytes 1 result ++ List.replicate 6 0)
  | .release pool => (0x30, beBytes 2 pool)
  | .releaseAck pool result => (0x31, beBytes 2 pool ++ beBytes 1 result)

/-- A partner frame as it is sent (R379): header, body and the CRC32C over both. -/
def partnerFrame (s : State) (link type : Nat) (lseq lack : W32) (body : List Byte) : Output :=
  let hdr := partnerHeader type body.length lseq lack Config.identity link s.moon.epoch
  .partner link hdr body (crc32c (hdr ++ body))

/-- HELLO and NACK, which have no body and no LSEQ (Table 8-5). -/
def partnerPlain (s : State) (link type : Nat) : Output := partnerFrame s link type 0 (getPartner s link).expect []

/-- A sequenced frame: its header's LACK is the next LSEQ expected. -/
def partnerOut (s : State) (link : Nat) (f : W32 × PartnerBody) : Output :=
  partnerFrame s link (partnerBytes f.2).1 f.1 (getPartner s link).expect (partnerBytes f.2).2

/-- A sequenced frame sent to a partner: kept until acknowledged; 512 unacknowledged frames at most are on the way (R380). -/
def partnerSend (s : State) (link : Nat) (b : PartnerBody) : State :=
  let p := getPartner s link
  let s := if partnerWired s link && decide (p.unacked.length < 512) then emit s (partnerOut s link (p.lseq, b)) else s
  setPartner s link { p with lseq := p.lseq + 1, unacked := p.unacked ++ [(p.lseq, b)] }

/-- A record sent: one RECORD frame for each 16,384 B of its image (Table 8-5, R382). -/
def sendRecord (s : State) (link tile : Nat) (r : Rec) : State :=
  let n := (recBytes r + 16383) / 16384
  (List.range n).foldl (fun s i => partnerSend s link (.record r.seq tile (16384 * i) (i + 1 == n) r)) s

/-- The link of a pool's partner mirroring: set and not suspended (R181, R182). -/
def mirrorLink (s : State) (pool : Nat) : Option Nat :=
  match (poolCfg s pool).partner with
  | some l => if (getPool s pool).suspended then none else some l
  | none => none

/-! ### The rings a tile serves (R40, R163, R167, R175) -/

/-- The ring of a tile is served: by the tile, or by the buddy that has adopted it (R167). -/
def ringServed (s : State) (tile : Nat) : Bool := tileUp s tile || ((getTile s tile).amber.adopted && tileUp s (buddy tile))

/-- The rings a tile serves: its own, and its lost buddy's once adopted. -/
def ringsOf (s : State) (t : Nat) : List Nat := t :: (if !tileUp s (buddy t) && (getTile s (buddy t)).amber.adopted then [buddy t] else [])

/-- The unretired INTENTs of a row in the rings its tile serves, each with its ring, in generation order. -/
def rowIntents (s : State) (t vol row : Nat) : List (Nat × RingRec) :=
  genSort (fun e => e.2.r.generation) ((ringsOf s t).flatMap (fun u => ((getTile s u).amber.rowIntents vol row).map (fun r => (u, r))))

/-- The row has fewer than 64 unretired INTENTs, the tile fewer than 16,384 (R163). -/
def rowHasRoom (s : State) (t vol row : Nat) : Bool := decide ((rowIntents s t vol row).length < 64)
def Amber.hasRoom (a : Amber) : Bool := decide (a.intents.length < 16384)

/-- GENERATION of the row's next INTENT (R175). -/
def nextGen (s : State) (t vol row : Nat) : Nat :=
  match (rowIntents s t vol row).getLast? with
  | some e => (e.2.r.generation + 1) % 65536
  | none => 0

/-- A record written in full to the copies its ring has (R167): the tile's own half unless the tile is lost, its mirror unless the
buddy is. -/
def written (s : State) (t : Nat) (r : RingRec) : RingRec :=
  { r with own := r.own || tileUp s t, mirror := r.mirror || tileUp s (buddy t) }

/-- The buddy's SRAM index of a tile's mirrored, unretired records brought up to date (R38). -/
def reindex (s : State) (t : Nat) : State :=
  if unpaired s t then s
  else modAmber s (buddy t) (fun a =>
    { a with mirrorIndex := ((getTile s t).amber.recs.filter (fun r => r.mirror && !r.retired)).map (fun r => r.r.seq) })

/-! ### Appending to a tile's own ring -/

/-- The pool to which a record belongs. -/
def recPool (s : State) (r : Rec) : Nat := if r.kind = .mirrorMove then r.ref else (volCfg s r.vol).pool

/-- The partner link a record is sent over: SEAL records belong to no pool (R181). -/
def recLink (s : State) (r : Rec) : Option Nat := if r.partner ∨ r.kind = .sealRec then none else mirrorLink s (recPool s r)

/-- A record of SEQUENCE `seq` sent over a link, its confirmation awaited (R181). -/
def sendAwaited (s : State) (l t seq : Nat) (r : Rec) : State :=
  sendRecord (modPartner s l (fun p => { p with awaiting := p.awaiting ++ [(t, seq)] })) l t { r with seq := seq }

/-- A record of a volume appended to tile `t`'s own ring and, in a mirrored pool, sent to the partner (R164, R181) with the
payload `wire`, ciphertext where the volume is encrypted. `trim` marks the INTENT of a DEALLOCATE. Its commit is
RECORD_COMMIT. -/
def appendRec (s : State) (t : Nat) (r : Rec) (wire : Mem) (trim : Bool) : State :=
  let seq := (getTile s t).amber.nextSeq
  let link := recLink s r
  let s := modAmber s t (fun a => a.append { r := r, off := 0, partnerWait := link.isSome, trim := trim })
  match link with
  | none => s
  | some l => sendAwaited s l t seq { r with payload := wire }

/-- A DATA record begun (R164): its SEQUENCE and its space are taken, its payload lies in both halves as far as it has arrived, and its
header is not written yet. -/
def openRec (s : State) (t : Nat) (r : Rec) : State := modAmber s t (fun a => a.append { r := r, off := 0, open_ := true })

/-- More of the payload of a DATA record that is still open. -/
def fillRec (s : State) (t seq : Nat) (payload : Mem) : State :=
  modAmber s t (fun a => a.adjust seq (fun x => if x.open_ then { x with r := { x.r with payload := payload } } else x))

/-- The header of an open DATA record written last (R164): the record is whole, and goes to the partner. -/
def closeRec (s : State) (t seq : Nat) (r : Rec) (wire : Mem) : State :=
  let link := recLink s r
  let s := modAmber s t (fun a => a.adjust seq (fun x => { x with r := { r with seq := seq }, open_ := false, partnerWait := link.isSome }))
  match link with
  | none => s
  | some l => sendAwaited s l t seq { r with payload := wire }

/-- A SEAL or MIRROR_MOVE record written: the pool journal state holds its content at once, so it is retired at once (R169). -/
def pushCtl (s : State) (t : Nat) (r : Rec) : State :=
  let seq := (getTile s t).amber.nextSeq
  let link := recLink s r
  let s := modAmber s t (fun a => (a.append
    (written s t { r := r, off := 0, partnerWait := link.isSome, committed := link.isNone, retired := true })).advance)
  match link with
  | none => s
  | some l => sendAwaited s l t seq r

/-- A SEAL or MIRROR_MOVE record, written at once or when retirement has freed the space for it (R171). -/
def appendCtl (s : State) (t : Nat) (kind : RecKind) (epoch : BitVec 48) (ref : Nat) (aux : BitVec 32) : State :=
  let r : Rec := { kind := kind, epoch := epoch, vol := 0, row := 0, seq := 0, ref := ref, aux := aux }
  let a := (getTile s t).amber
  if a.waitCtl.isEmpty && a.fits 64 then pushCtl s t r else modAmber s t (fun a => { a with waitCtl := a.waitCtl ++ [r] })

/-- A MIRROR_MOVE of the pool waits for room on the tile. -/
def moveWaits (s : State) (t pool : Nat) : Bool := (getTile s t).amber.waitCtl.any (fun r => r.kind == .mirrorMove && r.ref == pool)

/-- A whole new mirror set is usable once every tile has committed its MIRROR_MOVE records (R193). -/
def newSetReady (s : State) (t : Nat) : State :=
  { s with pools := s.pools.map (fun (e : Nat × Pool) =>
    if e.2.mirrorLost.length = 2 ∧ e.2.recopying.contains t ∧ !moveWaits s t e.1 then
      let left := e.2.recopying.filter (· != t)
      (e.1, { e.2 with recopying := left, mirrorUsable := left.isEmpty, mirrorLost := if left.isEmpty then [] else e.2.mirrorLost })
    else e) }

/-- Control records that waited, written as far as the space freed allows. -/
def drainCtl (s : State) (t : Nat) : State :=
  if (getTile s t).amber.waitCtl.isEmpty then s
  else newSetReady ((getTile s t).amber.waitCtl.foldl (fun s r =>
    if (getTile s t).amber.fits 64 then pushCtl (modAmber s t (fun a => { a with waitCtl := a.waitCtl.drop 1 })) t r else s) s) t

/-- Every copy of a record is written and the buddy has confirmed; with the partner's confirmation given or waived the record is
committed (R167, R181). The buddy's index names it (R38). -/
def commitRec (s : State) (t seq : Nat) : State :=
  reindex (modAmber s t (fun a => a.adjust seq (fun r => { written s t r with committed := !r.partnerWait }))) t

/-- The partner's confirmation given or waived (R181, R182). -/
def partnerGiven (s : State) (t seq : Nat) : State :=
  modAmber s t (fun a => a.adjust seq (fun r => { r with partnerWait := false, committed := !r.open_ && (r.own || r.mirror) }))

/-- A RETIRE on tile `t`'s ring (R188): committed at once in MRAM, and in a mirrored pool with the partner's confirmation (R181). -/
def retireRec (s : State) (t seq : Nat) : State :=
  match (getTile s t).amber.find? seq with
  | none => s
  | some i =>
    if i.retired then s
    else
      let n := (getTile s t).amber.nextSeq
      let r := retireOf i.r s.moon.epoch
      let link := recLink s r
      let x := written s t { r := r, off := 0, partnerWait := link.isSome, committed := link.isNone, retired := true }
      let s := drainCtl (reindex (modAmber s t (fun a => a.retire x)) t) t
      match link with
      | none => s
      | some l => sendAwaited s l t n r

/-- Whether the record of SEQUENCE `seq` is committed (or already retired and gone from the ring). -/
def isCommitted (s : State) (t seq : Nat) : Bool :=
  match (getTile s t).amber.find? seq with
  | some r => r.committed || r.retired
  | none => true

/-- A tile that cannot commit to its own half (R194). -/
def mramFailed (s : State) (t : Nat) : Bool := (getTile s t).amber.failed

/-! ### Spill segments (R178-R180) -/

/-- The journal extent area: 64 GiB (R122, R178), in 4 KiB units. -/
def journalUnits : Nat := 64 * 2 ^ 18

/-- Segment of a tile: size in 4 KiB units. -/
def segUnits (s : State) (pool : Nat) : Nat :=
  let z := (getPool s pool).segSize / 4096
  if z = 0 then journalUnits / s.part.tiles else z

/-- Whether `n` units from `off` are free of live reservations, and of space freed in `epoch` or later (R180). -/
def segFree (g : SpillSeg) (off n : Nat) (epoch : BitVec 48) : Bool :=
  g.used.all (fun u => decide (off + n ≤ u.1) || decide (u.1 + u.2 ≤ off)) &&
    g.freed.all (fun u => decide (off + n ≤ u.1) || decide (u.1 + u.2.1 ≤ off) || decide (u.2.2 < epoch))

/-- A place for `n` units in the segment of `size` units, written circularly (R178): at the tail, and at the segment's start when a copy
would run past its end. A copy never lies across the end (log entry 110). -/
def segPlace (g : SpillSeg) (size n : Nat) (epoch : BitVec 48) : Option Nat :=
  let o := if g.tail + n ≤ size then g.tail else 0
  if n ≤ size ∧ segFree g o n epoch then some o else none

/-- The segment's head: its oldest reservation, or the tail when it holds none (R178). -/
def SpillSeg.headed (g : SpillSeg) : SpillSeg := { g with head := match g.used with
  | u :: _ => u.1
  | [] => g.tail }

/-- The mirror set is usable (Table 4-1, R190, R191): no member of it is failed and no re-copy runs. -/
def mirrorSetUsable (s : State) (pool : Nat) : Bool := (getPool s pool).mirrorUsable

/-- The journal mirror members of a pool, as device member numbers. -/
def mirrorMembers (s : State) (pool : Nat) : List Nat :=
  let c := poolCfg s pool
  [memberAt c c.mirror0, memberAt c c.mirror1]

/-- A reservation of `n` units for tile `t` (R180): the REF offset and the state. -/
def reserveSpill (s : State) (pool t n : Nat) (epoch : BitVec 48) : Option (Nat × State) :=
  let g := Tab.getD (getPool s pool).segs t {}
  let size := segUnits s pool
  if mirrorSetUsable s pool && !(getPool s pool).segPending then
    match segPlace g size n epoch with
    | some o =>
      let g : SpillSeg := { g with tail := o + n, used := g.used ++ [(o, n)], freed := g.freed.filter (fun u => decide (o + n ≤ u.1) || decide (u.1 + u.2.1 ≤ o)) }
      some (t * size + o, modPool s pool (fun p => { p with segs := Tab.set p.segs t g.headed }))
    | none => none
  else none

/-- The space of a retired INTENT's reservation is freed in this epoch (R180). -/
def freeSpill (s : State) (pool ref : Nat) : State :=
  let size := segUnits s pool
  let t := ref / size
  let o := ref % size
  let g := Tab.getD (getPool s pool).segs t {}
  let mine := g.used.filter (fun u => u.1 == o)
  let g : SpillSeg := { g with used := g.used.filter (fun u => u.1 != o), freed := g.freed ++ mine.map (fun u => (u.1, u.2, s.moon.epoch)) }
  modPool s pool (fun p => { p with segs := Tab.set p.segs t g.headed })

/-- A RETIRE with the freeing of the record's spill space (R188). -/
def retireIntent (s : State) (t seq : Nat) : State :=
  match (getTile s t).amber.find? seq with
  | none => s
  | some i =>
    let s := retireRec s t seq
    if i.r.spilled && !i.retired then freeSpill s (volCfg s i.r.vol).pool i.r.ref else s

end Sys2Proof.Machine
end

