-- ==== Sys2Proof/Machine/MemberIo.lean ====
section
/-! DEFINITION. Member I/O: issuing NVMe commands under the budgets, the strips of a row with their recovery, encryption of
blocks, and the Lost-Strip Table (chapters 03, 05, 08). -/

namespace Sys2Proof.Machine

/-! ### Members and paths -/

/-- A member with a connected I/O queue (R205, R375). -/
def hasPath (s : State) (m : Nat) : Bool := (getMember s m).queues.any (fun q => !q.admin && q.connected)

def memberFailed (s : State) (m : Nat) : Bool := (getMember s m).st == .failed

/-- Index of a command's direction: 0 receive (reads), 1 transmit. -/
def dirOf (op : NvmeOp) : Nat := if op = .read then 0 else 1

/-- A pipeline's allowance left in a direction (R228). -/
def allowance (b : Budget) (p : Pipe) (d : Nat) : Int :=
  match p with
  | .host => b.host.getD d 0
  | .rebuild => b.r.getD d 0
  | .verify => b.v.getD d 0

/-- A command's data bytes charged to its pipeline at issue; host traffic counts toward h (R227, R228). -/
def charge (b : Budget) (p : Pipe) (d n : Nat) : Budget :=
  match p with
  | .host => { b with host := b.host.set d (b.host.getD d 0 - n), h := b.h.set d (b.h.getD d 0 + n) }
  | .rebuild => { b with r := b.r.set d (b.r.getD d 0 - n) }
  | .verify => { b with v := b.v.set d (b.v.getD d 0 - n) }

/-- Data bytes of a command, which are what is charged (R228). -/
def dataBytes (m : MCmd) : Nat :=
  match m.op with
  | .read => m.len
  | .write => m.len
  | _ => 0

/-- The I/O queue that carries a tile's commands: the tile's own, else that of the lowest-numbered tile that has one (R366). -/
def queueFor (s : State) (m tile : Nat) : Option Queue :=
  let qs := (getMember s m).queues.filter (fun q => !q.admin && q.connected)
  match qs.find? (fun q => q.tile == tile) with
  | some q => some q
  | none => (List.range 8).findSome? (fun t => qs.find? (fun q => q.tile == t))

/-- Commands on a queue. -/
def onQueue (s : State) (m : Nat) (q : Queue) : Nat :=
  (s.mcmds.filter (fun x => x.member == m && !x.noPath && !x.throttled && !x.retrying &&
    (queueFor s m x.tile).any (fun y => y.tile == q.tile))).length

/-- FUA: set on every Write and Write Zeroes (Table 8-3). -/
def fuaOf (op : NvmeOp) : Bool :=
  match op with
  | .write => true
  | .writeZeroes => true
  | _ => false

/-- H2CData PDUs of `len` bytes, each at most `most` (R370): `fuel` of them at most. -/
def h2cPdus : Nat → Nat → Nat → Nat → List (Nat × Nat)
  | 0, _, _, _ => []
  | fuel + 1, off, len, most =>
    if len = 0 then []
    else if most = 0 ∨ len ≤ most then [(off, len)]
    else (off, most) :: h2cPdus fuel (off + most) (len - most) most

/-- How a command's data goes (R370): a Write of 8 KiB or less that fits IOCCSZ × 16 − 64 bytes has it in the capsule, every other Write in
H2CData PDUs once R2T has come (log entry 122); a read's data arrives in C2HData PDUs. -/
def dataForm (x : Member) (m : MCmd) : DataForm :=
  if m.op ≠ .write then .none
  else if m.len ≤ 8192 ∧ m.len + 64 ≤ 16 * x.ioccsz then .inCapsule
  else .h2c (h2cPdus (m.len / 512 + 1) 0 m.len x.maxH2c)

/-- A member command sent on its way, its data bytes charged to its pipeline once (R228). -/
def sendM (s : State) (m : MCmd) : State :=
  let s := if m.charged then s else { s with budget := charge s.budget m.pipe (dirOf m.op) (dataBytes m) }
  let m := { m with noPath := false, throttled := false, retrying := false, charged := true }
  emit { s with mcmds := s.mcmds ++ [m] } (.member m (dataForm (getMember s m.member) m))

/-- A member write of a pool that is offline: none is issued (R384). -/
def offlineWrite (s : State) (m : MCmd) : Bool := (getPool s m.pool).st == .offline && m.op != .read

/-- A member command's queue has room, and its pipeline an allowance unless the command has been charged (R228, R366). -/
def mayGo (s : State) (m : MCmd) : Bool :=
  match queueFor s m.member m.tile with
  | some q => !offlineWrite s m && (m.charged || decide (0 < allowance s.budget m.pipe (dirOf m.op))) && decide (onQueue s m.member q < q.depth)
  | none => false

/-- A member command that waits: for a path, or for its turn (R228, R229, R375). -/
def holdM (s : State) (m : MCmd) : State :=
  { s with mcmds := s.mcmds ++ [{ m with noPath := !hasPath s m.member, throttled := hasPath s m.member, retrying := false }] }

/-- A host-pipeline command is issued as soon as it may go; the rebuild/scrub and verify pipelines issue theirs one by one, on their own
steps (R229, R230). -/
def launch (s : State) (m : MCmd) : State :=
  if mayGo s m && (m.pipe == .host || m.charged) then sendM s m else holdM s m

/-- A new member command, given all but its handle. -/
def issue (s : State) (m : MCmd) : State := launch (bump s) { m with id := s.nextId, fua := fuaOf m.op }

/-- A new member command of a pipeline. -/
def issueM (s : State) (pool member tile : Nat) (op : NvmeOp) (off len : Nat) (data : Mem) (purpose : Purpose) (pipe : Pipe)
    (cls : Nat := 1) : State :=
  issue s { id := 0, member := member, pool := pool, tile := tile, op := op, off := off, len := len, data := data,
            purpose := purpose, pipe := pipe, cls := cls }

/-- A command on its way at the member (issued, not waiting). -/
def outstanding (m : MCmd) : Bool := !m.noPath && !m.throttled && !m.retrying

/-- A command reissued at once on another queue, or waiting for one (R375). -/
def reissue (s : State) (m : MCmd) : State :=
  let s := dropMCmd s m.id
  if hasPath s m.member && !offlineWrite s m then sendM s m else holdM s m

/-- A waiting command tried again. -/
def relaunch (s : State) (m : MCmd) : State :=
  launch (dropMCmd s m.id) { m with retrying := false }

/-- Every command that waits for a path or an allowance tried again, oldest first. -/
def relaunchAll (s : State) : State :=
  (s.mcmds.filter (fun m => m.noPath || m.throttled)).foldl relaunch s

/-- Those of one member. -/
def relaunchMember (s : State) (member : Nat) : State :=
  (s.mcmds.filter (fun m => m.member == member && (m.noPath || m.throttled))).foldl relaunch s

/-- A waiting command of the rebuild/scrub or verify pipeline issued. -/
def sendTurn (s : State) (m : MCmd) : State := sendM (dropMCmd s m.id) m

/-! ### Pool metadata (R236, R247, R248) -/

/-- The live pool indices: not failed. -/
def liveIx (s : State) (pool : Nat) : List Nat :=
  (List.range (poolCfg s pool).n).filter (fun ix => !isFailedIx (getPool s pool).failList ix)

/-- The live members of a pool. -/
def liveMembers (s : State) (pool : Nat) : List Nat := (liveIx s pool).map (memberAt (poolCfg s pool))

/-- The metadata members (R248): the three live members with the lowest pool indices. -/
def metaMembers (s : State) (pool : Nat) : List Nat := ((liveIx s pool).take 3).map (memberAt (poolCfg s pool))

/-- Generation and CRC32C of each 4 KiB unit of a metadata write; the CRC covers the unit and its generation (R248, log entry 112). -/
def metaUnits (gen : Nat) (len : Nat) (data : Mem) : List (BitVec 64 × W32) :=
  (List.range (len / 4096)).map (fun i => (BitVec.ofNat 64 gen, crc32c (Mem.bytes data (4096 * i) 4096 ++ leBytes 8 gen)))

/-- A metadata write to a list of members (R248), on the host pipeline (log entry 112). -/
def metaWrite (s : State) (pool : Nat) (ms : List Nat) (off len : Nat) (data : Mem) (purpose : Purpose) : State :=
  let t := (getPool s pool).tile
  let gen := (getPool s pool).metaGen + 1
  let s := modPool s pool (fun p => { p with metaGen := gen })
  ms.foldl (fun s m =>
    issue s { id := 0, member := m, pool := pool, tile := t, op := .write, off := off, len := len, data := data,
              units := metaUnits gen len data, purpose := purpose, pipe := .host }) s

/-- The 16 bytes of an LST entry (Table 5-6). -/
def lstBytes (pool : Nat) (e : LstEnt) : List Byte :=
  let b := leBytes 5 e.row ++ leBytes 1 e.strip ++ leBytes 1 pool ++ leBytes 1 (e.cause + flag 7 true) ++ leBytes 6 e.epoch.toNat
  b ++ leBytes 2 (crc16 b).toNat

/-- The LST area as written to metadata members. -/
def lstImage (s : State) (pool : Nat) : List Byte := (getPool s pool).lst.flatMap (lstBytes pool)

/-- The LST area from entry `first` to entry `last`, in whole 4 KiB units, written to the metadata members (R237, Table 5-8). -/
def lstStore (s : State) (pool first last : Nat) (purpose : Purpose) : State :=
  let u := first / 256
  let n := last / 256 + 1 - u
  let img := Mem.ofList (((getPool s pool).lst.drop (256 * u)).flatMap (lstBytes pool))
  metaWrite s pool (metaMembers s pool) (0x10000 + 4096 * u) (4096 * n) (Mem.slice img 0 (4096 * n)) purpose

/-! ### Encryption (section Encryption keys) -/

/-- The tweak of a block: volume LBA in bits 63:0, volume number in bits 77:64. -/
def tweak (vol lba : Nat) : BitVec 128 := BitVec.ofNat 128 (lba + vol * 2 ^ 64)

/-- The key of an encrypted volume. -/
def volKey (s : State) (vol : Nat) : Option (BitVec 512) :=
  if (volCfg s vol).attr.getLsbD 2 then (volCfg s vol).key else none

/-- Volume row of a pool row: the inverse of R127. -/
def volRowOf (v : VolCfg) (row : Nat) : Nat :=
  1024 * ((v.extents.findIdx? (· == row / 1024)).getD 0) + row % 1024

/-- A whole row's data blocks put through `f`, which sees the block's LBA; blocks outside `mask` are dropped. -/
def mapBlocks (mask : BitVec 128) (lba0 : Nat) (f : Nat → Mem → Mem) (m : Mem) : Mem :=
  (maskBlocks mask).foldl (fun acc i => Mem.paste acc (4096 * i) 4096 (f (lba0 + i) (Mem.slice m (4096 * i) 4096))) []

/-- Data blocks of a row as members hold them. -/
def toMember (s : State) (vol row : Nat) (mask : BitVec 128) (m : Mem) : Mem :=
  match volKey s vol with
  | none => Mem.onlyBlocks m mask
  | some k =>
    let v := volCfg s vol
    mapBlocks mask (volRowOf v row * (poolCfg s v.pool).rowBlocks) (fun lba b => Config.xtsEncrypt k (tweak vol lba) b) m

/-- Data blocks of a row as tenants see them. -/
def fromMember (s : State) (vol row : Nat) (mask : BitVec 128) (m : Mem) : Mem :=
  match volKey s vol with
  | none => Mem.onlyBlocks m mask
  | some k =>
    let v := volCfg s vol
    mapBlocks mask (volRowOf v row * (poolCfg s v.pool).rowBlocks) (fun lba b => Config.xtsDecrypt k (tweak vol lba) b) m

/-! ### Change maps (R102, R130) -/

/-- g of a change map (R102): the smallest that keeps `rows` pool rows (R130) within 2^22 bits. -/
def mapShift (rows : Nat) : Nat := ((List.range 64).find? (fun g => decide (rows ≤ 2 ^ (22 + g)))).getD 0

/-- Bytes of a change map. -/
def mapLen (rows : Nat) : Nat := ((rows + 2 ^ mapShift rows - 1) / 2 ^ mapShift rows + 7) / 8

/-- The bytes of a map whose listed bits are set. -/
def mapBytes (bits : List Nat) : Mem :=
  bits.foldl (fun m b => Mem.set m (b / 8) (Mem.get m (b / 8) ||| (1#8 <<< (b % 8)))) []

/-- Rows of a volume. -/
def volRows (c : VolCfg) : Nat := 1024 * c.extents.length

/-! ### Fetching strips of a row (R216, Table 3-3) -/

/-- First block column and span of a set of columns. -/
def colSpan (cols : BitVec 4) : Nat × Nat :=
  let l := (List.range 4).filter (fun b => cols.getLsbD b)
  match l with
  | [] => (0, 0)
  | f :: _ => (f, l.getLastD f - f + 1)

/-- The block columns of a strip alone. -/
def onlyCols (cols : BitVec 4) (m : Mem) : Mem := m.filter (fun e => cols.getLsbD (e.1 / 4096))

/-- Lost strips of a row (R234). -/
def lostStrips (s : State) (pool row : Nat) : List Nat :=
  (List.range (poolCfg s pool).k).filter (fun j => isLost (getPool s pool) row j)

/-- A row that the pass of an unprotected import has not resynchronised yet (R387). -/
def unsynced (s : State) (pool row : Nat) : Bool :=
  match (getPool s pool).resyncAt with
  | some c => decide (c ≤ row) && !(getPool s pool).synced.contains row
  | none => false

/-- Data strips of a row that have no place to be read from. -/
def missingData (s : State) (pool row : Nat) : List Nat :=
  (missing (poolCfg s pool) (getPool s pool) row).filter (fun j => decide (j < (poolCfg s pool).k) && !isLost (getPool s pool) row j)

/-- Whether the strips that Table 3-3 needs for the erasures can all be had (R211, R216). -/
def recoverable (s : State) (pool row : Nat) (erased : List Nat) : Bool :=
  let c := poolCfg s pool
  decide (erased.length ≤ 2) && !(unsynced s pool row && erased.any (fun j => decide (j < c.k) && !isLost (getPool s pool) row j)) &&
    (recoverSources c.k erased).all (fun j => isLost (getPool s pool) row j || (readPlace c (getPool s pool) row j).isSome)

/-- Contiguous runs of block numbers 0-3 of a strip: first and count. -/
def runs : List Nat → List (Nat × Nat)
  | [] => []
  | b :: rest =>
    match runs rest with
    | (f, n) :: more => if b + 1 = f then (b, n + 1) :: more else (b, 1) :: (f, n) :: more
    | [] => [(b, 1)]

/-- Blocks of a position that a fetch has found unreadable. -/
def badCols (x : Fetch) (j : Nat) : BitVec 4 := (x.bad.filter (fun e => e.1 == j)).foldl (fun m e => m ||| e.2) 0

/-- A read of a fetch's strip is under way or waits. -/
def readAsked (s : State) (f j : Nat) : Bool :=
  s.mcmds.any (fun m => match m.purpose with
    | .fetch g pos => g == f && pos == j
    | _ => false)

/-- Reads of positions not yet obtained or asked for: the fetch's block columns, in a salvage the readable ones. -/
def readStrips (s : State) (f : Nat) (ps : List Nat) : State :=
  match getFetch? s f with
  | none => s
  | some x =>
    let c := poolCfg s x.pool
    ps.foldl (fun s j =>
      let have_ := match getFetch? s f with
        | some y => y.got.any (fun e => e.1 == j)
        | none => true
      let rs := if x.salvage then runs ((List.range 4).filter (fun b => x.cols.getLsbD b && !(badCols x j).getLsbD b)) else [colSpan x.cols]
      if have_ || readAsked s f j then s
      else if isLost (getPool s x.pool) x.row j || rs.isEmpty then modFetch s f (fun y => { y with got := Tab.set y.got j [] })
      else
        match readPlace c (getPool s x.pool) x.row j with
        | some m => rs.foldl (fun s r =>
            issueM s x.pool m x.tile .read (blockOffset c x.row r.1) (4096 * r.2) [] (.fetch f j) x.pipe x.cls) s
        | none => s) s

/-- Members of a row in LAGGING state, among the positions asked for (R212). -/
def laggingAt (s : State) (pool row j : Nat) : Bool :=
  match readPlace (poolCfg s pool) (getPool s pool) row j with
  | some m => (getMember s m).st == .lagging
  | none => false

/-- The positions of a fetch taken as erased, in ascending order. -/
def sortedErased (l : List Nat) : List Nat := (List.range 32).filter (fun j => l.contains j)

/-- The reads that recovery of the erased positions needs. -/
def readForRecovery (s : State) (f : Nat) : State :=
  match getFetch? s f with
  | none => s
  | some x =>
    let e := sortedErased x.erased
    if e.isEmpty || x.torn || x.salvage || !recoverable s x.pool x.row e then s
    else readStrips s f (recoverSources (poolCfg s x.pool).k e)

/-- A host fetch that reads strips of LAGGING members reads in parallel what reconstructs them, where Table 3-3 can (R212). -/
def parallelReads (s : State) (f : Nat) : State :=
  match getFetch? s f with
  | none => s
  | some x =>
    let k := (poolCfg s x.pool).k
    let lag := (List.range (k + 2)).filter (fun j => readAsked s f j && !x.erased.contains j && laggingAt s x.pool x.row j)
    let e := sortedErased (x.erased ++ lag)
    if x.pipe = .host ∧ !x.torn ∧ !x.salvage ∧ !lag.isEmpty ∧ recoverable s x.pool x.row e then readStrips s f (recoverSources k e) else s

/-! ### The Lost-Strip Table (R233-R238, R387) -/

/-- 1,048,576 entries a pool may hold (R238). -/
def lstLimit : Nat := 1048576

/-- Entries that the MRAM rebuild slice of a tile holds, and its limit (R237). -/
def sliceEntries (s : State) (tile : Nat) : Nat :=
  ((s.pools.filter (fun e => e.2.tile == tile)).map (fun e => e.2.lst.length)).foldl (· + ·) 0
def sliceLimit : Nat := 61440

/-- The strips of a list that have no entry yet. -/
def lstNew (s : State) (pool row : Nat) (strips : List Nat) : List Nat := strips.filter (fun j => !isLost (getPool s pool) row j)

/-- The pool's table has room for strips of a row (R238). -/
def lstRoom (s : State) (pool row : Nat) (strips : List Nat) : Bool :=
  decide ((getPool s pool).lst.length + (lstNew s pool row strips).length ≤ lstLimit)

/-- Strips entered in the LST with a cause, in the MRAM slice and on the metadata members: F2 with Jet 0x1010. A row that would need an
entry beyond the limit is not converted and stays broken: LST_FULL, F2 with Jet 0x1013 (R233, R237, R238). -/
def lstEnter (s : State) (pool row : Nat) (strips : List Nat) (cause : Nat) : State :=
  let new := lstNew s pool row strips
  if new.isEmpty then s
  else if !lstRoom s pool row strips then
    fault0 (modPool s pool (fun p => { p with lstFull := true, refused := addOnce p.refused row, gen := p.gen + 1 })) 0x1013 2 (srcPool pool)
  else
    let inSlice := decide (sliceEntries s (getPool s pool).tile + new.length ≤ sliceLimit)
    let n := (getPool s pool).lst.length
    let s := modPool s pool (fun p =>
      { p with
        lst := p.lst ++ new.map (fun j => { row := row, strip := j, cause := cause, epoch := s.moon.epoch, committed := inSlice })
        gen := p.gen + 1 })
    let s := lstStore s pool n (n + new.length - 1) (if inSlice then .metadata pool else .lstWrite pool)
    fault0 s 0x1010 2 (srcPool pool)

/-- An entry of the row is not committed yet: no read of the strip completes and no write to the row is acknowledged (R237). -/
def lstHeld (s : State) (pool row : Nat) : Bool := (getPool s pool).lst.any (fun e => e.row == row && !e.committed)

/-- R235: a write that covers all four blocks of lost strips removes their entries. -/
def lstRemove (s : State) (pool row : Nat) (mask : BitVec 128) : State :=
  let goes (e : LstEnt) : Bool := e.row == row && mask &&& stripMask e.strip == stripMask e.strip
  match (getPool s pool).lst.findIdx? goes with
  | none => s
  | some i =>
    let n := (getPool s pool).lst.length
    lstStore (modPool s pool (fun p => { p with lst := p.lst.filter (fun e => !goes e), gen := p.gen + 1 })) pool i (n - 1) (.metadata pool)

/-- Whether a block range of a row touches a lost strip (R234). -/
def touchesLost (s : State) (pool row : Nat) (mask : BitVec 128) : Bool :=
  (lostStrips s pool row).any (fun j => mask &&& stripMask j != 0)

/-- R239: a broken row found for the first time since the list change. -/
def reportBroken (s : State) (pool : Nat) : State :=
  if (getPool s pool).brokenLogged then s
  else fault0 (modPool s pool (fun p => { p with brokenLogged := true, broken := true, gen := p.gen + 1 })) 0x1011 2 (srcPool pool)

/-- A row not yet resynchronised after an unprotected import: what recovery would give back is entered in the LST (R387, R198). -/
def loseUnsynced (s : State) (pool row : Nat) : State :=
  if unsynced s pool row then lstEnter s pool row (missingData s pool row) 2 else s

/-! ### Fetches -/

/-- A fetch begun, given all but its handle and erasures: reads of the wanted strips, and at once those that recover strips without a
place; a host fetch also reconstructs strips of LAGGING members in parallel (R212). Its handle is the `nextId` before. -/
def beginFetch (s : State) (x : Fetch) : State :=
  let c := poolCfg s x.pool
  let f := s.nextId
  let gone := if x.torn || x.salvage then []
    else (missing c (getPool s x.pool) x.row).filter (fun _ => x.want.any (fun j => (missing c (getPool s x.pool) x.row).contains j))
  let s := bump { s with fetches := s.fetches ++ [{ x with id := f, erased := gone }] }
  let s := readStrips s f (x.want.filter (fun j => !gone.contains j))
  parallelReads (readForRecovery s f) f

/-- A fetch of a row's strips. -/
def startFetch (s : State) (pool row vol tile : Nat) (cols : BitVec 4) (want : List Nat) (dest : FetchDest) (pipe : Pipe)
    (cls : Nat := 1) : State :=
  let s := if want.any (fun j => (missingData s pool row).contains j) then loseUnsynced s pool row else s
  beginFetch s { id := 0, pool := pool, row := row, vol := vol, cols := cols, want := want, dest := dest, pipe := pipe, tile := tile, cls := cls }

/-- The handle of the fetch begun last. -/
def lastFetch (s : State) : Nat := ((s.fetches.getLast?).map (·.id)).getD 0

/-- Positions a fetch still wants. -/
def fetchMissing (x : Fetch) : List Nat := x.want.filter (fun j => !x.got.any (fun e => e.1 == j))

/-- The erasures under which a fetch can be completed from what it has: none when it holds all it wants; else those marked and the strips
still wanted, with the sources among them that have not come yet when others stand in for them (R212). -/
def fetchBasis (k : Nat) (x : Fetch) : Option (List Nat) :=
  if (fetchMissing x).isEmpty then some []
  else if x.torn || x.salvage then none
  else
    let lacks (l : List Nat) : List Nat := (recoverSources k l).filter (fun j => !x.got.any (fun e => e.1 == j))
    let e := sortedErased (x.erased ++ fetchMissing x)
    let e2 := sortedErased (e ++ lacks e)
    if e.length ≤ 2 ∧ lacks e = [] then some e
    else if e2.length ≤ 2 ∧ lacks e2 = [] then some e2
    else none

/-- A fetch has, or can compute, every strip it wants. A salvage waits for every read of its own (R233). -/
def fetchReady (s : State) (x : Fetch) : Bool :=
  (fetchBasis (poolCfg s x.pool).k x).isSome && !(x.salvage && x.want.any (readAsked s x.id))

/-- Positions of a salvaged row that are unavailable in block column `b` (R233). -/
def columnErased (s : State) (x : Fetch) (b : Nat) : List Nat :=
  sortedErased (missing (poolCfg s x.pool) (getPool s x.pool) x.row ++ (x.bad.filter (fun e => e.2.getLsbD b)).map Prod.fst)

/-- One block column alone. -/
def oneCol (b : Nat) : BitVec 4 := 1#4 <<< b

/-- The strips of a salvaged row, each block column recovered by itself where Table 3-3 can (R233). -/
def salvageStrips (s : State) (x : Fetch) : List (Nat × Mem) :=
  let k := (poolCfg s x.pool).k
  let col (b : Nat) : List (Nat × Mem) :=
    let got := x.got.map (fun e => (e.1, onlyCols (oneCol b) e.2))
    let e := columnErased s x b
    let got := got.filter (fun y => !e.contains y.1)
    if !e.isEmpty ∧ recoverable s x.pool x.row e ∧ (recoverSources k e).all (fun j => got.any (fun y => y.1 == j)) then recover k got e else got
  let cs := (List.range 4).map col
  (List.range (k + 2)).map (fun j => (j, cs.foldl (fun m c => Mem.xor m (stripOf c j)) []))

/-- The strips of a ready fetch, recovered by Table 3-3 where they were not read, block columns of the fetch alone. -/
def fetchStrips (s : State) (x : Fetch) : List (Nat × Mem) :=
  if x.salvage then salvageStrips s x
  else
    let all := match fetchBasis (poolCfg s x.pool).k x with
      | some (e :: es) => recover (poolCfg s x.pool).k x.got (e :: es)
      | _ => x.got
    all.map (fun e => (e.1, onlyCols x.cols e.2))

/-- The wanted strips laid into a row image (slot j at byte 16,384·j). -/
def fetchRow (s : State) (x : Fetch) : Mem :=
  x.want.foldl (fun acc j => Mem.paste acc (16384 * j) 16384 (stripOf (fetchStrips s x) j)) []

/-- The blocks a fetch brings. -/
def fetchMask (x : Fetch) : BitVec 128 :=
  x.want.foldl (fun m j => m ||| ((List.range 4).foldl (fun m b => if x.cols.getLsbD b then m ||| blockMask (4 * j + b) 1 else m) 0)) 0

/-- A fetch dropped, with its reads not yet at a member; the data of those that are is discarded on arrival (R37). -/
def endFetch (s : State) (f : Nat) : State :=
  { s with
    fetches := s.fetches.filter (fun x => x.id != f)
    mcmds := s.mcmds.filter (fun m => match m.purpose with
      | .fetch g _ => g != f || outstanding m
      | _ => true) }

/-- Whether a pool row is broken now: by R239, or for want of the LST entries it would need (R238). -/
def isBroken (s : State) (pool row : Nat) : Bool :=
  brokenRow (poolCfg s pool) (getPool s pool) row || (getPool s pool).refused.contains row

end Sys2Proof.Machine
end

