-- ==== Sys2Proof/Machine/Moonstone.lean ====
section
/-! DEFINITION. The Moonstone family (chapter 02): frames, training, edge placement, holdover, seals and the epoch commands.
The local edge itself, with everything scheduled at it, is in Edge.lean. -/

namespace Sys2Proof.Machine

def modMoon (s : State) (f : Moon → Moon) : State := { s with moon := f s.moon }

/-- The device retimes frames (R75, R112): its bypass is open. -/
def retimes (s : State) : Bool := running s && !s.pins.bypassClosed

/-- Time does not run backwards: the clock reaches the instant of an event. -/
def atInstant (s : State) (t : Nat) : State := { s with clock := max s.clock t }

def isMaster (s : State) : Bool := s.moon.role == 1 && !s.moon.contained
def isMember (s : State) : Bool := s.moon.role == 2 && !s.moon.contained

/-! ### Frames sent and forwarded (R73-R78) -/

/-- The instant of the next edge as predicted: one period after the last, moved by what accepted frames gave (R86). -/
def nextEdge (m : Moon) : Int := (m.edgeAt : Int) + 16000 * 2 ^ m.period + m.edgeShift

/-- The instant at which a control frame given now leaves (R78): at once between 2.56 µs after an edge and 5.12 µs before the next,
else when that interval next begins, and not before the control frame ahead of it has left. -/
def ctlInstant (s : State) : Nat :=
  let t := max s.clock s.moon.lineFree
  let next := nextEdge s.moon
  if t < s.moon.edgeAt + 2560 then s.moon.edgeAt + 2560
  else if (t : Int) + 5120 ≤ next then t
  else max t (next + 2560).toNat

/-- A control frame built by this device at position `origin` (Table 2-3), leaving when R78 lets it. -/
def sendCtl (s : State) (command : Nat) (origin : BitVec 10) (args : List Byte) : State :=
  let at_ := ctlInstant s
  emit (modMoon s (fun m => { m with lineFree := at_ + 2560 })) (.moon at_ false (frameBody false s.moon.epoch origin false 0 command args))

/-- A frame forwarded 80 ns after it came (R77), with COUNT incremented and the fields of `edits` changed (R75). -/
def forwardFrame (s : State) (f : MoonFrame) (edits : List (Nat × Nat × Nat)) : State :=
  emit s (.moon (f.at_ + 80) f.timed (hopBody f edits))

/-- A valid frame has been received since the last edge (R95). -/
def heardFrame (s : State) : State := modMoon s (fun m => { m with validThis := true, silent := 0 })

/-! ### Edge placement (R86-R94) -/

/-- D_eff (R86). -/
def dEff (m : Moon) (count : BitVec 10) : Int := m.delay - 80 * ((m.hops : Int) - (count.toNat : Int))

/-- The number of the epoch that begins next (R66, R69, R81, R88). -/
def nextEpoch (m : Moon) : BitVec 48 :=
  match m.adopt with
  | some e => if m.epoch + 1 < e then e else m.epoch + 1
  | none => m.epoch + 1

/-- An edge a frame can be judged against: its epoch's number, its instant, and whether it has still to come. -/
abbrev EdgeRef := BitVec 48 × Int × Bool

/-- The device's own edges: the running epoch's, those before it, and the next as predicted. -/
def edgeRefs (m : Moon) : List EdgeRef :=
  (m.epoch, (m.edgeAt : Int), false) :: m.edges.map (fun e => (e.1, (e.2 : Int), false)) ++ [(nextEpoch m, nextEdge m, true)]

/-- The edge nearest to `a`, the running epoch's where two are as near (R89). -/
def nearEdge (m : Moon) (a : Int) : EdgeRef :=
  (edgeRefs m).foldl (fun best e => if (a - e.2.1).natAbs < (a - best.2.1).natAbs then e else best) (m.epoch, (m.edgeAt : Int), false)

/-- A period that EPOCH_CONFIG has set on the master and whose configuration has been stored (R118). -/
def storedPeriod (s : State) : Option Nat :=
  s.moon.periodSet.filter (fun p => isMaster s && (storedCfg s.flash).any (fun c => c.epochPeriod == p))

/-- The period code of the epoch that begins next: set on the master (R118), or given by an EDGE frame (R87). -/
def nextCode (s : State) : Nat := (storedPeriod s).getD (s.moon.periodNext.getD s.moon.period)

/-- What a new D moves the edges by (R81): the change in D, within one epoch. -/
def trainMove (m : Moon) : Int :=
  match m.delayNext with
  | some d => m.delay - d
  | none => 0

/-- The new D of a TRAIN, applied from the first EDGE frame after it (R81). -/
def applyDelay (m : Moon) : Moon :=
  { m with delay := m.delayNext.getD m.delay, delayNext := none, edgeShift := m.edgeShift + trainMove m }

/-- The predicted edge a frame is judged against (R89): the nearest to its arrival less D_eff. -/
def frameEdge (m : Moon) (f : MoonFrame) : EdgeRef :=
  nearEdge m ((f.at_ : Int) - dEff (applyDelay m) (frameCount f) - trainMove m)

/-- The offset of a frame from its expected arrival (R86, R89), the edges taken as moved by a new D (R81). -/
def frameOffset (m : Moon) (f : MoonFrame) : Int :=
  (f.at_ : Int) - dEff (applyDelay m) (frameCount f) - trainMove m - (frameEdge m f).2.1

/-- The local number of the epoch whose edge the frame is judged against. -/
def frameEpoch (m : Moon) (f : MoonFrame) : BitVec 48 := (frameEdge m f).1

/-- The sync window: ±8 bit times (R89). -/
def inWindow (x : Int) : Bool := decide (-64 ≤ x) && decide (x ≤ 64)

/-- Limited to ±2 ppm, in ppb (R86). -/
def clampPpb (x : Int) : Int := max (-2000) (min 2000 x)

/-- The Moonstone block once an EDGE frame has been accepted with phase error `e` (R86-R88, R93, R94). Edge E + 1 moves, where E is the
frame's epoch; once that edge has passed, the next one to come does. The trim of a step is e / period, limited to ±2 ppm, and adds to
the trim so far (log entry 103). -/
def acceptMoon (m : Moon) (f : MoonFrame) (e : Int) : Moon :=
  let near := frameEdge m f
  let code := if framePeriod f < 7 then framePeriod f else m.period
  { applyDelay m with
    edgeShift := (applyDelay m).edgeShift + (if near.2.2 then 0 else e)
    shiftAfter := m.shiftAfter + (if near.2.2 then e else 0)
    trim := m.trim + clampPpb (e * 1000000000 / (16000 * 2 ^ m.period : Int))
    misses := 0
    acceptedThis := m.acceptedThis || !near.2.2
    acceptedNext := near.2.2
    lastAccepted := some f.at_
    unsynced := false
    strays := []
    adopt := if near.1 < frameNumber f then some (m.epoch + (frameNumber f - near.1) + 1) else m.adopt
    period := if near.2.2 then m.period else code
    periodNext := if near.2.2 then some code else m.periodNext }

/-- An EDGE frame accepted (R86-R88, R93, R94). -/
def acceptEdge (s : State) (f : MoonFrame) (e : Int) : State :=
  let s' := modMoon s (fun m => acceptMoon m f e)
  if s.moon.unsynced then jetInfo s' 0x6006 srcMoon [] else s'

/-- A frame outside the window (R91): its offset is noted beside those of the frames before it. -/
def strayFrame (s : State) (x : Int) : State :=
  modMoon s (fun m =>
    let same := m.strays.all (fun y => decide (x - y ≤ 8) && decide (y - x ≤ 8))
    { applyDelay m with strays := if same then (x :: m.strays).take 3 else [x], nFalseMarks := m.nFalseMarks + 1 })

/-- An EDGE frame whose epoch lies behind the local number (R88): a miss, at every such frame. -/
def behindFrame (s : State) : State :=
  fault0 (modMoon s (fun m => { applyDelay m with epochBehind := true, behind := true, strays := [] })) 0x6007 1 srcMoon

/-- A valid EDGE frame at a trained MEMBER (R81, R86-R91). A frame inside the window that is not accepted breaks the run of frames
outside it. -/
def judgeEdge (s : State) (f : MoonFrame) : State :=
  let x := frameOffset s.moon f
  if !inWindow x then strayFrame s x
  else if frameNumber f < frameEpoch s.moon f then behindFrame s
  else if frameOrigin f ≠ 0 ∨ s.moon.behind then modMoon s (fun m => { applyDelay m with strays := [] })
  else acceptEdge s f x

/-- A frame this device is not to act on (R75, R76): counted and forwarded; the master removes one of its own origin, and a timed one
breaks the run of R91, since it does not pass CRC or TYPE. -/
def refuseFrame (s : State) (f : MoonFrame) : State :=
  let judged := f.timed && isMember s && s.moon.trained
  let s := modMoon s (fun m =>
    { m with
      nCrcFails := if frameCrcGood f then m.nCrcFails else m.nCrcFails + 1
      strays := if f.timed then [] else m.strays
      nFalseMarks := if judged && !inWindow (frameOffset m f) then m.nFalseMarks + 1 else m.nFalseMarks })
  if isMaster s && frameOrigin f == 0 then s else forwardFrame s f []

/-- A frame reaches EPOCH_IN (R75, R76, R113, R114): lost if it was crossing when the bypass last changed; through a closed bypass it
leaves as it came; else it is refused unless valid, and acted on by `act`. -/
def onFrame (f : MoonFrame) (act : State → State) (s : State) : Result :=
  let s' := atInstant s f.at_
  if f.at_ < s.pins.bypassAt then done s'
  else if s.pins.bypassClosed then done (emit s' (.moon f.at_ f.timed f.body))
  else if !retimes s then .next s
  else if !frameValid f then done (refuseFrame s' f)
  else done (act (heardFrame s'))

/-- A valid EDGE frame (R80, R84, R86): the master removes its own, and one it did not send is a conflict; every other device
forwards it, and a trained MEMBER judges it. -/
def onEdge (f : MoonFrame) (s : State) : State :=
  if isMaster s then
    if frameOrigin f = 0 ∧ s.moon.edgesOut.contains (frameNumber f) then
      modMoon s (fun m => { m with edgesOut := m.edgesOut.filter (· != frameNumber f) })
    else fault0 (modMoon s (fun m => { m with masterConflict := true })) 0x6001 2 srcMoon
  else
    let s := forwardFrame s f []
    if isMember s && s.moon.trained then judgeEdge s f else s

/-- EDGE (R80, R84, R86). -/
def execEdge (sync : MoonSync) (body : List Byte) (s : State) : Result :=
  let f : MoonFrame := ⟨sync, body⟩
  if frameValid f && !frameIs f kEdge none then .next s else onFrame f (onEdge f) s

/-- A frame that comes back to the device that built it: the master's own, or a MEMBER's own HOLDOVER frame (R75). A STANDALONE device
removes nothing. -/
def ownFrame (s : State) (f : MoonFrame) (holdover : Bool) : Bool :=
  if isMaster s then frameOrigin f == 0
  else holdover && isMember s && (frameOrigin f).toNat == s.moon.position

/-- A frame that some row of its own takes: valid, and where its command has phases, of one of them. -/
def frameKnown (f : MoonFrame) : Bool :=
  frameValid f && (if frameCommand f = kSeal then decide (1 ≤ framePhase f) && decide (framePhase f ≤ 4)
    else if frameCommand f = kTrain then decide (1 ≤ framePhase f) && decide (framePhase f ≤ 2) else true)

/-- INVALID_FRAME (R75, R76): forwarded, and not acted on; so is a valid frame of a PHASE that Table 2-4 does not have. -/
def execInvalidFrame (sync : MoonSync) (body : List Byte) (s : State) : Result :=
  let f : MoonFrame := ⟨sync, body⟩
  if frameKnown f then .next s else onFrame f (fun s => if ownFrame s f false then s else forwardFrame s f []) s

/-- MISS_LIMIT (R94). -/
def execMissLimit (s : State) : Result :=
  if fwUp s && isMember s && s.moon.trained && s.moon.misses == 16 then done (fault0 s 0x6004 2 srcMoon) else .next s

/-- UNSYNCHRONISED (R94). -/
def execUnsynchronised (s : State) : Result :=
  if fwUp s && isMember s && s.moon.trained && !s.moon.unsynced && decide (0 < s.moon.misses) then
    done (fault0 (modMoon s (fun m => { m with unsynced := true })) 0x6005 1 srcMoon)
  else .next s

/-- HOLDOVER_SEND (R95): one frame of REASON 2 per epoch. -/
def execHoldoverSend (s : State) : Result :=
  if retimes s && isMember s && decide (4 ≤ s.moon.silent) && !s.moon.holdoverSent then
    done (sendCtl (modMoon s (fun m => { m with holdoverSent := true })) kHoldover (BitVec.ofNat 10 s.moon.position) (holdoverArgs 2))
  else .next s

/-- Whether an offset lies within what the device's own drift explains (R92): 64 ns and 2 ppm of the time since the last accepted
frame. Before any frame has been accepted nothing bounds the drift (log entry 104). -/
def ownDrift (s : State) (x : Int) : Bool :=
  match s.moon.lastAccepted with
  | some t => decide ((x.natAbs : Nat) * 1000000 ≤ 64 * 1000000 + 2 * (s.clock - t))
  | none => true

/-- REPHASE (R91, R92). -/
def execRephase (s : State) : Result :=
  match s.moon.strays with
  | x :: _ :: _ :: _ =>
    if !fwUp s then .next s
    else if ownDrift s x then done (modMoon s (fun m => { m with edgeShift := m.edgeShift + x, strays := [] }))
    else
      done (jetInfo (modMoon s (fun m =>
        { m with dShift := m.dShift + x, rephased := true, nRephases := m.nRephases + 1, strays := [] })) 0x6003 srcMoon [])
  | _ => .next s

/-- A valid HOLDOVER frame (R75, R95). -/
def onHoldover (f : MoonFrame) (s : State) : State :=
  if ownFrame s f true then s
  else
    let s := forwardFrame s f []
    if framePhase f = 2 then
      jetInfo (modMoon s (fun m => { m with breakPos := frameOrigin f, breakSeen := true })) 0x6008 srcMoon []
    else s

/-- HOLDOVER (R75, R95). -/
def execHoldover (sync : MoonSync) (body : List Byte) (s : State) : Result :=
  let f : MoonFrame := ⟨sync, body⟩
  if frameValid f && !frameIs f kHoldover none then .next s else onFrame f (onHoldover f) s

/-! ### Training (R81, R82) -/

/-- round(p × L / N). -/
def roundShare (p l n : Nat) : Nat := if n = 0 then 0 else (2 * p * l + n) / (2 * n)

/-- The COUNT frame back at the master (R81, R82): L and N are known and RESULT leaves, or OVF fails the training. -/
def trainReturned (s : State) (f : MoonFrame) (t0 mb : Nat) : State :=
  if frameOvf f then mbxFinish (fault0 (modMoon s (fun m => { m with train := {} })) 0x600A 1 srcMoon) mb 0x0043 0 []
  else
    let l := f.at_ - t0
    let n := (frameCount f).toNat + 1
    let s := modMoon s (fun m =>
      { m with train := {}, loop := l, trained := true, behind := false, position := 0, hops := 0
               adopt := if m.epoch < frameNumber f + 1 then some (frameNumber f + 1) else m.adopt })
    let s := sendCtl s kTrain 0 (trainArgs 2 l n)
    let s := jetInfo s 0x6009 srcMoon []
    mbxOk s mb (leBytes 2 n ++ leBytes 2 0 ++ leBytes 4 l ++ leBytes 8 s.moon.epoch.toNat)

/-- The COUNT frame at another device (R81): it takes its position, and writes the greater epoch number into EPOCH. -/
def trainCounted (s : State) (f : MoonFrame) : State :=
  let e := if frameNumber f < s.moon.epoch then s.moon.epoch else frameNumber f
  let p := (frameCount f).toNat + 1
  let ok := !(hop f).2
  let s := modMoon s (fun m =>
    { m with train := { m.train with seen := if ok then some p else none }, position := if ok then p else m.position })
  forwardFrame s f [(2, 6, e.toNat)]

/-- A valid TRAIN frame in the COUNT phase (R81). -/
def onTrainCount (f : MoonFrame) (s : State) : State :=
  if ownFrame s f false then
    match s.moon.train.sentAt, s.moon.train.mb with
    | some t0, some mb => trainReturned s f t0 mb
    | _, _ => s
  else trainCounted s f

/-- TRAIN_COUNT (R81). -/
def execTrainCount (f : MoonFrame) (s : State) : Result :=
  if frameValid f && !frameIs f kTrain (some 1) then .next s else onFrame f (onTrainCount f) s

/-- A training that fails at this device (R82, R119). -/
def trainFailed (s : State) : State :=
  fault0 (modMoon s (fun m => { m with trained := false, train := { m.train with seen := none } })) 0x600A 1 srcMoon

/-- A valid TRAIN frame in the RESULT phase (R81, R82). -/
def onTrainResult (f : MoonFrame) (s : State) : State :=
  if ownFrame s f false then s
  else
    let s := forwardFrame s f []
    match s.moon.train.seen with
    | none => trainFailed s
    | some p =>
      if p < frameDevices f ∧ !frameOvf f then
        let d : Int := roundShare p (frameLoop f) (frameDevices f) + s.moon.dlyAdj
        jetInfo (modMoon s (fun m =>
          { m with trained := true, behind := false, hops := p - 1, delayNext := some d, loop := frameLoop f,
                   train := { m.train with seen := none } })) 0x6009 srcMoon []
      else trainFailed s

/-- TRAIN_RESULT (R81, R82). -/
def execTrainResult (at_ : Nat) (timed : Bool) (body : List Byte) (s : State) : Result :=
  let f : MoonFrame := ⟨⟨at_, timed⟩, body⟩
  if frameValid f && !frameIs f kTrain (some 2) then .next s else onFrame f (onTrainResult f) s

/-- TRAIN_TIMEOUT (R82). -/
def execTrainTimeout (s : State) : Result :=
  match s.moon.train.sentAt, s.moon.train.mb with
  | some _, some mb =>
    if fwUp s then done (mbxFinish (fault0 (modMoon s (fun m => { m with train := {} })) 0x600A 1 srcMoon) mb 0x0043 0 []) else .next s
  | _, _ => .next s

/-! ### Seals (R102-R111) -/

/-- Volumes in the seal group (R97). -/
def sealVols (s : State) : List Nat := (s.cfg.vols.filter (fun e => e.2.attr.getLsbD 0)).map Prod.fst

/-- Bits of two maps together. -/
def orBits (a b : List Nat) : List Nat := a ++ b.filter (fun x => !a.contains x)

/-- R106: the active map becomes the frozen map of the running seal; a volume without a map yields FULL (R103, R111). -/
def freezeVol (v : Vol) : Vol :=
  { v with freezing := some { bits := v.active, full := v.activeFull || v.noMap }, active := [], activeFull := false }

/-- R108: a frozen map ORed back into the active map. -/
def thawVol (v : Vol) : Vol :=
  match v.freezing with
  | some m => { v with active := orBits v.active m.bits, activeFull := v.activeFull || m.full, freezing := none }
  | none => v

/-- R111: the frozen map of a successful seal replaces the one before. -/
def keepVol (v : Vol) : Vol :=
  match v.freezing with
  | some m => { v with frozen := some m, freezing := none }
  | none => v

def mapVols (s : State) (f : Vol → Vol) : State := { s with vols := s.vols.map (fun e => (e.1, f e.2)) }

/-- A SEAL record of a phase on every tile in service (Table 4-5): 1 maps frozen, 3 DONE, 4 FAILED. -/
def sealRecord (s : State) (phase : Nat) : State :=
  (upTiles s).foldl (fun s t => appendCtl s t .sealRec s.moon.sealSt.es 0 (BitVec.ofNat 32 phase)) s

/-- DONE or FAILED at this device (R108, R119). -/
def endSeal (s : State) (ok : Bool) (marked : Bool := false) : State :=
  let s := if s.moon.sealSt.frozen then sealRecord s (if ok then 3 else 4) else s
  let s := mapVols s (if ok then keepVol else thawVol)
  let s := modMoon s (fun m =>
    { m with sealActive := false, sealDone := m.sealDone || ok, sealFailed := m.sealFailed || !ok
             sealSt := { m.sealSt with phase := if ok then 3 else 4, takesPart := false, frozen := false, stored := false } })
  if ok then jetInfo s 0x600B srcMoon [] else fault s { code := 0x600C, cls := 1, src := srcMoon, marked := marked }

/-- Whether this device takes part in a seal announced now (R106): trained and synchronised, holdover included (R94). -/
def canSeal (s : State) : Bool := (isMaster s || isMember s) && s.moon.trained && !s.moon.unsynced

/-- This device added to ACCEPTED or WITHDRAWN (R106). -/
def countSeal (take : Bool) (a : SealArgs) : SealArgs :=
  if take then { a with accepted := a.accepted + 1 } else { a with withdrawn := a.withdrawn + 1 }

/-- ANNOUNCE at this device (R106): the seal is active, and it takes part or not. -/
def joinSeal (s : State) (a : SealArgs) : State :=
  let take := canSeal s
  let a' := countSeal take a
  modMoon (mapVols s thawVol) (fun m =>
    { m with sealActive := true
             sealSt := { es := a.sealEpoch, phase := 1, accepted := a'.accepted.toNat, finished := 0,
                         withdrawn := a'.withdrawn.toNat, takesPart := take } })

/-- A valid ANNOUNCE (R106, R108): back at the master it brings the counts and the COUNT of the ring. -/
def onAnnounce (f : MoonFrame) (s : State) : State :=
  let a := frameSeal f
  if ownFrame s f false then
    if s.moon.sealActive && s.moon.sealSt.es == a.sealEpoch then
      modMoon s (fun m => { m with sealSt := { m.sealSt with
        accepted := a.accepted.toNat, withdrawn := a.withdrawn.toNat, announceCount := some (frameCount f) } })
    else s
  else
    let a' := countSeal (canSeal s) a
    forwardFrame (joinSeal s a) f [(22, 2, a'.accepted.toNat), (26, 2, a'.withdrawn.toNat)]

/-- ANNOUNCE (R106, R108). -/
def execAnnounce (sync : MoonSync) (body : List Byte) (s : State) : Result :=
  let f : MoonFrame := ⟨sync, body⟩
  if frameValid f && !frameIs f kSeal (some 1) then .next s else onFrame f (onAnnounce f) s

/-- DONE or FAILED sent by the master, which ends the seal itself (R108). -/
def masterEnds (s : State) (ok : Bool) : State :=
  let q := s.moon.sealSt
  let a : SealArgs := { sealEpoch := q.es, accepted := BitVec.ofNat 16 q.accepted, finished := BitVec.ofNat 16 q.finished,
                        withdrawn := BitVec.ofNat 16 q.withdrawn }
  endSeal (sendCtl s kSeal 0 (sealArgs (if ok then 3 else 4) a)) ok

/-- A POLL back at the master (R108). -/
def pollReturned (s : State) (f : MoonFrame) : State :=
  let a := frameSeal f
  if !s.moon.sealActive || s.moon.sealSt.es != a.sealEpoch then s
  else
    let s := modMoon s (fun m => { m with sealSt := { m.sealSt with finished := a.finished.toNat } })
    if s.moon.sealSt.announceCount ≠ some (frameCount f) then masterEnds s false
    else if a.finished = a.accepted then masterEnds s true
    else s

/-- This device has finished the seal that a POLL names (R107), and has not withdrawn since (R94). -/
def hasFinished (s : State) (a : SealArgs) : Bool :=
  let q := s.moon.sealSt
  s.moon.sealActive && q.takesPart && q.stored && q.es == a.sealEpoch && !s.moon.unsynced

/-- A valid POLL (R107, R108). -/
def onPoll (f : MoonFrame) (s : State) : State :=
  let a := frameSeal f
  if ownFrame s f false then pollReturned s f
  else
    let fin := if hasFinished s a then a.finished + 1 else a.finished
    let s := modMoon s (fun m => { m with sealSt := { m.sealSt with
      phase := if m.sealActive then 2 else m.sealSt.phase
      finished := if m.sealActive then fin.toNat else m.sealSt.finished } })
    forwardFrame s f [(24, 2, fin.toNat)]

/-- POLL (R107, R108). -/
def execPoll (sync : MoonSync) (body : List Byte) (s : State) : Result :=
  let f : MoonFrame := ⟨sync, body⟩
  if frameValid f && !frameIs f kSeal (some 2) then .next s else onFrame f (onPoll f) s

/-- A valid DONE or FAILED (R108): the seal ends as the master says, with its counts. -/
def onSealEnd (f : MoonFrame) (ok : Bool) (s : State) : State :=
  let a := frameSeal f
  if ownFrame s f false then s
  else
    let s := forwardFrame s f []
    if s.moon.sealActive then
      endSeal (modMoon s (fun m => { m with sealSt := { m.sealSt with
        accepted := a.accepted.toNat, finished := a.finished.toNat, withdrawn := a.withdrawn.toNat } })) ok
    else s

/-- DONE (R108). -/
def execDone (sync : MoonSync) (body : List Byte) (s : State) : Result :=
  let f : MoonFrame := ⟨sync, body⟩
  if frameValid f && !frameIs f kSeal (some 3) then .next s else onFrame f (onSealEnd f true) s

/-- FAILED (R108). -/
def execFailed (sync : MoonSync) (body : List Byte) (s : State) : Result :=
  let f : MoonFrame := ⟨sync, body⟩
  if frameValid f && !frameIs f kSeal (some 4) then .next s else onFrame f (onSealEnd f false) s

/-- An unretired INTENT of a write stamped below `es` (R98): a write not acknowledged yet has no stamp. -/
def stampedBelow (r : RingRec) (es : BitVec 48) : Bool :=
  r.r.kind == .intent && !r.retired && r.stamp.any (fun e => decide (e < es))

/-- Every write to a seal-group volume stamped below `es` is on members, in every ring this device serves (R107). -/
def sealDrained (s : State) (es : BitVec 48) : Bool :=
  (List.range s.part.tiles).all (fun t => (getTile s t).amber.recs.all (fun r => !(stampedBelow r es && (sealVols s).contains r.r.vol)))

/-- A frozen map is still on its way to a metadata member. -/
def mapsOut (s : State) : Bool :=
  s.mcmds.any (fun m => match m.purpose with
    | .mapWrite _ _ => true
    | _ => false)

/-- SEAL_MAPS_STORED (R107): the frozen maps are on members and so is every write stamped below E_s. -/
def execSealMapsStored (s : State) : Result :=
  let q := s.moon.sealSt
  if serving s && s.moon.sealActive && q.takesPart && q.frozen && !q.stored && !mapsOut s && sealDrained s q.es then
    done (modMoon s (fun m => { m with sealSt := { m.sealSt with stored := true } }))
  else .next s

/-- SEAL_TIMEOUT (R108): at the master. -/
def execSealTimeout (s : State) : Result :=
  if fwUp s && isMaster s && s.moon.sealActive then done (masterEnds s false) else .next s

/-- SEAL_LOCAL_END (R109). -/
def execSealLocalEnd (s : State) : Result :=
  if !(fwUp s && s.moon.sealActive) then .next s
  else if s.moon.sealSt.takesPart then done (endSeal s false)
  else done (modMoon s (fun m => { m with sealActive := false }))

/-! ### Registers and commands (R116, R118) -/

/-- EPOCH_NOW_READ (R116). A latch serves the next read of the upper half, and without one that read gives the upper half as it stands
(log entry 105). -/
def execEpochNowRead (wide upper : Bool) (s : State) : Result :=
  if !(running s && canDma s 0) then .next s
  else if wide then done (emit s (.readData (BitVec.ofNat 64 (epochNow s))))
  else if upper then
    let v := match s.moon.latch with
      | some v => v
      | none => BitVec.ofNat 32 (wordOf (epochNow s) 1)
    done (emit (modMoon s (fun m => { m with latch := none })) (.readData (v.setWidth 64)))
  else
    done (emit (modMoon s (fun m => { m with latch := some (BitVec.ofNat 32 (wordOf (epochNow s) 1)) }))
      (.readData (BitVec.ofNat 64 (wordOf (epochNow s) 0))))

/-- EPOCH_CONFIG (R118, Table 2-13). -/
def execEpochConfig (g : Go) (p : EpochParams) (s : State) : Result :=
  mbxRun s g false (p.periodValid && !isMaster s) 12
    [(0, decide (2 < p.role)), (1, decide (p.guard < 4) || decide (16 < p.guard)), (2, p.periodValid && decide (6 < p.period)),
     (4, decide (p.dlyAdj < -1000) || decide (1000 < p.dlyAdj)),
     (8, decide (p.sealTimeoutMs < 100) || decide (60000 < p.sealTimeoutMs))]
    [needFree (s.moon.sealActive && (p.role != s.moon.role || p.dlyAdj != s.moon.dlyAdj ||
      (p.periodValid && p.period != s.moon.period)))]
    []
    (fun s =>
      let s := if isMaster s ∧ p.role ≠ 1 then sendCtl s kHoldover 0 (holdoverArgs 1) else s
      let s := { s with cfg := { s.cfg with
        epochRole := p.role, epochGuard := p.guard, dlyAdj := p.dlyAdj, sealTimeoutMs := p.sealTimeoutMs
        epochPeriod := if p.periodValid then p.period else s.cfg.epochPeriod } }
      let s := modMoon s (fun m =>
        { m with role := p.role, guardNext := if p.guard = m.guard then none else some p.guard, dlyAdj := p.dlyAdj
                 sealTimeoutMs := p.sealTimeoutMs, contained := false
                 periodSet := if p.periodValid then some p.period else m.periodSet })
      mbxStore s g.mb [])

/-- EPOCH_TRAIN (R81): at the master; TRAIN begins with the COUNT frame. -/
def execEpochTrain (g : Go) (s : State) : Result :=
  mbxRun s g false (!isMaster s) 0 [] [needFree (s.moon.sealActive || s.moon.train.sentAt.isSome)] []
    (fun s =>
      let s := modMoon s (fun m => { m with train := { sentAt := some (ctlInstant s), mb := some g.mb } })
      mbxPark (sendCtl s kTrain 0 (trainArgs 1 0 0)) g.mb .train [])

/-- The period in ns of the epoch that begins next. -/
def nextPeriodNs (s : State) : Nat := 16000 * 2 ^ nextCode s

/-- The edge of epoch `e` as predicted now, in ns: the next edge begins the epoch `nextEpoch`, which may jump (R81, R88); an epoch that
has begun gives its past edge. -/
def edgeOf (s : State) (e : Nat) : Int :=
  let m := s.moon
  if e ≤ m.epoch.toNat then (m.edgeAt : Int) else nextEdge m + ((e - (nextEpoch m).toNat) * nextPeriodNs s : Nat)

/-- R105: the instant from which E_s may lie, for an ANNOUNCE sent at `t`. The 0.5 µs guard units make guard/2 = 250 ns each. -/
def sealFrom (m : Moon) (t : Nat) : Nat := t + m.loop + 2560 + 1000 + 250 * m.guard

/-- R105: whether E_s is late enough for an ANNOUNCE given now, which leaves when R78 lets it. -/
def sealLateEnough (s : State) (e : Nat) : Bool := decide ((sealFrom s.moon (ctlInstant s) : Int) ≤ edgeOf s e)

/-- The earliest E_s that satisfies R105. -/
def earliestSeal (s : State) : Nat :=
  let per := nextPeriodNs s
  let late := ((sealFrom s.moon (ctlInstant s) : Int) - nextEdge s.moon).toNat
  (nextEpoch s.moon).toNat + (late + per - 1) / per

/-- EPOCH_SEAL with ACTION 0 (R105, R110). An E_s too early is an invalid field whether or not a seal is active (log entry 106). -/
def execEpochSeal (g : Go) (action : Nat) (es : BitVec 64) (s : State) : Result :=
  mbxRun s g false (!isMaster s) 16 [(0, action != 0), (8, decide (2 ^ 48 ≤ es.toNat))]
    [{ fails := es != 0 && !sealLateEnough s es.toNat, status := 0x0002, detail := 8 }, needFree s.moon.sealActive] []
    (fun s =>
      let e := if es = 0 then earliestSeal s else es.toNat
      let a : SealArgs := { sealEpoch := BitVec.ofNat 48 e, accepted := 0, finished := 0, withdrawn := 0 }
      mbxOk (sendCtl (joinSeal s a) kSeal 0 (sealArgs 1 (countSeal (canSeal s) a))) g.mb (leBytes 8 e))

/-- EPOCH_SEAL with ACTION 1 (R108): the master sends FAILED. While no seal is active there is nothing to fail, and the command
completes with 0x0006 (log entry 107). -/
def execSealFailRequest (g : Go) (action : Nat) (es : BitVec 64) (s : State) : Result :=
  mbxRun s g false (!isMaster s) 16 [(0, action != 1), (8, decide (2 ^ 48 ≤ es.toNat))]
    [needRunning s.moon.sealActive] []
    (fun s => let e := s.moon.sealSt.es.toNat; mbxOk (masterEnds s false) g.mb (leBytes 8 e))

/-- EPOCH_SEAL_STATUS (Table 11-8). -/
def execEpochSealStatus (g : Go) (s : State) : Result :=
  mbxRun s g false false 0 [] [] []
    (fun s =>
      let q := s.moon.sealSt
      mbxOk s g.mb (leBytes 2 q.phase ++ leBytes 2 q.accepted ++ leBytes 2 q.finished ++ leBytes 2 q.withdrawn ++
        leBytes 8 q.es.toNat))


/-- EPOCH_CMAP_READ (R111): the frozen map with g and FULL. A volume that has no frozen map yet answers with FULL set and clear bits (log
entry 21). -/
def execEpochCmapRead (g : Go) (vol : Nat) (buf : SegDesc) (s : State) : Result :=
  mbxRun s g false false 24 [(8, badBuf buf)]
    (volObj s g.mb vol 0) [objVol vol]
    (fun s =>
      let rows := (poolCfg s (volCfg s vol).pool).poolRows
      let sh := mapShift rows
      let len := mapLen rows
      let m := (getVol s vol).frozen.getD { bits := [], full := true }
      mbxOk (writeBufMem s g.mb buf len (mapBytes m.bits)) g.mb (leBytes 1 sh ++ leBytes 1 m.full.toNat ++ leBytes 2 0 ++ leBytes 4 len))

/-- EPOCH_STATS (Table 2-13). -/
def execEpochStats (g : Go) (s : State) : Result :=
  mbxRun s g false false 0 [] [] []
    (fun s =>
      let m := s.moon
      mbxOk s g.mb ([m.nMisses, m.nHoldovers, m.nRephases, m.nFalseMarks, m.nCrcFails].flatMap (leBytes 4)))

/-! ### The local edge, as far as Moonstone goes (R66-R69, R78, R81, R87, R93-R96, R106, R107) -/

/-- A predicted edge without an accepted EDGE frame (R93), and input loss (R95). -/
def missAtEdge (s : State) : State :=
  let m := s.moon
  let s := if isMember s && m.trained && !m.acceptedThis then
      let s := modMoon s (fun m => { m with misses := satInc m.misses 255, nMisses := m.nMisses + 1
                                            nHoldovers := if m.misses = 0 then m.nHoldovers + 1 else m.nHoldovers })
      if m.misses = 0 then jetInfo s 0x6002 srcMoon [] else s
    else s
  modMoon s (fun m => { m with silent := (if m.validThis then 0 else m.silent + 1), acceptedThis := m.acceptedNext, acceptedNext := false,
                               validThis := false, holdoverSent := false })

/-- The instant of the next edge. -/
def nextEdgeAt (s : State) : Nat := (nextEdge s.moon).toNat

/-- How many edges before the running one are kept for frames that arrive late: a loop delay is at most 1 ms (R82), which is 63 of
the shortest epochs. -/
def edgesKept : Nat := 64

/-- The epoch advances: number, instant, period, guard, D (R66, R86, R87, R92, R96). -/
def advanceEpoch (s : State) : State :=
  let at_ := nextEdgeAt s
  let held := s.cmds.any (fun c => c.phase == .held)
  let code := nextCode s
  let set := if (storedPeriod s).isSome then none else s.moon.periodSet
  let s := atInstant s at_
  modMoon s (fun m =>
    { m with epoch := nextEpoch m, edgeAt := at_, edges := ((m.epoch, m.edgeAt) :: m.edges).take edgesKept
             edgeShift := m.shiftAfter, shiftAfter := 0, adopt := none
             period := code, periodNext := none, periodSet := set
             guard := if held then m.guard else m.guardNext.getD m.guard
             guardNext := if held then m.guardNext else none
             delay := m.delay + m.dShift, dShift := 0 })

/-- The epoch store of tile `t` written (R70): its own copy, and the copy on its buddy while both serve. -/
def writeStore (s : State) (t : Nat) : State :=
  let c : EpochCopy := epochCopy s.moon.epoch
  modAmber s t (fun a =>
    { a with store := if a.failed then a.store else c, storeMirror := if unpaired s t then a.storeMirror else c })

/-- R69: every 16,384 epochs the number goes to the epoch store of every tile in service. -/
def storeEpoch (s : State) (was : BitVec 48) : State :=
  if was.toNat / 16384 = s.moon.epoch.toNat / 16384 then s else (upTiles s).foldl writeStore s

/-- A volume's map written to the change-map area of its pool's metadata members (R107, Table 5-8). -/
def storeMap (s : State) (v : Nat) (m : FrozenMap) (members : List Nat) : State :=
  let pool := (volCfg s v).pool
  metaWrite s pool members (0x200000000 + 0x80000 * v) ((mapLen (poolCfg s pool).poolRows + 4095) / 4096 * 4096) (mapBytes m.bits)
    (.mapWrite pool v)

/-- R106, R107: at local edge E_s a device that takes part freezes its maps, and stores them in pool metadata. -/
def freezeAtEdge (s : State) : State :=
  let q := s.moon.sealSt
  if s.moon.sealActive && q.takesPart && !q.frozen && decide (q.es ≤ s.moon.epoch) then
    let s := (sealVols s).foldl (fun s v => modVol s v freezeVol) s
    let s := (sealVols s).foldl (fun s v => match (getVol s v).freezing with
      | some m => storeMap s v m (metaMembers s (volCfg s v).pool)
      | none => s) s
    sealRecord (modMoon s (fun m => { m with sealSt := { m.sealSt with frozen := true } })) 1
  else s

/-- R78: the master's EDGE frame, whose reference point leaves at its edge. -/
def sendEdge (s : State) : State :=
  emit (modMoon s (fun m => { m with edgesOut := (m.epoch :: m.edgesOut).take 128 }))
    (.moon s.moon.edgeAt true (frameBody true s.moon.epoch 0 false 0 kEdge (edgeArgs s.moon.period)))

/-- R78, R107: the master's EDGE frame, and from one epoch after E_s its POLL. -/
def masterAtEdge (s : State) : State :=
  if isMaster s && retimes s then
    let s := sendEdge s
    let q := s.moon.sealSt
    if s.moon.sealActive && decide (q.es < s.moon.epoch) then
      let fin := q.takesPart && q.stored
      let s := modMoon s (fun m => { m with sealSt := { m.sealSt with phase := 2 } })
      let a : SealArgs :=
        { sealEpoch := q.es, accepted := BitVec.ofNat 16 q.accepted, finished := if fin then 1 else 0,
          withdrawn := BitVec.ofNat 16 q.withdrawn }
      sendCtl s kSeal 0 (sealArgs 2 a)
    else s
  else s

/-- Moonstone's part of a local edge. -/
def moonEdge (s : State) : State :=
  let was := s.moon.epoch
  masterAtEdge (freezeAtEdge (storeEpoch (advanceEpoch (missAtEdge s)) was))

end Sys2Proof.Machine
end

