-- ==== Sys2Proof/Machine/Tier.lean ====
section
/-! DEFINITION. The cache tier of a tile (chapter 06): lookup, the age matrix and the LFSR, allocation, eviction, the stripe
store and its directory. -/

namespace Sys2Proof.Machine

/-! ### Lookup -/

def CRow.is (c : CRow) (vol row : Nat) : Bool := c.vol == vol && c.row == row

def findLine? (t : Tier) (vol row : Nat) : Option (Nat × Line) := t.lines.find? (fun e => e.2.c.is vol row)
def findEvb? (t : Tier) (vol row : Nat) : Option (Nat × CRow) := t.evb.find? (fun e => e.2.is vol row)
/-- A side-buffer entry that has taken Kill no longer counts as holding its row (Table 6-4). -/
def findSide? (t : Tier) (vol row : Nat) : Option (Nat × SideEnt) := t.side.find? (fun e => e.2.c.is vol row && !e.2.kill)
def findSlot? (t : Tier) (vol row : Nat) : Option (Nat × Slot) := t.store.find? (fun e => e.2.c.is vol row)

/-- A row is in some part of the tier. -/
def inTier (t : Tier) (vol row : Nat) : Bool :=
  (findLine? t vol row).isSome || (findEvb? t vol row).isSome || (findSide? t vol row).isSome || (findSlot? t vol row).isSome

/-- A volume has a row in some part of the tier (R285). -/
def volInTier (t : Tier) (vol : Nat) : Bool :=
  t.lines.any (fun e => e.2.c.vol == vol) || t.evb.any (fun e => e.2.vol == vol) || t.side.any (fun e => e.2.c.vol == vol) ||
    t.store.any (fun e => e.2.c.vol == vol)

/-- The dirty blocks the tier holds of a row, wherever it lies. -/
def tierDirty (t : Tier) (vol row : Nat) : BitVec 128 :=
  match findLine? t vol row with
  | some (_, l) => l.c.dirty
  | none =>
    match findSlot? t vol row with
    | some (_, sl) => sl.c.dirty
    | none => (findEvb? t vol row).map (·.2.dirty) |>.getD 0

/-! ### Replacement (R263, R264) -/

/-- A use of line `i` in the age matrix. -/
def useLine (t : Tier) (i : Nat) : Tier :=
  let m := (List.range 64).foldl (fun m j => Tab.set m j (Tab.getD m j 0 &&& ~~~(1#64 <<< i))) t.age
  { t with age := Tab.set m i (~~~(1#64 <<< i)) }

/-- The least recently used of the eligible lines. -/
def lruLine (t : Tier) (elig : List Nat) : Option Nat :=
  let mask := elig.foldl (fun b i => b ||| (1#64 <<< i)) 0
  elig.find? (fun i => Tab.getD t.age i 0 &&& mask == 0)

/-- One advance of the LFSR. -/
def lfsrNext (v : BitVec 16) : BitVec 16 := if v.getLsbD 0 then (v >>> 1) ^^^ 0xB400#16 else v >>> 1

/-- `n` advances. -/
def lfsrAdvance : Nat → BitVec 16 → BitVec 16
  | 0, v => v
  | n + 1, v => lfsrAdvance n (lfsrNext v)

/-- The first eligible line from `i` upward, modulo 64. -/
def nextEligible (elig : List Nat) (i : Nat) : Option Nat :=
  ((List.range 64).map (fun d => (i + d) % 64)).find? (fun j => elig.contains j)

def lineRetired (t : Tier) (i : Nat) : Bool := t.retired.any (fun r => r.line == i)

/-- The lowest-numbered Invalid line that is not retired (R261). -/
def invalidLine (t : Tier) : Option Nat :=
  (List.range 64).find? (fun i => (Tab.get? t.lines i).isNone && !lineRetired t i)

/-- Lines that may be victims (R261). -/
def eligibleLines (t : Tier) : List Nat :=
  (t.lines.filter (fun e => (e.2.st == .clean || e.2.st == .dirty) && !e.2.locked && !t.leaving.contains e.1)).map Prod.fst

/-- The victim under the policy of CACHE_CTL.REPL, with the LFSR advanced under REPL = 1. -/
def chooseVictim (t : Tier) (repl : Bool) : Option (Nat × Tier) :=
  let elig := eligibleLines t
  if elig.isEmpty then none
  else if repl then
    let v := lfsrNext t.lfsr
    (nextEligible elig (v.toNat % 64)).map (fun i => (i, { t with lfsr := v }))
  else (lruLine t elig).map (fun i => (i, t))

/-! ### The stripe store (R269-R273) -/

/-- Slots of the store: 38,912 − 2,048 for each GiB of staging. -/
def storeSlots (t : Tier) : Nat := 38912 - 2048 * t.zGib

def freeSlots (t : Tier) : Nat := storeSlots t - t.store.length - (t.badSlots.filter (fun i => (Tab.get? t.store i).isNone)).length

/-- A free slot. -/
def freeStoreSlot (t : Tier) : Option Nat :=
  (List.range (t.store.length + t.badSlots.length + 1)).find? (fun i =>
    decide (i < storeSlots t) && (Tab.get? t.store i).isNone && !t.badSlots.contains i)

/-- The slots of a row's bucket. -/
def bucketSlots (t : Tier) (vol row : Nat) : List (Nat × Slot) :=
  t.store.filter (fun e => bucketOf e.2.c.vol e.2.c.row == bucketOf vol row)

/-- An access to a way (R272). -/
def touchSlot (t : Tier) (i : Nat) : Tier :=
  match Tab.get? t.store i with
  | none => t
  | some sl =>
    let b := bucketOf sl.c.vol sl.c.row
    { t with store := t.store.map (fun e =>
        if e.1 = i then (e.1, { e.2 with age := 0 })
        else if bucketOf e.2.c.vol e.2.c.row = b then (e.1, { e.2 with age := min 3 (e.2.age + 1) })
        else e) }

/-- The clean way to free for an insertion: greatest AGE, lowest way on a tie. -/
def cleanWay (l : List (Nat × Slot)) : Option Nat :=
  let clean := l.filter (fun e => e.2.st == 1)
  let top := (clean.map (·.2.age)).foldl max 0
  let cand := clean.filter (fun e => e.2.age == top)
  let way := (cand.map (·.2.way)).min?
  (cand.find? (fun e => some e.2.way == way)).map Prod.fst

/-- The oldest dirty way of a bucket, which is destaged at priority when no way is clean (R272); a way whose destage runs is dirty still. -/
def oldestDirty (l : List (Nat × Slot)) : Option Slot :=
  let top := (l.map (·.2.age)).foldl max 0
  if l.length < 4 ∨ l.any (fun e => e.2.st == 1) then none else (l.find? (fun e => e.2.age == top)).map Prod.snd

/-- A row inserted into the store: none while its bucket has no free or clean way, or no slot is free. -/
def insertSlot (t : Tier) (c : CRow) : Option Tier :=
  let ways := bucketSlots t c.vol c.row
  let t? : Option Tier :=
    if ways.length < 4 then some t else (cleanWay ways).map (fun i => { t with store := Tab.erase t.store i })
  match t? with
  | none => none
  | some t =>
    match freeStoreSlot t with
    | none => none
    | some i =>
      let used := (bucketSlots t c.vol c.row).map (·.2.way)
      let way := ((List.range 4).find? (fun w => !used.contains w)).getD 0
      let sl : Slot := { c := c, st := if c.dirty = 0 then 1 else 2, way := way }
      some (touchSlot { t with store := Tab.set t.store i sl } i)

/-! ### Eviction and allocation (R261, R265-R267) -/

/-- A free eviction-buffer entry. -/
def freeEvb (t : Tier) : Option Nat := (List.range 8).find? (fun i => (Tab.get? t.evb i).isNone)

/-- The victim's exchange with an eviction-buffer entry (R265). -/
def toEvb (t : Tier) (line entry : Nat) : Tier :=
  match Tab.get? t.lines line with
  | none => t
  | some l => { t with lines := Tab.erase t.lines line, evb := Tab.set t.evb entry l.c, nEvict := t.nEvict + 1 }

/-- A line for a new row: its number and the tier that has it Invalid. With none, the tier as the attempt leaves it (under
EVMODE = 1 a victim may have begun to leave). -/
def takeLine (t : Tier) (repl : Bool) : Option Nat × Tier :=
  if t.evmodeWait then (none, t)
  else
    match invalidLine t with
    | some i => (some i, t)
    | none =>
      if t.evmode then
        if !t.leaving.isEmpty then (none, t)
        else
          match chooseVictim t repl with
          | none => (none, t)
          | some (i, t) => (none, { t with leaving := t.leaving ++ [i], nEvict := t.nEvict + 1 })
      else
        match freeEvb t with
        | none => (none, t)
        | some e =>
          match chooseVictim t repl with
          | none => (none, t)
          | some (i, t) => (some i, toEvb t i e)

/-- A row laid into line `i`. -/
def putLine (t : Tier) (i : Nat) (l : Line) : Tier := useLine { t with lines := Tab.set t.lines i l } i

/-- State of a line whose fetches are done. -/
def restState (c : CRow) : LineState := if c.dirty = 0 then .clean else .dirty

/-- The row moved into an Agate line from the side buffer (Clean) or the store, when a line is to be had: its line (R260). -/
def moveIn (t : Tier) (repl : Bool) (vol row : Nat) : Option Nat × Tier :=
  match findSide? t vol row with
  | some (e, x) =>
    let (l?, t) := takeLine t repl
    match l? with
    | none => (none, t)
    | some i => (some i, putLine { t with side := Tab.erase t.side e } i { st := restState x.c, c := x.c })
  | none =>
    match findSlot? t vol row with
    | some (j, sl) =>
      let (l?, t) := takeLine t repl
      match l? with
      | none => (none, t)
      | some i => (some i, putLine { t with store := Tab.erase t.store j } i { st := restState sl.c, c := sl.c })
    | none => (none, t)

/-- A line changed in place. -/
def modLine (t : Tier) (i : Nat) (f : Line → Line) : Tier := { t with lines := Tab.adjust t.lines i f }

/-! ### Changing a row's blocks -/

/-- The data blocks of a row of `k` data strips. -/
def dataMask (k : Nat) : BitVec 128 := blockMask 0 (4 * k)

/-- Blocks written: valid and dirty, the P and Q slots no longer valid (R254). -/
def CRow.write (c : CRow) (k : Nat) (mask : BitVec 128) (data : Mem) : CRow :=
  { c with
    valid := (c.valid ||| mask) &&& dataMask k
    dirty := c.dirty ||| mask
    unrec := c.unrec &&& ~~~mask
    data := Mem.mergeBlocks c.data data mask }

/-- Blocks no longer valid (R262). -/
def CRow.invalidate (c : CRow) (mask : BitVec 128) : CRow := { c with valid := c.valid &&& ~~~mask }

/-- Dirty bits of overtaken blocks cleared, valid bits kept (R284). -/
def CRow.undirty (c : CRow) (mask : BitVec 128) : CRow := { c with dirty := c.dirty &&& ~~~mask }

/-- Fetched blocks laid in where the row has none of its own (Table 6-3). -/
def CRow.fill (c : CRow) (mask : BitVec 128) (data : Mem) : CRow :=
  let m := mask &&& ~~~c.valid
  { c with valid := c.valid ||| m, data := Mem.mergeBlocks c.data data m }

/-- The row's copies in every part of the tier changed by `f`, with line and slot states brought in step. -/
def mapRow (t : Tier) (vol row : Nat) (f : CRow → CRow) : Tier :=
  { t with
    lines := t.lines.map (fun e =>
      if e.2.c.is vol row then
        let c := f e.2.c
        (e.1, { e.2 with c := c, st := match e.2.st with
          | .clean => restState c
          | .dirty => restState c
          | x => x })
      else e)
    evb := t.evb.map (fun e => if e.2.is vol row then (e.1, f e.2) else e)
    side := t.side.map (fun e => if e.2.c.is vol row then (e.1, { e.2 with c := f e.2.c }) else e)
    store := t.store.map (fun e =>
      if e.2.c.is vol row then
        let c := f e.2.c
        (e.1, { e.2 with c := c, st := if e.2.st = 3 then 3 else if c.dirty = 0 then 1 else 2 })
      else e) }

/-- Blocks of a row no longer valid anywhere in the tier; a line that fills discards the fetch data that still comes for them, and a
side-buffer entry that fills takes Kill (R262). -/
def invalidateRow (t : Tier) (vol row : Nat) (mask : BitVec 128) : Tier :=
  let t := mapRow t vol row (fun c => c.invalidate mask)
  { t with
    lines := t.lines.map (fun e =>
      if e.2.c.is vol row ∧ e.2.st = .filling then (e.1, { e.2 with skip := e.2.skip ||| mask }) else e)
    side := t.side.map (fun e => if e.2.c.is vol row ∧ e.2.filling then (e.1, { e.2 with kill := true }) else e) }

/-- A row removed from every part of the tier that holds it at rest. -/
def removeRow (t : Tier) (vol row : Nat) : Tier :=
  { t with
    lines := t.lines.filter (fun e => !e.2.c.is vol row)
    side := t.side.filter (fun e => !e.2.c.is vol row)
    store := t.store.filter (fun e => !e.2.c.is vol row) }

/-- A lookup counted (R296, log entry 124): a miss in every part before the one that holds the row, and there a hit or, where a block
needed is not valid, a miss. Part 4 stands for none. -/
def noteLookup (t : Tier) (part : Nat) (hit : Bool) : Tier :=
  { t with
    hits := t.hits.mapIdx (fun j n => if j = part ∧ hit then n + 1 else n)
    misses := t.misses.mapIdx (fun j n => if j < part ∨ (j = part ∧ !hit) then n + 1 else n) }

/-! ### The family's own row that needs only the tier -/

/-- EVMODE_SWITCH (R267): every eviction-buffer entry of the tile has reached its store. -/
def execEvmodeSwitch (tile : Nat) (s : State) : Result :=
  let t := (getTile s tile).tier
  if running s && tileUp s tile && t.evmodeWait && t.evb.isEmpty then
    done (modTier s tile (fun t => { t with evmode := true, evmodeWait := false }))
  else .next s

/-! ### CACHE_CTL (R264, R267, R284, R286, R287, R295) -/

/-- Every LFSR loaded with the seed and advanced t times (R264). -/
def loadLfsr (s : State) : State :=
  modTiles s (fun i x => { x with tier := { x.tier with lfsr := lfsrAdvance i s.cache.seed } })

/-- EVMODE written (R267): to 1 it waits on each tile for the eviction buffer to drain; to 0 it acts at the next victim. -/
def setEvmode (s : State) (v : Bool) : State :=
  if v = s.cache.evmode then s
  else
    let s := { s with cache := { s.cache with evmode := v } }
    modTiles s (fun _ x => { x with tier :=
      if v then (if x.tier.evb.isEmpty then { x.tier with evmode := true } else { x.tier with evmodeWait := true })
      else { x.tier with evmode := false, evmodeWait := false } })

/-- A write to CACHE_CTL: ignored while CACHE_DISABLE or CACHE_ENABLE runs (R287); the reserved seed zero leaves LFSR_SEED as it is
(R14); Jet records a direct change of EN (Table 6-16). -/
def writeCacheCtl (s : State) (v : W32) : State :=
  let n := v.toNat
  let c := s.cache
  if c.disabling.isSome || c.enabling.isSome then { s with cache := { c with writeIgnored := true } }
  else
    let seed := if bits n 31 16 = 0 then c.seed else BitVec.ofNat 16 (bits n 31 16)
    let en := bit n 0
    let s := if en = c.en then s else jetInfo s 0x3008 (srcAgate 0) (leBytes 1 en.toNat)
    let s := { s with cache := { s.cache with
      en := en, repl := bit n 1, pfa := bit n 3, pfb := bit n 4, pfDepth := BitVec.ofNat 3 (bits n 10 8), seed := seed
      staleLogged := if c.en && !en then false else c.staleLogged } }
    let s := setEvmode s (bit n 2)
    if seed = c.seed then s else loadLfsr s

/-- A CACHE_CTL row: the register is reached through PF0's BAR 0. -/
def cacheCtlRow (s : State) (v : W32) : Result :=
  if running s && canDma s 0 then done (writeCacheCtl s v) else .next s

/-- EN_DIRECT_CLEAR (R284): a CACHE_CTL write with EN clear. -/
def execEnDirectClear (v : W32) (s : State) : Result := if bit v.toNat 0 then .next s else cacheCtlRow s v

/-- EN_SET (R286): a CACHE_CTL write with EN set; nothing is removed. -/
def execEnSet (v : W32) (s : State) : Result := if bit v.toNat 0 then cacheCtlRow s v else .next s

/-- LFSR_SEED_LOAD (R264): a CACHE_CTL write that changes LFSR_SEED. -/
def execLfsrSeedLoad (v : W32) (s : State) : Result :=
  if bits v.toNat 31 16 = s.cache.seed.toNat then .next s else cacheCtlRow s v

/-- EVMODE_CHANGE (R267): a CACHE_CTL write that changes EVMODE. -/
def execEvmodeChange (v : W32) (s : State) : Result :=
  if bit v.toNat 2 = s.cache.evmode then .next s else cacheCtlRow s v

end Sys2Proof.Machine
end

