-- ==== Sys2Proof/Machine/Home.lean ====
section
/-! DEFINITION. The home path (chapters 01, 04, 06): acceptance, range locks, acknowledgment points, journaling of row parts, tier
access of reads and writes, acknowledgment and its hold. -/

namespace Sys2Proof.Machine

/-! ### Row parts (R129, R156, R278) -/

/-- Policy of a volume row (R278). -/
def rowPolicy (v : VolCfg) (q : Nat) : Nat :=
  match v.rat.find? (fun e => e.valid && decide (e.firstRow ≤ q) && decide (q < e.firstRow + e.rows)) with
  | some e => e.policy
  | none => v.policy

/-- The row parts of a command's range. -/
def makeParts (s : State) (vol lba len : Nat) : List RowPart :=
  let v := volCfg s vol
  (splitRange (poolCfg s v.pool).rowBlocks len lba len).map (fun (q, b, n) =>
    { q := q, row := poolRowOf v q, first := b, count := n, policy := rowPolicy v q })

/-- The block of the command at which part `i` begins. -/
def partBase (parts : List RowPart) (i : Nat) : Nat := ((parts.take i).map (·.count)).foldl (· + ·) 0

def partMask (p : RowPart) : BitVec 128 := blockMask p.first p.count

/-- The part's data laid into a row image. -/
def partRow (c : Cmd) (i : Nat) (p : RowPart) : Mem :=
  Mem.paste [] (4096 * p.first) (4096 * p.count) (Mem.slice c.data (4096 * partBase c.parts i) (4096 * p.count))

/-- Every byte of the part has arrived (R62): four 1,024-byte units a block (R331). -/
def partArrived (c : Cmd) (i : Nat) (p : RowPart) : Bool :=
  let b := 4 * partBase c.parts i
  (List.range (4 * p.count)).all (fun u => c.arrived.contains (b + u))

def isWriteOp (o : BlockOp) : Bool :=
  match o with
  | .write => true
  | .zeroes => true
  | .dealloc => true
  | _ => false

def isZeroOp (o : BlockOp) : Bool :=
  match o with
  | .zeroes => true
  | .dealloc => true
  | _ => false

def isReadOp (o : BlockOp) : Bool :=
  match o with
  | .read => true
  | .verify => true
  | _ => false

/-- A part of a command changed. -/
def modPart (s : State) (id i : Nat) (f : RowPart → RowPart) : State :=
  modCmd s id (fun c =>
    match c.parts[i]? with
    | some p => { c with parts := c.parts.set i (f p) }
    | none => c)

/-! ### DATA payloads (R174) -/

/-- The blocks a mask marks, packed in increasing bit order. -/
def packFrom (n : Nat) (row : Mem) : List Nat → Mem
  | [] => []
  | i :: rest => Mem.paste (packFrom (n + 1) row rest) (4096 * n) 4096 (Mem.slice row (4096 * i) 4096)

def packBlocks (mask : BitVec 128) (row : Mem) : Mem := packFrom 0 row (maskBlocks mask)

/-- Packed blocks laid back into a row image. -/
def unpackFrom (n : Nat) (payload : Mem) : List Nat → Mem
  | [] => []
  | i :: rest => Mem.paste (unpackFrom (n + 1) payload rest) (4096 * i) 4096 (Mem.slice payload (4096 * n) 4096)

/-- The block content a DATA record or a ZERO INTENT gives its blocks. -/
def recordRow (r : Rec) : Mem := if r.zero then [] else unpackFrom 0 r.payload (maskBlocks r.blockMask)

/-- The reconstructed strips of a record with RECON, laid into a row image, and their positions. -/
def reconPositions (r : Rec) : List Nat := if r.recon then (List.range 32).filter (fun j => r.slotMask.getLsbD j) else []

def reconRow (r : Rec) : Mem :=
  let n := if r.zero then 0 else maskCount r.blockMask
  unpackFrom n r.payload ((reconPositions r).flatMap (fun j => [4 * j, 4 * j + 1, 4 * j + 2, 4 * j + 3]))

/-! ### Unretired UC records (R162) -/

/-- The unretired UC DATA records and ZERO INTENTs of UC parts of a row, in generation order. -/
def ucRecords (a : Amber) (vol row : Nat) : List Rec :=
  genSort Rec.generation ((a.recs.filter (fun r => !r.retired && !r.open_ && r.r.uc && r.r.vol == vol && r.r.row == row && !r.r.partner &&
    (r.r.kind == .data || (r.r.kind == .intent && r.r.zero)))).map (·.r))

/-- The blocks they cover. -/
def ucMask (a : Amber) (vol row : Nat) : BitVec 128 := (ucRecords a vol row).foldl (fun m r => m ||| r.blockMask) 0

/-- Their content, later records over earlier ones. -/
def ucRow (a : Amber) (vol row : Nat) : Mem :=
  (ucRecords a vol row).foldl (fun m r => Mem.mergeBlocks m (recordRow r) r.blockMask) []

/-! ### Range locks (R153-R155, R31) -/

/-- Two ranges of one volume share a block. -/
def overlap (a n b m : Nat) : Bool := decide (a < b + m) && decide (b < a + n)

/-- Locks that conflict with a command's (R154). -/
def Lock.conflicts (l : Lock) (c : Cmd) : Bool :=
  l.vol == c.vol && overlap l.lba l.len c.lba c.len && (l.write || isWriteOp c.op) && l.holder != .cmd c.id

/-- An earlier-accepted command of the same tile waits for a conflicting lock. -/
def waitsAhead (c d : Cmd) : Bool :=
  d.home == c.home && decide (d.order < c.order) && d.phase == .accepted && d.vol == c.vol && overlap d.lba d.len c.lba c.len &&
    (isWriteOp c.op || isWriteOp d.op)

/-- No lock and no earlier-accepted command of the tile conflicts with the command's lock (R154). -/
def lockClear (s : State) (c : Cmd) : Bool :=
  !(getTile s c.home).locks.any (fun l => l.conflicts c) && !s.cmds.any (fun d => d.id != c.id && waitsAhead c d)

/-- The earlier-accepted commands of the tile that wait for nothing but an entry of the table: they take entries first (R31). -/
def tableAhead (s : State) (c : Cmd) : Nat :=
  (s.cmds.filter (fun d => d.id != c.id && d.home == c.home && d.phase == .accepted && decide (d.order < c.order) && lockClear s d)).length

/-- The lock can be granted now (R31, R154). -/
def lockFree (s : State) (c : Cmd) : Bool :=
  decide ((getTile s c.home).locks.length + tableAhead s c < 4096) && lockClear s c

/-- A command's lock released. -/
def unlockCmd (s : State) (c : Cmd) : State :=
  modTile s c.home (fun t => { t with locks := t.locks.filter (fun l => l.holder != .cmd c.id) })

/-! ### Acceptance (R28, R29, R285) -/

/-- The status with which the home tile refuses a command: the volume stopped or offline, its extents changed since the command arrived
(R128), or its journal unavailable. -/
def homeStatus (s : State) (c : Cmd) : Status :=
  let v := getVol s c.vol
  let p := (volCfg s c.vol).pool
  if v.st = .offline ∨ (getPool s p).st = .offline then 0x0042
  else if v.st ≠ .running then 0x0006
  else if volBlocks (poolCfg s p) (volCfg s c.vol) < c.lba + c.len then 0x0004
  else if mramFailed s c.home ∧ !isReadOp c.op then 0x0044
  else 0

/-- The outcome of a command is decided: it waits for its completion (R334). -/
def finishCmd (s : State) (id : Nat) (st : Status) : State := modCmd s id (fun c => { c with phase := .finished, status := st })

/-- A write accepted while EN is 0 to a volume with rows in the tier (R285). -/
def noteStale (s : State) (c : Cmd) : State :=
  if s.cache.en || !isWriteOp c.op || !(upTiles s).any (fun t => volInTier (getTile s t).tier c.vol) then s
  else
    let s := if s.cache.staleLogged then s else jetInfo s 0x3005 (srcAgate c.home) (leBytes 2 c.vol)
    { s with cache := { s.cache with staleRisk := true, staleLogged := true } }

/-- Earlier write-kind commands of the volume, and its unretired INTENTs (R337). -/
def earlierWrites (s : State) (c : Cmd) : List Nat :=
  (s.cmds.filter (fun d => d.id != c.id && d.vol == c.vol && isWriteOp d.op &&
    (match d.phase with | .received => false | .forwarded => false | _ => true))).map (·.id)

def volIntents (a : Amber) (vol : Nat) : List RingRec := a.intents.filter (fun r => r.r.vol == vol && !r.r.partner)

/-- Acceptance at the home tile: stamp, order, row parts (R28, R29, R129). -/
def acceptCmd (s : State) (c : Cmd) : State :=
  let t := homeTile s c.vol
  let c := { c with home := t }
  let st := homeStatus s c
  if st ≠ 0 then modCmd s c.id (fun x => { x with phase := .finished, status := st, home := t })
  else
    let s := noteStale s c
    let order := (getTile s t).nextOrder
    let s := modTile s t (fun x => { x with nextOrder := x.nextOrder + 1 })
    let parts := makeParts s c.vol c.lba c.len
    let wc := earlierWrites s c
    let wr := if c.destage then (ringsOf s t).flatMap (fun u => (volIntents (getTile s u).amber c.vol).map (fun r => (u, r.r.seq))) else []
    modCmd s c.id (fun x =>
      { x with phase := if c.op = .flush then .locked else .accepted
               epoch := s.moon.epoch, order := order, home := t, parts := if c.op = .flush then [] else parts
               waitCmds := if c.op = .flush then wc else [], waitRecs := if c.op = .flush then wr else [] })

/-! ### FLUSH (R337) -/

def recRetired (s : State) (t seq : Nat) : Bool :=
  match (getTile s t).amber.find? seq with
  | some r => r.retired
  | none => true

/-- Every FLUSH whose earlier writes have completed, and with DESTAGE whose records are retired, is finished. -/
def flushProgress (s : State) : State :=
  { s with cmds := s.cmds.map (fun c =>
      if c.op = .flush ∧ c.phase = .locked ∧ c.waitCmds.isEmpty ∧ c.waitRecs.all (fun r => recRetired s r.1 r.2) then
        { c with phase := .finished, status := 0 }
      else c) }

/-- A command leaves the device: its lock is released, and FLUSHes that waited for it wait for its records at most (R155, R337). -/
def removeCmd (s : State) (c : Cmd) : State :=
  let s := unlockCmd (dropCmd s c.id) c
  let recs := c.parts.filterMap (fun p => p.intent.map (fun q => (c.home, q)))
  let s := { s with cmds := s.cmds.map (fun f =>
    if f.op = .flush ∧ f.waitCmds.contains c.id then
      { f with waitCmds := f.waitCmds.filter (· != c.id), waitRecs := if f.destage then f.waitRecs ++ recs else f.waitRecs }
    else f) }
  flushProgress s

/-! ### Acknowledgment (R97-R99, R102, R157) -/

/-- Half the guard in ns: GUARD counts 0.5 µs (R96). -/
def halfGuard (s : State) : Nat := 250 * s.moon.guard

/-- The bit of a pool row (R130) set in its volume's active map (R102, R103). -/
def markRow (s : State) (vol row : Nat) : State :=
  let v := volCfg s vol
  if v.attr.getLsbD 0 && !(getVol s vol).noMap then
    modVol s vol (fun x => { x with active := addOnce x.active (row / 2 ^ mapShift (poolCfg s v.pool).poolRows) })
  else s

/-- The stamp of a write (R97, R98): its rows enter the change map, and its INTENTs carry the stamp by which a seal counts them (R107). -/
def stampWrite (s : State) (c : Cmd) : State :=
  c.parts.foldl (fun s p =>
    let s := markRow s c.vol p.row
    match p.intent with
    | some q => modAmber s c.home (fun a => a.adjust q (fun r => { r with stamp := some s.moon.epoch }))
    | none => s) s

/-- Whether an acknowledgment now falls in the guard window of an edge: of the next one or of the last (R97). -/
def beforeEdge (s : State) : Bool := decide (nextEdgeAt s ≤ s.clock + halfGuard s)
def afterEdge (s : State) : Bool := decide (s.clock < s.moon.edgeAt + halfGuard s)

/-- A command every part of which has reached its point or its data (R157, R329): finished, or a write held (R97). -/
def settleCmd (s : State) (id : Nat) : State :=
  match getCmd? s id with
  | none => s
  | some c =>
    if c.phase ≠ .locked ∨ c.op = .flush ∨ !c.parts.all (·.acked) ∨ c.parts.any (fun p => lstHeld s (volCfg s c.vol).pool p.row) then s
    else
      let st := (c.parts.map (·.status.toNat)).foldl max 0
      if c.mute && c.abortWaiting then modCmd (if isWriteOp c.op then stampWrite s c else s) id (fun c => { c with phase := .finished })
      else if c.mute then removeCmd (if isWriteOp c.op then stampWrite s c else s) c
      else if isReadOp c.op ∨ st ≠ 0 then finishCmd s id (BitVec.ofNat 16 st)
      else if (volCfg s c.vol).attr.getLsbD 0 && (beforeEdge s || afterEdge s) then
        modCmd s id (fun c => { c with phase := .held, heldFlag := true,
                                       stampEpoch := if beforeEdge s then nextEpoch s.moon else s.moon.epoch })
      else
        modCmd (stampWrite s c) id (fun c =>
          { c with phase := .finished, status := 0, stampEpoch := s.moon.epoch, stampOffset := nowOffset s })

/-- The Lost-Strip entries of a pool are on every metadata member: those beyond the MRAM slice are committed too, and what waited for them
goes on (R237). -/
def lstCommit (s : State) (pool : Nat) : State :=
  if s.mcmds.any (fun m => m.purpose == .lstWrite pool) then s
  else
    let s := modPool s pool (fun p => { p with lst := p.lst.map (fun e => { e with committed := true }) })
    s.cmds.foldl (fun s c => if (volCfg s c.vol).pool = pool then settleCmd s c.id else s) s

/-- The rows a running invalidation has begun take no new write (Table 6-9). -/
def invalBegun (s : State) (vol q : Nat) : Bool :=
  s.maints.any (fun m => (m.op == 1 || m.op == 2 || m.op == 7) && m.todo.contains (vol, q))

/-! ### INTENTs and placement (Table 4-1, R160, R161, R180) -/

/-- 64 KiB. -/
def smallBytes : Nat := 65536

/-- The first WB line's condition on the tile and the pool (Table 4-1, R48, R184). -/
def fastOk (s : State) (t pool : Nat) : Bool :=
  !(getTile s t).amber.high && (!unpaired s t || (mirrorLink s pool).isSome)

/-- The policy that decides a write part's line: UC while EN is 0 (R284), WT while CACHE_DISABLE runs (R287). -/
def effPolicy (s : State) (p : RowPart) : Nat :=
  if !s.cache.en then 3 else if s.cache.disabling.isSome then 1 else p.policy

/-- Data strips of a row on failed members that `mask` does not wholly cover (R160). -/
def reconOf (s : State) (pool row : Nat) (mask : BitVec 128) : List Nat :=
  let c := poolCfg s pool
  let pl := getPool s pool
  if degradedRow c pl row then
    (List.range c.k).filter (fun j =>
      isFailedIx pl.failList (poolIndex c row j) && !isLost pl row j && mask &&& stripMask j != stripMask j)
  else []

/-- Those of a part. -/
def reconStrips (s : State) (pool : Nat) (p : RowPart) : List Nat := reconOf s pool p.row (partMask p)

/-- How a write part is to be journaled: acknowledgment mode, whether a DATA record belongs to it and whether it is spilled. -/
structure Plan where
  mode : AckMode
  wantData : Bool
  spill : Bool

/-- Table 4-1 for a part (R157, R160, R161); `canSpill` says that its spill copy has room now. -/
def planPart (s : State) (c : Cmd) (p : RowPart) (canSpill : Bool) : Plan :=
  let pool := (volCfg s c.vol).pool
  let full := p.count == (poolCfg s pool).rowBlocks
  let degraded := degradedRow (poolCfg s pool) (getPool s pool) p.row
  let blocks := (if isZeroOp c.op then 0 else p.count) + 4 * (reconStrips s pool p).length
  let fast := decide (4096 * blocks ≤ smallBytes) && fastOk s c.home pool
  let pol := effPolicy s p
  if isZeroOp c.op && !full && blocks == 0 && (pol == 0 || pol == 3) then
    { mode := .mram, wantData := false, spill := false }
  else
    let mode : AckMode :=
      if full then .members
      else match pol with
        | 0 => if fast then .mram else if canSpill then .spill else .members
        | 3 => if fast then .mram else .members
        | _ => .members
    { mode := mode
      wantData := degraded || mode != .members
      spill := decide (0 < blocks) && (mode == .spill || (degraded && !fast && canSpill)) }

/-- Payload blocks of a part's DATA record. -/
def payloadBlocks (s : State) (c : Cmd) (p : RowPart) : Nat :=
  (if isZeroOp c.op then 0 else p.count) + 4 * (reconStrips s (volCfg s c.vol).pool p).length

/-- An earlier-accepted command of the tile has a part that still waits for its INTENT, for the same row or for the tile's ring and
limit (R163, R171): it goes first. -/
def intentAhead (s : State) (c : Cmd) (row : Nat) : Bool :=
  s.cmds.any (fun d => d.home == c.home && decide (d.order < c.order) && d.phase == .locked &&
    d.parts.any (fun p => p.waiting && p.intent.isNone && ((d.vol == c.vol && p.row == row) || rowHasRoom s d.home d.vol p.row)))

/-- The INTENT of part `i` appended, with its plan and its spill reservation (R164, R180); the part waits while the ring, the row
or the tile has no room for it (R163, R171). -/
def beginPart (s : State) (c : Cmd) (i : Nat) (p : RowPart) : State :=
  let t := c.home
  let a := (getTile s t).amber
  let v := volCfg s c.vol
  if !a.fits 64 || !a.hasRoom || !rowHasRoom s t c.vol p.row || intentAhead s c p.row then
    modPart s c.id i (fun p => { p with waiting := true })
  else
    let s := if (reconStrips s v.pool p).isEmpty then s else loseUnsynced s v.pool p.row
    let n := 1 + payloadBlocks s c p
    let res := reserveSpill s v.pool t n c.epoch
    let plan := planPart s c p res.isSome
    let s := match plan.spill, res with
      | true, some (_, s) => s
      | _, _ => s
    let ref := if plan.spill then (res.map (·.1)).getD 0 else 0
    let k := (poolCfg s v.pool).k
    let uc := effPolicy s p == 3
    let full := p.count == (poolCfg s v.pool).rowBlocks
    let need := reconStrips s v.pool p
    let slots := (maskStrips (partMask p) ++ [k, k + 1]).foldl (fun m j => m ||| (1#32 <<< j)) 0
    let r : Rec :=
      { kind := .intent, epoch := c.epoch, vol := c.vol, row := p.row, fullrow := full, spilled := plan.spill,
        zero := isZeroOp c.op, recon := !need.isEmpty, uc := uc, generation := nextGen s t c.vol p.row, slotMask := slots,
        blockMask := partMask p, seq := 0, ref := ref }
    let seq := a.nextSeq
    let s := appendRec s t r [] (c.op == .dealloc)
    let fid := s.nextId
    let s := if need.isEmpty then s else startFetch s v.pool p.row c.vol t 0xF need (.part c.id i) .host
    modPart s c.id i (fun p =>
      { p with intent := some seq, mode := plan.mode, wantData := plan.wantData, spillWanted := plan.spill,
               spillRef := if plan.spill then some ref else none, waiting := false, direct := uc || p.policy == 3, uc := uc,
               reconNeed := need, reconReady := need.isEmpty, fetches := if need.isEmpty then [] else [fid] })

/-! ### Writes into the tier (Tables 6-3, 6-4) -/

/-- A write merged into the tier: whether it could be, and the tier as the attempt leaves it. -/
def mergeWrite (t : Tier) (repl : Bool) (k vol row : Nat) (mask : BitVec 128) (data : Mem) : Bool × Tier :=
  let into (t : Tier) (i : Nat) : Bool × Tier :=
    (true, useLine (modLine t i (fun l =>
      let c := l.c.write k mask data
      { l with c := c, st := match l.st with | .clean => .dirty | x => x })) i)
  match findLine? t vol row with
  | some (i, l) => if l.st == .writing && l.mask &&& mask != 0 then (false, t) else into t i
  | none =>
    if (findEvb? t vol row).isSome then (false, t)
    else
      match findSide? t vol row, findSlot? t vol row with
      | some (e, x), _ =>
        if x.filling then
          let t := { t with side := Tab.adjust t.side e (fun x => { x with kill := true }) }
          match takeLine t repl with
          | (some i, t) => (true, putLine t i { st := .dirty, c := ({ vol := vol, row := row } : CRow).write k mask data })
          | (none, t) => (false, t)
        else
          match moveIn t repl vol row with
          | (some i, t) => into t i
          | (none, t) => (false, t)
      | none, some (_, sl) =>
        if sl.st = 3 then (false, t)
        else
          match moveIn t repl vol row with
          | (some i, t) => into t i
          | (none, t) => (false, t)
      | none, none =>
        match takeLine t repl with
        | (some i, t) => (true, putLine t i { st := .dirty, c := ({ vol := vol, row := row } : CRow).write k mask data })
        | (none, t) => (false, t)

/-- The tier's part in a write part: merged, or for UC and EN = 0 made to hold no stale copy (R162, R262, R284). -/
def tierWrite (s : State) (c : Cmd) (p : RowPart) (data : Mem) : Bool × State :=
  let t := c.home
  let tier := (getTile s t).tier
  let k := (poolOfVol s c.vol).k
  let mask := partMask p
  let ucOthers := (ucRecords (getTile s t).amber c.vol p.row).any (fun r => some r.seq != p.intent && some r.ref != p.intent)
  if !s.cache.en then (true, modTier s t (fun x => mapRow x c.vol p.row (fun r => r.undirty mask)))
  else if p.direct then
    if tierDirty tier c.vol p.row ≠ 0 || ucOthers then (false, s)
    else (true, modTier s t (fun x => invalidateRow x c.vol p.row mask))
  else if ucOthers || invalBegun s c.vol p.q then (false, s)
  else
    let (ok, tier) := mergeWrite tier s.cache.repl k c.vol p.row mask data
    (ok, modTier s t (fun _ => tier))

/-- ZERO_LINE wins over a fill of its line: the line is Dirty at once (Table 6-9). -/
def zeroWins (s : State) (c : Cmd) (p : RowPart) : State :=
  match c.src, findLine? (getTile s c.home).tier c.vol p.row with
  | .maint _, some (i, l) =>
    if l.st = .filling then
      let s := l.fetches.foldl endFetch s
      modTier s c.home (fun t =>
        { modLine t i (fun l => { l with st := .dirty, kill := false, fetches := [] }) with classB := t.classB.filter (· != i) })
    else s
  | _, _ => s

/-- An earlier-accepted command of the tile has a part that waits for a line (R261). -/
def lineAhead (s : State) (c : Cmd) : Bool :=
  s.cmds.any (fun d => d.home == c.home && decide (d.order < c.order) && d.phase == .locked &&
    d.parts.any (fun p => p.waiting && (p.intent.isSome || isReadOp d.op) &&
      (findLine? (getTile s c.home).tier d.vol p.row).isNone && (findEvb? (getTile s c.home).tier d.vol p.row).isNone))

/-- The DATA record of a part (R160, R161, R174). The header of a spill copy, which has no place in a ring, carries SEQUENCE 0 (log entry
110). -/
def dataRecord (s : State) (c : Cmd) (i : Nat) (p : RowPart) : Rec :=
  let pool := (volCfg s c.vol).pool
  let zero := isZeroOp c.op
  let n := if zero then 0 else p.count
  let body := if zero then [] else packBlocks (partMask p) (partRow c i p)
  let strips := p.reconNeed.flatMap (fun j => [4 * j, 4 * j + 1, 4 * j + 2, 4 * j + 3])
  let rec_ := packFrom n p.recon strips
  let gen := (((getTile s c.home).amber.find? (p.intent.getD 0)).map (·.r.generation)).getD 0
  { kind := .data, epoch := c.epoch, vol := c.vol, row := p.row, recon := !p.reconNeed.isEmpty, zero := zero,
    fullrow := p.count == (poolCfg s pool).rowBlocks, spilled := p.spillWanted, uc := p.uc, generation := gen,
    slotMask := p.reconNeed.foldl (fun m j => m ||| (1#32 <<< j)) 0, blockMask := partMask p, seq := 0,
    ref := p.intent.getD 0, payloadBlocks := n + 4 * p.reconNeed.length, payload := Mem.xor body rec_ }

/-- A DATA payload as members and partners hold it: ciphertext where the volume is encrypted (section Encryption keys). -/
def wirePayload (s : State) (r : Rec) : Mem :=
  let mask := if r.zero then 0 else r.blockMask
  let n := maskCount mask
  let strips := (reconPositions r).flatMap (fun j => [4 * j, 4 * j + 1, 4 * j + 2, 4 * j + 3])
  let rmask := (reconPositions r).foldl (fun m j => m ||| stripMask j) 0
  Mem.xor (packBlocks mask (toMember s r.vol r.row mask (recordRow r))) (packFrom n (toMember s r.vol r.row rmask (reconRow r)) strips)

/-- The image of a spill copy: one 4 KiB header block, then the payload (R179). -/
def spillImage (r : Rec) (payload : Mem) : Mem :=
  Mem.paste (Mem.ofList (recHeader { r with payload := payload })) 4096 (4096 * r.payloadBlocks) payload

/-- The two writes of a spill copy (R179), at its REF in the journal extent area (R178). -/
def spillWrites (s : State) (t ref : Nat) (r : Rec) (purpose : Purpose) : State :=
  let pool := (volCfg s r.vol).pool
  let img := spillImage r (wirePayload s r)
  (mirrorMembers s pool).foldl
    (fun s m => issueM s pool m t .write (16 * 2 ^ 30 + 4096 * ref) (4096 * (1 + r.payloadBlocks)) img purpose .host) s

/-- A part whose row is broken changes nothing: status 0x0041, its INTENT retired (R239). -/
def brokenPart (s : State) (c : Cmd) (i : Nat) (p : RowPart) : State :=
  let s := reportBroken s (volCfg s c.vol).pool
  let s := match p.intent with
    | some q => retireIntent s c.home q
    | none => s
  modPart s c.id i (fun p => { p with status := 0x0041, acked := true, taken := true, waiting := false })

/-- Strips whose Lost-Strip entry a write of `mask` removes (R235). -/
def clearLost (s : State) (pool row : Nat) (mask : BitVec 128) : State :=
  let gone := (lostStrips s pool row).filter (fun j => mask &&& stripMask j == stripMask j)
  if gone.isEmpty then s
  else modPool (lstRemove s pool row mask) pool (fun p => { p with fresh := p.fresh ++ gone.map (fun j => (row, j)) })

/-- A WA part acknowledged: the row leaves the tier when it holds no dirty bit; a Filling line takes Kill (Table 6-3). -/
def waFree (s : State) (t vol row : Nat) : State :=
  if tierDirty (getTile s t).tier vol row ≠ 0 then s
  else modTier s t (fun x =>
    let x : Tier := { x with lines := x.lines.map (fun (e : Nat × Line) =>
      if e.2.c.is vol row ∧ e.2.st = .filling then (e.1, { e.2 with kill := true }) else e) }
    { x with
      lines := x.lines.filter (fun (e : Nat × Line) => !(e.2.c.is vol row && (e.2.st == .clean || e.2.st == .dirty)))
      store := x.store.filter (fun (e : Nat × Slot) => !(e.2.c.is vol row && e.2.st != 3)) })

/-- The part's records are in place as far as its mode asks: from MRAM, from the spill copies, or with its member writes complete and
its RETIREs committed (Table 4-1, R159). -/
def ackPart (s : State) (c : Cmd) (i : Nat) : State :=
  match (getCmd? s c.id).bind (·.parts[i]?) with
  | none => s
  | some p =>
    if p.acked || !p.taken then s
    else
      let inOk := match p.intent with
        | some q => isCommitted s c.home q
        | none => false
      let dataOk := match p.dataRec with
        | some q => isCommitted s c.home q
        | none => true
      let ready := match p.mode with
        | .mram => inOk && dataOk
        | .spill => inOk && p.spills == 0
        | .members => (match p.retires with
          | some l => l.all (isCommitted s c.home)
          | none => false)
      if !ready then s
      else
        let s := modPart s c.id i (fun p => { p with acked := true })
        settleCmd (if p.mode = .members ∧ p.policy = 2 then waFree s c.home c.vol p.row else s) c.id

/-- A part whose INTENT was written under another policy, taken while EN is 0 (R284): its records carry UC and its data touches no line;
one that was to spill takes the UC lines of Table 4-1. -/
def ucPart (s : State) (c : Cmd) (p : RowPart) : RowPart :=
  if s.cache.en || p.uc then p
  else
    let pool := (volCfg s c.vol).pool
    let spilled := p.mode == .spill
    let fast := decide (4096 * payloadBlocks s c p ≤ smallBytes) && fastOk s c.home pool
    { p with
      uc := true, direct := true
      mode := if spilled then (if fast then .mram else .members) else p.mode
      spillWanted := p.spillWanted && !spilled
      wantData := p.wantData && (!spilled || fast || degradedRow (poolCfg s pool) (getPool s pool) p.row) }

/-- Payload that has arrived goes to both halves as it comes (R164): the part's DATA record is opened with the first of it, when the
ring has room. -/
def streamPart (s : State) (c : Cmd) (i : Nat) (p : RowPart) : State :=
  if p.taken || p.intent.isNone || !p.wantData || p.spillWanted || isZeroOp c.op || c.arrived.isEmpty then s
  else
    let r := dataRecord s c i p
    match p.dataRec with
    | some q => fillRec s c.home q r.payload
    | none =>
      if !(getTile s c.home).amber.fits (recBytes r) then s
      else
        let seq := (getTile s c.home).amber.nextSeq
        modPart (openRec s c.home r) c.id i (fun p => { p with dataRec := some seq })

/-- The data of part `i`, arrived in full, taken into the tier and the journal (R33 step 5, R164); the part waits while its row's
state, a line or the ring does not allow it. -/
def takePart (s : State) (c : Cmd) (i : Nat) (p : RowPart) : State :=
  let pool := (volCfg s c.vol).pool
  if p.intent.isNone || p.taken || !p.reconReady || !(isZeroOp c.op || partArrived c i p) then s
  else if isBroken s pool p.row then settleCmd (brokenPart s c i p) c.id
  else
    let p := ucPart s c p
    let r := dataRecord s c i p
    let a := (getTile s c.home).amber
    let inRing := p.wantData && !p.spillWanted
    if inRing && p.dataRec.isNone && !a.fits (recBytes r) then modPart s c.id i (fun p => { p with waiting := true })
    else
      let (ok, s) := tierWrite s c p (partRow c i p)
      if !ok then modPart s c.id i (fun p => { p with waiting := true })
      else
        let s := clearLost (zeroWins s c p) pool p.row (partMask p)
        let seq := p.dataRec.getD (getTile s c.home).amber.nextSeq
        let s := if !inRing then s
          else if p.dataRec.isSome then closeRec s c.home seq r (wirePayload s r)
          else appendRec s c.home r (wirePayload s r) false
        let s := if p.wantData && p.spillWanted then spillWrites s c.home (p.spillRef.getD 0) r (.spill c.id i) else s
        let s := modPart s c.id i (fun x =>
          { x with taken := true, waiting := false, dataRec := if inRing then some seq else none
                   spills := if p.wantData && p.spillWanted then 2 else 0
                   mode := p.mode, uc := p.uc, direct := p.direct, spillWanted := p.spillWanted, wantData := p.wantData })
        ackPart s c i

/-- A write part advanced as far as it goes: INTENT, then data. -/
def advancePart (s : State) (c : Cmd) (i : Nat) : State :=
  match c.parts[i]? with
  | none => s
  | some p =>
    let s := if p.intent.isNone then beginPart s c i p else s
    match getCmd? s c.id with
    | none => s
    | some c => (match c.parts[i]? with
      | none => s
      | some p =>
        let s := streamPart s c i p
        (match (getCmd? s c.id).bind (·.parts[i]?) with
         | some p => takePart s c i p
         | none => s))

/-! ### ECC errors (R289, R290, R293) -/

/-- Payload blocks a spill copy may hold: the blocks named and the strips of failed members (R160, R179). -/
def spillLen (s : State) (pool : Nat) (i : Rec) : Nat :=
  (if i.zero then 0 else maskCount i.blockMask) + (if i.recon then 4 * (getPool s pool).failList.length else 0)

/-- A spill copy matches its INTENT (R197): the five fields, and REF unless the INTENT is a relocated copy; its CRC is good. -/
def spillMatches (i y : Rec) (b : List Byte) : Bool :=
  b.take 64 == recHeader y && y.kind == .data && y.vol == i.vol && y.row == i.row && y.generation == i.generation && y.epoch == i.epoch &&
    y.blockMask == i.blockMask && (i.relocated || y.ref == i.seq)

/-- A spill copy read from a member: the record in its bytes, when it matches the INTENT. -/
def spillCopy (i : Rec) (data : Mem) : Option Rec :=
  let b := Mem.bytes data 0 64
  let y := recOfBytes b (Mem.slice data 4096 (4096 * (leField b 2 2 / 64)))
  if spillMatches i y b then some y else none

/-- The newest unretired DATA record or ZERO INTENT that covers a block (R290): the record, and whether it lies in the journal extents. -/
def blockSource (s : State) (t vol row b : Nat) : Option (Nat × Rec × Bool) :=
  (rowIntents s t vol row).foldl (fun acc e =>
    let i := e.2.r
    if !i.blockMask.getLsbD b then acc
    else if i.zero then some (e.1, i, false)
    else match (getTile s e.1).amber.recs.find? (fun d => d.r.kind == .data && d.r.ref == i.seq && !d.open_) with
      | some d => some (e.1, d.r, false)
      | none => if i.spilled && !i.fullrow then some (e.1, i, true) else acc) none

/-- A block's content put back into the tier from a record (R290). -/
def restoreBlock (s : State) (t vol row b : Nat) (img : Mem) : State :=
  fault0 (modTier s t (fun x => mapRow x vol row (fun c => { c with data := Mem.mergeBlocks c.data img (blockMask b 1) }))) 0x3003 1 (srcAgate t)

/-- No copy of a dirty block is good: it is unrecoverable until a write covers it (R290). -/
def markUnrec (s : State) (t vol row b : Nat) : State :=
  fault (modTier s t (fun x => mapRow x vol row (fun c => { c with unrec := c.unrec ||| blockMask b 1 })))
    { code := 0x3009, cls := 3, src := srcAgate t, acted := true }

/-- The read of one of the two spill copies of an INTENT, for block `b` of its row (R290). -/
def readUe (s : State) (t ring b which : Nat) (i : Rec) : State :=
  let pool := (volCfg s i.vol).pool
  issueM s pool ((mirrorMembers s pool).getD which 0) t .read (16 * 2 ^ 30 + 4096 * i.ref) (4096 * (1 + spillLen s pool i)) []
    (.ueRead ring i.seq i.vol i.row b which) .host

/-- An uncorrectable error in block `b` of a row (R290). -/
def uncorrectable (s : State) (t vol row b : Nat) : State :=
  let s := { s with cache := { s.cache with ueSeen := true } }
  let dirty := tierDirty (getTile s t).tier vol row
  let s := modTier s t (fun x => { x with nUe := x.nUe + 1 })
  if !dirty.getLsbD b then modTier s t (fun x => mapRow x vol row (fun c => c.invalidate (blockMask b 1)))
  else
    match blockSource s t vol row b with
    | some (_, r, false) => restoreBlock s t vol row b (recordRow r)
    | some (ring, i, true) =>
      if (getTile s t).tier.recovering.contains (vol, row, b) then s
      else readUe (modTier s t (fun x => { x with recovering := x.recovering ++ [(vol, row, b)] })) t ring b 0 i
    | none => markUnrec s t vol row b

/-- Blocks of a row whose content is being recovered. -/
def recoveringMask (t : Tier) (vol row : Nat) : BitVec 128 :=
  t.recovering.foldl (fun m e => if e.1 = vol ∧ e.2.1 = row then m ||| blockMask e.2.2 1 else m) 0

/-- A correctable error of a line counted (R289): from 1 again when it comes more than 3,600 s after the first it counts. -/
def countCe (s : State) (t line : Nat) : State :=
  modTier s t (fun x =>
    let e := Tab.getD x.ce line {}
    { x with
      nCe := x.nCe + 1
      ce := Tab.set x.ce line
        (if e.count = 0 ∨ e.first + 3600000000000 < s.clock then { count := 1, first := s.clock } else { e with count := e.count + 1 }) })

/-- A line read: the draw says whether a correctable error was met (R289). -/
def checkLine (s : State) (t line : Nat) : State := if Config.lineError s.freeIx then countCe (drawn s) t line else drawn s

/-- A slot leaves the free list until SYS_RESET_N (R293). -/
def dropSlot (s : State) (t slot : Nat) : State :=
  if (getTile s t).tier.badSlots.contains slot then s
  else
    let s := fault0 (modTier s t (fun x => { x with badSlots := x.badSlots ++ [slot] })) 0x3007 1 (srcAgate t)
    let n := (getTile s t).tier.badSlots.length
    let all := storeSlots (getTile s t).tier
    if all < 100 * n ∧ 100 * (n - 1) ≤ all then fault (drawn s) { code := (Config.free s.freeIx).setWidth 16, cls := 2, src := srcAgate t } else s

/-- A store slot read: the draw says whether, and in which block, an uncorrectable error was met (R290, R293). -/
def checkSlot (s : State) (t slot : Nat) (c : CRow) : State :=
  match Config.slotError s.freeIx with
  | none => drawn s
  | some b => if c.valid.getLsbD b.toNat then dropSlot (uncorrectable (drawn s) t c.vol c.row b.toNat) t slot else drawn s

/-! ### Reads (R36, Table 6-4) -/

/-- Blocks of a row copied into a read's data. -/
def copyRead (s : State) (c : Cmd) (i : Nat) (p : RowPart) (mask : BitVec 128) (row : Mem) : State :=
  let img := Mem.slice (Mem.onlyBlocks row mask) (4096 * p.first) (4096 * p.count)
  let base := 4096 * partBase c.parts i
  modCmd s c.id (fun x => { x with data := (img.foldl (fun acc e => Mem.set acc (base + e.1) e.2) x.data) })

/-- A fetch from members straight into a read's buffer. -/
def fetchPart (s : State) (c : Cmd) (i : Nat) (p : RowPart) (mask : BitVec 128) : State :=
  let s := startFetch s (volCfg s c.vol).pool p.row c.vol c.home (maskCols mask) (maskStrips mask) (.part c.id i) .host
  let fid := lastFetch s
  modPart s c.id i (fun p => { p with fetches := p.fetches ++ [fid], missing := p.missing ||| mask, waiting := false })

/-- A read part has its data or its status. -/
def endPart (s : State) (c : Cmd) (i : Nat) (st : Status) : State :=
  modPart s c.id i (fun p => { p with acked := true, waiting := false, status := st })

/-- A fetch of a row into an Agate line that fills (Table 6-3). -/
def fillLine (s : State) (t line pool row vol : Nat) (cols : BitVec 4) (strips : List Nat) : State :=
  let s := startFetch s pool row vol t cols strips (.line t line) .host
  let fid := lastFetch s
  modTier s t (fun x => modLine x line (fun l => { l with st := .filling, fetches := l.fetches ++ [fid] }))

/-- A read served from what a part of the tier holds, the rest fetched into its buffer. -/
def serveFrom (s : State) (c : Cmd) (i : Nat) (p : RowPart) (need : BitVec 128) (r : CRow) : State :=
  let s := copyRead s c i p (need &&& r.valid) r.data
  let st : Status := if r.unrec &&& need ≠ 0 then 0x0043 else 0
  if need &&& ~~~r.valid = 0 then endPart s c i st
  else modPart (fetchPart s c i p (need &&& ~~~r.valid)) c.id i (fun p => { p with status := st })

/-- The state of a read that a Filling line, or the want of a line, holds up. -/
def waitRead (s : State) (c : Cmd) (i : Nat) : State := modPart s c.id i (fun p => { p with waiting := true })

/-- A hit on an Agate line: a use of it (R263), the first hit on a class B fill counted (R296). -/
def hitLine (t : Tier) (line : Nat) (l : Line) : Tier :=
  useLine { modLine t line (fun l => { l with byB := false }) with nHitB := if l.byB then t.nHitB + 1 else t.nHitB } line

/-- A read part looked up in the tier for the blocks `need` (Table 6-4). A part that waited is not counted again when it looks up
again. -/
def lookupRead (s : State) (c : Cmd) (i : Nat) (p : RowPart) (need : BitVec 128) : State :=
  let t := c.home
  let pool := (volCfg s c.vol).pool
  let uc := p.policy == 3
  let note (s : State) (part : Nat) (r : CRow) : State :=
    if p.waiting then s else modTier s t (fun x => noteLookup x part (need &&& ~~~r.valid == 0))
  let fresh (s : State) : State :=
    match takeLine (getTile s t).tier s.cache.repl with
    | (some l, tier) =>
      waitRead (fillLine (modTier s t (fun _ => putLine tier l { st := .filling, c := { vol := c.vol, row := p.row } })) t l pool
        p.row c.vol 0xF (maskStrips need)) c i
    | (none, tier) => waitRead (modTier s t (fun _ => tier)) c i
  let viaLine (s : State) (line : Nat) (l : Line) : State :=
    let miss := need &&& ~~~l.c.valid
    if miss = 0 then serveFrom (checkLine (modTier s t (fun x => hitLine x line l)) t line) c i p need l.c
    else match l.st with
      | .filling => waitRead s c i
      | .writing => serveFrom s c i p need l.c
      | _ =>
        if uc then serveFrom s c i p need l.c
        else waitRead (fillLine s t line pool p.row c.vol (maskCols miss) (maskStrips miss)) c i
  let tier := (getTile s t).tier
  match findLine? tier c.vol p.row with
  | some (line, l) => viaLine (note s 0 l.c) line l
  | none =>
    match findEvb? tier c.vol p.row, findSide? tier c.vol p.row, findSlot? tier c.vol p.row with
    | some (_, r), _, _ => serveFrom (note s 1 r) c i p need r
    | none, some (e, x), _ =>
      if x.filling then
        let s := modTier (note s 2 x.c) t (fun y => { y with side := Tab.adjust y.side e (fun x => { x with kill := true }) })
        if uc then fetchPart s c i p need else fresh s
      else
        let s := modTier (note s 2 x.c) t (fun y => { y with nHitA := if p.waiting then y.nHitA else y.nHitA + 1 })
        if uc then serveFrom s c i p need x.c
        else match moveIn (getTile s t).tier s.cache.repl c.vol p.row with
          | (some l, tier) =>
            let s := modTier s t (fun _ => tier)
            (match Tab.get? (getTile s t).tier.lines l with
             | some x => viaLine s l x
             | none => waitRead s c i)
          | (none, tier) => waitRead (modTier s t (fun _ => tier)) c i
    | none, none, some (j, sl) =>
      let s := checkSlot (modTier (note s 3 sl.c) t (fun x => touchSlot x j)) t j sl.c
      if recoveringMask (getTile s t).tier c.vol p.row &&& need ≠ 0 then waitRead s c i
      else serveFrom s c i p need (((findSlot? (getTile s t).tier c.vol p.row).map (·.2.c)).getD sl.c)
    | none, none, none =>
      let s := note s 4 { vol := c.vol, row := p.row }
      if uc then fetchPart s c i p need else fresh s

/-- A read or VERIFY part served by the first source that holds each block (R36, R162, R234, R239, R284). -/
def serveRead (s : State) (c : Cmd) (i : Nat) (p : RowPart) : State :=
  let pool := (volCfg s c.vol).pool
  let mask := partMask p
  if touchesLost s pool p.row mask then settleCmd (endPart s c i 0x0040) c.id
  else if isBroken s pool p.row then settleCmd (endPart (reportBroken s pool) c i 0x0041) c.id
  else
    let a := (getTile s c.home).amber
    let um := ucMask a c.vol p.row &&& mask
    let s := if um = 0 then s else copyRead s c i p um (ucRow a c.vol p.row)
    let need := mask &&& ~~~um
    let s :=
      if need = 0 then endPart s c i 0
      else if recoveringMask (getTile s c.home).tier c.vol p.row &&& need ≠ 0 then waitRead s c i
      else if !s.cache.en then fetchPart s c i p need
      else lookupRead s c i p need
    settleCmd s c.id

/-- Read parts of a row that wait, looked up again (Table 6-9). -/
def resumeReads (s : State) (tile vol row : Nat) : State :=
  s.cmds.foldl (fun s c0 =>
    if c0.home = tile ∧ c0.vol = vol ∧ isReadOp c0.op ∧ c0.phase = .locked then
      (List.range c0.parts.length).foldl (fun s i =>
        match getCmd? s c0.id with
        | none => s
        | some c => (match c.parts[i]? with
          | some p => if p.row = row ∧ p.waiting ∧ !p.acked then serveRead s c i p else s
          | none => s)) s
    else s) s

/-- A spill copy read to recover a block (R290): the block put back, the other copy tried, or the block marked unrecoverable. -/
def gotUe (s : State) (ring seq vol row b which : Nat) (data : Option Mem) : State :=
  let t := homeTile s vol
  let ended (s : State) : State :=
    resumeReads (modTier s t (fun x => { x with recovering := x.recovering.filter (· != (vol, row, b)) })) t vol row
  if !(getTile s t).tier.recovering.contains (vol, row, b) then s
  else match (getTile s ring).amber.find? seq with
    | none => ended (modTier s t (fun x => mapRow x vol row (fun c => c.invalidate (blockMask b 1))))
    | some i =>
      match data.bind (spillCopy i.r) with
      | some y => ended (restoreBlock s t vol row b (fromMember s vol row y.blockMask (recordRow y)))
      | none => if which = 0 then readUe s t ring b 1 i.r else ended (markUnrec s t vol row b)

/-! ### Prefetch (R274-R277) -/

/-- The stream table after a read (R274): its entries, and whether the read continues a detected stream. -/
def streamStep (l : List (Nat × Nat × Nat)) (vol lba len : Nat) : List (Nat × Nat × Nat) × Bool :=
  match l.find? (fun e => e.1 == vol && e.2.1 == lba) with
  | some e => ((vol, lba + len, e.2.2 + 1) :: l.filter (· != e), decide (2 ≤ e.2.2 + 1))
  | none => (((vol, lba + len, 0) :: l).take 16, false)

/-- A row that prefetch skips (R275). -/
def skipPrefetch (s : State) (t vol q : Nat) : Bool :=
  let v := volCfg s vol
  decide (volRows v ≤ q) || inTier (getTile s t).tier vol (poolRowOf v q) || rowPolicy v q == 3 ||
    !(ucRecords (getTile s t).amber vol (poolRowOf v q)).isEmpty || isBroken s v.pool (poolRowOf v q) ||
    (unsynced s v.pool (poolRowOf v q) && !(missingData s v.pool (poolRowOf v q)).isEmpty)

/-- A side-buffer entry for a new row: a free one, else the oldest Clean one. -/
def sideEntry (t : Tier) : Option Nat :=
  match (List.range 8).find? (fun i => (Tab.get? t.side i).isNone) with
  | some i => some i
  | none =>
    let clean := t.side.filter (fun e => !e.2.filling)
    let first := (clean.map (·.2.age)).min?
    (clean.find? (fun e => some e.2.age == first)).map Prod.fst

/-- Class A: one row fetched into the side buffer. -/
def prefetchA (s : State) (t vol q : Nat) : State :=
  if skipPrefetch s t vol q then s
  else
    match sideEntry (getTile s t).tier with
    | none => s
    | some e =>
      let v := volCfg s vol
      let s := startFetch s v.pool (poolRowOf v q) vol t 0xF (List.range (poolCfg s v.pool).k) (.side t e) .host
      let fid := lastFetch s
      let x : SideEnt := { filling := true, c := { vol := vol, row := poolRowOf v q }, fetches := [fid], age := fid }
      modTier s t (fun y => { y with side := Tab.set y.side e x, nClassA := y.nClassA + 1 })

/-- Class B: one row fetched into an Agate line (R276). -/
def prefetchB (s : State) (t vol q : Nat) : State :=
  if !s.cache.pfb || !s.cache.en || skipPrefetch s t vol q || decide (8 ≤ (getTile s t).tier.classB.length) then s
  else
    match takeLine (getTile s t).tier s.cache.repl with
    | (none, tier) => modTier s t (fun _ => tier)
    | (some l, tier) =>
      let v := volCfg s vol
      let row := poolRowOf v q
      let s := modTier s t (fun _ =>
        { putLine tier l { st := .filling, c := { vol := vol, row := row }, byB := true } with
          classB := tier.classB ++ [l], nClassB := tier.nClassB + 1 })
      fillLine s t l v.pool row vol 0xF (List.range (poolCfg s v.pool).k)

/-- Prefetch after a read has been looked up: class A by volume attribute, PREFETCH flag or stream; class B on a miss when the
row has a strip that is not available, or for an SBT VERIFY (R274-R276). `missed` lists the volume rows that missed. -/
def prefetch (s : State) (c : Cmd) (missed : List Nat) : State :=
  let t := c.home
  let (st, stream) := streamStep (getTile s t).tier.streams c.vol c.lba c.len
  let s := if c.op = .read then modTier s t (fun x => { x with streams := st }) else s
  let classA := c.op == .read && (c.prefetch || stream || (volCfg s c.vol).attr.getLsbD 1)
  let depth := s.cache.pfDepth.toNat + 1
  let s := if classA && s.cache.pfa && s.cache.en then
      c.parts.foldl (fun s p => (List.range depth).foldl (fun s d => prefetchA s t c.vol (p.q + 1 + d)) s) s
    else s
  let pool := (volCfg s c.vol).pool
  c.parts.foldl (fun s p =>
    if missed.contains p.q && (c.op == .verify || !(missing (poolCfg s pool) (getPool s pool) p.row).isEmpty) then
      prefetchB s t c.vol (p.q + 1)
    else s) s

/-! ### The rows -/

/-- A command's message sent to its home tile, in the order of sending between the two tiles (R24, R28). -/
def sendForward (s : State) (c : Cmd) : State :=
  emit (modCmd (bump s) c.id (fun x => { x with fwd := some s.nextId })) (.forward c.rx (homeTile s c.vol) c.id)

/-- A command sent to its home tile (R28): at once when that is the receiving tile; held while the route between the two is being changed
(R24). -/
def forwardCmd (s : State) (c : Cmd) : State :=
  let s := modCmd s c.id (fun c => { c with phase := .forwarded, fwd := none })
  if homeTile s c.vol = c.rx || s.mesh.switching.contains (c.rx, homeTile s c.vol) then s else sendForward s c

/-- A command on its way between two tiles, and its place in the order of sending. -/
def underWay (s : State) (src dst : Nat) (c : Cmd) : Bool :=
  c.phase == .forwarded && c.rx == src && homeTile s c.vol == dst && c.fwd.isSome

/-- The command has reached its home tile: it needs no message, or no message sent before it between the same tiles is still on its way
(R24). -/
def arrivedHome (s : State) (c : Cmd) : Bool :=
  homeTile s c.vol == c.rx ||
    (c.fwd.isSome && !s.cmds.any (fun d => underWay s c.rx (homeTile s c.vol) d && decide (d.fwd.getD 0 < c.fwd.getD 0)))

/-- HOME_TILE_ACCEPTANCE (R24, R28, R29). -/
def execHomeTileAcceptance (id : Nat) (s : State) : Result :=
  match getCmd? s id with
  | none => .next s
  | some c =>
    if serving s && c.phase == .forwarded && arrivedHome s c && ((getVol s c.vol).st == .offline || tileUp s (homeTile s c.vol)) then
      done (flushProgress (acceptCmd s c))
    else .next s

/-- The command's lock entered in its home tile's table (R153). -/
def enterLock (s : State) (c : Cmd) : State :=
  let l : Lock := { holder := .cmd c.id, vol := c.vol, lba := c.lba, len := c.len, write := isWriteOp c.op }
  modCmd (modTile s c.home (fun t => { t with locks := t.locks ++ [l] })) c.id (fun c => { c with phase := .locked })

/-- The first `n` parts of a command worked on in order, each as it stands when its turn comes. -/
def eachPart (s : State) (id n : Nat) (f : State → Cmd → Nat → RowPart → State) : State :=
  (List.range n).foldl (fun s i =>
    match getCmd? s id with
    | none => s
    | some c => (match c.parts[i]? with
      | some p => f s c i p
      | none => s)) s

/-- A write part whose command has its lock (R33, R239). -/
def beginWrite (s : State) (c : Cmd) (i : Nat) (p : RowPart) : State :=
  if isBroken s (volCfg s c.vol).pool p.row then settleCmd (brokenPart s c i p) c.id else advancePart s c i

/-- Volume rows of a command's parts that no part of the tier holds. -/
def missedRows (s : State) (c : Cmd) : List Nat :=
  (c.parts.filter (fun p => !inTier (getTile s c.home).tier c.vol p.row)).map (·.q)

/-- RANGE_LOCK_GRANT (R154): the lock, then each part's INTENT or lookup. -/
def execRangeLockGrant (id : Nat) (s : State) : Result :=
  match getCmd? s id with
  | none => .next s
  | some c =>
    if !(serving s && tileUp s c.home && c.phase == .accepted && lockFree s c) then .next s
    else if isReadOp c.op then
      done (prefetch (eachPart (enterLock s c) c.id c.parts.length serveRead) c (missedRows s c))
    else done (eachPart (enterLock s c) c.id c.parts.length beginWrite)

/-- Parts whose INTENT or DATA record is `seq` of the tile's ring look at their acknowledgment point. -/
def ackRecord (s : State) (tile seq : Nat) : State :=
  s.cmds.foldl (fun s c =>
    if c.home = tile ∧ c.phase = .locked then
      (List.range c.parts.length).foldl (fun s i =>
        match c.parts[i]? with
        | some p => if p.intent = some seq ∨ p.dataRec = some seq ∨ (p.retires.getD []).contains seq then ackPart s c i else s
        | none => s) s
    else s) s

/-- JOURNAL_SPACE_WAIT_END (R171, R163, R162): a waiting part goes on. -/
def execJournalSpaceWaitEnd (id part : Nat) (s : State) : Result :=
  match getCmd? s id with
  | none => .next s
  | some c =>
    match c.parts[part]? with
    | none => .next s
    | some p =>
      if serving s && tileUp s c.home && c.phase == .locked && p.waiting && isWriteOp c.op then done (advancePart s c part)
      else .next s

/-- LINE_ALLOCATION (R261): the longest-waiting part that wants a line looks for it again. -/
def execLineAllocation (id part : Nat) (s : State) : Result :=
  match getCmd? s id with
  | none => .next s
  | some c =>
    match c.parts[part]? with
    | none => .next s
    | some p =>
      if !(serving s && tileUp s c.home && c.phase == .locked && p.waiting) || lineAhead s c then .next s
      else if isReadOp c.op then done (serveRead s c part p)
      else if p.intent.isSome then done (takePart s c part p)
      else .next s

/-- ACK_HOLD_RELEASE (R97): edge + guard/2 has come; the write carries the epoch that began at the edge. -/
def execAckHoldRelease (id : Nat) (s : State) : Result :=
  match getCmd? s id with
  | none => .next s
  | some c =>
    if fwUp s && c.phase == .held && decide (c.stampEpoch ≤ s.moon.epoch) then
      done (modCmd (stampWrite s c) id (fun c =>
        { c with phase := .finished, status := 0, stampEpoch := s.moon.epoch, stampOffset := nowOffset s }))
    else .next s

/-- Commands of a tile that wait for the route to their home tile, sent now. -/
def sendWaiting (s : State) (src dst : Nat) : State :=
  (s.cmds.filter (fun c => c.phase == .forwarded && c.rx == src && homeTile s c.vol == dst && c.fwd.isNone && src != dst)).foldl sendForward s

/-- ROUTE_SWITCH (R24): every message sent on the old route has been delivered; the new route is used, and what waited for it is sent. -/
def execRouteSwitch (src dst : Nat) (s : State) : Result :=
  if running s && s.mesh.switching.contains (src, dst) && !s.cmds.any (underWay s src dst) then
    done (sendWaiting { s with mesh := { s.mesh with switching := s.mesh.switching.filter (· != (src, dst)) } } src dst)
  else .next s

/-- Two tiles joined by a mesh link (Table 1-2). -/
def adjacent (p : Part) (a b : Nat) : Bool :=
  let x (t : Nat) := t % p.columns
  let y (t : Nat) := t / p.columns
  decide (a < p.tiles) && decide (b < p.tiles) &&
    ((y a == y b && (x a + 1 == x b || x b + 1 == x a)) || (x a == x b && (y a + 1 == y b || y b + 1 == y a)))

/-- A lost link between two tiles (R24). -/
def linkLost (s : State) (a b : Nat) : Bool := s.mesh.lostLinks.contains (min a b, max a b)

/-- MESH_HEARTBEAT (R39): one to each adjacent tile over the links that stand. -/
def execMeshHeartbeat (tile : Nat) (s : State) : Result :=
  if !(running s && tileUp s tile) then .next s
  else
    let dsts := (List.range s.part.tiles).filter (fun b => adjacent s.part tile b && tileUp s b && !linkLost s tile b)
    if dsts.isEmpty then .next s
    else done (emits (modTile s tile (fun t => { t with lastBeat := s.clock })) (dsts.map (fun b => .heartbeat tile b)))

end Sys2Proof.Machine
end

