-- ==== Sys2Proof/Machine/Destage.lean ====
section
/-! DEFINITION. Destage (R185-R188, R217, R259, R371): what a destage writes and reads, its parity, its member writes and its end;
relocation and the journal's own events. -/

namespace Sys2Proof.Machine

/-! ### What a row has to destage -/

/-- An INTENT whose part's data has not been taken yet: the destage cannot cover it. -/
def untaken (s : State) (t seq : Nat) : Bool :=
  s.cmds.any (fun c => c.home == t && c.parts.any (fun p => p.intent == some seq && !p.taken))

/-- Live parts of a row written without a line and without a DATA record: their data is in the command (UC lines of Table 4-1). -/
def directParts (s : State) (t vol row : Nat) : List (BitVec 128 × Mem) :=
  (s.cmds.filter (fun c => c.home == t && c.vol == vol && isWriteOp c.op)).flatMap (fun c =>
    (List.range c.parts.length).filterMap (fun i =>
      match c.parts[i]? with
      | some p =>
        if p.row == row && p.direct && p.mode == .members && p.taken && !p.acked then some (partMask p, partRow c i p) else none
      | none => none))

/-- The taken UC records of a row. -/
def takenUc (s : State) (t vol row : Nat) : List Rec :=
  (ucRecords (getTile s t).amber vol row).filter (fun r => !untaken s t (if r.kind == .intent then r.seq else r.ref))

/-- The line or slot whose dirty blocks a destage would take: dirty bits, valid bits and data. A Filling line is not ready. -/
def destageSource (t : Tier) (vol row : Nat) : Option CRow :=
  match findLine? t vol row with
  | some (_, l) => if l.st == .dirty || l.st == .clean then some l.c else none
  | none =>
    match findSlot? t vol row with
    | some (_, sl) => if sl.st = 3 then none else some sl.c
    | none => if (findEvb? t vol row).isSome then none else some { vol := vol, row := row }

/-- Blocks and content a destage of the row would write. -/
def destageData (s : State) (t vol row : Nat) (c : CRow) : BitVec 128 × Mem :=
  let base := (c.dirty, Mem.onlyBlocks c.data c.dirty)
  let uc := (takenUc s t vol row).map (fun r => (r.blockMask, recordRow r))
  (uc ++ directParts s t vol row).foldl (fun acc e => (acc.1 ||| e.1, Mem.mergeBlocks acc.2 e.2 e.1)) base

/-- The INTENTs of the row whose blocks the destage writes, in generation order. -/
def coveredIntents (s : State) (t vol row : Nat) (mask : BitVec 128) : List RingRec :=
  ((rowIntents s t vol row).filter (fun e => e.1 == t && e.2.r.blockMask &&& ~~~mask == 0 && !untaken s t e.2.r.seq)).map Prod.snd

/-- Blocks that are to hold zero, from the newest covered INTENT of each (R371). -/
def zeroMask (l : List RingRec) : BitVec 128 :=
  l.foldl (fun m r => if r.r.zero then m ||| r.r.blockMask else m &&& ~~~r.r.blockMask) 0

/-- Blocks that a DEALLOCATE is the last to have written. -/
def trimMask (l : List RingRec) : BitVec 128 :=
  l.foldl (fun m r => if r.trim then m ||| r.r.blockMask else m &&& ~~~r.r.blockMask) 0

/-- A destage of the row runs (R187). -/
def destaging (s : State) (vol row : Nat) : Bool := s.destages.any (fun d => d.vol == vol && d.row == row)

/-! ### Reads of a destage (R186, R217) -/

/-- The positions whose content on members counts as zero: lost, or written again since and not yet destaged (R234, R235). -/
def zeroStrips (s : State) (pool row : Nat) : List Nat :=
  lostStrips s pool row ++ ((getPool s pool).fresh.filter (fun e => e.1 == row)).map Prod.snd

/-- All columns of a strip valid in the row's line. -/
def stripValid (c : CRow) (j : Nat) : Bool := c.valid &&& stripMask j == stripMask j

/-- Strips that the line holds wholly valid, as members hold them or are to hold them: they count as already read (R186). -/
def knownStrips (s : State) (pool : Nat) (c : CRow) : List (Nat × Mem) :=
  let k := (poolCfg s pool).k
  ((List.range (k + 2)).filter (fun j => stripValid c j)).map (fun j =>
    (j, if j < k then Mem.slice (toMember s c.vol c.row (stripMask j) c.data) (16384 * j) 16384
        else Mem.slice c.data (16384 * j) 16384))

/-- Strips that read-modify-write reads. -/
def rmwReads (k : Nat) (mask : BitVec 128) (zeros known : List Nat) : List Nat :=
  (maskStrips mask).filter (fun j => !zeros.contains j && !known.contains j) ++
    [k, k + 1].filter (fun j => !known.contains j)

/-- Strips that reconstruct-write reads. -/
def recReads (k : Nat) (mask : BitVec 128) (zeros known : List Nat) : List Nat :=
  (List.range k).filter (fun j => mask &&& stripMask j != stripMask j && !zeros.contains j && !known.contains j)

/-- Every strip of a list has an available place. -/
def allAvailable (s : State) (pool row : Nat) (l : List Nat) : Bool :=
  l.all (fun j => (readPlace (poolCfg s pool) (getPool s pool) row j).isSome)

/-! ### Parity (R132, R186, R234) -/

/-- A strip's blocks as the destage leaves them. -/
def newStrip (d : Destage) (j : Nat) (old : Mem) : Mem :=
  Mem.mergeBlocks old (Mem.slice d.data (16384 * j) 16384) ((d.mask >>> (4 * j)) &&& 0xF)

/-- P and Q of a destage from the strips it has read, in block columns `cols`. Strips in the Lost-Strip Table count as zero. -/
def destageParity (s : State) (d : Destage) (got : List (Nat × Mem)) (cols : BitVec 4) : Mem × Mem :=
  let k := (poolCfg s d.pool).k
  let lost := lostStrips s d.pool d.row
  let zeros := zeroStrips s d.pool d.row
  let old (j : Nat) : Mem :=
    if zeros.contains j ∨ d.zeros.contains j then []
    else match Tab.get? d.known j with
      | some m => m
      | none => stripOf got j
  let fresh (j : Nat) : Mem := if lost.contains j then [] else newStrip d j (old j)
  if d.rmw then
    let js := (maskStrips d.mask).filter (fun j => decide (j < k))
    let dp := js.foldl (fun acc j => Mem.xor acc (Mem.xor (old j) (fresh j))) (old k)
    let dq := js.foldl (fun acc j => Mem.xor acc (Mem.scale (gfPow j) (Mem.xor (old j) (fresh j)))) (old (k + 1))
    (onlyCols cols dp, onlyCols cols dq)
  else
    let ds := (List.range k).map (fun j => onlyCols cols (fresh j))
    (parityP ds, parityQ ds)

/-! ### Member writes (R188, R371) -/

/-- The members a destage writes a strip to: its available places, and in the conversion of a broken row its home (R217, R240). -/
def destagePlaces (s : State) (d : Destage) (pos : Nat) : List Nat :=
  let c := poolCfg s d.pool
  let p := getPool s d.pool
  let ms := writePlaces c p d.row pos
  ms ++ (if d.homes && isFailedIx p.failList (poolIndex c d.row pos) then
    (homeOf c p.failList d.row (poolIndex c d.row pos)).toList.filter (fun m => !ms.contains m) else [])

/-- One member write of a destage, on every place of the strip. -/
def destageWrite (s : State) (d : Destage) (pos : Nat) (op : NvmeOp) (b n : Nat) (data : Mem) : State :=
  let c := poolCfg s d.pool
  (destagePlaces s d pos).foldl (fun s m =>
    let h := s.nextId
    let s := issueM s d.pool m d.tile op (blockOffset c d.row b) (4096 * n) data (.destage d.id pos) d.pipe d.cls
    modDestage s d.id (fun d => { d with writes := d.writes ++ [h] })) s

/-- The data writes of one strip: Dataset Management for a released strip, Write Zeroes for blocks that are to hold zero, Write
for the rest. -/
def stripWrites (s : State) (d : Destage) (zero : BitVec 128) (j : Nat) : State :=
  let m := d.mask
  let bs (z : Bool) : List Nat := (List.range 4).filter (fun b => m.getLsbD (4 * j + b) && (zero.getLsbD (4 * j + b) == z))
  if d.trim.contains j then destageWrite s d j .dsm 0 4 []
  else
    let s := (runs (bs true)).foldl (fun s r => destageWrite s d j .writeZeroes r.1 r.2 []) s
    (runs (bs false)).foldl (fun s r =>
      destageWrite s d j .write r.1 r.2 (Mem.slice d.data (16384 * j + 4096 * r.1) (4096 * r.2))) s

/-- The parity writes of a destage, always with Write (R371). -/
def parityWrites (s : State) (d : Destage) (cols : BitVec 4) : State :=
  let k := (poolCfg s d.pool).k
  let rs := runs ((List.range 4).filter (fun b => cols.getLsbD b))
  [(k, d.p), (k + 1, d.qs)].foldl (fun s (pos, m) =>
    rs.foldl (fun s r => destageWrite s d pos .write r.1 r.2 (Mem.slice m (4096 * r.1) (4096 * r.2))) s) s

/-- Block columns a destage recomputes: all of them when it resynchronises. -/
def destageCols (d : Destage) : BitVec 4 := if d.resync then 0xF else maskCols d.mask

/-- Citrine has the strips it needs: P and Q computed, and every member write issued (R185, R188). -/
def issueDestage (s : State) (did : Nat) (got : List (Nat × Mem)) : State :=
  match getDestage? s did with
  | none => s
  | some d =>
    let cols := destageCols d
    let (p, q) := destageParity s d got cols
    let cov := ((rowIntents s d.tile d.vol d.row).filter (fun e => d.intents.contains (e.1, e.2.r.seq))).map Prod.snd
    let zero := if (volKey s d.vol).isSome then 0 else zeroMask cov
    let d := { d with p := p, qs := q, issued := true, fetch := none }
    let s := modDestage s did (fun _ => d)
    let s := if d.salvage then
        (List.range (poolCfg s d.pool).k).foldl (fun s j => destageWrite s { d with homes := false } j .write 0 4 (stripOf got j))
          (modTier s d.tile (fun x => mapRow x d.vol d.row (fun c => c.invalidate (stripMask (poolCfg s d.pool).k ||| stripMask ((poolCfg s d.pool).k + 1)))))
      else d.zeros.foldl (fun s j => destageWrite s { d with homes := false } j .write 0 4 []) s
    let s := (maskStrips d.mask).foldl (fun s j => stripWrites s d zero j) s
    parityWrites s d cols

/-- A destage record entered, with its reads begun or, when none are needed, its writes issued; `bad` names blocks known to be unreadable. -/
def launchDestage (s : State) (d : Destage) (want : List Nat) (bad : List (Nat × BitVec 4) := []) : State :=
  let s := bump { s with destages := s.destages ++ [d] }
  if want.isEmpty then issueDestage s d.id []
  else
    let s := if want.any (fun j => (missingData s d.pool d.row).contains j) && !d.torn then loseUnsynced s d.pool d.row else s
    let f := s.nextId
    let s := modDestage s d.id (fun d => { d with fetch := some f })
    beginFetch s { id := 0, pool := d.pool, row := d.row, vol := d.vol, cols := destageCols d, want := want, dest := .destage d.id,
                   pipe := d.pipe, cls := d.cls, tile := d.tile, torn := d.torn, salvage := d.salvage, bad := bad }

/-- A destage of a row begun (Table 6-3, R185-R187): none when it cannot begin now. A wholly valid strip that the destage itself writes does
not count as read under read-modify-write: the line holds its new content (log entry 111). -/
def startDestage (s : State) (t vol row : Nat) : Option State :=
  let v := volCfg s vol
  let pool := v.pool
  let c := poolCfg s pool
  if destaging s vol row || (getPool s pool).st == .offline || isBroken s pool row || (getPool s pool).interlocks.contains row ||
      recoveringMask (getTile s t).tier vol row != 0 then none
  else
    match destageSource (getTile s t).tier vol row with
    | none => none
    | some src =>
      let (mask, data) := destageData s t vol row src
      if mask = 0 then none
      else
        let cov := coveredIntents s t vol row mask
        let known := if s.cache.en && !s.cache.staleRisk then knownStrips s pool src else []
        let kn := known.map Prod.fst
        let oldKnown := known.filter (fun e => mask &&& stripMask e.1 == 0)
        let zeros := zeroStrips s pool row
        let rmw := rmwReads c.k mask zeros (oldKnown.map Prod.fst)
        let rcw := recReads c.k mask zeros kn
        let useRmw := allAvailable s pool row rmw && decide (rmw.length ≤ rcw.length)
        let trims := if (volKey s vol).isSome then [] else (maskStrips mask).filter (fun j =>
          zeroMask cov &&& stripMask j == stripMask j && trimMask cov &&& stripMask j != 0 &&
            (writePlaces c (getPool s pool) row j).all (fun m => (getMember s m).dlfeat1))
        let s := modTier s t (fun x =>
          { x with
            lines := x.lines.map (fun e => if e.2.c.is vol row ∧ e.2.c.dirty ≠ 0 then (e.1, { e.2 with st := .writing, mask := e.2.c.dirty }) else e)
            store := x.store.map (fun e => if e.2.c.is vol row ∧ e.2.c.dirty ≠ 0 then (e.1, { e.2 with st := 3, mask := e.2.c.dirty }) else e) })
        let d : Destage :=
          { id := s.nextId, tile := t, pool := pool, vol := vol, q := volRowOf v row, row := row, mask := mask,
            data := toMember s vol row mask data, intents := cov.map (fun r => (t, r.r.seq)), rmw := useRmw, uc := src.dirty == 0,
            trim := trims, known := if useRmw then oldKnown else known }
        if unsynced s pool row then
          let want := (List.range c.k).filter (fun j => mask &&& stripMask j != stripMask j && !kn.contains j && !isLost (getPool s pool) row j)
          some (launchDestage s { d with rmw := false, resync := true, known := known } want)
        else some (launchDestage s d (if useRmw then rmw else rcw))

/-! ### Rows made consistent (R196, R233, R240) -/

/-- The volume to which a pool row belongs, if any. -/
def volOfRow (s : State) (pool row : Nat) : Option Nat :=
  (s.cfg.vols.find? (fun e => e.2.pool == pool && e.2.extents.contains (row / 1024))).map Prod.fst

/-- The volume of a row, or for a row of no volume a number no volume has. -/
def rowVol (s : State) (pool row : Nat) : Nat := (volOfRow s pool row).getD (65536 + pool)

/-- The tile that works on a row: its volume's home tile, for a row of no volume the rebuild tile. -/
def rowTile (s : State) (pool row : Nat) : Nat :=
  match volOfRow s pool row with
  | some v => homeTile s v
  | none => (getPool s pool).tile

/-- A resynchronising destage of a row (R196, R233, R240): data blocks `data` under `mask`, strips `known` without a read, strips `zeros`
that become zero; P and Q are recomputed from every data strip. -/
def startResync (s : State) (d : Destage) : State :=
  let d : Destage := { d with id := s.nextId, q := volRowOf (volCfg s d.vol) d.row, resync := true }
  launchDestage s d ((List.range (poolCfg s d.pool).k).filter (fun j =>
    d.mask &&& stripMask j != stripMask j && !d.zeros.contains j && !(d.known.any (fun e => e.1 == j)) && !isLost (getPool s d.pool) d.row j))

/-- A row whose strips have entered the LST made consistent (R233): every strip with a place is read, block by block but for the blocks
`bad`; each block column is recovered where it can be, P and Q are recomputed, and every strip is written to its available place. While a
destage of the row runs, or other work holds its interlock, this waits. `own` says that the work that calls it holds the interlock. -/
def startSalvage (s : State) (pool row : Nat) (bad : List (Nat × BitVec 4)) (own : Bool) (pipe : Pipe) (cls : Nat) : State :=
  let p := getPool s pool
  if destaging s (rowVol s pool row) row || (p.interlocks.contains row && !own) then
    modPool s pool (fun p => { p with salvages := p.salvages ++ [(row, bad)] })
  else
    let v := rowVol s pool row
    let d : Destage :=
      { id := s.nextId, tile := rowTile s pool row, pool := pool, vol := v, q := volRowOf (volCfg s v) row, row := row, mask := 0, data := [],
        intents := [], resync := true, salvage := true, homes := own, pipe := pipe, cls := cls }
    launchDestage s d ((List.range (poolCfg s pool).w).filter (fun j =>
      isLost p row j || (readPlace (poolCfg s pool) p row j).isSome)) bad

/-- The salvages of a pool that waited and can begin now. -/
def startSalvages (s : State) (pool : Nat) : State :=
  (getPool s pool).salvages.foldl (fun s e =>
    if destaging s (rowVol s pool e.1) e.1 || (getPool s pool).interlocks.contains e.1 || isBroken s pool e.1 then s
    else startSalvage (modPool s pool (fun p => { p with salvages := p.salvages.erase e })) pool e.1 e.2 false .host 1) s

/-- A destage given up before its writes: the row is Dirty again, and another destage begins later; a salvage waits again. -/
def cancelDestage (s : State) (did : Nat) : State :=
  match getDestage? s did with
  | none => s
  | some d =>
    let bad := ((d.fetch.bind (getFetch? s)).map (·.bad)).getD []
    let s := match d.fetch with
      | some f => endFetch s f
      | none => s
    let s := if d.salvage then modPool s d.pool (fun p => { p with salvages := p.salvages ++ [(d.row, bad)] }) else s
    modTier { s with destages := s.destages.filter (fun x => x.id != did) } d.tile (fun t =>
      { t with
        lines := t.lines.map (fun e => if e.2.c.is d.vol d.row ∧ e.2.st = .writing then (e.1, { e.2 with st := restState e.2.c, mask := 0 }) else e)
        store := t.store.map (fun e => if e.2.c.is d.vol d.row ∧ e.2.st = 3 then (e.1, { e.2 with st := if e.2.c.dirty = 0 then 1 else 2, mask := 0 }) else e) })

/-! ### The end of a destage (R188, Table 6-3) -/

/-- The tier's row after its destage: its mask clean, the new P and Q valid. -/
def CRow.destaged (c : CRow) (k : Nat) (mask : BitVec 128) (cols : BitVec 4) (p q : Mem) : CRow :=
  let bits (pos : Nat) : BitVec 128 := (cols.setWidth 128) <<< (4 * pos)
  let pq := bits k ||| bits (k + 1)
  let img := Mem.paste (Mem.paste [] (16384 * k) 16384 p) (16384 * (k + 1)) 16384 q
  { c with dirty := c.dirty &&& ~~~mask, valid := c.valid ||| pq, data := Mem.mergeBlocks c.data img pq }

def tierDestaged (t : Tier) (d : Destage) (k : Nat) : Tier :=
  let cols := destageCols d
  { t with
    lines := t.lines.map (fun e =>
      if e.2.c.is d.vol d.row ∧ e.2.st = .writing then
        let c := e.2.c.destaged k e.2.mask cols d.p d.qs
        (e.1, { e.2 with c := c, st := restState c, mask := 0 })
      else e)
    store := t.store.map (fun e =>
      if e.2.c.is d.vol d.row ∧ e.2.st = 3 then
        let c := e.2.c.destaged k e.2.mask cols d.p d.qs
        (e.1, { e.2 with c := c, st := if c.dirty = 0 then 1 else 2, mask := 0 })
      else e) }

/-- The parts whose INTENT is now retired reach the member-write acknowledgment point (R157, R159): they wait for the RETIRE records of
every INTENT that the destage covered, `retires`. -/
def ackMembers (s : State) (d : Destage) (retires : List Nat) : State :=
  s.cmds.foldl (fun s c0 =>
    if c0.home = d.tile then
      (List.range c0.parts.length).foldl (fun s i =>
        match (getCmd? s c0.id).bind (·.parts[i]?) with
        | none => s
        | some p =>
          if p.intent.any (fun q => d.intents.contains (d.tile, q)) && p.taken && !p.acked && p.mode == .members then
            ackPart (modPart s c0.id i (fun p => { p with retires := some retires })) c0 i
          else s) s
    else s) s

/-- The INTENTs of a destage retired: the SEQUENCEs of their RETIRE records on the home tile's own ring. -/
def retireAll (s : State) (d : Destage) : State × List Nat :=
  d.intents.foldl (fun (acc : State × List Nat) e =>
    let n := (getTile acc.1 e.1).amber.nextSeq
    let s := retireIntent acc.1 e.1 e.2
    (s, if e.1 = d.tile ∧ (getTile s e.1).amber.nextSeq ≠ n then acc.2 ++ [n] else acc.2)) (s, [])

/-- Everything DESTAGE_COMPLETE does to the journal, the tier and the commands (R188, R159, R41). -/
def endDestage (s : State) (d : Destage) : State :=
  let k := (poolCfg s d.pool).k
  let s := { s with destages := s.destages.filter (fun x => x.id != d.id) }
  let (s, retires) := retireAll s d
  let s := modTier s d.tile (fun t => tierDestaged t d k)
  let s := modPool s d.pool (fun p =>
    { p with synced := if d.resync && p.resyncAt.isSome then addOnce p.synced d.row else p.synced })
  let s := modPool s d.pool (fun p => { p with fresh := p.fresh.filter (fun e =>
    !(e.1 == d.row && d.mask &&& stripMask e.2 == stripMask e.2)) })
  let s := modTile s d.tile (fun t => { t with locks := t.locks.filter (fun l => match l.holder with
    | .adopted rt q => !d.intents.contains (rt, q)
    | _ => true) })
  startSalvages (flushProgress (ackMembers s d retires)) d.pool

/-! ### When the device destages of its own accord (R189, R259, R284) -/

/-- A request that destages a row although EN is 0: a write that waits for its members, a drain or stop, CACHE_DISABLE, a FLUSH
with DESTAGE, a seal. -/
def askedFor (s : State) (t vol row : Nat) : Bool :=
  s.cmds.any (fun c => c.home == t && c.vol == vol && c.parts.any (fun p => p.row == row && p.taken && !p.acked && p.mode == .members)) ||
    (getVol s vol).draining || s.cache.disabling.isSome ||
    s.cmds.any (fun c => c.op == .flush && c.waitRecs.any (fun r => (rowIntents s t vol row).any (fun e => (e.1, e.2.r.seq) == r))) ||
    (s.moon.sealActive && (volCfg s vol).attr.getLsbD 0 && (rowIntents s t vol row).any (fun e => stampedBelow e.2 s.moon.sealSt.es))

/-- The rows that are destaged first (R189): with records stamped below the E_s of an active seal, with the head record of a ring above
75 % occupancy, or with spill records whose second copy is being re-copied. -/
def urgentRow (s : State) (t vol row : Nat) : Bool :=
  let mine := rowIntents s t vol row
  let a := (getTile s t).amber
  (s.moon.sealActive && mine.any (fun e => stampedBelow e.2 s.moon.sealSt.es)) ||
    (a.high && (a.live.head?).any (fun h => h.r.vol == vol && h.r.row == row && (h.r.kind == .intent || h.r.kind == .data) && !h.r.partner)) ||
    (!(getPool s (volCfg s vol).pool).recopying.isEmpty && mine.any (fun e => e.2.r.spilled))

/-- A row of the tile that comes before the others could be destaged now (R189). -/
def urgentReady (s : State) (t : Nat) : Bool :=
  (getTile s t).amber.intents.any (fun r =>
    !r.r.partner && urgentRow s t r.r.vol r.r.row && (startDestage s t r.r.vol r.r.row).isSome)

/-- DESTAGE_START (R189, R259): a destage of volume row `row`; the rows of R189 go first. -/
def execDestageStart (vol row : Nat) (s : State) : Result :=
  let t := homeTile s vol
  let r := poolRowOf (volCfg s vol) row
  if !(serving s && tileUp s t) || s.hk.closing || (volCfg? s vol).isNone || !(s.cache.en || askedFor s t vol r) ||
      (!urgentRow s t vol r && urgentReady s t) then .next s
  else
    match startDestage s t vol r with
    | some s => done s
    | none => .next s

/-! ### Relocation and the journal's failure (R170, R194) -/

/-- Handles of records renamed after a relocation. -/
def renameSeq (s : State) (t old new : Nat) : State :=
  let f (o : Option Nat) : Option Nat := if o = some old then some new else o
  let g (e : Nat × Nat) : Nat × Nat := if e = (t, old) then (t, new) else e
  { s with
    cmds := s.cmds.map (fun c =>
      let c := { c with waitRecs := c.waitRecs.map g }
      if c.home = t then { c with parts := c.parts.map (fun p => { p with intent := f p.intent, dataRec := f p.dataRec }) } else c)
    tiles := s.tiles.map (fun (e : Nat × Tile) => (e.1, { e.2 with locks := e.2.locks.map (fun (l : Lock) =>
      if l.holder = .adopted t old then { l with holder := .adopted t new } else l) }))
    destages := s.destages.map (fun d => { d with intents := d.intents.map g })
    maints := s.maints.map (fun m => { m with discards := m.discards.map (fun d => if d.ring = t ∧ d.seq = old then { d with seq := new } else d) }) }

/-- A copy of a record at the tail (R170): written where the original is, and in a mirrored pool sent to the partner and confirmed (R181). A
record whose own commit is still to come is committed in its copy. -/
def copyRec (s : State) (t : Nat) (x : RingRec) (ref : Nat) : State :=
  let r := { x.r with relocated := true, ref := ref }
  let seq := (getTile s t).amber.nextSeq
  let link := recLink s r
  let whole := x.own || x.mirror
  let y : RingRec := { x with r := r, own := false, mirror := false, partnerWait := link.isSome, committed := false }
  let s := modAmber s t (fun a => a.append (if whole then { written s t y with committed := link.isNone } else y))
  match link with
  | none => s
  | some l => sendAwaited s l t seq { r with payload := if r.kind = .data then wirePayload s r else [] }

/-- RELOCATION (R170): the head INTENT and its DATA copied to the tail, the original retired; not while the row is replayed. A DATA record
whose payload still arrives stays where it is: its header, written last, names the copy. -/
def execRelocation (tile : Nat) (s : State) : Result :=
  let a := (getTile s tile).amber
  match a.live with
  | x :: _ =>
    if !(running s && ringServed s tile) || !a.high || a.failed || !(x.r.kind == .intent && x.committed) ||
        s.replays.any (fun y => y.intents.contains (tile, x.r.seq)) then .next s
    else
      let n := a.nextSeq
      let data? := a.recs.find? (fun r => r.r.kind == .data && r.r.ref == x.r.seq && !r.retired && !r.open_)
      let s := modAmber s tile (fun a => { a with recs := a.recs.map (fun r =>
        if r.open_ ∧ r.r.ref = x.r.seq then { r with r := { r.r with ref := n } } else r) })
      let s := copyRec s tile x x.r.ref
      let s := match data? with
        | some y => copyRec s tile y n
        | none => s
      let s := retireRec s tile x.r.seq
      let s := renameSeq s tile x.r.seq n
      let s := match data? with
        | some y => renameSeq s tile y.r.seq (n + 1)
        | none => s
      done (modAmber s tile (fun a => { a with relocations := a.relocations + 1 }))
  | [] => .next s

/-- MRAM_COMMIT_FAILURE (R194): F2 of the tile's Amber; writes that wait for a commit end with 0x0044. -/
def execMramCommitFailure (tile : Nat) (s : State) : Result :=
  if !(running s && tileUp s tile) || mramFailed s tile then .next s
  else
    let s := modAmber s tile (fun a => { a with failed := true })
    let s : State := { s with cmds := s.cmds.map (fun (c : Cmd) =>
      if c.home = tile ∧ c.phase = .locked ∧ isWriteOp c.op then
        { c with parts := c.parts.map (fun p => if p.acked then p else { p with acked := true, status := 0x0044 }) }
      else if c.home = tile ∧ c.phase = .locked ∧ c.op = .flush then { c with phase := .finished, status := 0x0044 }
      else c) }
    let s := s.cmds.foldl (fun s c => if c.home = tile then settleCmd s c.id else s) s
    done (fault0 s 0x2007 2 (srcAmber tile))

end Sys2Proof.Machine
end

