-- ==== Sys2Proof/Machine/Maint.lean ====
section
/-! DEFINITION. Maintenance operations, disable and enable, line retirement and the cache commands (R273, R278-R293, R296). -/

namespace Sys2Proof.Machine

/-! ### Records of the operations -/

def getMaint? (s : State) (id : Nat) : Option Maint := s.maints.find? (fun m => m.id == id)
def modMaint (s : State) (id : Nat) (f : Maint → Maint) : State :=
  { s with maints := s.maints.map (fun m => if m.id = id then f m else m) }

/-- RESULT of CACHE_OP and CACHE_MAINT (Table 10-9): removed or cleaned, written back, killed, skipped. -/
def maintResult (removed written killed skipped : Nat) : Nat :=
  removed % 2 ^ 20 + field 20 (written % 2 ^ 20) + field 40 (killed % 2 ^ 12) + field 52 (skipped % 2 ^ 12)

/-- The outcome of an operation goes to its ring entry or its mailbox (R283, R446). CACHE_ENABLE ends with EN set and
STALE_RISK clear (R287). -/
def reportMaint (s : State) (m : Maint) : State :=
  let r := maintResult m.removed m.written m.killed m.skipped
  match m.src with
  | .ring e => modLive s e (fun l => { l with outcome := some m.status, result := BitVec.ofNat 64 r })
  | .mailbox g =>
    let s := if s.cache.enabling = some g.mb then
        { s with cache := { s.cache with enabling := none, en := true, staleRisk := false, staleLogged := false } }
      else s
    mbxFinish s g.mb m.status 0 (leBytes 8 r)

/-- An operation all of whose rows are done. -/
def endMaint (s : State) (m : Maint) : State := reportMaint { s with maints := s.maints.filter (fun x => x.id != m.id) } m

/-! ### One row of an operation (Tables 6-8, 6-9) -/

/-- Killed Filling side-buffer entries of a row (Table 6-9). -/
def sideKilled (t : Tier) (vol row : Nat) : Bool := t.side.any (fun e => e.2.c.is vol row && e.2.kill)

/-- Kill set on a Filling line or side entry, counted once. -/
def killRow (s : State) (mid t vol row : Nat) : State :=
  let tier := (getTile s t).tier
  let fresh := match findLine? tier vol row with
    | some (_, l) => !l.kill
    | none => (findSide? tier vol row).isSome
  let s := if fresh then modMaint s mid (fun m => { m with killed := m.killed + 1 }) else s
  modTier s t (fun x =>
    { x with
      lines := x.lines.map (fun e => if e.2.c.is vol row ∧ e.2.st = .filling then (e.1, { e.2 with kill := true }) else e)
      side := x.side.map (fun e => if e.2.c.is vol row ∧ e.2.filling then (e.1, { e.2 with kill := true }) else e)
      nKill := if fresh then x.nKill + 1 else x.nKill })

/-- The row stands in a state an operation waits for: its fill (killed), its destage or its way to the store. None when the
operation can act on it. -/
def maintWait (s : State) (mid t vol row : Nat) : Option State :=
  let tier := (getTile s t).tier
  match findLine? tier vol row with
  | some (i, l) =>
    if l.st = .filling then some (killRow s mid t vol row)
    else if l.st = .writing ∨ tier.leaving.contains i then some s else none
  | none =>
    if (findEvb? tier vol row).isSome || sideKilled tier vol row then some s
    else match findSide? tier vol row, findSlot? tier vol row with
      | some (_, x), _ => if x.filling then some (killRow s mid t vol row) else none
      | none, some (_, sl) => if sl.st = 3 then some s else none
      | none, none => none

/-- A destage of the row asked for by an operation. -/
def maintDestage (s : State) (mid t vol row : Nat) : State :=
  match startDestage s t vol row with
  | some s => modMaint s mid (fun m => { m with written := m.written + 1 })
  | none => s

/-- The DATA record of a DEALLOCATE that a DISCARD makes in a degraded row: its RECON strips, from the row image `recon` (R160, R161). -/
def discardRecord (s : State) (d : Discard) (recon : Mem) : Rec :=
  let i := ((getTile s d.ring).amber.find? d.seq).map (·.r)
  { kind := .data, epoch := (i.map (·.epoch)).getD 0, vol := d.vol, row := d.row, recon := true, zero := true, spilled := d.spill.isSome,
    generation := (i.map (·.generation)).getD 0, slotMask := d.need.foldl (fun m j => m ||| (1#32 <<< j)) 0, blockMask := d.mask, seq := 0,
    ref := d.seq, payloadBlocks := 4 * d.need.length
    payload := packFrom 0 recon (d.need.flatMap (fun j => [4 * j, 4 * j + 1, 4 * j + 2, 4 * j + 3])) }

/-- The DEALLOCATEs of degraded rows that an operation has under way, changed for one row. -/
def modDiscard (s : State) (mid row : Nat) (f : Discard → Discard) : State :=
  modMaint s mid (fun m => { m with discards := m.discards.map (fun d => if d.row = row ∧ !d.ready then f d else d) })

/-- The fetch of the strips a DEALLOCATE's DATA record carries. -/
def fetchDiscard (s : State) (mid t : Nat) (d : Discard) : State :=
  startFetch s (volCfg s d.vol).pool d.row d.vol t 0xF d.need (.discard mid d.row) .host

/-- Its strips have come: the DATA record is written to the ring or to the spill copies (R160, R164, R179). -/
def feedDiscard (s : State) (mid row : Nat) (recon : Mem) : State :=
  match ((getMaint? s mid).map (·.discards)).bind (·.find? (fun d => d.row == row && !d.ready)) with
  | none => s
  | some d =>
    let r := discardRecord s d recon
    match d.spill, d.dataRec with
    | some ref, _ => modDiscard (spillWrites s d.ring ref r (.discardSpill mid row)) mid row (fun d => { d with spills := 2 })
    | none, some q => modDiscard (closeRec s d.ring q r (wirePayload s r)) mid row (fun d => { d with ready := true })
    | none, none => s

/-- The row's dirty blocks deallocated (R281): they become zero, under a ZERO INTENT with the operation's epoch, with a DATA record of the
RECON strips where the row is degraded (R160, R161). None while that record is not in place, or the ring or the row has no room. -/
def discardRow (s : State) (m : Maint) (t vol row : Nat) (dirty : BitVec 128) : Option State :=
  let a := (getTile s t).amber
  let have_ := (a.rowIntents vol row).foldl (fun b r => if r.r.zero && r.trim then b ||| r.r.blockMask else b) 0
  let left := dirty &&& ~~~have_
  let pool := (volCfg s vol).pool
  let need := reconOf s pool row left
  let n := 4 * need.length
  let bytes := if need.isEmpty then 0 else 64 + 4096 * n
  if m.discards.any (fun d => d.vol == vol && d.row == row && !d.ready) then none
  else if left = 0 then some s
  else if !a.fits (64 + bytes) || !a.hasRoom || !rowHasRoom s t vol row then none
  else
    let s := if need.isEmpty then s else loseUnsynced s pool row
    let fast := decide (4096 * n ≤ smallBytes) && fastOk s t pool
    let res := if need.isEmpty || fast then none else reserveSpill s pool t (1 + n) m.epoch
    let s := (res.map (·.2)).getD s
    let k := (poolCfg s pool).k
    let slots := (maskStrips left ++ [k, k + 1]).foldl (fun b j => b ||| (1#32 <<< j)) 0
    let r : Rec :=
      { kind := .intent, epoch := m.epoch, vol := vol, row := row, zero := true, recon := !need.isEmpty, spilled := res.isSome,
        generation := nextGen s t vol row, slotMask := slots, blockMask := left, seq := 0, ref := (res.map (·.1)).getD 0 }
    let d : Discard := { vol := vol, row := row, ring := t, seq := a.nextSeq, mask := left, need := need, spill := res.map (·.1) }
    let s := markRow (appendRec s t r [] true) vol row
    let s := modTier s t (fun x => mapRow x vol row (fun c => { c with data := Mem.mergeBlocks c.data [] left, unrec := c.unrec &&& ~~~left }))
    if need.isEmpty then some s
    else
      let q := (getTile s t).amber.nextSeq
      let s := if res.isSome then s else openRec s t (discardRecord s d [])
      let d := { d with dataRec := if res.isSome then none else some q }
      some (fetchDiscard (modMaint s m.id (fun m => { m with discards := m.discards ++ [d] })) m.id t d)

/-- One row of an invalidation: whether it is done (R281). -/
def invalRow (s : State) (m : Maint) (vol q : Nat) : State × Bool :=
  let t := homeTile s vol
  let row := poolRowOf (volCfg s vol) q
  let tier := (getTile s t).tier
  if !inTier tier vol row && !sideKilled tier vol row then (s, true)
  else if (findLine? tier vol row).any (fun e => e.2.locked) && !m.force then
    (modMaint s m.id (fun m => { m with skipped := m.skipped + 1 }), true)
  else
    match maintWait s m.id t vol row with
    | some s => (s, false)
    | none =>
      let s := modTier s t (fun x =>
        { x with
          lines := x.lines.map (fun e => if e.2.c.is vol row then (e.1, { e.2 with locked := false }) else e)
          lockOrder := x.lockOrder.filter (fun i => !(Tab.get? x.lines i).any (fun l => l.c.is vol row)) })
      let dirty := tierDirty (getTile s t).tier vol row
      if dirty = 0 then (modMaint (modTier s t (fun x => removeRow x vol row)) m.id (fun m => { m with removed := m.removed + 1 }), true)
      else if m.discard then
        if mramFailed s t then (modMaint s m.id (fun m => { m with status := 0x0044 }), true)
        else match discardRow s m t vol row dirty with
          | none => (s, false)
          | some s =>
            if ((getMaint? s m.id).map (·.discards)).any (fun l => l.any (fun d => d.vol == vol && d.row == row && !d.ready)) then (s, false)
            else ((startDestage s t vol row).getD s, false)
      else (maintDestage s m.id t vol row, false)

/-- One row of a CLEAN (Table 6-8). -/
def cleanRow (s : State) (m : Maint) (vol q : Nat) : State × Bool :=
  let t := homeTile s vol
  let row := poolRowOf (volCfg s vol) q
  let tier := (getTile s t).tier
  if !inTier tier vol row && !sideKilled tier vol row then (s, true)
  else
    match maintWait s m.id t vol row with
    | some s => (s, false)
    | none =>
      if tierDirty (getTile s t).tier vol row = 0 then (modMaint s m.id (fun m => { m with removed := m.removed + 1 }), true)
      else (maintDestage s m.id t vol row, false)

/-- Locked set on a line. -/
def lockLine (s : State) (t i : Nat) : State :=
  modTier s t (fun x => { modLine x i (fun l => { l with locked := true }) with lockOrder := i :: x.lockOrder.filter (· != i) })

/-- LOCK of a row (Table 6-8, Table 6-9): it waits for a fill, which it kills, and for a destage. -/
def lockRow (s : State) (m : Maint) (vol q : Nat) : State × Bool :=
  let t := homeTile s vol
  let v := volCfg s vol
  let row := poolRowOf v q
  let tier := (getTile s t).tier
  if (findLine? tier vol row).any (fun e => e.2.locked) then (s, true)
  else if liveLines tier ≤ lockedLines tier + 16 then (modMaint s m.id (fun m => { m with status := 0x0102 }), true)
  else
    match maintWait s m.id t vol row, findLine? tier vol row with
    | some s, _ => (s, false)
    | none, some (i, _) => (lockLine s t i, true)
    | none, none =>
      if inTier tier vol row then
        match moveIn tier s.cache.repl vol row with
        | (some i, tier) => (lockLine (modTier s t (fun _ => tier)) t i, true)
        | (none, tier) => (modTier s t (fun _ => tier), false)
      else
        match takeLine tier s.cache.repl with
        | (some i, tier) =>
          let s := modTier s t (fun _ => putLine tier i { st := .filling, c := { vol := vol, row := row } })
          (lockLine (fillLine s t i v.pool row vol 0xF (List.range (poolCfg s v.pool).k)) t i, true)
        | (none, tier) => (modTier s t (fun _ => tier), false)

/-- UNLOCK of a row (Table 6-8, Table 6-9). -/
def unlockRow (s : State) (m : Maint) (vol q : Nat) : State × Bool :=
  let t := homeTile s vol
  let row := poolRowOf (volCfg s vol) q
  match maintWait s m.id t vol row, findLine? (getTile s t).tier vol row with
  | some s, _ => (s, false)
  | none, some (i, _) =>
    (modTier s t (fun x => { modLine x i (fun l => { l with locked := false }) with lockOrder := x.lockOrder.filter (· != i) }), true)
  | none, none => (s, true)

/-- One row of an operation, by its code. -/
def maintRow (s : State) (m : Maint) (vol q : Nat) : State × Bool :=
  match m.op with
  | 3 => cleanRow s m vol q
  | 4 => cleanRow s m vol q
  | 5 => lockRow s m vol q
  | 6 => unlockRow s m vol q
  | _ => invalRow s m vol q

/-- An operation carried as far as it goes; it ends when no row is left. ZERO_LINE runs as a command (R279). -/
def maintPass (s : State) (m0 : Maint) : State :=
  if m0.op = 0 then s
  else
    let s := m0.todo.foldl (fun s r =>
      match getMaint? s m0.id with
      | none => s
      | some m =>
        let (s, fin) := maintRow s m r.1 r.2
        if fin then modMaint s m0.id (fun m => { m with todo := m.todo.filter (· != r) }) else s) s
    match getMaint? s m0.id with
    | some m => if m.todo.isEmpty then endMaint s m else s
    | none => s

/-- Every operation carried on after something it may have waited for. -/
def maintProgress (s : State) : State := s.maints.foldl maintPass s

/-! ### Beginning an operation -/

/-- Every row the tiers hold, as (volume, volume row). -/
def heldRows (s : State) : List (Nat × Nat) :=
  ((upTiles s).flatMap (fun t =>
    let x := (getTile s t).tier
    (x.lines.map (·.2.c) ++ x.evb.map (·.2) ++ x.side.map (·.2.c) ++ x.store.map (·.2.c)).map (fun c =>
      (c.vol, volRowOf (volCfg s c.vol) c.row)))).eraseDups

/-- The rows an operation acts on: the key itself, or the rows of its range that the tier holds (R280). -/
def maintRows (s : State) (op : Nat) (a : MaintArgs) : List (Nat × Nat) :=
  let n := (poolOfVol s a.vol).rowBlocks
  match op with
  | 7 => heldRows s
  | 2 => (heldRows s).filter (fun r => r.1 == a.vol && decide (a.first / n ≤ r.2) && decide (r.2 ≤ (a.first + a.count - 1) / n))
  | 4 => (heldRows s).filter (fun r => r.1 == a.vol && decide (a.first / n ≤ r.2) && decide (r.2 ≤ (a.first + a.count - 1) / n))
  | _ => [(a.vol, a.first)]

/-- The tile that received an operation and holds it until the home tile reports (R30): the ring's tile, or T0 for a mailbox. -/
def maintTile (s : State) (src : MaintSrc) (vol : Nat) : Nat :=
  match src with
  | .ring e => ((getLive? s e).map (fun l => sqTile s l.sq)).getD (homeTile s vol)
  | .mailbox _ => 0

/-- The operation entered; ZERO_LINE becomes a full-row ZERO command, sent to its volume's home tile unless that is
the tile which received it (R28, R279, R281). -/
def beginMaint (s : State) (src : MaintSrc) (op : Nat) (a : MaintArgs) : State :=
  let m : Maint :=
    { id := s.nextId, src := src, op := op, force := a.force, discard := a.discard, vol := a.vol, todo := maintRows s op a,
      epoch := s.moon.epoch }
  let s := bump { s with maints := s.maints ++ [m] }
  if op ≠ 0 then maintPass s m
  else if mramFailed s (homeTile s a.vol) then endMaint s { m with status := 0x0044 }
  else
    let n := (poolOfVol s a.vol).rowBlocks
    let c : Cmd :=
      { id := s.nextId, src := .maint m.id, rx := maintTile s src a.vol, op := .zeroes, vol := a.vol, lba := a.first * n, len := n,
        phase := .forwarded }
    let s := bump { s with cmds := s.cmds ++ [c] }
    if c.rx = homeTile s a.vol then acceptCmd s c else forwardCmd s c

/-- Kinds of operation (Table 6-8). -/
def maintIsKey (op : Nat) : Bool := op == 0 || op == 1 || op == 3 || op == 5 || op == 6
def maintFlags (op : Nat) : Bool := op == 1 || op == 2 || op == 7

/-- The field rules of Table 10-8 and the flags of Table 6-8, each field with its place in CACHE_MAINT's parameters (OP, VOLUME, COUNT,
FIRST). -/
def maintFields (op : Nat) (a : MaintArgs) : List (Nat × Bool) :=
  [(0, !a.reservedZero || ((a.force || a.discard) && !maintFlags op)),
   (2, decide (2 ^ 14 ≤ a.vol) || (op == 7 && a.vol != 0)),
   (4, if op = 7 ∨ maintIsKey op then a.count != 0 else a.count == 0),
   (8, if op = 7 then a.first != 0 else maintIsKey op && decide (2 ^ 40 ≤ a.first))]

/-- Some field breaks its rule. -/
def maintFormBad (op : Nat) (a : MaintArgs) : Bool := (maintFields op a).any (·.2)

/-- A key or range beyond its volume (R279). -/
def maintBeyond (s : State) (op : Nat) (a : MaintArgs) : Bool :=
  let v := volCfg s a.vol
  let n := (poolCfg s v.pool).rowBlocks
  if op = 7 then false
  else if maintIsKey op then decide (volRows v ≤ a.first)
  else decide (volRows v * n < a.first + a.count)

/-- The arguments a CACHE_OP entry's bytes spell (Table 10-8): operation code and operands. -/
def parseMaint (b : List Byte) : Nat × MaintArgs :=
  let f := leField b 8 1
  (bits f 3 0,
    { force := bit f 4, discard := bit f 5, vol := bits (leField b 10 2) 13 0, first := leField b 16 8, count := leField b 24 4,
      reservedZero := bits f 7 6 == 0 && leField b 9 1 == 0 && bits (leField b 10 2) 15 14 == 0 && leField b 12 4 == 0 &&
        (b.drop 28).all (· == 0) })

/-- An operation from its source: a dispatched CACHE_OP entry, or CACHE_MAINT of a mailbox (R279, R446). -/
def maintStart (s : State) (src : MaintSrc) (op : Nat) (a : MaintArgs) : Result :=
  match src with
  | .ring e =>
    (match getLive? s e with
     | none => .next s
     | some l =>
       if !serving s || l.started || l.outcome.isSome || l.opc != 0x20 || parseMaint l.bytes != (op, a) then .next s
       else done (beginMaint (modLive s e (fun l => { l with started := true })) src op a))
  | .mailbox g =>
    mbxRun s g true false 16
      ((0, op == 7 && g.mb != 0) :: maintFields op a)
      ((if op = 7 then [needReplay s] else volObj s g.mb a.vol 2) ++ [refuse (maintBeyond s op a) 0x0004])
      (if op = 7 then [] else [objVol a.vol])
      (fun s => beginMaint (mbxPark s g.mb (.cacheMaint 0) []) src op a)

/-- ZERO_LINE (R279). -/
def execZeroLine (src : MaintSrc) (a : MaintArgs) (s : State) : Result := maintStart s src 0 a

/-- INVAL_KEY (R281). -/
def execInvalKey (src : MaintSrc) (a : MaintArgs) (s : State) : Result := maintStart s src 1 a

/-- INVAL_RANGE (R281). -/
def execInvalRange (src : MaintSrc) (a : MaintArgs) (s : State) : Result := maintStart s src 2 a

/-- CLEAN_KEY (R279). -/
def execCleanKey (src : MaintSrc) (a : MaintArgs) (s : State) : Result := maintStart s src 3 a

/-- CLEAN_RANGE (R279). -/
def execCleanRange (src : MaintSrc) (a : MaintArgs) (s : State) : Result := maintStart s src 4 a

/-- LOCK (R282). -/
def execLock (src : MaintSrc) (a : MaintArgs) (s : State) : Result := maintStart s src 5 a

/-- UNLOCK (R279). -/
def execUnlock (src : MaintSrc) (a : MaintArgs) (s : State) : Result := maintStart s src 6 a

/-- INVAL_ALL (R283). -/
def execInvalAll (src : MaintSrc) (a : MaintArgs) (s : State) : Result := maintStart s src 7 a

/-! ### Fills (Table 6-3) -/

/-- The fetched blocks as tenants see them. -/
def fetchedData (s : State) (x : Fetch) : Mem := fromMember s x.vol x.row (fetchMask x) (fetchRow s x)

/-- A Filling line whose fetches are done (R258). -/
def fillEnd (s : State) (t i : Nat) (l : Line) (fs : List Fetch) : State :=
  let s0 := s
  let s := fs.foldl (fun s x => endFetch s x.id) s
  let c := if l.kill then l.c else fs.foldl (fun c x => c.fill (fetchMask x &&& ~~~l.skip) (fetchedData s0 x)) l.c
  let gone := l.kill && c.dirty == 0
  let s := modTier s t (fun x =>
    let x := { x with classB := x.classB.filter (· != i) }
    if gone then { x with lines := Tab.erase x.lines i, lockOrder := x.lockOrder.filter (· != i) }
    else useLine (modLine x i (fun l => { l with st := restState c, kill := false, fetches := [], skip := 0, c := c })) i)
  resumeReads s t l.c.vol l.c.row

/-- LINE_FILL_COMPLETE (R258): lines E00-E63, and side-buffer entries as 64-71. -/
def execLineFillComplete (tile line : Nat) (s : State) : Result :=
  if !(running s && tileUp s tile) then .next s
  else
    let ready (ids : List Nat) : Option (List Fetch) :=
      let fs := ids.filterMap (getFetch? s)
      if fs.length = ids.length ∧ fs.all (fetchReady s) then some fs else none
    match Tab.get? (getTile s tile).tier.lines line, Tab.get? (getTile s tile).tier.side (line - 64) with
    | some l, _ =>
      (if l.st ≠ .filling then .next s
       else match ready l.fetches with
        | some fs => done (maintProgress (fillEnd s tile line l fs))
        | none => .next s)
    | none, some x =>
      (if line < 64 ∨ !x.filling then .next s
       else match ready x.fetches with
        | none => .next s
        | some fs =>
          let s' := fs.foldl (fun s x => endFetch s x.id) s
          let c := fs.foldl (fun c y => c.fill (fetchMask y) (fetchedData s y)) x.c
          done (maintProgress (modTier s' tile (fun t =>
            if x.kill then { t with side := Tab.erase t.side (line - 64) }
            else { t with side := Tab.set t.side (line - 64) { x with filling := false, fetches := [], c := c } }))))
    | none, none => .next s

/-- DESTAGE_COMPLETE (R188): every member write of the destage has completed or been skipped. -/
def execDestageComplete (d : Nat) (s : State) : Result :=
  match getDestage? s d with
  | none => .next s
  | some x => if running s && x.issued && x.writes.isEmpty then done (maintProgress (endDestage s x)) else .next s

/-- DIRECTORY_SWEEP (R273): clean ways of AGE 3 freed, dirty ones destaged, until 1,024 slots are free. -/
def execDirectorySweep (tile : Nat) (s : State) : Result :=
  let t := (getTile s tile).tier
  if !(serving s && tileUp s tile) || !(t.sweeping || decide (freeSlots t < 512)) then .next s
  else
    let old (st : Nat) : List (Nat × Slot) := t.store.filter (fun e => e.2.age == 3 && e.2.st == st)
    let freed := ((old 1).take (1024 - freeSlots t)).map Prod.fst
    let t' := { t with store := t.store.filter (fun e => !freed.contains e.1) }
    let short := decide (freeSlots t' < 1024)
    let s := modTier s tile (fun _ => { t' with sweeping := short })
    let s := if short && s.cache.en then
        (old 2).foldl (fun s e => (startDestage s tile e.2.c.vol e.2.c.row).getD s) s
      else s
    done s

/-! ### Errors and retirement (R289-R293) -/

/-- Unlocked live lines of a tile. -/
def freeOfLock (t : Tier) : Nat := liveLines t - lockedLines t

/-- The most recently locked lines unlocked until 8 live lines are unlocked (R292). -/
def unlockSome : Nat → Tier → Tier
  | 0, t => t
  | n + 1, t =>
    if 8 ≤ freeOfLock t then t
    else match t.lockOrder with
      | i :: rest => unlockSome n { modLine t i (fun l => { l with locked := false }) with lockOrder := rest }
      | [] => t

/-- EVICTION_COMPLETE (R265, R266): the row reaches the store; with EVMODE = 1 `entry` names the line that leaves. While no way of its
bucket is clean it waits, and the oldest dirty way is destaged at priority (R272); R284 lets no such destage begin while EN is 0. -/
def execEvictionComplete (tile entry : Nat) (s : State) : Result :=
  let wait (c : CRow) : Result :=
    match oldestDirty (bucketSlots (getTile s tile).tier c.vol c.row) with
    | some sl => if sl.st = 2 ∧ s.cache.en then done ((startDestage s tile sl.c.vol sl.c.row).getD s) else .next s
    | none => .next s
  if !(serving s && tileUp s tile) then .next s
  else
    let t := (getTile s tile).tier
    match Tab.get? t.evb entry, t.leaving.contains entry, Tab.get? t.lines entry with
    | some c, _, _ =>
      (match insertSlot t c with
       | none => wait c
       | some t => done (maintProgress (modTier s tile (fun _ => { t with evb := Tab.erase t.evb entry }))))
    | none, true, some l =>
      if l.st = .filling ∨ l.st = .writing then .next s
      else (match insertSlot t l.c with
       | none => wait l.c
       | some t => done (maintProgress (modTier s tile (fun _ =>
           { t with lines := Tab.erase t.lines entry, leaving := t.leaving.filter (· != entry) }))))
    | none, _, _ => .next s

/-- A line retired (R290-R292): the error that brings it, the eviction of its row, the entry of Table 6-11; none while its row fills or
is being written, or when its eviction has no place. -/
def retireLine (s : State) (tile line cause word : Nat) : Option State :=
  let t := (getTile s tile).tier
  let row? := Tab.get? t.lines line
  if !(running s && tileUp s tile) || decide (64 ≤ line) || lineRetired t line || !decide (1 ≤ cause ∧ cause ≤ 3) ||
      (cause == 1 && decide ((Tab.getD t.ce line {}).count < 4)) ||
      (row?.any (fun l => l.st == .filling || l.st == .writing)) then none
  else
    let s := match cause, row? with
      | 2, some l => uncorrectable s tile l.c.vol l.c.row (word / 128)
      | _, _ => s
    let t := (getTile s tile).tier
    let moved : Option Tier := match Tab.get? t.lines line with
      | none => some t
      | some l =>
        if t.evmode then (insertSlot t l.c).map (fun t => { t with lines := Tab.erase t.lines line })
        else (freeEvb t).map (fun e => toEvb t line e)
    match moved with
    | none => none
    | some t =>
      let r : RetiredLine :=
        { line := line, cause := cause, ceCount := (Tab.getD t.ce line {}).count, epoch := s.moon.epoch, offset := nowOffset s,
          word := word }
      let t := { t with retired := t.retired ++ [r], lockOrder := t.lockOrder.filter (· != line) }
      let low := decide (liveLines t < 56)
      let need := decide (freeOfLock t < 8) && !t.lockOrder.isEmpty
      let s := modTier s tile (fun _ => if need then unlockSome 64 t else t)
      let s := { s with cache := { s.cache with retiredSeen := true, lowLines := s.cache.lowLines || low } }
      let data := leBytes 1 line
      let s := if cause = 1 then fault s { code := 0x3001, cls := 1, src := srcAgate tile, data := data }
        else if cause = 2 then fault s { code := 0x3002, cls := 1, src := srcAgate tile, data := data } else s
      let s := if low then fault s { code := 0x3004, cls := 2, src := srcAgate tile, data := data } else s
      some (if need then jetInfo s 0x3006 (srcAgate tile) [] else s)

/-- LINE_RETIREMENT (R290-R292). -/
def execLineRetirement (tile line : Nat) (cause : Nat) (word : Nat) (s : State) : Result :=
  match retireLine s tile line cause word with
  | some s => done s
  | none => .next s

/-! ### Cache commands (R287, R296) -/

/-- CACHE_DISABLE (R287): from its start every write part takes the WT line. -/
def execCacheDisable (g : Go) (s : State) : Result :=
  mbxRun s g false false 0 [] [needFree (s.cache.disabling.isSome || s.cache.enabling.isSome)] []
    (fun s => mbxPark { s with cache := { s.cache with disabling := some g.mb } } g.mb .cacheDisable [])

/-- No row of the device is dirty. -/
def noDirty (s : State) : Bool :=
  (upTiles s).all (fun t =>
    let x := (getTile s t).tier
    x.lines.all (fun e => e.2.c.dirty == 0 && e.2.st != .writing) && x.evb.all (fun e => e.2.dirty == 0) &&
      x.store.all (fun e => e.2.c.dirty == 0 && e.2.st != 3))

/-- Every row removed but those that fill, which take Kill (R287). -/
def emptyTier (t : Tier) : Tier :=
  { t with
    lines := (t.lines.filter (fun e => e.2.st == .filling)).map (fun e => (e.1, { e.2 with kill := true, locked := false }))
    evb := [], leaving := [], store := [], lockOrder := []
    side := (t.side.filter (fun e => e.2.filling)).map (fun e => (e.1, { e.2 with kill := true })) }

/-- CACHE_DISABLE_QUIESCED (R287). -/
def execCacheDisableQuiesced (mb : Nat) (s : State) : Result :=
  if !(serving s && s.cache.disabling == some mb && noDirty s) then .next s
  else
    let fills (t : Tier) : Nat := (t.lines.filter (fun e => e.2.st == .filling)).length + (t.side.filter (fun e => e.2.filling)).length
    let rows (t : Tier) : Nat := t.lines.length + t.evb.length + t.side.length + t.store.length
    let killed := sumTiles s (fun x => fills x.tier)
    let removed := sumTiles s (fun x => rows x.tier) - killed
    let s := modTiles s (fun _ x => { x with tier := emptyTier x.tier })
    let s := { s with cache := { s.cache with en := false, disabling := none, staleLogged := false } }
    done (maintProgress (mbxOk s mb (leBytes 8 (maintResult removed 0 killed 0))))

/-- CACHE_ENABLE (R287): INVAL_ALL with FORCE, then EN; with EN already 1 it has no effect. -/
def execCacheEnable (g : Go) (s : State) : Result :=
  mbxRun s g false false 0 [] [needFree (s.cache.disabling.isSome || s.cache.enabling.isSome)] []
    (fun s =>
      if s.cache.en then mbxOk s g.mb (leBytes 8 0)
      else
        let s := mbxPark { s with cache := { s.cache with enabling := some g.mb } } g.mb (.cacheMaint 0) []
        beginMaint s (.mailbox g) 7 { force := true, discard := false, vol := 0, first := 0, count := 0, reservedZero := true })

/-- A committed window that maps onto a tile (R270). -/
def windowOn (s : State) (t : Nat) : Bool :=
  s.pcie.windows.any (fun e => e.2.act.ctl.getLsbD 0 && bits e.2.act.target.toNat 2 0 == t)

/-- CACHE_CONFIG (R259, R270). -/
def execCacheConfig (g : Go) (tile mask zGib delayUs : Nat) (s : State) : Result :=
  let ts := if tile = 0xFF then List.range s.part.tiles else [tile]
  let z := bit mask 1
  mbxRun s g false false 6
    [(1, decide (3 < mask)), (2, z && decide (8 < zGib)), (4, bit mask 0 && decide (1024 < delayUs))]
    [need (tile == 0xFF || decide (tile < s.part.tiles)) 0,
     needStopped (!(z && ts.any (fun t => (getTile s t).tier.zGib != zGib &&
       (s.cache.en || !(getTile s t).tier.store.isEmpty || windowOn s t))))] []
    (fun s =>
      let s := if z then
          ts.foldl (fun s t => modTier { s with cfg := { s.cfg with zGib := Tab.set s.cfg.zGib t zGib } } t (fun x => { x with zGib := zGib })) s
        else s
      let s := if bit mask 0 then
          ts.foldl (fun s t => { s with cfg := { s.cfg with destageUs := Tab.set s.cfg.destageUs t delayUs } }) s
        else s
      mbxStore s g.mb [])

/-- CACHE_RAT_GET (R278). -/
def execCacheRatGet (g : Go) (vol : Nat) (s : State) : Result :=
  mbxRun s g true false 2 [] (volObj s g.mb vol 0) [objVol vol]
    (fun s =>
      let v := volCfg s vol
      mbxOk s g.mb (leBytes 1 v.policy ++ leBytes 1 v.rat.length ++
        (if v.rat.isEmpty then [] else leBytes 6 0 ++ v.rat.flatMap ratBytes)))

/-- The counts of CACHE_STATS (Table 6-15) of a tile. -/
def cacheCounts (t : Tier) : List Nat :=
  t.hits ++ t.misses ++
    [t.nClassA, t.nClassB, t.nHitA, t.nHitB, t.nEvict, t.nKill, t.nCe, t.nUe, t.retired.length, t.badSlots.length]

/-- CACHE_STATS (Table 6-15). -/
def execCacheStats (g : Go) (tile : Nat) (buf : SegDesc) (s : State) : Result :=
  mbxRun s g false false 24 [(8, badBuf buf)] [need (tile == 0xFF || decide (tile < s.part.tiles)) 0] []
    (fun s =>
      let data := countBytes ((if tile = 0xFF then List.range s.part.tiles else [tile]).flatMap (fun t => cacheCounts (getTile s t).tier))
      mbxOk (writeBuf s g.mb buf data) g.mb (bytesField data))

end Sys2Proof.Machine
end

