-- ==== Sys2Proof/Machine/Rebuild.lean ====
section
/-! DEFINITION. Failure lists, homes, passes, copyback, scrub, the mirror set and the end of fetches (chapter 05, R190-R193, R215). -/

namespace Sys2Proof.Machine

/-! ### Pool metadata (R221, R247, R248) -/

/-- A FAIL_LIST or BASE_LIST entry (Table 5-4). -/
def failEntBits (e : FailEnt) : Nat :=
  e.index + (match e.home with | some h => field 10 h + flag 30 true | none => 0) + flag 31 true

def failListBytes (l : List FailEnt) : List Byte :=
  (List.range 8).flatMap (fun i => leBytes 4 ((l[i]?.map failEntBits).getD 0))

/-- The progress record (Table 5-4). -/
def progressBytes (p : Pool) : List Byte :=
  let b := leBytes 1 0xB5 ++ leBytes 1 p.pstate ++ leBytes 1 p.failList.length ++ leBytes 1 0 ++ leBytes 4 p.gen ++
    leBytes 5 p.cursor ++ leBytes 5 p.baseCursor ++ leBytes 5 p.critCursor ++ leBytes 5 p.copyCursor ++ leBytes 5 p.scrubCursor ++
    leBytes 6 p.passEpoch.toNat ++ leBytes 1 0 ++ failListBytes p.failList ++ failListBytes p.baseList ++
    leBytes 2 ((p.copy.map (fun c => c.1 + flag 15 true)).getD 0) ++ leBytes 4 p.lst.length ++
    leBytes 1 (flag 0 p.lstFull + flag 1 p.broken) ++ List.replicate 909 0
  b ++ leBytes 4 (crc32c b).toNat

/-- The progress record changed: GENERATION rises by one at each update (Table 5-4). -/
def updPool (s : State) (pool : Nat) (f : Pool → Pool) : State := modPool s pool (fun p => { f p with gen := p.gen + 1 })

/-- The pool header (Table 5-8), in a byte order of the model's: identity (R383), geometry, segment size, generation. -/
def headerBytes (s : State) (pool : Nat) : List Byte :=
  let p := getPool s pool
  let c := poolCfg s pool
  leBytes 8 p.owner.toNat ++ leBytes 4 p.lease.toNat ++ leBytes 4 (flag 0 p.suspended) ++ leBytes 2 c.n ++ leBytes 1 c.k ++ leBytes 1 c.s ++
    leBytes 2 (if c.peridot then 0 else 1) ++ leBytes 2 c.seed.toNat ++ leBytes 8 p.segSize ++ leBytes 8 p.metaGen

/-- The state of a position in the member table: the codes of Table 5-1, a LAGGING member written as ONLINE (log entry 112). -/
def tableState (s : State) (m : Nat) : Nat :=
  match (getMember s m).st with
  | .online => 0
  | .lagging => 0
  | .failed => 2
  | .replacing => 3
  | .spare => 4

/-- The member table (Table 5-8): 32 bytes a position, in an order of the model's: name digest, namespace, capacity, group, state. -/
def memberTable (s : State) (pool : Nat) : List Byte :=
  (poolCfg s pool).members.flatMap (fun m =>
    match Tab.get? s.cfg.members m with
    | none => leBytes 32 0
    | some d =>
      leBytes 16 (Config.sha384 d.nqn).toNat ++ leBytes 4 d.nsid.toNat ++ leBytes 8 (getMember s m).capacity ++ leBytes 1 d.group ++
        leBytes 3 (tableState s m))

/-- The pool header written to a list of members. -/
def writeHeader (s : State) (pool : Nat) (ms : List Nat) : State :=
  metaWrite s pool ms 0 4096 (Mem.ofList (headerBytes s pool)) (.metadata pool)

/-- The member table written to a list of members. -/
def writeTable (s : State) (pool : Nat) (ms : List Nat) : State :=
  metaWrite s pool ms 0x1000 32768 (Mem.ofList (memberTable s pool)) (.metadata pool)

/-- Every live member and hot spare of a pool, homes and copyback targets among them (Table 5-8). -/
def metaEverywhere (s : State) (pool : Nat) : List Nat :=
  let p := getPool s pool
  let ms := liveMembers s pool
  let more := (poolCfg s pool).spares ++ p.failList.filterMap (·.home) ++ (p.copy.map (·.2)).toList
  ms ++ (more.filter (fun m => !ms.contains m && !memberFailed s m)).eraseDups

/-- A change of a member's state or place: the member table everywhere it is kept (R247). -/
def retable (s : State) (pool : Nat) : State := writeTable s pool (metaEverywhere s pool)

/-- The LST and change-map areas copied to members that have become metadata members (R248). -/
def copyMeta (s : State) (pool : Nat) (ms : List Nat) : State :=
  if ms.isEmpty then s
  else
    let n := (getPool s pool).lst.length
    let s := if n = 0 then s
      else metaWrite s pool ms 0x10000 ((n + 255) / 256 * 4096) (Mem.ofList (lstImage s pool)) (.metadata pool)
    (volsOfPool s pool).foldl (fun s v =>
      match (getVol s v).freezing.orElse (fun _ => (getVol s v).frozen) with
      | some m => storeMap s v m ms
      | none => s) s

/-! ### The extended self-test's rows (R492, R493) -/

def getTest (s : State) (kind pool : Nat) : Test := ((s.tests.find? (fun e => e.1 == (kind, pool))).map (·.2)).getD {}

def setTest (s : State) (kind pool : Nat) (t : Test) : State :=
  { s with tests := s.tests.filter (fun e => e.1 != (kind, pool)) ++ [((kind, pool), t)] }

/-! ### Row interlocks (R225) -/

/-- Work still going on at a row: rebuild, copyback, scrub, the extended self-test, or repair writes. -/
def rowBusy (s : State) (pool row : Nat) : Bool :=
  let p := getPool s pool
  p.work.any (fun w => w.row == row) || p.copyWork.any (fun w => w.row == row) || p.scrubWork.any (fun w => w.row == row) ||
    p.repairs.any (fun r => r.row == row) || ((getTest s 2 pool).fetch.isSome && (getTest s 2 pool).row == row) ||
    s.mcmds.any (fun m => match m.purpose with
      | .repair q r _ => q == pool && r == row
      | _ => false)

/-- The interlock released when its work's member writes have completed. -/
def releaseRow (s : State) (pool row : Nat) : State :=
  if rowBusy s pool row then s
  else startSalvages (modPool s pool (fun p =>
    { p with interlocks := p.interlocks.filter (· != row), interlockWait := p.interlockWait.filter (· != row) })) pool

/-- One repair written to the places of its strip (R232, R246). -/
def writeRepair (s : State) (pool : Nat) (r : Repair) : State :=
  let c := poolCfg s pool
  (writePlaces c (getPool s pool) r.row r.pos).foldl (fun s mem =>
    (runs ((List.range 4).filter (fun b => r.cols.getLsbD b))).foldl (fun s e =>
      issueM s pool mem (getPool s pool).tile .write (blockOffset c r.row e.1) (4096 * e.2) (Mem.slice r.data (4096 * e.1) (4096 * e.2))
        (.repair pool r.row r.pos) r.pipe r.cls) s) s

/-- The repair writes of a row that wait for its interlock, issued (R232, R246). -/
def issueRepairs (s : State) (pool row : Nat) : State :=
  let mine := (getPool s pool).repairs.filter (fun r => r.row == row)
  mine.foldl (fun s r => writeRepair s pool r) (modPool s pool (fun p => { p with repairs := p.repairs.filter (fun r => r.row != row) }))

/-- A repair asked for: at once under an interlock that is held, else when the home tile grants one. -/
def askRepair (s : State) (pool : Nat) (r : Repair) : State :=
  let s := modPool s pool (fun p => { p with repairs := p.repairs ++ [r] })
  if (volOfRow s pool r.row).isNone || (getPool s pool).interlocks.contains r.row then issueRepairs s pool r.row
  else modPool s pool (fun p => { p with interlockWait := addOnce p.interlockWait r.row })

/-- The extended test's next row; the interlock and the reads of the last are given up. -/
def testNext (s : State) (pool : Nat) (t : Test) : State :=
  let row := t.row
  let s := match t.fetch with
    | some f => endFetch s f
    | none => s
  let n := max 1 (poolCfg s pool).poolRows
  releaseRow (setTest s 2 pool { t with row := row + 1, fetch := none, progress := 100 * (row + 1) / n }) pool row

/-- The row that the extended test has read, judged by the syndromes of R246 (R492). -/
def judgeTest (s : State) (pool : Nat) (got : List (Nat × Mem)) : State :=
  let t := getTest s 2 pool
  let c := poolCfg s pool
  let strips := (List.range c.w).map (fun j => if isLost (getPool s pool) t.row j then [] else stripOf got j)
  let bad := (scrubVerdict c.k strips).isSome
  testNext s pool
    { t with rows := t.rows + 1, inconsistent := if bad then t.inconsistent + 1 else t.inconsistent,
             failures := if bad then t.failures + 1 else t.failures,
             listed := if bad && decide (t.listed.length < 64) then t.listed ++ [t.row] else t.listed }

/-! ### The ends of fetches -/

/-- Fetched blocks handed to a read's buffer. -/
def feedPart (s : State) (x : Fetch) (id i : Nat) : State :=
  match getCmd? s id with
  | none => endFetch s x.id
  | some c =>
    match c.parts[i]? with
    | none => endFetch s x.id
    | some p =>
      if isReadOp c.op then
        let m := p.missing &&& fetchMask x
        let s' := copyRead s c i p m (fetchedData s x)
        let s' := modPart (endFetch s' x.id) id i (fun p =>
          { p with fetches := p.fetches.filter (· != x.id), missing := p.missing &&& ~~~m, acked := p.fetches == [x.id]
                   status := if touchesLost s x.pool p.row m then 0x0040 else p.status })
        settleCmd s' id
      else
        let d := fetchedData s x
        let s' := modPart (endFetch s x.id) id i (fun p => { p with recon := d, reconReady := true, fetches := [] })
        match getCmd? s' id with
        | none => s'
        | some c => (match c.parts[i]? with
          | some p => takePart s' c i p
          | none => s')

/-- Positions of a row that a pass writes (R224): failed, with a home, not at home and not lost. -/
def rebuildPositions (s : State) (pool row : Nat) : List Nat :=
  let c := poolCfg s pool
  let p := getPool s pool
  (List.range c.w).filter (fun j =>
    let ix := poolIndex c row j
    isFailedIx p.failList ix && !isLost p row j && (homeOf c p.failList row ix).isSome && !atHome c p row ix)

/-- The strips of a rebuild or copyback row written out (R224, R243). -/
def feedRebuild (s : State) (x : Fetch) : State :=
  let pool := x.pool
  let c := poolCfg s pool
  let p := getPool s pool
  let got := fetchStrips s x
  let isCopy := p.copyWork.any (fun w => w.fetch == some x.id)
  let s := endFetch s x.id
  let s := x.want.foldl (fun s j =>
    let ix := poolIndex c x.row j
    let dst := if isCopy then p.copy.map (·.2) else homeOf c p.failList x.row ix
    match dst with
    | none => s
    | some m =>
      let h := s.nextId
      let s := issueM s pool m p.tile .write (blockOffset c x.row 0) 16384 (stripOf got j)
        (if isCopy then .copyWrite pool j else .rebuildWrite pool j) .rebuild x.cls
      let upd (w : RowWork) : RowWork := { w with writes := w.writes ++ [h] }
      modPool s pool (fun p => if isCopy then { p with copyWork := p.copyWork.map upd } else { p with work := p.work.map upd })) s
  let fin (w : RowWork) : RowWork := { w with fetch := none, issued := true }
  modPool s pool (fun p => if isCopy then { p with copyWork := p.copyWork.map fin } else { p with work := p.work.map fin })

/-- Repairs of the blocks a fetch found unreadable, once it can give them (R232). -/
def fetchRepairs (s : State) (x : Fetch) : State :=
  x.repair.foldl (fun s j =>
    let place := readPlace (poolCfg s x.pool) (getPool s x.pool) x.row j
    let s := fault0 s 0x1003 1 (srcMember (place.getD 0))
    let s := match place with
      | some m => modMember s m (fun y => { y with repairs := y.repairs + 1 })
      | none => s
    askRepair s x.pool { row := x.row, pos := j, cols := x.cols, data := stripOf (fetchStrips s x) j, pipe := x.pipe, cls := x.cls }) s

/-- A read waits on a row of a tile. -/
def readWaits (s : State) (t vol row : Nat) : Bool :=
  s.cmds.any (fun c => c.home == t && c.vol == vol && isReadOp c.op && c.parts.any (fun p => p.row == row && p.waiting && !p.acked))

/-- A class B prefetch after a read whose blocks were recovered (R276): the read waits on the line that fills, or its part was fetched. -/
def classBAfter (s : State) (x : Fetch) : State :=
  let q := volRowOf (volCfg s x.vol) x.row + 1
  match x.dest with
  | .line t _ => if (fetchMissing x).isEmpty || !readWaits s t x.vol x.row then s else prefetchB s t x.vol q
  | .part c _ => if (fetchMissing x).isEmpty || !(getCmd? s c).any (fun c => isReadOp c.op) then s else prefetchB s x.tile x.vol q
  | _ => s

/-- A fetch that has, or can compute, what it wants: handed on. Lines and side entries wait for LINE_FILL_COMPLETE, a scrubbed row for
SCRUB_ROW. -/
def finishFetch (s : State) (f : Nat) : State :=
  match getFetch? s f with
  | none => s
  | some x =>
    if !fetchReady s x then s
    else
      let s := fetchRepairs s x
      let s := modFetch s f (fun y => { y with repair := [] })
      let s := if x.repair.isEmpty then classBAfter s x else s
      match x.dest with
      | .line _ _ => s
      | .side _ _ => s
      | .scrub _ => s
      | .selftest pool => judgeTest s pool (fetchStrips s x)
      | .part id i => feedPart s x id i
      | .destage d => issueDestage (endFetch s f) d (fetchStrips s x)
      | .discard mid row => feedDiscard (endFetch s f) mid row (fetchRow s x)
      | .rebuild _ => feedRebuild s x

/-- A row in progress given up: it is begun again when its class comes to it next. -/
def dropWork (s : State) (pool f : Nat) : State :=
  let p := getPool s pool
  let is (w : RowWork) : Bool := w.fetch == some f
  let mine := (p.work.filter is).toList ++ (p.copyWork.filter is).toList ++ (p.scrubWork.filter is).toList
  let s := modPool s pool (fun p =>
    { p with work := p.work.filter (fun w => !is w), copyWork := p.copyWork.filter (fun w => !is w)
             scrubWork := p.scrubWork.filter (fun w => !is w) })
  mine.foldl (fun s w => releaseRow s pool w.row) s

/-- A fetch given up: who waits for it looks again. -/
def abandonFetch (s : State) (f : Nat) : State :=
  match getFetch? s f with
  | none => s
  | some x =>
    let s := endFetch s f
    match x.dest with
    | .line t l =>
      resumeReads (modTier s t (fun y => modLine y l (fun z => { z with st := restState z.c, kill := false, fetches := [] }))) t x.vol x.row
    | .side t e => modTier s t (fun y => { y with side := Tab.erase y.side e })
    | .part id i =>
      (match (getCmd? s id).bind (fun c => (c.parts[i]?).map (fun p => (c, p))) with
       | none => s
       | some (c, p) =>
         if isReadOp c.op then serveRead (modPart s id i (fun p => { p with fetches := [], missing := 0 })) c i { p with fetches := [], missing := 0 }
         else
           let keep := p.reconNeed.filter (fun j => !isLost (getPool s x.pool) x.row j)
           takePart (modPart s id i (fun p => { p with reconNeed := keep, reconReady := true, fetches := [] })) c i
             { p with reconNeed := keep, reconReady := true, fetches := [] })
    | .discard mid row =>
      let s := modDiscard s mid row (fun d => { d with need := d.need.filter (fun j =>
        !isLost (getPool s x.pool) x.row j && !isBroken s x.pool x.row && (getPool s x.pool).st != .offline) })
      (match ((getMaint? s mid).map (·.discards)).bind (·.find? (fun d => d.row == row && !d.ready)) with
       | none => s
       | some d => if d.need.isEmpty then feedDiscard s mid row [] else fetchDiscard s mid x.tile d)
    | .destage d => cancelDestage s d
    | .rebuild pool => dropWork s pool f
    | .scrub pool => dropWork s pool f
    | .selftest pool => testNext s pool (getTest s 2 pool)

/-- R233, R198: data strips of a row enter the LST; `own` says that the caller's work holds the row's interlock. A row without room for its
entries stays as it is (R238). -/
def loseStrips (s : State) (x : Fetch) (gone : List Nat) (cause : Nat) (own : Bool) : State :=
  let room := lstRoom s x.pool x.row gone
  let s := lstEnter s x.pool x.row gone cause
  if room then startSalvage s x.pool x.row x.bad own x.pipe x.cls else s

/-- Data strips of which some block column of a fetch cannot be recovered (R233). -/
def goneStrips (s : State) (x : Fetch) : List Nat :=
  let cols := ((List.range 4).filter (fun b => x.cols.getLsbD b)).map (columnErased s x)
  let bad := cols.filter (fun e => decide (2 < e.length))
  (List.range (poolCfg s x.pool).k).filter (fun j => bad.any (·.contains j))

/-- Data strips that a fetch wants and that nothing gives, in a row whose P and Q do not belong to its data (R198, R387). -/
def tornStrips (s : State) (x : Fetch) : List Nat :=
  let out := missing (poolCfg s x.pool) (getPool s x.pool) x.row ++ x.bad.map Prod.fst
  (fetchMissing x).filter (fun j => decide (j < (poolCfg s x.pool).k) && out.contains j)

/-- A resynchronising destage begun again with strips that have become lost (R41, R195, R198); without room for them in the LST it is
given up. -/
def resyncAgain (s : State) (did : Nat) (x : Fetch) (gone : List Nat) (cause : Nat) : State :=
  match getDestage? s did with
  | none => endFetch s x.id
  | some d =>
    let room := lstRoom s x.pool x.row gone
    let s := lstEnter s x.pool x.row gone cause
    if room then
      let s := endFetch s x.id
      startResync { s with destages := s.destages.filter (fun y => y.id != did) }
        { d with zeros := d.zeros ++ gone.filter (fun j => !d.zeros.contains j), fetch := none, writes := [], issued := false }
    else cancelDestage s did

/-- Blocks that cannot be recovered (R233, R198): the strips concerned enter the LST, and the fetch that met them begins again. -/
def failFetch (s : State) (f : Nat) : State :=
  match getFetch? s f with
  | none => s
  | some x =>
    let torn := x.torn || unsynced s x.pool x.row
    let gone := if torn then tornStrips s x else goneStrips s x
    let cause := if torn then 2 else 1
    let resync (d : Nat) : Bool := (getDestage? s d).any (fun d => d.resync)
    match x.dest with
    | .destage d =>
      if resync d then resyncAgain s d x gone cause
      else loseStrips (abandonFetch s f) x gone cause false
    | .rebuild pool =>
      let s := loseStrips (endFetch s f) x gone cause true
      let fin (w : RowWork) : RowWork := if w.fetch = some f then { w with fetch := none, issued := true } else w
      modPool s pool (fun p => { p with work := p.work.map fin, copyWork := p.copyWork.map fin })
    | .scrub _ => abandonFetch (loseStrips s x gone cause true) f
    | .selftest _ => abandonFetch (loseStrips s x gone cause true) f
    | _ => abandonFetch (loseStrips s x gone cause false) f

/-- What a salvage has found unavailable: strips that this makes unrecoverable in some column enter the LST too; it goes on when the last of
its reads has come (R233). -/
def salvageStep (s : State) (f : Nat) : State :=
  match getFetch? s f with
  | none => s
  | some x => finishFetch (lstEnter s x.pool x.row (goneStrips s x) 1) f

/-- A position of a fetch that cannot be read now: recovered by Table 3-3 where possible (R216, R232). `hard` says that its blocks `cols`
are unreadable, not merely late. A strip counted late takes part again when without it nothing could be recovered (R211). A row that is
broken, or whose columns are beyond recovery, ends the fetch (R233, R239). -/
def strikeFetch (s : State) (f pos : Nat) (hard : Bool) (cols : BitVec 4) : State :=
  match getFetch? s f with
  | none => s
  | some x =>
    let s := if hard then modFetch s f (fun y => { y with bad := y.bad ++ [(pos, cols)] }) else s
    let x := (getFetch? s f).getD x
    let gone := missing (poolCfg s x.pool) (getPool s x.pool) x.row
    if x.salvage then
      if !hard && !gone.contains pos then s
      else salvageStep (modFetch s f (fun y => { y with
        bad := if gone.contains pos then y.bad ++ [(pos, 0xF)] else y.bad
        got := if y.got.any (fun e => e.1 == pos) then y.got else Tab.set y.got pos [] })) f
    else
      let firm := sortedErased (gone ++ x.bad.map Prod.fst)
      let soft := sortedErased (pos :: x.erased ++ firm)
      let repair (y : Fetch) : List Nat := if hard && !y.repair.contains pos then y.repair ++ [pos] else y.repair
      let goOn (s : State) (e : List Nat) : State :=
        let s := modFetch s f (fun y => { y with erased := e, repair := repair y })
        finishFetch (parallelReads (readForRecovery s f) f) f
      let wanted := (fetchMissing x).any firm.contains
      let resync := match x.dest with
        | .destage d => (getDestage? s d).any (fun d => d.resync)
        | _ => false
      if x.torn then (if wanted then failFetch s f else s)
      else if (isBroken s x.pool x.row || (getPool s x.pool).st == .offline) && !resync then abandonFetch s f
      else if recoverable s x.pool x.row soft then goOn s soft
      else if recoverable s x.pool x.row firm then goOn s firm
      else if wanted then failFetch s f
      else s

/-! ### List changes (R218, R219, R223) -/

/-- R223. Rows left unconverted by the pass that ends here stay so under BASE_LIST (R238). -/
def Pool.listChange (p : Pool) (new : List FailEnt) (epoch : BitVec 48) : Pool :=
  { p with
    baseCursor := p.cursor, baseList := p.failList, failList := new, cursor := 0, critCursor := 0, pstate := 1,
    passEpoch := epoch, passPending := true, brokenLogged := false, gen := p.gen + 1, work := none
    refusedBase := p.refused, refused := [] }

/-- A list change of a pool: the row in progress is dropped, with its reads and writes. -/
def listChange (s : State) (pool : Nat) (new : List FailEnt) : State :=
  let old := (getPool s pool).work
  let s := modPool s pool (fun p => p.listChange new (nextEpoch s.moon))
  let s := { s with mcmds := s.mcmds.filter (fun m => match m.purpose with
    | .rebuildWrite q _ => q != pool
    | _ => true) }
  let s := match old.bind (·.fetch) with
    | some f => endFetch s f
    | none => s
  match old with
  | some w => releaseRow s pool w.row
  | none => s

/-- The lowest-numbered hot spare in SPARE state. -/
def freeSpare (s : State) (pool : Nat) : Option Nat :=
  ((poolCfg s pool).spares.filter (fun m => (getMember s m).st == .spare)).min?

/-! ### A pool goes offline (R218, R384, R505) -/

/-- A part of a command whose pool has gone offline: an INTENT whose data has not come is retired, the part ends with 0x0042. -/
def offlinePart (s : State) (c : Cmd) (i : Nat) (p : RowPart) : State :=
  if p.acked then s
  else
    let s := p.fetches.foldl endFetch s
    let s := match p.intent, p.taken with
      | some q, false => retireIntent s c.home q
      | _, _ => s
    modPart s c.id i (fun p => { p with acked := true, taken := true, waiting := false, fetches := [], status := 0x0042 })

/-- A command of an offline pool's volumes: ended with 0x0042 (R218, R384). -/
def offlineCmd (s : State) (c : Cmd) : State :=
  match c.phase with
  | .accepted => finishCmd s c.id 0x0042
  | .locked =>
    if c.op = .flush then finishCmd s c.id 0x0042
    else settleCmd ((List.range c.parts.length).foldl (fun s i => match c.parts[i]? with
      | some p => offlinePart s c i p
      | none => s) s) c.id
  | _ => s

/-- A write of pool data that has not been issued yet: none is issued for an offline pool (R384). -/
def heldWrite (m : MCmd) : Bool :=
  m.op != .read && !outstanding m && (match m.purpose with
    | .metadata _ => false
    | .lstWrite _ => false
    | .mapWrite _ _ => false
    | .initZero _ => false
    | .extentZero _ _ => false
    | _ => true)

/-- A pool goes offline with its volumes: commands end with 0x0042, destages and rebuild work are given up. -/
def poolOffline (s : State) (pool : Nat) : State :=
  let p := getPool s pool
  let works := p.work.toList ++ p.copyWork.toList ++ p.scrubWork.toList
  let s := modPool s pool (fun p =>
    { p with st := .offline, work := none, copyWork := none, scrubWork := none, scrubbing := false, repairs := [], interlockWait := []
             recopying := if p.mirrorLost.length = 1 then [] else p.recopying })
  let s := (volsOfPool s pool).foldl (fun s v => modVol s v (fun x => { x with st := .offline })) s
  let s := (works.filterMap (·.fetch)).foldl endFetch s
  let s := { s with mcmds := s.mcmds.filter (fun m => m.pool != pool || !heldWrite m) }
  let s := works.foldl (fun s w => releaseRow s pool w.row) s
  let s := (s.destages.filter (fun d => d.pool == pool)).foldl (fun s d => cancelDestage s d.id) s
  (s.cmds.filter (fun c => (volCfg s c.vol).pool == pool)).foldl offlineCmd s

/-- A failed pool index enters the list, or takes the pool offline as a ninth entry (R218). -/
def appendFailure (s : State) (pool ix : Nat) : State :=
  let p := getPool s pool
  if 8 ≤ p.failList.length then
    fault (poolOffline s pool) { code := 0x1014, cls := 3, src := srcPool pool, acted := true }
  else
    let home := if (poolCfg s pool).peridot then freeSpare s pool else none
    let s := match home with
      | some h => modMember s h (fun m => { m with st := .replacing })
      | none => s
    listChange s pool (p.failList ++ [{ index := ix, home := home }])

/-- A Peridot home is lost: the next hot spare takes its place (R219, Table 5-7). -/
def replaceHome (s : State) (pool : Nat) (home : Nat) (new : Option Nat) : State :=
  let s := match new with
    | some h => modMember s h (fun m => { m with st := .replacing })
    | none => s
  listChange s pool ((getPool s pool).failList.map (fun e => if e.home = some home then { e with home := new } else e))

/-- The copyback target fails (R244). -/
def endCopyback (s : State) (pool : Nat) : State :=
  let s := { s with mcmds := s.mcmds.filter (fun m => match m.purpose with
    | .copyWrite q _ => q != pool
    | _ => true) }
  let old := (getPool s pool).copyWork
  let s := updPool s pool (fun p => { p with copy := none, copyCursor := 0, copyWork := none })
  match old with
  | some w =>
    let s := match w.fetch with
      | some f => endFetch s f
      | none => s
    releaseRow s pool w.row
  | none => s

/-! ### The journal mirror set (R190-R193, R486) -/

def groupOf (s : State) (m : Nat) : Nat := ((Tab.get? s.cfg.members m).map (·.group)).getD 0

/-- A MIRROR_MOVE record on a tile (Table 4-5), written when the ring has room for it (R171). -/
def mirrorMove (s : State) (t pool old new phase : Nat) : State :=
  appendCtl s t .mirrorMove s.moon.epoch pool (BitVec.ofNat 32 (old + field 16 new + field 30 phase))

/-- The pool index R190 names as replacement beside the surviving index. -/
def mirrorCandidate (s : State) (pool surv : Nat) : Option Nat :=
  let c := poolCfg s pool
  (liveIx s pool).find? (fun ix => ix != c.mirror0 && ix != c.mirror1 && groupOf s (memberAt c ix) != groupOf s (memberAt c surv))

/-- The pair R486 names for a pool without MIRROR_GIVEN: the lowest live index, then the lowest in another group. -/
def mirrorPair (s : State) (pool : Nat) : Option (Nat × Nat) :=
  let c := poolCfg s pool
  match liveIx s pool with
  | [] => none
  | a :: rest => (rest.find? (fun ix => groupOf s (memberAt c ix) != groupOf s (memberAt c a))).map (fun b => (a, b))

/-- The mirror members of a pool, and which of them is being replaced. -/
def mirrorAt (c : PoolCfg) (which : Nat) : Nat := if which = 0 then c.mirror0 else c.mirror1

/-- The mirror set changed by the device: the pool journal state holds it from then on (R190, R193). -/
def setMirror (s : State) (pool a b : Nat) : State :=
  modPool (setPoolCfg s pool { poolCfg s pool with mirror0 := a, mirror1 := b }) pool (fun p => { p with mirrorSet := some (a, b) })

/-- Commands of a re-copy dropped. -/
def dropRecopy (s : State) (pool : Nat) : State :=
  { s with mcmds := s.mcmds.filter (fun m => match m.purpose with
    | .recopyRead q _ _ _ => q != pool
    | .recopyWrite q _ _ => q != pool
    | _ => true) }

/-- The live spill records of a tile's segment read from the survivor, at their places (R190). -/
def recopySegment (s : State) (pool surv t : Nat) : State :=
  let size := segUnits s pool
  (Tab.getD (getPool s pool).segs t {}).used.foldl (fun s u =>
    issueM s pool surv (hostOf s t) .read (16 * 2 ^ 30 + 4096 * (t * size + u.1)) (4096 * u.2) [] (.recopyRead pool t (t * size + u.1) u.2) .host) s

/-- A record read from the survivor, written to the replacement at the same offset (R190). -/
def gotRecopy (s : State) (pool t ref n : Nat) (data : Mem) : State :=
  let p := getPool s pool
  let c := poolCfg s pool
  if p.recopying.contains t && p.mirrorLost.length == 1 then
    issueM s pool (memberAt c (mirrorAt c (p.mirrorLost.headD 0))) (hostOf s t) .write (16 * 2 ^ 30 + 4096 * ref) (4096 * n)
      (Mem.slice data 0 (4096 * n)) (.recopyWrite pool t ref) .host
  else s

/-- The mirror member at position `which` replaced and the re-copy begun (R190), or none found: tried again at each edge (R193). `first`
says that none has been sought before. -/
def replaceMirror (s : State) (pool which : Nat) (first : Bool) : State :=
  let c := poolCfg s pool
  let old := if (getPool s pool).mirrorUsable then mirrorAt c which else (getPool s pool).mirrorOld
  let surv := mirrorAt c (1 - which)
  let tiles := (List.range s.part.tiles).filter (fun t => tileUp s (hostOf s t))
  match mirrorCandidate s pool surv with
  | some new =>
    let s := if which = 0 then setMirror s pool new c.mirror1 else setMirror s pool c.mirror0 new
    let s := modPool s pool (fun p => { p with mirrorUsable := false, recopying := tiles, mirrorLost := [which], mirrorOld := old })
    let s := (upTiles s).foldl (fun s t => mirrorMove s t pool old new 1) s
    let s := tiles.foldl (fun s t => recopySegment s pool (memberAt c surv) t) s
    jetInfo s 0x2003 (srcPool pool) (leBytes 2 new)
  | none =>
    let s := modPool s pool (fun p => { p with mirrorUsable := false, recopying := [], mirrorLost := [which], mirrorOld := old })
    if first then fault0 s 0x2005 2 (srcPool pool) else s

/-- Both mirror members are lost: a whole new set, on which nothing need be copied, usable once every tile has committed its MIRROR_MOVE
records; none found: tried again at each edge (R193). -/
def newMirrorSet (s : State) (pool : Nat) (first : Bool) : State :=
  let c := poolCfg s pool
  match mirrorPair s pool with
  | some (a, b) =>
    let moves (s : State) (t : Nat) : State :=
      mirrorMove (mirrorMove (mirrorMove (mirrorMove s t pool c.mirror0 a 1) t pool c.mirror0 a 2) t pool c.mirror1 b 1) t pool c.mirror1 b 2
    let s := (upTiles s).foldl moves (setMirror s pool a b)
    let s := modPool s pool (fun p => { p with mirrorUsable := false, recopying := upTiles s, mirrorLost := [0, 1] })
    (upTiles s).foldl newSetReady s
  | none =>
    let s := modPool s pool (fun p => { p with mirrorUsable := false, recopying := [], mirrorLost := [0, 1] })
    if first then fault0 s 0x2005 2 (srcPool pool) else s

/-- Rows with unretired spilled INTENTs of a pool are destaged at once (R193). -/
def destageSpilled (s : State) (pool : Nat) : State :=
  let rows := ((List.range s.part.tiles).filter (ringServed s)).flatMap (fun t =>
    ((getTile s t).amber.intents.filter (fun r => r.r.spilled && !r.r.partner && (volCfg s r.r.vol).pool == pool)).map (fun r =>
      (r.r.vol, r.r.row)))
  rows.eraseDups.foldl (fun s e => (startDestage s (homeTile s e.1) e.1 e.2).getD s) s

/-- A pool index that holds a place in the mirror set has failed (R190, R193). -/
def mirrorFailed (s : State) (pool ix : Nat) : State :=
  let c := poolCfg s pool
  let p := getPool s pool
  if ix ≠ c.mirror0 ∧ ix ≠ c.mirror1 then s
  else
    let which := if ix = c.mirror0 then 0 else 1
    if p.mirrorUsable then replaceMirror s pool which true
    else if p.mirrorLost.contains which then
      if p.recopying.isEmpty then s
      else fault0 (modPool (dropRecopy s pool) pool (fun p => { p with recopying := [] })) 0x2005 2 (srcPool pool)
    else newMirrorSet (destageSpilled (fault0 (dropRecopy s pool) 0x2006 2 (srcPool pool)) pool) pool true

/-- R215: spilled parts with a spill write outstanding to a failed member wait for their member writes instead. -/
def unspill (s : State) (m : Nat) : State :=
  s.mcmds.foldl (fun s x =>
    match x.purpose with
    | .spill id i => if x.member = m then modPart s id i (fun p => if p.acked then p else { p with mode := .members, spills := 0 }) else s
    | _ => s) s

/-- MIRROR_RECOPY_COMPLETE (R190): the tile has copied its segment's live spill records, and its MIRROR_MOVE of phase 2 has room. -/
def execMirrorRecopyComplete (pool tile : Nat) (s : State) : Result :=
  let p := getPool s pool
  let t := hostOf s tile
  let copying := s.mcmds.any (fun m => match m.purpose with
    | .recopyRead q u _ _ => q == pool && u == tile
    | .recopyWrite q u _ => q == pool && u == tile
    | _ => false)
  if !(serving s && tileUp s t && p.recopying.contains tile && p.mirrorLost.length == 1) || copying || moveWaits s t pool ||
      !(getTile s t).amber.fits 64 then .next s
  else
    let new := mirrorAt (poolCfg s pool) (p.mirrorLost.headD 0)
    let s := mirrorMove s t pool p.mirrorOld new 2
    let s := modPool s pool (fun p => { p with recopying := p.recopying.filter (· != tile) })
    if (getPool s pool).recopying.isEmpty then
      done (jetInfo (modPool s pool (fun p => { p with mirrorUsable := true, mirrorLost := [] })) 0x2004 (srcPool pool) (leBytes 2 new))
    else done s

/-- MIRROR_SET_RETRY at an epoch edge (R193). -/
def mirrorRetry (s : State) (pool : Nat) : State :=
  let p := getPool s pool
  if p.mirrorUsable || !p.recopying.isEmpty || p.st == .offline then s
  else match p.mirrorLost with
    | [w] => replaceMirror s pool w false
    | [_, _] => newMirrorSet s pool false
    | _ => s

/-! ### Rows that scrub and the extended self-test skip (R245, R492) -/

/-- An unretired INTENT of the row in any ring that is served. -/
def rowHasIntent (s : State) (pool row : Nat) : Bool :=
  match volOfRow s pool row with
  | some v => (List.range s.part.tiles).any (fun t => ringServed s t && !((getTile s t).amber.rowIntents v row).isEmpty)
  | none => false

/-- Rows with an unretired INTENT, with a strip that is not available, and broken rows. -/
def skipRow (s : State) (pool row : Nat) : Bool :=
  rowHasIntent s pool row || isBroken s pool row || !(missing (poolCfg s pool) (getPool s pool) row).isEmpty

/-! ### The rebuild pipeline (R224, R227-R229) -/

/-- The pool does rebuild work. -/
def rebuildOn (s : State) (pool : Nat) : Bool :=
  ((getPool s pool).st == .running || (getPool s pool).st == .stopped) && !s.hk.closing

/-- Scrub runs in the pool (R245, R539). -/
def scrubOn (s : State) (pool : Nat) : Bool :=
  let p := getPool s pool
  rebuildOn s pool && !s.hk.enforcing && !p.scrubPaused && (p.scrubbing || (poolCfg s pool).scrubDays != 0)

/-- The copyback's next row can be copied: its strip is at its home, lost, or recoverable (R243). A broken row waits for its conversion. -/
def copyable (s : State) (pool row ix : Nat) : Bool :=
  let c := poolCfg s pool
  let p := getPool s pool
  match positionOf c row ix with
  | none => true
  | some j => isLost p row j || (readPlace c p row j).isSome || unsynced s pool row || recoverable s pool row (missing c p row)

/-- A class of R229 has a row to begin: 0 critical sweep, 1 main pass, 2 copyback, 3 scrub. -/
def classReady (s : State) (pool cls : Nat) : Bool :=
  let p := getPool s pool
  match cls with
  | 0 => rebuildOn s pool && p.pstate == 1 && !p.passPending && p.work.isNone
  | 1 => rebuildOn s pool && p.pstate == 2 && !p.passPending && p.work.isNone
  | 2 => rebuildOn s pool && p.copyWork.isNone && (p.copy.any (fun e => copyable s pool p.copyCursor e.1))
  | _ => scrubOn s pool && p.scrubWork.isNone && !skipRow s pool p.scrubCursor

/-- The oldest waiting command of a pool and class that may go. -/
def heldNext (s : State) (pool cls : Nat) : Option MCmd :=
  s.mcmds.find? (fun m => m.pool == pool && m.pipe == .rebuild && m.cls == cls && m.throttled && mayGo s m)

/-- Bytes of a member's data area (R122, R123, R372). -/
def dataLen (s : State) (pool : Nat) : Nat := 16384 * (poolCfg s pool).slots

/-- Every member of the pool reports DLFEAT 001b: its data area is zeroed with Dataset Management (R371, R372). -/
def allTrim (s : State) (pool : Nat) : Bool := (poolCfg s pool).members.all (fun m => (getMember s m).dlfeat1)

/-- The next command that zeroes a member's data area at pool creation: Dataset Management over all of it, else Write Zeroes of 65,536
blocks (R372). -/
def initCommand (s : State) (pool : Nat) : State :=
  match (getPool s pool).initWork with
  | [] => s
  | (m, o) :: rest =>
    let n := if allTrim s pool then dataLen s pool else min (65536 * 4096) (dataLen s pool - o)
    let left := if dataLen s pool ≤ o + n then rest else (m, o + n) :: rest
    let s := modPool s pool (fun p => { p with initWork := left })
    issueM s pool m (getPool s pool).tile (if allTrim s pool then .dsm else .writeZeroes) (dataArea + o) n [] (.initZero pool) .rebuild 1

/-- Strips of an extent. -/
def extentStrips (s : State) (pool : Nat) : Nat := 1024 * (poolCfg s pool).w

/-- An extent that still has strips to zero (R489). -/
def zeroingNext (s : State) (pool : Nat) : Option Nat :=
  let p := getPool s pool
  p.zeroing.find? (fun e => decide (Tab.getD p.zeroNext e 0 < extentStrips s pool))

/-- The commands that zero the next strip of a released extent, at every place of the strip: Dataset Management where the member reports
DLFEAT 001b, else Write Zeroes (R371, R489). -/
def zeroCommand (s : State) (pool e : Nat) : State :=
  let c := poolCfg s pool
  let i := Tab.getD (getPool s pool).zeroNext e 0
  let row := 1024 * e + i / c.w
  let s := modPool s pool (fun p => { p with zeroNext := Tab.set p.zeroNext e (i + 1) })
  (writePlaces c (getPool s pool) row (i % c.w)).foldl (fun s m =>
    issueM s pool m (getPool s pool).tile (if (getMember s m).dlfeat1 then .dsm else .writeZeroes) (blockOffset c row 0) 16384 []
      (.extentZero pool e) .rebuild 1) s

/-- A pool has zeroing to do that can be put to its members. -/
def zeroReady (s : State) (pool : Nat) : Bool :=
  let p := getPool s pool
  !s.hk.closing && decide (0 < s.budget.r.getD 1 0) && ((p.st == .initialising && !p.initWork.isEmpty) || (rebuildOn s pool && (zeroingNext s pool).isSome))

/-- A pool has a command of a class ready to issue, or work that would bring one (R229). -/
def poolReady (s : State) (pool cls : Nat) : Bool :=
  (heldNext s pool cls).isSome || (classReady s pool cls && decide (0 < s.budget.r.getD 0 0)) || (cls == 1 && zeroReady s pool)

/-- The class and pool whose command comes next (R229): highest class, fewest bytes of it this epoch, lowest number. -/
def nextWork (s : State) : Option (Nat × Nat) :=
  ((List.range 4).filterMap (fun cls =>
    let ready := (Tab.keys s.cfg.pools).filter (fun p => poolReady s p cls)
    let bytes (p : Nat) : Nat := (getPool s p).charged.getD cls 0
    let least := (ready.map bytes).min?
    (ready.find? (fun p => some (bytes p) == least)).map (fun p => (cls, p)))).head?

/-- Bytes of a class charged to a pool in this epoch. -/
def chargeClass (s : State) (pool cls n : Nat) : State :=
  modPool s pool (fun p => { p with charged := p.charged.set cls (p.charged.getD cls 0 + n) })

/-- The oldest waiting command of a pool and class issued, if one may go (R228, R229). -/
def sendNext (s : State) (pool cls : Nat) : State :=
  match heldNext s pool cls with
  | some m => chargeClass (sendTurn s m) pool cls (if m.charged then 0 else dataBytes m)
  | none => s

/-- The row in progress of a class. -/
def setWork (s : State) (pool cls : Nat) (w : RowWork) : State :=
  modPool s pool (fun p =>
    match cls with
    | 2 => { p with copyWork := some w }
    | 3 => { p with scrubWork := some w }
    | _ => { p with work := some w })

/-- The reads of a row in progress begun. -/
def beginRow (s : State) (pool cls row : Nat) (want : List Nat) : State :=
  if want.isEmpty then setWork s pool cls { row := row, interlock := true, issued := true }
  else
    let s := if want.any (fun j => (missingData s pool row).contains j) then loseUnsynced s pool row else s
    let s := setWork s pool cls { row := row, interlock := true, fetch := some s.nextId }
    startFetch s pool row (rowVol s pool row) (getPool s pool).tile 0xF want (if cls = 3 then .scrub pool else .rebuild pool) .rebuild cls

/-- Positions a class takes up in a row: the sweep in critical rows alone, the pass everywhere, copyback the entry's strip unless it is lost
(R222), scrub every one. -/
def classPositions (s : State) (pool cls row : Nat) : List Nat :=
  match cls with
  | 0 => if critical (poolCfg s pool) (getPool s pool) row then rebuildPositions s pool row else []
  | 1 => rebuildPositions s pool row
  | 2 => match (getPool s pool).copy with
    | some (ix, _) => (positionOf (poolCfg s pool) row ix).toList.filter (fun j => !isLost (getPool s pool) row j)
    | none => []
  | _ => List.range (poolCfg s pool).w

/-- What a row's dirty data and records contribute to its conversion (R240): blocks of lost strips that they cover only in part are not
kept; the others are written. -/
def convertHeld (s : State) (pool row : Nat) (gone : List Nat) (d : Destage) (src : CRow) : State :=
  let (mask, data) := destageData s d.tile d.vol row src
  let part (j : Nat) : Bool := mask &&& stripMask j != stripMask j
  let lose := (gone.filter part).foldl (fun m j => m ||| stripMask j) 0
  let keep := mask &&& ~~~lose
  let s := clearLost s pool row keep
  let cov := (rowIntents s d.tile d.vol row).filter (fun e => !untaken s e.1 e.2.r.seq)
  let s := modTier s d.tile (fun x => mapRow x d.vol row (fun c => { c with dirty := c.dirty &&& ~~~lose, valid := c.valid &&& ~~~lose }))
  let s := modTier s d.tile (fun x =>
    { x with
      lines := x.lines.map (fun e => if e.2.c.is d.vol row ∧ e.2.c.dirty ≠ 0 then (e.1, { e.2 with st := .writing, mask := e.2.c.dirty }) else e)
      store := x.store.map (fun e => if e.2.c.is d.vol row ∧ e.2.c.dirty ≠ 0 then (e.1, { e.2 with st := 3, mask := e.2.c.dirty }) else e) })
  startResync s { d with mask := keep, data := toMember s d.vol row keep data, zeros := gone.filter part
                         intents := cov.map (fun e => (e.1, e.2.r.seq)) }

/-- R240: a broken row met by the main pass becomes a row with lost strips; the acknowledged writes it holds are destaged with
the conversion. A row whose entries the table has no room for stays broken (R238). -/
def convertBroken (s : State) (pool row : Nat) : State :=
  let c := poolCfg s pool
  let gone := (missing c (getPool s pool) row).filter (fun j => decide (j < c.k))
  let room := lstRoom s pool row gone
  let s := lstEnter s pool row gone 3
  if !room then s
  else
    let s := modPool s pool (fun p => { p with refused := p.refused.filter (· != row), refusedBase := p.refusedBase.filter (· != row) })
    let v := rowVol s pool row
    let t := rowTile s pool row
    let d : Destage :=
      { id := 0, tile := t, pool := pool, vol := v, q := 0, row := row, mask := 0, data := [], intents := [], zeros := gone, homes := true
        pipe := .rebuild, cls := 1 }
    match destageSource (getTile s t).tier v row with
    | none => startResync s d
    | some src => convertHeld s pool row gone d src

/-- A row of an unprotected import resynchronised, strips without a place entered in the LST (R387, R198). -/
def resyncRow (s : State) (pool row : Nat) (cls : Nat) : State :=
  let gone := missingData s pool row
  let room := lstRoom s pool row gone
  let s := lstEnter s pool row gone 2
  if !room || destaging s (rowVol s pool row) row then s
  else startResync s { id := 0, tile := rowTile s pool row, pool := pool, vol := rowVol s pool row, q := 0, row := row, mask := 0, data := []
                       intents := [], zeros := gone, pipe := .rebuild, cls := cls }

/-- One row of a class begun (R224, R239, R240). -/
def workRow (s : State) (pool cls row : Nat) : State :=
  let broken := isBroken s pool row
  let s := if broken && decide (cls < 2) then reportBroken s pool else s
  if broken ∧ cls = 1 then beginRow (convertBroken s pool row) pool cls row []
  else if !broken && cls != 3 && unsynced s pool row && !(missingData s pool row).isEmpty then beginRow (resyncRow s pool row cls) pool cls row []
  else beginRow s pool cls row (if broken then [] else classPositions s pool cls row)

/-- The row a class comes to next. -/
def classCursor (p : Pool) (cls : Nat) : Nat :=
  match cls with
  | 0 => p.critCursor
  | 1 => p.cursor
  | 2 => p.copyCursor
  | _ => p.scrubCursor

/-- A class's next row taken up: at once for a row of no volume, else once the volume's home tile grants the interlock (R225). -/
def takeRow (s : State) (pool cls : Nat) : State :=
  let row := classCursor (getPool s pool) cls
  if (volOfRow s pool row).isNone then workRow s pool cls row
  else modPool (setWork s pool cls { row := row }) pool (fun p => { p with interlockWait := addOnce p.interlockWait row })

/-- Work of a class put to the pipeline when no command of it waits. -/
def produce (s : State) (pool cls : Nat) : State :=
  if (heldNext s pool cls).isSome then s
  else if classReady s pool cls && decide (0 < s.budget.r.getD 0 0) then takeRow s pool cls
  else if cls = 1 ∧ zeroReady s pool then
    (match (getPool s pool).initWork, zeroingNext s pool with
     | _ :: _, _ => initCommand s pool
     | [], some e => zeroCommand s pool e
     | [], none => s)
  else s

/-- REBUILD_COMMAND_ISSUE (R229): the rebuild/scrub pipeline issues one member command of the class and pool that come first; where none
waits, the pool's next row or strip is taken up. -/
def execRebuildCommandIssue (pool : Nat) (s : State) : Result :=
  match nextWork s with
  | some (cls, p) => if serving s && p == pool then done (sendNext (produce s pool cls) pool cls) else .next s
  | none => .next s

/-- A row that its work holds, with the interlock not granted yet. -/
def workWaits (w : Option RowWork) (row : Nat) : Bool := w.any (fun w => w.row == row && !w.interlock)

/-- ROW_INTERLOCK_GRANT (R225): the home tile grants it while no destage of the row runs; the work that asked for it begins. -/
def execRowInterlockGrant (pool row : Nat) (s : State) : Result :=
  if !(serving s && (getPool s pool).interlockWait.contains row && !destaging s (rowVol s pool row) row) then .next s
  else
    let s := modPool s pool (fun p =>
      { p with interlockWait := p.interlockWait.filter (· != row), interlocks := addOnce p.interlocks row })
    let s := issueRepairs s pool row
    let s := if workWaits (getPool s pool).work row then workRow s pool (if (getPool s pool).pstate = 1 then 0 else 1) row else s
    let s := if workWaits (getPool s pool).copyWork row then workRow s pool 2 row else s
    let s := if workWaits (getPool s pool).scrubWork row then workRow s pool 3 row else s
    done (releaseRow s pool row)

/-- A Peridot pass that leaves an entry wholly at home: the home takes the index (R219). -/
def peridotEnd (s : State) (pool : Nat) : State :=
  let p := getPool s pool
  let keep (s : State) : State := if p.failList.any (fun e => e.home.isSome) then retable (storeCfg s) pool else s
  keep <| p.failList.foldl (fun s e =>
    match e.home with
    | none => s
    | some h =>
      let c := poolCfg s pool
      let s := setPoolCfg s pool { c with members := c.members.set e.index h, spares := c.spares.filter (· != h) }
      let s := modMember s h (fun m => { m with st := .online })
      updPool s pool (fun p => { p with failList := p.failList.filter (fun x => x.index != e.index) })) s

/-- A copyback begun onto a replacement (R242). -/
def startCopyback (s : State) (pool ix m : Nat) : State :=
  retable (updPool (modMember s m (fun x => { x with st := .replacing })) pool (fun p => { p with copy := some (ix, m), copyCursor := 0 })) pool

/-- The end of a main pass (R219, R242): every broken row has been converted, but for those the table had no room for. -/
def passEnd (s : State) (pool : Nat) : State :=
  let s := jetInfo (updPool s pool (fun p => { p with pstate := 0, broken := !p.refused.isEmpty })) 0x1005 (srcPool pool) []
  if (poolCfg s pool).peridot then peridotEnd s pool
  else
    match freeSpare s pool, (getPool s pool).failList, (getPool s pool).copy with
    | some m, e :: _, none => startCopyback s pool e.index m
    | _, _, _ => s

/-- A row's writes are done: its stage's cursor moves and its interlock ends (R224, R225). -/
def rowRebuilt (s : State) (pool row : Nat) : State :=
  releaseRow (updPool s pool (fun p =>
    let p := { p with work := none, cursorsMoved := true }
    if p.pstate = 1 then { p with critCursor := p.critCursor + 1 } else { p with cursor := p.cursor + 1 })) pool row

/-- The critical stage gives way to the main one, and the main one ends the pass, when its cursor has passed the last row (R222-R224). -/
def stageEnd (s : State) (pool : Nat) : State :=
  let rows := (poolCfg s pool).poolRows
  let p := getPool s pool
  if p.pstate = 1 ∧ rows ≤ p.critCursor then updPool s pool (fun p => { p with pstate := 2 })
  else if p.pstate = 2 ∧ rows ≤ p.cursor then passEnd s pool
  else s

/-- A resynchronisation of the row still runs, or waits to run (R233, R240). -/
def resyncing (s : State) (pool row : Nat) : Bool :=
  s.destages.any (fun d => d.pool == pool && d.row == row && d.resync) || (getPool s pool).salvages.any (fun e => e.1 == row)

/-- REBUILD_ROW_COMPLETE (R224): the row's writes are done; the cursor moves, and the stage or the pass may end. -/
def execRebuildRowComplete (pool : Nat) (s : State) : Result :=
  let p := getPool s pool
  match p.work with
  | none => .next s
  | some w =>
    if !(serving s && w.issued && w.writes.isEmpty) || resyncing s pool w.row then .next s
    else done (maintProgress (stageEnd (rowRebuilt s pool w.row) pool))

/-- A row copied: the copyback cursor moves and the row's interlock ends (R243). -/
def rowCopied (s : State) (pool row : Nat) : State :=
  releaseRow (updPool s pool (fun p => { p with copyWork := none, copyCursor := p.copyCursor + 1, cursorsMoved := true })) pool row

/-- The end of a copyback: the replacement takes the failed member's pool index, the configuration is stored (R243). -/
def copybackEnd (s : State) (pool ix m : Nat) : State :=
  let c := poolCfg s pool
  let s := setPoolCfg s pool { c with members := c.members.set ix m, spares := c.spares.filter (· != m) }
  let s := modMember s m (fun x => { x with st := .online })
  let s := modPool s pool (fun p => { p with copy := none, copyCursor := 0 })
  let s := listChange s pool ((getPool s pool).failList.filter (fun e => e.index != ix))
  jetInfo (retable (storeCfg s) pool) 0x1006 (srcPool pool) (leBytes 2 ix)

/-- COPYBACK_ROW_COMPLETE (R243). -/
def execCopybackRowComplete (pool : Nat) (s : State) : Result :=
  let p := getPool s pool
  match p.copyWork, p.copy with
  | some w, some (ix, m) =>
    if !(serving s && w.issued && w.writes.isEmpty) || resyncing s pool w.row then .next s
    else
      let s := rowCopied s pool w.row
      done (if (getPool s pool).copyCursor < (poolCfg s pool).poolRows then s else copybackEnd s pool ix m)
  | _, _ => .next s

/-- CURSOR_METADATA_WRITE (R224, R247): the progress record to every live member. -/
def execCursorMetadataWrite (pool : Nat) (s : State) : Result :=
  let p := getPool s pool
  if !(serving s && p.cursorsMoved) then .next s
  else
    let s := modPool s pool (fun p => { p with cursorsMoved := false })
    done (metaWrite s pool (liveMembers s pool) 0x9000 4096 (Mem.ofList (progressBytes p)) (.metadata pool))

/-! ### Scrub (R245, R246) -/

/-- The next scrub position; a pass ends at the pool's last row, and with it the resynchronisation of R387. -/
def scrubNext (s : State) (pool : Nat) : State :=
  updPool s pool (fun p =>
    if (poolCfg s pool).poolRows ≤ p.scrubCursor + 1 then
      { p with scrubCursor := 0, scrubbing := false, cursorsMoved := true, resyncAt := none, synced := [] }
    else { p with scrubCursor := p.scrubCursor + 1, cursorsMoved := true, resyncAt := p.resyncAt.map (max (p.scrubCursor + 1)) })

/-- A row that scrub has read, judged by its syndromes and repaired under its interlock (R246). A row of an unprotected import only has its
parity made anew (R387). -/
def scrubJudge (s : State) (pool : Nat) (x : Fetch) : State :=
  let p := getPool s pool
  let c := poolCfg s pool
  let row := x.row
  let got := fetchStrips s x
  let strips := (List.range c.w).map (fun j => if isLost p row j then [] else stripOf got j)
  let ds := strips.take c.k
  let fix (s : State) (pos : Nat) (m : Mem) : State :=
    askRepair s pool { row := row, pos := pos, cols := 0xF, data := m, pipe := .rebuild, cls := 3 }
  let pq (s : State) : State := fix (fix s c.k (parityP ds)) (c.k + 1) (parityQ ds)
  let s := modPool (endFetch s x.id) pool (fun p => { p with scrubWork := none })
  let s := match scrubVerdict c.k strips with
    | none => s
    | some v =>
      if unsynced s pool row then pq s
      else match v with
        | some z =>
          let m := if z < c.k then Mem.xor (strips.getD z []) (Mem.xor (parityP ds) (strips.getD c.k []))
            else if z = c.k then parityP ds else parityQ ds
          fix (fault0 s 0x1003 1 (srcMember ((readPlace c p row z).getD 0))) z m
        | none => pq (fault0 s 0x1012 2 (srcPool pool))
  scrubNext (releaseRow s pool row) pool

/-- A row that scrub passes over: counted by kind, or, in an unprotected import, resynchronised (R245, R387). -/
def scrubPass (s : State) (pool row : Nat) : State :=
  if unsynced s pool row && !isBroken s pool row && !(missing (poolCfg s pool) (getPool s pool) row).isEmpty then
    scrubNext (resyncRow s pool row 3) pool
  else
    scrubNext (modPool s pool (fun p =>
      if rowHasIntent s pool row then { p with skipIntent := p.skipIntent + 1 }
      else if isBroken s pool row then { p with skipBroken := p.skipBroken + 1 }
      else { p with skipMissing := p.skipMissing + 1 })) pool

/-- SCRUB_ROW (R245, R246): the row at the scrub's cursor is judged once its strips have been read, and passed over where it is to be skipped.
A row to be read is taken up by REBUILD_COMMAND_ISSUE, in its class. -/
def execScrubRow (pool row : Nat) (s : State) : Result :=
  let p := getPool s pool
  if !serving s || row != p.scrubCursor then .next s
  else match p.scrubWork with
    | some w =>
      (match w.fetch.bind (getFetch? s) with
       | some x => if fetchReady s x then done (maintProgress (scrubJudge s pool x)) else .next s
       | none => .next s)
    | none =>
      if !scrubOn s pool || !skipRow s pool row || destaging s (rowVol s pool row) row || (getPool s pool).interlocks.contains row ||
          (unsynced s pool row && rowHasIntent s pool row) then .next s
      else done (scrubPass s pool row)

/-- PASS_START at an epoch edge (R223, R224). -/
def passStart (s : State) (pool : Nat) : State :=
  if (getPool s pool).passPending then
    jetInfo (updPool s pool (fun p => { p with passPending := false, passEpoch := s.moon.epoch })) 0x1004 (srcPool pool) []
  else s

end Sys2Proof.Machine
end

