-- ==== Sys2Proof/Machine/Replay.lean ====
section
/-! DEFINITION. Replay of journal rings (R195-R200), shared by the restart, by the adoption of a lost tile's ring (R41) and by the import
of a partner's pool (R386). -/

namespace Sys2Proof.Machine

/-! ### The walk of a ring (R195, R196) -/

/-- A record of which a copy can be read whole: the own copy on a tile in service, else the mirror copy on its buddy. A record whose header
was not written is none (R164, R176). -/
def goodCopy (s : State) (t : Nat) (r : RingRec) : Bool := !r.open_ && ((r.own && tileUp s t) || (r.mirror && tileUp s (buddy t)))

/-- The records found from offset `off` on: each next one lies there, or is the first good one of the 7,681 units beyond (R196). -/
def walkRecs (good : RingRec → Bool) : Nat → List RingRec → List RingRec
  | _, [] => []
  | off, r :: l =>
    if !good r then walkRecs good off l
    else if (r.off + ringBytes - off) % ringBytes ≤ 64 * 7681 then r :: walkRecs good ((r.off + recBytes r.r) % ringBytes) l
    else []

/-- A ring walked from its newest good head slot; without one, from its start. -/
def walkRing (s : State) (t : Nat) : List RingRec :=
  let a := (getTile s t).amber
  let h := (newestSlot (a.slots.map (·.2))).getD { count := 0, seq := 0, off := 0, crc := 0 }
  walkRecs (goodCopy s t) h.off (a.recs.filter (fun r => decide (h.seq ≤ r.r.seq)))

/-- Rings that can be walked: a tile's own half, or its mirror on the buddy (R195). -/
def readableRings (s : State) : List Nat := (List.range s.part.tiles).filter (fun t => tileUp s t || tileUp s (buddy t))

/-! ### Content of a row (R197) -/

/-- An INTENT whose DATA record, if it has one, lies in a spill copy: SPILLED, not FULLROW, and no DATA record in MRAM; a ZERO one only when
its part was degraded (R197). -/
def wantsSpill (a : Amber) (i : RingRec) : Bool :=
  i.r.spilled && !i.r.fullrow && (!i.r.zero || i.r.recon) && !a.recs.any (fun d => d.r.kind == .data && d.r.ref == i.r.seq)

/-- A read of the spill copy of an INTENT on mirror member `which` (R179, R197). -/
def readSpill (s : State) (x : ReplayRow) (ring : Nat) (i : Rec) (which : Nat) : State :=
  let m := (mirrorMembers s x.pool).getD which 0
  issueM s x.pool m x.tile .read (16 * 2 ^ 30 + 4096 * i.ref) (4096 * (1 + spillLen s x.pool i)) [] (.spillRead ring i.seq which) .host

/-- The first mirror member from `which` on that is not failed. -/
def mirrorFrom (s : State) (pool which : Nat) : Option Nat :=
  ([0, 1].filter (fun w => decide (which ≤ w))).find? (fun w => !memberFailed s ((mirrorMembers s pool).getD w 0))

/-- The DATA record of an INTENT, in MRAM or as the good spill copy found, and whether it is ciphertext. -/
def dataRec (s : State) (x : ReplayRow) (ring : Nat) (i : Rec) : Option (Rec × Bool) :=
  match (getTile s ring).amber.recs.find? (fun d => d.r.kind == .data && d.r.ref == i.seq) with
  | some d => some (d.r, false)
  | none => (x.copies.find? (fun e => e.1 == (ring, i.seq))).map (fun e => (e.2, true))

/-- An INTENT written under WT or WA, by the policy that its row has (log entry 113): its blocks are not taken from it (R197). -/
def throughPolicy (s : State) (x : ReplayRow) (i : Rec) : Bool :=
  let v := volCfg s x.vol
  let p := rowPolicy v (volRowOf v x.row)
  !i.uc && (p == 1 || p == 2)

/-- What a DATA record brings, as members hold it: its blocks, or its RECON strips. -/
def asMember (s : State) (x : ReplayRow) (cipher : Bool) (mask : BitVec 128) (row : Mem) : Mem :=
  if cipher then row else toMember s x.vol x.row mask row

/-- The row's blocks and RECON strips as replay finds them, in generation order: mask, content as members hold it, and known strips. -/
def replayContent (s : State) (x : ReplayRow) : BitVec 128 × Mem × List (Nat × Mem) :=
  x.intents.foldl (fun (acc : BitVec 128 × Mem × List (Nat × Mem)) q =>
    match (getTile s q.1).amber.find? q.2 with
    | none => acc
    | some i =>
      let r := i.r
      let d := dataRec s x q.1 r
      let known := match d with
        | some (y, cipher) =>
          let row := asMember s x cipher ((reconPositions y).foldl (fun m j => m ||| stripMask j) 0) (reconRow y)
          (reconPositions y).foldl (fun l j => Tab.set l j (Mem.slice row (16384 * j) 16384)) acc.2.2
        | none => acc.2.2
      if r.zero then
        (acc.1 ||| r.blockMask, Mem.mergeBlocks acc.2.1 (toMember s x.vol x.row r.blockMask []) r.blockMask, known)
      else if r.fullrow || throughPolicy s x r then (acc.1, acc.2.1, known)
      else match d with
        | some (y, cipher) => (acc.1 ||| r.blockMask, Mem.mergeBlocks acc.2.1 (asMember s x cipher r.blockMask (recordRow y)) r.blockMask, known)
        | none => (acc.1, acc.2.1, known)) (0, [], [])

/-- A row all of whose copies are known: its blocks are written and P and Q recomputed from data strips and RECON strips; a strip that
resync needs and that nothing gives is entered in the Lost-Strip Table (R198). The RETIREs follow with DESTAGE_COMPLETE (R199). A row
without room for its entries stays as it is, its records unretired (R238, R239). -/
def finishReplayRow (s : State) (x : ReplayRow) : State :=
  let s := { s with replays := s.replays.filter (fun y => !(y.vol == x.vol && y.row == x.row)) }
  let (mask, data, known) := replayContent s x
  let c := poolCfg s x.pool
  let p := getPool s x.pool
  let lost := (List.range c.k).filter (fun j =>
    (readPlace c p x.row j).isNone && !isLost p x.row j && !known.any (fun e => e.1 == j) && mask &&& stripMask j != stripMask j)
  let room := lstRoom s x.pool x.row lost
  let s := lstEnter s x.pool x.row lost 2
  if !room then s
  else startResync s { id := 0, tile := x.tile, pool := x.pool, vol := x.vol, q := 0, row := x.row, mask := mask, data := data
                       intents := x.intents, known := known, zeros := lost, torn := true }

/-! ### Spill reads of replay -/

/-- A row's replay begun: its spill copies are read first (R196). -/
def beginReplayRow (s : State) (x : ReplayRow) : State :=
  let want := x.intents.filterMap (fun q =>
    ((getTile s q.1).amber.find? q.2).bind (fun i => if wantsSpill (getTile s q.1).amber i then some (q.1, i) else none))
  match mirrorFrom s x.pool 0 with
  | none => finishReplayRow s x
  | some w =>
    if want.isEmpty then finishReplayRow s x
    else
      let x := { x with reads := want.map (fun e => (e.1, e.2.r.seq)) }
      want.foldl (fun s e => readSpill s x e.1 e.2.r w) { s with replays := s.replays ++ [x] }

def getReplay? (s : State) (ring seq : Nat) : Option ReplayRow := s.replays.find? (fun x => x.reads.contains (ring, seq))

/-- A spill read has ended with or without a good copy. -/
def endSpillRead (s : State) (ring seq : Nat) (got : Option Rec) : State :=
  match getReplay? s ring seq with
  | none => s
  | some x =>
    let x' := { x with reads := x.reads.filter (· != (ring, seq)), copies := match got with
      | some r => x.copies ++ [((ring, seq), r)]
      | none => x.copies }
    if x'.reads.isEmpty then finishReplayRow s x'
    else { s with replays := s.replays.map (fun y => if y = x then x' else y) }

/-- The bytes of a spill copy as read; a bad first copy sends the read to the other mirror member (R179). -/
def gotSpill (s : State) (ring seq which : Nat) (data : Option Mem) : State :=
  match getReplay? s ring seq, (getTile s ring).amber.find? seq with
  | some x, some i =>
    match data.bind (spillCopy i.r) with
    | some y => endSpillRead s ring seq (some y)
    | none =>
      (match mirrorFrom s x.pool (which + 1) with
       | some w => readSpill s x ring i.r w
       | none => endSpillRead s ring seq none)
  | _, _ => s

/-! ### Rows -/

/-- Replay of the rows that have unretired INTENTs in the given rings, those that `p` picks: each row once, with its INTENTs of all these
rings in generation order, by the tile that homes its volume (R195, R196). -/
def replayRings (s : State) (rings : List Nat) (p : RingRec → Bool) : State :=
  let l := rings.flatMap (fun t => ((getTile s t).amber.intents.filter p).map (fun r => (t, r)))
  ((l.map (fun e => (e.2.r.vol, e.2.r.row))).eraseDups).foldl (fun s e =>
    let mine := genSort (fun (y : Nat × RingRec) => y.2.r.generation) (l.filter (fun y => y.2.r.vol == e.1 && y.2.r.row == e.2))
    beginReplayRow s { tile := homeTile s e.1, pool := (volCfg s e.1).pool, vol := e.1, row := e.2, intents := mine.map (fun y => (y.1, y.2.r.seq)) }) s

end Sys2Proof.Machine
end

