-- ==== Sys2Proof/Machine/MemberRows.lean ====
section
/-! DEFINITION. Members (R204-R212, R230, R365-R377): what a completion, a deadline and a timeout do, queues and their paths, keep
alive, and the ends of initialisation and zeroing. -/

namespace Sys2Proof.Machine

/-! ### Paths (R366, R373) -/

/-- Links of role MEMBER (Table 11-8: 2) that are up on a tile and serve a pool (R359). -/
def memberLinks (s : State) (tile pool : Nat) : List Nat :=
  (s.cfg.links.filter (fun e => e.2.p.role == 2 && tileOfPort e.1 == tile && (getLink s e.1).up && e.2.p.poolMask.getLsbD pool)).map
    Prod.fst

/-- Connected queues that run on a link. -/
def queuesOn (s : State) (port : Nat) : Nat :=
  (s.members.map (fun e => (e.2.queues.filter (fun q => q.connected && q.port == port)).length)).foldl (· + ·) 0

/-- R373: the up MEMBER link with the fewest queues, the lowest port on a tie. -/
def pathFor (s : State) (tile pool : Nat) : Option Nat :=
  let ports := memberLinks s tile pool
  let least := (ports.map (queuesOn s)).min?
  ports.find? (fun p => some (queuesOn s p) == least)

/-- The next link in rotation after `port` (R376). -/
def nextPath (s : State) (tile pool port : Nat) : Option Nat :=
  let ports := memberLinks s tile pool
  match ports.find? (fun p => decide (port < p)) with
  | some p => some p
  | none => ports.head?

def isQueue (tile : Nat) (admin : Bool) (q : Queue) : Bool := q.tile == tile && q.admin == admin

def getQueue? (s : State) (m tile : Nat) (admin : Bool) : Option Queue := (getMember s m).queues.find? (isQueue tile admin)

def modQueue (s : State) (m tile : Nat) (admin : Bool) (f : Queue → Queue) : State :=
  modMember s m (fun x => { x with queues := x.queues.map (fun q => if isQueue tile admin q then f q else q) })

def dropQueue (s : State) (m tile : Nat) (admin : Bool) : State :=
  modMember s m (fun x => { x with queues := x.queues.filter (fun q => !isQueue tile admin q) })

/-- A queue connected: commands that waited for a path go out (R375). -/
def connected (s : State) (m tile : Nat) (admin : Bool) (f : Queue → Queue) : State :=
  relaunchMember (modQueue s m tile admin (fun q => { f q with connected := true })) m

/-! ### Declaration (R208) -/

/-- One spill write of a DEALLOCATE's DATA record done: the record is in place with the second (R281). -/
def discardSpilled (s : State) (mid row : Nat) : State :=
  modDiscard s mid row (fun d => { d with spills := d.spills - 1, ready := decide (d.spills ≤ 1) })

/-- A member write that will not be made, or has been made: who waits for it goes on (R188, R224, R243). -/
def lessWrite (s : State) (x : MCmd) : State :=
  let less (l : List Nat) : List Nat := l.filter (· != x.id)
  match x.purpose with
  | .destage d _ => modDestage s d (fun d => { d with writes := less d.writes })
  | .rebuildWrite pool _ => modPool s pool (fun p => { p with work := p.work.map (fun w => { w with writes := less w.writes }) })
  | .copyWrite pool _ => modPool s pool (fun p => { p with copyWork := p.copyWork.map (fun w => { w with writes := less w.writes }) })
  | .repair pool row _ => releaseRow s pool row
  | .lstWrite pool => lstCommit s pool
  | .discardSpill mid row => discardSpilled s mid row
  | _ => s

/-- A command of a failed member abandoned (R208): a strip is recovered where it can be, a spill copy read from the other mirror member, a
write skipped (R188). -/
def abandon (s : State) (x : MCmd) : State :=
  match x.purpose with
  | .fetch f pos => strikeFetch s f pos false 0
  | .spillRead t q w => gotSpill s t q w none
  | .ueRead ring seq vol row b w => gotUe s ring seq vol row b w none
  | _ => lessWrite s x

/-- Every command of a member abandoned, those that wait among them. -/
def abandonAll (s : State) (m : Nat) : State :=
  let mine := s.mcmds.filter (fun x => x.member == m)
  mine.foldl abandon { s with mcmds := s.mcmds.filter (fun x => x.member != m) }

/-- A failed member leaves its pool's work: a copyback target, a Peridot home, or a pool index that enters the failure list; the mirror set
and the metadata members follow (R190, R208, R219, R244, R247, R248). -/
def failInPool (s : State) (m pool : Nat) (was : MemberState) : State :=
  let metas := metaMembers s pool
  let s := modPool s pool (fun p => { p with initWork := p.initWork.filter (fun e => e.1 != m) })
  let s := if (getPool s pool).copy.any (fun e => e.2 == m) then endCopyback s pool
    else if was = .replacing ∧ (getPool s pool).failList.any (fun e => e.home == some m) then replaceHome s pool m (freeSpare s pool)
    else s
  let c := poolCfg s pool
  let s := match (List.range c.n).find? (fun ix => memberAt c ix == m && !isFailedIx (getPool s pool).failList ix) with
    | none => s
    | some ix => mirrorFailed (appendFailure s pool ix) pool ix
  retable (copyMeta s pool ((metaMembers s pool).filter (fun x => !metas.contains x))) pool

/-- R208: the member is declared failed. -/
def declareFailed (s : State) (m : Nat) : State :=
  if (getMember s m).st = .failed then s
  else
    let was := (getMember s m).st
    let s := modMember s m (fun x => { x with st := .failed, declared := s.moon.epoch, queues := [], failedIn := poolOfMember s m })
    let s := unspill (fault0 s 0x1001 1 (srcMember m)) m
    let s := match poolOfMember s m with
      | none => s
      | some pool => failInPool s m pool was
    abandonAll s m

/-! ### Completions (R206, R207, R211, R212, R377) -/

/-- A successful completion: consecutive timeouts reset, LAGGING ends (R205, R212). -/
def memberGood (s : State) (m : Nat) : State :=
  modMember s m (fun x => { x with strikes := 0, st := if x.st = .lagging then .online else x.st })

/-- A timeout, or what counts as one: the third in a row declares the member failed (R205). -/
def countTimeout (s : State) (m : Nat) : State :=
  let s := modMember s m (fun x => { x with strikes := x.strikes + 1, timeouts := x.timeouts + 1 })
  if 3 ≤ (getMember s m).strikes then declareFailed s m else s

/-- Data of a completed read (R36, R37): a strip that is still wanted, laid at its block columns; a late one counts as obtained. -/
def readData (s : State) (x : MCmd) (data : Mem) : State :=
  match x.purpose with
  | .fetch f pos =>
    if (getFetch? s f).isSome then
      finishFetch (modFetch s f (fun y =>
        let have_ := (y.got.find? (fun e => e.1 == pos)).map (·.2)
        let strip := Mem.paste (have_.getD []) (x.off % 16384) x.len data
        { y with got := if have_.isSome && !y.salvage then y.got else Tab.set y.got pos strip, erased := y.erased.filter (· != pos) })) f
    else s
  | .spillRead t q w => gotSpill s t q w (some data)
  | .ueRead ring seq vol row b w => gotUe s ring seq vol row b w (some data)
  | .recopyRead pool t ref n => gotRecopy s pool t ref n data
  | _ => s

/-- A completed member write (R188, R224, R243). -/
def writeDone (s : State) (x : MCmd) : State :=
  match x.purpose with
  | .spill id i =>
    let s := modPart s id i (fun p => { p with spills := p.spills - 1 })
    (match getCmd? s id with
     | some c => ackPart s c i
     | none => s)
  | _ => lessWrite s x

/-- A command issued again as a new command (R207): whoever waited for the original waits for it, and a late completion of the original
finds nothing. -/
def renew (s : State) (x : MCmd) : State :=
  let n := s.nextId
  let f (l : List Nat) : List Nat := l.map (fun i => if i = x.id then n else i)
  let w (o : Option RowWork) : Option RowWork := o.map (fun w => { w with writes := f w.writes })
  let s : State := { s with
    destages := s.destages.map (fun (d : Destage) => { d with writes := f d.writes })
    pools := s.pools.map (fun (e : Nat × Pool) => (e.1, { e.2 with work := w e.2.work, copyWork := w e.2.copyWork })) }
  launch (bump (dropMCmd s x.id)) { x with id := n, charged := false, retried := false, retrying := false, late := false }

/-- A read abandoned (R207): its strip is reconstructed where Table 3-3 can; a read that cannot be spared is issued again. -/
def dropRead (s : State) (x : MCmd) : State :=
  match x.purpose with
  | .fetch f pos =>
    (match getFetch? s f with
     | none => dropMCmd s x.id
     | some y =>
       let gone := missing (poolCfg s y.pool) (getPool s y.pool) y.row
       let e := sortedErased (pos :: y.erased ++ gone)
       let spare := !y.torn && !y.salvage && (isBroken s y.pool y.row || recoverable s y.pool y.row e)
       if spare || gone.contains pos || y.got.any (fun e => e.1 == pos) then strikeFetch (dropMCmd s x.id) f pos false 0 else renew s x)
  | .spillRead t q w => gotSpill (dropMCmd s x.id) t q w none
  | .ueRead ring seq vol row b w => gotUe (dropMCmd s x.id) ring seq vol row b w none
  | _ => dropMCmd s x.id

/-- A timed-out write issued again once; after that it stays with its member until a completion or the declaration (R207). -/
def writeAgain (s : State) (x : MCmd) : State :=
  if x.reissued then modMCmd s x.id (fun y => { y with late := true }) else renew s { x with reissued := true }

/-- What counts as a timeout for a command (R205, R207, R377). -/
def timedOut (s : State) (x : MCmd) : State :=
  let s := if x.op = .read then dropRead s x else writeAgain s x
  countTimeout s x.member

/-- Block columns that a read of a strip covers. -/
def readCols (x : MCmd) : BitVec 4 :=
  (List.range 4).foldl (fun m b =>
    if decide (x.off % 16384 ≤ 4096 * b) && decide (4096 * b < x.off % 16384 + x.len) then m ||| oneCol b else m) 0

/-- A completion applied (R206, R232, R371, R377). -/
def applyCompletion (s : State) (x : MCmd) (st : NvmeStatus) (data : Mem) : State :=
  let isWrite := x.op != .read
  match st with
  | .success =>
    let s := memberGood s x.member
    if x.op = .read then readData (dropMCmd s x.id) x data
    else if x.op = .dsm then launch (dropMCmd s x.id) { x with op := .flush, retried := false, reissued := false, late := false }
    else writeDone (dropMCmd s x.id) x
  | .notReadyDnr => declareFailed s x.member
  | .mediaError =>
    if x.op = .write ∨ x.op = .flush then declareFailed s x.member
    else if isWrite then timedOut (fault0 s 0x1023 1 (srcMember x.member)) x
    else
      match x.purpose with
      | .fetch f pos => strikeFetch (dropMCmd s x.id) f pos true (readCols x)
      | _ => dropRead s x
  | .retryable =>
    if x.retried then timedOut s x
    else modMCmd s x.id (fun y => { y with retried := true, retrying := true })
  | .otherDnr => timedOut (fault0 s 0x1023 1 (srcMember x.member)) x
  | .dataDigest =>
    if isWrite then s
    else if x.retried then timedOut s x
    else relaunch s { x with retried := true }

/-- The member's admin queue is connected. -/
def adminUp (s : State) (m : Nat) : Bool := (getMember s m).queues.any (fun q => q.admin && q.connected)

/-- Error Information read on the admin queue after an error completion (Table 8-3). -/
def readErrorLog (s : State) (m : Nat) (st : NvmeStatus) : State :=
  if st != .success && st != .dataDigest && adminUp s m then emit s (.nvmeAdmin m 0x02 0x01) else s

/-- MEMBER_COMMAND_COMPLETION (R206). -/
def execMemberCommandCompletion (m : Nat) (st : NvmeStatus) (data : Mem) (s : State) : Result :=
  match getMCmd? s m with
  | none => .next s
  | some x =>
    if !(running s && outstanding x && hasPath s x.member) then .next s
    else done (maintProgress (relaunchMember (applyCompletion (readErrorLog s x.member st) x st data) x.member))

/-- MEMBER_COMMAND_TIMEOUT (R205, R207). -/
def execMemberCommandTimeout (m : Nat) (s : State) : Result :=
  match getMCmd? s m with
  | none => .next s
  | some x =>
    if running s && outstanding x && !(x.op != .read && x.reissued && x.late) then done (maintProgress (timedOut s x)) else .next s

/-- A read past its deadline: counted, and its member lagging (R211). -/
def lateRead (s : State) (x : MCmd) : State :=
  let was := (getMember s x.member).st
  let s := modMCmd s x.id (fun y => { y with late := true })
  let s := modMember s x.member (fun y => { y with deadlines := y.deadlines + 1, st := if y.st = .online then .lagging else y.st })
  if was = .online then jetInfo s 0x1002 (srcMember x.member) [] else s

/-- READ_DEADLINE (R210, R211): a host-pipeline read. -/
def execReadDeadline (m : Nat) (s : State) : Result :=
  match getMCmd? s m with
  | none => .next s
  | some x =>
    if !(running s && x.op == .read && x.pipe == .host && outstanding x && !x.late) then .next s
    else
      match x.purpose with
      | .fetch f pos => done (strikeFetch (lateRead s x) f pos false 0)
      | _ => done (lateRead s x)

/-- MEMBER_REACH_TIMEOUT (R205): no I/O queue of the member connected for 2 ms. -/
def execMemberReachTimeout (member : Nat) (s : State) : Result :=
  if serving s && (poolOfMember s member).isSome && !hasPath s member && !memberFailed s member then
    done (maintProgress (declareFailed s member))
  else .next s

/-- SMART_LOG_POLL (R205, R206): the log is read, a successful completion; Critical Warning bit 3 is fatal. -/
def execSmartLogPoll (member : Nat) (warning : Byte) (s : State) : Result :=
  if !(serving s && adminUp s member) then .next s
  else
    let s := memberGood (emit s (.nvmeAdmin member 0x02 0x02)) member
    done (if warning.getLsbD 3 then maintProgress (declareFailed s member) else s)

/-- MEMBER_REISSUE (R377): 100 µs after a retryable error. -/
def execMemberReissue (m : Nat) (s : State) : Result :=
  match getMCmd? s m with
  | none => .next s
  | some x => if running s && x.retrying then done (relaunch s x) else .next s

/-! ### Queues (R366, R367, R373-R376) -/

/-- "nqn.2023-05.com.rysdakan:efusha:" and the serial number (R365). -/
def hostNqn : List Byte :=
  ("nqn.2023-05.com.rysdakan:efusha:".toList.map (fun c => BitVec.ofNat 8 c.toNat)) ++
    (List.range 12).map (fun i => Config.serial.extractLsb' (8 * i) 8)

/-- Messages of setup sent for a queue on its port, in order (R363, R367). -/
def sendSetup (s : State) (m tile : Nat) (admin : Bool) (port : Nat) (l : List SetupMsg) : State :=
  emits s (l.map (.nvmeSetup m tile admin port))

/-- Steps 1 and 2: the TCP connection, with the MSS of R364, and ICReq. -/
def openMsgs (s : State) (m port : Nat) : List SetupMsg :=
  let p := (Tab.get? s.cfg.members m).getD { member := m, group := 0, family := 4, tcpPort := 4420, nsid := 0, addr := 0, nqn := [] }
  let mtu := ((Tab.get? s.cfg.links port).map (·.p.mtu)).getD 1500
  [.tcp p.addr p.tcpPort (mtu - (if p.family = 6 then 60 else 40)) true true true true, .icReq 0 0 true true 0]

/-- Step 3: Fabrics Connect; an I/O queue asks for 128 entries, or MQES + 1 if fewer (R366). -/
def connectMsg (s : State) (m : Nat) (admin : Bool) : SetupMsg :=
  let x := getMember s m
  .connect admin (if admin then 0xFFFF else x.cntlid) (if admin then 5000 else 0) (if admin then 32 else min 128 (x.mqes + 1)) hostNqn
    Config.uuid (((Tab.get? s.cfg.members m).map (·.nqn)).getD [])

/-- Step 5: Identify Controller and Namespace, and the Number of Queues. -/
def identifyMsgs (s : State) (m : Nat) : List SetupMsg :=
  [.identify 1 0, .identify 0 (((Tab.get? s.cfg.members m).map (·.nsid)).getD 0), .setQueues 8]

/-- The step a queue takes next (R367): TCP and ICReq/ICResp, Connect, and for the first admin queue Property and Identify. -/
def setupStep (s : State) (m tile pool : Nat) (admin : Bool) (q : Queue) (step : QueueStep) : State :=
  match step with
  | .tcp => s
  | .icResp h d maxH2c =>
    if q.step ≠ 1 then s
    else if h && d then
      let s := modMember (modQueue s m tile admin (fun q => { q with step := 2 })) m (fun x => { x with maxH2c := maxH2c })
      sendSetup s m tile admin q.port [connectMsg s m admin]
    else
      fault0 (dropQueue (modMember s m (fun x => { x with unusable := true })) m tile admin) 0x1022 1 (srcMember m)
  | .connect granted cntlid =>
    if q.step ≠ 2 then s
    else if !granted then dropQueue s m tile admin
    else
      let s := modQueue s m tile admin (fun q => { q with step := 3 })
      let s := if admin then modMember s m (fun x => { x with cntlid := cntlid }) else s
      if admin && !(getMember s m).identified then sendSetup s m tile admin q.port [.setCc true 6 4, .getCsts]
      else
        let depth := if admin then 32 else min 128 ((getMember s m).mqes + 1)
        connected s m tile admin (fun q => { q with step := 5, depth := depth, port := (pathFor s tile pool).getD q.port })
  | .property ready =>
    if !(admin && q.step == 3) then s
    else if ready then sendSetup (modQueue s m tile admin (fun q => { q with step := 4 })) m tile admin q.port (identifyMsgs s m)
    else sendSetup s m tile admin q.port [.getCsts]
  | .identify n mqes ioccsz dl lba4k cap =>
    if admin && q.step == 4 && !q.connected then
      let s := modMember s m (fun x =>
        { x with identified := true, mqes := mqes, granted := n, ioccsz := ioccsz, dlfeat1 := dl, capacity := if lba4k then cap else 0 })
      connected s m tile admin (fun q => { q with step := 5, depth := 32 })
    else s

/-- MEMBER_QUEUE_SETUP (R366, R367): a member of a pool or hot spare list. -/
def execMemberQueueSetup (member tile : Nat) (admin : Bool) (step : QueueStep) (s : State) : Result :=
  match poolOfMember s member with
  | none => .next s
  | some pool =>
    let x := getMember s member
    let place := if admin then tile == (getPool s pool).tile
      else x.identified && decide ((x.queues.filter (fun q => !q.admin && q.tile != tile)).length < min 8 x.granted)
    if !(fwUp s && tileUp s tile && place) || memberFailed s member || x.unusable then .next s
    else
      match getQueue? s member tile admin, step, pathFor s tile pool with
      | none, .tcp, some p =>
        let s := modMember s member (fun x => { x with queues := x.queues ++ [{ tile := tile, admin := admin, step := 1, port := p }] })
        done (sendSetup s member tile admin p (openMsgs s member p))
      | some q, st, some _ => if q.connected then .next s else done (setupStep s member tile pool admin q st)
      | _, _, _ => .next s

/-- KEEP_ALIVE (R367, R205): sent and completed; one that is not breaks the queue (R374). -/
def execKeepAlive (member : Nat) (s : State) : Result :=
  if running s && adminUp s member then
    done (memberGood (emit (modMember s member (fun x => { x with keepAlives := x.keepAlives + 1 })) (.nvmeAdmin member 0x18 0)) member)
  else .next s

/-- R375: a queue breaks; its outstanding commands are reissued on another queue of the member, or wait. -/
def breakQueue (s : State) (m tile : Nat) (admin : Bool) : State :=
  let mine := if admin then [] else
    s.mcmds.filter (fun x => x.member == m && outstanding x && (queueFor s m x.tile).any (fun q => q.tile == tile))
  let s := modQueue s m tile admin (fun q => { q with connected := false, step := 0 })
  mine.foldl reissue (jetInfo s 0x1020 (srcMember m) [])

/-- MEMBER_QUEUE_BREAK (R374). -/
def execMemberQueueBreak (member tile : Nat) (admin : Bool) (_cause : BreakCause) (s : State) : Result :=
  match getQueue? s member tile admin with
  | some q => if running s && q.connected then done (breakQueue s member tile admin) else .next s
  | none => .next s

/-- MEMBER_RECONNECT_ATTEMPT (R376): a broken queue of the tile, an I/O queue before the admin queue. -/
def execMemberReconnectAttempt (member tile : Nat) (ok : Bool) (s : State) : Result :=
  let broken (a : Bool) : Bool := (getQueue? s member tile a).any (fun q => !q.connected && q.step == 0)
  let admin := !broken false
  match poolOfMember s member, getQueue? s member tile admin with
  | some pool, some q =>
    if !(running s && tileUp s tile && broken admin) || memberFailed s member then .next s
    else
      match nextPath s tile pool q.port with
      | none => .next s
      | some p =>
        let s := sendSetup s member tile admin p (openMsgs s member p ++ (if ok then [connectMsg s member admin] else []))
        if ok then
          done (jetInfo (connected s member tile admin (fun q => { q with step := 5, port := p })) 0x1021 (srcMember member) [])
        else done (modQueue s member tile admin (fun q => { q with port := p }))
  | _, _ => .next s

/-! ### Initialisation, zeroing and the extended self-test's reads -/

/-- POOL_INIT_COMPLETE (R372): the data area of every member is zero. -/
def execPoolInitComplete (pool : Nat) (s : State) : Result :=
  let p := getPool s pool
  if fwUp s && p.st == .initialising && p.init && p.initWork.isEmpty && !s.mcmds.any (fun m => m.purpose == .initZero pool) then
    done (modPool s pool (fun p => { p with st := .stopped, init := false }))
  else .next s

/-- EXTENT_ZEROING_COMPLETE (R489): every strip of the extent is zero. -/
def execExtentZeroingComplete (pool extent : Nat) (s : State) : Result :=
  let p := getPool s pool
  if fwUp s && p.zeroing.contains extent && decide (extentStrips s pool ≤ Tab.getD p.zeroNext extent 0) &&
      !s.mcmds.any (fun m => m.purpose == .extentZero pool extent) then
    done (modPool s pool (fun p => { p with zeroing := p.zeroing.filter (· != extent), zeroNext := Tab.erase p.zeroNext extent }))
  else .next s

/-- The extended test's next row begun under its interlock: every strip is to be read by the verify pipeline (R225, R492). -/
def beginTestRow (s : State) (pool : Nat) (t : Test) : State :=
  let s := modPool s pool (fun p => { p with interlocks := addOnce p.interlocks t.row })
  let s := setTest s 2 pool { t with fetch := some s.nextId }
  startFetch s pool t.row (rowVol s pool t.row) (getPool s pool).tile 0xF (List.range (poolCfg s pool).w) (.selftest pool) .verify

/-- A member command runs, or would run, on a port. -/
def onPort (s : State) (port : Nat) (m : MCmd) : Bool := (queueFor s m.member m.tile).any (fun q => q.port == port)

/-- The oldest waiting verify command of a pool on a port, issued if it may go. -/
def sendVerify (s : State) (pool port : Nat) : State :=
  match s.mcmds.find? (fun m => m.pool == pool && m.pipe == .verify && m.throttled && onPort s port m && mayGo s m) with
  | some m => sendTurn s m
  | none => s

/-- SELFTEST_COMMAND_ISSUE (R230, R492): one read of the row the extended test has come to, on a port where no host or rebuild command
waits, while v lasts; rows that scrub would skip are skipped. -/
def execSelftestCommandIssue (pool port : Nat) (s : State) : Result :=
  let t := getTest s 2 pool
  let row := t.row
  let free := !s.mcmds.any (fun m => m.throttled && m.pipe != .verify && onPort s port m)
  if !(serving s && !s.hk.closing && t.st == 1 && decide (row < (poolCfg s pool).poolRows) &&
      (memberLinks s (tileOfPort port) pool).contains port && free && decide (0 < s.budget.v.getD 0 0)) then .next s
  else if t.fetch.isSome then done (sendVerify s pool port)
  else if destaging s (rowVol s pool row) row || (getPool s pool).interlocks.contains row then .next s
  else if skipRow s pool row then done (testNext s pool t)
  else done (sendVerify (beginTestRow s pool t) pool port)

end Sys2Proof.Machine
end

