-- ==== Sys2Proof/Machine/Transport.lean ====
section
/-! DEFINITION. Serosh Block Transport (chapter 07): packets, reliability, rate control, connections, commands on arrival, data
transfer, abort, freeze and throttling. -/

namespace Sys2Proof.Machine

/-! ### Connections -/

/-- The device connection identifier (R302). -/
def connIdOf (c : Conn) : W32 := BitVec.ofNat 32 (field 29 c.tile + field 16 c.index + c.gen.toNat)

def getConn? (s : State) (id : W32) : Option Conn := s.sbt.conns.find? (fun c => connIdOf c == id)

def modConn (s : State) (id : W32) (f : Conn → Conn) : State :=
  { s with sbt := { s.sbt with conns := s.sbt.conns.map (fun c => if connIdOf c = id then f c else c) } }

def modSbt (s : State) (f : Sbt → Sbt) : State := { s with sbt := f s.sbt }

/-- The device's clock in µs, modulo 65,536 (Table 7-1). -/
def nowUs (s : State) : Nat := s.clock / 1000

def isFrozen (c : Conn) : Bool := c.st == .settling || c.st == .settled
def isLive (c : Conn) : Bool := c.st == .open || isFrozen c

/-- A tenant-role link that is up on a tile in service (R298, Table 11-8: role 1). -/
def tenantPort (s : State) (port : Nat) : Bool :=
  running s && tileUp s (tileOfPort port) && (getLink s port).up &&
    (match Tab.get? s.cfg.links port with | some l => l.p.role == 1 | none => false)

/-! ### Links and frames (R298, R356, R360, R361, R364) -/

/-- The parameters of a link without stored configuration: DISABLED (R356), defaults of R359 to R364. -/
def noParams (port : Nat) : PortParams :=
  { port := port, role := 0, mode := 0, flags := 1, pcp := 0, vlan := 0, mtu := 1500, xoff := 1536, pfcMask := 0, prefix4 := 0, prefix6 := 0
    poolMask := 0xFFFFFFFFFFFFFFFF, ipv4 := 0, gw4 := 0, ipv6 := 0, gw6 := 0 }

/-- A link's configuration. -/
def linkCfg (s : State) (port : Nat) : LinkCfg := (Tab.get? s.cfg.links port).getD { p := noParams port }

/-- A link's MAC address (R360). -/
def linkMac (port : Nat) : BitVec 48 := Config.baseMac + BitVec.ofNat 48 port

/-- An IPv4 address as 128 bits, IPv4-mapped. -/
def v4Mapped (a : BitVec 32) : BitVec 128 := BitVec.ofNat 128 (0xFFFF * 2 ^ 32 + a.toNat)

/-- The link-local address: fe80::/64 and the modified EUI-64 of the MAC (R360). -/
def linkLocal (mac : BitVec 48) : BitVec 128 :=
  let m := mac.toNat
  BitVec.ofNat 128 (0xFE80 * 2 ^ 112 + ((m / 2 ^ 24) ^^^ 0x020000) * 2 ^ 40 + 0xFFFE * 2 ^ 24 + m % 2 ^ 24)

/-- The addresses of a link that are set. -/
def linkAddrs (s : State) (port : Nat) : List (BitVec 128) :=
  let p := (linkCfg s port).p
  (if p.ipv4 = 0 then [] else [v4Mapped p.ipv4]) ++ (if p.ipv6 = 0 then [] else [p.ipv6]) ++ [linkLocal (linkMac port)]

/-- A frame received on a port, counted at its link (PORT_STATS, R389). -/
def countFrame (s : State) (port : Nat) : State :=
  { s with links := Tab.adjust s.links port (fun l => { l with nFrames := l.nFrames + 1 }) }

/-- A frame received on a port and discarded, counted by cause: those of `badCarriage`, 4 a full buffer (R362), 5 an address or UDP port
that is not the link's (R298, R360). -/
def dropFrame (s : State) (port cause : Nat) : State :=
  { s with links := Tab.adjust s.links port (fun l =>
      { l with nFrames := l.nFrames + 1, discards := Tab.set l.discards cause (Tab.getD l.discards cause 0 + 1) }) }

/-! ### Counts (R349) -/

/-- Kinds of SBT_STATS counts; the discards of R301 follow from `kCause` on, by cause. -/
def kPackets : Nat := 0
def kRetx : Nat := 1
def kTimeouts : Nat := 2
def kCe : Nat := 3
def kDiscard : Nat := 4
def kFreezes : Nat := 5
def kRefused : Nat := 6
def kCause : Nat := 7

/-- One more of a kind. -/
def bumpCount (t : Tab Nat) (k : Nat) : Tab Nat := Tab.set t k (Tab.getD t k 0 + 1)

/-- Counted at a tile. -/
def tally (s : State) (tile kind : Nat) : State := modSbt s (fun b => { b with counts := bumpCount b.counts (16 * tile + kind) })

/-- Counted at a connection and its tile. -/
def tallyConn (s : State) (id : W32) (kind : Nat) : State :=
  match getConn? s id with
  | some c => modConn (tally s c.tile kind) id (fun c => { c with counts := bumpCount c.counts kind })
  | none => s

/-! ### Sending (R298, R299, R301, R303, R305-R307) -/

/-- An error entry (Table 7-15). -/
def errBytes (e : ErrEnt) : List Byte :=
  beBytes 2 e.tag.toNat ++ beBytes 2 e.status.toNat ++ beBytes 1 e.opcode ++ [0] ++ beBytes 2 e.vol ++ beBytes 8 e.badLba ++
    beBytes 6 e.epoch.toNat ++ beBytes 2 e.offset.toNat ++ List.replicate 8 0

/-- TYPE of a packet the device sends, and its body (Tables 7-2 to 7-5, 7-10 to 7-14 and 7-17, R325, R338). -/
def packetBytes (b : TxBody) : Nat × List Byte :=
  match b with
  | .accept result maxData limit conn epoch =>
    (0x02, beBytes 1 result ++ [0] ++ beBytes 2 maxData ++ beBytes 2 limit ++ [0, 0] ++ beBytes 4 conn.toNat ++ beBytes 6 epoch.toNat ++
      List.replicate 14 0)
  | .close reason => (0x03, beBytes 1 reason ++ List.replicate 7 0)
  | .xferRdy tag off len => (0x11, beBytes 2 tag.toNat ++ [0, 0] ++ beBytes 4 off ++ beBytes 4 len ++ [0, 0, 0, 0])
  | .dataIn tag off len data =>
    let payload := Mem.bytes data 0 len
    (0x13, beBytes 2 tag.toNat ++ [0, 0] ++ beBytes 4 off ++ [0, 0, 0, 0] ++ beBytes 4 (crc32c payload).toNat ++ payload)
  | .resp tag st freeze held epoch off freezeId =>
    (0x14, beBytes 2 tag.toNat ++ beBytes 2 st.toNat ++ beBytes 1 (flag 0 freeze + flag 1 held) ++ [0] ++ beBytes 6 epoch.toNat ++
      beBytes 2 off.toNat ++ beBytes 2 freezeId.toNat)
  | .abortResp tag st => (0x16, beBytes 2 tag.toNat ++ beBytes 2 st.toNat ++ [0, 0, 0, 0])
  | .errlog st kind page freezeId nErr nHeld over_ errors tags =>
    (0x21, beBytes 1 st ++ beBytes 1 kind ++ beBytes 2 page.toNat ++ beBytes 2 freezeId.toNat ++ beBytes 2 nErr ++ beBytes 2 nHeld ++
      beBytes 2 over_ ++ beBytes 2 (errors.length + tags.length) ++ [0, 0] ++ errors.flatMap errBytes ++
      tags.flatMap (fun t => beBytes 2 t.toNat))
  | .slow reason target grace duration =>
    (0x31, beBytes 1 reason ++ [0] ++ beBytes 2 target ++ beBytes 4 grace ++ beBytes 2 duration ++ List.replicate 6 0)
  | .credit limit reason => (0x32, beBytes 2 limit ++ beBytes 1 reason ++ List.replicate 5 0)
  | .ack => (0x30, [])

/-- ECT(0) (R299). -/
def ect0 : Nat := 2

/-- A packet in its datagram: from the address and port `dst` and the device's UDP port, to the tenant's (R298). -/
def sbtOut (s : State) (port : Nat) (dst addr : BitVec 128) (udp : BitVec 16) (connId seq ack : W32) (ackValid ece retx : Bool)
    (sack : BitVec 64) (tsecr : BitVec 16) (b : TxBody) : Output :=
  let body := (packetBytes b).2
  .sbt port (linkTag (linkCfg s port).p) dst (BitVec.ofNat 16 s.cfg.udpPort) addr udp ect0
    (sbtHeader (packetBytes b).1 ackValid ece retx connId seq ack sack body.length (BitVec.ofNat 16 (nowUs s)) tsecr) body

/-- SACK: bit i set when packet ACK + 1 + i has been received. -/
def sackBits (c : Conn) : BitVec 64 :=
  (List.range 64).foldl (fun b i => if c.stored.any (fun e => e.1 == c.rxNext + 1 + BitVec.ofNat 32 i) then b ||| (1#64 <<< i) else b) 0

/-- A packet of a connection as it is sent. -/
def connOut (s : State) (c : Conn) (seq : W32) (retx : Bool) (b : TxBody) : Output :=
  sbtOut s c.port c.dst c.addr c.udp c.tenantConn seq c.rxNext true c.coveredCe retx (sackBits c) c.tsRecent b

/-- A packet with the connection's header. -/
def emitPkt (s : State) (c : Conn) (seq : W32) (retx : Bool) (b : TxBody) : State :=
  let s := emit s (connOut s c seq retx b)
  let s := modConn s (connIdOf c) (fun c => { c with unacked := 0 })
  if retx then tallyConn s (connIdOf c) kRetx else s

/-- An ACK (R306). -/
def sendAck (s : State) (id : W32) : State :=
  match getConn? s id with
  | some c => emitPkt s c c.txNext false .ack
  | none => s

/-- Packets of the window (R305). -/
def windowOf (c : Conn) : Nat := min c.cwnd.floor.toNat 65

/-- Every packet that the window lets out (R305). -/
def pumpConn (s : State) (id : W32) : State :=
  match getConn? s id with
  | none => s
  | some c0 =>
    (c0.tx.filter (fun p => !p.sent && decide ((p.seq - c0.txAcked).toNat < windowOf c0))).foldl (fun s p =>
      match getConn? s id with
      | none => s
      | some c =>
        modConn (emitPkt s c p.seq false p.body) id (fun c =>
          { c with tx := c.tx.map (fun q => if q.seq = p.seq then { q with sent := true, sentAt := s.clock } else q) })) s

/-- A sequenced packet (R303). -/
def sbtSend (s : State) (id : W32) (b : TxBody) : State :=
  pumpConn (modConn s id (fun c => { c with tx := c.tx ++ [{ seq := c.txNext, body := b }], txNext := c.txNext + 1 })) id

/-- RESP without stamp (R334). -/
def sendStatus (s : State) (id : W32) (tag : BitVec 16) (st : Status) : State := sbtSend s id (.resp tag st false false 0 0 0)

/-- A CREDIT (R325): a raised LIMIT acts at once, a lowered one once the CREDIT is acknowledged. -/
def sendCredit (s : State) (id : W32) (limit reason : Nat) : State :=
  match getConn? s id with
  | none => s
  | some c =>
    let seq := c.txNext
    let s := sbtSend s id (.credit limit reason)
    modConn s id (fun c => if c.limit ≤ limit then { c with limit := limit, limitNext := none } else { c with limitNext := some (limit, seq) })

/-! ### Commands of a connection -/

/-- The command came over the connection. -/
def isOf (id : W32) (c : Cmd) : Bool :=
  match c.src with
  | .sbt k _ => k == id
  | _ => false

/-- Commands whose RESP the connection still owes. -/
def connCmds (s : State) (id : W32) : List Cmd := s.cmds.filter (fun c => isOf id c && !c.mute)

/-- Commands outstanding: their RESP, or an ABORT_RESP with status 0x0005, is still to be sent (R324). -/
def owedCmds (s : State) (id : W32) : List Cmd := s.cmds.filter (fun c => isOf id c && (!c.mute || c.abortWaiting))

def tagCmd? (s : State) (id : W32) (tag : BitVec 16) : Option Cmd := s.cmds.find? (fun c => c.src == .sbt id tag && !c.mute)

/-- R336: every barrier lets the command start. -/
def barrierOpen (s : State) (id : W32) (c : Cmd) : Bool :=
  (s.cmds.filter (fun d => isOf id d && (!d.mute || d.abortWaiting) && decide (d.id < c.id))).all (fun d => !d.ordered && !c.ordered)

/-- Commands received on an OPEN connection go to their home tiles in order of receipt (R326, R336, R340). -/
def pumpCmds (s : State) (id : W32) : State :=
  (connCmds s id).foldl (fun s c =>
    if c.phase = .received && (getConn? s id).any (fun k => k.st == .open) && barrierOpen s id c then forwardCmd s c else s) s

/-- Some part of a write has data still to come (R317). -/
def dataIncomplete (c : Cmd) : Bool :=
  c.op == .write && (List.range c.parts.length).any (fun i => match c.parts[i]? with
    | some p => !partArrived c i p
    | none => false)

/-- A part of an ended write that has taken no data: its INTENT is retired and its fetch given up (R317). -/
def dropPart (s : State) (c : Cmd) (i : Nat) (p : RowPart) : State :=
  if p.taken then s
  else
    let s := p.fetches.foldl endFetch s
    let s := match p.intent with
      | some q => retireIntent s c.home q
      | none => s
    modPart s c.id i (fun p => { p with acked := true, taken := true, waiting := false, fetches := [] })

/-- A started command ended by R317 or R338: a write whose data is all there runs on, an incomplete one keeps what it has taken,
everything else ends at once. `answer` says that an ABORT_RESP is owed at its end. -/
def endStarted (s : State) (c : Cmd) (answer : Bool) : State :=
  let gone (s : State) : State := if answer then modCmd s c.id (fun c => { c with mute := true, abortWaiting := true, phase := .finished })
    else removeCmd s c
  match c.phase with
  | .locked =>
    if isWriteOp c.op then
      let s := modCmd s c.id (fun c => { c with mute := true, abortWaiting := answer, grants := [] })
      let s := if dataIncomplete c then
          (List.range c.parts.length).foldl (fun s i => match c.parts[i]? with
            | some p => dropPart s c i p
            | none => s) s
        else s
      settleCmd s c.id
    else gone ((c.parts.flatMap (·.fetches)).foldl endFetch s)
  | .held => gone (stampWrite s c)
  | _ => gone s

/-- R317: every command of a connection that closes or is lost ends. -/
def endCmds (s : State) (id : W32) : State :=
  (s.cmds.filter (isOf id)).foldl (fun s c =>
    if c.mute then modCmd s c.id (fun c => { c with abortWaiting := false })
    else match c.phase with
      | .received => dropCmd s c.id
      | .forwarded => dropCmd s c.id
      | _ => endStarted s c false) s

/-- A muted command whose answer is no longer owed leaves once it is decided. -/
def sweepMute (s : State) : State :=
  (s.cmds.filter (fun c => c.mute && !c.abortWaiting && c.phase == .finished)).foldl removeCmd s

/-- The identifier freed; its index waits 20 ms (R315). -/
def freeConn (s : State) (c : Conn) : State :=
  modSbt s (fun b => { b with conns := b.conns.filter (fun x => connIdOf x != connIdOf c), cooling := b.cooling ++ [(c.tile, c.index)] })

/-- CLOSE of the device (R315). -/
def closeConn (s : State) (id : W32) (reason : Nat) : State :=
  match getConn? s id with
  | none => s
  | some c =>
    if c.closeSent then s
    else
      let s := modConn s id (fun c => { c with st := .closing, closeSent := true })
      sbtSend (sweepMute (endCmds s id)) id (.close reason)

/-- A protocol error (R328, R332). -/
def protocolError (s : State) (id : W32) : State :=
  match getConn? s id with
  | none => s
  | some c => jetInfo (closeConn s id 1) 0x4002 (srcLink c.port) []

/-- A connection lost (R309, R317): no CLOSE. -/
def loseConn (s : State) (c : Conn) : State := freeConn (sweepMute (endCmds (modConn s (connIdOf c) (fun c => { c with st := .lost })) (connIdOf c))) c

/-! ### Throttling (R345-R347, R540) -/

/-- The mean of 16 epochs, and at least 65,536 (R346). -/
def refRateOf (past : List Nat) : Nat := max 65536 (((past.take 16).foldl (· + ·) 0) / 16)

/-- A SLOW (R345): what it finds in force before keeps the earlier LIMIT and reference rate. -/
def sendSlow (s : State) (id : W32) (reason target grace duration : Nat) : State :=
  match getConn? s id with
  | none => s
  | some c =>
    let fresh := c.slow.isNone && c.enforced.isNone
    let s := modConn s id (fun c =>
      { c with slow := some { target := target, from_ := s.clock + 1000 * grace, left := if duration = 0 then none else some duration }
               limitBefore := if fresh then some c.limit else c.limitBefore
               refRate := if fresh then refRateOf c.bytesPast else c.refRate })
    jetInfo (sbtSend s id (.slow reason target grace duration)) 0x4004 (srcLink c.port) []

/-- The thermal TARGET that stands, 256 for none (R538). -/
def thermalTarget (s : State) : Nat := if s.hk.running then s.hk.target else 256

/-- The lower of the requests that stand on a connection (R540). -/
def standing (s : State) (c : Conn) : Nat := min (thermalTarget s) ((c.hostReq.map (·.target)).getD 256)

/-- LIMIT under enforcement (R346). -/
def slowLimit (limit target : Nat) : Nat := max 1 ((limit * target + 255) / 256)

/-- Payload bytes an enforced connection may move in an epoch. -/
def slowBytes (c : Conn) (target : Nat) : Nat := target * c.refRate / 256

/-- A host request at an edge: it comes into force, or loses an epoch and ends with its last. -/
def ageReq (now : Nat) (r : Slow) : Option Slow :=
  if r.from_ = 0 then
    match r.left with
    | some n => if n ≤ 1 then none else some { r with left := some (n - 1) }
    | none => some r
  else if r.from_ ≤ now then some { r with from_ := 0 } else some r

/-- THROTTLE_ENFORCEMENT of one connection at an epoch edge (R346, R347). -/
def enforceConn (s : State) (id : W32) : State :=
  match getConn? s id with
  | none => s
  | some c0 =>
    let s := modConn s id (fun c =>
      { c with bytesPast := (c.bytesNow :: c.bytesPast).take 16, bytesNow := 0, hostReq := c.hostReq.bind (ageReq s.clock) })
    let stop (s : State) : State :=
      let s := modConn s id (fun c => { c with enforced := none, allowance := none, limitBefore := none })
      match c0.limitBefore with
      | some l => if c0.enforced.isSome then sendCredit s id l 0 else s
      | none => s
    let start (s : State) (x : Slow) : State :=
      let s := modConn s id (fun c => { c with enforced := some x, allowance := some (slowBytes c x.target) })
      sendCredit s id (slowLimit (c0.limitBefore.getD c0.limit) x.target) 1
    match c0.slow with
    | some x =>
      if x.from_ ≤ s.clock then
        let s := modConn s id (fun c => { c with slow := none })
        if 256 ≤ x.target then stop s else jetInfo (start s x) 0x4005 (srcLink c0.port) []
      else match c0.enforced with
        | some y => modConn s id (fun c => { c with allowance := some (slowBytes c y.target), enforced := some { y with left := y.left.map (· - 1) } })
        | none => s
    | none =>
      match c0.enforced with
      | none => s
      | some y =>
        let left := y.left.map (· - 1)
        if left = some 0 then
          let s := modConn s id (fun c => { c with hostReq := none })
          let t := thermalTarget s
          if t < 256 then start s { target := t } else stop s
        else modConn s id (fun c => { c with enforced := some { y with left := left }, allowance := some (slowBytes c y.target) })

/-! ### Acknowledgments received (R305-R310) -/

/-- A round-trip sample (R308). -/
def onSample (c : Conn) (m : Nat) : Conn :=
  let c := if !c.haveSample then { c with srtt := m, rttvar := m / 2, haveSample := true }
    else { c with rttvar := (3 * c.rttvar + (if c.srtt < m then m - c.srtt else c.srtt - m)) / 4, srtt := (7 * c.srtt + m) / 8 }
  { c with rto := max 20 (min 10000 (c.srtt + 4 * c.rttvar)) }

/-- on_ack of R310. -/
def onAck (c : Conn) (newly : Nat) (ece : Bool) (ack : W32) : Conn :=
  let acked := c.acked + newly
  let marked := if ece then c.marked + newly else c.marked
  if (ack - c.windowEnd).toNat < 2 ^ 31 then
    let alpha := c.alpha * 15 / 16 + (marked : Rat) / acked / 16
    { c with
      alpha := alpha
      cwnd := if marked = 0 then min 65 (c.cwnd + 1) else max 2 (c.cwnd * (1 - alpha / 2))
      acked := 0, marked := 0, windowEnd := c.txNext, fastRetx := false
      tx := c.tx.map (fun p => { p with retx := false }) }
  else { c with acked := acked, marked := marked }

/-- ACK advances over `newly` packets. -/
def ackAdvance (s : State) (c : Conn) (h : SbtHdr) (newly : Nat) : Conn :=
  let c := { c with txAcked := h.ack, tx := c.tx.filter (fun p => decide ((p.seq - h.ack).toNat < 2 ^ 31)) }
  let c := onAck (onSample c ((nowUs s + 65536 - h.tsecr.toNat) % 65536)) newly h.ece h.ack
  match c.limitNext with
  | some (l, q) => if (h.ack - q - 1).toNat < 2 ^ 31 then { c with limit := l, limitNext := none } else c
  | none => c

/-- Packets to retransmit because SACK shows three or more received above them (R307). -/
def fastList (c : Conn) (h : SbtHdr) : List TxPkt :=
  let sacked (q : W32) : Bool :=
    let d := (q - h.ack - 1).toNat
    decide (d < 64) && h.sack.getLsbD d
  c.tx.filter (fun p => p.sent && !p.retx && !sacked p.seq &&
    decide (3 ≤ (c.tx.filter (fun q => decide (0 < (q.seq - p.seq).toNat ∧ (q.seq - p.seq).toNat < 2 ^ 31) && sacked q.seq)).length))

/-- A packet sent again. -/
def resendPkt (s : State) (id : W32) (p : TxPkt) : State :=
  match getConn? s id with
  | some c => emitPkt s c p.seq true p.body
  | none => s

/-- The acknowledgment a packet carries (R304-R310); a CLOSE acknowledged frees the identifier (R315). -/
def processAck (s : State) (id : W32) (h : SbtHdr) : State :=
  match getConn? s id with
  | none => s
  | some c =>
    if !h.ackValid then s
    else
      let newly := (h.ack - c.txAcked).toNat
      let ok := decide (0 < newly) && decide (newly ≤ (c.txNext - c.txAcked).toNat)
      let c := if ok then ackAdvance s c h newly else c
      let s := modConn s id (fun _ => c)
      if c.closeSent && c.tx.isEmpty then freeConn s c
      else
        let l := fastList c h
        let s := if l.isEmpty then s else modConn s id (fun c =>
          { c with cwnd := if c.fastRetx then c.cwnd else max 2 (c.cwnd / 2), fastRetx := true
                   tx := c.tx.map (fun p => if l.any (fun q => q.seq == p.seq) then { p with retx := true } else p) })
        pumpConn (l.foldl (fun s p => resendPkt s id p) s) id

/-! ### Command arrival (R324-R328, Tables 7-8, 7-9) -/

/-- Opcode byte of an operation (Table 7-8). -/
def opcodeOf (o : BlockOp) : Nat :=
  match o with
  | .read => 1
  | .write => 2
  | .flush => 3
  | .zeroes => 4
  | .dealloc => 5
  | .verify => 6

/-- Flags an opcode permits: ORDERED, FUA, PREFETCH, DESTAGE as bits 0-3. -/
def flagsOf (o : BlockOp) : BitVec 8 :=
  match o with
  | .read => 0x07
  | .write => 0x03
  | .flush => 0x09
  | .zeroes => 0x03
  | .dealloc => 0x01
  | .verify => 0x01

/-- Check 4 of Table 7-9. -/
def badCapsule (o : BlockOp) (c : Capsule) : Bool :=
  !c.reservedZero || c.flags &&& ~~~flagsOf o != 0 || c.volume.getLsbD 14 || c.volume.getLsbD 15 || c.tag == 0xFFFF ||
    (match o with
     | .flush => c.lba != 0 || c.length != 0
     | _ => c.length == 0 || decide (1024 < c.length.toNat))

/-- The volume is one the tenant may name (R6, R313). -/
def tenantVol (s : State) (k : Conn) (vol : Nat) : Bool :=
  decide (vol < s.part.volumes) && (volCfg? s vol).isSome && !volReserved s vol &&
    (match Tab.get? s.cfg.tenants k.tenant with
     | some t => t.ranges.any (fun r => decide (r.1 ≤ vol) && decide (vol ≤ r.2))
     | none => false)

/-- Check 6 and 7 for a range of an existing volume. -/
def rangeStatus (s : State) (vol lba len : Nat) : Status :=
  let v := volCfg s vol
  if volBlocks (poolCfg s v.pool) v < lba + len then 0x0004
  else if s.hk.closing then 0x0006
  else match (getVol s vol).st with
    | .stopped => 0x0006
    | .stopping => 0x0006
    | _ => 0

/-- Table 7-9: the status of the first check that fails, 0 for none. `op?` is none for an OPCODE outside Table 7-8. -/
def arrivalStatus (s : State) (id : W32) (k : Conn) (op? : Option BlockOp) (c : Capsule) : Status :=
  if isFrozen k then 0x0080
  else if k.limit ≤ (owedCmds s id).length then 0x0007
  else match op? with
    | none => 0x0001
    | some o =>
      if badCapsule o c then 0x0002
      else if !tenantVol s k c.volume.toNat then 0x0003
      else rangeStatus s c.volume.toNat c.lba.toNat c.length.toNat

/-- A CMD delivered in order. -/
def deliverCmd (s : State) (id : W32) (k : Conn) (o : BlockOp) (c : Capsule) : State :=
  if c.tag = 0xFFFF then sendStatus s id c.tag 0x0002
  else if (tagCmd? s id c.tag).isSome || k.aborted.contains c.tag then protocolError s id
  else
    let op? : Option BlockOp := if c.opcode.toNat = opcodeOf o then some o else none
    let st := arrivalStatus s id k op? c
    if st ≠ 0 then sendStatus s id c.tag st
    else
      let x : Cmd :=
        { id := s.nextId, src := .sbt id c.tag, rx := k.tile, op := o, vol := c.volume.toNat, lba := c.lba.toNat,
          len := c.length.toNat, ordered := c.flags.getLsbD 0, prefetch := c.flags.getLsbD 2, destage := c.flags.getLsbD 3 }
      pumpCmds (bump { s with cmds := s.cmds ++ [x] }) id

/-! ### DATA_OUT (R330-R333) -/

/-- R331 broken: a protocol error. -/
def badData (k : Conn) (offset len : Nat) : Bool :=
  offset % 1024 != 0 || len % 1024 != 0 || decide (k.maxData < len)

def granted (c : Cmd) (offset len : Nat) : Bool := c.grants.any (fun g => decide (g.1 ≤ offset) && decide (offset + len ≤ g.1 + g.2))

/-- Bytes of a write stored, and its parts carried on (R33, R61, R62). -/
def storeData (s : State) (c : Cmd) (offset : Nat) (data : Mem) (len : Nat) : State :=
  let s := modCmd s c.id (fun c =>
    { c with data := Mem.paste c.data offset len data
             arrived := c.arrived ++ ((List.range (len / 1024)).map (fun i => offset / 1024 + i)).filter (fun u => !c.arrived.contains u) })
  (List.range c.parts.length).foldl (fun s i => match getCmd? s c.id with
    | some c => if c.phase = .locked then advancePart s c i else s
    | none => s) s

def deliverData (s : State) (id : W32) (k : Conn) (tag : BitVec 16) (offset : Nat) (payload : List Byte) : State :=
  let len := payload.length
  if badData k offset len then protocolError s id
  else
    let s := modConn s id (fun k => { k with bytesNow := k.bytesNow + len })
    match tagCmd? s id tag with
    | none => s
    | some c =>
      if c.op = .write && granted c offset len then storeData s c offset (Mem.ofList payload) len
      else tallyConn s id kDiscard

/-! ### Freeze, ERRLOG and RESUME (R340-R344) -/

def heldCmds (s : State) (id : W32) : List Cmd := (connCmds s id).filter (fun c => c.phase == .received)

/-- A started command of the connection still runs (R341). -/
def anyStarted (s : State) (id : W32) : Bool :=
  s.cmds.any (fun c => isOf id c && c.phase != .received && (!c.mute || c.abortWaiting))

/-- STATE of an ERRLOG. -/
def logState (k : Conn) : Nat :=
  match k.st with
  | .settling => 1
  | .settled => 2
  | _ => 0

/-- An ERRLOG (Table 7-14): one page of errors or held tags. -/
def sendErrlog (s : State) (id : W32) (state kind page : Nat) : State :=
  match getConn? s id with
  | none => s
  | some k =>
    let held := if isFrozen k then (heldCmds s id).map (fun c => match c.src with
      | .sbt _ t => t
      | _ => 0) else []
    let errs := if kind = 0 then (k.log.drop (31 * page)).take 31 else []
    let tags := if kind = 1 then (held.drop (504 * page)).take 504 else []
    sbtSend s id (.errlog state kind (BitVec.ofNat 16 page) k.freezeId k.log.length held.length k.overflow errs tags)

/-- The connection settles when its last started command has completed (R341). -/
def settleConn (s : State) (id : W32) : State :=
  match getConn? s id with
  | some k =>
    if k.st = .settling && !anyStarted s id then sendErrlog (modConn s id (fun k => { k with st := .settled })) id 2 0 0 else s
  | none => s

/-- FREEZE_ID after `i`, skipping zero (R342); generations skip zero alike (R302). -/
def nextSkip (i : BitVec 16) : BitVec 16 := if i + 1 = 0 then 1 else i + 1

/-- The first block of a command that caused its status (Table 7-15). -/
def badLba (s : State) (c : Cmd) : Nat :=
  match (List.range c.parts.length).find? (fun i => match c.parts[i]? with
      | some p => p.status == c.status
      | none => false) with
  | none => c.lba
  | some i =>
    match c.parts[i]? with
    | none => c.lba
    | some p =>
      let first := if c.status = 0x0040 then
          ((List.range p.count).find? (fun b => isLost (getPool s (volCfg s c.vol).pool) p.row ((p.first + b) / 4))).getD 0
        else 0
      c.lba + partBase c.parts i + first

/-- A completion with status 0x0040-0x0044 freezes the connection or joins its log: the FREEZE_ID (R340, R342). -/
def freezeWith (s : State) (id : W32) (k : Conn) (c : Cmd) (tag : BitVec 16) : State × BitVec 16 :=
  let e : ErrEnt :=
    { tag := tag, status := c.status, opcode := opcodeOf c.op, vol := c.vol, badLba := badLba s c, epoch := s.moon.epoch,
      offset := nowOffset s }
  if isFrozen k then
    (modConn s id (fun k => if k.log.length < 256 then { k with log := k.log ++ [e] } else { k with overflow := satInc k.overflow 65535 }),
      k.freezeId)
  else
    let f := nextSkip k.freezeId
    let s := modConn s id (fun k => { k with st := .settling, freezeId := f, log := [e], overflow := 0 })
    (jetInfo (tallyConn s id kFreezes) 0x4003 (srcLink k.port) [], f)

def deliverResume (s : State) (id : W32) (k : Conn) (disposition : Byte) (freezeId : BitVec 16) : State :=
  if k.st = .settled ∧ freezeId = k.freezeId ∧ disposition.toNat ≤ 1 then
    let s := modConn (sendErrlog s id 3 0 0) id (fun k => { k with st := .open })
    if disposition = 0 then pumpCmds s id
    else (heldCmds s id).foldl (fun s c => match c.src with
      | .sbt _ t => sendStatus (dropCmd s c.id) id t 0x0005
      | _ => s) s
  else sendErrlog s id 4 0 0

/-! ### ABORT (R338, R339, R100) -/

def deliverAbort (s : State) (id : W32) (tag : BitVec 16) : State :=
  let answer (s : State) (st : Status) : State := sbtSend s id (.abortResp tag st)
  let later (s : State) : State := modConn s id (fun k => { k with aborted := k.aborted ++ [tag] })
  match tagCmd? s id tag with
  | none => answer s 0x0081
  | some c =>
    let s := match c.phase with
      | .received => answer (dropCmd s c.id) 0x0005
      | .forwarded => answer (dropCmd s c.id) 0x0005
      | .held => later s
      | .finished => later s
      | _ => endStarted (later s) c true
    settleConn (pumpCmds s id) id

/-! ### Delivery (R304, R315) -/

/-- One packet handed to the command layer, in SEQ order. -/
def deliver (s : State) (id : W32) (b : RxBody) : State :=
  match getConn? s id with
  | none => s
  | some k =>
    match b with
    | .close _ => closeConn s id 0
    | .cmd o c => if isLive k then deliverCmd s id k o c else s
    | .dataOut tag off _ payload => if isLive k then deliverData s id k tag off.toNat payload else s
    | .abort tag => if isLive k then deliverAbort s id tag else s
    | .errlogReq kind page => if isLive k then sendErrlog s id (logState k) kind.toNat page.toNat else s
    | .resume d f => if isLive k then deliverResume s id k d f else s

/-- Stored packets delivered while the next one is there. -/
def deliverAll : Nat → State → W32 → State
  | 0, s, _ => s
  | n + 1, s, id =>
    match getConn? s id with
    | none => s
    | some k =>
      match k.stored.find? (fun e => e.1 == k.rxNext) with
      | none => s
      | some (q, b, ce) =>
        let s := modConn s id (fun k =>
          { k with stored := k.stored.filter (fun e => e.1 != q), rxNext := k.rxNext + 1, unacked := k.unacked + 1, coveredCe := ce })
        deliverAll n (deliver s id b) id

/-- A sequenced packet of a known connection (R304, R306). -/
def receive (s : State) (id : W32) (h : SbtHdr) (b : RxBody) : State :=
  let s := processAck s id h
  match getConn? s id with
  | none => s
  | some k =>
    let d := (h.seq - k.rxNext).toNat
    if 2 ^ 31 ≤ d then sendAck s id
    else if 64 < d then s
    else
      let s := if h.ce = k.lastCe then s else sendAck s id
      let s := if h.ce then tallyConn s id kCe else s
      let s := modConn s id (fun k =>
        { k with lastCe := h.ce
                 stored := k.stored.filter (fun e => e.1 != h.seq) ++ [(h.seq, b, h.ce)] })
      if d ≠ 0 then sendAck s id
      else
        let s := deliverAll 65 (modConn s id (fun k => { k with tsRecent := h.tsval })) id
        match getConn? s id with
        | some k => if 2 ≤ k.unacked then sendAck s id else s
        | none => s

/-- A discarded packet counted by cause (R301). -/
def discardPkt (s : State) (port cause : Nat) : State := tally s (tileOfPort port) (kCause + cause)

def causeCode : DiscardCause → Nat
  | .checksum => 0
  | .version => 1
  | .reservedType => 2
  | .length => 3
  | .bodySize => 4
  | .wrongSide => 5

/-- A packet of an unknown connection (R302, R323): answered by a CLOSE of REASON 5, one per remote address and port in any 1 ms. -/
def unknownPacket (s : State) (h : SbtHdr) (isClose5 : Bool) : State :=
  let s := modSbt s (fun b => { b with nUnknown := b.nUnknown + 1 })
  let (t0, n) := Tab.getD s.sbt.unknownRate h.port (s.clock, 0)
  let (t0, n) := if s.clock < t0 + 10 ^ 9 then (t0, n + 1) else (s.clock, 1)
  let s := modSbt s (fun b => { b with unknownRate := Tab.set b.unknownRate h.port (t0, n) })
  let s := if n = 1001 then jetInfo s 0x4006 (srcLink h.port) [] else s
  let recent := s.sbt.answered.any (fun e => e.1 == h.addr && e.2.1 == h.udp && decide (s.clock < e.2.2 + 10 ^ 6))
  if isClose5 || recent then s
  else
    let s := modSbt s (fun b =>
      { b with answered := b.answered.filter (fun e => !(e.1 == h.addr && e.2.1 == h.udp)) ++ [(h.addr, h.udp, s.clock)] })
    emit s (sbtOut s h.port h.dst h.addr h.udp h.connId 0 0 false false false 0 0 (.close 5))

/-- An SBT packet counted at its link and in SBT_STATS. -/
def counted (s : State) (h : SbtHdr) : State :=
  let s := tally (countFrame s h.port) (tileOfPort h.port) kPackets
  match getConn? s h.connId with
  | some _ => modConn s h.connId (fun c => { c with counts := bumpCount c.counts kPackets })
  | none => s

/-- Why a datagram does not reach the SBT receiver, by the causes of `dropFrame` (R298, R361, R364). -/
def strayPacket (s : State) (h : SbtHdr) : Option Nat :=
  match badCarriage (linkCfg s h.port).p h.carriage with
  | some c => some c
  | none => if (linkAddrs s h.port).contains h.dst && h.dport == BitVec.ofNat 16 s.cfg.udpPort then none else some 5

/-- A packet of TYPE `type` with `len` body bytes as it arrives (R298, R301): ports of another role take none, a stray datagram is discarded
at its link, one with another VERSION or LENGTH is discarded and counted, and `f` does the rest. A header of another TYPE is not this row's. -/
def enterPkt (s : State) (h : SbtHdr) (type len : Nat) (anyVersion : Bool) (f : State → State) : Result :=
  if !tenantPort s h.port || h.type != type then .next s
  else match strayPacket s h with
    | some c => done (dropFrame s h.port c)
    | none =>
      let s := counted s h
      if !anyVersion && h.version != 1 then done (discardPkt s h.port 1)
      else if h.length ≠ len then done (discardPkt s h.port 3)
      else done (f s)

/-- A packet that `enterPkt` hands on. -/
def wellSent (s : State) (h : SbtHdr) (type len : Nat) : Bool :=
  tenantPort s h.port && h.type == type && (strayPacket s h).isNone && h.version == 1 && h.length == len

/-- A packet of a connection: one of no connection is answered by R323. -/
def arrive (s : State) (h : SbtHdr) (type len : Nat) (f : State → State) : Result :=
  enterPkt s h type len false (fun s => if (getConn? s h.connId).isNone then unknownPacket s h false else f s)

/-- A sequenced packet as it arrives. -/
def arriveSeq (s : State) (h : SbtHdr) (type len : Nat) (b : RxBody) : Result :=
  arrive s h type len (fun s => maintProgress (receive s h.connId h b))

/-- A CMD: the row of another opcode of Table 7-8 is not this one. -/
def arriveCmd (s : State) (h : SbtHdr) (o : BlockOp) (c : Capsule) : Result :=
  if c.opcode.toNat ≠ opcodeOf o ∧ 1 ≤ c.opcode.toNat ∧ c.opcode.toNat ≤ 6 then .next s else arriveSeq s h 0x10 64 (.cmd o c)

/-! ### The rows: commands and packets -/

/-- READ (R36, R320). -/
def execRead (h : SbtHdr) (c : Capsule) (s : State) : Result := arriveCmd s h .read c

/-- WRITE (R33, R320). -/
def execWrite (h : SbtHdr) (c : Capsule) (s : State) : Result := arriveCmd s h .write c

/-- FLUSH (R337). -/
def execFlush (h : SbtHdr) (c : Capsule) (s : State) : Result := arriveCmd s h .flush c

/-- WRITE_ZEROES (R321). -/
def execWriteZeroes (h : SbtHdr) (c : Capsule) (s : State) : Result := arriveCmd s h .zeroes c

/-- DEALLOCATE (R321). -/
def execDeallocate (h : SbtHdr) (c : Capsule) (s : State) : Result := arriveCmd s h .dealloc c

/-- VERIFY (R322). -/
def execVerify (h : SbtHdr) (c : Capsule) (s : State) : Result := arriveCmd s h .verify c

/-- DATA_OUT (R332): a failing DDGST discards the packet without acknowledgment. -/
def execDataOut (h : SbtHdr) (tag : BitVec 16) (offset : W32) (ddgst : W32) (payload : List Byte) (s : State) : Result :=
  if crc32c payload ≠ ddgst then arrive s h 0x12 (16 + payload.length) (fun s => tallyConn s h.connId kDiscard)
  else arriveSeq s h 0x12 (16 + payload.length) (.dataOut tag offset ddgst payload)

/-- ABORT (R338). -/
def execAbort (h : SbtHdr) (tag : BitVec 16) (s : State) : Result := arriveSeq s h 0x15 8 (.abort tag)

/-- ERRLOG_REQ (R343). -/
def execErrlogReq (h : SbtHdr) (kind : Byte) (page : BitVec 16) (s : State) : Result :=
  arriveSeq s h 0x20 8 (.errlogReq kind page)

/-- RESUME (R344). -/
def execResume (h : SbtHdr) (disposition : Byte) (freezeId : BitVec 16) (s : State) : Result :=
  arriveSeq s h 0x22 8 (.resume disposition freezeId)

/-- CLOSE (R315, R323): REASON 5 is discarded and never answered. -/
def execClose (h : SbtHdr) (reason : Byte) (s : State) : Result :=
  if reason = 5 then enterPkt s h 0x03 8 false (fun s => if (getConn? s h.connId).isNone then unknownPacket s h true else s)
  else arriveSeq s h 0x03 8 (.close reason)

/-- ACK (R304). -/
def execAck (h : SbtHdr) (s : State) : Result := arrive s h 0x30 0 (fun s => processAck s h.connId h)

/-- SBT_PACKET_DISCARD (R301). -/
def execSbtPacketDiscard (port : Nat) (cause : DiscardCause) (s : State) : Result :=
  if tenantPort s port then done (discardPkt s port (causeCode cause)) else .next s

/-- UNKNOWN_CONNECTION_PACKET (R323): of whatever TYPE. -/
def execUnknownConnectionPacket (h : SbtHdr) (isClose5 : Bool) (s : State) : Result :=
  enterPkt s h h.type h.length false (fun s => if (getConn? s h.connId).isNone then unknownPacket s h isClose5 else s)

/-! ### CONNECT (R300, R312-R316, R319) -/

/-- The largest power of two not above `n`. -/
def powBelow (n : Nat) : Nat := 2 ^ Nat.log2 n

/-- MAX_DATA (R300). -/
def agreedData (req mtu : Nat) : Nat := min req (min 8192 (powBelow (mtu - 96)))

/-- Indexes of a tile in use or waiting their 20 ms. -/
def indexFree (s : State) (tile i : Nat) : Bool :=
  !s.sbt.conns.any (fun c => c.tile == tile && c.index == i) && !s.sbt.cooling.contains (tile, i)

/-- The lowest free index of a tile, among the first 8,192. -/
def freeIndex (s : State) (tile : Nat) : Option Nat :=
  let n := min 8192 (s.sbt.conns.length + s.sbt.cooling.length + 1)
  (List.range n).find? (indexFree s tile)

def tenantOf (s : State) (id : BitVec 128) : Option Nat := (s.cfg.tenants.find? (fun e => e.2.tenantId == id)).map Prod.fst

/-- RESULT of a CONNECT (R314), in its order. -/
def connectResult (s : State) (h : SbtHdr) (b : ConnectBody) : Nat :=
  if h.version ≠ 1 then 3
  else if !serving s || s.hk.closing then 5
  else if !(b.maxData == 1024 || b.maxData == 2048 || b.maxData == 4096 || b.maxData == 8192) || b.qdepth == 0 ||
      decide (1024 < b.qdepth.toNat) || b.tenantConn == 0 then 4
  else if (tenantOf s b.tenantId).isNone then 1
  else if (freeIndex s (tileOfPort h.port)).isNone then 2
  else 0

/-- The connection a CONNECT opens. -/
def newConn (s : State) (h : SbtHdr) (b : ConnectBody) (tenant index : Nat) (gen : BitVec 16) (isn : W32) : Conn :=
  let tile := tileOfPort h.port
  let mtu := ((Tab.get? s.cfg.links h.port).map (·.p.mtu)).getD 1500
  let limit := min b.qdepth.toNat s.cfg.credit
  let data := agreedData b.maxData.toNat mtu
  let id : W32 := BitVec.ofNat 32 (field 29 tile + field 16 index + gen.toNat)
  { tile := tile, index := index, gen := gen, port := h.port, dst := h.dst, addr := h.addr, udp := h.udp, tenantConn := b.tenantConn,
    tenant := tenant, connectSeq := h.seq, accept := .accept 0 data limit id s.moon.epoch, acceptSeq := isn, maxData := data,
    limit := limit, rxNext := h.seq + 1, lastCe := h.ce, coveredCe := h.ce, tsRecent := h.tsval, txNext := isn, txAcked := isn, windowEnd := isn }

/-- A refusing ACCEPT as it is sent (R314). -/
def refusalOut (s : State) (h : SbtHdr) (r : Refusal1) (retx : Bool) : Output :=
  sbtOut s h.port h.dst h.addr h.udp r.tenantConn r.isn (h.seq + 1) true h.ce retx 0 h.tsval (.accept r.result 0 0 0 r.epoch)

/-- A connection opened, its ACCEPT sent, and a SLOW while the thermal sequence runs (R312, R538). -/
def openConn (s : State) (c : Conn) : State :=
  let s := modSbt s (fun x =>
    { x with conns := x.conns ++ [c], gens := x.gens.filter (fun e => e.1 != (c.tile, c.index)) ++ [((c.tile, c.index), c.gen)] })
  let s := sbtSend s (connIdOf c) c.accept
  if s.hk.running then sendSlow s (connIdOf c) 1 s.hk.target ((s.hk.graceEnd - s.clock) / 1000) 0 else s

/-- The generation a tile's index takes next (R302). -/
def connGen (s : State) (tile index : Nat) : BitVec 16 :=
  nextSkip (((s.sbt.gens.find? (fun e => e.1 == (tile, index))).map (·.2)).getD 0)

/-- A CONNECT taken (R312-R314): one already answered receives the same ACCEPT again. -/
def connectTaken (s : State) (h : SbtHdr) (b : ConnectBody) : State :=
  let same (addr : BitVec 128) (udp : BitVec 16) (t seq : W32) : Bool := addr == h.addr && udp == h.udp && t == b.tenantConn && seq == h.seq
  match s.sbt.conns.find? (fun c => same c.addr c.udp c.tenantConn c.connectSeq),
        s.sbt.refusals.find? (fun r => same r.addr r.udp r.tenantConn r.seq) with
  | some c, _ => emitPkt s c c.acceptSeq true c.accept
  | none, some r => emit s (refusalOut s h r true)
  | none, none =>
    let isn := Config.random32 s.freeIx
    let s := drawn s
    let tile := tileOfPort h.port
    match connectResult s h b, tenantOf s b.tenantId, freeIndex s tile with
    | 0, some tenant, some i => openConn s (newConn s h b tenant i (connGen s tile i) isn)
    | result, _, _ =>
      let r : Refusal1 :=
        { addr := h.addr, udp := h.udp, tenantConn := b.tenantConn, seq := h.seq, result := result, isn := isn, epoch := s.moon.epoch }
      emit (tally (modSbt s (fun y => { y with refusals := y.refusals ++ [r] })) tile kRefused) (refusalOut s h r false)

/-- CONNECT (R312-R314, R319, R538); its VERSION is judged by R319. -/
def execConnect (h : SbtHdr) (b : ConnectBody) (s : State) : Result := enterPkt s h 0x01 32 true (fun s => connectTaken s h b)

/-- REFUSAL_RETENTION_EXPIRY (R314). -/
def execRefusalRetentionExpiry (addr : BitVec 128) (udp : BitVec 16) (tenantConn seq : W32) (s : State) : Result :=
  if running s then
    done (modSbt s (fun b => { b with refusals := b.refusals.filter (fun r =>
      !(r.addr == addr && r.udp == udp && r.tenantConn == tenantConn && r.seq == seq)) }))
  else .next s

/-- INDEX_REUSE (R315): 20 ms have passed. -/
def execIndexReuse (tile index : Nat) (s : State) : Result :=
  if running s then done (modSbt s (fun b => { b with cooling := b.cooling.filter (· != (tile, index)) })) else .next s

/-! ### The rows: timers -/

/-- A connection of a tile in service. -/
def upConn? (s : State) (id : W32) : Option Conn :=
  match getConn? s id with
  | some c => if running s && tileUp s c.tile then some c else none
  | none => none

/-- DELAYED_ACK (R306). -/
def execDelayedAck (conn : W32) (s : State) : Result :=
  match upConn? s conn with
  | some c => if 0 < c.unacked then done (sendAck s conn) else .next s
  | none => .next s

/-- RETRANSMIT_TIMEOUT (R307, R308, R310). -/
def execRetransmitTimeout (conn : W32) (seq : W32) (s : State) : Result :=
  match upConn? s conn with
  | none => .next s
  | some c =>
    match c.tx.find? (fun p => p.seq == seq && p.sent) with
    | none => .next s
    | some p =>
      let s := modConn s conn (fun c => { c with cwnd := 2, rto := min 10000 (2 * c.rto) })
      done (resendPkt (tallyConn s conn kTimeouts) conn p)

/-- CONNECTION_LOSS (R309, R315): a packet has been unacknowledged for the loss time. -/
def execConnectionLoss (conn : W32) (s : State) : Result :=
  match upConn? s conn with
  | none => .next s
  | some c =>
    if !c.tx.any (·.sent) then .next s
    else if c.st = .closing then done (freeConn s c)
    else done (maintProgress (jetInfo (loseConn s c) 0x4001 (srcLink c.port) []))

/-- CREDIT_PROBE (R309). -/
def execCreditProbe (conn : W32) (s : State) : Result :=
  match upConn? s conn with
  | some c => if isLive c then done (sbtSend s conn (.credit c.limit 2)) else .next s
  | none => .next s

/-! ### Grants and completion -/

/-- The INTENTs of the parts that a byte range of a write touches are committed: its data may move (R33). -/
def intentsIn (s : State) (c : Cmd) (offset length : Nat) : Bool :=
  (List.range c.parts.length).all (fun i => match c.parts[i]? with
    | some p => !overlap offset length (4096 * partBase c.parts i) (4096 * p.count) || p.acked || p.intent.any (isCommitted s c.home)
    | none => true)

/-- XFER_RDY (R33, R330): a grant of a started WRITE, the INTENTs of the parts it touches committed. -/
def execXferRdy (id : Nat) (offset length : Nat) (s : State) : Result :=
  match getCmd? s id with
  | none => .next s
  | some c =>
    match c.src with
    | .sbt k tag =>
      (match upConn? s k with
       | none => .next s
       | some conn =>
         let ok := c.op == .write && c.phase == .locked && !c.mute && decide (4096 ≤ length) && decide (length ≤ 1048576) &&
           offset % 4096 == 0 && length % 4096 == 0 && decide (offset + length ≤ 4096 * c.len) && intentsIn s c offset length
         let room := match conn.allowance with
           | some a => decide (length ≤ a)
           | none => true
         if !(fwUp s && ok && room && isLive conn) then .next s
         else
           let s := modCmd s id (fun c => { c with grants := c.grants ++ [(offset, length)] })
           let s := modConn s k (fun x => { x with allowance := x.allowance.map (· - length) })
           done (sbtSend s k (.xferRdy tag offset length)))
    | _ => .next s

/-- DATA_IN packets of a read from `off` on, as the allowance lets them out: `fuel` packets at most. -/
def sendDataIn : Nat → State → W32 → BitVec 16 → Cmd → State
  | 0, s, _, _, _ => s
  | n + 1, s, id, tag, c =>
    match getConn? s id with
    | none => s
    | some k =>
      let left := 4096 * c.len - c.sent
      let len := match k.allowance with
        | some a => min (min k.maxData left) (a / 1024 * 1024)
        | none => min k.maxData left
      if len = 0 then s
      else
        let s := sbtSend s id (.dataIn tag c.sent len (Mem.slice c.data c.sent len))
        let s := modConn s id (fun k => { k with bytesNow := k.bytesNow + len, allowance := k.allowance.map (· - len) })
        let c := { c with sent := c.sent + len }
        sendDataIn n (modCmd s c.id (fun x => { x with sent := c.sent })) id tag c

/-- The RESP of a command, its lock's release, and the ABORT_RESPs it owes (R334, R340, R155, R100). -/
def respond (s : State) (id : W32) (k : Conn) (tag : BitVec 16) (c : Cmd) : State :=
  let bad := decide (0x0040 ≤ c.status.toNat) && decide (c.status.toNat ≤ 0x0044)
  let (s, f) := if bad then freezeWith s id k c tag else (s, 0)
  let stamp := isWriteOp c.op && c.status == 0
  let s := sbtSend s id (.resp tag c.status bad (c.heldFlag && c.status == 0) (if stamp then c.stampEpoch else 0)
    (if stamp then c.stampOffset else 0) f)
  let s := removeCmd s c
  let owed := ((getConn? s id).map (fun k => (k.aborted.filter (· == tag)).length)).getD 0
  let s := modConn s id (fun k => { k with aborted := k.aborted.filter (· != tag) })
  let s := (List.range owed).foldl (fun s _ => sbtSend s id (.abortResp tag 0x0081)) s
  settleConn (pumpCmds s id) id

/-- COMMAND_COMPLETION of an SBT command (R334): a read's DATA_IN precede its RESP (R333). -/
def completeSbt (s : State) (id : W32) (tag : BitVec 16) (c : Cmd) : State :=
  match getConn? s id with
  | none => removeCmd s c
  | some k =>
    if c.mute then
      let s := modConn (sbtSend (removeCmd s c) id (.abortResp tag 0x0005)) id (fun k => { k with aborted := k.aborted.erase tag })
      settleConn (pumpCmds s id) id
    else
      let s := if c.op = .read && c.status == 0 then sendDataIn (4096 * c.len / 1024 + 1) s id tag c else s
      match getCmd? s c.id with
      | none => s
      | some c' => if c.op = .read ∧ c.status = 0 ∧ c'.sent < 4096 * c.len then s else respond s id k tag c'

/-! ### Mailbox commands (R349, Table 7-18) -/

/-- Connections not closed. -/
def anyOpen (s : State) : Bool := !s.sbt.conns.isEmpty

/-- SBT_CONFIG. -/
def execSbtConfig (g : Go) (udpPort credit lossMs : Nat) (s : State) : Result :=
  mbxRun s g false false 8
    [(0, udpPort == 0), (2, credit == 0 || decide (1024 < credit)), (4, decide (lossMs < 10) || decide (10000 < lossMs))]
    [needStopped (!(udpPort != s.cfg.udpPort && anyOpen s))] []
    (fun s => mbxStore { s with cfg := { s.cfg with udpPort := udpPort, credit := credit, lossMs := lossMs } } g.mb [])

def tenantChecks (index : Nat) (ranges : List (Nat × Nat)) : List (Nat × Bool) :=
  [(0, decide (4096 ≤ index)), (3, decide (16 < ranges.length))] ++
    (List.range ranges.length).map (fun i => match ranges[i]? with
      | some r => (24 + 4 * i, decide (r.2 < r.1))
      | none => (0, false))

/-- Every volume of the ranges lies in the part's range (R6). -/
def tenantVols (s : State) (ranges : List (Nat × Nat)) : Check := needVol (ranges.all (fun r => decide (r.2 < s.part.volumes)))

/-- SBT_TENANT_SET with OP 0 (R313). -/
def execSbtTenantSet (g : Go) (index : Nat) (tenantId : BitVec 128) (ranges : List (Nat × Nat)) (s : State) : Result :=
  mbxRun s g false false (24 + 4 * ranges.length) (tenantChecks index ranges) [tenantVols s ranges] []
    (fun s => mbxStore { s with cfg := { s.cfg with tenants := Tab.set s.cfg.tenants index { tenantId := tenantId, ranges := ranges } } } g.mb [])

/-- SBT_TENANT_SET with OP 1 (R313). -/
def execSbtTenantRemove (g : Go) (index : Nat) (_tenantId : BitVec 128) (ranges : List (Nat × Nat)) (s : State) : Result :=
  mbxRun s g false false (24 + 4 * ranges.length) (tenantChecks index ranges) [tenantVols s ranges] []
    (fun s => mbxStore { s with cfg := { s.cfg with tenants := Tab.erase s.cfg.tenants index } } g.mb [])

/-- A connection's record in SBT_CONN_LIST, in an order of the model's. -/
def connRecord (s : State) (c : Conn) : List Byte :=
  let id := connIdOf c
  leBytes 4 id.toNat ++ leBytes 16 c.addr.toNat ++ leBytes 2 c.udp.toNat ++ leBytes 2 c.port ++ leBytes 2 c.tenant ++
    leBytes 1 (match c.st with | .open => 0 | .settling => 1 | .settled => 2 | .closing => 3 | .lost => 4) ++ leBytes 2 c.limit ++
    leBytes 2 c.cwnd.floor.toNat ++ leBytes 4 c.srtt ++ leBytes 2 (owedCmds s id).length ++ leBytes 2 (heldCmds s id).length

/-- SBT_CONN_LIST. -/
def execSbtConnList (g : Go) (tile : Nat) (buf : SegDesc) (s : State) : Result :=
  mbxRun s g false false 24 [(8, badBuf buf)] [need (tile == 0xFF || decide (tile < s.part.tiles)) 0] []
    (fun s =>
      let l := s.sbt.conns.filter (fun c => tile == 0xFF || c.tile == tile)
      let data := l.flatMap (connRecord s)
      mbxOk (writeBuf s g.mb buf data) g.mb (leBytes 4 l.length ++ bytesField data))

/-- SBT_CONN_CLOSE: REASON 2 (Table 7-5). -/
def execSbtConnClose (g : Go) (conn : W32) (s : State) : Result :=
  mbxRun s g false false 4 [] [need ((getConn? s conn).isSome) 0] []
    (fun s => mbxOk (closeConn s conn 2) g.mb [])

/-- The connections a SCOPE names (Table 11-8). -/
def scopeConns (s : State) (scope : Nat) (ident : W32) : List W32 :=
  (s.sbt.conns.filter (fun c => isLive c && (match scope with
    | 0 => connIdOf c == ident
    | 1 => c.tenant == ident.toNat
    | _ => c.port == ident.toNat))).map connIdOf

/-- A host request on one connection (R540): the lower TARGET that stands goes out. -/
def hostSlow (s : State) (id : W32) (target grace duration : Nat) : State :=
  let req : Option Slow :=
    if 256 ≤ target then none
    else some { target := target, from_ := max 1 (s.clock + 1000 * grace), left := if duration = 0 then none else some duration }
  let s := modConn s id (fun c => { c with hostReq := req })
  match getConn? s id with
  | some c =>
    let t := standing s c
    if t < target then sendSlow s id (if t = thermalTarget s then 1 else 2) t grace 0 else sendSlow s id 2 target grace duration
  | none => s

/-- SBT_THROTTLE (R345-R347). -/
def execSbtThrottle (g : Go) (scope target : Nat) (ident : W32) (grace duration : Nat) (s : State) : Result :=
  mbxRun s g false false 14
    [(0, decide (2 < scope)), (2, target == 0 || decide (256 < target)), (8, decide (1000000 < grace))]
    [need (match scope with
      | 0 => (getConn? s ident).isSome
      | 1 => (Tab.get? s.cfg.tenants ident.toNat).isSome
      | _ => (Tab.get? s.cfg.links ident.toNat).isSome) 4] []
    (fun s => mbxOk ((scopeConns s scope ident).foldl (fun s id => hostSlow s id target grace duration) s) g.mb [])

/-- The counts of SBT_STATS for a SCOPE, by kind (Table 7-18). -/
def statCounts (s : State) (scope : Nat) (ident : W32) : List Nat :=
  let tile (t k : Nat) : Nat := Tab.getD s.sbt.counts (16 * t + k) 0
  (List.range 13).map (fun k => match scope with
    | 0 => ((List.range 8).map (fun t => tile t k)).foldl (· + ·) 0
    | 1 => tile ident.toNat k
    | _ => ((getConn? s ident).map (fun c => Tab.getD c.counts k 0)).getD 0)

/-- SBT_STATS (Table 7-18). -/
def execSbtStats (g : Go) (scope : Nat) (ident : W32) (buf : SegDesc) (s : State) : Result :=
  mbxRun s g false false 24 [(0, decide (2 < scope)), (8, badBuf buf)]
    [need (match scope with
      | 0 => true
      | 1 => decide (ident.toNat < s.part.tiles)
      | _ => (getConn? s ident).isSome) 4] []
    (fun s =>
      let data := countBytes (statCounts s scope ident)
      mbxOk (writeBuf s g.mb buf data) g.mb (bytesField data))

end Sys2Proof.Machine
end

