-- ==== Sys2Proof/Machine/Rings.lean ====
section
/-! DEFINITION. Work rings (chapter 10): scan and fetch, arbitration and the checks at dispatch, block entries and offloads, batches
and completion rings, enable and disable. -/

namespace Sys2Proof.Machine

/-! ### Positions (R433, R434) -/

/-- A position moved by `n` units or entries in a ring of 2^size. -/
def advancePos (size i : Nat) (w : Bool) (n : Nat) : Nat × Bool :=
  if i + n < 2 ^ size then (i + n, w) else (i + n - 2 ^ size, !w)

/-- The lap phase of a wrap bit. -/
def lapPhase (w : Bool) : Bool := !w

/-- Units from one position to a later one. -/
def distance (size i : Nat) (wi : Bool) (j : Nat) (wj : Bool) : Nat := if wi = wj then j - i else 2 ^ size - i + j

/-! ### The host's side of an SQ -/

/-- Publication of the dispatched head at SQ_HEADWORD (R450). -/
def publish (s : State) (n : Nat) : State :=
  let q := getSq s n
  let s := modSq s n (fun q => { q with pub := q.head, pubWrap := q.headWrap })
  hostWrite s (sqOwner s n) q.headword.toNat 8 (Mem.ofList (leBytes 8 (q.head + flag 16 q.headWrap))) none

/-- The SQ's CQ is in backpressure (R460). -/
def cqHeld (s : State) (n : Nat) : Bool := (sqCq s n).any (fun c => (getCq s c).backpressure)

/-- An entry at which the scan stops for good (R414, R436). -/
def stopsScan (e : Entry) : Bool := e.malformed || e.failed

/-- Bytes of an SQ's fetched entries. -/
def heldBytes (q : Sq) : Nat := (q.fetched.map (fun e => 64 * e.len)).foldl (· + ·) 0

/-- The scan may read on: active, D0, no backpressure, and room for fetched entries (R449, R460, R428). -/
def mayFetch (s : State) (n : Nat) : Bool :=
  let q := getSq s n
  q.active && !q.fetched.any stopsScan && canDma s (sqOwner s n) && !cqHeld s n && decide (q.fetched.length < 32) &&
    decide (heldBytes q < 4096)

/-- A scan step: the header at the scan position is read, or the scan waits (R448). -/
def startScan (s : State) (n : Nat) : State :=
  let q := getSq s n
  if !q.active then s
  else if q.scanning then modSq s n (fun q => { q with again := true })
  else if !mayFetch s n then modSq s n (fun q => { q with again := true })
  else
    let s := modSq s n (fun q => { q with scanning := true, again := false })
    hostRead s (sqOwner s n) (.header n) (q.base.toNat + 64 * q.scan) 64

/-- A scan that had to wait goes on (R449). -/
def resumeScan (s : State) (n : Nat) : State :=
  let q := getSq s n
  if q.active && q.again && !q.scanning && mayFetch s n then startScan s n else s

/-- The scan stops: the head is published (R450). -/
def endScan (s : State) (n : Nat) : State :=
  let again := (getSq s n).again
  let s := publish (modSq s n (fun q => { q with scanning := false })) n
  if again then resumeScan s n else s

/-! ### Completion rings (R456-R461) -/

def cqFull (q : Cq) : Bool := q.tail == q.head && q.tailWrap != q.headWrap

/-- The local number of a resource for its function. -/
def localSq (s : State) (n : Nat) : Nat :=
  if sqOwner s n = 0 then n else ((vfSqs s (sqOwner s n)).findIdx? (· == n)).getD 0

/-- The 32 bytes of a completion entry (Table 10-9). -/
def cqeBytes (s : State) (c : Cqe) (phase : Bool) : List Byte :=
  let q := getSq s c.sq
  leBytes 1 (flag 0 phase + flag 1 c.held + flag 2 c.alone + flag 3 c.auto + flag 4 c.ringLost) ++ leBytes 1 0 ++
    leBytes 2 c.status.toNat ++ leBytes 2 (localSq s c.sq) ++ leBytes 2 c.tag.toNat ++ leBytes 2 c.count ++ leBytes 2 0 ++
    leBytes 4 (q.head + flag 16 q.headWrap) ++ leBytes 8 c.result.toNat ++ leBytes 6 c.epoch.toNat ++ leBytes 2 c.offset.toNat

/-- A message on a CQ's vector; the count and the timer start again (R459). -/
def cqMessage (s : State) (n : Nat) : State :=
  let v := (getCq s n).vector
  sendMsg (modCq s n (fun q => { q with sinceMsg := 0, timer := false })) (cqOwner s n) v

/-- An entry written at the tail (R456, R459). -/
def writeCqe (s : State) (n : Nat) (c : Cqe) : State :=
  let q := getCq s n
  let s := hostWrite s (cqOwner s n) (q.base.toNat + 32 * q.tail) 32 (Mem.ofList (cqeBytes s c (lapPhase q.tailWrap))) none
  let (t, w) := advancePos q.size q.tail q.tailWrap 1
  let s := modCq s n (fun q => { q with tail := t, tailWrap := w, sinceMsg := q.sinceMsg + 1, timer := q.timer || q.aggTime != 0 })
  if q.ien && decide (q.aggCount + 1 ≤ q.sinceMsg + 1) then cqMessage s n else s

/-- A completion handed to a CQ: written, or waiting on-die; the 64th waiting one begins backpressure (R460, R428). -/
def postCqe (s : State) (n : Nat) (c : Cqe) : State :=
  let q := getCq s n
  if q.waiting.isEmpty && !cqFull q && canDma s (cqOwner s n) then writeCqe s n c
  else
    let s := modCq s n (fun q => { q with waiting := q.waiting ++ [c] })
    if (getCq s n).waiting.length = 64 ∧ !q.backpressure then
      jetInfo (modCq s n (fun q => { q with backpressure := true, bpSeen := true, bpCount := BitVec.ofNat 32 (satInc q.bpCount.toNat (2 ^ 32 - 1)) }))
        0x500A (srcHost (cqOwner s n)) []
    else s

/-- Waiting completions written in order while there is room; `fuel` of them at most. -/
def drainCq : Nat → State → Nat → State
  | 0, s, _ => s
  | f + 1, s, n =>
    let q := getCq s n
    match q.waiting with
    | c :: rest =>
      if cqFull q || !canDma s (cqOwner s n) then s
      else drainCq f (writeCqe (modCq s n (fun q => { q with waiting := rest })) n c) n
    | [] => s

/-- The SQs of the device that are bound to a CQ. -/
def boundSqs (s : State) (n : Nat) : List Nat := (s.sqs.filter (fun e => sqCq s e.1 == some n)).map Prod.fst

/-- Waiting completions written and backpressure ended where it no longer holds (R460). -/
def relieveCq (s : State) (n : Nat) : State :=
  let s := drainCq ((getCq s n).waiting.length) s n
  if (getCq s n).backpressure && decide ((getCq s n).waiting.length < 64) then
    (boundSqs s n).foldl resumeScan (modCq s n (fun q => { q with backpressure := false }))
  else s

/-! ### Batches (R457) -/

def sqLive (s : State) (n : Nat) : List Live := s.live.filter (fun l => l.sq == n)

/-- The batches of an SQ's entries, in ring order: each with whether it is closed, and whether by CPL. -/
def batches (closeAt : Option Nat) : List Live → List Live → List (List Live × Bool × Bool)
  | cur, [] => if cur.isEmpty then [] else [(cur, false, false)]
  | cur, l :: rest =>
    let cur' := cur ++ [l]
    if l.cpl then (cur', true, true) :: batches closeAt [] rest
    else if closeAt = some l.index ∨ 4096 ≤ cur'.length then (cur', true, false) :: batches closeAt [] rest
    else batches closeAt cur' rest

/-- The latest acknowledgment stamp among covered entries. -/
def latestStamp (l : List Live) : Nat × Nat :=
  l.foldl (fun m e => if m.1 < e.epoch.toNat ∨ (m.1 = e.epoch.toNat ∧ m.2 < e.offset.toNat) then (e.epoch.toNat, e.offset.toNat) else m) (0, 0)

/-- ALONE completions of failed entries without CPL. -/
def postAlone (s : State) (n cq : Nat) : State :=
  (sqLive s n).foldl (fun s l =>
    match l.outcome with
    | some st =>
      if l.alone || l.cpl || st == 0 then s
      else postCqe (modLive s l.id (fun l => { l with alone := true })) cq { sq := n, tag := l.tag, status := st, count := 1, alone := true }
    | none => s) s

/-- A closed batch all of whose entries have completed: its completion, and its entries leave. -/
def postBatch (s : State) (n cq : Nat) (b : List Live × Bool × Bool) : State :=
  let (ls, closed, byCpl) := b
  if !closed || !ls.all (fun l => l.outcome.isSome) then s
  else
    let s := { s with live := s.live.filter (fun l => !ls.any (fun x => x.id == l.id)) }
    let cov := ls.filter (fun l => !l.alone)
    match cov.getLast? with
    | none => s
    | some last =>
      let (e, o) := latestStamp cov
      let c : Cqe :=
        { sq := n, tag := last.tag, status := if byCpl then last.outcome.getD 0 else 0, count := cov.length,
          held := cov.any (fun l => l.held), auto := !byCpl, result := if byCpl then last.result else 0,
          epoch := BitVec.ofNat 48 e, offset := BitVec.ofNat 16 o }
      postCqe s cq c

/-- The completions an SQ now owes. -/
def closeBatches (s : State) (n : Nat) : State :=
  match sqCq s n with
  | none => s
  | some cq =>
    let s := postAlone s n cq
    (batches (getSq s n).closeAt [] (sqLive s n)).foldl (fun s b => postBatch s n cq b) s

/-! ### Stopping an SQ (R462) -/

/-- Fetching and dispatching stop; fetched entries are discarded and counted; draining begins. -/
def stopSq (s : State) (n : Nat) : State :=
  let s := modSq s n (fun q =>
    { q with en := false, active := false, draining := true, scanning := false, again := false, fetched := [], partial_ := []
             discarded := BitVec.ofNat 16 (min 65535 (q.discarded.toNat + (q.fetched.filter (fun e => !stopsScan e)).length))
             closeAt := if 0 < q.nextIndex then some (q.nextIndex - 1) else none })
  closeBatches (voidReqs s (ofSq n)) n

/-- The failing entry at the dispatch point stops its SQ (R414, R436). -/
def stopAtHead (s : State) (n : Nat) : State :=
  match (getSq s n).fetched with
  | e :: _ =>
    if e.malformed then fault0 (modSq (stopSq s n) n (fun q => { q with formatErr := true })) 0x5009 2 (srcHost (sqOwner s n))
    else if e.failed then fault0 (modSq (stopSq s n) n (fun q => { q with fetchStop := true })) 0x5006 2 (srcHost (sqOwner s n))
    else s
  | [] => s

/-! ### Fetch (R448, R449, R436) -/

def entryOf (b : List Byte) : Entry :=
  let h := leField b 0 8
  { len := bits h 4 1 + 1, opc := bits h 15 8, cpl := bit h 16, ord := bit h 17, tag := BitVec.ofNat 16 (bits h 47 32), bytes := b }

/-- A fetched entry taken; the scan goes on, or ends at one that cannot be run. -/
def takeEntry (s : State) (n : Nat) (e : Entry) : State :=
  let q := getSq s n
  if stopsScan e then
    let s := publish (modSq s n (fun q => { q with fetched := q.fetched ++ [e], scanning := false, again := false })) n
    stopAtHead s n
  else
    let (i, w) := advancePos q.size q.scan q.scanWrap e.len
    startScan (modSq s n (fun q => { q with fetched := q.fetched ++ [e], scan := i, scanWrap := w, scanning := false, again := false })) n

/-- UNIT_PH of every unit after the first equals OWN (R434, R436). -/
def unitsOwned (b : List Byte) (n : Nat) : Bool :=
  let own := (b.getD 0 0).getLsbD 0
  (List.range n).all (fun u => (b.getD (64 * u) 0).getLsbD 0 == own)

/-- The first 64 bytes of the entry at the scan position (R449); the scan pauses where the entry would pass 4 KiB of fetched entries. -/
def gotHeader (s : State) (n : Nat) (b : List Byte) : State :=
  let q := getSq s n
  if !(q.active && q.scanning) then s
  else
    let e := entryOf b
    if (b.getD 0 0).getLsbD 0 ≠ lapPhase q.scanWrap then endScan s n
    else if 2 ^ q.size < q.scan + e.len then takeEntry s n { e with malformed := true }
    else if 4096 < heldBytes q + 64 * e.len then modSq s n (fun q => { q with scanning := false, again := true })
    else if e.len = 1 then takeEntry s n e
    else
      let len := 64 * (e.len - 1)
      let s := modSq s n (fun q => { q with partial_ := b, bodyData := [], bodyLeft := len })
      hostRead s (sqOwner s n) (.body n) (q.base.toNat + 64 * q.scan + 64) len

/-- A piece of the rest of the entry. -/
def gotBody (s : State) (n base : Nat) (b : List Byte) : State :=
  let q := getSq s n
  if !(q.active && q.scanning && decide (0 < q.bodyLeft)) then s
  else
    let s := modSq s n (fun q =>
      { q with bodyData := Mem.paste q.bodyData base b.length (Mem.ofList b), bodyLeft := q.bodyLeft - b.length })
    let q := getSq s n
    if 0 < q.bodyLeft then s
    else
      let e := entryOf q.partial_
      let e := { e with bytes := q.partial_ ++ Mem.bytes q.bodyData 0 (64 * (e.len - 1)) }
      let s := modSq s n (fun q => { q with partial_ := [], bodyData := [] })
      takeEntry s n { e with malformed := !unitsOwned e.bytes e.len }

/-! ### Segments (R439, R440) -/

/-- The window a descriptor names: a VF's local index. -/
def winOf (s : State) (fn w : Nat) : Option Nat := if fn = 0 then (if winOwner s w = 0 then some w else none) else (vfWins s fn)[w]?

/-- Base, limit and target of the active mapping (Table 9-15). -/
def winBase (w : WinRegs) : Nat := w.base.toNat
def winEnd (w : WinRegs) : Nat := w.limit.toNat + 4096
def winTile (w : WinRegs) : Nat := bits w.target.toNat 2 0
def winOffset (w : WinRegs) : Nat := field 12 (bits w.target.toNat 32 12)

/-- A descriptor at byte `o`. -/
def segAt (b : List Byte) (o : Nat) : Seg :=
  { addr := leField b o 8 / 64 * 64, len := leField b (o + 8) 4, typ := bits (leField b (o + 12) 1) 1 0, window := bits (leField b (o + 13) 1) 5 0 }

/-- The descriptor's reserved bits are zero; bit 0 is UNIT_PH at the start of a unit. -/
def segReserved (b : List Byte) (o : Nat) : Bool :=
  bits (leField b o 8) 5 1 == 0 && (o % 64 == 0 || !bit (leField b o 8) 0) && bits (leField b (o + 12) 1) 7 2 == 0 &&
    bits (leField b (o + 13) 1) 7 6 == 0 && leField b (o + 14) 2 == 0

/-- A descriptor that is in order for its type; `mult` divides SEG_LEN. -/
def segGood (s : State) (fn : Nat) (b : List Byte) (o mult : Nat) (mayNone : Bool) : Bool :=
  let x := segAt b o
  segReserved b o &&
    (match x.typ with
     | 0 => decide (64 ≤ x.len) && decide (x.len ≤ 4194304) && x.len % mult == 0
     | 1 => decide (64 ≤ x.len) && decide (x.len ≤ 4194304) && x.len % mult == 0 &&
        (match winOf s fn x.window with
         | some w => let a := (getWindow s w).act; decide (winBase a ≤ x.addr) && decide (x.addr + x.len ≤ winEnd a)
         | none => false)
     | 2 => mayNone && x.addr == 0 && x.len == 0
     | _ => false)

/-- A TYPE 1 descriptor resolved when its entry starts (R425, R440). -/
def resolveSeg (s : State) (fn : Nat) (x : Seg) : Seg :=
  match x.typ, winOf s fn x.window with
  | 1, some w => let a := (getWindow s w).act; { x with place := some (winTile a, winOffset a + (x.addr - winBase a)) }
  | _, _ => x

/-! ### Checks at dispatch (R438, R455, Table 10-10) -/

def opcRead : Nat := 0x01
def opcWrite : Nat := 0x02
def opcFlush : Nat := 0x03
def opcZeroes : Nat := 0x04
def opcDealloc : Nat := 0x05
def opcPq : Nat := 0x10
def opcRecon : Nat := 0x11
def opcCopy : Nat := 0x12
def opcCache : Nat := 0x20
def opcSkip : Nat := 0x3F

def isBlockOpc (o : Nat) : Bool := decide (1 ≤ o) && decide (o ≤ 5)
def isOffload (o : Nat) : Bool := o == opcPq || o == opcRecon || o == opcCopy

def ceilDiv (a b : Nat) : Nat := (a + b - 1) / b

/-- Descriptor offsets of an entry, in the order of its segments. -/
def segOffsets (e : Entry) : List Nat :=
  let n := match e.opc with
    | 0x01 => leField e.bytes 21 1
    | 0x02 => leField e.bytes 21 1
    | 0x10 => 2 + bits (leField e.bytes 8 1) 4 0
    | 0x11 => 2 + bits (leField e.bytes 8 1) 4 0
    | 0x12 => 2
    | _ => 0
  (List.range n).map (fun i => 32 + 16 * i)

/-- LEN as Table 10-2 gives it. -/
def lenGood (e : Entry) : Bool :=
  match e.opc with
  | 0x01 => e.len == ceilDiv (2 + leField e.bytes 21 1) 4
  | 0x02 => e.len == ceilDiv (2 + leField e.bytes 21 1) 4
  | 0x10 => e.len == 1 + ceilDiv (bits (leField e.bytes 8 1) 4 0) 4
  | 0x11 => e.len == 1 + ceilDiv (bits (leField e.bytes 8 1) 4 0) 4
  | _ => e.len == 1

/-- Header reserved bits (Table 10-1). -/
def headerGood (e : Entry) : Bool :=
  let h := leField e.bytes 0 8
  bits h 7 5 == 0 && bits h 31 18 == 0 && bits h 63 48 == 0

/-- Bytes from `a` to before `b` zero. -/
def zeroBytes (l : List Byte) (a b : Nat) : Bool := ((l.drop a).take (b - a)).all (· == 0)

/-- Flags of byte 20 an opcode permits: PREFETCH, FUA, DESTAGE (Table 10-4). -/
def ringFlags (opc : Nat) : Nat :=
  match opc with
  | 0x01 => 3
  | 0x02 => 2
  | 0x03 => 4
  | 0x04 => 2
  | _ => 0

def segLens (e : Entry) : List Nat := (segOffsets e).map (fun o => (segAt e.bytes o).len)

/-- The body of a block entry (Table 10-4). -/
def blockGood (s : State) (fn : Nat) (e : Entry) : Bool :=
  let b := e.bytes
  let f := leField b 20 1
  let len := leField b 16 2
  let data := e.opc == opcRead || e.opc == opcWrite
  let nseg := leField b 21 1
  bits (leField b 18 2) 15 14 == 0 && bits f 7 3 == 0 && (List.range 3).all (fun i => !bit f i || bit (ringFlags e.opc) i) && zeroBytes b 22 32 &&
    (if e.opc = opcFlush then leField b 8 8 == 0 && len == 0 else decide (1 ≤ len) && decide (len ≤ 1024)) &&
    (if data then decide (1 ≤ nseg) && decide (nseg ≤ 62) && (segOffsets e).all (fun o => segGood s fn b o 4096 false) &&
        (segLens e).foldl (· + ·) 0 == 4096 * len
     else nseg == 0)

/-- LENGTH of an offload (Table 10-5). -/
def offLen (e : Entry) : Nat := leField e.bytes 12 4

def lengthGood (n : Nat) : Bool := decide (64 ≤ n) && decide (n ≤ 4194304) && n % 64 == 0

/-- Positions of RECONSTRUCT that the formula reads, and those it writes. -/
def reconErased (e : Entry) : List Nat :=
  let a := bits (leField e.bytes 9 1) 4 0
  let b := bits (leField e.bytes 10 1) 4 0
  if a = b then [a] else [min a b, max a b]

def reconSources (e : Entry) : List Nat := recoverSources (bits (leField e.bytes 8 1) 4 0) (reconErased e)

/-- The bodies of the offloads (Tables 10-5 to 10-7). -/
def offloadGood (s : State) (fn : Nat) (e : Entry) : Bool :=
  let b := e.bytes
  let full (o : Nat) : Bool := segGood s fn b o 64 false && (segAt b o).len == offLen e
  let none_ (o : Nat) : Bool := (segAt b o).typ == 2 && segGood s fn b o 64 true
  lengthGood (offLen e) && zeroBytes b 16 32 &&
    (match e.opc with
     | 0x10 =>
       let n := bits (leField b 8 1) 4 0
       let f := leField b 9 1
       decide (1 ≤ n) && decide (n ≤ 28) && bits (leField b 8 1) 7 5 == 0 && bits f 7 2 == 0 && f != 0 && zeroBytes b 10 12 &&
         (if bit f 0 then full 32 else none_ 32) && (if bit f 1 then full 48 else none_ 48) &&
         (List.range n).all (fun i => full (64 + 16 * i))
     | 0x11 =>
       let k := bits (leField b 8 1) 4 0
       let need := reconErased e ++ reconSources e
       decide (1 ≤ k) && decide (k ≤ 28) && [8, 9, 10].all (fun o => bits (leField b o 1) 7 5 == 0) && leField b 11 1 == 0 &&
         (reconErased e).all (fun j => decide (j ≤ k + 1)) &&
         (List.range (k + 2)).all (fun j => if need.contains j then full (32 + 16 * j) else full (32 + 16 * j) || none_ (32 + 16 * j))
     | _ => zeroBytes b 8 12 && full 32 && full 48)

/-- The volume an entry names. -/
def entryVol (e : Entry) : Nat := if e.opc = opcCache then (parseMaint e.bytes).2.vol else bits (leField e.bytes 18 2) 13 0

/-- Windows of TYPE 1 descriptors. -/
def entryWins (s : State) (fn : Nat) (e : Entry) : List WinRegs :=
  (segOffsets e).filterMap (fun o =>
    let x := segAt e.bytes o
    if x.typ = 1 then (winOf s fn x.window).map (fun w => (getWindow s w).act) else none)

/-- Checks 3 to 5 of a block entry or CACHE_OP. -/
def volumeStatus (s : State) (fn : Nat) (e : Entry) : Status :=
  let (op, a) := parseMaint e.bytes
  if e.opc = opcCache ∧ op = 7 then (if s.hk.closing then 0x0006 else 0)
  else
    let v := entryVol e
    if !volExists s fn v then 0x0003
    else if e.opc = opcCache then
      (if maintBeyond s op a then 0x0004 else rangeStatus s v 0 0)
    else rangeStatus s v (leField e.bytes 8 8) (leField e.bytes 16 2)

/-- Check 2. -/
def formGood (s : State) (fn : Nat) (e : Entry) : Bool :=
  lenGood e && headerGood e &&
    (if isBlockOpc e.opc then blockGood s fn e
     else if isOffload e.opc then offloadGood s fn e
     else
       let (op, a) := parseMaint e.bytes
       decide (op ≤ 7) && !maintFormBad op a && !(op == 7 && fn != 0))

/-- Table 10-10: the status of the first failing check, 0 for none. -/
def dispatchStatus (s : State) (fn : Nat) (e : Entry) : Status :=
  if e.opc = opcSkip then 0
  else if !(isBlockOpc e.opc || isOffload e.opc || e.opc == opcCache) then 0x0001
  else if !formGood s fn e then 0x0002
  else
    let vs : Status := if isOffload e.opc then (if s.hk.closing then 0x0006 else 0) else volumeStatus s fn e
    if vs ≠ 0 then vs
    else if (entryWins s fn e).any (fun w => !tileUp s (winTile w)) then 0x0043
    else if (entryWins s fn e).any (fun w => !w.ctl.getLsbD 0) then 0x0006
    else 0

/-! ### Dispatch (R451-R454, R539) -/

/-- The ORD rules (R453). -/
def ordFree (s : State) (n : Nat) (e : Entry) : Bool :=
  let open_ := (sqLive s n).filter (fun l => l.outcome.isNone)
  !open_.any (fun l => l.ord && l.opc != opcSkip) && (!(e.ord && e.opc != opcSkip) || open_.isEmpty)

/-- Data bytes of an entry (R539). -/
def entryBytes (e : Entry) : Nat := (segLens e).foldl (· + ·) 0

/-- R539: the entry fits the tile's ring allowance of this epoch. -/
def withinThrottle (s : State) (n : Nat) (e : Entry) : Bool :=
  let a := (getTile s (sqTile s n)).arb
  s.hk.enforcing == false || decide (a.bytesNow + entryBytes e ≤ s.hk.target * a.refRate / 256)

/-- An SQ is ready (R454). -/
def sqReady (s : State) (n : Nat) : Bool :=
  let q := getSq s n
  q.active && canDma s (sqOwner s n) && !cqHeld s n &&
    (match q.fetched with
     | e :: _ => !stopsScan e && ordFree s n e && withinThrottle s n e
     | [] => false)

/-- The next entry of an SQ dispatched (R451): checked, resolved and entered. -/
def dispatchNext (s : State) (n : Nat) : State :=
  let q := getSq s n
  match q.fetched with
  | [] => s
  | e :: rest =>
    let fn := sqOwner s n
    let (i, w) := advancePos q.size q.head q.headWrap e.len
    let st := dispatchStatus s fn e
    let l : Live :=
      { id := s.nextId, sq := n, fn := fn, tag := e.tag, opc := e.opc, cpl := e.cpl, ord := e.ord, index := q.nextIndex, bytes := e.bytes,
        segs := if st = 0 then (segOffsets e).map (fun o => resolveSeg s fn (segAt e.bytes o)) else []
        outcome := if st = 0 then none else some st }
    let s := bump { s with live := s.live ++ [l] }
    let s := modSq s n (fun q =>
      { q with fetched := rest, head := i, headWrap := w, nextIndex := q.nextIndex + 1, dispatched := q.dispatched + 1
               credit := if e.opc = opcSkip then q.credit else q.credit - 1 })
    let s := modTile s (sqTile s n) (fun t => { t with arb := { t.arb with bytesNow := t.arb.bytesNow + entryBytes e } })
    let q := getSq s n
    let s := if 2 ^ q.size / 4 ≤ distance q.size q.pub q.pubWrap q.head q.headWrap then publish s n else s
    stopAtHead (resumeScan (if st = 0 then s else closeBatches s n) n) n

/-- The inner loop of R454: at most BURST entries other than SKIP. -/
def dispatchBurst : Nat → State → Nat → Nat → State
  | 0, s, _, _ => s
  | f + 1, s, n, left =>
    let q := getSq s n
    if left = 0 || q.credit == 0 || !sqReady s n then s
    else
      let skip := match q.fetched with
        | e :: _ => e.opc == opcSkip
        | [] => false
      dispatchBurst f (dispatchNext s n) n (if skip then left else left - 1)

/-- The SQs a tile hosts: its own, and those of a lost buddy (R45). -/
def sqsOn (s : State) (tile : Nat) : List Nat :=
  List.range' (256 * tile) 256 ++ (if unpaired s tile then List.range' (256 * buddy tile) 256 else [])

/-- One pass of the arbiter: the first ready SQ with credit from `rr` on. -/
def arbPass (s : State) (tile : Nat) : Option State :=
  let rr := (getTile s tile).arb.rr
  let ns := sqsOn s tile
  let at_ (i : Nat) : Nat := ns.getD ((rr + i) % ns.length) 0
  match (List.range ns.length).find? (fun i => sqReady s (at_ i) && (getSq s (at_ i)).credit != 0) with
  | none => none
  | some i =>
    let s := dispatchBurst 64 s (at_ i) ((getSq s (at_ i)).burst + 1)
    some (modTile s tile (fun t => { t with arb := { t.arb with rr := (rr + i + 1) % ns.length } }))

/-- Credits of the tile's ready SQs reloaded (R454). -/
def refreshCredits (s : State) (tile : Nat) : State :=
  { s with sqs := s.sqs.map (fun e => if sqTile s e.1 = tile ∧ sqReady s e.1 then (e.1, { e.2 with credit := e.2.weight + 1 }) else e) }

/-- SQ_DISPATCH (R454): a dispatch slot of the tile is free. -/
def execSqDispatch (tile : Nat) (s : State) : Result :=
  if !(serving s && tileUp s tile) then .next s
  else match arbPass s tile with
    | some s => done s
    | none =>
      match arbPass (refreshCredits s tile) tile with
      | some s => done s
      | none => .next s

/-- SQ_DB (R448). -/
def execSqDb (fn sq : Nat) (s : State) : Result :=
  if running s && canDma s fn && fnExists s fn && decide (sq < s.part.sqs) && sqOwner s sq == fn && tileUp s (sqTile s sq) then
    done (startScan s sq)
  else .next s

/-! ### Data of entries -/

/-- Byte offset of segment `i` in the whole of an entry's segments. -/
def segBase (l : Live) (i : Nat) : Nat := ((l.segs.take i).map (·.len)).foldl (· + ·) 0

/-- Staging bytes (R440). -/
def stagingRead (s : State) (tile off len : Nat) : Mem := Mem.slice (getTile s tile).tier.staging off len

def stagingWrite (s : State) (tile off len : Nat) (data : Mem) : State :=
  modTier s tile (fun t => { t with staging := Mem.paste t.staging off len data })

/-- The command of a block entry. -/
def entryCmd? (s : State) (id : Nat) : Option Cmd := s.cmds.find? (fun c => c.src == .ring id)

/-- Bytes of a segment laid into an entry's data. -/
def keepData (s : State) (id base len : Nat) (d : Mem) : State := modLive s id (fun l => { l with data := Mem.paste l.data base len d })

/-- The source segments an entry reads, by index. -/
def sourceSegs (l : Live) : List Nat :=
  match l.opc with
  | 0x02 => List.range l.segs.length
  | 0x10 => (List.range (l.segs.length - 2)).map (· + 2)
  | 0x11 => reconSources (entryOf l.bytes)
  | 0x12 => [0]
  | _ => []

/-- A TYPE 1 segment whose tile is gone (R42). -/
def segLost (s : State) (x : Seg) : Bool :=
  match x.place with
  | some (t, _) => !tileUp s t
  | none => false

/-- Reads of an entry's sources: staging at once, host memory by requests (R441, R442). -/
def fetchSources (s : State) (l : Live) : State :=
  (sourceSegs l).foldl (fun s i =>
    match l.segs[i]? with
    | none => s
    | some x =>
      match x.place with
      | some (t, o) => keepData s l.id (segBase l i) x.len (stagingRead s t o x.len)
      | none => hostRead s l.fn (.data l.id i) x.addr x.len) s

/-- Data laid into a destination segment. -/
def writeSeg (s : State) (l : Live) (x : Seg) (d : Mem) : State :=
  match x.place with
  | some (t, o) => stagingWrite s t o x.len d
  | none => if x.typ = 0 then hostWrite s l.fn x.addr x.len d (some l.id) else s

/-- The outcome of an entry is decided, once its data writes are out (R410, R442). -/
def finishEntry (s : State) (id : Nat) (st : Status) : State :=
  let s := modLive s id (fun l => if writesWait s id then { l with finishing := some st } else { l with outcome := some st, finishing := none })
  match getLive? s id with
  | some l => closeBatches s l.sq
  | none => s

/-- Entries whose last waiting write has gone. -/
def flushEntries (s : State) : State :=
  s.live.foldl (fun s l => match l.finishing with
    | some st => if writesWait s l.id then s else finishEntry s l.id st
    | none => s) s

/-- Reads of an entry's data still outstanding or waiting. -/
def isDataOf (id : Nat) (seg : Option Nat) (r : HostReq) : Bool :=
  match r.purpose with
  | .data e i => e == id && (match seg with | some j => i == j | none => true)
  | _ => false

def dataWait (s : State) (id : Nat) (seg : Option Nat) : Bool := s.pcie.reqs.any (isDataOf id seg) || s.pcie.waitReqs.any (isDataOf id seg)

/-- R56, R414: an entry whose data cannot be had ends, with status 0x0043. -/
def failEntry (s : State) (id : Nat) : State :=
  let s := modPcie (voidReqs s (isDataOf id none)) (fun p => { p with waitWrites := p.waitWrites.filter (fun w => w.entry != some id) })
  let s := match entryCmd? s id with
    | some c => (match c.phase with
      | .received => dropCmd s c.id
      | .forwarded => dropCmd s c.id
      | _ => endStarted s c false)
    | none => s
  match getLive? s id with
  | some l => if l.outcome.isSome then s else finishEntry s id 0x0043
  | none => s

/-! ### Offloads (R443-R445) -/

def srcData (l : Live) (i : Nat) : Mem := Mem.slice l.data (segBase l i) ((l.segs[i]?.map (·.len)).getD 0)

/-- Two segments share bytes of one memory (R445). -/
def segsOverlap (a b : Seg) : Bool :=
  match a.place, b.place with
  | some (t, o), some (u, p) => t == u && overlap o a.len p b.len
  | none, none => overlap a.addr a.len b.addr b.len
  | _, _ => false

/-- An offload all of whose sources are there: its results written. -/
def runOffload (s : State) (l : Live) : State :=
  let e := entryOf l.bytes
  let seg (i : Nat) : Seg := l.segs.getD i { addr := 0, len := 0, typ := 2, window := 0 }
  if l.segs.any (segLost s) then finishEntry s l.id 0x0043
  else
    let s := match l.opc with
      | 0x10 =>
        let ds := (sourceSegs l).map (srcData l)
        writeSeg (writeSeg s l (seg 0) (parityP ds)) l (seg 1) (parityQ ds)
      | 0x11 =>
        let k := bits (leField e.bytes 8 1) 4 0
        let got := (reconSources e).map (fun j => (j, srcData l j))
        let out := recover k got (reconErased e)
        (reconErased e).foldl (fun s j => writeSeg s l (seg j) (stripOf out j)) s
      | _ =>
        if segsOverlap (seg 0) (seg 1) then
          writeSeg (drawn s) l (seg 1) (Mem.ofList ((List.range (seg 1).len).map (Config.freeByte s.freeIx)))
        else writeSeg s l (seg 1) (srcData l 0)
    finishEntry s l.id 0

/-- A dispatched entry that its own row may start. -/
def startable (s : State) (l : Live) (opc : Nat) : Bool := serving s && l.opc == opc && !l.started && l.outcome.isNone

/-- An offload starts: its sources are read, and with all of them there its results are written. -/
def beginOffload (s : State) (l : Live) : State :=
  let s := fetchSources (modLive s l.id (fun l => { l with started := true })) l
  match getLive? s l.id with
  | some l => if dataWait s l.id none then s else runOffload s l
  | none => s

/-- An offload row: the dispatched entry starts. -/
def startOffload (s : State) (id opc : Nat) : Result :=
  match getLive? s id with
  | none => .next s
  | some l => if startable s l opc then done (beginOffload s l) else .next s

/-- PQ_COMPUTE (R443). -/
def execPqCompute (id : Nat) (s : State) : Result := startOffload s id opcPq

/-- RECONSTRUCT (R444). -/
def execReconstruct (id : Nat) (s : State) : Result := startOffload s id opcRecon

/-- COPY (R445). -/
def execCopy (id : Nat) (s : State) : Result := startOffload s id opcCopy

/-- SKIP (R447). -/
def execSkip (id : Nat) (s : State) : Result :=
  match getLive? s id with
  | some l => if startable s l opcSkip then done (finishEntry (modLive s id (fun l => { l with started := true })) id 0) else .next s
  | none => .next s

/-! ### Block entries (R442) -/

/-- The data of a ring write fetched from its segments (R442). -/
def fetchWrite (s : State) (l : Live) : State :=
  if l.segs.any (segLost s) then failEntry s l.id
  else
    let s := fetchSources s l
    match getLive? s l.id with
    | none => s
    | some l =>
      (List.range l.segs.length).foldl (fun s i =>
        match l.segs[i]?, entryCmd? s l.id with
        | some x, some c => if x.place.isSome then storeData s c (segBase l i) (srcData l i) x.len else s
        | _, _ => s) s

/-- Every byte of a ring write has been fetched (R56). -/
def fetchedAll (c : Cmd) : Bool := c.op != .write || (List.range (4 * c.len)).all (fun u => c.arrived.contains u)

/-- An entry whose function state or tile is gone ends without a completion (R56, R464). -/
def endLive (s : State) (l : Live) : State :=
  let s := modPcie (voidReqs s (isDataOf l.id none)) (fun p => { p with waitWrites := p.waitWrites.filter (fun w => w.entry != some l.id) })
  let s := match entryCmd? s l.id with
    | none => s
    | some c =>
      let early (s : State) : State :=
        if isWriteOp c.op && fetchedAll c then modCmd s c.id (fun c => { c with mute := true }) else removeCmd s c
      match c.phase with
      | .received => early s
      | .forwarded => early s
      | .accepted => early s
      | _ => endStarted s c false
  { s with live := s.live.filter (fun x => x.id != l.id) }

/-- The command a block entry spells (Table 10-4). -/
def blockCmd (s : State) (l : Live) (op : BlockOp) : Cmd :=
  { id := s.nextId, src := .ring l.id, rx := sqTile s l.sq, op := op, vol := bits (leField l.bytes 18 2) 13 0
    lba := leField l.bytes 8 8, len := leField l.bytes 16 2, prefetch := bit (leField l.bytes 20 1) 0
    destage := bit (leField l.bytes 20 1) 2 }

/-- A block entry starts: its command goes to the volume's home tile (R451, R28). -/
def enterBlock (s : State) (l : Live) (op : BlockOp) : State :=
  let c := blockCmd s l op
  modLive (forwardCmd (bump { s with cmds := s.cmds ++ [c] }) c) l.id (fun l => { l with started := true })

/-- A block entry's row. A write's data are fetched once its INTENTs are committed (R33). -/
def startBlock (s : State) (id opc : Nat) (op : BlockOp) : Result :=
  match getLive? s id with
  | none => .next s
  | some l => if startable s l opc then done (enterBlock s l op) else .next s

/-- A ring write whose INTENTs are all committed, with its data still to be fetched (R33). -/
def dataDue (s : State) (c : Cmd) : Bool :=
  c.op == .write && c.phase == .locked && !c.asked && c.parts.all (fun p => p.acked || p.intent.any (isCommitted s c.home))

/-- The data of ring writes fetched whose INTENTs have been committed (R33). -/
def startData (s : State) : State :=
  (s.cmds.filter (dataDue s)).foldl (fun s c =>
    match c.src with
    | .ring e => (match getLive? s e with
      | some l => fetchWrite (modCmd s c.id (fun c => { c with asked := true })) l
      | none => s)
    | _ => s) s

/-- RECORD_COMMIT (R167): the record of SEQUENCE `seq` is committed, in a ring that is served; the part it belongs to may be acknowledged,
a ring write's data fetched (R33), and a partner's record is confirmed (R181). -/
def execRecordCommit (tile seq : Nat) (s : State) : Result :=
  match (getTile s tile).amber.find? seq with
  | none => .next s
  | some r =>
    if !(running s && ringServed s tile) || r.committed || (getTile s tile).amber.failed || r.open_ || r.own || r.mirror then .next s
    else
      let s := commitRec s tile seq
      let s := match r.origin with
        | some (l, t, q) => partnerSend s l (.confirm q t 0)
        | none => s
      done (startData (ackRecord s tile seq))

/-- RING_READ (R442). -/
def execRingRead (id : Nat) (s : State) : Result := startBlock s id opcRead .read

/-- RING_WRITE (R442). -/
def execRingWrite (id : Nat) (s : State) : Result := startBlock s id opcWrite .write

/-- RING_FLUSH (R442). -/
def execRingFlush (id : Nat) (s : State) : Result := startBlock s id opcFlush .flush

/-- RING_WRITE_ZEROES (R442). -/
def execRingWriteZeroes (id : Nat) (s : State) : Result := startBlock s id opcZeroes .zeroes

/-- RING_DEALLOCATE (R442). -/
def execRingDeallocate (id : Nat) (s : State) : Result := startBlock s id opcDealloc .dealloc

/-- Data of an entry arrived: kept, and with its segment whole handed to the write or, with all of them there, to the offload. -/
def gotData (s : State) (id seg base : Nat) (b : List Byte) : State :=
  match getLive? s id with
  | none => s
  | some l =>
    let s := keepData s id (segBase l seg + base) b.length (Mem.ofList b)
    match getLive? s id with
    | none => s
    | some l =>
      if l.opc = opcWrite then
        if dataWait s id (some seg) then s
        else match entryCmd? s id, l.segs[seg]? with
          | some c, some x => storeData s c (segBase l seg) (srcData l seg) x.len
          | _, _ => s
      else if dataWait s id none then s
      else runOffload s l

/-- COMMAND_COMPLETION of a ring command (R334, R442, R452): a read's data go to its segments. -/
def completeRing (s : State) (id : Nat) (c : Cmd) : State :=
  let s := removeCmd s c
  match getLive? s id with
  | none => s
  | some l =>
    if c.mute then s
    else if c.op = .read ∧ c.status = 0 ∧ l.segs.any (segLost s) then finishEntry s id 0x0043
    else
      let s := if c.op = .read ∧ c.status = 0 then
          (List.range l.segs.length).foldl (fun s i => match l.segs[i]? with
            | some x => writeSeg s l x (Mem.slice c.data (segBase l i) x.len)
            | none => s) s
        else s
      let stamp := isWriteOp c.op && c.status == 0
      let s := modLive s id (fun l =>
        { l with held := c.heldFlag && c.status == 0, epoch := if stamp then c.stampEpoch else 0
                 offset := if stamp then c.stampOffset else 0 })
      finishEntry s id c.status

/-- COMMAND_COMPLETION (R334): the decided outcome of a command goes to its connection, its ring or its operation; that of a ring
entry without a command goes into its batch. -/
def execCommandCompletion (id : Nat) (s : State) : Result :=
  match getCmd? s id with
  | some c =>
    if !(fwUp s && c.phase == .finished && tileUp s c.rx) then .next s
    else match c.src with
      | .sbt k tag => done (maintProgress (completeSbt s k tag c))
      | .ring e => done (maintProgress (completeRing s e c))
      | .maint m =>
        let s := removeCmd s c
        match getMaint? s m with
        | some x => done (maintProgress (endMaint s { x with status := c.status, removed := if c.status = 0 then 1 else 0, todo := [] }))
        | none => done s
  | none =>
    match getLive? s id with
    | some l => if fwUp s && l.outcome.isSome then done (closeBatches s l.sq) else .next s
    | none => .next s

/-! ### Registers and doorbells (R459, R461-R467) -/

/-- A CQ reached by a function through its registers. -/
def cqReach (s : State) (fn cq : Nat) : Bool :=
  running s && canDma s fn && fnExists s fn && decide (cq < s.part.cqs) && cqOwner s cq == fn && tileUp s (cqTile s cq)

def sqReach (s : State) (fn sq : Nat) : Bool :=
  running s && canDma s fn && fnExists s fn && decide (sq < s.part.sqs) && sqOwner s sq == fn && tileUp s (sqTile s sq)

/-- Entries a head may lie behind the tail: its distance from the present head, within what is written. -/
def headGood (q : Cq) (h : Nat) (w : Bool) : Bool :=
  decide (h < 2 ^ q.size) &&
    decide (distance q.size q.head q.headWrap h w ≤ distance q.size q.head q.headWrap q.tail q.tailWrap) && (w != q.headWrap || decide (q.head ≤ h))

/-- A write of CQ_HEAD_DB: completions up to the head are consumed (R459, R461). -/
def cqHeadDb (s : State) (cq : Nat) (v : Nat) : State :=
  let q := getCq s cq
  let h := bits v 15 0
  let w := bit v 16
  if !q.active then s
  else if !headGood q h w then modCq s cq (fun q => { q with headErr := true })
  else
    relieveCq (modCq s cq (fun q =>
      { q with head := h, headWrap := w, timer := if h = q.tail ∧ w = q.tailWrap then q.timer else q.aggTime != 0 })) cq

/-- CQ_HEAD_DB (R459, R461). -/
def execCqHeadDb (fn cq : Nat) (v : W32) (s : State) : Result :=
  if cqReach s fn cq then done (cqHeadDb s cq v.toNat) else .next s

/-- CQ_AGG_TIMER (R459). -/
def execCqAggTimer (cq : Nat) (s : State) : Result :=
  let q := getCq s cq
  if running s && tileUp s (cqTile s cq) && q.active && q.ien && q.timer && q.aggTime != 0 && decide (0 < q.sinceMsg) then done (cqMessage s cq)
  else .next s

/-- A write that changes EN of an SQ to 1 (R466). -/
def enableSq (s : State) (n : Nat) : State :=
  let q := getSq s n
  if q.draining then modSq s n (fun q => { q with writeIgnored := true })
  else
    let st : Status :=
      if q.base = 0 ∨ q.headword = 0 then 0x0002
      else match sqCq s n with
        | none => 0x0002
        | some c =>
          if s.part.cqs ≤ c ∨ cqOwner s c ≠ sqOwner s n ∨ tileOfCq c ≠ tileOfSq n then 0x0002
          else if 2 ^ q.size ≤ q.posHead then 0x0002
          else if !(getCq s c).active then 0x0006
          else 0
    if st ≠ 0 then modSq s n (fun q => { q with cfgStatus := st })
    else
      startScan (modSq s n (fun q =>
        { q with en := true, active := true, cfgStatus := 0, head := q.posHead, headWrap := q.posWrap, scan := q.posHead
                 scanWrap := q.posWrap, pub := q.posHead, pubWrap := q.posWrap, fetched := [], scanning := false, again := false
                 closeAt := none })) n

/-- A write of SQ_CTL (R462, R465, R466): a write that changes EN changes nothing else. -/
def writeSqCtl (s : State) (n : Nat) (v : Nat) : State :=
  let q := getSq s n
  let en := bit v 0
  if en && !q.en then enableSq s n
  else if !en && q.en then stopSq s n
  else
    let size := if 4 ≤ bits v 12 8 ∧ bits v 12 8 ≤ 16 then bits v 12 8 else q.size
    let cq := bits v 24 16
    if (q.active || q.draining) && (size != q.size || cq != q.cq) then modSq s n (fun q => { q with writeIgnored := true })
    else modSq s n (fun q => { q with size := size, cq := cq })

/-- A write of CQ_CTL (R465, R467). -/
def writeCqCtl (s : State) (n : Nat) (v : Nat) : State :=
  let q := getCq s n
  let en := bit v 0
  if en && !q.en then
    if q.base = 0 then modCq s n (fun q => { q with cfgStatus := 0x0002 })
    else modCq s n (fun q =>
      { q with en := true, active := true, cfgStatus := 0, tail := 0, tailWrap := false, head := 0, headWrap := false, sinceMsg := 0, timer := false })
  else if !en && q.en then
    if (boundSqs s n).any (fun k => (getSq s k).active || (getSq s k).draining) then
      modCq s n (fun q => { q with writeIgnored := true, cfgStatus := 0x0002 })
    else modCq s n (fun q => { q with en := false, active := false, cfgStatus := 0, backpressure := false, waiting := [], timer := false })
  else
    let size := if 4 ≤ bits v 12 8 ∧ bits v 12 8 ≤ 16 then bits v 12 8 else q.size
    let vec := if cqOwner s n = 0 then bits v 26 16 else bits v 21 16
    let ien := bit v 1
    if q.active && (size != q.size || vec != q.vector || ien != q.ien) then modCq s n (fun q => { q with writeIgnored := true })
    else modCq s n (fun q => { q with size := size, vector := vec, ien := ien })

/-- SQ_DISABLE (R462): a write of SQ_CTL with EN = 0 to an enabled SQ. -/
def execSqDisable (fn sq : Nat) (v : W32) (s : State) : Result :=
  if sqReach s fn sq && !bit v.toNat 0 && (getSq s sq).en then done (writeSqCtl s sq v.toNat) else .next s

/-- SQ_DRAIN_COMPLETE (R462). -/
def execSqDrainComplete (sq : Nat) (s : State) : Result :=
  let q := getSq s sq
  let owed := (sqCq s sq).any (fun c => (getCq s c).waiting.any (fun e => e.sq == sq))
  if running s && tileUp s (sqTile s sq) && q.draining && (sqLive s sq).isEmpty && !owed then
    done (publish (modSq s sq (fun q => { q with posHead := q.head, posWrap := q.headWrap, draining := false })) sq)
  else .next s

/-- SQ_ENABLE (R466): a write of SQ_CTL with EN = 1 to a disabled SQ. -/
def execSqEnable (fn sq : Nat) (v : W32) (s : State) : Result :=
  if sqReach s fn sq && bit v.toNat 0 && !(getSq s sq).en then done (writeSqCtl s sq v.toNat) else .next s

/-- CQ_ENABLE (R467). -/
def execCqEnable (fn cq : Nat) (v : W32) (s : State) : Result :=
  if cqReach s fn cq && bit v.toNat 0 && !(getCq s cq).en then done (writeCqCtl s cq v.toNat) else .next s

/-- CQ_DISABLE (R467). -/
def execCqDisable (fn cq : Nat) (v : W32) (s : State) : Result :=
  if cqReach s fn cq && !bit v.toNat 0 && (getCq s cq).en then done (writeCqCtl s cq v.toNat) else .next s

end Sys2Proof.Machine
end

