-- ==== Sys2Proof/Machine/Endpoint.lean ====
section
/-! DEFINITION. The host endpoint (chapter 09): link and D-states, completions of the device's own requests, translation, and
peer windows. -/

namespace Sys2Proof.Machine

/-! ### What waits for the host (R428) -/

/-- Messages kept for a function that may go now (R403, R428). -/
def sendHeld (s : State) (fn : Nat) : State :=
  let f := getFunc s fn
  if canDma s fn then
    (f.heldMsgs.filter (msixOpen f)).foldl (fun s v => emit s (.msix fn v))
      (modFunc s fn (fun f => { f with heldMsgs := f.heldMsgs.filter (fun v => !msixOpen f v) }))
  else s

/-- Everything that waits for tags, translations or D0 tried again: DMA, completion rings, scans and messages. -/
def wakeHost (s : State) : State :=
  let s := flushEntries (pumpDma s)
  let s := (s.cqs.map Prod.fst).foldl relieveCq s
  let s := (s.sqs.map Prod.fst).foldl resumeScan s
  (List.range (s.pcie.numVfs + 1)).foldl sendHeld s

/-- Reads and writes that wait, and the entries they end, after a change of tags or translations. -/
def pumpHost (s : State) : State := flushEntries (pumpDma s)

/-! ### Link and D-states -/

/-- The endpoint hardware works: powered and out of reset, T0 in service (R393, R51). -/
def endpointUp (s : State) : Bool := running s && s.pins.perstN && s.pins.pcieRefclk && tileUp s 0

/-- PCIE_LINK_UP (R391). -/
def execPcieLinkUp (rate width : Nat) (s : State) : Result :=
  if endpointUp s && !s.pcie.linkUp && [1, 2, 4, 8, 16].contains width then
    done (wakeHost (modPcie s (fun p => { p with linkUp := true, rate := rate, width := width })))
  else .next s

/-- PCIE_LINK_DOWN (R391, R431): width 0 says link down, any other a retrain. -/
def execPcieLinkDown (rate width : Nat) (s : State) : Result :=
  if !(running s && s.pcie.linkUp && (decide (rate < s.pcie.rate) || decide (width < s.pcie.width))) then .next s
  else
    let s := modPcie s (fun p =>
      if width = 0 then { p with linkUp := false, rate := 0, width := 0 } else { p with rate := rate, width := width })
    done (fault0 s 0x5008 1 (srcHost 0))

/-- The states PMCSR may select (Table 9-17): D1 on PF0 only. -/
def mayEnter (fn : Nat) (d : DState) : Bool :=
  match d with
  | .d0 => false
  | .d1 => fn == 0
  | .d3hot => true

/-- D_STATE_ENTRY (R428). -/
def execDStateEntry (fn : Nat) (d : DState) (s : State) : Result :=
  if running s && s.pcie.linkUp && fnExists s fn && mayEnter fn d && (getFunc s fn).d == .d0 then
    done (modFunc s fn (fun f => { f with d := d }))
  else .next s

/-- D0_RETURN (R428). -/
def execD0Return (fn : Nat) (s : State) : Result :=
  if running s && s.pcie.linkUp && fnExists s fn && (getFunc s fn).d != .d0 then
    done (wakeHost (modFunc s fn (fun f => { f with d := .d0 })))
  else .next s

/-! ### Completions (R409-R414) -/

def dropReq (s : State) (r : HostReq) : State := modPcie s (fun p => { p with reqs := p.reqs.erase r })

/-- A request has failed (R414): by what it was for. -/
def failReq (s : State) (r : HostReq) : State :=
  match r.purpose with
  | .header n => if (getSq s n).active then takeEntry (voidReqs s (ofSq n)) n { entryOf [] with failed := true } else s
  | .body n => if (getSq s n).active then takeEntry (voidReqs s (ofSq n)) n { entryOf (getSq s n).partial_ with failed := true } else s
  | .data e _ => failEntry s e

/-- A read has brought all its bytes: they go where the read was for. -/
def gotRead (s : State) (r : HostReq) : State :=
  match r.purpose with
  | .header n => gotHeader s n r.got
  | .body n => gotBody s n r.base r.got
  | .data e i => gotData s e i r.base r.got

/-- An Unexpected Completion (R409, R413). -/
def unexpected (s : State) (fn : Nat) : State := aer (reqStatus s fn 1) 2

/-- A completion that agrees with its request (R409): Byte Count is what the request still lacks, Lower Address that of its first byte, and
all but the last completion end at an aligned 64-byte boundary. -/
def cplGood (r : HostReq) (c : HostCpl) : Bool :=
  let left := r.len - r.got.length
  let o := r.addr + r.got.length
  c.byteCount == left && c.lowerAddr == o % 128 && decide (0 < c.data.length) && decide (c.data.length ≤ left) &&
    (c.data.length == left || (o + c.data.length) % 64 == 0)

/-- HOST_COMPLETION (R409, R413, R414). -/
def execHostCompletion (c : HostCpl) (s : State) : Result :=
  if !(running s && s.pcie.linkUp) then .next s
  else match s.pcie.reqs.find? (fun r => r.tag == c.tag) with
    | none =>
      match Tab.get? s.pcie.quarantine c.tag with
      | some (fn, _) =>
        let s := modFunc (unexpected s fn) fn (fun f => { f with lateDropped := BitVec.ofNat 16 (satInc f.lateDropped.toNat 0xFFFF) })
        done (jetInfo s 0x5002 (srcHost fn) (leBytes 2 c.tag))
      | none => done (aer s 2)
    | some r =>
      if c.status ≠ .sc then done (pumpHost (failReq (reqStatus (dropReq s r) r.fn 2) r))
      else if c.poisoned then done (pumpHost (failReq (aer (reqStatus (dropReq s r) r.fn 3) 3) r))
      else if !cplGood r c then
        done (pumpHost (failReq (unexpected (dropReq s r) r.fn) r))
      else
        let r' := { r with got := r.got ++ c.data }
        if r'.got.length < r.len then
          done (modPcie s (fun p => { p with reqs := p.reqs.map (fun x => if x.tag = r.tag then r' else x) }))
        else done (pumpHost (gotRead (dropReq s r) r'))

/-- A request timed out (R412): AER, REQ_STATUS, quarantine, Jet 0x5001, and its failure. -/
def timeOutReq (s : State) (r : HostReq) : State :=
  let s := aer (reqStatus (dropReq s r) r.fn 0) 1
  let s := modFunc s r.fn (fun f => { f with timeouts := BitVec.ofNat 32 (satInc f.timeouts.toNat 0xFFFFFFFF) })
  let s := modPcie s (fun p => { p with quarantine := Tab.set p.quarantine r.tag (r.fn, s.clock + 2 * ctoNs s r.fn) })
  failReq (fault s { code := 0x5001, cls := 1, src := srcHost r.fn, data := leBytes 2 r.tag }) r

/-- COMPLETION_TIMEOUT (R412). -/
def execCompletionTimeout (tag : Nat) (s : State) : Result :=
  match s.pcie.reqs.find? (fun r => r.tag == tag) with
  | some r => if running s then done (pumpHost (timeOutReq s r)) else .next s
  | none => .next s

/-- TAG_QUARANTINE_END (R412). -/
def execTagQuarantineEnd (tag : Nat) (s : State) : Result :=
  if running s && (Tab.get? s.pcie.quarantine tag).isSome then
    done (pumpHost (modPcie s (fun p => { p with quarantine := Tab.erase p.quarantine tag })))
  else .next s

/-! ### Translation (R415-R419) -/

def atcSize : Nat := 4096

/-- A translation entered as the most recently used; the least recently used leaves a full cache (R415). -/
def atcInsert (s : State) (e : AtcEnt) : State :=
  modPcie s (fun p => { p with atc := (e :: p.atc.filter (fun x => !(x.fn == e.fn && x.page == e.page))).take atcSize })

/-- A refused translation (R419): the requests of the page fail. -/
def refuseTranslation (s : State) (t : TrReq) : State :=
  let s := reqStatus s t.fn 4
  let s := modFunc s t.fn (fun f => { f with atsRefused := BitVec.ofNat 16 (satInc f.atsRefused.toNat 0xFFFF) })
  let s := fault s { code := 0x5003, cls := 1, src := srcHost t.fn, data := leBytes 8 (4096 * t.page) }
  if t.write then
    let ws := s.pcie.waitWrites.filter (fun w => w.fn == t.fn && w.addr / 4096 == t.page)
    let s := modPcie s (fun p => { p with waitWrites := p.waitWrites.filter (fun w => !(w.fn == t.fn && w.addr / 4096 == t.page)) })
    (ws.filterMap (·.entry)).foldl failEntry s
  else
    let rs := s.pcie.waitReqs.filter (fun r => r.fn == t.fn && r.addr / 4096 == t.page)
    let s := modPcie s (fun p => { p with waitReqs := p.waitReqs.filter (fun r => !(r.fn == t.fn && r.addr / 4096 == t.page)) })
    rs.foldl failReq s

/-- TRANSLATION_COMPLETION (R416, R419). -/
def execTranslationCompletion (t : Translation) (s : State) : Result :=
  match s.pcie.trReqs.find? (fun x => x.id == t.req) with
  | none => .next s
  | some x =>
    if !(running s && s.pcie.linkUp) then .next s
    else
      let s := modPcie s (fun p => { p with trReqs := p.trReqs.filter (fun y => y.id != x.id) })
      if t.status == .sc && (if x.write then t.writeOk else t.readOk) then
        done (pumpHost (atcInsert s { fn := x.fn, page := BitVec.ofNat 52 x.page, target := t.page, r := t.readOk, w := t.writeOk }))
      else done (pumpHost (refuseTranslation s x))

/-- INVALIDATION_REQUEST (R417). -/
def execInvalidationRequest (fn itag : Nat) (page : BitVec 52) (pages : Nat) (s : State) : Result :=
  if !(running s && s.pcie.linkUp && fnExists s fn) then .next s
  else
    let hit (x : Nat) : Bool := decide (page.toNat ≤ x) && decide (x < page.toNat + pages)
    let s := modPcie s (fun p => { p with atc := p.atc.filter (fun e => !(e.fn == fn && hit e.page.toNat)) })
    let rs := if (getFunc s fn).ats then s.pcie.reqs.filter (fun r => r.fn == fn && hit (r.addr / 4096)) else []
    done (pumpHost (emit (rs.foldl timeOutReq s) (.invalidated fn itag)))

/-! ### Peer windows (R420-R426) -/

/-- Table 9-14, with the D-states of Table 9-17: the access of `lo` to `hi` (exclusive) is refused. -/
def winRefuses (s : State) (t : WinTlp) (write : Bool) (lo hi : Nat) : Bool :=
  let a := (getWindow s t.window).act
  let fn := winOwner s t.window
  let access := bits a.ctl.toNat 2 1
  !canDma s fn || (fn != 0 && t.viaPf) || !bit a.ctl.toNat 0 || !tileUp s (winTile a) ||
    (bit a.ctl.toNat 3 && bits a.ctl.toNat 31 16 != t.requester.toNat) ||
    (decide (lo < hi) && !(decide (winBase a ≤ lo) && decide (hi ≤ winEnd a))) ||
    access == (if write then 1 else 2) || t.atomic

/-- A refused TLP (R421): AER, the count, and Jet 0x5004. -/
def winRefused (s : State) (t : WinTlp) (write : Bool) : State :=
  let s := modWindow (aer s 4) t.window (fun w =>
    { w with dropped := w.dropped || write, readRefused := w.readRefused || !write, refused := satInc w.refused 255 })
  jetInfo s 0x5004 (srcHost (winOwner s t.window)) (leBytes 1 t.window)

/-- A TLP reaches an aperture of the endpoint at all. -/
def winReached (s : State) (t : WinTlp) : Bool :=
  running s && s.pcie.linkUp && tileUp s 0 && decide (t.window < 64) && (t.viaPf || winOwner s t.window != 0)

/-- The enabled bytes of a write laid over staging bytes from `o` on (R422). -/
def pasteEnabled (m : Mem) (o : Nat) : List (Option Byte) → Mem
  | [] => m
  | some b :: rest => pasteEnabled (Mem.set m o b) (o + 1) rest
  | none :: rest => pasteEnabled m (o + 1) rest

/-- First and one past the last enabled byte. -/
def enabledSpan (off : Nat) (data : List (Option Byte)) : Nat × Nat :=
  let l := (List.range data.length).filter (fun i => (data.getD i none).isSome)
  match l.head?, l.getLast? with
  | some a, some b => (off + a, off + b + 1)
  | _, _ => (off, off)

/-- WINDOW_WRITE (R420-R422). -/
def execWindowWrite (t : WinTlp) (data : List (Option Byte)) (s : State) : Result :=
  if !winReached s t then .next s
  else
    let (lo, hi) := enabledSpan t.offset data
    if winRefuses s t true lo hi then done (winRefused s t true)
    else
      let a := (getWindow s t.window).act
      let o := winOffset a + lo - winBase a
      done (modTier s (winTile a) (fun x => { x with staging := pasteEnabled x.staging o (data.drop (lo - t.offset)) }))

/-- WINDOW_READ (R420-R422). -/
def execWindowRead (t : WinTlp) (len : Nat) (s : State) : Result :=
  if !winReached s t then .next s
  else if winRefuses s t false t.offset (t.offset + len) then done (emit (winRefused s t false) (.peerCompletion .ur []))
  else
    let a := (getWindow s t.window).act
    done (emit s (.peerCompletion .sc (Mem.bytes (getTile s (winTile a)).tier.staging (winOffset a + t.offset - winBase a) len)))

/-- A window reached through a function's register block (R400). -/
def winReach (s : State) (fn w : Nat) : Bool := running s && canDma s fn && fnExists s fn && decide (w < 64) && winOwner s w == fn

/-- R424: the shadow registers may become active. -/
def commitGood (s : State) (sh : WinRegs) : Bool :=
  !bit sh.ctl.toNat 0 ||
    (bits sh.ctl.toNat 2 1 != 0 && decide (sh.base.toNat ≤ sh.limit.toNat) && tileUp s (winTile sh) &&
      decide (winOffset sh + (sh.limit.toNat - sh.base.toNat) + 4096 ≤ (getTile s (winTile sh)).tier.zGib * 2 ^ 30))

/-- A commit of a window (R424, R425). -/
def commitWindow (s : State) (w : Nat) : State :=
  if commitGood s (getWindow s w).sh then modWindow s w (fun x => { x with act := x.sh, refused := 0 })
  else modWindow s w (fun x => { x with commitErr := true })

/-- WIN_COMMIT (R424). -/
def execWinCommit (fn window : Nat) (v : W32) (s : State) : Result :=
  if winReach s fn window && bit v.toNat 0 then done (commitWindow s window) else .next s

/-- A write to an active window register (R426). -/
def directWindow (s : State) (fn w : Nat) : State :=
  jetInfo (modWindow s w (fun x => { x with directWrite := true })) 0x5005 (srcHost fn) (leBytes 1 w)

/-- WINDOW_DIRECT_WRITE (R426). -/
def execWindowDirectWrite (fn window offset : Nat) (_v : W32) (s : State) : Result :=
  if winReach s fn window && [0x00, 0x04, 0x08, 0x0C, 0x10].contains offset then done (directWindow s fn window) else .next s

end Sys2Proof.Machine
end

