-- ==== Sys2Proof/Machine/Partner.lean ====
section
/-! DEFINITION. Changes of volumes and pools, and partner links: frames, offers and reservations, mirrored records, leases
and imports (R378-R390). -/

namespace Sys2Proof.Machine

/-! ### Changes of volumes and pools (R381, R488-R490) -/

/-- Extents released by a change, to be zeroed before they are free (R489). -/
def releaseExtents (s : State) (pool : Nat) (es : List Nat) : State :=
  modPool s pool (fun p =>
    { p with zeroing := p.zeroing ++ es.filter (fun e => !p.zeroing.contains e), zeroNext := p.zeroNext.filter (fun e => !es.contains e.1) })

/-- A volume's rows removed from a tile's tier (R490). -/
def purgeVol (s : State) (t vol : Nat) : State :=
  modTier s t (fun x =>
    { x with
      lines := x.lines.filter (fun e => e.2.c.vol != vol), evb := x.evb.filter (fun e => e.2.vol != vol)
      side := x.side.filter (fun e => e.2.c.vol != vol), store := x.store.filter (fun e => e.2.c.vol != vol) })

/-- Volumes with SEAL homed on a tile (R103). -/
def sealsOn (s : State) (t : Nat) : Nat :=
  (s.cfg.vols.filter (fun e => e.2.attr.getLsbD 0 && homeTile s e.1 == t)).length

/-- A volume with SEAL that a tile other than its own homes, beyond the tile's 2,048: the tile keeps no map for it (R103). The tile's own
volumes come first, then those it has adopted, by number. -/
def beyondMaps (s : State) (v : Nat) : Bool :=
  let h := homeTile s v
  let seals := s.cfg.vols.filter (fun e => e.2.attr.getLsbD 0 && homeTile s e.1 == h)
  let own := seals.filter (fun e => e.2.home == h)
  let adopted := seals.filter (fun e => e.2.home != h && decide (e.1 < v))
  h != (volCfg s v).home && (volCfg s v).attr.getLsbD 0 && decide (2048 ≤ own.length + adopted.length)

/-- A volume's configuration changed: created, deleted or altered (R488-R490). A home with room keeps its map again (R103). -/
def applyVol (s : State) (v : Nat) (new : Option VolCfg) : State :=
  let old := volCfg? s v
  match old, new with
  | none, some c =>
    setVol { s with cfg := { s.cfg with vols := Tab.set s.cfg.vols v c } } v { home := c.home }
  | some o, none =>
    let s := purgeVol s (homeTile s v) v
    releaseExtents { s with cfg := { s.cfg with vols := Tab.erase s.cfg.vols v }, vols := Tab.erase s.vols v } o.pool o.extents
  | some o, some c =>
    let s := setVolCfg s v c
    let s := if c.extents = o.extents then s
      else purgeVol (releaseExtents s c.pool (o.extents.filter (fun e => !c.extents.contains e))) (homeTile s v) v
    let s := if c.home = o.home then s
      else modVol (purgeVol s (homeTile s v) v) v (fun x => { x with home := c.home, noMap := false, activeFull := x.activeFull || x.noMap })
    if c.attr.getLsbD 0 && !o.attr.getLsbD 0 then modVol s v (fun x => { x with active := [], activeFull := true }) else s
  | none, none => s

/-- A member named for a failed pool index: a Peridot home (R219), whose hot spare returns to SPARE, or a copyback target (R242). -/
def replaceAt (s : State) (pool ix m : Nat) : State :=
  if (poolCfg s pool).peridot then
    let old := ((getPool s pool).failList.find? (fun e => e.index == ix)).bind (·.home)
    let s := match old with
      | some h => modMember s h (fun x => { x with st := .spare })
      | none => s
    let s := modMember s m (fun x => { x with st := .replacing })
    let s := listChange s pool ((getPool s pool).failList.map (fun e => if e.index = ix then { e with home := some m } else e))
    retable (writeHeader s pool [m]) pool
  else writeHeader (startCopyback s pool ix m) pool [m]

/-- A mirror set named by the host: usable when neither member has failed. -/
def mirrorNamed (c : PoolCfg) (p : Pool) : Pool :=
  let lost := (if isFailedIx p.failList c.mirror0 then [0] else []) ++ (if isFailedIx p.failList c.mirror1 then [1] else [])
  { p with mirrorUsable := lost.isEmpty, recopying := [], mirrorLost := lost, mirrorSet := none }

/-- A change takes effect. -/
def applyChange (s : State) (ch : CfgChange) : State :=
  match ch with
  | .vol v c => applyVol s v c
  | .pool p c =>
    let old := (poolCfg s p).partner
    let moved := c.mirror0 != (poolCfg s p).mirror0 || c.mirror1 != (poolCfg s p).mirror1
    let s := setPoolCfg s p c
    let s := if moved then modPool s p (mirrorNamed c) else s
    match old with
    | some l => if c.partner = some l then s else partnerSend s l (.withdraw p)
    | none => s
  | .replace p ix m => replaceAt s p ix m

/-- A volume's description as an offer carries it (R381). -/
def volDesc (e : Nat × VolCfg) : Nat × List Nat × BitVec 8 × Nat × List RatEntry := (e.1, e.2.extents, e.2.attr, e.2.policy, e.2.rat)

/-- The member at each pool index, with a failed one's Peridot home or copyback target in its place. -/
def placeMembers (s : State) (pool : Nat) : List Nat :=
  let p := getPool s pool
  let homes := p.failList.filterMap (fun e => e.home.map (fun h => (e.index, h))) ++ p.copy.toList
  homes.foldl (fun ms e => ms.set e.1 e.2) (poolCfg s pool).members

/-- The description of a pool (R381). -/
def poolDesc (s : State) (pool : Nat) : PoolDesc :=
  let c := poolCfg s pool
  { k := c.k, s := c.s, n := c.n, seed := c.seed, mirror0 := c.mirror0, mirror1 := c.mirror1
    members := (placeMembers s pool).filterMap (Tab.get? s.cfg.members)
    vols := (s.cfg.vols.filter (fun e => e.2.pool == pool)).map volDesc
    keys := (s.cfg.vols.filter (fun e => e.2.pool == pool && e.2.key.isSome)).map (fun e => (e.1, e.2.wrapped)) }

/-- POOL_OFFER sent for a mailbox's command, which waits for POOL_REPLY (R381). -/
def sendOffer (s : State) (mb link pool : Nat) (ch : CfgChange) (data : List Byte) : State :=
  let d := poolDesc (applyChange s ch) pool
  let s := partnerSend s link (.offer pool d)
  let s := modPartner s link (fun p => { p with offers := p.offers ++ [(pool, mb)] })
  modMbx (mbxPark s mb (.partnerOffer pool) data) mb (fun m => { m with change := some ch })

/-- A change of a pool's description: at once, or when the partner has accepted it (R381). -/
def changePool (s : State) (mb pool : Nat) (ch : CfgChange) (data : List Byte) : State :=
  match (poolCfg s pool).partner with
  | none => mbxStore (applyChange s ch) mb data
  | some l => sendOffer s mb l pool ch data

/-- While the partner link is down, a change of the description is refused (R381). -/
def needPartner (s : State) (pool : Nat) : Check :=
  { fails := (match (poolCfg s pool).partner with
      | some l => !(getPartner s l).up
      | none => false)
    status := 0x0102 }

/-! ### Link state (R380, R183) -/

/-- The partner link on a port. -/
def linkAt (s : State) (port : Nat) : Option Nat := (s.cfg.partners.find? (fun e => e.2.port == port)).map Prod.fst

/-- The partner link goes down (R380); what awaits confirmation follows R182. -/
def partnerDown (s : State) (link : Nat) : State :=
  if (getPartner s link).up then fault0 (modPartner s link (fun p => { p with up := false })) 0x2020 1 (srcPartner link) else s

/-- Pools mirrored over a link. -/
def poolsOn (s : State) (link : Nat) : List Nat := (s.cfg.pools.filter (fun e => e.2.partner == some link)).map Prod.fst

/-- Every unretired record of a pool sent again from every ring that is served, in SEQUENCE order, then its mirroring goes on (R183, R383). -/
def resumeMirror (s : State) (link pool : Nat) : State :=
  let s := ((List.range s.part.tiles).filter (ringServed s)).foldl (fun s t =>
    (((getTile s t).amber.recs.filter (fun r => !r.retired && !r.open_ && !r.r.partner && recPool s r.r == pool &&
        (r.r.kind == .intent || r.r.kind == .data))).foldl (fun s r =>
      sendRecord s link t { r.r with payload := if r.r.kind = .data then wirePayload s r.r else [] }) s)) s
  let s := modPool s pool (fun p => { p with suspended := false })
  jetInfo (writeHeader s pool (metaMembers s pool)) 0x2002 (srcPartner link) []

/-- A good frame from the expected sender: the link is up, and suspended mirroring resumes (R380, R183). -/
def partnerGood (s : State) (link : Nat) : State :=
  let s := if (getPartner s link).up then s
    else jetInfo (modPartner s link (fun p => { p with up := true })) 0x2021 (srcPartner link) []
  ((poolsOn s link).filter (fun p => (getPool s p).suspended)).foldl (fun s p => resumeMirror s link p) s

/-- LSEQ `a` comes before `b`. -/
def seqBefore (a b : W32) : Bool := decide ((b - a).toNat < 2 ^ 31) && a != b

/-- LACK taken: frames it covers leave, and frames that waited for the limit of 512 go out (R380). -/
def takeLack (s : State) (link : Nat) (lack : W32) : State :=
  let p := getPartner s link
  let keep := p.unacked.filter (fun f => !seqBefore f.1 lack)
  let gone := p.unacked.length - keep.length
  let fresh := (keep.take 512).drop (512 - gone)
  let s := modPartner s link (fun p => { p with unacked := keep })
  if partnerWired s link then emits s (fresh.map (partnerOut s link)) else s

/-- Frames from `from_` on sent again, 512 at most (R380). -/
def resendFrom (s : State) (link : Nat) (from_ : W32) : State :=
  let p := getPartner s link
  if partnerWired s link then
    emits s (((p.unacked.take 512).filter (fun f => !seqBefore f.1 from_)).map (partnerOut s link))
  else s

/-- What every frame meets (R379, R380): a bad CRC is answered by NACK, another sender takes the link down, a good frame keeps it up
and acknowledges. The link, when the frame is to be acted on; a frame whose TYPE is not the row's is not that row's. -/
def takeFrame (s : State) (h : PartnerHdr) (type : Nat) (body : List Byte) : State × Option Nat :=
  match linkAt s h.port with
  | none => (s, none)
  | some l =>
    match Tab.get? s.cfg.partners l with
    | none => (s, none)
    | some c =>
      if !(running s && tileUp s (tileOfPort h.port) && partnerWired s l && h.type == type) then (s, none)
      else
        let s := countFrame s h.port
        if !h.crcGood body then (emit s (partnerPlain s l 2), none)
        else if h.sender ≠ c.identity then (partnerDown s l, none)
        else (takeLack (partnerGood s l) l h.lack, some l)

/-- A sequenced frame (R380): delivered in LSEQ order, a gap answered by NACK, a repetition dropped. -/
def takeSeq (s : State) (h : PartnerHdr) (b : PartnerBody) (f : State → Nat → State) : Result :=
  match takeFrame s h (partnerBytes b).1 (partnerBytes b).2 with
  | (s, none) => done s
  | (s, some l) =>
    let e := (getPartner s l).expect
    if h.lseq = e then done (f (modPartner s l (fun p => { p with expect := p.expect + 1 })) l)
    else if seqBefore e h.lseq then done (emit s (partnerPlain s l 2))
    else done s

/-- HELLO (R380). -/
def execHello (h : PartnerHdr) (s : State) : Result := done (takeFrame s h 1 []).1

/-- NACK (R380): the sender resends from LACK. -/
def execNack (h : PartnerHdr) (s : State) : Result :=
  match takeFrame s h 2 [] with
  | (s, some l) => done (resendFrom s l h.lack)
  | (s, none) => done s

/-- PARTNER_RESEND_TIMER (R380). -/
def execPartnerResendTimer (link : Nat) (s : State) : Result :=
  match (getPartner s link).unacked with
  | f :: _ => if running s && partnerWired s link then done (resendFrom s link f.1) else .next s
  | [] => .next s

/-- HELLO_SEND (R380). -/
def execHelloSend (link : Nat) (s : State) : Result :=
  if running s && partnerWired s link then done (emit s (partnerPlain s link 1)) else .next s

/-- PARTNER_LINK_TIMEOUT (R380). -/
def execPartnerLinkTimeout (link : Nat) (s : State) : Result :=
  if running s && (getPartner s link).up then done (partnerDown s link) else .next s

/-! ### Offers and reservations (R381) -/

/-- Member numbers that are not defined, lowest first. -/
def freeMembers (s : State) : List Nat := (List.range s.part.members).filter (fun m => (Tab.get? s.cfg.members m).isNone)

/-- A reservation freed: its volumes, its member numbers and its pool number. -/
def dropReserved (s : State) (pool : Nat) : State :=
  let ms := (poolCfg s pool).members
  { s with
    cfg := { s.cfg with
      vols := s.cfg.vols.filter (fun e => e.2.pool != pool), pools := Tab.erase s.cfg.pools pool
      members := s.cfg.members.filter (fun e => !ms.contains e.1) }
    vols := s.vols.filter (fun e => (volCfg s e.1).pool != pool)
    members := s.members.filter (fun e => !ms.contains e.1)
    pools := Tab.erase s.pools pool }

/-- Every wrapped key of a description unwraps under this device's KEK (R498). -/
def keysUsable (s : State) (d : PoolDesc) : Bool :=
  d.keys.all (fun e => match s.cfg.kek with
    | some k => (Config.keyUnwrap k e.2).isSome
    | none => false)

/-- A description that a pool can be made of (Table 3-9). -/
def descGood (s : State) (d : PoolDesc) : Bool :=
  keysUsable s d && decide (4 ≤ d.k) && decide (d.k ≤ 28) && decide (d.k + 2 ≤ d.n) && decide (d.n ≤ 1024) && d.members.length == d.n &&
    decide (d.s ≤ 2)

/-- RESULT of an offer (Table 8-5), for a link; an earlier reservation for the same link and pool is replaced. -/
def offerResult (s : State) (link pool : Nat) (d : PoolDesc) : Nat :=
  let own := (poolCfg s pool).reserved == some link
  let s' := if own then dropReserved s pool else s
  if (poolCfg? s' pool).isSome then 1
  else if d.vols.any (fun v => (volCfg? s' v.1).isSome || decide (s.part.volumes ≤ v.1)) then 2
  else if (freeMembers s').length < d.n then 3
  else if !descGood s d then 4
  else 0

/-- The reservation of an accepted offer: numbers, members, and the description stored (R381). -/
def reservePool (s : State) (link pool : Nat) (d : PoolDesc) : State :=
  let s := if (poolCfg s pool).reserved = some link then dropReserved s pool else s
  let ms := (freeMembers s).take d.n
  let c : PoolCfg :=
    { k := d.k, s := d.s, n := d.n, seed := d.seed, members := ms, spares := [], mirror0 := d.mirror0, mirror1 := d.mirror1
      slots := 0, reserved := some link }
  let members := (ms.zip d.members).foldl (fun t e => Tab.set t e.1 { e.2 with member := e.1 }) s.cfg.members
  let vols := d.vols.foldl (fun t v =>
    let wrapped := ((d.keys.find? (fun e => e.1 == v.1)).map (·.2)).getD []
    Tab.set t v.1
      { pool := pool, home := 0, attr := v.2.2.1, policy := v.2.2.2.1, extents := v.2.1, rat := v.2.2.2.2, wrapped := wrapped
        key := if wrapped.isEmpty then none else s.cfg.kek.bind (fun k => Config.keyUnwrap k wrapped) }) s.cfg.vols
  storeCfg (setPool { s with cfg := { s.cfg with pools := Tab.set s.cfg.pools pool c, members := members, vols := vols } } pool
    { st := .reserved })

/-- An offer taken and answered (R381). -/
def offerTaken (s : State) (link pool : Nat) (d : PoolDesc) : State :=
  partnerSend (if offerResult s link pool d = 0 then reservePool s link pool d else s) link (.reply pool (offerResult s link pool d))

/-- POOL_OFFER (R381). -/
def execPoolOffer (h : PartnerHdr) (pool : Nat) (d : PoolDesc) (s : State) : Result := 
  takeSeq s h (.offer pool d) (fun s l => offerTaken s l pool d)

/-- A reply taken (R381): JOURNAL_PARTNER, or the change that waits, ends by RESULT. -/
def replyTaken (s : State) (link pool result : Nat) : State :=
  match (getPartner s link).offers.find? (fun o => o.1 == pool) with
  | none => s
  | some (_, mb) =>
    let s := modPartner s link (fun p => { p with offers := p.offers.erase (pool, mb) })
    let m := getMbx s mb
    if m.running ≠ some (.partnerOffer pool) then s
    else
      let s := modMbx s mb (fun m => { m with change := none })
      if result ≠ 0 then mbxFinish s mb 0x0101 0 []
      else
        let s := match m.change with
          | some ch => applyChange s ch
          | none => s
        mbxStore s mb m.data

/-- POOL_REPLY (R381). -/
def execPoolReply (h : PartnerHdr) (pool result : Nat) (s : State) : Result := 
  takeSeq s h (.reply pool result) (fun s l => replyTaken s l pool result)

/-- The PARTNER records of a pool retired. -/
def retirePartner (s : State) (pool : Nat) : State :=
  (upTiles s).foldl (fun s t =>
    ((getTile s t).amber.intents.filter (fun r => r.r.partner && (volCfg s r.r.vol).pool == pool)).foldl
      (fun s r => retireRec s t r.r.seq) s) s

/-- A withdrawal taken (R381): the reservation goes, and with it the pool's PARTNER records. -/
def withdrawTaken (s : State) (link pool : Nat) : State :=
  if (poolCfg s pool).reserved = some link then storeCfg (dropReserved (retirePartner s pool) pool) else s

/-- POOL_WITHDRAW (R381). -/
def execPoolWithdraw (h : PartnerHdr) (pool : Nat) (s : State) : Result := 
  takeSeq s h (.withdraw pool) (fun s l => withdrawTaken s l pool)

/-! ### Mirrored records (R181-R184, R382) -/

/-- A tile that can take a partner's INTENT (R163, R171): the one that stands for the origin tile, else the lowest-numbered with room. -/
def mirrorTile (s : State) (origin : Nat) : Option Nat :=
  let ts := upTiles s
  let room (t : Nat) : Bool := (getTile s t).amber.fits 64 && (getTile s t).amber.hasRoom && !(getTile s t).amber.failed
  ((ts.drop (origin % max 1 ts.length)).take 1 ++ ts).find? room

/-- The local INTENT that holds a partner's INTENT. -/
def partnerIntent (a : Amber) (link origin seq : Nat) : Option RingRec :=
  a.recs.find? (fun r => r.r.kind == .intent && !r.retired && r.origin == some (link, origin, seq))

/-- The tile and the local INTENT that hold a partner's INTENT (R382). -/
def findPartner (s : State) (link origin seq : Nat) : Option (Nat × RingRec) :=
  (upTiles s).findSome? (fun t => (partnerIntent (getTile s t).amber link origin seq).map (fun r => (t, r)))

/-- A whole record of a reserved pool stored with PARTNER set; a RETIRE retires its PARTNER record, DATA follows its INTENT and is refused
above 75 % occupancy, and the confirmation of a stored record follows its commit (R181, R184, R382). A record for which no ring has room is
not confirmed. -/
def storePartner (s : State) (l seq origin : Nat) (r : Rec) : State :=
  if (poolCfg s (recPool s r)).reserved ≠ some l then s
  else match r.kind with
    | .retire =>
      let s := match findPartner s l origin r.ref with
        | some (t, i) => retireRec s t i.r.seq
        | none => s
      partnerSend s l (.confirm seq origin 0)
    | .data =>
      (match findPartner s l origin r.ref with
       | none => s
       | some (t, i) =>
         if (getTile s t).amber.high then partnerSend s l (.confirm seq origin 1)
         else if !(getTile s t).amber.fits (recBytes r) then s
         else modAmber s t (fun a => a.append { r := { r with partner := true, ref := i.r.seq }, off := 0, origin := some (l, origin, seq) }))
    | .intent =>
      (match mirrorTile s origin with
       | none => s
       | some t => modAmber s t (fun a => a.append
           { r := { r with partner := true, aux := BitVec.ofNat 32 l }, off := 0, origin := some (l, origin, seq) }))
    | _ => partnerSend s l (.confirm seq origin 0)

/-- RECORD (R382): the last fragment hands the record over. -/
def execRecord (h : PartnerHdr) (seq fragOffset originTile : Nat) (last : Bool) (r : Rec) (s : State) : Result :=
  takeSeq s h (.record seq originTile fragOffset last r) (fun s l => if last then storePartner s l seq originTile r else s)

/-- A part whose DATA the partner refused is placed as above 75 % occupancy (R184). Its INTENT is committed without SPILLED and no space is
reserved for it, so that it takes the third WB line of Table 4-1 (R180; log entry 114). -/
def dataRefused (s : State) (tile seq : Nat) : State :=
  { s with cmds := s.cmds.map (fun c =>
      if c.home = tile ∧ c.phase = .locked then
        { c with parts := c.parts.map (fun p => if p.dataRec = some seq ∧ !p.acked then { p with mode := .members } else p) }
      else c) }

/-- A confirmation given or refused: the record counts as committed (R181, R184). -/
def confirmed (s : State) (l tile seq result : Nat) : State :=
  if !(getPartner s l).awaiting.contains (tile, seq) then s
  else
    let s := modPartner s l (fun p => { p with awaiting := p.awaiting.erase (tile, seq) })
    let s := if result = 0 then s else dataRefused s tile seq
    startData (ackRecord (partnerGiven s tile seq) tile seq)

/-- CONFIRM (R181). -/
def execConfirm (h : PartnerHdr) (seq originTile result : Nat) (s : State) : Result :=
  takeSeq s h (.confirm seq originTile result) (fun s l => confirmed s l originTile seq result)

/-- Partner mirroring of a pool suspended (R182), and SUSPENDED written to the metadata members (R383). -/
def suspendPool (s : State) (pool : Nat) (marked : Bool) : State :=
  if (getPool s pool).suspended then s
  else
    let l := ((poolCfg s pool).partner).getD 0
    let s := fault (modPool s pool (fun p => { p with suspended := true })) { code := 0x2001, cls := 1, src := srcPartner l, marked := marked }
    writeHeader s pool (metaMembers s pool)

/-- A record no longer waits for its partner's confirmation (R182). -/
def waiveConfirm (s : State) (tile seq : Nat) : State :=
  let s := partnerGiven s tile seq
  { s with partners := s.partners.map (fun e => (e.1, { e.2 with awaiting := e.2.awaiting.filter (· != (tile, seq)) })) }

/-- PARTNER_CONFIRM_TIMEOUT (R182): the record counts as committed without the partner, mirroring of the pool is suspended, and
SUSPENDED goes to the metadata members (R383). -/
def execPartnerConfirmTimeout (tile seq : Nat) (s : State) : Result :=
  match (getTile s tile).amber.find? seq with
  | none => .next s
  | some r =>
    if !(fwUp s && ringServed s tile && r.partnerWait) then .next s
    else
      done (startData (ackRecord (suspendPool (waiveConfirm s tile seq) (recPool s r.r) false) tile seq))

/-! ### Leases (R383, R384) -/

/-- A pool that this device owns and mirrors. -/
def leased (s : State) (pool : Nat) : Bool :=
  (match poolCfg? s pool with
   | some c => c.partner.isSome && c.reserved.isNone
   | none => false) &&
    (match (getPool s pool).st with
     | .stopped => true
     | .running => true
     | _ => false)

/-- LEASE_RENEWAL (R383): LEASE + 1 to the metadata members; `completed` of them complete it, and OWNER is as found. -/
def execLeaseRenewal (pool completed : Nat) (owner : BitVec 64) (s : State) : Result :=
  if !(serving s && leased s pool) then .next s
  else
    let s := modPool s pool (fun p => { p with owner := owner, leaseOk := decide (2 ≤ completed) && owner == Config.identity })
    if owner = Config.identity then
      done (writeHeader (modPool s pool (fun p => { p with lease := p.lease + 1 })) pool (metaMembers s pool))
    else done s

/-- LEASE_LOSS (R384): no renewal for 500 ms, or OWNER names another device. -/
def execLeaseLoss (pool : Nat) (s : State) : Result :=
  if serving s && leased s pool && !(getPool s pool).leaseOk then
    let s := modPool (poolOffline s pool) pool (fun p => { p with disowned := p.owner != Config.identity })
    done (fault s { code := 0x2024, cls := 3, src := srcPool pool, acted := true })
  else .next s

/-! ### Import (R385-R388) -/

def failOf (e : Nat × Option Nat) : FailEnt := { index := e.1, home := e.2 }

/-- The progress record and the Lost-Strip Table as loaded from members (R386). -/
def loadImage (p : Pool) (m : MetaImage) : Pool :=
  { p with
    segSize := m.segSize, pstate := m.state, gen := m.gen, cursor := m.cursor, baseCursor := m.baseCursor, critCursor := m.critCursor
    copyCursor := m.copyCursor, scrubCursor := m.scrubCursor, passEpoch := m.passEpoch, failList := m.failList.map failOf
    baseList := m.baseList.map failOf, copy := m.copy, lstFull := m.lstFull, broken := m.broken
    lst := m.lst.map (fun e => { row := e.1, strip := e.2.1, cause := e.2.2.1, epoch := e.2.2.2 }) }

/-- The tile that homes the fewest volumes, the lowest on a tie; for SEAL only with room under R103 (R488). -/
def chooseHome (s : State) (isSeal : Bool) : Option Nat :=
  let ts := (upTiles s).filter (fun t => !isSeal || decide (sealsOn s t < 2048))
  let count (t : Nat) : Nat := (s.cfg.vols.filter (fun e => homeTile s e.1 == t)).length
  match (ts.map count).min? with
  | some n => ts.find? (fun t => count t == n)
  | none => none

/-- PARTNER records of the pool become the pool's own. -/
def ownRecords (s : State) (pool : Nat) : State :=
  (upTiles s).foldl (fun s t => modAmber s t (fun a =>
    { a with recs := a.recs.map (fun r =>
        if r.r.partner ∧ (volCfg s r.r.vol).pool = pool then { r with r := { r.r with partner := false }, origin := none } else r) })) s

/-- The pool's records replayed from every ring (R386). -/
def importReplay (s : State) (pool : Nat) : State := replayRings s (upTiles s) (fun r => !r.r.partner && (volCfg s r.r.vol).pool == pool)

/-- The import of a reserved pool (R386, R387), with the seed that its metadata hold (R151). -/
def importPool (s : State) (pool : Nat) (hd : PoolHeader) : State :=
  let link := ((poolCfg s pool).reserved).getD 0
  let s := setPoolCfg s pool { poolCfg s pool with
    reserved := none, partner := none, running := true, slots := hd.image.slots, seed := hd.seed }
  let s := modPool s pool (fun p =>
    { loadImage p hd.image with
      st := .running, owner := Config.identity, lease := hd.lease + 1, suspended := false, leaseOk := true, importHdr := none
      importMb := none, segPending := true, segs := [], resyncAt := if hd.suspended then some 0 else none, synced := []
      scrubbing := hd.suspended || p.scrubbing, scrubCursor := if hd.suspended then 0 else hd.image.scrubCursor })
  let s := writeHeader s pool ((liveIx s pool).map (memberAt (poolCfg s pool)))
  let vs := volsOfPool s pool
  let s := vs.foldl (fun s v =>
    let h := (chooseHome s ((volCfg s v).attr.getLsbD 0)).getD 0
    let s := setVolCfg s v { volCfg s v with home := h, running := true }
    setVol s v { home := h, st := .running, activeFull := true }) s
  let s := importReplay (ownRecords s pool) pool
  let s := jetInfo (storeCfg s) 0x2022 (srcPartner link) (leBytes 2 pool)
  if hd.suspended then fault s { code := 0x2023, cls := 2, src := srcPool pool, data := leBytes 2 pool } else s

/-- The newest copy of a pool header among those read that passes its CRC (R248). -/
def newestHeader (hds : List PoolHeader) : Option PoolHeader :=
  (hds.filter (·.crcGood)).foldl (fun best h => match best with
    | some b => if b.gen < h.gen then some h else some b
    | none => some h) none

/-- A release taken (R385): the stopped pool is imported at once, or the release refused. -/
def releaseTaken (s : State) (link pool : Nat) (hds : List PoolHeader) : State :=
  match newestHeader hds with
  | some hd =>
    if (poolCfg s pool).reserved = some link ∧ serving s then partnerSend (importPool s pool hd) link (.releaseAck pool 0)
    else partnerSend s link (.releaseAck pool 1)
  | none => partnerSend s link (.releaseAck pool 1)

/-- RELEASE (R385). -/
def execRelease (h : PartnerHdr) (pool : Nat) (hds : List PoolHeader) (s : State) : Result := 
  takeSeq s h (.release pool) (fun s l => releaseTaken s l pool hds)

/-- A pool leaves the configuration; its members stay defined. -/
def removePool (s : State) (pool : Nat) : State :=
  let vs := volsOfPool s pool
  let s := vs.foldl (fun s v => purgeVol s (homeTile s v) v) s
  { s with
    cfg := { s.cfg with vols := s.cfg.vols.filter (fun e => e.2.pool != pool), pools := Tab.erase s.cfg.pools pool }
    vols := s.vols.filter (fun e => !vs.contains e.1), pools := Tab.erase s.pools pool
    members := s.members.map (fun (e : Nat × Member) => (e.1, { e.2 with failedIn := if e.2.failedIn = some pool then none else e.2.failedIn }))
    mcmds := s.mcmds.filter (fun m => m.pool != pool), fetches := s.fetches.filter (fun f => f.pool != pool) }

/-- A release acknowledged (R386): the former owner removes the pool, and POOL_RELEASE ends. -/
def releaseEnd (s : State) (link pool result : Nat) : State :=
  match (getPartner s link).releases.find? (fun o => o.1 == pool) with
  | none => s
  | some (_, mb) =>
    let s := modPartner s link (fun p => { p with releases := p.releases.erase (pool, mb) })
    if (getMbx s mb).running ≠ some (.release pool) then s
    else if result = 0 then mbxStore (removePool s pool) mb []
    else mbxFinish s mb 0x0101 0 []

/-- RELEASE_ACK (R386). -/
def execReleaseAck (h : PartnerHdr) (pool result : Nat) (s : State) : Result := 
  takeSeq s h (.releaseAck pool result) (fun s l => releaseEnd s l pool result)

/-- A reserved pool whose header may be read for an import. -/
def reservedDown (s : State) (pool : Nat) : Option Nat :=
  match (poolCfg s pool).reserved with
  | some l => if (getPartner s l).up then none else some l
  | none => none

/-- AUTO_IMPORT (R385): the link has been down for 10 ms. -/
def execAutoImport (pool : Nat) (hds : List PoolHeader) (s : State) : Result :=
  match reservedDown s pool, newestHeader hds with
  | some l, some hd =>
    if serving s && ((Tab.get? s.cfg.partners l).map (·.autoImport)).getD false && (getPool s pool).importHdr.isNone then
      done (modPool s pool (fun p => { p with importHdr := some hd, importMb := none }))
    else .next s
  | _, _ => .next s

/-- IMPORT_CHECK (R385): the header read again. -/
def execImportCheck (pool : Nat) (hds : List PoolHeader) (s : State) : Result :=
  let p := getPool s pool
  match p.importHdr with
  | none => .next s
  | some h0 =>
    if !(serving s && (poolCfg s pool).reserved.isSome) then .next s
    else
      let hd := (newestHeader hds).getD { h0 with crcGood := false }
      let same := h0.crcGood && hd.crcGood && h0.owner == hd.owner && h0.lease == hd.lease
      match p.importMb with
      | some mb =>
        if same then done (mbxStore (importPool s pool hd) mb [])
        else done (mbxFinish (modPool s pool (fun p => { p with importHdr := none, importMb := none })) mb 0x0102 0 [])
      | none =>
        if (reservedDown s pool).isNone then done (modPool s pool (fun p => { p with importHdr := none }))
        else if same then done (importPool s pool hd)
        else done (modPool s pool (fun p => { p with importHdr := some hd }))

/-! ### Commands (R378, R389) -/

/-- The link at a port is stopped: PORT_CONTROL has not started it (Table 11-7). -/
def linkStopped (s : State) (port : Nat) : Bool := !(getLink s port).started

/-- PARTNER_CONFIG (R378). -/
def execPartnerConfig (g : Go) (port link : Nat) (autoImport : Bool) (identity : BitVec 64) (s : State) : Result :=
  mbxRun s g false false 16
    [(2, decide (5 < link)), (8, s.cfg.partners.any (fun e => e.1 != link && e.2.identity == identity))]
    [need (match Tab.get? s.cfg.links port with
       | some c => c.p.role == 3
       | none => false) 0,
     needStopped (linkStopped s port)]
    [objLink port, objPartner link]
    (fun s =>
      let t := s.cfg.partners.filter (fun e => e.1 == link || e.2.port != port)
      mbxStore { s with cfg := { s.cfg with partners := Tab.set t link { port := port, autoImport := autoImport, identity := identity } } } g.mb [])

/-- PARTNER_STATUS (Table 11-8): STATE 1 up, 0 down. -/
def execPartnerStatus (g : Go) (link : Nat) (s : State) : Result :=
  mbxRun s g false false 1 [(0, decide (5 < link))] [need ((Tab.get? s.cfg.partners link).isSome) 0] []
    (fun s =>
      let p := getPartner s link
      let mask := (s.cfg.pools.map (fun e => flag e.1 (e.2.partner == some link || e.2.reserved == some link))).foldl (· + ·) 0
      mbxOk s g.mb (leBytes 8 p.up.toNat ++ leBytes 8 mask ++ leBytes 4 p.awaiting.length))

/-- POOL_IMPORT (R385); the header read first. With no copy that passes its CRC the check finds it changed (log entry 115). -/
def execPoolImport (g : Go) (pool : Nat) (hds : List PoolHeader) (s : State) : Result :=
  mbxRun s g false false 2 [(0, decide (63 < pool))]
    [need (poolReserved s pool) 0, needReplay s, refuse ((reservedDown s pool).isNone) 0x0101, needFree ((getPool s pool).importMb.isSome)]
    [objPool pool]
    (fun s => mbxPark (modPool s pool (fun p =>
      { p with importHdr := some ((newestHeader hds).getD { owner := 0, lease := 0, suspended := false, image := {}, crcGood := false })
               importMb := some g.mb })) g.mb (.importing pool) [])

/-- POOL_RELEASE (R385): RELEASE goes to the partner of a stopped pool. -/
def execPoolRelease (g : Go) (pool : Nat) (s : State) : Result :=
  mbxRun s g false false 2 [(0, decide (63 < pool))]
    (poolObj s pool 0 ++
      [need ((poolCfg s pool).partner.isSome) 0, needStopped ((getPool s pool).st == .stopped), needPartner s pool])
    [objPool pool]
    (fun s =>
      let l := ((poolCfg s pool).partner).getD 0
      let s := modPartner (partnerSend s l (.release pool)) l (fun p => { p with releases := p.releases ++ [(pool, g.mb)] })
      mbxPark s g.mb (.release pool) [])

/-- JOURNAL_PARTNER (R381): the pool's description is offered to the partner of `link`. -/
def execJournalPartner (g : Go) (pool link : Nat) (s : State) : Result :=
  mbxRun s g false false 3 [(0, decide (63 < pool)), (2, decide (5 < link))]
    (poolObj s pool 0 ++
      [need ((Tab.get? s.cfg.partners link).isSome) 2, needStopped ((getPool s pool).st == .stopped), needFree (!(getPartner s link).up)])
    [objPool pool, objPartner link]
    (fun s =>
      let s := modPool s pool (fun p => { p with owner := Config.identity, leaseOk := true, suspended := false })
      sendOffer s g.mb link pool (.pool pool { poolCfg s pool with partner := some link }) [])

/-- JOURNAL_PARTNER with LINK 0xFF (R381): POOL_WITHDRAW goes to the partner. -/
def execJournalPartnerClear (g : Go) (pool link : Nat) (s : State) : Result :=
  mbxRun s g false false 3 [(0, decide (63 < pool)), (2, link != 0xFF)]
    (poolObj s pool 0 ++ [needStopped ((getPool s pool).st == .stopped)])
    [objPool pool]
    (fun s =>
      mbxStore (modPool (applyChange s (.pool pool { poolCfg s pool with partner := none })) pool (fun p => { p with suspended := false })) g.mb [])

end Sys2Proof.Machine
end

