-- ==== Sys2Proof/Machine/Ports.lean ====
section
/-! DEFINITION. Network ports (R351-R364, R389): links, their configuration and traffic of their own. -/

namespace Sys2Proof.Machine

/-! ### Groups and addresses -/

/-- Lanes of a MODE (Table 8-1). -/
def lanesOf (mode : Nat) : Nat :=
  match mode with
  | 0 => 1
  | 1 => 1
  | 2 => 2
  | 3 => 2
  | 6 => 2
  | _ => 4

def partnerMode (mode : Nat) : Bool := mode == 6 || mode == 7

/-- Ports of the link whose lowest port is `port`. -/
def groupPorts (p : PortParams) : List Nat := (List.range (lanesOf p.mode)).map (fun i => p.port + i)

/-- A configured link, not DISABLED, other than `port`'s own, to which `q` belongs. -/
def heldByOther (s : State) (port q : Nat) : Bool :=
  s.cfg.links.any (fun e => e.1 != port && e.2.p.role != 0 && (groupPorts { e.2.p with port := e.1 }).contains q)

/-- Ethernet: TENANT or MEMBER, up (Table 8-2). -/
def ethernetUp (s : State) (port : Nat) : Bool :=
  running s && tileUp s (tileOfPort port) && (getLink s port).up && ((linkCfg s port).p.role == 1 || (linkCfg s port).p.role == 2)

/-! ### Up and down (R355, R357) -/

/-- What depends on a link that is no longer up: member queues break (R374, R375), the partner link goes down (R380). -/
def dropDependents (s : State) (port : Nat) : State :=
  match (linkCfg s port).p.role with
  | 2 =>
    s.members.foldl (fun s e =>
      (e.2.queues.filter (fun q => q.port == port)).foldl (fun s q =>
        if q.connected then breakQueue s e.1 q.tile q.admin else dropQueue s e.1 q.tile q.admin) s) s
  | 3 => (match linkAt s port with
    | some l => partnerDown s l
    | none => s)
  | _ => s

/-- A link goes down (R355). -/
def downLink (s : State) (port : Nat) : State :=
  if (getLink s port).up then
    dropDependents (jetInfo (modLink s port (fun l => { l with up := false, trained := false, paused := false, xoff := false })) 0x4011 (srcLink port) [])
      port
  else s

/-- LINK_UP (R354, R355): a started link of a role other than DISABLED. -/
def execLinkUp (port : Nat) (s : State) : Result :=
  let l := getLink s port
  if fwUp s && decide (port < s.part.ports) && tileUp s (tileOfPort port) && s.pins.sdRefclk.getD (tileOfPort port / 2) false &&
      l.started && !l.up && (linkCfg s port).p.role != 0 then
    done (jetInfo (modLink s port (fun l => { l with up := true, trained := true })) 0x4010 (srcLink port) [])
  else .next s

/-- LINK_DOWN (R355). -/
def execLinkDown (port : Nat) (s : State) : Result :=
  if running s && (getLink s port).up then done (downLink s port) else .next s

/-- FEC_ERROR_SECOND (R353). -/
def execFecErrorSecond (port codewords : Nat) (s : State) : Result :=
  if running s && (getLink s port).up then
    let s := modLink s port (fun l => { l with nUncorrectable := l.nUncorrectable + codewords })
    done (if 100 < codewords then fault0 s 0x4012 1 (srcLink port) else s)
  else .next s

/-! ### Flow control (R362) -/

/-- The link's PCP is a lossless priority. -/
def lossless (p : PortParams) : Bool := p.pfcMask.getLsbD p.pcp

/-- PFC_FRAME (R362). -/
def execPfcFrame (port : Nat) (classes : BitVec 8) (quanta : Nat) (s : State) : Result :=
  let p := (linkCfg s port).p
  if !ethernetUp s port then .next s
  else
    done (modLink s port (fun l =>
      { l with nPfcRx := l.nPfcRx + 1, paused := if lossless p && classes.getLsbD p.pcp then decide (0 < quanta) else l.paused }))

/-- PFC sent on a link. -/
def sendPfc (s : State) (port quanta : Nat) : State := emit (modLink s port (fun l => { l with nPfcTx := l.nPfcTx + 1 })) (.pfc port quanta)

/-- PFC_REPEAT (R362): the ingress occupancy stands at or above XOFF, or has fallen; one beyond the buffer means a discarded frame. -/
def execPfcRepeat (port occupancyKib : Nat) (s : State) : Result :=
  if !ethernetUp s port then .next s
  else
    let p := (linkCfg s port).p
    let n := lanesOf p.mode
    let full := decide (2048 * n < occupancyKib)
    let s := modLink s port (fun l =>
      { l with ingressKib := min occupancyKib (2048 * n) })
    let s := if full then dropFrame s port 4 else s
    let s := if full && lossless p then fault0 s 0x4013 1 (srcLink port) else s
    if !lossless p then done s
    else if p.xoff * n ≤ occupancyKib then done (sendPfc (modLink s port (fun l => { l with xoff := true })) port 0xFFFF)
    else if !(getLink s port).xoff then done s
    else if occupancyKib < (p.xoff - 256) * n then done (sendPfc (modLink s port (fun l => { l with xoff := false })) port 0)
    else done (sendPfc s port 0xFFFF)

/-! ### Neighbours and echo (R356, R360) -/

/-- A neighbour entered in the tile's table of 4,096; the oldest leaves a full table. -/
def learn (t : Tile) (port : Nat) (a : BitVec 128) (mac : BitVec 48) : Tile :=
  let l := t.neighbours.filter (fun e => !(e.1 == port && e.2.1 == a)) ++ [(port, a, mac)]
  { t with neighbours := l.drop (l.length - 4096) }

/-- A message of ARP or Neighbour Discovery that a link sends. -/
def neighbourOut (s : State) (port : Nat) (target : BitVec 128) : Output := .neighbourMsg port (linkTag (linkCfg s port).p) target (linkMac port)

/-- A frame taken by an Ethernet link, or discarded at it (R361, R364). -/
def takeEthernet (s : State) (a : Arrival) (f : State → State) : Result :=
  if !ethernetUp s a.port then .next s
  else match badCarriage (linkCfg s a.port).p a.carriage with
    | some cause => done (dropFrame s a.port cause)
    | none => done (f s)

/-- NEIGHBOUR_RESOLVE (R360): an entry is asked for again. -/
def execNeighbourResolve (tile : Nat) (addr : BitVec 128) (s : State) : Result :=
  match (getTile s tile).neighbours.find? (fun e => e.2.1 == addr) with
  | some (port, _, _) => if ethernetUp s port then done (emit s (neighbourOut s port addr)) else .next s
  | none => .next s

/-- NEIGHBOUR_DISCOVERY (R360): a request for one of the link's addresses is answered, an announcement enters the table. -/
def execNeighbourDiscovery (a : Arrival) (m : NeighbourMsg) (s : State) : Result :=
  let port := a.port
  takeEthernet s a (fun s => match m with
    | .request target sender _ =>
      if (linkAddrs s port).contains target then emit (countFrame s port) (neighbourOut s port sender) else dropFrame s port 5
    | .answer sender mac => modTile (countFrame s port) (tileOfPort port) (fun t => learn t port sender mac))

/-- ECHO_REQUEST (R356). -/
def execEchoRequest (a : Arrival) (src dst : BitVec 128) (payload : List Byte) (s : State) : Result :=
  let port := a.port
  takeEthernet s a (fun s =>
    if (linkAddrs s port).contains dst then emit (countFrame s port) (.echoReply port (linkTag (linkCfg s port).p) dst src payload)
    else dropFrame s port 5)

/-! ### Commands (R357, R358, R389) -/

/-- Fields of PORT_CONFIG out of range (R358-R364, Table 11-8). -/
def portFields (p : PortParams) : List (Nat × Bool) :=
  [(2, decide (3 < p.role)), (3, decide (7 < p.mode)), (4, decide (1 < p.flags)), (5, decide (7 < p.pcp)), (6, decide (4094 < p.vlan)),
   (8, decide (p.mtu < 1500) || decide (9216 < p.mtu)), (10, decide (p.xoff < 256) || decide (1792 < p.xoff) || p.xoff % 64 != 0),
   (13, decide (32 < p.prefix4)), (14, decide (128 < p.prefix6))]

/-- The cases of R358 in their order, and the part's range. -/
def portChecks (s : State) (p : PortParams) : List Check :=
  [need (decide (p.port < s.part.ports)) 0, need (p.port % lanesOf p.mode == 0) 0,
   need (!((p.role == 1 || p.role == 2) && partnerMode p.mode)) 3, need (!(p.role == 3 && !partnerMode p.mode)) 3,
   need (!(groupPorts p).any (heldByOther s p.port)) 0]

/-- PORT_CONFIG (R357, R358). -/
def execPortConfig (g : Go) (p : PortParams) (s : State) : Result :=
  mbxRun s g false false 64 (portFields p)
    (portChecks s p ++ [needStopped (linkStopped s p.port), needFree ((getLink s p.port).test.isSome)])
    [objLink p.port]
    (fun s =>
      let gone := groupPorts p
      let t := s.cfg.links.filter (fun e => e.1 == p.port || !gone.contains e.1)
      mbxStore { s with cfg := { s.cfg with links := Tab.set t p.port { p := p, started := false } } } g.mb [])

/-- A link that PORT may name: in the part, and not inside another link. -/
def portNamed (s : State) (port : Nat) : Check := need (decide (port < s.part.ports) && !heldByOther s port port) 0

/-- The started or stopped state set and stored (R474). -/
def setStarted (s : State) (port : Nat) (on : Bool) : State :=
  let s : State := { s with cfg := { s.cfg with links := Tab.set s.cfg.links port { linkCfg s port with started := on } } }
  modLink s port (fun l => { l with started := on })

/-- PORT_CONTROL with ACTION 0 (R357). -/
def execPortStop (g : Go) (port : Nat) (s : State) : Result :=
  mbxRun s g false false 3 [] [portNamed s port] [objLink port]
    (fun s =>
      let s := if (linkCfg s port).p.role = 1 then
          ((s.sbt.conns.filter (fun c => c.port == port)).map connIdOf).foldl (fun s id => closeConn s id 2) s
        else s
      mbxStore (setStarted (downLink s port) port false) g.mb [])

/-- PORT_CONTROL with ACTION 1 (R357); a contained partner link works again. -/
def execPortStart (g : Go) (port : Nat) (s : State) : Result :=
  mbxRun s g false false 3 [] [portNamed s port, needFree ((getLink s port).test.isSome)] [objLink port]
    (fun s =>
      let s := match linkAt s port with
        | some l => modPartner s l (fun p => { p with stopped := false })
        | none => s
      mbxStore (setStarted s port true) g.mb [])

/-- PORT_STATUS (Table 11-8): STATE 0 stopped, 1 down, 2 up. -/
def execPortStatus (g : Go) (port : Nat) (s : State) : Result :=
  mbxRun s g false false 2 [] [portNamed s port] []
    (fun s =>
      let l := getLink s port
      let st := if !l.started then 0 else if l.up then 2 else 1
      mbxOk s g.mb (leBytes 1 st ++ leBytes 1 (linkCfg s port).p.mode ++ leBytes 1 l.trained.toNat ++ leBytes 1 0 ++
        leBytes 2 (getTile s (tileOfPort port)).neighbours.length ++ leBytes 2 0 ++ leBytes 8 Config.baseMac.toNat))

/-- The counts of one link (Table 8-7): frames, FEC corrected (no row brings them, so a free value) and uncorrectable codewords, discards
by the six causes of `dropFrame`, PFC received and sent. The order is the model's (log entry 126). -/
def linkCounts (fec : Nat) (l : Link) : List Nat :=
  [l.nFrames, fec, l.nUncorrectable] ++ (List.range 6).map (fun c => Tab.getD l.discards c 0) ++ [l.nPfcRx, l.nPfcTx]

/-- PORT_STATS (Table 8-7). -/
def execPortStats (g : Go) (port : Nat) (buf : SegDesc) (s : State) : Result :=
  mbxRun s g false false 24 [(8, badBuf buf)] (if port = 0xFFFF then [] else [portNamed s port]) []
    (fun s =>
      let ls := if port = 0xFFFF then s.links.map Prod.snd else [getLink s port]
      let fec := (Config.fecCorrected s.freeIx).toNat
      let data := countBytes ((List.range 11).map (fun i => (ls.map (fun l => (linkCounts fec l).getD i 0)).foldl (· + ·) 0))
      mbxOk (writeBuf (drawn s) g.mb buf data) g.mb (bytesField data))

/-- PORT_TEST (Table 8-7): it runs on a stopped link until PORT_TEST_COMPLETE. -/
def execPortTest (g : Go) (port pattern _seconds : Nat) (s : State) : Result :=
  mbxRun s g false false 6 [(2, decide (1 < pattern))]
    [portNamed s port, needStopped (linkStopped s port), needFree ((getLink s port).test.isSome)] [objLink port]
    (fun s => mbxPark (modLink s port (fun l => { l with test := some g.mb })) g.mb (.portTest port) [])

/-- BITS and ERRORS of four lanes. -/
def laneCounts (l : List (Nat × Nat)) : List Byte :=
  (List.range 4).flatMap (fun i => leBytes 8 (l.getD i (0, 0)).1 ++ leBytes 8 (l.getD i (0, 0)).2)

/-- PORT_TEST_COMPLETE (R389). -/
def execPortTestComplete (mb : Nat) (counts : List (Nat × Nat)) (s : State) : Result :=
  match (getMbx s mb).running with
  | some (.portTest port) =>
    if running s then done (mbxOk (modLink s port (fun l => { l with test := none })) mb (laneCounts counts)) else .next s
  | _ => .next s

end Sys2Proof.Machine
end

