-- ==== Sys2Proof/Machine/Pools.lean ====
section
/-! DEFINITION. The pool and member groups of mailbox commands (Tables 11-8, 11-10 and 5-10). -/

namespace Sys2Proof.Machine

/-! ### Members named by pool commands -/

/-- A member that a pool holds: at an index, failed ones included, as hot spare, as Peridot home or as copyback target (R124). -/
def inPool (s : State) (m : Nat) : Bool := (poolOfMember s m).isSome

/-- A member declared failed in a pool: only MEMBER_REPLACE lets it return there (R209). -/
def barred (s : State) (pool m : Nat) : Bool := (getMember s m).st == .failed && (getMember s m).failedIn == some pool

/-- What Identify gives for a member meets R367 and R368. -/
def fitMember (found : List MemberIdent) (m : Nat) : Bool :=
  found.any (fun f => f.member == m && f.fit && decide (dataArea < f.capacity))

def foundOf (found : List MemberIdent) (m : Nat) : MemberIdent :=
  (found.find? (fun f => f.member == m)).getD { member := m, capacity := 0, dlfeat1 := false, fit := false }

def defined (s : State) (m : Nat) : Bool := decide (m < s.part.members) && (Tab.get? s.cfg.members m).isSome

/-- Members named at `off + 2i` for a pool: those not defined, in a pool, failed in this one, repeated or unfit. -/
def memberErrors (s : State) (pool : Nat) (ms : List Nat) (off : Nat) (own : List Nat) (found : List MemberIdent) : List (Nat × Bool) :=
  (List.range ms.length).map (fun i =>
    let m := ms.getD i 0
    (off + 2 * i, !defined s m || (inPool s m && !own.contains m) || barred s pool m || (ms.take i).contains m || !(fitMember found m || own.contains m)))

/-- A list of fields in error as one check of status 0x0002. -/
def fieldsBad (l : List (Nat × Bool)) : Check :=
  match lowestField l with
  | some o => { fails := true, status := 0x0002, detail := o }
  | none => { fails := false, status := 0x0002 }

/-- A member taken into service by a pool. -/
def takeMember (found : List MemberIdent) (st : MemberState) (s : State) (m : Nat) : State :=
  let f := foundOf found m
  modMember s m (fun x => { x with st := st, strikes := 0, failedIn := none, capacity := f.capacity, dlfeat1 := f.dlfeat1 })

/-- Strip slots of a capacity (R123). -/
def slotsOf (capacity : Nat) : Nat := (capacity - dataArea) / 16384

/-- Spinel spare columns (Table 3-9). -/
def spareCols (k s n : Nat) : Nat := if n = k + 2 then 0 else if n = k + 3 then 1 else if s = 0 then 2 else s

/-- The rebuild tile (R220): the lowest tile with a MEMBER link that serves the pool, else the lowest in service. -/
def rebuildTile (s : State) (pool : Nat) : Nat :=
  let ts := upTiles s
  let serves (t : Nat) : Bool := s.cfg.links.any (fun e => e.2.p.role == 2 && tileOfPort e.1 == t && e.2.p.poolMask.getLsbD pool)
  ((ts.find? serves).orElse (fun _ => ts.head?)).getD 0

/-! ### Creation and deletion (R486, R487) -/

/-- The failure group of the member at a list position. -/
def groupAt (s : State) (ms : List Nat) (i : Nat) : Nat := groupOf s (ms.getD i 0)

/-- The first position whose group differs from position 0's (R486). -/
def otherGroup (s : State) (ms : List Nat) : Option Nat :=
  (List.range ms.length).find? (fun i => groupAt s ms i != groupAt s ms 0)

/-- The pool that POOL_CREATE makes: INITIALISING, its metadata written to every member and hot spare, the data area of every member to be
zeroed (R126, R151, R178, R372). A Peridot pool, which has neither spare columns nor a seed, stores S and SEED as zero, in its header and in
POOL_STATUS too (Table 3-9; log entry 116). -/
def makePool (s : State) (p : PoolParams) (found : List MemberIdent) : State :=
  let spinel := decide (p.n ≠ p.k + 2)
  let seed : BitVec 16 := if !spinel then 0 else if p.seedGiven then p.seed else (Config.random32 s.freeIx).setWidth 16
  let s := if spinel && !p.seedGiven then drawn s else s
  let slots := ((p.members.map (fun m => slotsOf (foundOf found m).capacity)).min?).getD 0
  let c : PoolCfg :=
    { k := p.k, s := spareCols p.k p.s p.n, n := p.n, seed := seed, members := p.members, spares := p.spares
      mirror0 := if p.mirrorGiven then p.mirror0 else 0
      mirror1 := if p.mirrorGiven then p.mirror1 else (otherGroup s p.members).getD 0, slots := slots }
  let s := p.members.foldl (takeMember found .online) s
  let s := p.spares.foldl (takeMember found .spare) s
  let s := setPoolCfg s p.pool c
  let s := setPool s p.pool
    { st := .initialising, tile := rebuildTile s p.pool, init := true, initWork := p.members.map (fun m => (m, 0)), segSize := (journalUnits / s.part.tiles) * 4096
      owner := Config.identity }
  let all := p.members ++ p.spares
  writeHeader (writeTable s p.pool all) p.pool all

/-- POOL_CREATE (R150, R486). -/
def execPoolCreate (g : Go) (p : PoolParams) (found : List MemberIdent) (s : State) : Result :=
  let w := p.k + 2
  let share := p.mirrorGiven && groupAt s p.members p.mirror0 == groupAt s p.members p.mirror1
  mbxRun s g false false (16 + 2 * p.n + 2 * p.spares.length)
    [(0, decide (63 < p.pool)), (2, decide (p.k < 4 ∨ 28 < p.k)), (3, p.n != w && decide (2 < p.s)), (4, decide (p.n < w ∨ 1024 < p.n)),
     (9, decide (4 < p.spares.length)), (10, p.mirrorGiven && decide (p.n ≤ p.mirror0)),
     (12, p.mirrorGiven && decide (p.n ≤ p.mirror1))]
    [fieldsBad ([(0, (poolCfg? s p.pool).isSome), (12, share)] ++ memberErrors s p.pool (p.members ++ p.spares) 16 [] found),
     fieldsBad [(16, (otherGroup s p.members).isNone || p.members.length != p.n)], needReplay s]
    [objPool p.pool]
    (fun s => mbxPark (makePool s p found) g.mb (.poolCreate p.pool) [])

/-- POOL_DELETE (R487): zero goes over the pool header of every member and hot spare. -/
def execPoolDelete (g : Go) (pool : Nat) (s : State) : Result :=
  let st := (getPool s pool).st
  mbxRun s g false false 2 [(0, decide (63 < pool))]
    (poolObj s pool 0 ++ [needStopped (st == .stopped || st == .initialising), needFree (!(volsOfPool s pool).isEmpty)])
    [objPool pool]
    (fun s =>
      let c := poolCfg s pool
      let t := (getPool s pool).tile
      let s := match c.partner with
        | some l => partnerSend s l (.withdraw pool)
        | none => s
      let gen := (getPool s pool).metaGen + 1
      let s := (c.members ++ c.spares).foldl (fun s m =>
        issue s { id := 0, member := m, pool := pool, tile := t, op := .write, off := 0, len := 4096, units := metaUnits gen 4096 []
                  purpose := .metadata pool, pipe := .host }) (removePool s pool)
      mbxStore s g.mb [])

/-! ### Start and stop (R479, R481, R482, R384) -/

def setRunning (s : State) (pool : Nat) (on : Bool) : State :=
  let s := modPool s pool (fun p => { p with st := if on then .running else .stopped, leaseOk := true })
  setPoolCfg s pool { poolCfg s pool with running := on }

/-- POOL_START (R482, R384). -/
def execPoolStart (g : Go) (pool : Nat) (s : State) : Result :=
  let p := getPool s pool
  mbxRun s g false false 2 [(0, decide (63 < pool))]
    (poolObj s pool 0 ++ [refuse p.disowned 0x0101, needStopped (p.st != .offline), needFree (p.st == .initialising)])
    [objPool pool]
    (fun s => if p.st = .running then mbxOk s g.mb [] else mbxStore (setRunning s pool true) g.mb [])

/-- POOL_STOP (R479, R481): every volume of the pool is stopped. -/
def execPoolStop (g : Go) (pool : Nat) (s : State) : Result :=
  let p := getPool s pool
  mbxRun s g false false 2 [(0, decide (63 < pool))]
    (poolObj s pool 0 ++ [needStopped ((volsOfPool s pool).all (fun v => (getVol s v).st == .stopped))]) [objPool pool]
    (fun s =>
      match p.st with
      | .running => mbxStore (setRunning s pool false) g.mb []
      | .offline => mbxStore (setRunning s pool false) g.mb []
      | _ => mbxOk s g.mb [])

/-! ### Status (R486, R579, R204) -/

/-- POOL_STATUS STATE. -/
def poolStateCode (st : PoolState) : Nat :=
  match st with
  | .absent => 0
  | .initialising => 1
  | .stopped => 2
  | .running => 3
  | .offline => 4
  | .reserved => 5

/-- Extents of a pool that volumes hold. -/
def heldExtents (s : State) (pool : Nat) : List Nat :=
  (s.cfg.vols.filter (fun e => e.2.pool == pool)).flatMap (fun e => e.2.extents)

/-- Per cent of the members' data areas zeroed at creation (R486), 100 once the pool is initialised. -/
def initPercent (s : State) (pool : Nat) : Nat :=
  let p := getPool s pool
  let all := (poolCfg s pool).n * dataLen s pool
  let left := (p.initWork.map (fun e => dataLen s pool - e.2)).foldl (· + ·) 0
  if !p.init then 100 else min 99 (100 * (all - left) / max 1 all)

/-- The response of POOL_STATUS. -/
def poolStatusBytes (s : State) (pool : Nat) : List Byte :=
  match poolCfg? s pool with
  | none => leBytes 20 0
  | some c =>
    let p := getPool s pool
    leBytes 1 (poolStateCode p.st) ++ leBytes 1 (if c.peridot then 0 else 1) ++ leBytes 1 c.k ++ leBytes 1 c.s ++ leBytes 2 c.n ++
      leBytes 2 c.seed.toNat ++ leBytes 2 (volsOfPool s pool).length ++ leBytes 1 (initPercent s pool) ++ leBytes 1 0 ++
      leBytes 4 c.extents ++ leBytes 4 (c.extents - (heldExtents s pool).length - p.zeroing.length)

/-- POOL_STATUS (R486, R579). -/
def execPoolStatus (g : Go) (pool : Nat) (s : State) : Result :=
  mbxRun s g false false 2 [(0, decide (63 < pool))] [needReplay s] [objPool pool]
    (fun s => mbxOk s g.mb (poolStatusBytes s pool))

/-- The state code of MEMBER_STATUS (R204). -/
def memberCode (s : State) (m : Nat) : Nat :=
  if (Tab.get? s.cfg.members m).isNone then 6
  else if (poolOfMember s m).isNone then 5
  else match (getMember s m).st with
    | .online => 0
    | .lagging => 1
    | .failed => 2
    | .replacing => 3
    | .spare => 4

/-- MEMBER_STATUS (R204, R250, R579). -/
def execMemberStatus (g : Go) (member : Nat) (s : State) : Result :=
  mbxRun s g false false 2 [] [need (decide (member < s.part.members)) 0] []
    (fun s =>
      let x := getMember s member
      mbxOk s g.mb (leBytes 1 (memberCode s member) ++ leBytes 3 (groupOf s member) ++ leBytes 4 x.timeouts ++ leBytes 4 x.deadlines ++
        leBytes 4 x.repairs ++ leBytes 8 x.declared.toNat))

/-! ### Members (R365, R250, R219, R242) -/

/-- MEMBER_DEFINE (R365, R389): a member outside any pool. -/
def execMemberDefine (g : Go) (p : MemberParams) (s : State) : Result :=
  mbxRun s g false false 255
    [(2, decide (255 < p.group)), (3, p.family != 4 && p.family != 6), (12, decide (223 < p.nqn.length))]
    [need (decide (p.member < s.part.members)) 0, needStopped ((poolOfMember s p.member).isNone)] []
    (fun s =>
      let p := if p.tcpPort = 0 then { p with tcpPort := 4420 } else p
      mbxStore { s with
        cfg := { s.cfg with members := Tab.set s.cfg.members p.member p }
        members := Tab.erase s.members p.member } g.mb [])

/-- MEMBER_FAIL (R250, R208): a member of a running pool. -/
def execMemberFail (g : Go) (member : Nat) (s : State) : Result :=
  let pool := (poolOfMember s member).getD 64
  mbxRun s g false false 2 []
    [need (defined s member && (poolCfg? s pool).isSome && !poolReserved s pool) 0, needRunning ((getPool s pool).st == .running)] []
    (fun s => mbxOk (declareFailed s member) g.mb [])

/-- A Peridot home that is itself a replacement named by the host, not a hot spare. -/
def namedHome (s : State) (pool ix : Nat) : Bool :=
  match ((getPool s pool).failList.find? (fun e => e.index == ix)).bind (·.home) with
  | some h => !((poolCfg s pool).spares.contains h && (getMember s h).st == .replacing)
  | none => false

/-- MEMBER_REPLACE (R219, R242, R250). -/
def execMemberReplace (g : Go) (pool index member : Nat) (found : MemberIdent) (s : State) : Result :=
  let p := getPool s pool
  let c := poolCfg s pool
  mbxRun s g false false 6 [(0, decide (63 < pool))]
    ([need ((poolCfg? s pool).isSome && !poolReserved s pool) 0, need (defined s member) 4, needReplay s,
      needRunning (p.st == .running),
      fieldsBad [(2, !isFailedIx p.failList index),
        (4, (inPool s member && !barred s pool member) || !fitMember [found] member || decide (slotsOf found.capacity < c.slots))],
      needFree (if c.peridot then namedHome s pool index else p.copy.isSome), needPartner s pool])
    [objPool pool]
    (fun s => changePool (takeMember [found] .replacing s member) g.mb pool (.replace pool index member) [])

/-- HOTSPARE_SET (R137, R219): the list takes the place of the hot spares in SPARE state; those that serve as homes stay, and count toward
the four a pool lists (log entry 60). -/
def execHotspareSet (g : Go) (pool : Nat) (members : List Nat) (found : List MemberIdent) (s : State) : Result :=
  let c := poolCfg s pool
  let st := (getPool s pool).st
  let kept := c.spares.filter (fun m => (getMember s m).st == .replacing)
  let cur := kept ++ c.spares.filter (fun m => (getMember s m).st == .spare)
  let more := members.filter (fun m => !kept.contains m)
  mbxRun s g false false (if members.isEmpty then 3 else 4 + 2 * members.length) [(0, decide (63 < pool)), (2, decide (4 < members.length))]
    (poolObj s pool 0 ++ [needStopped (st == .stopped || st == .initialising), fieldsBad ((2, decide (4 < kept.length + more.length)) :: memberErrors s pool members 4 cur found)])
    [objPool pool]
    (fun s =>
      let new := members.filter (fun m => !cur.contains m)
      let s := new.foldl (takeMember found .spare) s
      let s := setPoolCfg s pool { c with spares := kept ++ more }
      mbxStore (writeTable (writeHeader s pool new) pool new) g.mb [])

/-! ### Rebuild, scrub and the Lost-Strip Table (R210, R231, R236, R245, R250) -/

/-- POOL_DEGRADED_CONFIG (R210, R245). -/
def execPoolDegradedConfig (g : Go) (pool deadlineUs scrubDays : Nat) (s : State) : Result :=
  let st := (getPool s pool).st
  mbxRun s g false false 6
    [(0, decide (63 < pool)), (2, decide (deadlineUs < 100 ∨ 5000 < deadlineUs)), (4, decide (365 < scrubDays))]
    (poolObj s pool 0 ++ [needStopped (st == .stopped || st == .initialising)]) [objPool pool]
    (fun s => mbxStore (setPoolCfg s pool { poolCfg s pool with deadlineUs := deadlineUs, scrubDays := scrubDays }) g.mb [])

/-- REBUILD_CONFIG (R231). -/
def execRebuildConfig (g : Go) (floorPct : Nat) (s : State) : Result :=
  mbxRun s g false false 1 [(0, decide (floorPct < 2 ∨ 50 < floorPct))] [] []
    (fun s => mbxStore { s with cfg := { s.cfg with floorPct := floorPct } } g.mb [])

/-- Rows of a pool, from row `lo` on, that meet `f`. -/
def countRows (f : Nat → Bool) (lo hi : Nat) : Nat := ((List.range' lo (hi - lo)).filter f).length

/-- REBUILD_STATUS (R250): the progress record, then the counts and the budgets of the last epoch. -/
def rebuildStatusBytes (s : State) (pool : Nat) : List Byte :=
  let p := getPool s pool
  let c := poolCfg s pool
  let pendingCrit := if p.pstate = 1 then countRows (critical c p) p.critCursor c.poolRows else 0
  let brokenRows := if p.failList.length < 3 ∧ p.refused.isEmpty then 0 else countRows (isBroken s pool) 0 c.poolRows
  progressBytes p ++ countBytes ([pendingCrit, brokenRows, p.skipIntent, p.skipMissing, p.skipBroken] ++ s.budget.last)

/-- REBUILD_STATUS (R250). -/
def execRebuildStatus (g : Go) (pool : Nat) (buf : SegDesc) (s : State) : Result :=
  mbxRun s g false false 24 [(0, decide (63 < pool)), (8, badBuf buf)] (poolObj s pool 0) [objPool pool]
    (fun s =>
      let data := rebuildStatusBytes s pool
      mbxOk (writeBuf s g.mb buf data) g.mb (bytesField data))

/-- A SCRUB_CONTROL command. -/
def scrubControl (s : State) (g : Go) (pool : Nat) (f : State → State) : Result :=
  mbxRun s g false false 3 [(0, decide (63 < pool))] (poolObj s pool 0) [objPool pool]
    (fun s => mbxOk (f s) g.mb [])

/-- A scrub pass begun at once; a row in progress is given up. -/
def restartScrub (s : State) (pool : Nat) : State :=
  let old := (getPool s pool).scrubWork
  let s := updPool s pool (fun p =>
    { p with scrubbing := true, scrubPaused := false, scrubCursor := 0, skipIntent := 0, skipMissing := 0, skipBroken := 0, scrubWork := none })
  match old with
  | some w => releaseRow ((w.fetch.toList).foldl endFetch s) pool w.row
  | none => s

/-- SCRUB_CONTROL with ACTION 0 (R245): a pass begins at once. -/
def execScrubStart (g : Go) (pool : Nat) (s : State) : Result := scrubControl s g pool (fun s => restartScrub s pool)

/-- SCRUB_CONTROL with ACTION 1 (R245). -/
def execScrubPause (g : Go) (pool : Nat) (s : State) : Result :=
  scrubControl s g pool (fun s => modPool s pool (fun p => { p with scrubPaused := true }))

/-- SCRUB_CONTROL with ACTION 2 (R245). -/
def execScrubResume (g : Go) (pool : Nat) (s : State) : Result :=
  scrubControl s g pool (fun s => modPool s pool (fun p => { p with scrubPaused := false }))

/-- LST_READ (R236, R250): the entries from FIRST on. -/
def execLstRead (g : Go) (pool first : Nat) (buf : SegDesc) (s : State) : Result :=
  mbxRun s g false false 24 [(0, decide (63 < pool)), (8, badBuf buf)] (poolObj s pool 0) [objPool pool]
    (fun s =>
      let l := (getPool s pool).lst.drop first
      let data := l.flatMap (lstBytes pool)
      mbxOk (writeBuf s g.mb buf data) g.mb (leBytes 4 l.length ++ bytesField data))

end Sys2Proof.Machine
end

