-- ==== Sys2Proof/Machine/Volumes.lean ====
section
/-! DEFINITION. The volume, journal and device groups of mailbox commands (Table 11-8): volumes and their extents, start, stop and drain,
the Region Attribute Table, resource assignment, CANCEL and the end of stored changes. -/

namespace Sys2Proof.Machine

/-! ### Creation, deletion and change (R488-R490) -/

/-- Extents that a change of another volume, accepted and not yet in effect, asks for (R128, R381). -/
def askedExtents (s : State) (pool vol : Nat) : List Nat :=
  s.mbx.flatMap (fun (e : Nat × Mailbox) => match e.2.change with
    | some (.vol v (some c)) => if c.pool = pool ∧ v ≠ vol then c.extents else []
    | _ => [])

/-- An extent list in error for a volume of a pool (R488). -/
def badExtents (s : State) (pool vol : Nat) (extents : Nat) (segLen : Nat) (l : List Nat) : Bool :=
  let held := (s.cfg.vols.filter (fun e => e.2.pool == pool && e.1 != vol)).flatMap (fun e => e.2.extents)
  decide (segLen < 4 * extents) || l.length != extents || decide (l.eraseDups.length < l.length) ||
    l.any (fun e => decide ((poolCfg s pool).extents ≤ e) || held.contains e || (askedExtents s pool vol).contains e ||
      (getPool s pool).zeroing.contains e)

/-- Field errors of EXTENTS and LIST. -/
def extentFields (off : Nat) (extents : Nat) (buf : SegDesc) : List (Nat × Bool) :=
  [(off, decide (extents < 1 ∨ 2 ^ 20 < extents)), (off + if off = 4 then 4 else 8, badBuf buf)]

def sealBit (attr : BitVec 8) : Bool := attr.getLsbD 0

/-- HOME of a tile number field: a tile of the part or, where allowed, 0xFF. -/
def badTile (home : Nat) (choose : Bool) : Bool := decide (7 < home) && !(choose && home == 0xFF)

/-- The home of a new volume: the tile named, or the device's choice (R488, R103). -/
def newHome (s : State) (p : VolParams) : Option Nat := if p.home = 0xFF then chooseHome s (sealBit p.attr) else some p.home

/-- VOLUME_CREATE (R488). -/
def execVolumeCreate (g : Go) (p : VolParams) (s : State) : Result :=
  let st := (getPool s p.pool).st
  let named := p.home != 0xFF
  let full := sealBit p.attr && (match newHome s p with
    | some t => decide (2048 ≤ sealsOn s t)
    | none => true)
  mbxRun s g false false 32
    ([(2, decide (63 < p.pool)), (4, badTile p.home true), (5, decide (7 < p.attr.toNat)), (6, decide (3 < p.policy))] ++
      extentFields 8 p.extents p.buf)
    [needVol (decide (p.vol < s.part.volumes)),
     fieldsBad [(0, (volCfg? s p.vol).isSome), (2, (poolCfg? s p.pool).isNone || poolReserved s p.pool), (4, named && !tileUp s p.home)],
     needReplay s, refuse (st == .offline) 0x0101, needFree (st == .initialising),
     fieldsBad [(5, full), (16, badExtents s p.pool p.vol p.extents p.buf.segLen.toNat p.list)], needPartner s p.pool]
    [objVol p.vol, objPool p.pool]
    (fun s =>
      let t := (newHome s p).getD 0
      changePool s g.mb p.pool
        (.vol p.vol (some { pool := p.pool, home := t, attr := p.attr, policy := p.policy, extents := p.list })) (leBytes 1 t))

/-- Checks of a command that changes a stopped volume named at offset 0. -/
def stoppedVol (s : State) (g : Go) (vol : Nat) : List Check :=
  volObj s g.mb vol 0 ++ [needStopped ((getVol s vol).st == .stopped)]

/-- VOLUME_DELETE (R489). -/
def execVolumeDelete (g : Go) (vol : Nat) (s : State) : Result :=
  mbxRun s g false false 2 [] (stoppedVol s g vol ++ [needPartner s (volCfg s vol).pool]) [objVol vol]
    (fun s => changePool s g.mb (volCfg s vol).pool (.vol vol none) [])

/-- VOLUME_SET (R490, R103). -/
def execVolumeSet (g : Go) (vol mask home : Nat) (attr : BitVec 8) (policy : Nat) (s : State) : Result :=
  let c := volCfg s vol
  let home' := if bit mask 0 then home else c.home
  let attr' := if bit mask 1 then attr else c.attr
  let full := sealBit attr' && (home' != c.home || !sealBit c.attr) && decide (2048 ≤ sealsOn s home')
  mbxRun s g false false 6
    [(2, decide (7 < mask)), (3, bit mask 0 && badTile home false), (4, bit mask 1 && decide (7 < attr.toNat)),
     (5, bit mask 2 && decide (3 < policy))]
    (volObj s g.mb vol 0 ++ [fieldsBad [(3, bit mask 0 && !tileUp s home)], needStopped ((getVol s vol).st == .stopped),
      fieldsBad [(if home' = c.home then 4 else 3, full)], needPartner s c.pool])
    [objVol vol]
    (fun s =>
      let c := volCfg s vol
      changePool s g.mb c.pool
        (.vol vol (some { c with home := home', attr := attr', policy := if bit mask 2 then policy else c.policy })) [])

/-- VOLUME_SET_EXTENTS (R488, R489). -/
def execVolumeSetExtents (g : Go) (vol extents : Nat) (buf : SegDesc) (list : List Nat) (s : State) : Result :=
  let pool := (volCfg s vol).pool
  mbxRun s g false false 24 (extentFields 4 extents buf)
    (stoppedVol s g vol ++ [fieldsBad [(8, badExtents s pool vol extents buf.segLen.toNat list)], needPartner s pool])
    [objVol vol]
    (fun s => changePool s g.mb pool (.vol vol (some { volCfg s vol with extents := list })) [])

/-! ### The Region Attribute Table (R278) -/

/-- Two RAT regions share a row. -/
def ratOverlap (a b : RatEntry) : Bool := a.valid && b.valid && overlap a.firstRow a.rows b.firstRow b.rows

/-- Fields of the RAT in error, with the offset of their entry (R278). -/
def ratErrors (l : List RatEntry) : List (Nat × Bool) :=
  (List.range l.length).map (fun i =>
    match l[i]? with
    | some e => (8 + 16 * i, (e.valid && (decide (2 ^ 30 < e.firstRow + e.rows) || e.rows == 0 || decide (3 < e.policy))) ||
        (l.take i).any (fun d => ratOverlap d e))
    | none => (0, false))

/-- CACHE_RAT_SET (R278, R381): the RAT belongs to the description of a mirrored pool. -/
def execCacheRatSet (g : Go) (vol policy : Nat) (entries : List RatEntry) (s : State) : Result :=
  mbxRun s g false false (if entries.isEmpty then 4 else 8 + 16 * entries.length)
    ([(2, decide (3 < policy)), (3, decide (16 < entries.length))] ++ ratErrors entries)
    (stoppedVol s g vol ++ [needPartner s (volCfg s vol).pool]) [objVol vol]
    (fun s =>
      let c := volCfg s vol
      changePool s g.mb c.pool (.vol vol (some { c with policy := policy, rat := entries })) [])

/-! ### Start, stop and status (R480, R482, R579) -/

/-- A volume with ENCRYPT that holds no key (R482). -/
def keyless (s : State) (vol : Nat) : Bool := (volCfg s vol).attr.getLsbD 2 && (volCfg s vol).key.isNone

/-- VOLUME_START (R482). -/
def execVolumeStart (g : Go) (vol : Nat) (s : State) : Result :=
  let st := (getVol s vol).st
  mbxRun s g false (volExists s g.mb vol && keyless s vol) 2 []
    (volObj s g.mb vol 0 ++ [needStopped (st != .offline), needRunning ((getPool s (volCfg s vol).pool).st == .running)])
    [objVol vol]
    (fun s =>
      if st = .running then mbxOk s g.mb []
      else mbxStore (modVol (setVolCfg s vol { volCfg s vol with running := true }) vol (fun v => { v with st := .running })) g.mb [])

/-- A volume at rest: STOPPED, now and in the stored configuration. -/
def stopVol (s : State) (vol : Nat) : State :=
  modVol (setVolCfg s vol { volCfg s vol with running := false }) vol (fun v => { v with st := .stopped, draining := false })

/-- VOLUME_STOP (R480): intake ends, and destage goes on at priority. -/
def execVolumeStop (g : Go) (vol : Nat) (s : State) : Result :=
  mbxRun s g false false 2 [] (volObj s g.mb vol 0) [objVol vol, objCancel g.mb]
    (fun s =>
      match (getVol s vol).st with
      | .stopped => mbxOk s g.mb []
      | .offline => mbxStore (stopVol s vol) g.mb []
      | _ => mbxPark (modVol s vol (fun v => { v with st := .stopping, draining := true })) g.mb (.volumeStop vol) [])

/-- A record of the device's own volumes stands unretired in some ring, for a volume that `f` picks. -/
def anyIntent (s : State) (f : Nat → Bool) : Bool :=
  s.tiles.any (fun e => e.2.amber.intents.any (fun r => !r.r.partner && f r.r.vol))

/-- A row of a volume is dirty in its home tile's tier. -/
def dirtyVol (s : State) (vol : Nat) : Bool :=
  let t := (getTile s (homeTile s vol)).tier
  t.lines.any (fun e => e.2.c.vol == vol && e.2.c.dirty != 0) || t.evb.any (fun e => e.2.vol == vol && e.2.dirty != 0) ||
    t.store.any (fun e => e.2.c.vol == vol && e.2.c.dirty != 0)

/-- Accepted commands of a volume that have not completed. -/
def acceptedOf (s : State) (vol : Nat) : Bool :=
  s.cmds.any (fun c => c.vol == vol && c.phase != .received && c.phase != .forwarded)

/-- VOLUME_STOP_COMPLETE (R480, steps 2 to 4). -/
def execVolumeStopComplete (mb : Nat) (s : State) : Result :=
  match (getMbx s mb).running with
  | some (.volumeStop vol) =>
    let off := (getVol s vol).st == .offline
    if serving s && (off || !(acceptedOf s vol || dirtyVol s vol || anyIntent s (· == vol) || s.destages.any (fun d => d.vol == vol))) then
      done (mbxPark (stopVol s vol) mb (.volumeStopped vol) [])
    else .next s
  | _ => .next s

/-- VOLUME_STATUS STATE. -/
def volStateCode (st : VolState) : Nat :=
  match st with
  | .stopped => 1
  | .running => 2
  | .stopping => 2
  | .offline => 3

/-- VOLUME_STATUS (R579, R490). -/
def execVolumeStatus (g : Go) (vol : Nat) (s : State) : Result :=
  mbxRun s g true false 2 []
    [needVol (decide (vol < s.part.volumes) && fnMayVol s g.mb vol), { fails := volReserved s vol, status := 0x0002, detail := 0 }, needReplay s]
    [objVol vol]
    (fun s =>
      match volCfg? s vol with
      | none => mbxOk s g.mb (leBytes 12 0)
      | some c =>
        let v := getVol s vol
        mbxOk s g.mb (leBytes 1 (volStateCode v.st) ++ leBytes 1 v.home ++ leBytes 1 c.attr.toNat ++ leBytes 1 c.policy ++ leBytes 2 c.pool ++
          leBytes 2 (flag 0 c.key.isSome) ++ leBytes 4 c.extents.length))

/-! ### The journal group (R201) -/

/-- Counts of JOURNAL_STATUS of a tile: occupancy, unretired INTENTs, head and tail SEQUENCE, relocations. -/
def journalTile (a : Amber) : List Nat :=
  [a.used, a.intents.length, ((a.live.head?).map (·.r.seq)).getD a.nextSeq, a.nextSeq, a.relocations]

/-- Counts of JOURNAL_STATUS of a pool: segment use per tile, mirror members and whether they are usable, and the partner state by codes of
the model's: 0 no partner, 1 up, 2 down, 3 suspended (log entry 117). -/
def journalPool (s : State) (pool : Nat) : List Nat :=
  let p := getPool s pool
  let c := poolCfg s pool
  ((List.range s.part.tiles).map (fun t => ((Tab.getD p.segs t {}).used.map (·.2)).foldl (· + ·) 0)) ++
    [c.mirror0, c.mirror1, p.mirrorUsable.toNat, match c.partner with
      | none => 0
      | some l => if p.suspended then 3 else if (getPartner s l).up then 1 else 2]

/-- JOURNAL_STATUS. -/
def execJournalStatus (g : Go) (scope ident : Nat) (buf : SegDesc) (s : State) : Result :=
  mbxRun s g false false 24 [(0, decide (1 < scope)), (2, scope == 1 && decide (63 < ident)), (8, badBuf buf)]
    (if scope = 0 then [need (decide (ident < s.part.tiles)) 2] else poolObj s ident 2)
    (if scope = 0 then [] else [objPool ident])
    (fun s =>
      let data := countBytes (if scope = 0 then journalTile (getTile s ident).amber else journalPool s ident)
      mbxOk (writeBuf s g.mb buf data) g.mb (bytesField data))

/-- JOURNAL_MIRROR_SET (R177, R201). -/
def execJournalMirrorSet (g : Go) (pool index0 index1 : Nat) (s : State) : Result :=
  let c := poolCfg s pool
  let st := (getPool s pool).st
  mbxRun s g false false 6 [(0, decide (63 < pool))]
    (poolObj s pool 0 ++ [needStopped (st == .stopped || st == .initialising),
      fieldsBad [(2, decide (c.n ≤ index0)), (4, decide (c.n ≤ index1) || groupAt s c.members index0 == groupAt s c.members index1)],
      needPartner s pool])
    [objPool pool]
    (fun s => changePool s g.mb pool (.pool pool { poolCfg s pool with mirror0 := index0, mirror1 := index1 }) [])

/-- The volumes a JOURNAL_DRAIN names. -/
def drainVols (s : State) (scope ident : Nat) : List Nat := if scope = 0 then [ident] else volsOfPool s ident

/-- JOURNAL_DRAIN (R201): destage goes on at priority. -/
def execJournalDrain (g : Go) (scope ident : Nat) (s : State) : Result :=
  mbxRun s g true (g.mb != 0 && scope != 0) 4 [(0, decide (1 < scope)), (2, scope == 1 && decide (63 < ident))]
    (if scope = 0 then volObj s g.mb ident 2 else poolObj s ident 2)
    [if scope = 0 then objVol ident else objPool ident, objCancel g.mb]
    (fun s =>
      let s := (drainVols s scope ident).foldl (fun s v => modVol s v (fun x => { x with draining := true })) s
      mbxPark s g.mb (.drain scope ident) [])

/-- A draining that no other command still asks for ends. -/
def endDrain (s : State) (vols : List Nat) : State :=
  vols.foldl (fun s v => modVol s v (fun x => { x with draining := x.st == .stopping })) s

/-- JOURNAL_DRAIN_COMPLETE (R201): no record of the volume or pool is unretired. -/
def execJournalDrainComplete (mb : Nat) (s : State) : Result :=
  match (getMbx s mb).running with
  | some (.drain scope ident) =>
    let vs := drainVols s scope ident
    if serving s && !anyIntent s (fun v => vs.contains v) then done (mbxOk (endDrain s vs) mb []) else .next s
  | _ => .next s

/-! ### The device group (R474, R485, R396, R397) -/

/-- DEV_INFO: firmware version, configuration generation, state, tiles in service. -/
def execDevInfo (g : Go) (s : State) : Result :=
  mbxRun s g true false 0 [] [] []
    (fun s => mbxOk s g.mb (leBytes 4 s.sec.version ++ leBytes 4 s.flash.gen ++ leBytes 1 (if s.phase = .ready then 2 else 1) ++
      leBytes 1 (tileBits s (fun x => x.inService))))

/-- CONFIG_STORED (R474): a change that has been applied is in the flash, and its command completes; POOL_CREATE first waits for the
pool's metadata (R486). -/
def execConfigStored (mb : Nat) (s : State) : Result :=
  let m := getMbx s mb
  if !fwUp s then .next s
  else match m.running with
    | some (.config st) => done (mbxFinish (storeCfg s) mb st 0 m.data)
    | some (.volumeStopped _) => done (mbxFinish (storeCfg s) mb 0 0 [])
    | some (.poolCreate pool) =>
      if s.mcmds.any (fun x => x.purpose == .metadata pool) then .next s else done (mbxFinish (storeCfg s) mb 0 0 [])
    | _ => .next s

/-- The opcodes of the three commands that can be cancelled (R485). -/
def cancellable : List Nat := [0x0303, 0x0703, 0x0D00]

/-- CANCEL on a running command (R485): only three commands can be cancelled. One that waits behind another has done nothing yet. -/
def cancelRunning (s : State) (mb : Nat) : State :=
  let m := getMbx s mb
  match m.running with
  | some .waiting =>
    if m.objs.contains (objCancel mb) || (m.objs.isEmpty && cancellable.contains (leNat (Mem.bytes m.area 0 2))) then
      mbxFinish s mb 0x0005 0 []
    else s
  | some (.volumeStop vol) => mbxFinish (modVol s vol (fun v => { v with st := if v.st = .stopping then .running else v.st, draining := false })) mb 0x0005 0 []
  | some (.volumeStopped vol) =>
    mbxFinish (modVol (setVolCfg s vol { volCfg s vol with running := true }) vol (fun v => { v with st := .running })) mb 0x0005 0 []
  | some (.drain scope ident) => mbxFinish (endDrain s (drainVols s scope ident)) mb 0x0005 0 []
  | some .power => mbxFinish { s with hk := { s.hk with psPending := none } } mb 0x0005 0 []
  | _ => s

/-- A write of MBX_DOORBELL as far as a running command is concerned (R470, R485). -/
def doorbell (s : State) (mb : Nat) (v : W32) : State :=
  let m := getMbx s mb
  if !m.busy then s
  else
    let s := if bit v.toNat 0 then setMbx s mb { m with overrun := true } else s
    if bit v.toNat 1 && !m.orphan then cancelRunning s mb else s

/-- A doorbell row: the mailbox is reached and its command runs. -/
def doorbellRow (s : State) (mb : Nat) (v : W32) : Result :=
  if mbxReachable s mb && (getMbx s mb).busy then done (doorbell s mb v) else .next s

/-- MAILBOX_CANCEL (R485): a doorbell write with CANCEL. -/
def execMailboxCancel (mb : Nat) (v : W32) (s : State) : Result := if bit v.toNat 1 then doorbellRow s mb v else .next s

/-- OVERRUN (R470, R485): a doorbell write with GO while BUSY. -/
def execOverrun (mb : Nat) (v : W32) (s : State) : Result := if bit v.toNat 0 then doorbellRow s mb v else .next s

/-- A resource number that the part has. -/
def resourceEnd (s : State) (kind : Nat) : Nat :=
  match kind with
  | 0 => s.part.sqs
  | 1 => s.part.cqs
  | 2 => 64
  | _ => s.part.volumes

/-- The function that holds a resource. -/
def resourceOwner (s : State) (kind n : Nat) : Nat :=
  match kind with
  | 0 => sqOwner s n
  | 1 => cqOwner s n
  | _ => winOwner s n

/-- A ring that is enabled, or a window whose active EN is set (Table 11-7). -/
def resourceBusy (s : State) (kind n : Nat) : Bool :=
  match kind with
  | 0 => (getSq s n).active || (getSq s n).draining
  | 1 => (getCq s n).active
  | _ => (getWindow s n).act.ctl.getLsbD 0

/-- FIRST to LAST. -/
def rangeOf (first last : Nat) : List Nat := List.range' first (last + 1 - first)

/-- What a VF may hold of a kind: as many windows as its BAR 2 has GiB (R396, R397). -/
def vfLimit (s : State) (kind : Nat) : Nat :=
  match kind with
  | 0 => 256
  | 1 => 64
  | 2 => s.pcie.vfBar2Gib
  | _ => 16

/-- What it holds. -/
def vfHolds (s : State) (kind vf : Nat) : Nat :=
  match kind with
  | 0 => (vfSqs s vf).length
  | 1 => (vfCqs s vf).length
  | 2 => (vfWins s vf).length
  | _ => (Tab.getD s.pcie.volRanges vf []).length

/-- Owner of a resource set; PF0 is kept as no entry. -/
def ownTab (t : Tab Nat) (ns : List Nat) (vf : Nat) : Tab Nat :=
  ns.foldl (fun t n => if vf = 0 then Tab.erase t n else Tab.set t n vf) t

def setOwners (s : State) (kind : Nat) (ns : List Nat) (vf : Nat) : State :=
  match kind with
  | 0 => { s with pcie := { s.pcie with sqOwner := ownTab s.pcie.sqOwner ns vf } }
  | 1 => { s with pcie := { s.pcie with cqOwner := ownTab s.pcie.cqOwner ns vf } }
  | _ => { s with pcie := { s.pcie with winOwner := ownTab s.pcie.winOwner ns vf } }

/-- A range taken out of a VF's ranges, splitting those it cuts. -/
def cutRange (first last : Nat) (r : Nat × Nat) : List (Nat × Nat) :=
  (if r.1 < first then [(r.1, min r.2 (first - 1))] else []) ++ (if last < r.2 then [(max r.1 (last + 1), r.2)] else [])

def setRanges (s : State) (vf : Nat) (l : List (Nat × Nat)) : State :=
  { s with pcie := { s.pcie with volRanges := Tab.set s.pcie.volRanges vf l } }

/-- The fields of FUNC_ASSIGN: VF, KIND, OP, FIRST, LAST. -/
def assignFields (kind op first last : Nat) : List (Nat × Bool) :=
  [(1, decide (3 < kind)), (2, decide (1 < op)), (6, decide (last < first))]

/-- Windows of a group move only while every one is stopped (Table 11-7). -/
def windowsStopped (s : State) (fn : Nat) : Bool :=
  (List.range 64).all (fun w => winOwner s w != fn || !(getWindow s w).act.ctl.getLsbD 0)

/-- FUNC_ASSIGN with OP 0 (R396, R397): PF0 gives resources to a VF; a reserved OP fails check 4. -/
def execFuncAssign (g : Go) (vf kind op first last : Nat) (s : State) : Result :=
  let ns := if kind = 3 then [] else rangeOf first last
  let fresh := ns.filter (fun n => resourceOwner s kind n != vf)
  let more := if kind = 3 then 1 else fresh.length
  if op = 1 then .next s
  else
    mbxRun s g false false 8 (assignFields kind op first last)
      [need (decide (1 ≤ vf) && decide (vf ≤ s.pcie.numVfs)) 0,
       { fails := kind == 3 && decide (s.part.volumes ≤ last), status := 0x0003 },
       need (kind == 3 || decide (last < resourceEnd s kind)) (if first < resourceEnd s kind then 6 else 4),
       need (!fresh.any (fun n => resourceOwner s kind n != 0)) 4,
       needStopped (!fresh.any (resourceBusy s kind) && (kind != 2 || windowsStopped s vf)),
       { fails := decide (vfLimit s kind < vfHolds s kind vf + more), status := 0x0002, detail := 6 }] []
      (fun s =>
        if kind = 3 then mbxOk (setRanges s vf (Tab.getD s.pcie.volRanges vf [] ++ [(first, last)])) g.mb []
        else mbxOk (setOwners s kind ns vf) g.mb [])

/-- FUNC_ASSIGN with OP 1 (R396): resources of a VF return to PF0. -/
def execWithdraw (g : Go) (vf kind op first last : Nat) (s : State) : Result :=
  let ns := if kind = 3 then [] else rangeOf first last
  if op ≠ 1 then .next s
  else
    mbxRun s g false false 8 (assignFields kind op first last)
      [need (decide (1 ≤ vf) && decide (vf ≤ s.pcie.numVfs)) 0,
       { fails := kind == 3 && decide (s.part.volumes ≤ last), status := 0x0003 },
       need (kind == 3 || decide (last < resourceEnd s kind)) (if first < resourceEnd s kind then 6 else 4),
       need (!ns.any (fun n => resourceOwner s kind n != vf)) 4,
       needStopped (!ns.any (resourceBusy s kind) && (kind != 2 || windowsStopped s vf))] []
      (fun s =>
        if kind = 3 then mbxOk (setRanges s vf ((Tab.getD s.pcie.volRanges vf []).flatMap (cutRange first last))) g.mb []
        else mbxOk (setOwners s kind ns 0) g.mb [])

end Sys2Proof.Machine
end

