-- ==== Sys2Proof/Machine/Services.lean ====
section
/-! DEFINITION. The self-test, event-log, firmware, security and power groups of mailbox commands (Table 11-8, R491-R500). -/

namespace Sys2Proof.Machine

/-! ### Self-tests (R491-R493) -/

/-- v of R227 was above zero at the last edge. -/
def verifyOn (s : State) : Bool := s.budget.last.getD 4 0 != 0 || s.budget.last.getD 5 0 != 0

def testActive (t : Test) : Bool := t.st == 1 || t.st == 2

/-- A test begun: running in epochs with v, else paused (R492). -/
def newTest (s : State) : Test := { st := if verifyOn s then 1 else 2, startedAt := s.clock }

/-- A running test that stops running: its running time is kept. -/
def restTest (s : State) (t : Test) (st : Nat) : Test :=
  { t with st := st, ran := if t.st = 1 then t.ran + (s.clock - t.startedAt) else t.ran }

/-- Extended tests that run. -/
def extendedTests (s : State) : Nat := (s.tests.filter (fun e => e.1.1 == 2 && testActive e.2)).length

/-- SELFTEST_START with KIND 1 (R491). -/
def execShortSelftest (g : Go) (kind _pool : Nat) (s : State) : Result :=
  if kind = 2 then .next s
  else
    mbxRun s g false false 4 [(0, kind != 1)] [needFree (testActive (getTest s 1 0))] []
      (fun s => mbxOk (setTest s 1 0 (newTest s)) g.mb [])

/-- SELFTEST_START with KIND 2 (R491): four at once. -/
def execExtendedSelftest (g : Go) (kind pool : Nat) (s : State) : Result :=
  if kind ≠ 2 then .next s
  else
    mbxRun s g false false 4 [(2, decide (63 < pool))]
      (poolObj s pool 2 ++ [needFree (testActive (getTest s 2 pool) || decide (4 ≤ extendedTests s))]) [objPool pool]
      (fun s => mbxOk (setTest s 2 pool (newTest s)) g.mb [])

/-- A test written back with the reads of its row given up and the row's interlock released. -/
def dropTestRow (s : State) (kind pool : Nat) (t : Test) : State :=
  match t.fetch with
  | some f => releaseRow (setTest (endFetch s f) kind pool { t with fetch := none }) pool t.row
  | none => setTest s kind pool t

/-- The short test's findings (R492): lines retired, MRAM words and pipelines reported. The spec names no Jet code for a failed
known-answer test: a free value. -/
def shortFindings (s : State) (badLines : List (Nat × Nat)) (badMram : List Nat) (badCitrine : List (Nat × Nat)) : State :=
  let s := badLines.foldl (fun s e => (retireLine s e.1 e.2 3 0).getD s) s
  let s := badMram.foldl (fun s t => fault0 s 0x2008 2 (srcAmber t)) s
  badCitrine.foldl (fun s e => fault0 (drawn s) ((Config.free s.freeIx).setWidth 16) 3 (srcCitrine e.1 e.2)) s

/-- SELFTEST_COMPLETE (R492, R493): the short test with what it found, or the extended test past the pool's last row. The spec names no
Jet code for an inconsistent extended test: a free value. -/
def execSelftestComplete (kind pool : Nat) (badLines : List (Nat × Nat)) (badMram : List Nat) (badCitrine : List (Nat × Nat))
    (s : State) : Result :=
  if kind = 1 then
    let t := getTest s 1 0
    if !(serving s && t.st == 1) then .next s
    else
      let n := badLines.length + badMram.length + badCitrine.length
      let s := setTest s 1 0 { restTest s t (if n = 0 then 3 else 4) with progress := 100, failures := n }
      done (shortFindings s badLines badMram badCitrine)
  else
    let t := getTest s 2 pool
    if !(serving s && t.st == 1 && decide ((poolCfg s pool).poolRows ≤ t.row)) then .next s
    else
      let s := setTest s 2 pool { restTest s t (if t.inconsistent = 0 then 3 else 4) with progress := 100 }
      done (if t.inconsistent = 0 then s
        else fault0 (drawn s) ((Config.free s.freeIx).setWidth 16) 2 (srcPool pool))

/-- Running time of a test in ns. -/
def ranNs (s : State) (t : Test) : Nat := if t.st = 1 then t.ran + (s.clock - t.startedAt) else t.ran

/-- The response of SELFTEST_STATUS (R493). -/
def testBytes (s : State) (kind : Nat) (t : Test) : List Byte :=
  let rows := if kind = 2 then t.rows else 0
  let bad := if kind = 2 then t.inconsistent else 0
  let listed := if kind = 2 then t.listed else []
  leBytes 1 t.st ++ leBytes 1 t.progress ++ leBytes 2 t.failures ++ leBytes 4 (ranNs s t / 1000000000) ++ leBytes 8 rows ++ leBytes 8 bad ++
    listed.flatMap (leBytes 8)

/-- Field and object checks of SELFTEST_STATUS and SELFTEST_ABORT. -/
def testFields (kind pool : Nat) : List (Nat × Bool) := [(0, kind != 1 && kind != 2), (2, kind == 2 && decide (63 < pool))]

def testObj (s : State) (kind pool : Nat) : List Check := if kind = 2 then poolObj s pool 2 else []

/-- The test that KIND and POOL name. -/
def testKey (kind pool : Nat) : Nat := if kind = 2 then pool else 0

/-- SELFTEST_STATUS (R493). -/
def execSelftestStatus (g : Go) (kind pool : Nat) (s : State) : Result :=
  mbxRun s g false false 4 (testFields kind pool) (testObj s kind pool) (if kind = 2 then [objPool pool] else [])
    (fun s => mbxOk s g.mb (testBytes s kind (getTest s kind (testKey kind pool))))

/-- A test ended with STATE 5 (R491). -/
def abortTest (s : State) (kind pool : Nat) : State :=
  let t := getTest s kind pool
  if testActive t then dropTestRow s kind pool (restTest s t 5) else s

/-- SELFTEST_ABORT (R491): a test that does not run keeps its state. -/
def execSelftestAbort (g : Go) (kind pool : Nat) (s : State) : Result :=
  mbxRun s g false false 4 (testFields kind pool) (testObj s kind pool) (if kind = 2 then [objPool pool] else [])
    (fun s => mbxOk (abortTest s kind (testKey kind pool)) g.mb [])

/-! ### The event log (R499, R523) -/

/-- JET_STATUS (R523). -/
def execJetStatus (g : Go) (s : State) : Result :=
  mbxRun s g false false 0 [] [] []
    (fun s => mbxOk s g.mb (leBytes 2 s.jet.pinned.length ++ leBytes 2 s.jet.circ.length ++ leBytes 4 s.jet.total ++
      leBytes 8 s.jet.lastClear.toNat))

/-- JET_TOKEN (R499): a random token, for 10 s and for one use. -/
def execJetToken (g : Go) (s : State) : Result :=
  mbxRun s g false false 0 [] [] []
    (fun s =>
      let v := Config.random32 s.freeIx
      let s := drawn s
      mbxOk { s with jet := { s.jet with token := some v } } g.mb (leBytes 4 v.toNat))

/-- JET_TOKEN_EXPIRY (R499). -/
def execJetTokenExpiry (s : State) : Result :=
  if running s && s.jet.token.isSome then done { s with jet := { s.jet with token := none } } else .next s

/-- JET_CLEAR (R499, R523): recording stops, every slot is zeroed; what record 0x8007 will carry is kept. -/
def execJetClear (g : Go) (token : W32) (s : State) : Result :=
  mbxRun s g false (s.jet.token != some token) 4 [] [] []
    (fun s =>
      let j := s.jet
      let data := leBytes 2 j.pinned.length ++ leBytes 2 j.circ.length ++ leBytes 4 j.overwrites
      mbxPark { s with jet := { j with recording := false, token := none, pinned := [], circ := [], next := 0, lap := true, total := 0 } }
        g.mb .jetClear data)

/-- Buffered records written in order, then one record 0x8006 for each code that overflowed the buffer (R521, R523). -/
def flushBuffer (s : State) : State :=
  let j := s.jet
  let s := { s with jet := { j.buffer.foldl Jet.store j with buffer := [], overflow := [] } }
  j.overflow.foldl (fun s e => jetInfo s 0x8006 (srcJade 0) (leBytes 2 e.1 ++ leBytes 4 e.2)) s

/-- JET_CLEAR_DONE (R523): record 0x8007 as pinned index 0, then what was buffered. -/
def execJetClearDone (mb : Nat) (s : State) : Result :=
  let m := getMbx s mb
  if !(running s && m.running == some .jetClear) then .next s
  else
    let s := { s with jet := { s.jet with recording := true, lastClear := s.moon.epoch } }
    let r : JetRec := { epoch := s.moon.epoch, offset := nowOffset s, code := 0x8007, source := srcJade 0, cls := 0, data := m.data }
    let s := { s with jet := s.jet.store r }
    done (mbxOk (flushBuffer s) mb [])

/-! ### Firmware (R494-R496) -/

/-- The bytes of slot 0 (A) or 1 (B). -/
def Flash.slot (f : Flash) (i : Nat) : Mem := if i = 0 then f.slotA else f.slotB

def Flash.setSlot (f : Flash) (i : Nat) (m : Mem) : Flash := if i = 0 then { f with slotA := m } else { f with slotB := m }

/-- A word of an image header (Table 11-11). -/
def imageWord (m : Mem) (off : Nat) : Nat := leNat (Mem.bytes m off 4)

/-- Body bytes of an image. -/
def imageBody (m : Mem) : List Byte := Mem.bytes m 4096 (imageWord m 12)

/-- An image whose header is well formed, whose digest is its body's, whose signature verifies and whose SVN is not below the fused
SVN (R494). -/
def imageGood (m : Mem) (fusedSvn : Nat) : Bool :=
  imageWord m 0 == leNat [0x45, 0x46, 0x57, 0x49] && decide (imageWord m 12 ≤ 32 * 2 ^ 20 - 4096) &&
    beNat (Mem.bytes m 16 48) == (Config.sha384 (imageBody m)).toNat && Config.signatureGood (Mem.bytes m 0 64) (Mem.bytes m 64 96) &&
    decide (fusedSvn ≤ imageWord m 8)

/-- Slot `i` verifies (R494): the factory's image, or an image that passes the checks. -/
def imageSlotGood (s : State) (i : Nat) : Bool :=
  if i = 0 ∧ s.flash.factoryA then decide (s.sec.fusedSvn ≤ Config.factorySvn) else imageGood (s.flash.slot i) s.sec.fusedSvn

/-- VERSION and SVN of a slot's image (Table 11-11). -/
def slotVersion (f : Flash) (i : Nat) : Nat := if i = 0 ∧ f.factoryA then Config.factoryVersion else imageWord (f.slot i) 4
def slotSvn (f : Flash) (i : Nat) : Nat := if i = 0 ∧ f.factoryA then Config.factorySvn else imageWord (f.slot i) 8

/-- SHA-384 of a slot's header and body, as the measurement log takes it (R494). -/
def slotDigest (f : Flash) (i : Nat) : BitVec 384 :=
  if i = 0 ∧ f.factoryA then Config.factoryDigest
  else Config.sha384 (Mem.bytes (f.slot i) 0 4096 ++ imageBody (f.slot i))

/-- The slot that is not active. -/
def Flash.inactive (f : Flash) : Nat := 1 - f.active

/-- FW_INFO (R494). -/
def execFwInfo (g : Go) (s : State) : Result :=
  mbxRun s g false false 0 [] [] []
    (fun s =>
      let f := s.flash
      mbxOk s g.mb (leBytes 1 f.active ++ leBytes 1 f.pending ++ leBytes 2 s.sec.fusedSvn ++ leBytes 4 (slotVersion f 0) ++
        leBytes 4 (slotSvn f 0) ++ leBytes 4 (slotVersion f 1) ++ leBytes 4 (slotSvn f 1)))

/-- FW_DOWNLOAD (R495). -/
def execFwDownload (g : Go) (offset length : Nat) (buf : SegDesc) (data : List Byte) (s : State) : Result :=
  let top := 32 * 2 ^ 20
  mbxRun s g false false 24
    [(0, offset % 4096 != 0 || decide (top ≤ offset)),
     (4, length % 4096 != 0 || decide (4 * 2 ^ 20 < length) || decide (top < offset + length)),
     (8, badBuf buf || decide (buf.segLen.toNat < length))] [] []
    (fun s =>
      let f := s.flash
      let i := f.inactive
      let f := f.setSlot i (Mem.paste (f.slot i) offset length (Mem.ofList (data.take length)))
      mbxOk { s with flash := { f with pending := if f.pending = i + 1 then 0 else f.pending, factoryA := f.factoryA && i != 0 } } g.mb [])

/-- FW_COMMIT with ACTION 0 (R496): the inactive slot is verified and marked pending. -/
def execFwVerifyPending (g : Go) (action : Nat) (s : State) : Result :=
  if action = 1 ∨ action = 2 then .next s
  else
    mbxRun s g false false 1 [(0, action != 0)] [refuse (!imageSlotGood s s.flash.inactive) 0x0101] []
      (fun s => mbxOk { s with flash := { s.flash with pending := s.flash.inactive + 1 } } g.mb [])

/-- FW_COMMIT with ACTION 1 (R496). -/
def execFwClearPending (g : Go) (action : Nat) (s : State) : Result :=
  if action ≠ 1 then .next s
  else mbxRun s g false false 1 [] [] [] (fun s => mbxOk { s with flash := { s.flash with pending := 0 } } g.mb [])

/-- FW_COMMIT with ACTION 2 (R496): the fused SVN rises to the running image's. -/
def execFwConfirm (g : Go) (action : Nat) (s : State) : Result :=
  if action ≠ 2 then .next s
  else mbxRun s g false false 1 [] [] [] (fun s => mbxOk { s with sec := { s.sec with fusedSvn := max s.sec.fusedSvn s.sec.svn } } g.mb [])

/-! ### Keys and measurement (R494, R497, R498) -/

/-- SEC_PUBKEY (R497). -/
def execSecPubkey (g : Go) (buf : SegDesc) (s : State) : Result :=
  mbxRun s g false false 16 [(0, badBuf buf)] [] []
    (fun s => mbxOk (writeBuf s g.mb buf Config.pubKeyChain) g.mb (bytesField Config.pubKeyChain))

/-- SEC_MEASURE (R494): the measurement log. -/
def execSecMeasure (g : Go) (buf : SegDesc) (s : State) : Result :=
  mbxRun s g false false 16 [(0, badBuf buf)] [] []
    (fun s =>
      let data := s.sec.measured.flatMap (fun d => beBytes 48 d.toNat)
      mbxOk (writeBuf s g.mb buf data) g.mb (bytesField data))

/-- KEK_LOAD (R497). -/
def execKekLoad (g : Go) (hostPub wrapped : List Byte) (s : State) : Result :=
  mbxRun s g false false 136 []
    [needFree (s.cfg.vols.any (fun e => e.2.key.isSome)),
     { fails := (Config.kekUnwrap hostPub wrapped).isNone, status := 0x0002, detail := 96 }] []
    (fun s => mbxStore { s with cfg := { s.cfg with kek := Config.kekUnwrap hostPub wrapped } } g.mb [])

/-- The key that WRAPPED holds under the device's KEK, its halves differing (R498). -/
def unwrapKey (s : State) (wrapped : List Byte) : Option (BitVec 512) :=
  match s.cfg.kek.bind (fun k => Config.keyUnwrap k wrapped) with
  | some k => if k.extractLsb' 0 256 = k.extractLsb' 256 256 then none else some k
  | none => none

/-- KEY_LOAD (R498). -/
def execKeyLoad (g : Go) (vol : Nat) (wrapped : List Byte) (s : State) : Result :=
  let c := volCfg s vol
  mbxRun s g false false 80 []
    (stoppedVol s g vol ++
      [fieldsBad [(0, !c.attr.getLsbD 2), (8, (unwrapKey s wrapped).isNone)], needPartner s c.pool])
    [objVol vol]
    (fun s =>
      let c := volCfg s vol
      changePool s g.mb c.pool (.vol vol (some { c with key := unwrapKey s wrapped, wrapped := wrapped })) [])

/-- KEY_DESTROY (R498). -/
def execKeyDestroy (g : Go) (vol : Nat) (s : State) : Result :=
  mbxRun s g false false 2 [] (stoppedVol s g vol ++ [needPartner s (volCfg s vol).pool]) [objVol vol]
    (fun s =>
      let c := volCfg s vol
      changePool s g.mb c.pool (.vol vol (some { c with key := none, wrapped := [] })) [])

/-! ### Power (R348, R429, R500, R534, R544-R546) -/

def psCode (p : Ps) : Nat :=
  match p with
  | .ps0 => 0
  | .ps1 => 1
  | .ps2 => 2

def psOf (st : Nat) : Ps := if st = 1 then .ps1 else if st = 2 then .ps2 else .ps0

/-- A power state entered (R550). -/
def enterPs (s : State) (p : Ps) : State :=
  jetInfo { s with hk := { s.hk with ps := p, psPending := none, ps2Idle := false } } 0x700B (srcCarnelian 0 0) (leBytes 1 (psCode p))

/-- POWER_STATE_SET (R500): PS0 and the state in force complete at once, another waits for POWER_STATE_ENTRY. -/
def execPowerStateSet (g : Go) (st : Nat) (s : State) : Result :=
  mbxRun s g false false 1 [(0, decide (2 < st))] [needFree (s.hk.psPending.isSome)] [objCancel g.mb]
    (fun s =>
      if psOf st = s.hk.ps then mbxOk s g.mb []
      else if st = 0 then mbxOk (enterPs s .ps0) g.mb []
      else mbxPark { s with hk := { s.hk with psPending := some (psOf st, g.mb) } } g.mb .power [])

/-- No SBT command and no ring entry is in progress (R348). -/
def idleNow (s : State) : Bool := s.cmds.all (fun c => c.mute) && s.live.all (fun l => l.outcome.isSome)

/-- POWER_STATE_ENTRY (R348). -/
def execPowerStateEntry (s : State) : Result :=
  match s.hk.psPending with
  | some (p, mb) => if fwUp s && idleNow s then done (mbxOk (enterPs s p) mb []) else .next s
  | none => .next s

/-- POWER_STATUS (R500): PENDING is 1 while an entry is pending. -/
def execPowerStatus (g : Go) (s : State) : Result :=
  mbxRun s g false false 0 [] [] []
    (fun s => mbxOk s g.mb (leBytes 1 (psCode s.hk.ps) ++ leBytes 1 s.hk.psPending.isSome.toNat ++ leBytes 1 s.cfg.d3coldEn.toNat))

/-- POWER_D3COLD (R429). -/
def execPowerD3cold (g : Go) (enable : Nat) (s : State) : Result :=
  mbxRun s g false false 1 [(0, decide (1 < enable))] [] []
    (fun s => mbxStore { s with cfg := { s.cfg with d3coldEn := enable == 1 } } g.mb [])

/-- THERMAL_CONFIG (R534): in force from the next round end. -/
def execThermalConfig (g : Go) (warn throttle critical graceMs : Nat) (s : State) : Result :=
  mbxRun s g false false 6
    [(0, decide (warn < 60 ∨ 105 < warn)), (1, decide (throttle ≤ warn ∨ 110 < throttle)),
     (2, decide (critical ≤ throttle ∨ 115 < critical)), (4, decide (1000 < graceMs))] [] []
    (fun s => mbxStore { s with
      cfg := { s.cfg with warn := warn, throttle := throttle, critical := critical, graceMs := graceMs } } g.mb [])

end Sys2Proof.Machine
end

