-- ==== Sys2Proof/Machine/Tiles.lean ====
section
/-! DEFINITION. Tile loss: mesh routes and partition (R22-R25), and the takeover of a lost tile by its buddy (R39-R51, R464). -/

namespace Sys2Proof.Machine

/-! ### Routes (Table 1-2, R23, R24) -/

/-- The tile at a mesh position. -/
def tileAt (p : Part) (x y : Nat) : Nat := y * p.columns + x

/-- The columns from `a` to `b`, both included. -/
def walk (a b : Nat) : List Nat := if a ≤ b then List.range' a (b + 1 - a) else (List.range' b (a + 1 - b)).reverse

/-- The tiles a message passes from `a` to `b` when it travels along x in row `y`. -/
def pathVia (p : Part) (a b y : Nat) : List Nat :=
  let l := (walk (a % p.columns) (b % p.columns)).map (fun x => tileAt p x y)
  let l := if y = a / p.columns then l else a :: l
  if y = b / p.columns then l else l ++ [b]

/-- Consecutive tiles of a path. -/
def hops (l : List Nat) : List (Nat × Nat) := l.zip (l.drop 1)

/-- Every tile and link of a path stands. -/
def pathOk (s : State) (l : List Nat) : Bool := l.all (tileUp s) && (hops l).all (fun h => !linkLost s h.1 h.2)

/-- The route in use: x-first, else across the other row (R23, R24). -/
def route (s : State) (a b : Nat) : Option (List Nat) :=
  let p := s.part
  (([a / p.columns] ++ (List.range p.rows).filter (· != a / p.columns)).map (pathVia p a b)).find? (pathOk s)

/-- Pairs of tiles whose route differs from that in the state before: their senders wait (R24). -/
def changedRoutes (old s : State) : List (Nat × Nat) :=
  ((upTiles s).flatMap (fun a => (upTiles s).map (fun b => (a, b)))).filter (fun e =>
    (route s e.1 e.2).isSome && route s e.1 e.2 != route old e.1 e.2)

/-- Tiles reached from those in `l` over standing links, `fuel` links at most. -/
def reachFrom (s : State) : Nat → List Nat → List Nat
  | 0, l => l
  | f + 1, l => reachFrom s f ((upTiles s).filter (fun b => l.contains b || l.any (fun a => adjacent s.part a b && !linkLost s a b)))

/-- The surviving tiles do not all reach each other (R25). -/
def partitioned (s : State) : Bool := decide ((reachFrom s 8 ((upTiles s).take 1)).length < (upTiles s).length)

/-- Surviving tiles, bit t for tile t. -/
def upBits (s : State) : Nat := ((upTiles s).map (fun t => 2 ^ t)).foldl (· + ·) 0

/-- The consequences of a lost tile or link for the routes: senders wait, or a partition is F4 (R24, R25, R510). -/
def reroute (old s : State) : State :=
  let s := { s with mesh := { s.mesh with
    switching := s.mesh.switching ++ (changedRoutes old s).filter (fun e => !s.mesh.switching.contains e) } }
  if partitioned s then enterF4 (jetRec s 0x800D (srcJade 0) 4 false false (leBytes 1 (upBits s))) causePartition else s

/-- MESH_LINK_LOSS (R24, R25). -/
def execMeshLinkLoss (a b : Nat) (s : State) : Result :=
  if running s && adjacent s.part a b && !linkLost s a b then
    done (reroute s { s with mesh := { s.mesh with lostLinks := s.mesh.lostLinks ++ [(min a b, max a b)] } })
  else .next s

/-! ### What the lost tile held -/

/-- Work of a pool on its members that its new tile goes on with: metadata, zeroing, and the re-copy of spill records. -/
def poolWork (m : MCmd) : Bool :=
  match m.purpose with
  | .metadata _ => true
  | .lstWrite _ => true
  | .mapWrite _ _ => true
  | .initZero _ => true
  | .extentZero _ _ => true
  | .recopyRead _ _ _ _ => true
  | .recopyWrite _ _ _ => true
  | _ => false

/-- Rows that the tile was making consistent are to be made so again (R233, R240). -/
def keepSalvages (s : State) (t : Nat) : State :=
  (s.destages.filter (fun d => d.tile == t && d.resync && d.intents.isEmpty)).foldl (fun s d =>
    let bad := ((d.fetch.bind (getFetch? s)).map (·.bad)).getD []
    modPool s d.pool (fun p => { p with salvages := p.salvages ++ [(d.row, bad)] })) s

/-- Work on members that ran on the tile ends; that of its pools goes on from the buddy, which holds the slice's mirror (R220). -/
def dropTileWork (s : State) (t b : Nat) : State :=
  let s := keepSalvages s t
  { s with
    destages := s.destages.filter (fun d => d.tile != t)
    fetches := s.fetches.filter (fun f => f.tile != t)
    replays := s.replays.filter (fun x => x.tile != t)
    maints := s.maints.map (fun (m : Maint) => { m with discards := m.discards.filter (fun d => d.ring != t) })
    mcmds := (s.mcmds.filter (fun m => m.tile != t || poolWork m)).map (fun (m : MCmd) => if m.tile = t then { m with tile := b } else m) }

/-- A pool whose rebuild tile is lost goes on from the mirrored record on tile `b` (R220): the rows in work start again. -/
def movePool (s : State) (b pool : Nat) : State :=
  startSalvages (modPool s pool (fun p =>
    { p with tile := b, work := none, copyWork := none, scrubWork := none, interlocks := [], interlockWait := [], repairs := [] })) pool

/-- The tile's cache, staging, range locks and arbiter are gone; the line retirement list lies in MRAM (R42). -/
def clearTile (t : Tile) : Tile :=
  { t with
    inService := false, locks := [], neighbours := []
    tier := { lfsr := t.tier.lfsr, evmode := t.tier.evmode, retired := t.tier.retired, zGib := t.tier.zGib } }

/-- A command without its acceptance: what it had at the home tile is forgotten (R43). -/
def unaccept (c : Cmd) : Cmd :=
  { c with
    phase := .forwarded, parts := [], grants := [], data := [], arrived := [], sent := 0, waitCmds := [], waitRecs := []
    stampEpoch := 0, stampOffset := 0, heldFlag := false, status := 0, asked := false, fwd := none }

/-- The command has an outcome that its receiving tile knows (R30). -/
def decided (c : Cmd) : Bool := c.phase == .finished

/-- A command that will never report leaves with the operation it stood for. -/
def forgetCmd (s : State) (c : Cmd) : State :=
  let s := removeCmd s c
  match c.src with
  | .maint m => { s with maints := s.maints.filter (fun x => x.id != m) }
  | _ => s

/-- A command homed on the lost tile, or on its way there: forwarded again by a receiving tile that survives, otherwise gone (R43, R44). A
ring write's data is fetched again once its new INTENTs are committed. `moved` are the volumes that the tile homed. -/
def reforward (s : State) (t : Nat) (moved : List Nat) (c : Cmd) : State :=
  let mine := match c.phase with
    | .received => false
    | .finished => false
    | .forwarded => moved.contains c.vol
    | _ => c.home == t
  if !mine then s
  else if c.rx = t || c.mute then forgetCmd s c
  else
    let s := forwardCmd (modCmd s c.id unaccept) (unaccept c)
    match c.src with
    | .ring e => voidReqs s (isDataOf e none)
    | _ => s

/-! ### Adoption (R40, R41, R167) -/

/-- The range lock of an adopted INTENT. -/
def adoptedLock (s : State) (t : Nat) (r : Rec) : Lock :=
  let v := volCfg s r.vol
  let l := maskBlocks r.blockMask
  let first := l.headD 0
  { holder := .adopted t r.seq, vol := r.vol, lba := volRowOf v r.row * (poolOfVol s r.vol).rowBlocks + first
    len := l.getLastD first + 1 - first, write := true }

/-- What the mirror half holds of the lost ring: the records that the buddy's index names, and those already retired (R38, R40). -/
def adoptRing (index : List Nat) (a : Amber) : Amber :=
  { a with
    adopted := true
    recs := (a.recs.filter (fun r => r.retired || index.contains r.r.seq)).map (fun r => { r with own := false }) }

/-- Rows that replay has under way. -/
def replaying (s : State) (r : RingRec) : Bool :=
  s.replays.any (fun x => x.vol == r.r.vol && x.row == r.r.row) || s.destages.any (fun d => d.vol == r.r.vol && d.row == r.r.row)

/-- The lost ring adopted: locks for its unretired INTENTs, which are then completed as replay completes them (R40, R41). A tile lost during
replay leaves its rows to its buddy. -/
def adopt (s : State) (t b : Nat) : State :=
  let s := modAmber s t (adoptRing (getTile s b).amber.mirrorIndex)
  let a := (getTile s t).amber
  let gone (q : Nat) : Bool := (a.find? q).isNone
  let s : State := { s with partners := s.partners.map (fun (e : Nat × Partner) =>
    (e.1, { e.2 with awaiting := e.2.awaiting.filter (fun w => !(w.1 == t && gone w.2)) })) }
  let own := a.intents.filter (fun r => !r.r.partner)
  let s := modTile s b (fun x => { x with locks := x.locks ++ own.map (fun r => adoptedLock s t r.r) })
  if s.phase = .replay then replayRings s (readableRings s) (fun r => !r.r.partner && !replaying s r)
  else replayRings s [t] (fun r => !r.r.partner)

/-- The active map of a volume is lost with its home tile: its next frozen map carries FULL (R111). -/
def lostMap (v : Vol) : Vol :=
  { v with active := [], activeFull := true, freezing := v.freezing.map (fun (m : FrozenMap) => { m with full := true }) }

/-- A volume taken over by the buddy: its active map is lost (R111), and beyond 2,048 the buddy keeps none (R103). -/
def takeVol (s : State) (t b v : Nat) : State :=
  if homeTile s v ≠ t then s
  else
    let s := modVol s v (fun x => { lostMap x with home := b })
    modVol s v (fun x => { x with noMap := beyondMaps s v })

/-- Both tiles of a pair are lost: the volumes homed on them go offline, their maps are lost (R49, R111). -/
def loseVol (s : State) (t v : Nat) : State := 
  if homeTile s v = t then modVol s v (fun x => { lostMap x with st := .offline }) else s

/-! ### Rings, connections, ports and windows (R42, R44-R46, R464) -/

/-- An SQ re-hosted on the buddy: its started entries end, its head is published, a RING_LOST completion is written and the scan
resumes there (R464). -/
def rehostSq (s : State) (n : Nat) : State :=
  let s := (sqLive s n).foldl endLive s
  let s := voidReqs s (ofSq n)
  if !((getSq s n).active || (getSq s n).draining) then s
  else
    let s := publish (modSq s n (fun q =>
      { q with scan := q.head, scanWrap := q.headWrap, scanning := false, again := false, fetched := [], partial_ := [] })) n
    let s := match sqCq s n with
      | some cq => postCqe s cq { sq := n, tag := 0, status := 0x0043, count := 0, ringLost := true }
      | none => s
    startScan s n

/-- The rings of a lost tile: the completions that waited on its die are gone (R464). -/
def rehost (s : State) (t b : Nat) : State :=
  let sqs := (s.sqs.filter (fun e => tileOfSq e.1 == t)).map Prod.fst
  let s : State := { s with cqs := s.cqs.map (fun (e : Nat × Cq) =>
    if tileOfCq e.1 = t then (e.1, { e.2 with waiting := [], backpressure := false }) else e) }
  if tileUp s b then
    let s := sqs.foldl rehostSq s
    if sqs.isEmpty then s else fault0 s 0x500B 1 (srcHost 0)
  else sqs.foldl (fun s n => voidReqs ((sqLive s n).foldl endLive s) (ofSq n)) s

/-- Windows that map onto the lost staging (R42). -/
def stopWindows (s : State) (t : Nat) : State :=
  { s with pcie := { s.pcie with windows := s.pcie.windows.map (fun (e : Nat × Window) =>
    if winTile e.2.act = t then (e.1, { e.2 with act := { e.2.act with ctl := e.2.act.ctl &&& ~~~1#32 } }) else e) } }

/-- Connections that end on the lost tile (R44). -/
def dropConns (s : State) (t : Nat) : State := (s.sbt.conns.filter (fun c => c.tile == t)).foldl loseConn s

/-- Links of the lost tile, with what depends on them, and its own member queues (R46). -/
def dropPorts (s : State) (t : Nat) : State :=
  let s := (List.range' (32 * t) 32).foldl downLink s
  s.members.foldl (fun s e => (e.2.queues.filter (fun q => q.tile == t)).foldl (fun s q => dropQueue s e.1 t q.admin) s) s

/-- The loss of T0 (R51): no host service, the bypass closed, training lost, a running seal left. -/
def loseT0 (s : State) : State :=
  let s := if s.moon.sealActive && s.moon.sealSt.takesPart then endSeal s false else s
  { s with
    pcie := { s.pcie with linkUp := false }
    pins := bypassPins s true
    moon := { s.moon with trained := false } }

/-! ### The whole of a tile loss -/

/-- Tile `t` out of service (R39-R51, Table 12-2). -/
def loseTile (s0 : State) (t : Nat) : State :=
  if !(running s0 && tileUp s0 t) then s0
  else
    let b := buddy t
    let s := s0.tests.foldl (fun s e => abortTest s e.1.1 e.1.2) s0
    let s := dropConns s t
    let s := dropTileWork s t b
    let s := modTile s t clearTile
    let vols := s.cfg.vols.map Prod.fst
    let moved := vols.filter (fun v => homeTile s0 v == t)
    let s := if tileUp s b then vols.foldl (fun s v => takeVol s t b v) s else vols.foldl (fun s v => loseVol s t v) s
    let s := stopWindows s t
    let s := rehost s t b
    let s := s.cmds.foldl (fun s c => reforward s t moved c) s
    let s := ((s.pools.filter (fun e => e.2.tile == t)).map Prod.fst).foldl (fun s p =>
      movePool s (if tileUp s b then b else rebuildTile s p) p) s
    let s := dropPorts s t
    let s := if tileUp s b then adopt s t b else s
    let s := flushProgress s
    let s := if t = 0 then loseT0 s else s
    reroute s0 s

/-- A fault code for the loss of a tile: the spec gives none. -/
def lossCode (s : State) : BitVec 16 := (Config.free s.freeIx).setWidth 16

/-- A tile declared lost (R39): F3 in its domain, contained by the loss itself. What is recorded of T0's loss goes to T1 (R51). -/
def declareLost (s : State) (t : Nat) (a : FaultArg) : State :=
  let s := if t = 0 then { s with jet := { s.jet with toT1 := true } } else s
  loseTile (fault s { a with cls := 3, acted := true }) t

/-- HEARTBEAT_TIMEOUT (R39): declared by the Jade slice of another tile, as F3 in the lost tile's domain. -/
def execHeartbeatTimeout (tile : Nat) (s : State) : Result :=
  if running s && tileUp s tile && (upTiles s).any (· != tile) then
    done (declareLost (drawn s) tile { code := lossCode s, cls := 3, src := srcMesh tile })
  else .next s

end Sys2Proof.Machine
end

