-- ==== Sys2Proof/Machine/Faults.lean ====
section
/-! DEFINITION. Acknowledgment, escalation and containment of faults, ALIVE and the watchdogs, and the Jet window (chapter 12). -/

namespace Sys2Proof.Machine

/-! ### F2 entries (R502, R518) -/

/-- The slot of an F2 entry by its ID. -/
def f2Slot (j : Jade) (id : Nat) : Option Nat := (j.queue.find? (fun e => e.2.ident == id && (e.2.st == 1 || e.2.st == 2))).map Prod.fst

/-- A write of FAULT_ACK (R518). -/
def ackFault (s : State) (v : W32) : State :=
  let id := bits v.toNat 7 0
  match f2Slot s.jade id with
  | none => { s with jade := { s.jade with ackErr := true } }
  | some i =>
    let code := ((Tab.get? s.jade.queue i).map (·.code)).getD 0
    resend (freeEntry (jetInfo s 0x8001 (srcJade 0) (leBytes 1 id ++ leBytes 2 code.toNat)) i) 0 0

/-- FAULT_ACK (R518). -/
def execFaultAck (v : W32) (s : State) : Result := if running s && canDma s 0 then done (ackFault s v) else .next s

/-- F2_TIMER_EXPIRY (R501, R502, R507): F3 in the same domain, or F4 where the source has no containment action. -/
def execF2TimerExpiry (slot : Nat) (s : State) : Result :=
  match Tab.get? s.jade.queue slot with
  | none => .next s
  | some e =>
    if !(running s && e.st == 1 && !hostAway s) then .next s
    else
      let s := jetRec s 0x8002 e.source 3 e.correlated true (leBytes 1 e.ident ++ leBytes 2 e.code.toNat)
      let s := { s with jade := { s.jade with escalated := true } }
      if uncontainable e.source && !e.acted then done (enterF4 s causeNoAction)
      else
        let s := { s with jade := { s.jade with
          queue := Tab.set s.jade.queue slot { e with cls := 3, st := 3, since := s.clock }, f3Seen := true } }
        let s := modWin s e.domKind e.domId (fun w => if w.slot = some slot then { w with cls := 3, escalated := true } else w)
        done (wakeEvent s)

/-! ### F3 containment (R503, R504, R510, Table 12-2) -/

/-- A link stopped as by PORT_CONTROL (R357). -/
def stopLink (s : State) (port : Nat) : State :=
  let s := if (linkCfg s port).p.role = 1 then
      ((s.sbt.conns.filter (fun c => c.port == port)).map connIdOf).foldl (fun s id => closeConn s id 2) s
    else s
  modLink (downLink s port) port (fun l => { l with started := false })

/-- A function's SQs and windows disabled (R462). -/
def stopFunction (s : State) (fn : Nat) : State :=
  let s := ((s.sqs.filter (fun e => e.2.en && sqOwner s e.1 == fn)).map Prod.fst).foldl stopSq s
  { s with pcie := { s.pcie with windows := s.pcie.windows.map (fun (e : Nat × Window) =>
    if winOwner s e.1 = fn then (e.1, { e.2 with act := { e.2.act with ctl := e.2.act.ctl &&& ~~~1#32 } }) else e) } }

/-- Moonstone contained: seals left, STANDALONE until the next EPOCH_CONFIG. The end of a seal is a fault the action itself raises (R508). -/
def stopMoon (s : State) : State :=
  let s := if s.moon.sealActive && s.moon.sealSt.takesPart then endSeal s false true else s
  modMoon s (fun m => { m with contained := true, sealActive := false })

/-- A partner link stopped and the mirroring of its pools suspended. -/
def stopPartner (s : State) (l : Nat) : State :=
  let s := modPartner s l (fun p => { p with up := false, stopped := true })
  (poolsOn s l).foldl (fun s p => suspendPool s p true) s

/-- The default containment action of a source (Table 12-2). -/
def contain (s : State) (e : FaultEnt) : State :=
  match srcKind e.source with
  | 1 => poolOffline s e.domId
  | 2 => poolOffline s e.domId
  | 6 => stopLink s (srcInst e.source % 256)
  | 7 => stopFunction s (srcInst e.source % 64)
  | 8 => stopMoon s
  | 12 => stopPartner s (srcInst e.source % 8)
  | _ => loseTile s e.domId

/-- F3_CONTAINED (R503): the action, unless the rule that raised the fault has carried one out; the entry is freed. -/
def execF3Contained (slot : Nat) (s : State) : Result :=
  match Tab.get? s.jade.queue slot with
  | none => .next s
  | some e =>
    if !(fwUp s && e.st == 3) then .next s
    else
      let us := (s.clock - e.since) / 1000
      let s := if e.acted then s else contain s e
      if s.jade.f4 then done s
      else done (freeEntry (jetInfo s 0x8004 (srcJade 0) (leBytes 1 e.ident ++ leBytes 4 us)) slot)

/-- F3_CONTAINMENT_TIMEOUT (R510, R511). -/
def execF3ContainmentTimeout (slot : Nat) (s : State) : Result :=
  match Tab.get? s.jade.queue slot with
  | none => .next s
  | some e =>
    if running s && e.st == 3 then done (enterF4 (jetRec s 0x8005 e.source 4 e.correlated false (leBytes 1 e.ident)) causeTimeout)
    else .next s

/-- CORRELATION_WINDOW_CLOSE (R507). -/
def execCorrelationWindowClose (kind ident : Nat) (s : State) : Result :=
  if running s && (domWindow s.jade kind ident).isSome then
    done { s with jade := { s.jade with windows := s.jade.windows.filter (fun w => !(w.domKind == kind && w.domId == ident)) } }
  else .next s

/-! ### ALIVE and the watchdogs (R513-R516) -/

/-- ALIVE_TOGGLE (R513). -/
def execAliveToggle (s : State) : Result :=
  if running s && s.jade.aliveRunning then done { s with pins := { s.pins with alive := !s.pins.alive } } else .next s

/-- CORE_WATCHDOG (R39, R515): four control cores a tile; the tile's own F3 declares it lost, as one event with any other report of it. -/
def execCoreWatchdog (tile core : Nat) (s : State) : Result :=
  if fwUp s && tileUp s tile && decide (core < 4) then
    done (declareLost s tile { code := 0x8009, cls := 3, src := srcCore tile core, data := leBytes 1 core })
  else .next s

/-- HOST_WATCHDOG (R516): it waits for the next ALIVE_KICK. -/
def execHostWatchdog (s : State) : Result :=
  if running s && s.jade.hwdogEn && s.jade.hwdogRunning && !hostAway s then
    done (fault0 { s with jade := { s.jade with hwdog := true, hwdogRunning := false } } 0x8008 1 (srcHost 0))
  else .next s

/-- A write of ALIVE_KICK: the watchdog runs anew. -/
def kick (s : State) : State := { s with jade := { s.jade with hwdogRunning := s.jade.hwdogEn } }

/-- ALIVE_KICK (R516). -/
def execAliveKick (_v : W32) (s : State) : Result := if running s && canDma s 0 then done (kick s) else .next s

/-! ### The Jet window (R522) -/

/-- Records of the area at the cursor. -/
def areaSize (area : Bool) : Nat := if area then jetCirc else jetPinned

/-- A read of JET_DATA[i]: the word, and the state it leaves. -/
def jetData (s : State) (i : Nat) : W32 × State :=
  let j := s.jet
  let b := j.latched.getD (jetSlotImage (jetAt j j.area j.index))
  let v : W32 := BitVec.ofNat 32 (leField b (4 * i) 4)
  let j := if i = 7 then { j with latched := none, index := (j.index + 1) % areaSize j.area } else { j with latched := some b }
  (v, { s with jet := j })

/-- JET_DATA_READ (R522). -/
def execJetDataRead (word : Nat) (s : State) : Result :=
  if running s && canDma s 0 && decide (word < 8) then
    let r := jetData s word
    done (emit r.2 (.readData (r.1.setWidth 64)))
  else .next s

/-- A write of JET_CURSOR (R522). -/
def writeCursor (s : State) (v : W32) : State :=
  let area := bit v.toNat 12
  let ix := bits v.toNat 11 0
  let keep := if s.jet.index < areaSize area then s.jet.index else 0
  { s with jet := { s.jet with area := area, index := if ix < areaSize area then ix else keep } }

/-- JET_CURSOR_WRITE (R522). -/
def execJetCursorWrite (v : W32) (s : State) : Result := if running s && canDma s 0 then done (writeCursor s v) else .next s

/-- JET_SUPPRESSION_WINDOW (R521): the 1 ms window ends; one record 0x8006 for each code suppressed in it. -/
def execJetSuppressionWindow (s : State) : Result :=
  if !running s then .next s
  else
    let late := s.jet.suppressed
    let s := { s with jet := { s.jet with written := [], suppressed := [] } }
    done (late.foldl (fun s e => jetInfo s 0x8006 (srcJade 0) (leBytes 2 e.1 ++ leBytes 4 e.2)) s)

end Sys2Proof.Machine
end

