-- ==== Sys2Proof/Machine/Registers.lean ====
section
/-! DEFINITION. REGISTER_WRITE: every write of a function's BAR 0 (R10-R16, R399-R401), by the register maps of Tables 9-4 to 9-6. -/

namespace Sys2Proof.Machine

/-! ### Where an offset leads (Tables 9-4, 9-5, R400) -/

/-- A register place: block and offset in it. -/
inductive Loc where
  /-- device register block (Table 9-6). -/
  | block (off : Nat)
  /-- the registers of that block which a VF also has. -/
  | local_ (fn off : Nat)
  | jet (off : Nat)
  | mbx (m off : Nat)
  | sqDb (n : Nat)
  | cqDb (n : Nat)
  | sq (n off : Nat)
  | cq (n off : Nat)
  | win (n off : Nat)
  deriving DecidableEq, Repr

/-- PF BAR 0 (Table 9-4): resources held by a VF and mailboxes of existing VFs are not reached, but for the shadow registers and
the commit of a window's set are its own (R400, R426). -/
def locPf (s : State) (off : Nat) : Option Loc :=
  if off < 0x10000 then some (.block off)
  else if off < 0x40000 then some (.jet off)
  else if off < 0x80000 then
    let m := (off - 0x40000) / 0x1000
    if m ≠ 0 ∧ m ≤ s.pcie.numVfs then none else some (.mbx m (off % 0x1000))
  else if 0x100000 ≤ off ∧ off < 0x104000 then
    let n := (off - 0x100000) / 8
    if off % 8 = 0 ∧ n < s.part.sqs ∧ sqOwner s n = 0 then some (.sqDb n) else none
  else if 0x110000 ≤ off ∧ off < 0x111000 then
    let n := (off - 0x110000) / 8
    if off % 8 = 0 ∧ n < s.part.cqs ∧ cqOwner s n = 0 then some (.cqDb n) else none
  else if 0x200000 ≤ off ∧ off < 0x220000 then
    let n := (off - 0x200000) / 64
    if n < s.part.sqs ∧ sqOwner s n = 0 then some (.sq n (off % 64)) else none
  else if 0x220000 ≤ off ∧ off < 0x228000 then
    let n := (off - 0x220000) / 64
    if n < s.part.cqs ∧ cqOwner s n = 0 then some (.cq n (off % 64)) else none
  else if 0x300000 ≤ off ∧ off < 0x301000 then
    let w := (off - 0x300000) / 64
    if winOwner s w = 0 ∨ 0x20 ≤ off % 64 then some (.win w (off % 64)) else none
  else none

/-- VF BAR 0 (Table 9-5): local indices. -/
def locVf (s : State) (fn off : Nat) : Option Loc :=
  if off < 0x1000 then some (.local_ fn off)
  else if off < 0x2000 then some (.mbx fn (off - 0x1000))
  else if off < 0x2800 then (if off % 8 = 0 then (vfSqs s fn)[(off - 0x2000) / 8]?.map .sqDb else none)
  else if off < 0x2A00 then (if off % 8 = 0 then (vfCqs s fn)[(off - 0x2800) / 8]?.map .cqDb else none)
  else if off < 0x4000 then none
  else if off < 0x8000 then (vfSqs s fn)[(off - 0x4000) / 64]?.map (fun n => .sq n (off % 64))
  else if off < 0x9000 then (vfCqs s fn)[(off - 0x8000) / 64]?.map (fun n => .cq n (off % 64))
  else if off < 0xA000 then (vfWins s fn)[(off - 0x9000) / 64]?.map (fun n => .win n (off % 64))
  else none

def locate (s : State) (fn off : Nat) : Option Loc := if fn = 0 then locPf s off else locVf s fn off

/-- The 64-bit registers that a write changes: their lower half's place (R16). -/
def wide : Loc → Bool
  | .block off => off == 0x488
  | .sq _ off => off == 0x00 || off == 0x08
  | .cq _ off => off == 0x00
  | .win _ off => off == 0x08 || off == 0x28
  | _ => false

/-- The place four bytes below. -/
def lower : Loc → Loc
  | .block off => .block (off - 4)
  | .sq n off => .sq n (off - 4)
  | .cq n off => .cq n (off - 4)
  | .win n off => .win n (off - 4)
  | l => l

/-- The second word of a 64-bit register. -/
def upperHalf (l : Loc) : Bool :=
  match l with
  | .block off => decide (4 ≤ off) && wide (lower l)
  | .sq _ off => decide (4 ≤ off) && wide (lower l)
  | .cq _ off => decide (4 ≤ off) && wide (lower l)
  | .win _ off => decide (4 ≤ off) && wide (lower l)
  | _ => false

/-- The key under which a lower half is held. -/
def halfKey : Loc → Nat × Nat
  | .block off => (0, off)
  | .sq n off => (1, 64 * n + off)
  | .cq n off => (2, 64 * n + off)
  | .win n off => (3, 64 * n + off)
  | _ => (4, 0)

def heldHalf (s : State) (l : Loc) : Option W32 := (s.pcie.halves.find? (fun e => e.1 == halfKey l)).map (·.2)

def dropHalf (s : State) (l : Loc) : State := modPcie s (fun p => { p with halves := p.halves.filter (fun e => e.1 != halfKey l) })

def holdHalf (s : State) (l : Loc) (v : W32) : State :=
  let s := dropHalf s l
  modPcie s (fun p => { p with halves := p.halves ++ [(halfKey l, v)] })

/-! ### Mailboxes (Tables 11-1 to 11-4, R470, R471) -/

/-- The opcodes of Table 11-8. -/
def knownOpcodes : List Nat :=
  [0x0100, 0x0101, 0x0110, 0x0111, 0x0112, 0x0113, 0x0114, 0x0120, 0x0121, 0x0122, 0x0123, 0x0124, 0x0125] ++
  [0x0200, 0x0201, 0x0202, 0x0203, 0x0204, 0x0210, 0x0211, 0x0212, 0x0213, 0x0214, 0x0215] ++
  [0x0300, 0x0301, 0x0302, 0x0303, 0x0304, 0x0305, 0x0306, 0x0400, 0x0401, 0x0402, 0x0403, 0x0500, 0x0501, 0x0502, 0x0503] ++
  [0x0600, 0x0601, 0x0602, 0x0603, 0x0604, 0x0605, 0x0700, 0x0701, 0x0702, 0x0703] ++
  [0x0800, 0x0801, 0x0802, 0x0803, 0x0804, 0x0805, 0x0806, 0x0900, 0x0901, 0x0902, 0x0A00, 0x0A01, 0x0A02] ++
  [0x0B00, 0x0B01, 0x0B02, 0x0C00, 0x0C01, 0x0C02, 0x0C03, 0x0C04, 0x0D00, 0x0D01, 0x0D02, 0x0D03]

/-- Commands whose rows leave out a reserved value of one field (PORT_CONTROL and SCRUB_CONTROL ACTION, SBT_TENANT_SET OP, CACHE_MAINT OP):
the field's offset in the parameters, whether it holds such a value, and the length the layout gives. -/
def reservedCode (op : Nat) (p : List Byte) : Option (Nat × Bool × Nat) :=
  match op with
  | 0x0111 => some (2, decide (1 < leField p 2 1), 3)
  | 0x0121 => some (2, decide (1 < leField p 2 1), 24 + 4 * leField p 3 1)
  | 0x0214 => some (2, decide (2 < leField p 2 1), 3)
  | 0x0803 => some (0, decide (8 ≤ bits (leField p 0 1) 3 0), 16)
  | _ => none

/-- The answer to a command that holds such a value (Table 11-6, R578). -/
def codeStatus (s : State) (mb op : Nat) (area : List Byte) : Option (Status × Nat) :=
  match reservedCode op (area.drop 16) with
  | some (off, true, len) =>
    let hdr := (List.range' 8 8).find? (fun i => leField area i 1 != 0)
    let paramLen := leField area 2 2
    some (if mb ≠ 0 ∧ op ≠ 0x0803 then (0x0101, 0)
      else if s.hk.closing then (0x0102, 0)
      else match hdr with
        | some i => (0x0002, 0x80000000 + i)
        | none => if paramLen ≠ len then (0x0002, min paramLen len)
          else if op = 0x0214 ∧ 63 < leField area 16 2 then (0x0002, 0) else (0x0002, off))
  | _ => none

/-- GO with no command running (R470, R471): answered at once while firmware is not up, for an opcode of no command, or for a reserved
value that no row carries (Table 11-6), else BUSY until the command's own row executes it. -/
def goIdle (s : State) (mb : Nat) : State :=
  let m := getMbx s mb
  let op := leNat (Mem.bytes m.area 0 2)
  let m := { m with busy := true, done := false, cmdId := BitVec.ofNat 32 (leNat (Mem.bytes m.area 4 4)),
                    running := some .waiting, objs := [], ticket := s.nextId, orphan := false }
  let s := setMbx (bump s) mb m
  if !fwUp s then mbxFinish s mb 0x0103 0 []
  else if !knownOpcodes.contains op then mbxFinish s mb 0x0001 0 []
  else match codeStatus s mb op (Mem.bytes m.area 0 32) with
    | some (st, d) => mbxFinish s mb st d []
    | none => s

/-- A write to a mailbox. -/
def writeMbx (s : State) (mb off : Nat) (v : W32) : State :=
  let m := getMbx s mb
  if off < 0xC00 then
    if m.busy && !m.orphan then setMbx s mb { m with writeIgnored := true }
    else setMbx s mb { m with area := Mem.paste m.area off 4 (Mem.ofList (leBytes 4 v.toNat)) }
  else if off = 0xFF0 then
    if m.busy then doorbell s mb v else if bit v.toNat 0 then goIdle s mb else s
  else if off = 0xFF4 then
    resend (setMbx s mb { m with
      done := m.done && !bit v.toNat 2, overrun := m.overrun && !bit v.toNat 3, writeIgnored := m.writeIgnored && !bit v.toNat 4 }) mb 6
  else s

/-! ### Rings (Tables 10-12, 10-13, R463, R465) -/

/-- SQ_BASE or SQ_HEADWORD. -/
def writeSq64 (s : State) (n off : Nat) (v : BitVec 64) : State :=
  let q := getSq s n
  let base := if off = 0x00 then BitVec.ofNat 64 (v.toNat / 4096 * 4096) else q.base
  let head := if off = 0x08 then BitVec.ofNat 64 (v.toNat / 8 * 8) else q.headword
  if (q.active || q.draining) && (base != q.base || head != q.headword) then setSq s n { q with writeIgnored := true }
  else setSq s n { q with base := base, headword := head }

/-- The 32-bit registers of an SQ. -/
def writeSq32 (s : State) (n off : Nat) (v : Nat) : State :=
  let q := getSq s n
  match off with
  | 0x10 => writeSqCtl s n v
  | 0x14 => setSq s n { q with
      fetchStop := q.fetchStop && !bit v 3, formatErr := q.formatErr && !bit v 4, writeIgnored := q.writeIgnored && !bit v 5 }
  | 0x18 =>
    let h := bits v 15 0
    let w := bit v 16
    if (q.en || q.draining) && (h != q.posHead || w != q.posWrap) then setSq s n { q with writeIgnored := true }
    else setSq s n { q with posHead := h, posWrap := w }
  | 0x1C => setSq s n { q with weight := bits v 5 0, burst := bits v 12 8 }
  | _ => s

def writeCq64 (s : State) (n : Nat) (v : BitVec 64) : State :=
  let q := getCq s n
  let base := BitVec.ofNat 64 (v.toNat / 4096 * 4096)
  if q.active && base != q.base then setCq s n { q with writeIgnored := true } else setCq s n { q with base := base }

/-- The 32-bit registers of a CQ. -/
def writeCq32 (s : State) (n off : Nat) (v : Nat) : State :=
  let q := getCq s n
  match off with
  | 0x08 => writeCqCtl s n v
  | 0x0C =>
    if q.active && (bits v 7 0 != q.aggCount || bits v 23 8 != q.aggTime) then setCq s n { q with writeIgnored := true }
    else setCq s n { q with aggCount := bits v 7 0, aggTime := bits v 23 8 }
  | 0x10 => setCq s n { q with
      bpSeen := q.bpSeen && !bit v 2, headErr := q.headErr && !bit v 3, writeIgnored := q.writeIgnored && !bit v 4 }
  | _ => s

/-! ### Windows (Tables 9-13, 9-15, R423-R426) -/

def pageMask : W32 := 0x3FFFF000

/-- WIN_CTL_SH: ACCESS 0 with EN set is a reserved encoding and leaves ACCESS as it was (R14). -/
def ctlShadow (old v : W32) : W32 :=
  let x := v &&& 0xFFFF000F#32
  if x.getLsbD 0 && x &&& 6#32 == 0 then x ||| (old &&& 6#32) else x

def modShadow (s : State) (n : Nat) (f : WinRegs → WinRegs) : State := modWindow s n (fun w => { w with sh := f w.sh })

/-- The 32-bit registers of a window. -/
def writeWin32 (s : State) (fn n off : Nat) (v : W32) : State :=
  match off with
  | 0x00 => directWindow s fn n
  | 0x04 => directWindow s fn n
  | 0x10 => directWindow s fn n
  | 0x14 =>
    resend (modWindow s n (fun w =>
      { w with directWrite := w.directWrite && !v.getLsbD 1, dropped := w.dropped && !v.getLsbD 2
               commitErr := w.commitErr && !v.getLsbD 3, readRefused := w.readRefused && !v.getLsbD 4 })) (winOwner s n) 4
  | 0x18 => if v.getLsbD 0 then commitWindow s n else s
  | 0x20 => modShadow s n (fun w => { w with base := v &&& pageMask })
  | 0x24 => modShadow s n (fun w => { w with limit := v &&& pageMask })
  | 0x30 => modShadow s n (fun w => { w with ctl := ctlShadow w.ctl v })
  | _ => s

/-- WIN_TARGET_SH: TILE and OFFSET; a write of the active WIN_TARGET is a direct write (R426). -/
def writeWin64 (s : State) (fn n off : Nat) (v : BitVec 64) : State :=
  if off = 0x28 then modShadow s n (fun w => { w with target := v &&& 0x00000001FFFFF007#64 }) else directWindow s fn n

/-! ### The device register block (Table 9-6) -/

/-- The registers every function has: INT_MASK, INT_VEC and REQ_STATUS. -/
def writeLocal (s : State) (fn off : Nat) (v : Nat) : State :=
  if off = 0x104 then
    modFunc s fn (fun f =>
      { f with intMask := if fn = 0 then BitVec.ofNat 7 v else BitVec.ofNat 7 (field 4 (bits v 6 4) + bits f.intMask.toNat 3 0) })
  else if 0x140 ≤ off ∧ off < 0x160 then
    let x := if fn = 0 then bits v 10 0 else bits v 5 0
    modFunc s fn (fun f => { f with intVec := f.intVec.set ((off - 0x140) / 4) (BitVec.ofNat 11 x) })
  else if off = 0x500 then
    resend (modFunc s fn (fun f => { f with reqStatus := f.reqStatus &&& ~~~(BitVec.ofNat 5 v) })) fn 5
  else s

/-- FAULT_STATUS (Table 12-6). -/
def writeFaultStatus (s : State) (v : Nat) : State :=
  let j := s.jade
  resend { s with jade := { j with
    f1Seen := j.f1Seen && !bit v 0, f3Seen := j.f3Seen && !bit v 2, escalated := j.escalated && !bit v 3
    queueFull := j.queueFull && !bit v 4, ackErr := j.ackErr && !bit v 5, hwdog := j.hwdog && !bit v 6
    prevF4 := j.prevF4 && !bit v 7, prevFreeze := j.prevFreeze && !bit v 8 } } 0 0

/-- ALIVE_CTL (Table 12-11): a watchdog enabled starts to run. -/
def writeAliveCtl (s : State) (v : Nat) : State :=
  let j := s.jade
  let en := bit v 2
  let ms := bits v 29 16
  { s with jade := { j with
    hwdogEn := en, hwdogMs := if 10 ≤ ms ∧ ms ≤ 10000 then ms else j.hwdogMs
    hwdogRunning := if en && !j.hwdogEn then true else if en then j.hwdogRunning else false } }

/-- HK_STATUS and HK_FAULTS (Table 13-11). -/
def writeHkStatus (s : State) (v : Nat) : State :=
  let h := s.hk
  resend { s with hk := { h with
    warn := h.warn && !bit v 0, throttle := h.throttle && !bit v 1, rise := h.rise && !bit v 2
    channel := h.channel && !bit v 3, prevShutdown := h.prevShutdown && !bit v 4 } } 0 1

def writeHkFaults (s : State) (v : Nat) : State :=
  let h := s.hk
  { s with hk := { h with
    volt := h.volt &&& ~~~(BitVec.ofNat 8 v), osc := h.osc &&& ~~~(BitVec.ofNat 8 (v / 256))
    sensor := h.sensor &&& ~~~(BitVec.ofNat 8 (v / 65536)) } }

/-- HK_CHAN_SEL: channels 24 to 31 are reserved encodings. -/
def writeChanSel (s : State) (v : Nat) : State :=
  { s with hk := { s.hk with selTile := bits v 2 0, selChan := if bits v 12 8 < 24 then bits v 12 8 else s.hk.selChan } }

/-- EPOCH_STATUS (Table 2-10). -/
def writeEpochStatus (s : State) (v : Nat) : State :=
  resend (modMoon s (fun m =>
    { m with
      rephased := m.rephased && !bit v 8, masterConflict := m.masterConflict && !bit v 9, epochBehind := m.epochBehind && !bit v 10
      sealDone := m.sealDone && !bit v 11, sealFailed := m.sealFailed && !bit v 12, breakSeen := m.breakSeen && !bit v 13 })) 0 2

/-- CACHE_STATUS (Table 6-13). -/
def writeCacheStatus (s : State) (v : BitVec 64) : State :=
  let c := s.cache
  resend { s with cache := { c with
    staleRisk := c.staleRisk && !v.getLsbD 1, retiredSeen := c.retiredSeen && !v.getLsbD 3, lowLines := c.lowLines && !v.getLsbD 4
    ueSeen := c.ueSeen && !v.getLsbD 5, writeIgnored := c.writeIgnored && !v.getLsbD 6 } } 0 3

/-- A 32-bit register of the block. -/
def writeBlock (s : State) (off : Nat) (v : W32) : State :=
  let n := v.toNat
  match off with
  | 0x200 => writeFaultStatus s n
  | 0x204 => ackFault s v
  | 0x208 =>
    let ms := bits n 13 0
    if 1 ≤ ms ∧ ms ≤ 10000 then { s with jade := { s.jade with escMs := ms } } else s
  | 0x300 => writeAliveCtl s n
  | 0x304 => kick s
  | 0x380 => writeHkStatus s n
  | 0x3B0 => writeHkFaults s n
  | 0x3B4 => writeChanSel s n
  | 0x408 => writeEpochStatus s n
  | 0x480 => writeCacheCtl s v
  | _ => writeLocal s 0 off n

/-! ### Writes by width (R15, R16) -/

/-- One 32-bit register written. -/
def write32 (s : State) (fn : Nat) (l : Loc) (v : W32) : State :=
  match l with
  | .block off => writeBlock s off v
  | .local_ f off => writeLocal s f off v.toNat
  | .jet off => if off = 0x10000 then writeCursor s v else s
  | .mbx m off => writeMbx s m off v
  | .sqDb n => if sqReach s fn n then startScan s n else s
  | .cqDb n => if cqReach s fn n then cqHeadDb s n v.toNat else s
  | .sq n off => if tileUp s (sqTile s n) then writeSq32 s n off v.toNat else s
  | .cq n off => if tileUp s (cqTile s n) then writeCq32 s n off v.toNat else s
  | .win n off => writeWin32 s fn n off v

/-- One 64-bit register written whole. -/
def write64 (s : State) (fn : Nat) (l : Loc) (v : BitVec 64) : State :=
  match l with
  | .block off => if off = 0x488 then writeCacheStatus s v else s
  | .sq n off => if tileUp s (sqTile s n) then writeSq64 s n off v else s
  | .cq n _ => if tileUp s (cqTile s n) then writeCq64 s n v else s
  | .win n off => writeWin64 s fn n off v
  | _ => s

/-- The lower half that an upper-half write takes when none is held: RW fields as they stand, W1C bits zero. -/
def lowerNow (s : State) (l : Loc) : W32 :=
  match l with
  | .sq n off => BitVec.ofNat 32 (readSq s n off)
  | .cq n off => BitVec.ofNat 32 (readCq s n off)
  | .win n off => BitVec.ofNat 32 (readWin s n off)
  | _ => 0

/-- A word written, which may be half of a 64-bit register (R16). -/
def writeWord (s : State) (fn : Nat) (l : Loc) (v : W32) : State :=
  if wide l then holdHalf s l v
  else if upperHalf l then
    let lo := (heldHalf s (lower l)).getD (lowerNow s (lower l))
    write64 (dropHalf s (lower l)) fn (lower l) (v ++ lo)
  else write32 s fn l v

/-- A write of a BAR 0 (R15): naturally aligned words and pairs of words; any other is discarded. A whole write of a 64-bit register
takes effect at once and drops a lower half held for it (DESIGN CHOICE, log entry 118: R16 says only that the half is held until the next
upper-half write). -/
def writeReg (s : State) (fn off width : Nat) (v : BitVec 64) : State :=
  let at_ (s : State) (o : Nat) (w : W32) : State := match locate s fn o with
    | some l => writeWord s fn l w
    | none => s
  if width = 4 ∧ off % 4 = 0 then at_ s off (v.setWidth 32)
  else if width = 8 ∧ off % 8 = 0 then
    match locate s fn off with
    | some l =>
      if wide l then write64 (dropHalf s l) fn l v
      else at_ (writeWord s fn l (v.setWidth 32)) (off + 4) ((v >>> 32).setWidth 32)
    | none => at_ s (off + 4) ((v >>> 32).setWidth 32)
  else s

/-! ### Configuration space and the MSI-X table (R393, R403, R408, R410, R411, R415, R430) -/

/-- A field of configuration space written; a reserved encoding leaves it as it was (R14, R411). -/
def writeCfg (s : State) (fn : Nat) (f : CfgField) (v : Nat) : State :=
  match f with
  | .maxPayload => if v % 8 < 6 then modFunc s fn (fun x => { x with mps := 128 * 2 ^ (v % 8) }) else s
  | .maxReadRequest => if v % 8 < 6 then modFunc s fn (fun x => { x with mrrs := 128 * 2 ^ (v % 8) }) else s
  | .relaxedOrdering => modFunc s fn (fun x => { x with relaxed := bit v 0 })
  | .tag10 => pumpHost (modFunc s fn (fun x => { x with tag10 := bit v 0 }))
  | .completionTimeout => if (ctoNs? (v % 16)).isSome then modFunc s fn (fun x => { x with cto := v % 16 }) else s
  | .atsEnable => pumpHost (modFunc s fn (fun x => { x with ats := bit v 0 }))
  | .pmeEnable => modFunc s fn (fun x => { x with pmeEn := bit v 0 && fn == 0 })
  | .pmeStatus => modFunc s fn (fun x => { x with pmeStatus := x.pmeStatus && !bit v 0 })
  | .msixEnable => sendHeld (modFunc s fn (fun x => { x with msixEnable := bit v 0 })) fn
  | .msixMask => sendHeld (modFunc s fn (fun x => { x with msixMask := bit v 0 })) fn
  | .vfBar2Size => if fn = 0 ∧ 10 ≤ v % 64 ∧ v % 64 ≤ 16 then modPcie s (fun p => { p with vfBar2Gib := 2 ^ (v % 64 - 10) }) else s

/-- Vectors of a function (R404). -/
def vectors (fn : Nat) : Nat := if fn = 0 then 2048 else 64

/-- The Vector Control of an MSI-X vector written: bit 0 masks it, and a pending message of an unmasked vector is sent (R403). -/
def writeVector (s : State) (fn k v : Nat) : State :=
  if k < vectors fn then
    sendHeld (modFunc s fn (fun x => { x with vecOpen := if bit v 0 then x.vecOpen.filter (· != k) else addOnce x.vecOpen k })) fn
  else s

/-- REGISTER_WRITE (R10): BAR 0 and BAR 4 in D0, configuration space in D1 and D3hot too (Table 9-17). -/
def execRegisterWrite (fn : Nat) (p : RegPlace) (width : Nat) (v : BitVec 64) (s : State) : Result :=
  if !(running s && fnExists s fn) then .next s
  else match p with
    | .bar0 off => if canDma s fn then done (writeReg s fn off width v) else .next s
    | .config f => if s.pcie.linkUp && s.pins.perstN && tileUp s 0 then done (writeCfg s fn f v.toNat) else .next s
    | .vector k => if canDma s fn then done (writeVector s fn k v.toNat) else .next s

end Sys2Proof.Machine
end

