-- ==== Sys2Proof/Machine/Housekeeping.lean ====
section
/-! DEFINITION. Carnelian: conversions, rounds, channel faults, thermal levels, the throttle sequence, shutdown and the operational
power states (chapter 13). -/

namespace Sys2Proof.Machine

/-! ### Readings (Table 13-1) -/

/-- The last reading of a channel, signed. -/
def HkSlice.reading (x : HkSlice) (c : Nat) : Int := (Tab.getD x.readings c 0).toInt

/-- CHANNEL_CONVERSION (R530): the channels follow one another in order; channel 23 reads as zero. -/
def execChannelConversion (tile : Nat) (v : BitVec 16) (s : State) : Result :=
  let x := getSlice s tile
  if fwUp s && tileUp s tile && decide (x.next < 24) then
    done (setSlice s tile { x with readings := Tab.set x.readings x.next (if x.next = 23 then 0 else v), next := x.next + 1 })
  else .next s

/-- An element put in its place in a rising list. -/
def insertInt (a : Int) : List Int → List Int
  | [] => [a]
  | b :: l => if a ≤ b then a :: b :: l else b :: insertInt a l

def sortInts (l : List Int) : List Int := l.foldr insertInt []

/-- Twice the median: the two middle readings together. -/
def medianTwice (l : List Int) : Int :=
  let m := sortInts l
  m.getD ((m.length - 1) / 2) 0 + m.getD (m.length / 2) 0

/-- Diodes not excluded. -/
def HkSlice.diodes (x : HkSlice) : List Nat := (List.range 8).filter (fun c => !x.excluded.contains c)

/-- A diode outside −40 °C to 150 °C, or more than 20 °C from the median of the diodes in use. -/
def diodeBad (x : HkSlice) (c : Nat) : Bool :=
  let v := x.reading c
  let m := medianTwice (x.diodes.map x.reading)
  decide (v < -160) || decide (600 < v) || decide (160 < 2 * v - m) || decide (2 * v - m < -160)

/-- Rails by channel, in mV (Tables 13-1, 14-8). -/
def railMv (c : Nat) : Nat :=
  match c with
  | 8 => 750
  | 9 => 800
  | 10 => 1000
  | 11 => 900
  | 12 => 1200
  | 13 => 1800
  | 14 => 1100
  | 15 => 400
  | _ => 3300

def voltChannels : List Nat := [8, 9, 10, 11, 12, 13, 14, 15, 20]

/-- A reading further from `nominal` than `num / den` of it. -/
def outside (v : Int) (nominal num den : Nat) : Bool := decide (num * nominal < den * (v - (nominal : Int)).natAbs)

/-- ±5 %, ±8 %. -/
def volt5 (x : HkSlice) (c : Nat) : Bool := outside (x.reading c) (railMv c) 5 100
def volt8 (x : HkSlice) (c : Nat) : Bool := outside (x.reading c) (railMv c) 8 100

/-- Oscillators in 0.1 ppm, the bandgap in mV; channel 19 without its SD_REFCLK (R569). -/
def oscBad (x : HkSlice) (refclk : Bool) (c : Nat) : Bool :=
  let v := (x.reading c).natAbs
  match c with
  | 17 => decide (20 < v)
  | 18 => outside (x.reading 18) Config.bandgapMv.toNat 5 1000
  | 19 => !refclk || decide (1000 < v)
  | _ => decide (1000 < v)

/-! ### The end of a round (R530-R536) -/

/-- The largest of the readings `f` gives for a list of diodes, and the first diode that has it. -/
def hottest (f : Nat → Int) : List Nat → Option (Nat × Int)
  | [] => none
  | c :: l =>
    match hottest f l with
    | some (d, v) => if v ≤ f c then some (c, f c) else some (d, v)
    | none => some (c, f c)

/-- The rise of a diode over `n` rounds; none before so many rounds have passed. -/
def HkSlice.riseOver (x : HkSlice) (n c : Nat) : Option Int := (x.past[n - 1]?).map (fun l => x.reading c - l.getD c 0)

/-- A correction of R532 in 64ths: c0 + c1·(T − 25) + c2·(T − 25)², with T from twice a reading in 0.25 °C units. -/
def correction (k : Int × Int × Int) (twice : Int) : Int := 64 * k.1 + 8 * k.2.1 * (twice - 200) + k.2.2 * ((twice - 200) * (twice - 200))

/-- The trims of the three references (R532, Table 13-3). -/
def trimmed (x : HkSlice) (tile : Nat) : List Int :=
  if x.diodes.isEmpty then x.trims
  else
    ([6, 7, 3].zip [0, 1, 2]).map (fun e =>
      correction (Config.trimCoeff tile e.2)
        (if x.diodes.contains e.1 then 2 * x.reading e.1 else medianTwice (x.diodes.map x.reading)))

/-- A slice after its round: diodes excluded, healthy channels, temperature, rise, alarm and trims. -/
def closeRound (x : HkSlice) (tile tWarn : Nat) (refclk : Bool) : HkSlice :=
  let bad := x.diodes.filter (diodeBad x)
  let y := { x with excluded := x.excluded ++ bad }
  let rises := y.diodes.map (fun c => (x.riseOver 8 c).getD 0)
  let top := (hottest x.reading y.diodes).getD (x.diode, x.temp)
  { y with
    next := 0
    healthy := y.diodes ++ voltChannels.filter (fun c => !volt5 x c) ++ [16, 17, 18, 19].filter (fun c => !oscBad x refclk c) ++ [21, 22]
    voltBad := voltChannels.filter (volt5 x)
    temp := top.2, diode := top.1
    rise := (rises.foldl max 0).toNat
    good := y.diodes.length
    alarm := y.diodes.any (fun c => decide (4 * (tWarn : Int) ≤ x.reading c) && decide (24 ≤ (x.riseOver 8 c).getD 0))
    trims := trimmed y tile
    past := (((List.range 8).map x.reading) :: x.past).take 8 }

/-- A rise of more than 6.1 °C in one round on a healthy diode (R537). -/
def fastRise (x : HkSlice) : Bool :=
  let bad := x.diodes.filter (diodeBad x)
  (x.diodes.filter (fun c => !bad.contains c)).any (fun c => decide (25 ≤ (x.riseOver 1 c).getD 0))

/-- The channel faults of a round (Table 13-2), in channel order. -/
def roundFaults (x : HkSlice) (tile : Nat) (refclk : Bool) : List FaultArg :=
  let bad := x.diodes.filter (diodeBad x)
  let few := decide (4 ≤ x.diodes.length) && decide (x.diodes.length - bad.length < 4)
  bad.map (fun c => { code := 0x7009, cls := 2, src := srcCarnelian tile c }) ++
    (if few then [{ code := 0x7009, cls := 3, src := srcCarnelian tile (bad.getLastD 0) }] else []) ++
    (voltChannels.filter (volt5 x)).map (fun c =>
      if volt8 x c || x.voltBad.contains c then { code := 0x7008, cls := 3, src := srcCarnelian tile c }
      else { code := 0x7007, cls := 2, src := srcCarnelian tile c }) ++
    ([16, 17, 18, 19].filter (oscBad x refclk)).map (fun c => { code := 0x700A, cls := 2, src := srcCarnelian tile c })

/-- HK_FAULTS bits of a round, and CHANNEL with them (Table 13-11). -/
def markFaults (h : Hk) (x : HkSlice) (tile : Nat) (refclk : Bool) : Hk :=
  let b : BitVec 8 := 1#8 <<< tile
  let v := voltChannels.any (volt5 x)
  let o := [16, 17, 18, 19].any (oscBad x refclk)
  let d := x.diodes.any (diodeBad x)
  { h with
    volt := if v then h.volt ||| b else h.volt
    osc := if o then h.osc ||| b else h.osc
    sensor := if d then h.sensor ||| b else h.sensor
    channel := h.channel || v || o || d }

/-! ### Power-down (R541-R543) -/

/-- The tiles power-gated: links, PCIe and partner links down, the bypass closed, ALIVE low, training lost (Table 13-6, R112,
R513). -/
def powerGate (s : State) (p : Phase) : State :=
  { s with
    phase := p
    pins := { bypassPins s true with alive := false }
    moon := { s.moon with trained := false }
    links := s.links.map (fun (e : Nat × Link) => (e.1, { e.2 with up := false }))
    partners := s.partners.map (fun (e : Nat × Partner) => (e.1, { e.2 with up := false }))
    pcie := { s.pcie with linkUp := false }
    jade := { s.jade with aliveRunning := false }
    hk := { s.hk with closing := false, toD3cold := false, auxTemp := BitVec.ofInt 11 (getSlice s 0).temp } }

/-- Powered, with clocks or not: the trip comparators act. -/
def powered (s : State) : Bool :=
  match s.phase with
  | .boot => true
  | .replay => true
  | .ready => true
  | _ => false

/-- An immediate power-down (R542): cause 2 Trip, 3 fast rise. -/
def powerDown (s : State) (tile diode cause : Nat) : State :=
  let s := powerGate { s with hk := { s.hk with storedCause := cause } } .shutdown
  jetRec { s with jade := { s.jade with f1Seen := true } } 0x7006 (srcCarnelian tile diode) 1 false false []

/-- TRIP_COMPARATOR (R537): F4 and freeze do not stop it; an excluded diode is ignored. -/
def execTripComparator (tile diode : Nat) (s : State) : Result :=
  if powered s && decide (tile < s.part.tiles) && decide (diode < 8) && !(getSlice s tile).excluded.contains diode then
    done (powerDown s tile diode 2)
  else .next s

/-- A pending power-state entry abandoned (Table 13-6). -/
def dropPsEntry (s : State) : State :=
  match s.hk.psPending with
  | some (_, mb) => mbxFinish { s with hk := { s.hk with psPending := none } } mb 0x0005 0 []
  | none => s

/-- Step 1 of the orderly shutdown (Table 13-6): intake and self-tests stop. -/
def beginClose (s : State) : State :=
  let s := dropPsEntry { s with hk := { s.hk with closing := true } }
  s.tests.foldl (fun s e => abortTest s e.1.1 e.1.2) s

/-- A tile's journal closed (Table 13-6 step 3): every record in progress committed, a head slot written. A DATA record whose data has
not all come has no header and stays none (R164). -/
def closeJournal (s : State) (t : Nat) : State :=
  modAmber s t (fun a =>
    let recs := (a.recs.dropWhile RingRec.passed).map (fun r =>
      if r.open_ then r else { written s t r with committed := !r.partnerWait })
    let h := match recs with
      | r :: _ => (r.r.seq, r.off)
      | [] => (a.nextSeq, a.tail)
    ({ a with recs := recs } : Amber).writeHead h.1 h.2)

/-- SHUTDOWN_CLOSE (Table 13-6 steps 3 and 4, R429). -/
def execShutdownClose (s : State) : Result :=
  if !(running s && s.hk.closing) then .next s
  else
    let s := (s.sbt.conns.map connIdOf).foldl (fun s id => closeConn s id 3) s
    let s := s.live.foldl endLive s
    let s := (upTiles s).foldl writeStore ((upTiles s).foldl closeJournal s)
    if s.hk.toD3cold then done (jetInfo (powerGate s .d3cold) 0x5007 (srcHost 0) [])
    else done (powerGate { s with hk := { s.hk with storedCause := 1 } } .shutdown)

/-- AUX_TEMP_POLL (R543): while the tiles are unpowered or held in reset the aux domain reads T0. -/
def execAuxTempPoll (v : BitVec 11) (s : State) : Result :=
  match s.phase with
  | .boot => .next s
  | .replay => .next s
  | .ready => .next s
  | _ => done { s with hk := { s.hk with auxTemp := v } }

/-- A restart after a thermal shutdown waits until T0's hottest reading is 10 °C below Critical (R543). -/
def tooHot (s : State) : Bool := s.hk.storedCause != 0 && decide (4 * (s.cfg.critical : Int) - 40 < s.hk.auxTemp.toInt)

/-! ### Levels and the throttle sequence (R533-R540) -/

/-- The temperature of the device and where it is read: tile, diode and value. -/
def deviceHot (s : State) : Nat × Nat × Int :=
  match hottest (fun t => (getSlice s t).temp) (upTiles s) with
  | some (t, v) => (t, (getSlice s t).diode, v)
  | none => (0, 0, 0)

/-- Level 1 or 2 reached or not yet left (R533, R535). -/
def atLevel (old n thr : Nat) (v : Int) : Bool := decide (4 * (thr : Int) ≤ v) || (decide (n ≤ old) && decide (4 * (thr : Int) - 12 < v))

def levelOf (h : Hk) (v : Int) : Nat :=
  if atLevel h.level 2 h.tThrottle v then 2 else if atLevel h.level 1 h.tWarn v then 1 else 0

/-- A thermal SLOW to every open or frozen connection whose host request is not the lower (R538, R540). -/
def thermalSlow (s : State) (target grace : Nat) : State :=
  ((s.sbt.conns.filter isLive).filter (fun c => decide (target < (c.hostReq.map (·.target)).getD 256))).foldl
    (fun s c => sendSlow s (connIdOf c) 1 target grace 0) s

/-- The thermal request withdrawn: 256, or the host's TARGET where one stands (R538, R540). `was` is the thermal TARGET. -/
def thermalEnd (s : State) (was : Nat) : State :=
  (s.sbt.conns.filter isLive).foldl (fun s c =>
    match c.hostReq with
    | none => sendSlow s (connIdOf c) 1 256 0 0
    | some r => if r.target ≤ was then s else sendSlow s (connIdOf c) 2 r.target 0 (r.left.getD 0)) s

/-- The sequence starts (R538 step 1); the tiles' ring reference rates are those of the epochs before (R539, R346). -/
def startThrottle (s : State) (src : BitVec 16) : State :=
  let s := { s with hk := { s.hk with
    throttle := true, running := true, target := 192, graceEnd := s.clock + 1000000 * s.hk.graceMs, roundsAt := 0 } }
  let s := modTiles s (fun _ x => { x with arb := { x.arb with refRate := refRateOf x.arb.bytesPast } })
  jetInfo (thermalSlow s 192 (1000 * s.hk.graceMs)) 0x7002 src []

/-- A round at Throttle (R538 step 3): TARGET falls after every eighth. -/
def countRound (s : State) : State :=
  if s.hk.roundsAt + 1 < 8 then { s with hk := { s.hk with roundsAt := s.hk.roundsAt + 1 } }
  else
    let t := max 64 (s.hk.target - 32)
    let s' := { s with hk := { s.hk with roundsAt := 0, target := t } }
    if t = s.hk.target then s' else thermalSlow s' t 0

/-- The throttle sequence at a round end: `count` says the round counts for step 3. -/
def throttleRound (s : State) (count : Bool) (src : BitVec 16) : State :=
  let alarm := (upTiles s).any (fun t => (getSlice s t).alarm)
  if !s.hk.running then (if s.hk.level = 2 ∨ alarm then startThrottle s src else s)
  else if s.hk.level < 2 ∧ !alarm then
    let was := s.hk.target
    jetInfo (thermalEnd { s with hk := { s.hk with running := false, target := 256 } } was) 0x7004 src []
  else if s.hk.level = 2 ∧ count then countRound s
  else s

/-- The levels after a round (Table 13-4). -/
def levelRound (s : State) : State :=
  let (t, d, v) := deviceHot s
  let src := srcCarnelian t d
  let old := s.hk.level
  let new := levelOf s.hk v
  let s := { s with hk := { s.hk with level := new } }
  let s := if old = 0 ∧ 0 < new then wakeEvent (jetInfo { s with hk := { s.hk with warn := true } } 0x7001 src []) else s
  let s := if old < 2 ∧ new = 2 then wakeEvent s else s
  if 4 * (s.hk.tCritical : Int) ≤ v ∧ !s.hk.closing then fault0 (beginClose (wakeEvent s)) 0x7005 1 src else s

/-- ROUND_END of a tile (R530-R538). -/
def execRoundEnd (tile : Nat) (s : State) : Result :=
  let x := getSlice s tile
  if !(fwUp s && tileUp s tile && x.next == 24) then .next s
  else
    let refclk := s.pins.sdRefclk.getD (tile / 2) false
    let s := { s with hk := { s.hk with
      tWarn := s.cfg.warn, tThrottle := s.cfg.throttle, tCritical := s.cfg.critical, graceMs := s.cfg.graceMs
      rounds := if tile = 0 then s.hk.rounds + 1 else s.hk.rounds } }
    let s := { s with hk := markFaults s.hk x tile refclk }
    let s := setSlice s tile (closeRound x tile s.hk.tWarn refclk)
    if fastRise x then done (powerDown s tile (getSlice s tile).diode 3)
    else
      let s := (roundFaults x tile refclk).foldl fault s
      if s.jade.f4 then done s
      else
        let s := if (getSlice s tile).alarm && !x.alarm then
            fault0 { s with hk := { s.hk with rise := true } } 0x7003 1 (srcCarnelian tile (getSlice s tile).diode)
          else s
        let src := srcCarnelian (deviceHot s).1 (deviceHot s).2.1
        let s := levelRound s
        if s.hk.closing then done s
        else done (throttleRound s ((upTiles s).head? == some tile) src)

/-! ### PS2 (R546) -/

/-- PS2_WAKE: work wakes the device. -/
def execPs2Wake (s : State) : Result :=
  if fwUp s && s.hk.ps == .ps2 && s.hk.ps2Idle then done { s with hk := { s.hk with ps2Idle := false } } else .next s

/-- PS2_IDLE: 1 ms without work. -/
def execPs2Idle (s : State) : Result :=
  if fwUp s && s.hk.ps == .ps2 && !s.hk.ps2Idle && idleNow s then done { s with hk := { s.hk with ps2Idle := true } } else .next s

end Sys2Proof.Machine
end

