-- ==== Sys2Proof/Machine/Jtag.lean ====
section
/-! DEFINITION. The JTAG port (R528, R529, Table 12-16): each row is one instruction scan and one data scan, answered on TDO with
bit 0 first. -/

namespace Sys2Proof.Machine

/-- The TAP is powered: T0's core domain (Table 14-6). -/
def tapUp (s : State) : Bool :=
  match s.phase with
  | .off => false
  | .d3cold => false
  | .shutdown => false
  | _ => true

/-- The lowest `n` bits of a number, bit 0 first. -/
def lsbFirst (n v : Nat) : List Bool := (List.range n).map (bit v)

/-- An instruction in the register and the bits its data scan shifts out. -/
def scan (s : State) (code : BitVec 8) (bits : List Bool) : State := emit { s with jtag := { s.jtag with ir := code } } (.tdo bits)

/-- An instruction that works only in freeze; outside it selects a 1-bit register that reads as zero (R528). -/
def frzScan (s : State) (code : BitVec 8) (f : State → State) : Result :=
  if !tapUp s then .next s else if s.jade.frozen then done (f s) else done (scan s code [false])

/-- TEST_LOGIC_RESET (R528): IDCODE is selected. -/
def execTestLogicReset (s : State) : Result :=
  if tapUp s then done { s with jtag := { s.jtag with ir := 0x02 } } else .next s

/-! ### Public instructions -/

/-- The boundary register as captured: the order of its cells is not given, so what it shifts out is free. -/
def captured (s : State) (n : Nat) : List Bool := (List.range n).map (Config.freeBit s.freeIx)

/-- The boundary register scanned: captured bits out, `tdi` in. -/
def scanBoundary (s : State) (code : BitVec 8) (tdi : List Bool) : State :=
  let s := scan s code (captured s tdi.length)
  drawn { s with jtag := { s.jtag with boundary := tdi } }

/-- EXTEST (Table 12-16). -/
def execExtest (tdi : List Bool) (s : State) : Result := if tapUp s then done (scanBoundary s 0x00 tdi) else .next s

/-- SAMPLE/PRELOAD (Table 12-16). -/
def execSamplePreload (tdi : List Bool) (s : State) : Result := if tapUp s then done (scanBoundary s 0x01 tdi) else .next s

/-- The 32 bits of IDCODE. -/
def idcodeWord (p : Part) : Nat := 1 + field 1 0x5A3 + field 12 (deviceId p) + field 28 Config.stepping.toNat

/-- IDCODE (Table 12-16). -/
def execIdcode (s : State) : Result := if tapUp s then done (scan s 0x02 (lsbFirst 32 (idcodeWord s.part))) else .next s

/-- CLAMP (Table 12-16): the bypass register. -/
def execClamp (s : State) : Result := if tapUp s then done (scan s 0x03 [false]) else .next s

/-- HIGHZ (Table 12-16): the bypass register. -/
def execHighz (s : State) : Result := if tapUp s then done (scan s 0x04 [false]) else .next s

/-! ### Freeze capture -/

/-- FRZ_STATUS (Table 12-16). -/
def frzStatusWord (s : State) : Nat :=
  flag 0 s.jade.frozen + field 1 (tileBits s (fun t => t.clocksStopped)) + flag 9 s.jade.f4

/-- FRZ_STATUS: in every state (R528). -/
def execFrzStatus (s : State) : Result := if tapUp s then done (scan s 0x80 (lsbFirst 32 (frzStatusWord s))) else .next s

/-- FRZ_SELECT: tile and chain; the old selection shifts out. -/
def execFrzSelect (v : BitVec 16) (s : State) : Result :=
  frzScan s 0x81 (fun s =>
    let s := scan s 0x81 (lsbFirst 16 s.jtag.select.toNat)
    { s with jtag := { s.jtag with select := v &&& 0x03FF } })

def Jtag.tile (j : Jtag) : Nat := bits j.select.toNat 2 0
def Jtag.chain (j : Jtag) : Nat := bits j.select.toNat 9 3

/-- Chains of a tile (Table 12-16). -/
def chainsOf (tile : Nat) : Nat := if tile = 0 then 36 else 32

/-- The selected chain exists. -/
def chainThere (s : State) : Bool := decide (s.jtag.tile < s.part.tiles) && decide (s.jtag.chain < chainsOf s.jtag.tile)

/-- The content of the selected chain: what was shifted in before, else the state captured, which no rule lays out. -/
def chainBits (s : State) : List Bool :=
  match s.jtag.chains.find? (fun e => e.1 == (s.jtag.tile, s.jtag.chain)) with
  | some e => e.2
  | none => (List.range (Config.scanChainLength s.jtag.tile s.jtag.chain).toNat).map (Config.freeBit s.freeIx)

/-- FRZ_SHIFT (R529): bits leave the chain as those of TDI enter. -/
def execFrzShift (tdi : List Bool) (s : State) : Result :=
  frzScan s 0x82 (fun s =>
    if !chainThere s then scan s 0x82 [false]
    else
      let l := chainBits s ++ tdi
      let key := (s.jtag.tile, s.jtag.chain)
      let s := drawn (scan s 0x82 (l.take tdi.length))
      { s with jtag := { s.jtag with chains := (key, l.drop tdi.length) :: s.jtag.chains.filter (fun e => e.1 != key) } })

/-- FRZ_MEMADDR: the old address shifts out. -/
def execFrzMemaddr (v : BitVec 64) (s : State) : Result :=
  frzScan s 0x83 (fun s =>
    let s := scan s 0x83 (lsbFirst 64 s.jtag.memaddr.toNat)
    { s with jtag := { s.jtag with memaddr := v } })

/-- A word whose content no rule lays out. -/
def rawBytes (s : State) (tile mem w : Nat) : List Byte := leBytes 32 (Config.rawWord tile mem w s.freeIx).toNat

/-- 32 bytes of an Agate line that holds a row: valid blocks read as data. -/
def lineWord (s : State) (tile w : Nat) : List Byte :=
  let o := 32 * (w % 16384)
  match Tab.get? (getTile s tile).tier.lines (w / 16384) with
  | some l => if l.c.valid.getLsbD (o / 4096) then Mem.bytes l.c.data o 32 else rawBytes s tile 0 w
  | none => rawBytes s tile 0 w

/-- 32 bytes of a list at byte `d`, zeros past its end. -/
def word32 (l : List Byte) (d : Nat) : List Byte := ((l.drop d).take 32 ++ List.replicate 32 0).take 32

/-- The 64 bytes of a head slot (R169, log entry 109). -/
def slotBytes (h : HeadSlot) : List Byte := slotBody h.count h.seq h.off ++ leBytes 4 h.crc.toNat

/-- The bytes of an epoch store (R70, log entry 108). -/
def storeBytes (c : EpochCopy) : List Byte := leBytes 6 c.epoch.toNat ++ leBytes 2 0 ++ leBytes 4 c.crc.toNat

/-- An entry of the retirement list with its CRC (Table 6-11). -/
def retiredBytes (e : RetiredLine) : List Byte :=
  let b := leBytes 1 (e.line + field 6 e.cause) ++ leBytes 1 e.ceCount ++ leBytes 6 e.epoch.toNat ++ leBytes 2 e.offset.toNat ++ leBytes 2 e.word
  b ++ leBytes 4 (crc32c b).toNat

/-- The line retirement list (Table 6-11). -/
def retiredImage (l : List RetiredLine) : List Byte :=
  let b := leBytes 8 ((l.map (fun e => 2 ^ e.line)).foldl (fun a x => a ||| x) 0) ++ leBytes 4 l.length
  b ++ leBytes 4 (crc32c b).toNat ++ leBytes 48 0 ++ l.flatMap retiredBytes

/-- The pools whose rebuild slice a tile holds (R220). -/
def slicePools (s : State) (t : Nat) : List Nat := (s.pools.filter (fun e => e.2.tile == t)).map Prod.fst

/-- The rebuild slice from 0x01F0_0000 on (R220, R237): the progress record of pool p at p × 0x400, the LST entries from 0x01F1_0000 on, pool
after pool (log entry 119). -/
def sliceWord (s : State) (own : Nat) (raw : List Byte) (o : Nat) : List Byte :=
  if o < 0x10000 then
    if (slicePools s own).contains (o / 0x400) then word32 (progressBytes (getPool s (o / 0x400))) (o % 0x400) else raw
  else
    let l := ((slicePools s own).flatMap (fun p => (getPool s p).lst.map (lstBytes p))).take sliceLimit
    let i := (o - 0x10000) / 16
    word32 (((l.drop i).take 2).flatten) 0

/-- 32 bytes of the control areas of a half (Table 4-3). Of the pool journal state no layout is given: its bytes are free. -/
def controlWord (s : State) (own : Nat) (store : EpochCopy) (raw : List Byte) (o : Nat) : List Byte :=
  let x := getTile s own
  if o < 0x01E10000 then
    match Tab.get? x.amber.slots ((o - 0x01E00000) / 64) with
    | some h => word32 (slotBytes h) (o % 64)
    | none => raw
  else if o < 0x01E20000 then raw
  else if o < 0x01E21000 then (if o < 0x01E20020 then word32 (storeBytes store) 0 else raw)
  else if o < 0x01E22000 then word32 (retiredImage x.tier.retired) (o - 0x01E21000)
  else if own = 0 ∧ 0x01E30000 ≤ o ∧ o < 0x01E50000 then
    let i := (o - 0x01E30000) / 32
    jetSlotImage (if i < jetPinned then jetAt s.jet false i else jetAt s.jet true (i - jetPinned))
  else if 0x01F00000 ≤ o then sliceWord s own raw (o - 0x01F00000)
  else raw

/-- 32 bytes of a half of MRAM (Table 4-3) that tile `own` owns, at byte offset `o`: the records written in this copy, a record without its
header as far as its payload has come (R164), and the control areas. -/
def halfWord (s : State) (own : Nat) (there : RingRec → Bool) (store : EpochCopy) (raw : List Byte) (o : Nat) : List Byte :=
  if o < ringBytes then
    match (getTile s own).amber.recs.find? (fun r => (there r || r.open_) && decide ((o + ringBytes - r.off) % ringBytes < recBytes r.r)) with
    | some r =>
      let d := (o + ringBytes - r.off) % ringBytes
      if 64 ≤ d then Mem.bytes r.r.payload (d - 64) 32 else if r.open_ then raw else word32 (recHeader r.r) d
    | none => raw
  else controlWord s own store raw o

/-- 32 bytes of MRAM: own half, and the mirror of the buddy's, byte for byte (R166). -/
def mramWord (s : State) (tile w : Nat) : List Byte :=
  let raw := rawBytes s tile 2 w
  let o := 32 * w
  let b := buddy tile
  if o < 0x02000000 then halfWord s tile (·.own) (getTile s tile).amber.store raw o
  else if o < 0x04000000 then halfWord s b (·.mirror) (getTile s b).amber.storeMirror raw (o - 0x02000000)
  else raw

/-- The word at the readout address. -/
def memWord (s : State) : List Byte :=
  let a := s.jtag.memaddr.toNat
  let t := bits a 2 0
  let m := bits a 6 3
  let w := bits a 63 7
  match m with
  | 0 => lineWord s t w
  | 2 => mramWord s t w
  | _ => rawBytes s t m w

/-- FRZ_MEMDATA: 256 bits, 10 check bits, and the address advances by one word. -/
def execFrzMemdata (s : State) : Result :=
  frzScan s 0x84 (fun s =>
    let a := s.jtag.memaddr.toNat
    let chk := Config.checkBits (bits a 2 0) (bits a 6 3) (bits a 63 7)
    let s := drawn (scan s 0x84 ((memWord s).flatMap (fun b => lsbFirst 8 b.toNat) ++ lsbFirst 10 chk.toNat))
    { s with jtag := { s.jtag with memaddr := s.jtag.memaddr + 128 } })

/-- FRZ_INFO (Table 12-16). -/
def frzInfoWord (s : State) : Nat :=
  chainsOf s.jtag.tile + field 8 (Config.scanChainLength s.jtag.tile s.jtag.chain).toNat + field 32 Config.chainMapId.toNat

/-- FRZ_INFO. -/
def execFrzInfo (s : State) : Result := frzScan s 0x85 (fun s => scan s 0x85 (lsbFirst 64 (frzInfoWord s)))

end Sys2Proof.Machine
end

