-- ==== Sys2Proof/Machine/Reset.lean ====
section
/-! DEFINITION. Power, reset, freeze and boot (R50, R55-R58, R69, R70, R195-R200, R395, R398, R429, R471, R474, R475, R494, R521, R525-R527,
R543, R566-R575). -/

namespace Sys2Proof.Machine

/-! ### What survives a reset (Table 1-7) -/

/-- A record of tile `t`'s ring in MRAM once power or reset has cut it off, with the copies that are whole. Whether a copy still being
written had become whole is free (R565, R570, R176). -/
def keepRec (s : State) (t : Nat) (r : RingRec) : RingRec :=
  let whole (c : Nat) : Bool := Config.freeBit s.freeIx (2 * (8 * r.r.seq + t) + c)
  { r with own := r.own || (tileUp s t && whole 0), mirror := r.mirror || (tileUp s (buddy t) && whole 1), committed := true, partnerWait := false }

/-- A tile after a reset: MRAM alone keeps its content. A record without its header is none (R164). -/
def keepTile (s : State) (t : Nat) (x : Tile) : Tile :=
  { lastBeat := s.clock, tier := { retired := x.tier.retired }
    amber :=
      { recs := ((x.amber.recs.filter (fun r => !r.open_)).map (keepRec s t)).filter (fun r => r.own || r.mirror)
        nextSeq := x.amber.nextSeq, tail := x.amber.tail, head := x.amber.head, slots := x.amber.slots, store := x.amber.store
        storeMirror := x.amber.storeMirror } }

/-- A pool's state after a reset; one whose failure list a ninth failure found full stays offline (R218). -/
def keepPoolState (p : Pool) : PoolState :=
  match p.st with
  | .reserved => .reserved
  | .initialising => .initialising
  | .offline => if p.failList.length = 8 then .offline else .stopped
  | _ => .stopped

/-- A pool after a reset: the rebuild slice, the pool journal state and the member metadata keep theirs (Table 4-3, R224). A new mirror set
whose records had no room yet is sought again (R193), and the zeroing of extents and of a new pool's members begins again. -/
def keepPool (p : Pool) : Pool :=
  { p with
    st := keepPoolState p
    work := none, copyWork := none, scrubWork := none, interlocks := [], interlockWait := [], repairs := [], charged := [0, 0, 0, 0]
    zeroNext := [], recopying := if p.mirrorLost.length = 2 then [] else p.recopying
    lst := p.lst.filter (·.committed), leaseOk := true, disowned := false, importHdr := none, importMb := none }

/-- A volume after a reset: its active map is lost, and a frozen map stays until the next DONE (R111). The map frozen by a seal that the
reset interrupted carries FULL (R200). -/
def keepVolume (v : Vol) : Vol :=
  { home := v.home, activeFull := true, noMap := v.noMap, frozen := match v.freezing with
    | some m => some { m with full := true }
    | none => v.frozen }

/-- A member after a reset: its place in its pool, and what its controller and namespace reported. -/
def keepMember (m : Member) : Member :=
  { st := (if m.st = .lagging then .online else m.st), declared := m.declared, failedIn := m.failedIn, capacity := m.capacity, dlfeat1 := m.dlfeat1 }

/-- A self-test cut off is aborted (R491). -/
def keepTest (t : Test) : Test := if testActive t then { t with st := 5, fetch := none } else t

/-- Jet after a reset: its slots, and the records other domains hold for it (R51, R521). -/
def keepJet (j : Jet) : Jet :=
  { pinned := j.pinned, circ := j.circ, next := j.next, lap := j.lap, lastClear := j.lastClear, keptByT1 := j.keptByT1
    buffer := if j.recording then j.buffer else [], overflow := if j.recording then j.overflow else [] }

/-- Jade after a reset: how the run ended. -/
def keepJade (s : State) : Jade :=
  match s.phase with
  | .off => { prevF4 := s.jade.prevF4, prevFreeze := s.jade.prevFreeze }
  | .held => { prevF4 := s.jade.prevF4, prevFreeze := s.jade.prevFreeze }
  | _ => { prevF4 := s.jade.f4, prevFreeze := s.jade.frozen }

/-- The machine reset and waiting in `phase` (Table 1-7, R112, R513, R514). -/
def afterReset (s : State) (phase : Phase) : State :=
  { tiles := s.tiles.map (fun (e : Nat × Tile) => (e.1, keepTile s e.1 e.2))
    part := s.part, clock := s.clock, freeIx := s.freeIx + 1, nextId := s.nextId, out := s.out, phase := phase
    pins := { bypassPins s true with alive := false, faultN := true, wakeN := true }
    moon := { epoch := s.moon.epoch, edgeAt := s.moon.edgeAt, period := s.moon.period }
    cfg := s.cfg, flash := s.flash
    pools := s.pools.map (fun (e : Nat × Pool) => (e.1, keepPool e.2))
    vols := s.vols.map (fun (e : Nat × Vol) => (e.1, keepVolume e.2))
    members := s.members.map (fun (e : Nat × Member) => (e.1, keepMember e.2))
    jade := keepJade s, jet := keepJet s.jet
    hk := { storedCause := s.hk.storedCause, auxTemp := s.hk.auxTemp }
    tests := s.tests.map (fun (e : (Nat × Nat) × Test) => (e.1, keepTest e.2))
    sec := { fusedSvn := s.sec.fusedSvn }
    pending := s.pending }

/-- PWR_OK_LOSS (R566): in every state, F4 included (R512). -/
def execPwrOkLoss (s : State) : Result :=
  match s.phase with
  | .off => .next s
  | _ =>
    let s := afterReset s .off
    done { s with pins := { s.pins with pwrOk := false } }

/-- SYS_RESET_N_ASSERT (R570): ignored with PWR_OK low and in F4 (R512). -/
def execSysResetNAssert (s : State) : Result :=
  if s.phase == .off || s.jade.f4 then .next s
  else
    let s := afterReset s .held
    done { s with pins := { s.pins with sysResetN := false } }

/-! ### The device start (R573) -/

/-- The slot written next and its LAP as found at power-up (R521). -/
def Jet.find (j : Jet) : Nat × Bool :=
  match (List.range jetCirc).find? (fun i => (Tab.get? j.circ i).isNone) with
  | some i => (i, match Tab.get? j.circ 0 with
    | some r => if i = 0 then true else r.lap
    | none => true)
  | none =>
    match Tab.get? j.circ 0 with
    | none => (0, true)
    | some r0 =>
      match (List.range jetCirc).find? (fun i => (Tab.get? j.circ i).any (fun r => r.lap != r0.lap)) with
      | some i => (i, r0.lap)
      | none => (0, !r0.lap)

/-- Jet at a start: counts found again, then the records kept for it (R521, R523). -/
def startJet (s : State) : State :=
  let held := s.jet.buffer
  let lost := s.jet.overflow
  let late := s.jet.keptByT1
  let at_ := s.jet.find
  let j : Jet := { pinned := s.jet.pinned, circ := s.jet.circ, next := at_.1, lap := at_.2, lastClear := s.jet.lastClear }
  let s : State := { s with jet := held.foldl Jet.store j }
  let s := lost.foldl (fun s e => jetInfo s 0x8006 (srcJade 0) (leBytes 2 e.1 ++ leBytes 4 e.2)) s
  if late.isEmpty then s
  else jetInfo { s with jet := late.foldl Jet.store s.jet } 0x800E (srcJade 0) (leBytes 1 late.length)

/-- Epoch numbers in record headers and Jet records (R70). -/
def recordedEpochs (s : State) : List Nat :=
  s.tiles.flatMap (fun e => e.2.amber.recs.map (fun r => r.r.epoch.toNat)) ++ s.jet.pinned.map (fun r => r.epoch.toNat) ++
    s.jet.circ.map (fun e => e.2.epoch.toNat)

/-- A copy of an epoch store whose CRC agrees with its number (R70). -/
def storeGood (c : EpochCopy) : Bool := c.crc == (epochCopy c.epoch).crc

/-- The copies of the epoch stores on tiles in service: each tile's own, and in its mirror half its buddy's (R70). -/
def storeCopies (s : State) : List EpochCopy :=
  (List.range s.part.tiles).flatMap (fun t =>
    (if tileUp s t then [(getTile s t).amber.store] else []) ++ (if tileUp s (buddy t) then [(getTile s t).amber.storeMirror] else []))

/-- The greatest number of a list, zero for none. -/
def topNat (l : List Nat) : Nat := l.foldl max 0

/-- The number from which the epoch counts on at a start (R69, R70). -/
def startNumber (s : State) : Nat :=
  match (storeCopies s).filter storeGood with
  | [] => topNat (recordedEpochs s) + 2 ^ 24
  | l => topNat (l.map (fun c => c.epoch.toNat)) + 32768

/-- The first edge of a start (R577): the epoch of that number begins there. -/
def startEpoch (s : State) : State := { s with moon := { epoch := BitVec.ofNat 48 (startNumber s), edgeAt := s.clock } }

/-- The root of trust tries a slot: its digest enters the measurement log (R494). -/
def measure (s : State) (i : Nat) : State := { s with sec := { s.sec with measured := s.sec.measured ++ [slotDigest s.flash i] } }

/-- A slot's image accepted (R494): a pending slot becomes active. -/
def loadSlot (s : State) (i : Nat) : State :=
  { s with
    sec := { s.sec with version := slotVersion s.flash i, svn := slotSvn s.flash i, bootFailed := false }
    flash := if s.flash.pending = i + 1 then { s.flash with active := i, pending := 0 } else s.flash }

/-- The firmware load of a start (R494): the pending slot, else the active one, then the other. -/
def bootLoad (s : State) : State :=
  let first := if s.flash.pending = 0 then s.flash.active else s.flash.pending - 1
  let s := measure s first
  if imageSlotGood s first then loadSlot s first
  else
    let s := measure s (1 - first)
    if imageSlotGood s (1 - first) then loadSlot s (1 - first)
    else { s with sec := { s.sec with bootFailed := true }, pins := { s.pins with faultN := false } }

/-- The start of the device (R573): `failed` lists the tiles that fail their power-up self-test (R50). -/
def startDevice (s : State) (failed : List Nat) : State :=
  let s := { s with
    phase := .boot
    tiles := s.tiles.map (fun (e : Nat × Tile) => (e.1, { e.2 with inService := true, lastBeat := s.clock,
                                                                   tier := { e.2.tier with lfsr := lfsrAdvance e.1 0xACE1 } })) }
  let up : State := { s with tiles := s.tiles.map (fun (e : Nat × Tile) => (e.1, { e.2 with inService := !failed.contains e.1 })) }
  let noStore := !(storeCopies up).any storeGood
  let s : State := startJet { s with moon := (startEpoch up).moon }
  if failed.contains 0 then enterF4 s causeSelftest
  else
    let s : State := { s with tiles := up.tiles }
    let s := if noStore then fault0 s 0x6005 1 srcMoon else s
    let s := if s.jade.prevFreeze then jetInfo s 0x800B (srcJade 0) [] else s
    let s := if s.hk.storedCause = 0 then s
      else jetInfo { s with hk := { s.hk with prevShutdown := true, prevCause := s.hk.storedCause, storedCause := 0 } } 0x700C (srcCarnelian 0 0) []
    bootLoad s

/-- DEVICE_START (R573): PWR_OK and SYS_RESET_N have risen; after a thermal shutdown it waits until T0 has cooled (R543). -/
def execDeviceStart (failed : List Nat) (s : State) : Result :=
  if (s.phase == .off || s.phase == .held) && !tooHot s then
    done (startDevice { s with pins := { s.pins with pwrOk := true, sysResetN := true } } failed)
  else .next s

/-! ### Firmware up and replay (R471, R475, R195-R200) -/

/-- The copy applied at a start (R475). -/
def bestCopy (f : Flash) : Option (Nat × Cfg) :=
  match f.copyA, f.copyB with
  | .good a x, .good b y => if a < b then some (b, y) else some (a, x)
  | .good a x, _ => some (a, x)
  | _, .good b y => some (b, y)
  | _, _ => none

/-- The stored configuration applied, or the factory configuration (R475). -/
def applyConfig (s : State) : State :=
  match bestCopy s.flash with
  | some (g, c) => { s with cfg := c, flash := { s.flash with gen := g } }
  | none =>
    let s := { s with cfg := {}, flash := { s.flash with gen := 0 } }
    if s.flash.copyA = .blank ∧ s.flash.copyB = .blank then jetInfo s 0x800F srcBoot [] else fault0 s 0x8010 1 srcBoot

/-- Where a volume is homed after a start (R50). -/
def homeAtStart (s : State) (c : VolCfg) : Nat := if tileUp s c.home then c.home else buddy c.home

/-- The mirror set that the pool journal state holds stands for the configured one (R190, R193). -/
def journalMirror (s : State) (p : Nat) : State :=
  match (getPool s p).mirrorSet with
  | some (a, b) => setPoolCfg s p { poolCfg s p with mirror0 := a, mirror1 := b }
  | none => s

/-- Run-time state laid under the configuration applied. The stored period is in force from here on, within the running epoch: its end is
one such period after the edge that began it (DESIGN CHOICE, log entry 120: R577 does not say when a stored code takes effect). -/
def layConfig (s : State) : State :=
  let c := s.cfg
  let s : State := { s with
    pools := c.pools.map (fun (e : Nat × PoolCfg) => (e.1, (Tab.get? s.pools e.1).getD {}))
    vols := c.vols.map (fun (e : Nat × VolCfg) => (e.1, { (Tab.get? s.vols e.1).getD {} with home := homeAtStart s e.2 }))
    members := c.members.map (fun (e : Nat × MemberParams) => (e.1, (Tab.get? s.members e.1).getD {}))
    links := c.links.map (fun (e : Nat × LinkCfg) => (e.1, { started := e.2.started }))
    hk := { s.hk with tWarn := c.warn, tThrottle := c.throttle, tCritical := c.critical, graceMs := c.graceMs }
    moon := { s.moon with
      role := c.epochRole, guard := c.epochGuard, period := c.epochPeriod, dlyAdj := c.dlyAdj, sealTimeoutMs := c.sealTimeoutMs } }
  let s := modTiles s (fun t x => { x with tier := { x.tier with zGib := Tab.getD c.zGib t 3 }, amber := { x.amber with adopted := !tileUp s t && tileUp s (buddy t) } })
  let s := (Tab.keys c.pools).foldl (fun s p => journalMirror (modPool s p (fun x =>
    { x with tile := rebuildTile s p, initWork := if x.init then (poolCfg s p).members.map (fun m => (m, 0)) else [] })) p) s
  (Tab.keys c.vols).foldl (fun s v => modVol s v (fun x => { x with noMap := beyondMaps s v })) s

/-- A pool whose header names another owner (R388): its records are retired without member writes, and it stays offline. -/
def disown (s : State) (pool : Nat) : State :=
  let s := modPool s pool (fun p => { p with st := .offline, disowned := true })
  let s := modTiles s (fun _ x => { x with amber := { x.amber with recs := x.amber.recs.map (fun (r : RingRec) =>
    if !r.r.partner ∧ (volCfg s r.r.vol).pool = pool then { r with retired := true } else r) } })
  fault s { code := 0x2025, cls := 1, src := srcPool pool, data := leBytes 2 pool }

/-- The newest good copy of each partner-mirrored pool's header among those read before replay (R248, R388). -/
def checkOwners (s : State) (headers : List (Nat × PoolHeader)) : State :=
  (Tab.keys s.cfg.pools).foldl (fun s p =>
    let c := poolCfg s p
    match newestHeader ((headers.filter (fun e => e.1 == p)).map Prod.snd) with
    | some h =>
      if c.partner.isSome ∧ c.reserved.isNone then
        (if h.owner = Config.identity then modPool s p (fun x => { x with owner := h.owner, lease := h.lease }) else disown s p)
      else s
    | none => s) s

/-- Reservations of spill space that no unretired INTENT names any more. -/
def trimSegments (s : State) : State :=
  { s with pools := s.pools.map (fun (e : Nat × Pool) =>
      let size := segUnits s e.1
      let refs := (s.tiles.flatMap (fun t => t.2.amber.intents)).filterMap (fun r =>
        if r.r.spilled ∧ (volCfg s r.r.vol).pool = e.1 then some r.r.ref else none)
      (e.1, { e.2 with segs := e.2.segs.map (fun (g : Nat × SpillSeg) =>
        (g.1, { g.2 with used := g.2.used.filter (fun u => refs.contains (g.1 * size + u.1)) })) })) }

/-- The rings as their walk finds them (R196). -/
def walkRings (s : State) : State :=
  (readableRings s).foldl (fun s t =>
    modAmber s t (fun a => { a with recs := walkRing s t, head := (newestSlot (a.slots.map (·.2))).getD a.head })) s

/-- The records that replay completes: of other devices' pools none, and none of a pool that is offline. -/
def toReplay (s : State) (r : RingRec) : Bool := !r.r.partner && (getPool s (volCfg s r.r.vol).pool).st != .offline

/-- FIRMWARE_UP (R471): READY, ALIVE, the bypass, the stored role, and replay begins (R195, R196). -/
def execFirmwareUp (headers : List (Nat × PoolHeader)) (s : State) : Result :=
  if !(running s && s.phase == .boot && tileUp s 0) || s.sec.bootFailed then .next s
  else
    let s := layConfig (applyConfig { s with phase := .replay })
    let s := { s with
      pins := { bypassPins s false with alive := true }
      jade := { s.jade with aliveRunning := true } }
    let s := walkRings (trimSegments (checkOwners s headers))
    done (replayRings s (readableRings s) (toReplay s))

/-- An own ring restarted (R196): it holds what is unretired, appended again, PARTNER records first, DATA following its INTENT's new
SEQUENCE. Of the device's own records these are those of rows that the Lost-Strip Table has no room for and of offline pools (log entry
121); their INTENTs carry RELOCATED, so that their spill copies match (R197). -/
def restartRing (s : State) (t : Nat) (a : Amber) : Amber :=
  let live := a.recs.filter (fun r => !r.retired)
  let keep := live.filter (·.r.partner) ++ live.filter (fun r => !r.r.partner)
  let r := keep.foldl (fun (acc : Amber × List (Nat × Nat)) r =>
    let ref := if r.r.kind = .data then ((acc.2.find? (fun e => e.1 == r.r.ref)).map (·.2)).getD r.r.ref else r.r.ref
    let rec_ := { r.r with ref := ref, relocated := r.r.relocated || (!r.r.partner && r.r.kind == .intent) }
    (acc.1.append (written s t { r with r := rec_, own := false, mirror := false }), (r.r.seq, acc.1.nextSeq) :: acc.2))
    (({ a with recs := [] } : Amber).writeHead a.nextSeq a.tail, [])
  r.1

/-- Replay has nothing left to do: every row it began has been rewritten and retired, but for those that the Lost-Strip Table has no room
for (R238). -/
def replayed (s : State) : Bool :=
  s.replays.isEmpty && s.destages.isEmpty && (readableRings s).all (fun t =>
    (getTile s t).amber.intents.all (fun r => !toReplay s r || (getPool s (volCfg s r.r.vol).pool).lstFull))

/-- A pool's state after replay (R474, R388). What a reset cut off goes on: the re-copy of spill records that are still live (R190), and the
rows whose strips have entered the Lost-Strip Table (R233). -/
def poolAtStart (s : State) (p : Nat) : State :=
  let s := modPool s p (fun x => if x.st = .stopped ∧ (poolCfg s p).running then { x with st := .running } else x)
  let c := poolCfg s p
  let x := getPool s p
  let s := match x.mirrorLost with
    | [w] => (x.recopying.filter (fun t => tileUp s (hostOf s t))).foldl (fun s t => recopySegment s p (memberAt c (mirrorAt c (1 - w))) t)
        (modPool s p (fun x => { x with recopying := x.recopying.filter (fun t => tileUp s (hostOf s t)) }))
    | _ => s
  startSalvages s p

/-- A volume's state after replay (R474, R49): offline with its pool, or without a tile to home it. -/
def volAtStart (s : State) (v : Nat) : State :=
  let c := volCfg s v
  let st (x : Vol) : VolState :=
    if !tileUp s x.home || (getPool s c.pool).st == .offline then .offline else if c.running then .running else .stopped
  modVol s v (fun x => { x with st := st x })

/-- REPLAY_COMPLETE (R195, R196): rings restart, pools and volumes return to their stored states, CONNECT is accepted. -/
def execReplayComplete (s : State) : Result :=
  if !(running s && s.phase == .replay && replayed s) then .next s
  else
    let s := modTiles { s with phase := .ready } (fun t x =>
      if tileUp s t then { x with amber := restartRing s t x.amber } else x)
    let s := (readableRings s).foldl reindex s
    let s := (Tab.keys s.cfg.pools).foldl poolAtStart s
    let s := (Tab.keys s.cfg.vols).foldl volAtStart s
    done (jetInfo s 0x2009 (srcAmber 0) [])

/-! ### Function state (R11, R56, R395-R398, R473) -/

/-- A mailbox whose function state goes (R473): a cancellable command is cancelled, a change is stored, another runs on unseen. -/
def resetMbx (s : State) (n : Nat) : State :=
  let m := getMbx s n
  if !m.busy then setMbx s n {}
  else match m.running with
    | some (.config _) => setMbx (storeCfg s) n {}
    | some (.volumeStop _) => setMbx (cancelRunning s n) n {}
    | some (.volumeStopped _) => setMbx (cancelRunning s n) n {}
    | some (.drain _ _) => setMbx (cancelRunning s n) n {}
    | some .power => setMbx (cancelRunning s n) n {}
    | some .waiting => setMbx s n {}
    | none => setMbx s n {}
    | some r =>
      setMbx s n { busy := true, orphan := true, running := some r, cmdId := m.cmdId, change := m.change, objs := m.objs, ticket := m.ticket }

/-- The work and the state of one function gone (R56): its entries end, its rings, windows and registers take their reset values. -/
def resetFunction (s : State) (fn : Nat) : State :=
  let mine := s.live.filter (fun l => l.fn == fn)
  let s := mine.foldl endLive s
  let sqs := (Tab.keys s.sqs).filter (fun n => sqOwner s n == fn)
  let s := sqs.foldl (fun s n => voidReqs s (ofSq n)) s
  let s := modPcie s (fun p =>
    { p with
      waitWrites := p.waitWrites.filter (fun w => w.fn != fn), waitReqs := p.waitReqs.filter (fun r => r.fn != fn)
      trReqs := p.trReqs.filter (fun t => t.fn != fn), atc := p.atc.filter (fun e => e.fn != fn)
      windows := p.windows.filter (fun e => winOwner s e.1 != fn), funcs := Tab.erase p.funcs fn })
  let s : State := { s with
    sqs := s.sqs.filter (fun e => sqOwner s e.1 != fn)
    cqs := s.cqs.filter (fun e => cqOwner s e.1 != fn) }
  resetMbx s fn

/-- The function state of PF0 and every VF (Table 1-7): the VFs are gone, and PF0 holds every resource. -/
def resetAllFunctions (s : State) : State :=
  let s := (List.range 64).foldl resetMbx ((List.range (s.pcie.numVfs + 1)).foldl resetFunction s)
  modPcie s (fun p => { p with numVfs := 0, vfBar2Gib := 4, sqOwner := [], cqOwner := [], winOwner := [], volRanges := [], halves := [] })

/-- Resources of a removed VF return to PF0, stopped (R396). -/
def removeVf (s : State) (vf : Nat) : State :=
  let s := resetFunction s vf
  modPcie s (fun p =>
    { p with
      sqOwner := p.sqOwner.filter (fun e => e.2 != vf), cqOwner := p.cqOwner.filter (fun e => e.2 != vf)
      winOwner := p.winOwner.filter (fun e => e.2 != vf), volRanges := Tab.erase p.volRanges vf })

/-- VF_ENABLE (R395, R396). -/
def execVfEnable (enable : Bool) (numVfs : Nat) (s : State) : Result :=
  if !(running s && s.pcie.linkUp && (getFunc s 0).d == .d0) || decide (63 < numVfs) || (enable && numVfs == 0) then .next s
  else
    let n := if enable then numVfs else 0
    let s := (List.range' (n + 1) (s.pcie.numVfs - n)).foldl removeVf s
    done (modPcie s (fun p => { p with numVfs := n }))

/-- FUNCTION_LEVEL_RESET (R398): of a VF, or of PF0 with every VF; the link stays up. -/
def execFunctionLevelReset (fn : Nat) (s : State) : Result :=
  if !(running s && s.pcie.linkUp && fnExists s fn) then .next s
  else done (if fn = 0 then resetAllFunctions s else resetFunction s fn)

/-- PERST_N_ASSERT (R55, R429): the PCIe interface and function state go; from D3hot with D3cold enabled the orderly shutdown
begins. -/
def execPerstNAssert (s : State) : Result :=
  if !s.pins.perstN then .next s
  else if !running s then done { s with pins := { s.pins with perstN := false }, pcie := { s.pcie with linkUp := false } }
  else
    let s' := { s with pins := { s.pins with perstN := false }, pcie := { s.pcie with linkUp := false, rate := 0, width := 0 } }
    if (getFunc s 0).d == .d3hot && s.cfg.d3coldEn && fwUp s then
      done (beginClose { s' with hk := { s'.hk with toD3cold := true } })
    else
      let s' := resetAllFunctions s'
      done (modPcie s' (fun p => { p with reqs := [], quarantine := [], aer := [] }))

/-- Tiles that fail their self-test at a start no operand describes: free. -/
def freeFailures (s : State) : List Nat := (List.range s.part.tiles).filter (Config.freeBit s.freeIx)

/-- PERST_N_RELEASE (R571, R429): from D3cold it starts the device, with journal replay. -/
def execPerstNRelease (s : State) : Result :=
  if s.pins.perstN then .next s
  else
    let s := { s with pins := { s.pins with perstN := true } }
    if s.phase == .d3cold then done (startDevice (afterReset s .held) (freeFailures s))
    else done s

/-! ### Freeze (R525, R526) -/

/-- FREEZE_N_LOW (R525): clocks stop; ignored with PWR_OK low or SYS_RESET_N asserted, and without tile power. -/
def execFreezeNLow (s : State) : Result :=
  if !powered s then .next s
  else
    done { s with
      jade := { s.jade with frozen := true, aliveRunning := false }
      pins := { bypassPins s true with alive := false, faultN := false }
      moon := { s.moon with trained := false }
      links := s.links.map (fun (e : Nat × Link) => (e.1, { e.2 with up := false }))
      partners := s.partners.map (fun (e : Nat × Partner) => (e.1, { e.2 with up := false }))
      pcie := { s.pcie with linkUp := false }
      tiles := s.tiles.map (fun (e : Nat × Tile) => (e.1, { e.2 with clocksStopped := true })) }

/-! ### Reference clocks (R569) -/

/-- REFCLK_LOSS: the links it serves go down. -/
def execRefclkLoss (c : RefClk) (s : State) : Result :=
  match c with
  | .sd j =>
    if decide (j < s.part.tiles / 2) && s.pins.sdRefclk.getD j false then
      let s := { s with pins := { s.pins with sdRefclk := s.pins.sdRefclk.set j false } }
      if running s then done ((List.range' (64 * j) 64).foldl downLink s) else done s
    else .next s
  | .pcie =>
    if !s.pins.pcieRefclk then .next s
    else
      let s := { s with pins := { s.pins with pcieRefclk := false } }
      if running s && s.pcie.linkUp then
        done (fault0 (modPcie s (fun p => { p with linkUp := false, rate := 0, width := 0 })) 0x5008 1 (srcHost 0))
      else done s

/-- REFCLK_RETURN: the links may train again. -/
def execRefclkReturn (c : RefClk) (s : State) : Result :=
  match c with
  | .sd j =>
    if j < s.part.tiles / 2 then done { s with pins := { s.pins with sdRefclk := s.pins.sdRefclk.set j true } } else .next s
  | .pcie => done { s with pins := { s.pins with pcieRefclk := true } }

/-! ### SMBus (R575) -/

/-- The 40 bytes of Block Read 0x10. -/
def smbusBlock (s : State) : List Byte :=
  match s.phase with
  | .d3cold => leBytes 4 0 ++ leBytes 4 s.hk.auxTemp.toNat ++ leBytes 32 0
  | .shutdown => leBytes 4 0 ++ leBytes 4 s.hk.auxTemp.toNat ++ leBytes 32 0
  | _ => leBytes 4 (hkStatus s.hk) ++ (List.range 8).flatMap (fun t => leBytes 4 (readBlock s (0x390 + 4 * t))) ++ leBytes 4 (faultStatus s.jade)

/-- SMBUS_BLOCK_READ (R575). -/
def execSmbusBlockRead (command : Byte) (s : State) : Result :=
  done (emit s (if command = 0x10 then .smbus (smbusBlock s) else .smbusNack))

end Sys2Proof.Machine
end

