-- ==== Sys2Proof/Machine/Edge.lean ====
section
/-! DEFINITION. The local epoch edge with everything scheduled at it (Table 2-2): Moonstone, budgets, credits, throttling, passes and
mirror sets. -/

namespace Sys2Proof.Machine

/-! ### Member-bandwidth budgets (R227-R231, R539) -/

/-- b: what the member-role ports in service carry in one epoch, in bytes (Table 8-1). -/
def memberBytes (s : State) : Nat :=
  ((s.cfg.links.filter (fun e => e.2.p.role == 2 && (getLink s e.1).up && tileUp s (tileOfPort e.1))).map (fun e =>
    50 * lanesOf e.2.p.mode * periodNs s / 8)).foldl (· + ·) 0

/-- A pool has critical, rebuild, copyback, scrub, initialisation or zeroing work. -/
def poolPending (s : State) (p : Nat) : Bool :=
  let x := getPool s p
  scrubOn s p || x.scrubWork.isSome || (x.init && x.st == .initialising) ||
    (rebuildOn s p && (!x.zeroing.isEmpty || x.pstate != 0 || x.passPending || x.copy.isSome)) ||
    s.mcmds.any (fun m => m.pool == p && m.pipe == .rebuild)

/-- r of R227 in a direction; held at its floor while thermal enforcement is in force (R539). -/
def rebuildShare (s : State) (b h : Nat) : Nat :=
  if !(Tab.keys s.cfg.pools).any (poolPending s) then 0
  else
    let least := s.cfg.floorPct * b / 100
    if s.hk.enforcing then least else max least (b - h - b / 20)

/-- v of R227 in a direction; zero under enforcement (R539). -/
def verifyShare (s : State) (b h r : Nat) : Nat :=
  if !s.hk.enforcing && decide (100 * h < 30 * b) && s.tests.any (fun e => testActive e.2) then b - h - r - b / 20 else 0

/-- An allowance for the coming epoch: an overdraft is taken off it, what is left lapses (R228). -/
def nextAllowance (share : Nat) (left : Int) : Int := share + min 0 left

/-- The budgets of the coming epoch (R227). -/
def newBudget (s : State) : Budget :=
  let b := memberBytes s
  let old := s.budget
  let h (d : Nat) : Nat := old.h.getD d 0
  let r (d : Nat) : Nat := rebuildShare s b (h d)
  let cap (d : Nat) : Nat := b - r d
  let v (d : Nat) : Nat := verifyShare s b (h d) (r d)
  { host := [nextAllowance (cap 0) (old.host.getD 0 0), nextAllowance (cap 1) (old.host.getD 1 0)]
    r := [nextAllowance (r 0) (old.r.getD 0 0), nextAllowance (r 1) (old.r.getD 1 0)]
    v := [nextAllowance (v 0) (old.v.getD 0 0), nextAllowance (v 1) (old.v.getD 1 0)]
    last := [cap 0, cap 1, r 0, r 1, v 0, v 1] }

/-- A test in the coming epoch (R492): it runs where v is above zero. -/
def edgeTest (s : State) (t : Test) : Test :=
  if verifyOn s then (if t.st = 2 then { t with st := 1, startedAt := s.clock } else t)
  else if t.st = 1 then restTest s t 2
  else t

/-- The budgets at an edge: allowances, the bytes charged by class, and the tests that run on v. -/
def budgetEdge (s : State) : State :=
  let s := { s with budget := newBudget s }
  { s with
    pools := s.pools.map (fun (e : Nat × Pool) => (e.1, { e.2 with charged := [0, 0, 0, 0] }))
    tests := s.tests.map (fun (e : (Nat × Nat) × Test) => (e.1, edgeTest s e.2)) }

/-! ### Credits and throttling -/

/-- Ring weights reloaded (R454). -/
def creditEdge (s : State) : State :=
  { s with sqs := s.sqs.map (fun (e : Nat × Sq) => (e.1, { e.2 with credit := e.2.weight + 1 })) }

/-- ENFORCING (R538 step 2): from the first edge after the grace time to the edge after the sequence. -/
def enforcing (s : State) : State := { s with hk := { s.hk with enforcing := s.hk.running && decide (s.hk.graceEnd ≤ s.clock) } }

/-- THROTTLE_ENFORCEMENT (R346, R539): the bytes of the epoch that ended, and every connection's enforcement. -/
def throttleEdge (s : State) : State :=
  let s := modTiles s (fun _ x => { x with arb := { x.arb with bytesPast := (x.arb.bytesNow :: x.arb.bytesPast).take 16, bytesNow := 0 } })
  (s.sbt.conns.map connIdOf).foldl enforceConn s

/-! ### Pools -/

/-- An imported pool whose replay has retired every record: the journal extent area is divided among this part's tiles (R178). -/
def divideJournal (s : State) (p : Nat) : State :=
  let open_ (r : RingRec) : Bool := !r.r.partner && (volCfg s r.r.vol).pool == p
  if (getPool s p).segPending && !s.replays.any (fun x => x.pool == p) && !s.destages.any (fun d => d.pool == p && d.resync && !d.intents.isEmpty) &&
      !(List.range s.part.tiles).any (fun t => ringServed s t && (getTile s t).amber.intents.any (fun r => open_ r && r.r.spilled)) then
    let s := modPool s p (fun x => { x with segPending := false, segSize := (journalUnits / s.part.tiles) * 4096, segs := [] })
    writeHeader s p (liveMembers s p)
  else s

/-- What an edge does to a pool: a new pass, the mirror set, the segments (R223, R193, R178). -/
def poolEdge (s : State) (p : Nat) : State := divideJournal (mirrorRetry (passStart s p) p) p

/-- An edge with firmware up (Table 2-2): Moonstone, budgets, throttling, ring credits, then the pools once replay is done. -/
def edgeWork (s : State) : State :=
  let s := creditEdge (throttleEdge (budgetEdge (enforcing (moonEdge s))))
  if serving s then (Tab.keys s.cfg.pools).foldl poolEdge s else s

/-- EPOCH_EDGE (R68, R577): before firmware is up the epoch alone advances. -/
def execEpochEdge (s : State) : Result :=
  if !running s then .next s
  else if !fwUp s then done (storeEpoch (advanceEpoch s) s.moon.epoch)
  else done (relaunchAll (edgeWork s))

end Sys2Proof.Machine
end

