-- ==== Sys2Proof/Machine/Dispatch.lean ====
section
/-! DEFINITION. One arm per command, each one direct call of its meaning. -/

namespace Sys2Proof.Machine

open Sys2Proof

/-- The effect of a command on everything but the queue. -/
def exec (i : Instr) (s : State) : Host.Outcome State Fault Refusal :=
  match i with
  | .deviceStart failed => Sys2Proof.Machine.execDeviceStart failed s
  | .refclkLoss c => Sys2Proof.Machine.execRefclkLoss c s
  | .firmwareUp headers => Sys2Proof.Machine.execFirmwareUp headers s
  | .homeTileAcceptance id => Sys2Proof.Machine.execHomeTileAcceptance id s
  | .routeSwitch src dst => Sys2Proof.Machine.execRouteSwitch src dst s
  | .meshHeartbeat tile => Sys2Proof.Machine.execMeshHeartbeat tile s
  | .heartbeatTimeout tile => Sys2Proof.Machine.execHeartbeatTimeout tile s
  | .rangeLockGrant id => Sys2Proof.Machine.execRangeLockGrant id s
  | .recordCommit tile seq => Sys2Proof.Machine.execRecordCommit tile seq s
  | .ackHoldRelease id => Sys2Proof.Machine.execAckHoldRelease id s
  | .partnerConfirmTimeout tile seq => Sys2Proof.Machine.execPartnerConfirmTimeout tile seq s
  | .relocation tile => Sys2Proof.Machine.execRelocation tile s
  | .journalSpaceWaitEnd id part => Sys2Proof.Machine.execJournalSpaceWaitEnd id part s
  | .mramCommitFailure tile => Sys2Proof.Machine.execMramCommitFailure tile s
  | .destageStart vol row => Sys2Proof.Machine.execDestageStart vol row s
  | .destageComplete d => Sys2Proof.Machine.execDestageComplete d s
  | .mirrorRecopyComplete pool tile => Sys2Proof.Machine.execMirrorRecopyComplete pool tile s
  | .readDeadline m => Sys2Proof.Machine.execReadDeadline m s
  | .edge sync body => Sys2Proof.Machine.execEdge sync body s
  | .invalidFrame sync body => Sys2Proof.Machine.execInvalidFrame sync body s
  | .announce sync body => Sys2Proof.Machine.execAnnounce sync body s
  | .poll sync body => Sys2Proof.Machine.execPoll sync body s
  | .done sync body => Sys2Proof.Machine.execDone sync body s
  | .failed sync body => Sys2Proof.Machine.execFailed sync body s
  | .holdover sync body => Sys2Proof.Machine.execHoldover sync body s
  | .trainCount f => Sys2Proof.Machine.execTrainCount f s
  | .trainResult at_ timed body => Sys2Proof.Machine.execTrainResult at_ timed body s
  | .epochNowRead wide upper => Sys2Proof.Machine.execEpochNowRead wide upper s
  | .memberCommandCompletion m st data => Sys2Proof.Machine.execMemberCommandCompletion m st data s
  | .memberCommandTimeout m => Sys2Proof.Machine.execMemberCommandTimeout m s
  | .memberReachTimeout member => Sys2Proof.Machine.execMemberReachTimeout member s
  | .smartLogPoll member warning => Sys2Proof.Machine.execSmartLogPoll member warning s
  | .rebuildCommandIssue pool => Sys2Proof.Machine.execRebuildCommandIssue pool s
  | .rebuildRowComplete pool => Sys2Proof.Machine.execRebuildRowComplete pool s
  | .cursorMetadataWrite pool => Sys2Proof.Machine.execCursorMetadataWrite pool s
  | .rowInterlockGrant pool row => Sys2Proof.Machine.execRowInterlockGrant pool row s
  | .copybackRowComplete pool => Sys2Proof.Machine.execCopybackRowComplete pool s
  | .scrubRow pool row => Sys2Proof.Machine.execScrubRow pool row s
  | .lineFillComplete tile line => Sys2Proof.Machine.execLineFillComplete tile line s
  | .lineAllocation id part => Sys2Proof.Machine.execLineAllocation id part s
  | .evictionComplete tile entry => Sys2Proof.Machine.execEvictionComplete tile entry s
  | .evmodeSwitch tile => Sys2Proof.Machine.execEvmodeSwitch tile s
  | .directorySweep tile => Sys2Proof.Machine.execDirectorySweep tile s
  | .lineRetirement tile line cause word => Sys2Proof.Machine.execLineRetirement tile line cause word s
  | .zeroLine src a => Sys2Proof.Machine.execZeroLine src a s
  | .invalKey src a => Sys2Proof.Machine.execInvalKey src a s
  | .invalRange src a => Sys2Proof.Machine.execInvalRange src a s
  | .cleanKey src a => Sys2Proof.Machine.execCleanKey src a s
  | .cleanRange src a => Sys2Proof.Machine.execCleanRange src a s
  | .lock src a => Sys2Proof.Machine.execLock src a s
  | .unlock src a => Sys2Proof.Machine.execUnlock src a s
  | .invalAll src a => Sys2Proof.Machine.execInvalAll src a s
  | .enDirectClear v => Sys2Proof.Machine.execEnDirectClear v s
  | .enSet v => Sys2Proof.Machine.execEnSet v s
  | .lfsrSeedLoad v => Sys2Proof.Machine.execLfsrSeedLoad v s
  | .evmodeChange v => Sys2Proof.Machine.execEvmodeChange v s
  | .connect h b => Sys2Proof.Machine.execConnect h b s
  | .close h reason => Sys2Proof.Machine.execClose h reason s
  | .read h c => Sys2Proof.Machine.execRead h c s
  | .write h c => Sys2Proof.Machine.execWrite h c s
  | .flush h c => Sys2Proof.Machine.execFlush h c s
  | .writeZeroes h c => Sys2Proof.Machine.execWriteZeroes h c s
  | .deallocate h c => Sys2Proof.Machine.execDeallocate h c s
  | .verify h c => Sys2Proof.Machine.execVerify h c s
  | .dataOut h tag offset ddgst payload => Sys2Proof.Machine.execDataOut h tag offset ddgst payload s
  | .abort h tag => Sys2Proof.Machine.execAbort h tag s
  | .errlogReq h kind page => Sys2Proof.Machine.execErrlogReq h kind page s
  | .resume h disposition freezeId => Sys2Proof.Machine.execResume h disposition freezeId s
  | .ack h => Sys2Proof.Machine.execAck h s
  | .sbtPacketDiscard port cause => Sys2Proof.Machine.execSbtPacketDiscard port cause s
  | .unknownConnectionPacket h isClose5 => Sys2Proof.Machine.execUnknownConnectionPacket h isClose5 s
  | .delayedAck conn => Sys2Proof.Machine.execDelayedAck conn s
  | .retransmitTimeout conn seq => Sys2Proof.Machine.execRetransmitTimeout conn seq s
  | .connectionLoss conn => Sys2Proof.Machine.execConnectionLoss conn s
  | .creditProbe conn => Sys2Proof.Machine.execCreditProbe conn s
  | .refusalRetentionExpiry addr udp tenantConn seq => Sys2Proof.Machine.execRefusalRetentionExpiry addr udp tenantConn seq s
  | .indexReuse tile index => Sys2Proof.Machine.execIndexReuse tile index s
  | .xferRdy id offset length => Sys2Proof.Machine.execXferRdy id offset length s
  | .commandCompletion id => Sys2Proof.Machine.execCommandCompletion id s
  | .linkUp port => Sys2Proof.Machine.execLinkUp port s
  | .linkDown port => Sys2Proof.Machine.execLinkDown port s
  | .fecErrorSecond port codewords => Sys2Proof.Machine.execFecErrorSecond port codewords s
  | .pfcFrame port classes quanta => Sys2Proof.Machine.execPfcFrame port classes quanta s
  | .pfcRepeat port occupancyKib => Sys2Proof.Machine.execPfcRepeat port occupancyKib s
  | .neighbourResolve tile addr => Sys2Proof.Machine.execNeighbourResolve tile addr s
  | .memberQueueSetup member tile admin step => Sys2Proof.Machine.execMemberQueueSetup member tile admin step s
  | .keepAlive member => Sys2Proof.Machine.execKeepAlive member s
  | .memberQueueBreak member tile admin cause => Sys2Proof.Machine.execMemberQueueBreak member tile admin cause s
  | .memberReconnectAttempt member tile connected => Sys2Proof.Machine.execMemberReconnectAttempt member tile connected s
  | .memberReissue m => Sys2Proof.Machine.execMemberReissue m s
  | .poolInitComplete pool => Sys2Proof.Machine.execPoolInitComplete pool s
  | .extentZeroingComplete pool extent => Sys2Proof.Machine.execExtentZeroingComplete pool extent s
  | .hello h => Sys2Proof.Machine.execHello h s
  | .nack h => Sys2Proof.Machine.execNack h s
  | .poolOffer h pool d => Sys2Proof.Machine.execPoolOffer h pool d s
  | .poolReply h pool result => Sys2Proof.Machine.execPoolReply h pool result s
  | .poolWithdraw h pool => Sys2Proof.Machine.execPoolWithdraw h pool s
  | .record h seq fragOffset originTile last r => Sys2Proof.Machine.execRecord h seq fragOffset originTile last r s
  | .confirm h seq originTile result => Sys2Proof.Machine.execConfirm h seq originTile result s
  | .release h pool hd => Sys2Proof.Machine.execRelease h pool hd s
  | .releaseAck h pool result => Sys2Proof.Machine.execReleaseAck h pool result s
  | .partnerResendTimer link => Sys2Proof.Machine.execPartnerResendTimer link s
  | .helloSend link => Sys2Proof.Machine.execHelloSend link s
  | .partnerLinkTimeout link => Sys2Proof.Machine.execPartnerLinkTimeout link s
  | .leaseRenewal pool completed owner => Sys2Proof.Machine.execLeaseRenewal pool completed owner s
  | .leaseLoss pool => Sys2Proof.Machine.execLeaseLoss pool s
  | .autoImport pool hd => Sys2Proof.Machine.execAutoImport pool hd s
  | .importCheck pool hd => Sys2Proof.Machine.execImportCheck pool hd s
  | .pcieLinkUp rate width => Sys2Proof.Machine.execPcieLinkUp rate width s
  | .pcieLinkDown rate width => Sys2Proof.Machine.execPcieLinkDown rate width s
  | .dStateEntry fn d => Sys2Proof.Machine.execDStateEntry fn d s
  | .d0Return fn => Sys2Proof.Machine.execD0Return fn s
  | .vfEnable enable numVfs => Sys2Proof.Machine.execVfEnable enable numVfs s
  | .functionLevelReset fn => Sys2Proof.Machine.execFunctionLevelReset fn s
  | .hostCompletion c => Sys2Proof.Machine.execHostCompletion c s
  | .completionTimeout tag => Sys2Proof.Machine.execCompletionTimeout tag s
  | .tagQuarantineEnd tag => Sys2Proof.Machine.execTagQuarantineEnd tag s
  | .translationCompletion t => Sys2Proof.Machine.execTranslationCompletion t s
  | .invalidationRequest fn itag page pages => Sys2Proof.Machine.execInvalidationRequest fn itag page pages s
  | .windowWrite t data => Sys2Proof.Machine.execWindowWrite t data s
  | .windowRead t len => Sys2Proof.Machine.execWindowRead t len s
  | .winCommit fn window v => Sys2Proof.Machine.execWinCommit fn window v s
  | .windowDirectWrite fn window offset v => Sys2Proof.Machine.execWindowDirectWrite fn window offset v s
  | .sqDb fn sq => Sys2Proof.Machine.execSqDb fn sq s
  | .sqDispatch tile => Sys2Proof.Machine.execSqDispatch tile s
  | .ringRead id => Sys2Proof.Machine.execRingRead id s
  | .ringWrite id => Sys2Proof.Machine.execRingWrite id s
  | .ringFlush id => Sys2Proof.Machine.execRingFlush id s
  | .ringWriteZeroes id => Sys2Proof.Machine.execRingWriteZeroes id s
  | .ringDeallocate id => Sys2Proof.Machine.execRingDeallocate id s
  | .pqCompute id => Sys2Proof.Machine.execPqCompute id s
  | .reconstruct id => Sys2Proof.Machine.execReconstruct id s
  | .copy id => Sys2Proof.Machine.execCopy id s
  | .skip id => Sys2Proof.Machine.execSkip id s
  | .cqHeadDb fn cq v => Sys2Proof.Machine.execCqHeadDb fn cq v s
  | .cqAggTimer cq => Sys2Proof.Machine.execCqAggTimer cq s
  | .sqDisable fn sq v => Sys2Proof.Machine.execSqDisable fn sq v s
  | .sqDrainComplete sq => Sys2Proof.Machine.execSqDrainComplete sq s
  | .sqEnable fn sq v => Sys2Proof.Machine.execSqEnable fn sq v s
  | .cqEnable fn cq v => Sys2Proof.Machine.execCqEnable fn cq v s
  | .cqDisable fn cq v => Sys2Proof.Machine.execCqDisable fn cq v s
  | .mailboxCancel mb v => Sys2Proof.Machine.execMailboxCancel mb v s
  | .overrun mb v => Sys2Proof.Machine.execOverrun mb v s
  | .configStored mb => Sys2Proof.Machine.execConfigStored mb s
  | .devInfo g => Sys2Proof.Machine.execDevInfo g s
  | .funcAssign g vf kind op first last => Sys2Proof.Machine.execFuncAssign g vf kind op first last s
  | .withdraw g vf kind op first last => Sys2Proof.Machine.execWithdraw g vf kind op first last s
  | .portConfig g p => Sys2Proof.Machine.execPortConfig g p s
  | .portStop g port => Sys2Proof.Machine.execPortStop g port s
  | .portStart g port => Sys2Proof.Machine.execPortStart g port s
  | .portStatus g port => Sys2Proof.Machine.execPortStatus g port s
  | .portStats g port buf => Sys2Proof.Machine.execPortStats g port buf s
  | .portTest g port pattern seconds => Sys2Proof.Machine.execPortTest g port pattern seconds s
  | .sbtConfig g udpPort credit lossMs => Sys2Proof.Machine.execSbtConfig g udpPort credit lossMs s
  | .sbtTenantSet g index tenantId ranges => Sys2Proof.Machine.execSbtTenantSet g index tenantId ranges s
  | .sbtTenantRemove g index tenantId ranges => Sys2Proof.Machine.execSbtTenantRemove g index tenantId ranges s
  | .sbtConnList g tile buf => Sys2Proof.Machine.execSbtConnList g tile buf s
  | .sbtConnClose g conn => Sys2Proof.Machine.execSbtConnClose g conn s
  | .sbtThrottle g scope target ident grace duration => Sys2Proof.Machine.execSbtThrottle g scope target ident grace duration s
  | .sbtStats g scope ident buf => Sys2Proof.Machine.execSbtStats g scope ident buf s
  | .poolCreate g p found => Sys2Proof.Machine.execPoolCreate g p found s
  | .poolDelete g pool => Sys2Proof.Machine.execPoolDelete g pool s
  | .poolStart g pool => Sys2Proof.Machine.execPoolStart g pool s
  | .poolStop g pool => Sys2Proof.Machine.execPoolStop g pool s
  | .poolStatus g pool => Sys2Proof.Machine.execPoolStatus g pool s
  | .hotspareSet g pool members found => Sys2Proof.Machine.execHotspareSet g pool members found s
  | .poolDegradedConfig g pool deadlineUs scrubDays => Sys2Proof.Machine.execPoolDegradedConfig g pool deadlineUs scrubDays s
  | .rebuildConfig g floorPct => Sys2Proof.Machine.execRebuildConfig g floorPct s
  | .rebuildStatus g pool buf => Sys2Proof.Machine.execRebuildStatus g pool buf s
  | .scrubStart g pool => Sys2Proof.Machine.execScrubStart g pool s
  | .scrubPause g pool => Sys2Proof.Machine.execScrubPause g pool s
  | .scrubResume g pool => Sys2Proof.Machine.execScrubResume g pool s
  | .lstRead g pool first buf => Sys2Proof.Machine.execLstRead g pool first buf s
  | .volumeCreate g p => Sys2Proof.Machine.execVolumeCreate g p s
  | .volumeDelete g vol => Sys2Proof.Machine.execVolumeDelete g vol s
  | .volumeStart g vol => Sys2Proof.Machine.execVolumeStart g vol s
  | .volumeStop g vol => Sys2Proof.Machine.execVolumeStop g vol s
  | .volumeStopComplete mb => Sys2Proof.Machine.execVolumeStopComplete mb s
  | .volumeSet g vol mask home attr policy => Sys2Proof.Machine.execVolumeSet g vol mask home attr policy s
  | .volumeStatus g vol => Sys2Proof.Machine.execVolumeStatus g vol s
  | .volumeSetExtents g vol extents buf list => Sys2Proof.Machine.execVolumeSetExtents g vol extents buf list s
  | .memberDefine g p => Sys2Proof.Machine.execMemberDefine g p s
  | .memberStatus g member => Sys2Proof.Machine.execMemberStatus g member s
  | .memberFail g member => Sys2Proof.Machine.execMemberFail g member s
  | .memberReplace g pool index member found => Sys2Proof.Machine.execMemberReplace g pool index member found s
  | .partnerConfig g port link autoImport identity => Sys2Proof.Machine.execPartnerConfig g port link autoImport identity s
  | .partnerStatus g link => Sys2Proof.Machine.execPartnerStatus g link s
  | .poolImport g pool hd => Sys2Proof.Machine.execPoolImport g pool hd s
  | .poolRelease g pool => Sys2Proof.Machine.execPoolRelease g pool s
  | .epochConfig g p => Sys2Proof.Machine.execEpochConfig g p s
  | .epochTrain g => Sys2Proof.Machine.execEpochTrain g s
  | .epochSeal g action es => Sys2Proof.Machine.execEpochSeal g action es s
  | .sealFailRequest g action es => Sys2Proof.Machine.execSealFailRequest g action es s
  | .epochSealStatus g => Sys2Proof.Machine.execEpochSealStatus g s
  | .epochCmapRead g vol buf => Sys2Proof.Machine.execEpochCmapRead g vol buf s
  | .epochStats g => Sys2Proof.Machine.execEpochStats g s
  | .journalStatus g scope ident buf => Sys2Proof.Machine.execJournalStatus g scope ident buf s
  | .journalMirrorSet g pool index0 index1 => Sys2Proof.Machine.execJournalMirrorSet g pool index0 index1 s
  | .journalPartner g pool link => Sys2Proof.Machine.execJournalPartner g pool link s
  | .journalPartnerClear g pool link => Sys2Proof.Machine.execJournalPartnerClear g pool link s
  | .journalDrain g scope ident => Sys2Proof.Machine.execJournalDrain g scope ident s
  | .journalDrainComplete mb => Sys2Proof.Machine.execJournalDrainComplete mb s
  | .cacheDisable g => Sys2Proof.Machine.execCacheDisable g s
  | .cacheDisableQuiesced mb => Sys2Proof.Machine.execCacheDisableQuiesced mb s
  | .cacheEnable g => Sys2Proof.Machine.execCacheEnable g s
  | .cacheConfig g tile mask zGib delayUs => Sys2Proof.Machine.execCacheConfig g tile mask zGib delayUs s
  | .cacheRatSet g vol policy entries => Sys2Proof.Machine.execCacheRatSet g vol policy entries s
  | .cacheRatGet g vol => Sys2Proof.Machine.execCacheRatGet g vol s
  | .cacheStats g tile buf => Sys2Proof.Machine.execCacheStats g tile buf s
  | .shortSelftest g kind pool => Sys2Proof.Machine.execShortSelftest g kind pool s
  | .extendedSelftest g kind pool => Sys2Proof.Machine.execExtendedSelftest g kind pool s
  | .selftestComplete kind pool badLines badMram badCitrine => Sys2Proof.Machine.execSelftestComplete kind pool badLines badMram badCitrine s
  | .selftestStatus g kind pool => Sys2Proof.Machine.execSelftestStatus g kind pool s
  | .selftestAbort g kind pool => Sys2Proof.Machine.execSelftestAbort g kind pool s
  | .jetStatus g => Sys2Proof.Machine.execJetStatus g s
  | .jetToken g => Sys2Proof.Machine.execJetToken g s
  | .jetClear g token => Sys2Proof.Machine.execJetClear g token s
  | .jetClearDone mb => Sys2Proof.Machine.execJetClearDone mb s
  | .fwInfo g => Sys2Proof.Machine.execFwInfo g s
  | .fwDownload g offset length buf data => Sys2Proof.Machine.execFwDownload g offset length buf data s
  | .fwVerifyPending g action => Sys2Proof.Machine.execFwVerifyPending g action s
  | .fwClearPending g action => Sys2Proof.Machine.execFwClearPending g action s
  | .fwConfirm g action => Sys2Proof.Machine.execFwConfirm g action s
  | .secPubkey g buf => Sys2Proof.Machine.execSecPubkey g buf s
  | .kekLoad g hostPub wrapped => Sys2Proof.Machine.execKekLoad g hostPub wrapped s
  | .keyLoad g vol wrapped => Sys2Proof.Machine.execKeyLoad g vol wrapped s
  | .keyDestroy g vol => Sys2Proof.Machine.execKeyDestroy g vol s
  | .secMeasure g buf => Sys2Proof.Machine.execSecMeasure g buf s
  | .powerStateSet g st => Sys2Proof.Machine.execPowerStateSet g st s
  | .powerStatus g => Sys2Proof.Machine.execPowerStatus g s
  | .powerD3cold g enable => Sys2Proof.Machine.execPowerD3cold g enable s
  | .thermalConfig g warn throttle critical graceMs => Sys2Proof.Machine.execThermalConfig g warn throttle critical graceMs s
  | .faultAck v => Sys2Proof.Machine.execFaultAck v s
  | .f2TimerExpiry slot => Sys2Proof.Machine.execF2TimerExpiry slot s
  | .f3Contained slot => Sys2Proof.Machine.execF3Contained slot s
  | .f3ContainmentTimeout slot => Sys2Proof.Machine.execF3ContainmentTimeout slot s
  | .correlationWindowClose kind ident => Sys2Proof.Machine.execCorrelationWindowClose kind ident s
  | .aliveKick v => Sys2Proof.Machine.execAliveKick v s
  | .jetDataRead word => Sys2Proof.Machine.execJetDataRead word s
  | .jetCursorWrite v => Sys2Proof.Machine.execJetCursorWrite v s
  | .channelConversion tile value => Sys2Proof.Machine.execChannelConversion tile value s
  | .roundEnd tile => Sys2Proof.Machine.execRoundEnd tile s
  | .tripComparator tile diode => Sys2Proof.Machine.execTripComparator tile diode s
  | .registerWrite fn p width v => Sys2Proof.Machine.execRegisterWrite fn p width v s
  | .extest tdi => Sys2Proof.Machine.execExtest tdi s
  | .samplePreload tdi => Sys2Proof.Machine.execSamplePreload tdi s
  | .frzSelect v => Sys2Proof.Machine.execFrzSelect v s
  | .frzShift tdi => Sys2Proof.Machine.execFrzShift tdi s
  | .frzMemaddr v => Sys2Proof.Machine.execFrzMemaddr v s
  | .coreWatchdog tile core => Sys2Proof.Machine.execCoreWatchdog tile core s
  | .auxTempPoll value => Sys2Proof.Machine.execAuxTempPoll value s
  | .smbusBlockRead command => Sys2Proof.Machine.execSmbusBlockRead command s
  | .meshLinkLoss a b => Sys2Proof.Machine.execMeshLinkLoss a b s
  | .refclkReturn c => Sys2Proof.Machine.execRefclkReturn c s
  | .echoRequest a src dst payload => Sys2Proof.Machine.execEchoRequest a src dst payload s
  | .neighbourDiscovery a m => Sys2Proof.Machine.execNeighbourDiscovery a m s
  | .portTestComplete mb counts => Sys2Proof.Machine.execPortTestComplete mb counts s
  | .selftestCommandIssue pool port => Sys2Proof.Machine.execSelftestCommandIssue pool port s
  | .pwrOkLoss => Sys2Proof.Machine.execPwrOkLoss s
  | .sysResetNAssert => Sys2Proof.Machine.execSysResetNAssert s
  | .perstNAssert => Sys2Proof.Machine.execPerstNAssert s
  | .perstNRelease => Sys2Proof.Machine.execPerstNRelease s
  | .freezeNLow => Sys2Proof.Machine.execFreezeNLow s
  | .replayComplete => Sys2Proof.Machine.execReplayComplete s
  | .epochEdge => Sys2Proof.Machine.execEpochEdge s
  | .missLimit => Sys2Proof.Machine.execMissLimit s
  | .unsynchronised => Sys2Proof.Machine.execUnsynchronised s
  | .holdoverSend => Sys2Proof.Machine.execHoldoverSend s
  | .rephase => Sys2Proof.Machine.execRephase s
  | .trainTimeout => Sys2Proof.Machine.execTrainTimeout s
  | .sealMapsStored => Sys2Proof.Machine.execSealMapsStored s
  | .sealTimeout => Sys2Proof.Machine.execSealTimeout s
  | .sealLocalEnd => Sys2Proof.Machine.execSealLocalEnd s
  | .powerStateEntry => Sys2Proof.Machine.execPowerStateEntry s
  | .jetTokenExpiry => Sys2Proof.Machine.execJetTokenExpiry s
  | .aliveToggle => Sys2Proof.Machine.execAliveToggle s
  | .hostWatchdog => Sys2Proof.Machine.execHostWatchdog s
  | .jetSuppressionWindow => Sys2Proof.Machine.execJetSuppressionWindow s
  | .idcode => Sys2Proof.Machine.execIdcode s
  | .clamp => Sys2Proof.Machine.execClamp s
  | .highz => Sys2Proof.Machine.execHighz s
  | .frzStatus => Sys2Proof.Machine.execFrzStatus s
  | .frzMemdata => Sys2Proof.Machine.execFrzMemdata s
  | .frzInfo => Sys2Proof.Machine.execFrzInfo s
  | .shutdownClose => Sys2Proof.Machine.execShutdownClose s
  | .ps2Wake => Sys2Proof.Machine.execPs2Wake s
  | .ps2Idle => Sys2Proof.Machine.execPs2Idle s
  | .testLogicReset => Sys2Proof.Machine.execTestLogicReset s

end Sys2Proof.Machine
end

