-- ==== Sys2Proof/Safety.lean ====
section
/-! DEFINITION. What counts as a safe run of the block, and the terms in which statements about commands are made. -/

namespace Sys2Proof

open Machine

/-- A step answers a next state. -/
def Safe (s : State) : Prop := ∃ t, Machine.step s = .next t

namespace Machine

/-- What a command emits first: `o` follows everything emitted before. -/
def Emits (s t : State) (o : Output) : Prop := ∃ l, t.out = s.out ++ o :: l

/-- What has left EPOCH_OUT, first byte first: instant, whether timed, and the data characters. -/
def moonOut (s : State) : List (Nat × Bool × List Byte) :=
  s.out.filterMap (fun o => match o with
    | .moon at_ timed body => some (at_, timed, body)
    | _ => none)

/-- A frame reaches a device that retimes: its bypass is open, and was when the frame's sync character came (R75, R112, R114). -/
def FrameIn (s : State) (f : MoonFrame) : Prop :=
  running s = true ∧ s.pins.bypassClosed = false ∧ s.pins.bypassAt ≤ f.at_

/-- The row that takes frame `f`: that of its command and phase (Table 2-4), or INVALID_FRAME (R76). -/
def FrameRow (c : Instr) (f : MoonFrame) : Prop :=
  (c = .edge f.sync f.body ∧ frameIs f kEdge none = true) ∨ (c = .holdover f.sync f.body ∧ frameIs f kHoldover none = true) ∨
  (c = .trainCount f ∧ frameIs f kTrain (some 1) = true) ∨ (c = .trainResult f.at_ f.timed f.body ∧ frameIs f kTrain (some 2) = true) ∨
  (c = .announce f.sync f.body ∧ frameIs f kSeal (some 1) = true) ∨ (c = .poll f.sync f.body ∧ frameIs f kSeal (some 2) = true) ∨
  (c = .done f.sync f.body ∧ frameIs f kSeal (some 3) = true) ∨ (c = .failed f.sync f.body ∧ frameIs f kSeal (some 4) = true) ∨
  (c = .invalidFrame f.sync f.body ∧ frameKnown f = false)

/-- A good frame of a partner link, from the sender expected there (R379, R380). -/
def PartnerIn (s : State) (h : PartnerHdr) (l type : Nat) (body : List Byte) : Prop :=
  running s = true ∧ tileUp s (tileOfPort h.port) = true ∧ linkAt s h.port = some l ∧ partnerWired s l = true ∧ h.type = type ∧
    h.crcGood body = true ∧ ∃ c, Tab.get? s.cfg.partners l = some c ∧ h.sender = c.identity

/-- What a good frame does whatever its TYPE: it is counted, keeps the link up and acknowledges (R380). -/
def partnerMet (s : State) (h : PartnerHdr) (l : Nat) : State := takeLack (partnerGood (countFrame s h.port) l) l h.lack

/-- `partnerMet` of the sequenced frame whose turn has come: the next LSEQ is expected (R380). -/
def partnerTurn (s : State) (h : PartnerHdr) (l : Nat) : State :=
  modPartner (partnerMet s h l) l (fun p => { p with expect := p.expect + 1 })

/-- The row that brings a sequenced frame of body `b` (Table 8-5). -/
def SeqRow (c : Instr) (h : PartnerHdr) (b : PartnerBody) : Prop :=
  (∃ pool d, c = .poolOffer h pool d ∧ b = .offer pool d) ∨ (∃ pool r, c = .poolReply h pool r ∧ b = .reply pool r) ∨
  (∃ pool, c = .poolWithdraw h pool ∧ b = .withdraw pool) ∨
  (∃ q fo o last r, c = .record h q fo o last r ∧ b = .record q o fo last r) ∨
  (∃ q o r, c = .confirm h q o r ∧ b = .confirm q o r) ∨ (∃ pool hds, c = .release h pool hds ∧ b = .release pool) ∨
  (∃ pool r, c = .releaseAck h pool r ∧ b = .releaseAck pool r)

/-- Every function's vectors stand as last seen (R403), and the F2 timers as the host's reach leaves them (R502). -/
def Settled (s : State) : Prop :=
  (∀ fn, fn ≤ s.pcie.numVfs → (getFunc s fn).high = highVectors s fn) ∧
    ∀ e ∈ s.jade.queue, (e.2.st = 1 → hostAway s = false) ∧ (e.2.st = 2 → hostAway s = true)

/-- GO on a mailbox that can be reached and is free, with firmware up, a well-formed header, an empty reserved area, the
command's PARAM_LEN, and no earlier command on the same objects (R470, R472, R478). `vf` says that a VF may issue the
command. -/
def GoReady (s : State) (g : Go) (vf : Bool) (len : Nat) (objs : List (Nat × Nat)) : Prop :=
  fwUp s = true ∧ mbxReachable s g.mb = true ∧ (getMbx s g.mb).busy = false ∧ s.hk.closing = false ∧
    (g.mb = 0 ∨ vf = true) ∧ g.hdrReserved = none ∧ g.fieldReserved = none ∧ g.paramLen = len ∧
    mbxBlocked s g.mb objs s.nextId = false

/-- The mailbox has answered with status 0 and response data `data`: BUSY clear, DONE set (R470, Table 11-5). -/
def Answered (t : State) (g : Go) (data : List Byte) : Prop :=
  (getMbx t g.mb).busy = false ∧ (getMbx t g.mb).done = true ∧ (getMbx t g.mb).lastStatus = 0 ∧
    (getMbx t g.mb).resp = { status := 0, cmdId := g.cmdId, detail := 0, data := data }

/-- The mailbox is BUSY with a command that runs on as `r`, whose response data is kept (R472, R474). -/
def Runs (t : State) (g : Go) (r : Running) (data : List Byte) : Prop :=
  (getMbx t g.mb).busy = true ∧ (getMbx t g.mb).cmdId = g.cmdId ∧ (getMbx t g.mb).running = some r ∧ (getMbx t g.mb).data = data

/-- A pool that a mailbox command may name, with replay complete. -/
def PoolReady (s : State) (pool : Nat) (c : PoolCfg) : Prop :=
  s.phase = .ready ∧ pool < 64 ∧ poolCfg? s pool = some c ∧ c.reserved = none

/-- A created volume that the mailbox's function may name, its pool not mirrored to a partner. -/
def VolReady (s : State) (g : Go) (vol : Nat) (c : VolCfg) : Prop :=
  s.phase = .ready ∧ volExists s g.mb vol = true ∧ volCfg? s vol = some c ∧ (poolCfg s c.pool).partner = none

/-- The parts of the state a command may change. -/
inductive Piece where
  | part | clock | freeIx | nextId | phase | pins | moon | tiles | mesh | cmds | mcmds | fetches
  | destages | replays | maints | budget | cfg | flash | pools | vols | members | sbt | links | partners
  | pcie | sqs | cqs | live | mbx | cache | jade | jet | jtag | hk | tests | sec
  deriving DecidableEq, Repr

/-- A command leaves `t` from `s`, changing no part but those of `l`: the queue of waiting commands stays, what has been emitted
stays, and where `l` does not name them PCIe changes only in its functions' interrupt records and Jade only in the
standing of its F2 timers (the end of every command brings those up to date). -/
structure Frame (l : List Piece) (s t : State) : Prop where
  pending : t.pending = s.pending
  out : s.out <+: t.out
  part : .part ∉ l → t.part = s.part
  clock : .clock ∉ l → t.clock = s.clock
  freeIx : .freeIx ∉ l → t.freeIx = s.freeIx
  nextId : .nextId ∉ l → t.nextId = s.nextId
  phase : .phase ∉ l → t.phase = s.phase
  pins : .pins ∉ l → t.pins = s.pins
  moon : .moon ∉ l → t.moon = s.moon
  tiles : .tiles ∉ l → t.tiles = s.tiles
  mesh : .mesh ∉ l → t.mesh = s.mesh
  cmds : .cmds ∉ l → t.cmds = s.cmds
  mcmds : .mcmds ∉ l → t.mcmds = s.mcmds
  fetches : .fetches ∉ l → t.fetches = s.fetches
  destages : .destages ∉ l → t.destages = s.destages
  replays : .replays ∉ l → t.replays = s.replays
  maints : .maints ∉ l → t.maints = s.maints
  budget : .budget ∉ l → t.budget = s.budget
  cfg : .cfg ∉ l → t.cfg = s.cfg
  flash : .flash ∉ l → t.flash = s.flash
  pools : .pools ∉ l → t.pools = s.pools
  vols : .vols ∉ l → t.vols = s.vols
  members : .members ∉ l → t.members = s.members
  sbt : .sbt ∉ l → t.sbt = s.sbt
  links : .links ∉ l → t.links = s.links
  partners : .partners ∉ l → t.partners = s.partners
  pcie : .pcie ∉ l → t.pcie = { s.pcie with funcs := t.pcie.funcs }
  sqs : .sqs ∉ l → t.sqs = s.sqs
  cqs : .cqs ∉ l → t.cqs = s.cqs
  live : .live ∉ l → t.live = s.live
  mbx : .mbx ∉ l → t.mbx = s.mbx
  cache : .cache ∉ l → t.cache = s.cache
  jade : .jade ∉ l → t.jade = { s.jade with queue := t.jade.queue }
  jet : .jet ∉ l → t.jet = s.jet
  jtag : .jtag ∉ l → t.jtag = s.jtag
  hk : .hk ∉ l → t.hk = s.hk
  tests : .tests ∉ l → t.tests = s.tests
  sec : .sec ∉ l → t.sec = s.sec

end Machine
end Sys2Proof
end

