-- ==== Sys2Proof/Certificates/Slice0/Obligations.lean ====
section
/-! DEFINITION. The statements about the block that the provers are given. Each command's statement concludes that exec
answers a next state, and says what that state holds. -/

open Sys2Proof Sys2Proof.Machine

/-! ### The queue and the interrupt levels -/

/-- One step is exec of the command at the front of the queue, on the state with the queue's rest (log entry 8). -/
def Obligations.StepRunsFront : Prop :=
  ∀ (s : State) (c : Instr) (rest : List Instr), s.pending = c :: rest → step s = exec c { s with pending := rest }

/-- At reset no vector is high, none is recorded as high, and no F2 timer stands. -/
def Obligations.SettledReset : Prop := Settled State.reset

/-- Every step leaves the interrupt levels compared (R403) and the F2 timers held exactly while the host cannot reach the
device (R502). -/
def Obligations.SettledStep : Prop := ∀ s t : State, Settled s → step s = .next t → Settled t

/-- What State.reset holds: the values the spec gives for registers of every group (Tables 2-10, 2-11, 6-12, 6-13, 12-6, 12-7,
12-11, 13-11). -/
def Obligations.ResetValues : Prop :=
  State.reset.moon.role = 0 ∧ State.reset.moon.trained = false ∧ State.reset.moon.period = 2 ∧ State.reset.moon.guard = 4 ∧
    State.reset.cache.en = true ∧ State.reset.cache.seed = 0xACE1 ∧ State.reset.cache.evmode = false ∧
    State.reset.cache.repl = false ∧ State.reset.cache.pfDepth = 1 ∧
    State.reset.jade.escMs = 100 ∧ State.reset.jade.hwdogMs = 1000 ∧ State.reset.jade.hwdogEn = false ∧
    faultStatus State.reset.jade = 0 ∧ State.reset.pins.faultN = true ∧ State.reset.pins.alive = false ∧
    State.reset.pins.bypassClosed = true ∧ State.reset.jtag.ir = 0x02 ∧ State.reset.pending = []

/-! ### JTAG (R528, R529, Table 12-16) -/

/-- The public instructions: while T0's core domain is powered each completes, is left in the instruction register, and shifts
out the bits of its data register; the boundary register's captured bits are free. -/
def Obligations.JtagPublic : Prop :=
  (∀ s : State, tapUp s = true → ∃ t, exec .testLogicReset s = .next t ∧ t.jtag.ir = 0x02) ∧
  (∀ s : State, tapUp s = true → ∃ t, exec .idcode s = .next t ∧ t.jtag.ir = 0x02 ∧
    Emits s t (.tdo (lsbFirst 32 (1 + 2 * 0x5A3 + 4096 * (0x0E00 + s.part.tiles) + 2 ^ 28 * Config.stepping.toNat)))) ∧
  (∀ s : State, tapUp s = true → ∃ t, exec .clamp s = .next t ∧ t.jtag.ir = 0x03 ∧ Emits s t (.tdo [false])) ∧
  (∀ s : State, tapUp s = true → ∃ t, exec .highz s = .next t ∧ t.jtag.ir = 0x04 ∧ Emits s t (.tdo [false])) ∧
  (∀ (s : State) (tdi : List Bool), tapUp s = true → ∃ t, exec (.extest tdi) s = .next t ∧ t.jtag.ir = 0x00 ∧
    t.jtag.boundary = tdi ∧ ∃ l : List Bool, l.length = tdi.length ∧ Emits s t (.tdo l)) ∧
  (∀ (s : State) (tdi : List Bool), tapUp s = true → ∃ t, exec (.samplePreload tdi) s = .next t ∧ t.jtag.ir = 0x01 ∧
    t.jtag.boundary = tdi ∧ ∃ l : List Bool, l.length = tdi.length ∧ Emits s t (.tdo l)) ∧
  (∀ s : State, tapUp s = true → ∃ t, exec .frzStatus s = .next t ∧ t.jtag.ir = 0x80 ∧
    Emits s t (.tdo (lsbFirst 32 (frzStatusWord s))))

/-- The freeze-capture instructions: in freeze each has its effect; outside it each selects a 1-bit register that reads as
zero and changes no other JTAG register (R528). -/
def Obligations.JtagFreeze : Prop :=
  (∀ (s : State) (v : BitVec 16), tapUp s = true → s.jade.frozen = true → ∃ t, exec (.frzSelect v) s = .next t ∧
    t.jtag.ir = 0x81 ∧ t.jtag.select = v &&& 0x03FF ∧ Emits s t (.tdo (lsbFirst 16 s.jtag.select.toNat))) ∧
  (∀ (s : State) (v : BitVec 64), tapUp s = true → s.jade.frozen = true → ∃ t, exec (.frzMemaddr v) s = .next t ∧
    t.jtag.ir = 0x83 ∧ t.jtag.memaddr = v ∧ Emits s t (.tdo (lsbFirst 64 s.jtag.memaddr.toNat))) ∧
  (∀ (s : State) (tdi : List Bool), tapUp s = true → s.jade.frozen = true → chainThere s = true →
    ∃ t, exec (.frzShift tdi) s = .next t ∧ t.jtag.ir = 0x82 ∧ chainBits t = (chainBits s ++ tdi).drop tdi.length ∧
      Emits s t (.tdo ((chainBits s ++ tdi).take tdi.length))) ∧
  (∀ s : State, tapUp s = true → s.jade.frozen = true → ∃ t, exec .frzMemdata s = .next t ∧ t.jtag.ir = 0x84 ∧
    t.jtag.memaddr = s.jtag.memaddr + 128 ∧
    ∃ chk : BitVec 10, Emits s t (.tdo ((memWord s).flatMap (fun b => lsbFirst 8 b.toNat) ++ lsbFirst 10 chk.toNat))) ∧
  (∀ s : State, tapUp s = true → s.jade.frozen = true → ∃ t, exec .frzInfo s = .next t ∧ t.jtag.ir = 0x85 ∧
    Emits s t (.tdo (lsbFirst 64 (frzInfoWord s)))) ∧
  (∀ (s : State) (c : Instr) (code : BitVec 8), tapUp s = true → s.jade.frozen = false →
    ((∃ v, c = .frzSelect v ∧ code = 0x81) ∨ (∃ l, c = .frzShift l ∧ code = 0x82) ∨ (∃ v, c = .frzMemaddr v ∧ code = 0x83) ∨
      (c = .frzMemdata ∧ code = 0x84) ∨ (c = .frzInfo ∧ code = 0x85)) →
    ∃ t, exec c s = .next t ∧ t.jtag = { s.jtag with ir := code } ∧ Emits s t (.tdo [false]))

/-! ### Faults, ALIVE and the Jet window (chapter 12) -/

/-- Acknowledging, escalating and containing entries of the fault queue (R502, R503, R507, R510, R518). -/
def Obligations.FaultQueueRows : Prop :=
  (∀ (s : State) (v : W32), running s = true → canDma s 0 = true → f2Slot s.jade (v.toNat % 256) = none →
    ∃ t, exec (.faultAck v) s = .next t ∧ t.jade.ackErr = true ∧ t.jet = s.jet) ∧
  (∀ (s : State) (v : W32) (i : Nat), running s = true → canDma s 0 = true → f2Slot s.jade (v.toNat % 256) = some i →
    ∃ t, exec (.faultAck v) s = .next t ∧ Tab.get? t.jade.queue i = none ∧ t.jade.ackErr = s.jade.ackErr) ∧
  (∀ (s : State) (slot : Nat) (e : FaultEnt), running s = true → hostAway s = false → Tab.get? s.jade.queue slot = some e →
    e.st = 1 → (uncontainable e.source && !e.acted) = false →
    ∃ t, exec (.f2TimerExpiry slot) s = .next t ∧ t.jade.escalated = true ∧ t.jade.f3Seen = true ∧
      ∃ e', Tab.get? t.jade.queue slot = some e' ∧ e'.cls = 3 ∧ e'.st = 3 ∧ e'.source = e.source ∧ e'.ident = e.ident) ∧
  (∀ (s : State) (slot : Nat) (e : FaultEnt), running s = true → Tab.get? s.jade.queue slot = some e →
    e.st = 1 → hostAway s = false → uncontainable e.source = true → e.acted = false →
    ∃ t, exec (.f2TimerExpiry slot) s = .next t ∧ t.jade.f4 = true) ∧
  (∀ (s : State) (slot : Nat) (e : FaultEnt), fwUp s = true → Tab.get? s.jade.queue slot = some e → e.st = 3 → e.acted = true →
    ∃ t, exec (.f3Contained slot) s = .next t ∧ Tab.get? t.jade.queue slot = none ∧ t.pools = s.pools ∧ t.tiles = s.tiles) ∧
  (∀ (s : State) (slot : Nat) (e : FaultEnt), fwUp s = true → Tab.get? s.jade.queue slot = some e → e.st = 3 → e.acted = false →
    (contain s e).jade.f4 = false →
    exec (.f3Contained slot) s = .next (settled (freeEntry (jetInfo (contain s e) 0x8004 (srcJade 0)
      (leBytes 1 e.ident ++ leBytes 4 ((s.clock - e.since) / 1000))) slot))) ∧
  (∀ (s : State) (slot : Nat) (e : FaultEnt), fwUp s = true → Tab.get? s.jade.queue slot = some e → e.st = 3 → e.acted = false →
    (contain s e).jade.f4 = true → exec (.f3Contained slot) s = .next (settled (contain s e))) ∧
  (∀ (s : State) (slot : Nat) (e : FaultEnt), running s = true → Tab.get? s.jade.queue slot = some e → e.st = 3 →
    ∃ t, exec (.f3ContainmentTimeout slot) s = .next t ∧ t.jade.f4 = true ∧ t.pins.faultN = false ∧ t.pins.alive = false ∧
      t.pcie.linkUp = false ∧ t.pins.bypassClosed = true ∧ t.moon.trained = false) ∧
  (∀ (s : State) (kind ident : Nat), running s = true → (domWindow s.jade kind ident).isSome = true →
    ∃ t, exec (.correlationWindowClose kind ident) s = .next t ∧ domWindow t.jade kind ident = none)

/-- ALIVE, the watchdogs and the Jet window (R513, R515, R516, R521, R522). -/
def Obligations.AliveAndJetRows : Prop :=
  (∀ s : State, running s = true → s.jade.aliveRunning = true →
    ∃ t, exec .aliveToggle s = .next t ∧ t.pins = { s.pins with alive := !s.pins.alive }) ∧
  (∀ (s : State) (tile core : Nat), fwUp s = true → tileUp s tile = true → core < 4 →
    exec (.coreWatchdog tile core) s =
      .next (settled (declareLost s tile { code := 0x8009, cls := 3, src := srcCore tile core, data := leBytes 1 core }))) ∧
  (∀ s : State, running s = true → s.jade.hwdogEn = true → s.jade.hwdogRunning = true → hostAway s = false →
    ∃ t, exec .hostWatchdog s = .next t ∧ t.jade.hwdog = true ∧ t.jade.hwdogRunning = false) ∧
  (∀ (s : State) (v : W32), running s = true → canDma s 0 = true →
    ∃ t, exec (.aliveKick v) s = .next t ∧ t.jade.hwdogRunning = s.jade.hwdogEn ∧ t.pins = s.pins) ∧
  (∀ (s : State) (w : Nat), running s = true → canDma s 0 = true → w < 7 →
    ∃ t, exec (.jetDataRead w) s = .next t ∧ t.jet.index = s.jet.index ∧ t.jet.latched.isSome = true ∧
      ∃ v, Emits s t (.readData v)) ∧
  (∀ s : State, running s = true → canDma s 0 = true →
    ∃ t, exec (.jetDataRead 7) s = .next t ∧ t.jet.index = (s.jet.index + 1) % areaSize s.jet.area ∧ t.jet.latched = none ∧
      ∃ v, Emits s t (.readData v)) ∧
  (∀ (s : State) (v : W32), running s = true → canDma s 0 = true → bits v.toNat 11 0 < areaSize (bit v.toNat 12) →
    ∃ t, exec (.jetCursorWrite v) s = .next t ∧ t.jet.area = bit v.toNat 12 ∧ t.jet.index = bits v.toNat 11 0) ∧
  (∀ s : State, running s = true → s.jet.suppressed = [] →
    ∃ t, exec .jetSuppressionWindow s = .next t ∧ t.jet = { s.jet with written := [] }) ∧
  (∀ s : State, running s = true → exec .jetSuppressionWindow s = .next (settled (s.jet.suppressed.foldl
    (fun x e => jetInfo x 0x8006 (srcJade 0) (leBytes 2 e.1 ++ leBytes 4 e.2))
    { s with jet := { s.jet with written := [], suppressed := [] } })))

/-! ### Power, reset and freeze (R55, R398, R429, R525, R526, R543, R566-R575) -/

/-- Losing power, SYS_RESET_N and FREEZE_N (R112, R514, R525, R566, R570): what each leaves, and what survives (Table 1-7). -/
def Obligations.PowerLossRows : Prop :=
  (∀ s : State, s.phase ≠ .off → ∃ t, exec .pwrOkLoss s = .next t ∧ t.phase = .off ∧ t.pins.pwrOk = false ∧
    t.pins.faultN = true ∧ t.pins.alive = false ∧ t.pins.bypassClosed = true ∧ t.jade.f4 = false ∧ t.jade.frozen = false ∧
    t.cfg = s.cfg ∧ t.flash = s.flash ∧ t.jet.pinned = s.jet.pinned ∧ t.jet.circ = s.jet.circ ∧ t.cmds = [] ∧ t.live = [] ∧
    t.sbt = {} ∧ t.sqs = [] ∧ t.cqs = [] ∧ t.mbx = []) ∧
  (∀ s : State, s.phase ≠ .off → s.jade.f4 = false → ∃ t, exec .sysResetNAssert s = .next t ∧ t.phase = .held ∧
    t.pins.sysResetN = false ∧ t.pins.alive = false ∧ t.pins.bypassClosed = true ∧ t.jade.frozen = false ∧
    t.cfg = s.cfg ∧ t.flash = s.flash ∧ t.jet.pinned = s.jet.pinned ∧ t.jet.circ = s.jet.circ ∧ t.cmds = [] ∧ t.mbx = []) ∧
  (∀ s : State, s.phase ≠ .off → s.jade.f4 = true → exec .sysResetNAssert s = .next s) ∧
  (∀ s : State, powered s = true → ∃ t, exec .freezeNLow s = .next t ∧ t.jade.frozen = true ∧ t.pins.alive = false ∧
    t.pins.faultN = false ∧ t.pins.bypassClosed = true ∧ t.moon.trained = false ∧ t.pcie.linkUp = false ∧
    (∀ e ∈ t.links, e.2.up = false) ∧ (∀ e ∈ t.tiles, e.2.clocksStopped = true) ∧ t.cmds = s.cmds ∧ t.mcmds = s.mcmds)

/-- The device start, firmware up and the end of replay (R195, R471, R474, R573). -/
def Obligations.StartRows : Prop :=
  (∀ (s : State) (failed : List Nat), s.phase = .off ∨ s.phase = .held → tooHot s = false → failed.contains 0 = false →
    ∃ t, exec (.deviceStart failed) s = .next t ∧ t.phase = .boot ∧ t.cfg = s.cfg ∧
      ∀ k x, Tab.get? t.tiles k = some x → x.inService = !failed.contains k) ∧
  (∀ (s : State) (failed : List Nat), s.phase = .off ∨ s.phase = .held → tooHot s = false → failed.contains 0 = true →
    ∃ t, exec (.deviceStart failed) s = .next t ∧ t.jade.f4 = true) ∧
  (∀ (s : State) (headers : List (Nat × PoolHeader)), running s = true → s.phase = .boot → tileUp s 0 = true →
    s.sec.bootFailed = false →
    ∃ t, exec (.firmwareUp headers) s = .next t ∧ t.phase = .replay ∧
      t.cfg = { (match bestCopy s.flash with | some c => c.2 | none => ({} : Cfg)) with pools := t.cfg.pools } ∧
      ((∀ p, (getPool s p).mirrorSet = none) → t.cfg = (match bestCopy s.flash with | some c => c.2 | none => {})) ∧
      t.hk.tWarn = t.cfg.warn ∧ t.hk.tThrottle = t.cfg.throttle ∧ t.hk.tCritical = t.cfg.critical) ∧
  (∀ s : State, running s = true → s.phase = .replay → replayed s = true →
    ∃ t, exec .replayComplete s = .next t ∧ t.phase = .ready ∧ t.cfg = s.cfg)

/-- PERST_N and the reference clocks (R55, R429, R569, R571). -/
def Obligations.PinRows : Prop :=
  (∀ s : State, s.pins.perstN = true → running s = true →
    ((getFunc s 0).d = .d3hot && s.cfg.d3coldEn && fwUp s) = false →
    ∃ t, exec .perstNAssert s = .next t ∧ t.pins.perstN = false ∧ t.pcie.linkUp = false ∧ t.pcie.numVfs = 0 ∧ t.pcie.reqs = [] ∧
      t.phase = s.phase) ∧
  (∀ s : State, s.pins.perstN = true → running s = true → (getFunc s 0).d = .d3hot → s.cfg.d3coldEn = true → fwUp s = true →
    ∃ t, exec .perstNAssert s = .next t ∧ t.pins.perstN = false ∧ t.pcie.linkUp = false ∧ t.hk.closing = true ∧
      t.hk.toD3cold = true) ∧
  (∀ s : State, s.pins.perstN = true → running s = false →
    ∃ t, exec .perstNAssert s = .next t ∧ t.pins.perstN = false ∧ t.pcie.linkUp = false) ∧
  (∀ s : State, s.pins.perstN = false → s.phase ≠ .d3cold →
    ∃ t, exec .perstNRelease s = .next t ∧ t.pins = { s.pins with perstN := true } ∧ t.phase = s.phase) ∧
  (∀ s : State, s.pins.perstN = false → s.phase = .d3cold →
    ∃ t, exec .perstNRelease s = .next t ∧ (t.phase = .boot ∧ t.cfg = s.cfg ∨ t.jade.f4 = true)) ∧
  (∀ s : State, running s = true → s.pins.pcieRefclk = true → s.pcie.linkUp = true →
    ∃ t, exec (.refclkLoss .pcie) s = .next t ∧ t.pins.pcieRefclk = false ∧ t.pcie.linkUp = false) ∧
  (∀ s : State, s.pins.pcieRefclk = true → (running s && s.pcie.linkUp) = false →
    ∃ t, exec (.refclkLoss .pcie) s = .next t ∧ t.pins = { s.pins with pcieRefclk := false } ∧ t.pcie.linkUp = s.pcie.linkUp) ∧
  (∀ (s : State) (j : Nat), running s = false → j < s.part.tiles / 2 → s.pins.sdRefclk.getD j false = true →
    ∃ t, exec (.refclkLoss (.sd j)) s = .next t ∧ t.pins = { s.pins with sdRefclk := s.pins.sdRefclk.set j false }) ∧
  (∀ (s : State) (j : Nat), running s = true → j < s.part.tiles / 2 → s.pins.sdRefclk.getD j false = true →
    ∃ t, exec (.refclkLoss (.sd j)) s = .next t ∧ t.pins.sdRefclk = s.pins.sdRefclk.set j false) ∧
  (∀ (s : State) (j : Nat), j < s.part.tiles / 2 →
    ∃ t, exec (.refclkReturn (.sd j)) s = .next t ∧ t.pins = { s.pins with sdRefclk := s.pins.sdRefclk.set j true }) ∧
  (∀ s : State, ∃ t, exec (.refclkReturn .pcie) s = .next t ∧ t.pins = { s.pins with pcieRefclk := true })

/-! ### Housekeeping (chapter 13) -/

/-- Carnelian's conversions, the trip comparator, the auxiliary temperature, PS2 and the SMBus block (R530, R537, R541, R543, R546,
R575). -/
def Obligations.HousekeepingRows : Prop :=
  (∀ (s : State) (tile : Nat) (v : BitVec 16), fwUp s = true → tileUp s tile = true → (getSlice s tile).next < 24 →
    ∃ t, exec (.channelConversion tile v) s = .next t ∧ (getSlice t tile).next = (getSlice s tile).next + 1 ∧
      (getSlice t tile).reading (getSlice s tile).next = if (getSlice s tile).next = 23 then 0 else v.toInt) ∧
  (∀ (s : State) (tile diode : Nat), powered s = true → tile < s.part.tiles → diode < 8 →
    (getSlice s tile).excluded.contains diode = false →
    ∃ t, exec (.tripComparator tile diode) s = .next t ∧ t.phase = .shutdown ∧ t.hk.storedCause = 2 ∧ t.pins.alive = false ∧
      t.pins.bypassClosed = true ∧ t.pcie.linkUp = false ∧ t.jade.f1Seen = true ∧ ∀ e ∈ t.links, e.2.up = false) ∧
  (∀ (s : State) (v : BitVec 11), powered s = false →
    ∃ t, exec (.auxTempPoll v) s = .next t ∧ t.hk = { s.hk with auxTemp := v }) ∧
  (∀ s : State, fwUp s = true → s.hk.ps = .ps2 → s.hk.ps2Idle = true →
    ∃ t, exec .ps2Wake s = .next t ∧ t.hk = { s.hk with ps2Idle := false }) ∧
  (∀ s : State, fwUp s = true → s.hk.ps = .ps2 → s.hk.ps2Idle = false → idleNow s = true →
    ∃ t, exec .ps2Idle s = .next t ∧ t.hk = { s.hk with ps2Idle := true }) ∧
  (∀ s : State, ∃ t, exec (.smbusBlockRead 0x10) s = .next t ∧ Emits s t (.smbus (smbusBlock s)) ∧ (smbusBlock s).length = 40) ∧
  (∀ (s : State) (c : Byte), c ≠ 0x10 → ∃ t, exec (.smbusBlockRead c) s = .next t ∧ Emits s t .smbusNack) ∧
  (∀ s : State, running s = true → s.hk.closing = true → s.hk.toD3cold = false →
    ∃ t, exec .shutdownClose s = .next t ∧ t.phase = .shutdown ∧ t.hk.storedCause = 1 ∧ t.hk.closing = false ∧
      t.pcie.linkUp = false) ∧
  (∀ s : State, running s = true → s.hk.closing = true → s.hk.toD3cold = true →
    ∃ t, exec .shutdownClose s = .next t ∧ t.phase = .d3cold ∧ t.hk.closing = false ∧ t.pcie.linkUp = false) ∧
  (∀ (s : State) (tile : Nat), fwUp s = true → tileUp s tile = true → (getSlice s tile).next = 24 →
    fastRise (getSlice s tile) = true →
    ∃ t, exec (.roundEnd tile) s = .next t ∧ t.phase = .shutdown ∧ t.hk.storedCause = 3) ∧
  (∀ (s : State) (tile : Nat), fwUp s = true → tileUp s tile = true → (getSlice s tile).next = 24 →
    fastRise (getSlice s tile) = false → s.hk.closing = true →
    ∃ t, exec (.roundEnd tile) s = .next t ∧ (getSlice t tile).next = 0 ∧ t.hk.tWarn = s.cfg.warn ∧ t.hk.tThrottle = s.cfg.throttle) ∧
  (∀ (s : State) (tile : Nat), fwUp s = true → tileUp s tile = true → (getSlice s tile).next = 24 →
    fastRise (getSlice s tile) = false → s.hk.closing = false → s.hk.running = false →
    roundFaults (getSlice s tile) tile (s.pins.sdRefclk.getD (tile / 2) false) = [] →
    (∀ k, tileUp s k = true → k ≠ tile → (getSlice s k).temp < 4 * (s.cfg.warn : Int) - 12 ∧ (getSlice s k).alarm = false) →
    (∀ d, d < 8 → (getSlice s tile).reading d < 4 * (s.cfg.warn : Int) - 12) → (getSlice s tile).diodes ≠ [] →
    s.cfg.warn ≤ s.cfg.throttle → s.cfg.throttle ≤ s.cfg.critical →
    ∃ t, exec (.roundEnd tile) s = .next t ∧ (getSlice t tile).next = 0 ∧ t.hk.level = 0 ∧ t.hk.running = false ∧
      t.hk.tWarn = s.cfg.warn ∧ t.hk.tThrottle = s.cfg.throttle ∧ t.hk.tCritical = s.cfg.critical ∧ t.jet = s.jet ∧
      (getSlice t tile).good = (getSlice s tile).diodes.length ∧ t.pins = s.pins)


/-! ### Moonstone (chapter 02) -/

/-- Frames at EPOCH_IN (R75-R77, R80, R86-R91, R95, R113, R114): forwarding 80 ns later with COUNT incremented, the frames a device
removes, the phase error of an accepted EDGE frame, the frames a device does not act on, and the closed bypass. The trim's sum is the
model's choice (log entry 103), and so is the instant from which a frame counts as crossing (R114). -/
def Obligations.MoonFrameRows : Prop :=
  (∀ (s : State) (f : MoonFrame), FrameIn s f → frameIs f kEdge none = true → isMaster s = true → frameOrigin f = 0 →
    s.moon.edgesOut.contains (frameNumber f) = true →
    ∃ t, exec (.edge f.sync f.body) s = .next t ∧ moonOut t = moonOut s ∧
      t.moon = { s.moon with validThis := true, silent := 0, edgesOut := s.moon.edgesOut.filter (· != frameNumber f) }) ∧
  (∀ (s : State) (f : MoonFrame), FrameIn s f → frameIs f kEdge none = true → isMaster s = true →
    (frameOrigin f ≠ 0 ∨ s.moon.edgesOut.contains (frameNumber f) = false) →
    ∃ t, exec (.edge f.sync f.body) s = .next t ∧ t.moon.masterConflict = true ∧ t.moon.edgesOut = s.moon.edgesOut ∧
      t.moon.edgeShift = s.moon.edgeShift) ∧
  (∀ (s : State) (f : MoonFrame), FrameIn s f → frameIs f kEdge none = true → isMaster s = false →
    (isMember s && s.moon.trained) = false →
    ∃ t, exec (.edge f.sync f.body) s = .next t ∧ t.moon = { s.moon with validThis := true, silent := 0 } ∧ t.clock = max s.clock f.at_ ∧
      Emits s t (.moon (f.at_ + 80) f.timed (hopBody f []))) ∧
  (∀ (s : State) (f : MoonFrame), FrameIn s f → frameIs f kEdge none = true → isMember s = true → s.moon.trained = true →
    inWindow (frameOffset s.moon f) = true → frameOrigin f = 0 → s.moon.behind = false →
    frameEpoch s.moon f ≤ frameNumber f →
    ∃ t, exec (.edge f.sync f.body) s = .next t ∧ t.moon.misses = 0 ∧ t.moon.unsynced = false ∧ t.moon.lastAccepted = some f.at_ ∧
      t.moon.strays = [] ∧ t.moon.delay = s.moon.delayNext.getD s.moon.delay ∧ t.moon.epoch = s.moon.epoch ∧
      t.moon.edgeShift = s.moon.edgeShift + trainMove s.moon + (if (frameEdge s.moon f).2.2 = true then 0 else frameOffset s.moon f) ∧
      t.moon.shiftAfter = s.moon.shiftAfter + (if (frameEdge s.moon f).2.2 = true then frameOffset s.moon f else 0) ∧
      t.moon.trim = s.moon.trim + clampPpb (frameOffset s.moon f * 1000000000 / (16000 * 2 ^ s.moon.period : Int)) ∧
      Emits s t (.moon (f.at_ + 80) f.timed (hopBody f []))) ∧
  (∀ (s : State) (f : MoonFrame), FrameIn s f → frameIs f kEdge none = true → isMember s = true → s.moon.trained = true →
    inWindow (frameOffset s.moon f) = true → frameNumber f < frameEpoch s.moon f →
    ∃ t, exec (.edge f.sync f.body) s = .next t ∧ t.moon.epochBehind = true ∧ t.moon.behind = true ∧ t.moon.misses = s.moon.misses ∧
      t.moon.acceptedThis = s.moon.acceptedThis ∧ Emits s t (.moon (f.at_ + 80) f.timed (hopBody f []))) ∧
  (∀ (s : State) (f : MoonFrame), FrameIn s f → frameIs f kEdge none = true → isMember s = true → s.moon.trained = true →
    inWindow (frameOffset s.moon f) = false →
    ∃ t, exec (.edge f.sync f.body) s = .next t ∧ t.moon.nFalseMarks = s.moon.nFalseMarks + 1 ∧ t.moon.misses = s.moon.misses ∧
      t.moon.edgeShift = s.moon.edgeShift + trainMove s.moon ∧ t.moon.strays.head? = some (frameOffset s.moon f) ∧
      Emits s t (.moon (f.at_ + 80) f.timed (hopBody f []))) ∧
  (∀ (s : State) (f : MoonFrame), FrameIn s f → frameValid f = false → (isMaster s && frameOrigin f == 0) = false →
    ∃ t, exec (.invalidFrame f.sync f.body) s = .next t ∧ t.moon.trained = s.moon.trained ∧ t.moon.edgeShift = s.moon.edgeShift ∧
      t.moon.misses = s.moon.misses ∧ t.moon.silent = s.moon.silent ∧
      t.moon.nCrcFails = (if frameCrcGood f = true then s.moon.nCrcFails else s.moon.nCrcFails + 1) ∧
      Emits s t (.moon (f.at_ + 80) f.timed (hopBody f []))) ∧
  (∀ (s : State) (f : MoonFrame), FrameIn s f → frameValid f = true → frameKnown f = false → ownFrame s f false = false →
    ∃ t, exec (.invalidFrame f.sync f.body) s = .next t ∧ t.moon = { s.moon with validThis := true, silent := 0 } ∧
      Emits s t (.moon (f.at_ + 80) f.timed (hopBody f []))) ∧
  (∀ (s : State) (f : MoonFrame) (c : Instr), frameValid f = false →
    c ∈ [.edge f.sync f.body, .announce f.sync f.body, .poll f.sync f.body, .done f.sync f.body, .failed f.sync f.body,
      .holdover f.sync f.body, .trainCount f, .trainResult f.at_ f.timed f.body] →
    exec c s = exec (.invalidFrame f.sync f.body) s) ∧
  (∀ (s : State) (f : MoonFrame), FrameIn s f → frameIs f kHoldover none = true → ownFrame s f true = false → framePhase f = 2 →
    ∃ t, exec (.holdover f.sync f.body) s = .next t ∧ t.moon.breakPos = frameOrigin f ∧ t.moon.breakSeen = true ∧
      Emits s t (.moon (f.at_ + 80) f.timed (hopBody f []))) ∧
  (∀ (s : State) (f : MoonFrame), FrameIn s f → frameIs f kHoldover none = true → ownFrame s f true = false → framePhase f ≠ 2 →
    ∃ t, exec (.holdover f.sync f.body) s = .next t ∧ t.moon = { s.moon with validThis := true, silent := 0 } ∧
      Emits s t (.moon (f.at_ + 80) f.timed (hopBody f []))) ∧
  (∀ (s : State) (f : MoonFrame), FrameIn s f → frameIs f kHoldover none = true → ownFrame s f true = true →
    ∃ t, exec (.holdover f.sync f.body) s = .next t ∧ t.moon = { s.moon with validThis := true, silent := 0 } ∧ moonOut t = moonOut s) ∧
  (∀ (s : State) (f : MoonFrame) (c : Instr), FrameRow c f → s.pins.bypassClosed = true → s.pins.bypassAt ≤ f.at_ →
    ∃ t, exec c s = .next t ∧ t.moon = s.moon ∧ Emits s t (.moon f.at_ f.timed f.body)) ∧
  (∀ (s : State) (f : MoonFrame) (c : Instr), FrameRow c f → f.at_ < s.pins.bypassAt →
    ∃ t, exec c s = .next t ∧ t.moon = s.moon ∧ moonOut t = moonOut s)

/-- Misses, holdover and re-phase (R78, R92, R94, R95). Before any frame has been accepted nothing bounds the device's own drift
(log entry 104). -/
def Obligations.MoonTimerRows : Prop :=
  (∀ s : State, fwUp s = true → isMember s = true → s.moon.trained = true → s.moon.misses = 16 →
    exec .missLimit s = .next (settled (fault0 s 0x6004 2 srcMoon))) ∧
  (∀ s : State, fwUp s = true → isMember s = true → s.moon.trained = true → s.moon.unsynced = false → 0 < s.moon.misses →
    ∃ t, exec .unsynchronised s = .next t ∧ t.moon.unsynced = true) ∧
  (∀ s : State, retimes s = true → isMember s = true → 4 ≤ s.moon.silent → s.moon.holdoverSent = false →
    ∃ t, exec .holdoverSend s = .next t ∧ t.moon.holdoverSent = true ∧ t.moon.lineFree = ctlInstant s + 2560 ∧
      Emits s t (.moon (ctlInstant s) false
        (frameBody false s.moon.epoch (BitVec.ofNat 10 s.moon.position) false 0 kHoldover (holdoverArgs 2)))) ∧
  (∀ (s : State) (x y z : Int) (l : List Int), fwUp s = true → s.moon.strays = x :: y :: z :: l → ownDrift s x = true →
    ∃ t, exec .rephase s = .next t ∧ t.moon.edgeShift = s.moon.edgeShift + x ∧ t.moon.dShift = s.moon.dShift ∧
      t.moon.rephased = s.moon.rephased ∧ t.moon.strays = []) ∧
  (∀ (s : State) (x y z : Int) (l : List Int), fwUp s = true → s.moon.strays = x :: y :: z :: l → ownDrift s x = false →
    ∃ t, exec .rephase s = .next t ∧ t.moon.dShift = s.moon.dShift + x ∧ t.moon.edgeShift = s.moon.edgeShift ∧
      t.moon.rephased = true ∧ t.moon.nRephases = s.moon.nRephases + 1 ∧ t.moon.strays = []) ∧
  (∀ (s : State) (x : Int) (a : Nat), s.moon.lastAccepted = some a →
    (ownDrift s x = true ↔ x.natAbs * 1000000 ≤ 64 * 1000000 + 2 * (s.clock - a)))

/-- Training (R81, R82): positions, the delay share, completion, expiry, and what voids it. -/
def Obligations.MoonTrainRows : Prop :=
  (∀ (s : State) (f : MoonFrame), FrameIn s f → frameIs f kTrain (some 1) = true → ownFrame s f false = false → frameOvf f = false →
    frameCount f ≠ 1023 →
    ∃ t, exec (.trainCount f) s = .next t ∧ t.moon.position = (frameCount f).toNat + 1 ∧
      t.moon.train.seen = some ((frameCount f).toNat + 1) ∧
      Emits s t (.moon (f.at_ + 80) f.timed
        (hopBody f [(2, 6, (if frameNumber f < s.moon.epoch then s.moon.epoch else frameNumber f).toNat)]))) ∧
  (∀ (s : State) (f : MoonFrame), FrameIn s f → frameIs f kTrain (some 1) = true → ownFrame s f false = false →
    (hop f).2 = true →
    ∃ t, exec (.trainCount f) s = .next t ∧ t.moon.position = s.moon.position ∧ t.moon.train.seen = none) ∧
  (∀ (s : State) (f : MoonFrame) (t0 mb : Nat), FrameIn s f → frameIs f kTrain (some 1) = true → ownFrame s f false = true →
    s.moon.train.sentAt = some t0 → s.moon.train.mb = some mb → frameOvf f = false → (getMbx s mb).orphan = false →
    ∃ t, exec (.trainCount f) s = .next t ∧ t.moon.trained = true ∧ t.moon.loop = f.at_ - t0 ∧ t.moon.train = {} ∧
      t.moon.position = 0 ∧ (getMbx t mb).busy = false ∧ (getMbx t mb).lastStatus = 0 ∧
      Emits s t (.moon (ctlInstant (atInstant s f.at_)) false
        (frameBody false s.moon.epoch 0 false 0 kTrain (trainArgs 2 (f.at_ - t0) ((frameCount f).toNat + 1))))) ∧
  (∀ (s : State) (f : MoonFrame) (t0 mb : Nat), FrameIn s f → frameIs f kTrain (some 1) = true → ownFrame s f false = true →
    s.moon.train.sentAt = some t0 → s.moon.train.mb = some mb → frameOvf f = true → (getMbx s mb).orphan = false →
    ∃ t, exec (.trainCount f) s = .next t ∧ t.moon.train = {} ∧ t.moon.loop = s.moon.loop ∧ (getMbx t mb).busy = false ∧
      (getMbx t mb).lastStatus = 0x0043) ∧
  (∀ (s : State) (f : MoonFrame) (p : Nat), FrameIn s f → frameIs f kTrain (some 2) = true → ownFrame s f false = false →
    s.moon.train.seen = some p → p < frameDevices f → frameOvf f = false →
    ∃ t, exec (.trainResult f.at_ f.timed f.body) s = .next t ∧ t.moon.trained = true ∧ t.moon.hops = p - 1 ∧ t.moon.loop = frameLoop f ∧
      t.moon.delay = s.moon.delay ∧
      t.moon.delayNext = some ((roundShare p (frameLoop f) (frameDevices f) : Int) + s.moon.dlyAdj) ∧
      Emits s t (.moon (f.at_ + 80) f.timed (hopBody f []))) ∧
  (∀ (s : State) (f : MoonFrame) (p : Nat), FrameIn s f → frameIs f kTrain (some 2) = true → ownFrame s f false = false →
    s.moon.train.seen = some p → (frameDevices f ≤ p ∨ frameOvf f = true) →
    ∃ t, exec (.trainResult f.at_ f.timed f.body) s = .next t ∧ t.moon.trained = false ∧ t.moon.delayNext = s.moon.delayNext) ∧
  (∀ (s : State) (f : MoonFrame), FrameIn s f → frameIs f kTrain (some 2) = true → ownFrame s f false = false →
    s.moon.train.seen = none →
    ∃ t, exec (.trainResult f.at_ f.timed f.body) s = .next t ∧ t.moon.trained = false ∧ t.moon.delayNext = s.moon.delayNext) ∧
  (∀ (s : State) (f : MoonFrame), FrameIn s f → frameIs f kTrain (some 2) = true → ownFrame s f false = true →
    ∃ t, exec (.trainResult f.at_ f.timed f.body) s = .next t ∧ t.moon = { s.moon with validThis := true, silent := 0 } ∧ moonOut t = moonOut s) ∧
  (∀ (s : State) (t0 mb : Nat), fwUp s = true → s.moon.train.sentAt = some t0 → s.moon.train.mb = some mb →
    (getMbx s mb).orphan = false →
    ∃ t, exec .trainTimeout s = .next t ∧ t.moon.train = {} ∧ (getMbx t mb).busy = false ∧ (getMbx t mb).lastStatus = 0x0043) ∧
  (∀ (s : State) (g : Go), GoReady s g false 0 [] → isMaster s = true → s.moon.sealActive = false → s.moon.train.sentAt = none →
    ∃ t, exec (.epochTrain g) s = .next t ∧ t.moon.train = { sentAt := some (ctlInstant s), mb := some g.mb } ∧
      Runs t g .train [] ∧
      Emits s t (.moon (ctlInstant s) false (frameBody false s.moon.epoch 0 false 0 kTrain (trainArgs 1 0 0)))) ∧
  (∀ p l n : Nat, 0 < n → 2 * (roundShare p l n * n) ≤ 2 * (p * l) + n ∧ 2 * (p * l) < 2 * (roundShare p l n * n) + n)

/-- Seals (R105-R109): ANNOUNCE and POLL add this device's counts, DONE, FAILED, expiry and the sealing device's own request end the
seal, and EPOCH_SEAL begins one. That an E_s too early answers 0x0002 while a seal is active too is the model's reading (log entry 106). -/
def Obligations.MoonSealRows : Prop :=
  (∀ (s : State) (f : MoonFrame), FrameIn s f → frameIs f kSeal (some 1) = true → ownFrame s f false = false →
    ∃ t, exec (.announce f.sync f.body) s = .next t ∧ t.moon.sealActive = true ∧ t.moon.sealSt.es = (frameSeal f).sealEpoch ∧
      t.moon.sealSt.phase = 1 ∧ t.moon.sealSt.takesPart = canSeal s ∧
      Emits s t (.moon (f.at_ + 80) f.timed (hopBody f
        [(22, 2, (countSeal (canSeal s) (frameSeal f)).accepted.toNat), (26, 2, (countSeal (canSeal s) (frameSeal f)).withdrawn.toNat)]))) ∧
  (∀ (s : State) (f : MoonFrame), FrameIn s f → frameIs f kSeal (some 1) = true → ownFrame s f false = true →
    s.moon.sealActive = true → s.moon.sealSt.es = (frameSeal f).sealEpoch →
    ∃ t, exec (.announce f.sync f.body) s = .next t ∧ moonOut t = moonOut s ∧ t.moon = { s.moon with
      validThis := true, silent := 0
      sealSt := { s.moon.sealSt with
        accepted := (frameSeal f).accepted.toNat, withdrawn := (frameSeal f).withdrawn.toNat, announceCount := some (frameCount f) } }) ∧
  (∀ (s : State) (f : MoonFrame), FrameIn s f → frameIs f kSeal (some 2) = true → ownFrame s f false = false →
    s.moon.sealActive = true →
    ∃ t, exec (.poll f.sync f.body) s = .next t ∧ t.moon.sealSt.phase = 2 ∧
      Emits s t (.moon (f.at_ + 80) f.timed (hopBody f
        [(24, 2, (if hasFinished s (frameSeal f) = true then (frameSeal f).finished + 1 else (frameSeal f).finished).toNat)]))) ∧
  (∀ (s : State) (f : MoonFrame), FrameIn s f → frameIs f kSeal (some 2) = true → ownFrame s f false = true →
    s.moon.sealActive = true → s.moon.sealSt.es = (frameSeal f).sealEpoch → s.moon.sealSt.announceCount = some (frameCount f) →
    (frameSeal f).finished = (frameSeal f).accepted →
    ∃ t, exec (.poll f.sync f.body) s = .next t ∧ t.moon.sealActive = false ∧ t.moon.sealDone = true ∧ t.moon.sealFailed = s.moon.sealFailed ∧
      t.moon.sealSt.phase = 3 ∧ t.moon.sealSt.finished = (frameSeal f).finished.toNat) ∧
  (∀ (s : State) (f : MoonFrame), FrameIn s f → frameIs f kSeal (some 2) = true → ownFrame s f false = true →
    s.moon.sealActive = true → s.moon.sealSt.es = (frameSeal f).sealEpoch → s.moon.sealSt.announceCount = some (frameCount f) →
    (frameSeal f).finished ≠ (frameSeal f).accepted →
    ∃ t, exec (.poll f.sync f.body) s = .next t ∧ t.moon.sealActive = true ∧ t.moon.sealSt.finished = (frameSeal f).finished.toNat) ∧
  (∀ (s : State) (f : MoonFrame), FrameIn s f → frameIs f kSeal (some 2) = true → ownFrame s f false = true →
    s.moon.sealActive = true → s.moon.sealSt.es = (frameSeal f).sealEpoch → s.moon.sealSt.announceCount ≠ some (frameCount f) →
    ∃ t, exec (.poll f.sync f.body) s = .next t ∧ t.moon.sealActive = false ∧ t.moon.sealFailed = true ∧ t.moon.sealSt.phase = 4) ∧
  (∀ (s : State) (f : MoonFrame), FrameIn s f → frameIs f kSeal (some 3) = true → ownFrame s f false = false →
    s.moon.sealActive = true →
    ∃ t, exec (.done f.sync f.body) s = .next t ∧ t.moon.sealActive = false ∧ t.moon.sealDone = true ∧ t.moon.sealSt.phase = 3 ∧
      t.moon.sealSt.finished = (frameSeal f).finished.toNat ∧ t.moon.sealFailed = s.moon.sealFailed ∧
      Emits s t (.moon (f.at_ + 80) f.timed (hopBody f []))) ∧
  (∀ (s : State) (f : MoonFrame), FrameIn s f → frameIs f kSeal (some 4) = true → ownFrame s f false = false →
    s.moon.sealActive = true →
    ∃ t, exec (.failed f.sync f.body) s = .next t ∧ t.moon.sealActive = false ∧ t.moon.sealFailed = true ∧ t.moon.sealSt.phase = 4 ∧
      t.moon.sealDone = s.moon.sealDone) ∧
  (∀ (s : State) (f : MoonFrame) (c : Instr), FrameIn s f →
    ((c = .done f.sync f.body ∧ frameIs f kSeal (some 3) = true) ∨ (c = .failed f.sync f.body ∧ frameIs f kSeal (some 4) = true)) →
    ownFrame s f false = true →
    ∃ t, exec c s = .next t ∧ t.moon = { s.moon with validThis := true, silent := 0 } ∧ moonOut t = moonOut s) ∧
  (∀ (s : State) (f : MoonFrame) (c : Instr), FrameIn s f →
    ((c = .done f.sync f.body ∧ frameIs f kSeal (some 3) = true) ∨ (c = .failed f.sync f.body ∧ frameIs f kSeal (some 4) = true)) →
    ownFrame s f false = false → s.moon.sealActive = false →
    ∃ t, exec c s = .next t ∧ t.moon = { s.moon with validThis := true, silent := 0 } ∧
      Emits s t (.moon (f.at_ + 80) f.timed (hopBody f []))) ∧
  (∀ s : State, serving s = true → s.moon.sealActive = true → s.moon.sealSt.takesPart = true → s.moon.sealSt.frozen = true →
    s.moon.sealSt.stored = false → mapsOut s = false → sealDrained s s.moon.sealSt.es = true →
    ∃ t, exec .sealMapsStored s = .next t ∧ t.moon.sealSt = { s.moon.sealSt with stored := true }) ∧
  (∀ s : State, fwUp s = true → isMaster s = true → s.moon.sealActive = true →
    ∃ t, exec .sealTimeout s = .next t ∧ t.moon.sealActive = false ∧ t.moon.sealFailed = true) ∧
  (∀ s : State, fwUp s = true → s.moon.sealActive = true →
    ∃ t, exec .sealLocalEnd s = .next t ∧ t.moon.sealActive = false ∧ t.moon.sealDone = s.moon.sealDone ∧
      t.moon.sealFailed = (s.moon.sealFailed || s.moon.sealSt.takesPart)) ∧
  (∀ (s : State) (g : Go), GoReady s g false 16 [] → isMaster s = true → s.moon.sealActive = false →
    ∃ t, exec (.epochSeal g 0 0) s = .next t ∧ t.moon.sealActive = true ∧ t.moon.sealSt.es = BitVec.ofNat 48 (earliestSeal s) ∧
      Answered t g (leBytes 8 (earliestSeal s))) ∧
  (∀ (s : State) (g : Go) (es : BitVec 64), GoReady s g false 16 [] → isMaster s = true → es ≠ 0 → es.toNat < 2 ^ 48 →
    sealLateEnough s es.toNat = false →
    ∃ t, exec (.epochSeal g 0 es) s = .next t ∧ t.moon = s.moon ∧ (getMbx t g.mb).busy = false ∧
      (getMbx t g.mb).lastStatus = 0x0002 ∧ (getMbx t g.mb).resp.detail = 8) ∧
  (∀ (s : State) (g : Go) (es : BitVec 64), GoReady s g false 16 [] → isMaster s = true → s.moon.sealActive = true →
    es.toNat < 2 ^ 48 →
    ∃ t, exec (.sealFailRequest g 1 es) s = .next t ∧ t.moon.sealActive = false ∧ t.moon.sealFailed = true ∧
      Answered t g (leBytes 8 s.moon.sealSt.es.toNat))

/-- The epoch registers, commands and the local edge (R66, R68, R69, R116, R118, Table 2-13). -/
def Obligations.MoonCommandRows : Prop :=
  (∀ s : State, running s = true → canDma s 0 = true → ∃ t, exec (.epochNowRead true false) s = .next t ∧
    Emits s t (.readData (BitVec.ofNat 64 (epochNow s))) ∧ t.moon = s.moon) ∧
  (∀ s : State, running s = true → canDma s 0 = true → ∃ t, exec (.epochNowRead false false) s = .next t ∧
    Emits s t (.readData (BitVec.ofNat 64 (wordOf (epochNow s) 0))) ∧ t.moon.latch = some (BitVec.ofNat 32 (wordOf (epochNow s) 1))) ∧
  (∀ (s : State) (v : W32), running s = true → canDma s 0 = true → s.moon.latch = some v →
    ∃ t, exec (.epochNowRead false true) s = .next t ∧ Emits s t (.readData (v.setWidth 64)) ∧ t.moon.latch = none) ∧
  (∀ (s : State) (g : Go) (p : EpochParams), GoReady s g false 12 [] → (p.periodValid && !isMaster s) = false →
    p.role ≤ 2 → 4 ≤ p.guard → p.guard ≤ 16 → p.period ≤ 6 → -1000 ≤ p.dlyAdj → p.dlyAdj ≤ 1000 → 100 ≤ p.sealTimeoutMs →
    p.sealTimeoutMs ≤ 60000 → s.moon.sealActive = false →
    ∃ t, exec (.epochConfig g p) s = .next t ∧ t.moon.role = p.role ∧ t.moon.dlyAdj = p.dlyAdj ∧ t.cfg.epochGuard = p.guard ∧
      t.moon.sealTimeoutMs = p.sealTimeoutMs ∧ t.moon.contained = false ∧ t.moon.period = s.moon.period ∧
      t.moon.periodSet = (if p.periodValid = true then some p.period else s.moon.periodSet) ∧ Runs t g (.config 0) []) ∧
  (∀ (s : State) (g : Go) (p : EpochParams), GoReady s g false 12 [] → p.periodValid = true → isMaster s = false →
    ∃ t, exec (.epochConfig g p) s = .next t ∧ t.moon = s.moon ∧ t.cfg = s.cfg ∧ (getMbx t g.mb).busy = false ∧
      (getMbx t g.mb).lastStatus = 0x0101) ∧
  (∀ (s : State) (g : Go), GoReady s g false 0 [] → ∃ t, exec (.epochSealStatus g) s = .next t ∧ t.moon = s.moon ∧
    Answered t g (leBytes 2 s.moon.sealSt.phase ++ leBytes 2 s.moon.sealSt.accepted ++ leBytes 2 s.moon.sealSt.finished ++
      leBytes 2 s.moon.sealSt.withdrawn ++ leBytes 8 s.moon.sealSt.es.toNat)) ∧
  (∀ (s : State) (g : Go) (vol : Nat) (buf : SegDesc), GoReady s g false 24 [objVol vol] → badBuf buf = false → s.phase = .ready →
    vol < s.part.volumes → fnMayVol s g.mb vol = true → (volCfg? s vol).isSome = true → volReserved s vol = false →
    ∃ t, exec (.epochCmapRead g vol buf) s = .next t ∧ t.vols = s.vols ∧ (getMbx t g.mb).lastStatus = 0 ∧
      (getMbx t g.mb).busy = false ∧ (getMbx t g.mb).resp.data.length = 8) ∧
  (∀ (s : State) (g : Go), GoReady s g false 0 [] → ∃ t, exec (.epochStats g) s = .next t ∧ t.moon = s.moon ∧
    Answered t g ([s.moon.nMisses, s.moon.nHoldovers, s.moon.nRephases, s.moon.nFalseMarks, s.moon.nCrcFails].flatMap (leBytes 4))) ∧
  (∀ s : State, running s = true → fwUp s = false → ∃ t, exec .epochEdge s = .next t ∧ t.moon.epoch = nextEpoch s.moon ∧
    t.moon.edgeAt = nextEdgeAt s ∧ t.clock = max s.clock (nextEdgeAt s)) ∧
  (∀ s : State, running s = true → fwUp s = true → exec .epochEdge s = .next (settled (relaunchAll (edgeWork s)))) ∧
  (∀ s : State, (advanceEpoch s).moon.epoch = nextEpoch s.moon ∧ (advanceEpoch s).moon.edgeAt = nextEdgeAt s ∧
    (advanceEpoch s).moon.period = nextCode s ∧ (advanceEpoch s).clock = max s.clock (nextEdgeAt s))

/-! ### Tiles, the home path and the journal (chapters 01 and 04) -/

/-- Acceptance, locks, acknowledgment and routes (R24, R28, R29, R31, R39, R97, R153, R154, R171). -/
def Obligations.HomePathRows : Prop :=
  (∀ (s : State) (id : Nat) (c : Cmd), serving s = true → getCmd? s id = some c → c.phase = .forwarded → c.op ≠ .flush →
    arrivedHome s c = true → tileUp s (homeTile s c.vol) = true → homeStatus s { c with home := homeTile s c.vol } = 0 →
    ∃ t c', exec (.homeTileAcceptance id) s = .next t ∧ getCmd? t id = some c' ∧ c'.phase = .accepted ∧ c'.epoch = s.moon.epoch ∧
      c'.home = homeTile s c.vol ∧ c'.order = (getTile s (homeTile s c.vol)).nextOrder ∧
      c'.parts = makeParts s c.vol c.lba c.len ∧
      (getTile t (homeTile s c.vol)).nextOrder = (getTile s (homeTile s c.vol)).nextOrder + 1) ∧
  (∀ (s : State) (id : Nat) (c : Cmd), serving s = true → getCmd? s id = some c → c.phase = .forwarded → arrivedHome s c = true →
    ((getVol s c.vol).st = .offline ∨ tileUp s (homeTile s c.vol) = true) →
    exec (.homeTileAcceptance id) s = .next (settled (flushProgress (acceptCmd s c)))) ∧
  (∀ (s : State) (id : Nat) (c : Cmd), serving s = true → getCmd? s id = some c → c.phase = .forwarded → c.op ≠ .flush →
    arrivedHome s c = true → ((getVol s c.vol).st = .offline ∨ tileUp s (homeTile s c.vol) = true) →
    homeStatus s { c with home := homeTile s c.vol } ≠ 0 →
    ∃ t c', exec (.homeTileAcceptance id) s = .next t ∧ getCmd? t id = some c' ∧ c'.phase = .finished ∧
      c'.status = homeStatus s { c with home := homeTile s c.vol }) ∧
  (∀ (s : State) (id : Nat) (c : Cmd), getCmd? s id = some c → arrivedHome s c = false → exec (.homeTileAcceptance id) s = .next s) ∧
  (∀ (s : State) (c : Cmd), s.mesh.switching.contains (c.rx, homeTile s c.vol) = true → (forwardCmd s c).out = s.out) ∧
  (∀ (s : State) (id : Nat) (c : Cmd), serving s = true → getCmd? s id = some c → tileUp s c.home = true → c.phase = .accepted →
    lockFree s c = true → isReadOp c.op = true →
    exec (.rangeLockGrant id) s =
      .next (settled (prefetch (eachPart (enterLock s c) c.id c.parts.length serveRead) c (missedRows s c)))) ∧
  (∀ (s : State) (id : Nat) (c : Cmd), serving s = true → getCmd? s id = some c → tileUp s c.home = true → c.phase = .accepted →
    lockFree s c = true → isReadOp c.op = false →
    exec (.rangeLockGrant id) s = .next (settled (eachPart (enterLock s c) c.id c.parts.length beginWrite))) ∧
  (∀ (s : State) (c : Cmd), getCmd? s c.id = some c → ∃ c', getCmd? (enterLock s c) c.id = some c' ∧ c' = { c with phase := .locked } ∧
    { holder := .cmd c.id, vol := c.vol, lba := c.lba, len := c.len, write := isWriteOp c.op } ∈ (getTile (enterLock s c) c.home).locks) ∧
  (∀ (s : State) (id : Nat) (c : Cmd), fwUp s = true → getCmd? s id = some c → c.phase = .held → c.stampEpoch ≤ s.moon.epoch →
    ∃ t c', exec (.ackHoldRelease id) s = .next t ∧ getCmd? t id = some c' ∧ c'.phase = .finished ∧ c'.status = 0 ∧
      c'.stampEpoch = s.moon.epoch ∧ c'.stampOffset = nowOffset s) ∧
  (∀ (s : State) (id part : Nat) (c : Cmd) (p : RowPart), serving s = true → getCmd? s id = some c → c.parts[part]? = some p →
    tileUp s c.home = true → c.phase = .locked → p.waiting = true → isWriteOp c.op = true →
    exec (.journalSpaceWaitEnd id part) s = .next (settled (advancePart s c part))) ∧
  (∀ (s : State) (src dst : Nat), running s = true → s.mesh.switching.contains (src, dst) = true →
    s.cmds.any (underWay s src dst) = false →
    ∃ t, exec (.routeSwitch src dst) s = .next t ∧ t.mesh.switching.contains (src, dst) = false ∧
      t.mesh.lostLinks = s.mesh.lostLinks ∧
      ∀ c ∈ s.cmds, c.phase = .forwarded → c.rx = src → homeTile s c.vol = dst → c.fwd = none → src ≠ dst →
        .forward src dst c.id ∈ t.out) ∧
  (∀ (s : State) (src dst : Nat), s.cmds.any (underWay s src dst) = true → exec (.routeSwitch src dst) s = .next s) ∧
  (∀ (s : State) (tile b : Nat), running s = true → tileUp s tile = true → tileUp s b = true → b < s.part.tiles →
    adjacent s.part tile b = true → linkLost s tile b = false →
    ∃ t, exec (.meshHeartbeat tile) s = .next t ∧ .heartbeat tile b ∈ t.out ∧ (getTile t tile).lastBeat = s.clock) ∧
  (∀ (s : State) (tile : Nat), running s = true → tileUp s tile = true → (upTiles s).any (· != tile) = true →
    exec (.heartbeatTimeout tile) s =
      .next (settled (declareLost (drawn s) tile { code := lossCode s, cls := 3, src := srcMesh tile }))) ∧
  (∀ (s : State) (a b : Nat), running s = true → adjacent s.part a b = true → linkLost s a b = false →
    ∃ t, exec (.meshLinkLoss a b) s = .next t ∧ linkLost t a b = true)

/-- The journal's own rows (R167, R170, R182, R187-R190, R194): the commit of a record, the partner's timeout, relocation, the MRAM
failure, and what destaging begins and ends. -/
def Obligations.JournalRows : Prop :=
  (∀ (s : State) (tile seq : Nat) (r : RingRec), running s = true → ringServed s tile = true →
    (getTile s tile).amber.find? seq = some r → r.committed = false → (getTile s tile).amber.failed = false →
    r.open_ = false → r.own = false → r.mirror = false → r.origin = none →
    exec (.recordCommit tile seq) s = .next (settled (startData (ackRecord (commitRec s tile seq) tile seq))) ∧
      ∃ r', (getTile (commitRec s tile seq) tile).amber.find? seq = some r' ∧ r'.own = tileUp s tile ∧
        r'.mirror = tileUp s (buddy tile) ∧ r'.committed = !r.partnerWait) ∧
  (∀ (s : State) (tile seq l t q : Nat) (r : RingRec), running s = true → ringServed s tile = true →
    (getTile s tile).amber.find? seq = some r → r.committed = false → (getTile s tile).amber.failed = false →
    r.open_ = false → r.own = false → r.mirror = false → r.origin = some (l, t, q) →
    exec (.recordCommit tile seq) s =
      .next (settled (startData (ackRecord (partnerSend (commitRec s tile seq) l (.confirm q t 0)) tile seq)))) ∧
  (∀ (s : State) (tile seq : Nat) (r : RingRec), fwUp s = true → ringServed s tile = true →
    (getTile s tile).amber.find? seq = some r → r.partnerWait = true →
    exec (.partnerConfirmTimeout tile seq) s =
      .next (settled (startData (ackRecord (suspendPool (waiveConfirm s tile seq) (recPool s r.r) false) tile seq))) ∧
    ∃ r', (getTile (waiveConfirm s tile seq) tile).amber.find? seq = some r' ∧ r'.partnerWait = false ∧
      r'.committed = (!r.open_ && (r.own || r.mirror))) ∧
  (∀ (s : State) (tile : Nat) (x : RingRec) (l : List RingRec), running s = true → ringServed s tile = true →
    (getTile s tile).amber.live = x :: l → (getTile s tile).amber.high = true → (getTile s tile).amber.failed = false →
    x.r.kind = .intent → x.committed = true → s.replays.any (fun y => y.intents.contains (tile, x.r.seq)) = false →
    ∃ t, exec (.relocation tile) s = .next t ∧ (getTile t tile).amber.relocations = (getTile s tile).amber.relocations + 1) ∧
  (∀ (s : State) (tile : Nat), running s = true → tileUp s tile = true → mramFailed s tile = false →
    ∃ t, exec (.mramCommitFailure tile) s = .next t ∧ mramFailed t tile = true) ∧
  (∀ (s : State) (tile : Nat), running s = true → tileUp s tile = true → mramFailed s tile = false → s.cmds = [] →
    ∃ t, exec (.mramCommitFailure tile) s = .next t ∧ mramFailed t tile = true ∧ t.cmds = []) ∧
  (∀ (s u : State) (vol row : Nat), serving s = true → tileUp s (homeTile s vol) = true → s.hk.closing = false →
    (volCfg? s vol).isSome = true →
    (s.cache.en = true ∨ askedFor s (homeTile s vol) vol (poolRowOf (volCfg s vol) row) = true) →
    (urgentRow s (homeTile s vol) vol (poolRowOf (volCfg s vol) row) = true ∨ urgentReady s (homeTile s vol) = false) →
    startDestage s (homeTile s vol) vol (poolRowOf (volCfg s vol) row) = some u →
    exec (.destageStart vol row) s = .next (settled u)) ∧
  (∀ (s : State) (t vol row : Nat) (src : CRow), destaging s vol row = false → (getPool s (volCfg s vol).pool).st ≠ .offline →
    isBroken s (volCfg s vol).pool row = false → (getPool s (volCfg s vol).pool).interlocks.contains row = false →
    recoveringMask (getTile s t).tier vol row = 0 → destageSource (getTile s t).tier vol row = some src →
    (destageData s t vol row src).1 ≠ 0 → ∃ u, startDestage s t vol row = some u) ∧
  (∀ (s : State) (vol row : Nat) (src : CRow), serving s = true → tileUp s (homeTile s vol) = true → s.hk.closing = false →
    (volCfg? s vol).isSome = true → s.cache.en = true → urgentReady s (homeTile s vol) = false →
    destaging s vol (poolRowOf (volCfg s vol) row) = false → (getPool s (volCfg s vol).pool).st ≠ .offline →
    isBroken s (volCfg s vol).pool (poolRowOf (volCfg s vol) row) = false →
    (getPool s (volCfg s vol).pool).interlocks.contains (poolRowOf (volCfg s vol) row) = false →
    recoveringMask (getTile s (homeTile s vol)).tier vol (poolRowOf (volCfg s vol) row) = 0 →
    destageSource (getTile s (homeTile s vol)).tier vol (poolRowOf (volCfg s vol) row) = some src →
    (destageData s (homeTile s vol) vol (poolRowOf (volCfg s vol) row) src).1 ≠ 0 →
    ∃ u, startDestage s (homeTile s vol) vol (poolRowOf (volCfg s vol) row) = some u ∧
      exec (.destageStart vol row) s = .next (settled u)) ∧
  (∀ (s : State) (vol row : Nat), urgentRow s (homeTile s vol) vol (poolRowOf (volCfg s vol) row) = false →
    urgentReady s (homeTile s vol) = true → exec (.destageStart vol row) s = .next s) ∧
  (∀ (s : State) (d : Nat) (x : Destage), running s = true → getDestage? s d = some x → x.issued = true → x.writes = [] →
    exec (.destageComplete d) s = .next (settled (maintProgress (endDestage s x)))) ∧
  (∀ (s : State) (pool tile : Nat), serving s = true → tileUp s (hostOf s tile) = true →
    (getPool s pool).recopying = [tile] → (getPool s pool).mirrorLost.length = 1 → s.mcmds = [] →
    moveWaits s (hostOf s tile) pool = false → (getTile s (hostOf s tile)).amber.fits 64 = true →
    ∃ t, exec (.mirrorRecopyComplete pool tile) s = .next t ∧ (getPool t pool).recopying = [] ∧
      (getPool t pool).mirrorUsable = true ∧ (getPool t pool).mirrorLost = []) ∧
  (∀ (s : State) (pool tile : Nat), serving s = true → tileUp s (hostOf s tile) = true →
    (getPool s pool).recopying.contains tile = true → ((getPool s pool).recopying.filter (· != tile)) ≠ [] →
    (getPool s pool).mirrorLost.length = 1 →
    (∀ m ∈ s.mcmds, ∀ a b, m.purpose ≠ .recopyRead pool tile a b ∧ m.purpose ≠ .recopyWrite pool tile a) →
    moveWaits s (hostOf s tile) pool = false → (getTile s (hostOf s tile)).amber.fits 64 = true →
    ∃ t, exec (.mirrorRecopyComplete pool tile) s = .next t ∧
      (getPool t pool).recopying = (getPool s pool).recopying.filter (· != tile) ∧
      (getPool t pool).mirrorUsable = (getPool s pool).mirrorUsable)

/-! ### Members and rebuild (chapters 05 and 08) -/

/-- Completions, timeouts, deadlines and the queues of members (R204-R211, R365-R377). -/
def Obligations.MemberRows : Prop :=
  (∀ (s : State) (m : Nat) (x : MCmd) (st : NvmeStatus) (data : Mem), running s = true → getMCmd? s m = some x →
    outstanding x = true → hasPath s x.member = true →
    exec (.memberCommandCompletion m st data) s =
      .next (settled (maintProgress (relaunchMember (applyCompletion (readErrorLog s x.member st) x st data) x.member)))) ∧
  (∀ (s : State) (m : Nat) (st : NvmeStatus), st ≠ .success → st ≠ .dataDigest → adminUp s m = true →
    (readErrorLog s m st).out = s.out ++ [.nvmeAdmin m 0x02 0x01]) ∧
  (∀ (s : State) (m : Nat) (x : MCmd), running s = true → getMCmd? s m = some x → outstanding x = true →
    (x.op != .read && x.reissued && x.late) = false →
    exec (.memberCommandTimeout m) s = .next (settled (maintProgress (timedOut s x)))) ∧
  (∀ (s : State) (m : Nat) (x : MCmd), running s = true → getMCmd? s m = some x → x.op = .read → x.pipe = .host →
    outstanding x = true → x.late = false → (∀ f pos, x.purpose ≠ .fetch f pos) →
    ∃ t, exec (.readDeadline m) s = .next t ∧ (getMember t x.member).deadlines = (getMember s x.member).deadlines + 1 ∧
      (getMember t x.member).st = (if (getMember s x.member).st = .online then .lagging else (getMember s x.member).st)) ∧
  (∀ (s : State) (m f pos : Nat) (x : MCmd), running s = true → getMCmd? s m = some x → x.op = .read → x.pipe = .host →
    outstanding x = true → x.late = false → x.purpose = .fetch f pos →
    exec (.readDeadline m) s = .next (settled (strikeFetch (lateRead s x) f pos false 0))) ∧
  (∀ (s : State) (member : Nat), serving s = true → (poolOfMember s member).isSome = true → hasPath s member = false →
    memberFailed s member = false →
    exec (.memberReachTimeout member) s = .next (settled (maintProgress (declareFailed s member)))) ∧
  (∀ (s : State) (member : Nat) (w : Byte), serving s = true → w.getLsbD 3 = false → adminUp s member = true →
    ∃ t, exec (.smartLogPoll member w) s = .next t ∧ Emits s t (.nvmeAdmin member 0x02 0x02) ∧ (getMember t member).strikes = 0 ∧
      (getMember t member).st = (if (getMember s member).st = .lagging then .online else (getMember s member).st)) ∧
  (∀ (s : State) (member : Nat) (w : Byte), serving s = true → w.getLsbD 3 = true → adminUp s member = true →
    exec (.smartLogPoll member w) s =
      .next (settled (maintProgress (declareFailed (memberGood (emit s (.nvmeAdmin member 0x02 0x02)) member) member)))) ∧
  (∀ (s : State) (member : Nat), running s = true → adminUp s member = true →
    ∃ t, exec (.keepAlive member) s = .next t ∧ Emits s t (.nvmeAdmin member 0x18 0) ∧ (getMember t member).strikes = 0 ∧
      (getMember t member).keepAlives = (getMember s member).keepAlives + 1) ∧
  (∀ (s : State) (member tile : Nat) (admin : Bool) (why : BreakCause) (q : Queue), running s = true →
    getQueue? s member tile admin = some q → q.connected = true →
    exec (.memberQueueBreak member tile admin why) s = .next (settled (breakQueue s member tile admin))) ∧
  (∀ (s : State) (member tile pool p : Nat), fwUp s = true → tileUp s tile = true → poolOfMember s member = some pool →
    tile = (getPool s pool).tile → memberFailed s member = false → (getMember s member).unusable = false →
    getQueue? s member tile true = none → pathFor s tile pool = some p →
    ∃ t, exec (.memberQueueSetup member tile true .tcp) s = .next t ∧
      (getMember t member).queues = (getMember s member).queues ++ [{ tile := tile, admin := true, step := 1, port := p }] ∧
      ∀ x ∈ openMsgs s member p, .nvmeSetup member tile true p x ∈ t.out) ∧
  (∀ (s : State) (member tile pool p : Nat), fwUp s = true → tileUp s tile = true → poolOfMember s member = some pool →
    (getMember s member).identified = true →
    ((getMember s member).queues.filter (fun q => !q.admin && q.tile != tile)).length < min 8 (getMember s member).granted →
    memberFailed s member = false → (getMember s member).unusable = false →
    getQueue? s member tile false = none → pathFor s tile pool = some p →
    ∃ t, exec (.memberQueueSetup member tile false .tcp) s = .next t ∧
      (getMember t member).queues = (getMember s member).queues ++ [{ tile := tile, admin := false, step := 1, port := p }] ∧
      ∀ x ∈ openMsgs s member p, .nvmeSetup member tile false p x ∈ t.out) ∧
  (∀ (s : State) (member tile pool p : Nat) (q : Queue) (st : QueueStep), fwUp s = true → tileUp s tile = true →
    poolOfMember s member = some pool → tile = (getPool s pool).tile → memberFailed s member = false →
    (getMember s member).unusable = false → getQueue? s member tile true = some q → q.connected = false →
    pathFor s tile pool = some p →
    exec (.memberQueueSetup member tile true st) s = .next (settled (setupStep s member tile pool true q st))) ∧
  (∀ (s : State) (member tile pool p : Nat) (q : Queue) (h d : Bool) (n : Nat), fwUp s = true → tileUp s tile = true →
    poolOfMember s member = some pool → tile = (getPool s pool).tile → memberFailed s member = false →
    (getMember s member).unusable = false → getQueue? s member tile true = some q → q.connected = false → q.step = 1 →
    pathFor s tile pool = some p → (h && d) = false →
    ∃ t, exec (.memberQueueSetup member tile true (.icResp h d n)) s = .next t ∧ (getMember t member).unusable = true ∧
      getQueue? t member tile true = none) ∧
  (∀ (s : State) (member tile pool p : Nat) (q : Queue), running s = true → tileUp s tile = true →
    poolOfMember s member = some pool → getQueue? s member tile false = some q → q.connected = false → q.step = 0 →
    memberFailed s member = false → nextPath s tile pool q.port = some p →
    ∃ t q', exec (.memberReconnectAttempt member tile false) s = .next t ∧ getQueue? t member tile false = some q' ∧
      q' = { q with port := p } ∧ ∀ x ∈ openMsgs s member p, .nvmeSetup member tile false p x ∈ t.out) ∧
  (∀ (s : State) (m : Nat) (x : MCmd), running s = true → getMCmd? s m = some x → x.retrying = true →
    exec (.memberReissue m) s = .next (settled (relaunch s x))) ∧
  (∀ (s : State) (pool : Nat), fwUp s = true → (getPool s pool).st = .initialising → (getPool s pool).init = true →
    (getPool s pool).initWork = [] → s.mcmds.any (fun m => m.purpose == .initZero pool) = false →
    ∃ t, exec (.poolInitComplete pool) s = .next t ∧ (getPool t pool).st = .stopped ∧ (getPool t pool).init = false) ∧
  (∀ (s : State) (pool x : Nat), fwUp s = true → (getPool s pool).zeroing.contains x = true →
    extentStrips s pool ≤ Tab.getD (getPool s pool).zeroNext x 0 → s.mcmds.any (fun m => m.purpose == .extentZero pool x) = false →
    ∃ t, exec (.extentZeroingComplete pool x) s = .next t ∧ (getPool t pool).zeroing.contains x = false)

/-- Rebuild, copyback and scrub (R224, R225, R229, R230, R243, R245, R246). -/
def Obligations.RebuildRows : Prop :=
  (∀ (s : State) (pool cls : Nat), serving s = true → nextWork s = some (cls, pool) →
    exec (.rebuildCommandIssue pool) s = .next (settled (sendNext (produce s pool cls) pool cls))) ∧
  (∀ (s : State) (pool cls : Nat), serving s = true → nextWork s = some (cls, pool) → heldNext s pool cls = none →
    classReady s pool cls = true → 0 < s.budget.r.getD 0 0 →
    (volOfRow s pool (classCursor (getPool s pool) cls)).isSome = true → cls < 2 →
    ∃ t, exec (.rebuildCommandIssue pool) s = .next t ∧
      (getPool t pool).work = some { row := classCursor (getPool s pool) cls } ∧
      (getPool t pool).interlockWait.contains (classCursor (getPool s pool) cls) = true) ∧
  (∀ (s : State) (pool cls : Nat) (m : MCmd), serving s = true → nextWork s = some (cls, pool) → heldNext s pool cls = some m →
    exec (.rebuildCommandIssue pool) s =
      .next (settled (chargeClass (sendTurn s m) pool cls (if m.charged = true then 0 else dataBytes m)))) ∧
  (∀ (s : State) (pool row : Nat), serving s = true → (getPool s pool).interlockWait.contains row = true →
    destaging s (rowVol s pool row) row = false → (getPool s pool).work = none → (getPool s pool).copyWork = none →
    (getPool s pool).scrubWork = none → (getPool s pool).repairs = [] → rowBusy s pool row = true →
    ∃ t, exec (.rowInterlockGrant pool row) s = .next t ∧ (getPool t pool).interlocks.contains row = true ∧
      (getPool t pool).interlockWait.contains row = false) ∧
  (∀ (s : State) (pool row : Nat), serving s = true → (getPool s pool).interlockWait.contains row = true →
    destaging s (rowVol s pool row) row = false → (getPool s pool).work = none → (getPool s pool).copyWork = none →
    (getPool s pool).scrubWork = none → (getPool s pool).repairs = [] → rowBusy s pool row = false → (getPool s pool).salvages = [] →
    ∃ t, exec (.rowInterlockGrant pool row) s = .next t ∧ (getPool t pool).interlocks.contains row = false ∧
      (getPool t pool).interlockWait.contains row = false) ∧
  (∀ (s : State) (pool row : Nat), destaging s (rowVol s pool row) row = true → exec (.rowInterlockGrant pool row) s = .next s) ∧
  (∀ (s : State) (pool : Nat) (w : RowWork), serving s = true → (getPool s pool).work = some w → w.issued = true → w.writes = [] →
    resyncing s pool w.row = false →
    exec (.rebuildRowComplete pool) s = .next (settled (maintProgress (stageEnd (rowRebuilt s pool w.row) pool)))) ∧
  (∀ (s : State) (pool row : Nat), (getPool s pool).salvages = [] →
    (getPool (rowRebuilt s pool row) pool).work = none ∧
      ((getPool s pool).pstate = 1 → (getPool (rowRebuilt s pool row) pool).critCursor = (getPool s pool).critCursor + 1 ∧
        (getPool (rowRebuilt s pool row) pool).cursor = (getPool s pool).cursor) ∧
      ((getPool s pool).pstate ≠ 1 → (getPool (rowRebuilt s pool row) pool).cursor = (getPool s pool).cursor + 1)) ∧
  (∀ (s : State) (pool : Nat), serving s = true → (getPool s pool).cursorsMoved = true →
    exec (.cursorMetadataWrite pool) s = .next (settled (metaWrite (modPool s pool (fun p => { p with cursorsMoved := false })) pool
      (liveMembers (modPool s pool (fun p => { p with cursorsMoved := false })) pool) 0x9000 4096
      (Mem.ofList (progressBytes (getPool s pool))) (.metadata pool)))) ∧
  (∀ (s : State) (pool ix m : Nat) (w : RowWork), serving s = true → (getPool s pool).copyWork = some w →
    (getPool s pool).copy = some (ix, m) → w.issued = true → w.writes = [] → resyncing s pool w.row = false →
    (getPool s pool).salvages = [] → (getPool s pool).copyCursor + 1 < (poolCfg s pool).poolRows →
    ∃ t, exec (.copybackRowComplete pool) s = .next t ∧ (getPool t pool).copyCursor = (getPool s pool).copyCursor + 1 ∧
      (getPool t pool).copyWork = none ∧ t.cfg = s.cfg) ∧
  (∀ (s : State) (pool ix m : Nat) (w : RowWork), serving s = true → (getPool s pool).copyWork = some w →
    (getPool s pool).copy = some (ix, m) → w.issued = true → w.writes = [] → resyncing s pool w.row = false →
    (getPool s pool).salvages = [] → (poolCfg s pool).poolRows ≤ (getPool s pool).copyCursor + 1 →
    exec (.copybackRowComplete pool) s = .next (settled (copybackEnd (rowCopied s pool w.row) pool ix m))) ∧
  (∀ (s : State) (pool : Nat), serving s = true → scrubOn s pool = true → (getPool s pool).scrubWork = none →
    skipRow s pool (getPool s pool).scrubCursor = true →
    destaging s (rowVol s pool (getPool s pool).scrubCursor) (getPool s pool).scrubCursor = false →
    (getPool s pool).interlocks.contains (getPool s pool).scrubCursor = false → unsynced s pool (getPool s pool).scrubCursor = false →
    ∃ t, exec (.scrubRow pool (getPool s pool).scrubCursor) s = .next t ∧ (getPool t pool).cursorsMoved = true ∧ t.mcmds = s.mcmds ∧ t.jet = s.jet ∧
      (getPool t pool).skipIntent = (getPool s pool).skipIntent +
        (if rowHasIntent s pool (getPool s pool).scrubCursor = true then 1 else 0) ∧
      (getPool t pool).scrubCursor = (if (poolCfg s pool).poolRows ≤ (getPool s pool).scrubCursor + 1 then 0
        else (getPool s pool).scrubCursor + 1)) ∧
  (∀ (s : State) (pool f : Nat) (w : RowWork) (x : Fetch), serving s = true → (getPool s pool).scrubWork = some w →
    w.fetch = some f → getFetch? s f = some x → fetchReady s x = true →
    exec (.scrubRow pool (getPool s pool).scrubCursor) s = .next (settled (maintProgress (scrubJudge s pool x)))) ∧
  (∀ (s : State) (pool port : Nat), serving s = true → s.hk.closing = false → (getTest s 2 pool).st = 1 →
    (getTest s 2 pool).row < (poolCfg s pool).poolRows → (memberLinks s (tileOfPort port) pool).contains port = true →
    s.mcmds.any (fun m => m.throttled && m.pipe != .verify && onPort s port m) = false → 0 < s.budget.v.getD 0 0 →
    (getTest s 2 pool).fetch = none → destaging s (rowVol s pool (getTest s 2 pool).row) (getTest s 2 pool).row = false →
    (getPool s pool).interlocks.contains (getTest s 2 pool).row = false →
    exec (.selftestCommandIssue pool port) s = .next (settled (if skipRow s pool (getTest s 2 pool).row = true
      then testNext s pool (getTest s 2 pool) else sendVerify (beginTestRow s pool (getTest s 2 pool)) pool port))) ∧
  (∀ (s : State) (pool port : Nat), serving s = true → s.hk.closing = false → (getTest s 2 pool).st = 1 →
    (getTest s 2 pool).row < (poolCfg s pool).poolRows → (memberLinks s (tileOfPort port) pool).contains port = true →
    s.mcmds.any (fun m => m.throttled && m.pipe != .verify && onPort s port m) = false → 0 < s.budget.v.getD 0 0 →
    (getTest s 2 pool).fetch.isSome = true →
    exec (.selftestCommandIssue pool port) s = .next (settled (sendVerify s pool port)))

/-! ### The cache tier (chapter 06) -/

/-- Lines, buffers and the store (R258, R261, R265, R267, R273, R291, R294). -/
def Obligations.TierRows : Prop :=
  (∀ (s : State) (tile line : Nat) (l : Line), running s = true → tileUp s tile = true →
    Tab.get? (getTile s tile).tier.lines line = some l → l.st = .filling →
    (∀ f ∈ l.fetches, ∃ x, getFetch? s f = some x ∧ fetchReady s x = true) →
    exec (.lineFillComplete tile line) s = .next (settled (maintProgress (fillEnd s tile line l (l.fetches.filterMap (getFetch? s)))))) ∧
  (∀ (s : State) (id part : Nat) (c : Cmd) (p : RowPart), serving s = true → getCmd? s id = some c → c.parts[part]? = some p →
    tileUp s c.home = true → c.phase = .locked → p.waiting = true → lineAhead s c = false → isReadOp c.op = true →
    exec (.lineAllocation id part) s = .next (settled (serveRead s c part p))) ∧
  (∀ (s : State) (id part : Nat) (c : Cmd) (p : RowPart), serving s = true → getCmd? s id = some c → c.parts[part]? = some p →
    tileUp s c.home = true → c.phase = .locked → p.waiting = true → lineAhead s c = false → isReadOp c.op = false →
    p.intent.isSome = true → exec (.lineAllocation id part) s = .next (settled (takePart s c part p))) ∧
  (∀ (s : State) (tile e : Nat) (c : CRow) (t' : Tier), serving s = true → tileUp s tile = true →
    Tab.get? (getTile s tile).tier.evb e = some c → insertSlot (getTile s tile).tier c = some t' →
    exec (.evictionComplete tile e) s =
      .next (settled (maintProgress (modTier s tile (fun _ => { t' with evb := Tab.erase t'.evb e }))))) ∧
  (∀ (s : State) (tile e : Nat) (c : CRow), serving s = true → tileUp s tile = true →
    Tab.get? (getTile s tile).tier.evb e = some c → (bucketSlots (getTile s tile).tier c.vol c.row).length < 4 →
    (freeStoreSlot (getTile s tile).tier).isSome = true →
    ∃ t', insertSlot (getTile s tile).tier c = some t' ∧ exec (.evictionComplete tile e) s =
      .next (settled (maintProgress (modTier s tile (fun _ => { t' with evb := Tab.erase t'.evb e }))))) ∧
  (∀ (s : State) (tile e : Nat) (l : Line) (t' : Tier), serving s = true → tileUp s tile = true →
    Tab.get? (getTile s tile).tier.evb e = none → (getTile s tile).tier.leaving.contains e = true →
    Tab.get? (getTile s tile).tier.lines e = some l → l.st ≠ .filling → l.st ≠ .writing →
    insertSlot (getTile s tile).tier l.c = some t' →
    exec (.evictionComplete tile e) s = .next (settled (maintProgress (modTier s tile (fun _ =>
      { t' with lines := Tab.erase t'.lines e, leaving := t'.leaving.filter (· != e) }))))) ∧
  (∀ (s : State) (tile e : Nat) (c : CRow) (sl : Slot), serving s = true → tileUp s tile = true → s.cache.en = true →
    Tab.get? (getTile s tile).tier.evb e = some c → insertSlot (getTile s tile).tier c = none →
    oldestDirty (bucketSlots (getTile s tile).tier c.vol c.row) = some sl → sl.st = 2 →
    exec (.evictionComplete tile e) s = .next (settled ((startDestage s tile sl.c.vol sl.c.row).getD s))) ∧
  (∀ (s : State) (tile : Nat), running s = true → tileUp s tile = true → (getTile s tile).tier.evmodeWait = true →
    (getTile s tile).tier.evb = [] →
    ∃ t, exec (.evmodeSwitch tile) s = .next t ∧ (getTile t tile).tier.evmode = true ∧ (getTile t tile).tier.evmodeWait = false) ∧
  (∀ (s : State) (tile : Nat), serving s = true → tileUp s tile = true → (getTile s tile).tier.sweeping = true →
    s.cache.en = false →
    ∃ t, exec (.directorySweep tile) s = .next t ∧ (getTile t tile).tier.store =
      (getTile s tile).tier.store.filter (fun e =>
        !((((getTile s tile).tier.store.filter (fun e => e.2.age == 3 && e.2.st == 1)).take (1024 - freeSlots (getTile s tile).tier)).map
          Prod.fst).contains e.1)) ∧
  (∀ (s u : State) (tile line cause word : Nat), retireLine s tile line cause word = some u →
    exec (.lineRetirement tile line cause word) s = .next (settled u) ∧ u.cache.retiredSeen = true) ∧
  (∀ (s : State) (tile line word : Nat), running s = true → tileUp s tile = true → line < 64 →
    lineRetired (getTile s tile).tier line = false → Tab.get? (getTile s tile).tier.lines line = none →
    ∃ t, exec (.lineRetirement tile line 3 word) s = .next t ∧ t.cache.retiredSeen = true ∧
      lineRetired (getTile t tile).tier line = true) ∧
  (∀ (s : State) (tile e : Nat) (x : SideEnt), running s = true → tileUp s tile = true → e < 8 →
    Tab.get? (getTile s tile).tier.lines (64 + e) = none → Tab.get? (getTile s tile).tier.side e = some x → x.filling = true →
    x.fetches = [] → s.maints = [] →
    ∃ t, exec (.lineFillComplete tile (64 + e)) s = .next t ∧ Tab.get? (getTile t tile).tier.side e =
      if x.kill then none else some { x with filling := false })

/-- Maintenance operations that a dispatched CACHE_OP entry spells begin (R279-R283, R446), and so do those of CACHE_MAINT, whose
mailbox stays BUSY with the operation until it ends. -/
def Obligations.MaintenanceRows : Prop :=
  (∀ (s : State) (op : Nat) (mk : MaintSrc → MaintArgs → Instr) (a : MaintArgs) (e : Nat) (l : Live),
    (op = 0 ∧ mk = .zeroLine ∨ op = 1 ∧ mk = .invalKey ∨ op = 2 ∧ mk = .invalRange ∨ op = 3 ∧ mk = .cleanKey ∨
      op = 4 ∧ mk = .cleanRange ∨ op = 5 ∧ mk = .lock ∨ op = 6 ∧ mk = .unlock ∨ op = 7 ∧ mk = .invalAll) →
    serving s = true → getLive? s e = some l → l.started = false → l.outcome = none → l.opc = 0x20 → parseMaint l.bytes = (op, a) →
    exec (mk (.ring e) a) s = .next (settled (beginMaint (modLive s e (fun y => { y with started := true })) (.ring e) op a))) ∧
  (∀ (s : State) (op : Nat) (mk : MaintSrc → MaintArgs → Instr) (a : MaintArgs) (g : Go),
    (op = 0 ∧ mk = .zeroLine ∨ op = 1 ∧ mk = .invalKey ∨ op = 2 ∧ mk = .invalRange ∨ op = 3 ∧ mk = .cleanKey ∨
      op = 4 ∧ mk = .cleanRange ∨ op = 5 ∧ mk = .lock ∨ op = 6 ∧ mk = .unlock ∨ op = 7 ∧ mk = .invalAll) →
    GoReady s g true 16 (if op = 7 then [] else [objVol a.vol]) → s.phase = .ready → maintFormBad op a = false →
    (op = 7 → g.mb = 0) → (op ≠ 7 → volExists s g.mb a.vol = true) → maintBeyond s op a = false →
    exec (mk (.mailbox g) a) s = .next (settled (beginMaint
      (mbxPark (mbxTake s g (if op = 7 then [] else [objVol a.vol]) none) g.mb (.cacheMaint 0) []) (.mailbox g) op a)))

/-- CACHE_CTL (R264, R267, R284, R286, R287). -/
def Obligations.CacheCtlRows : Prop :=
  (∀ (s : State) (v : W32), running s = true → canDma s 0 = true → s.cache.disabling = none → s.cache.enabling = none →
    bit v.toNat 0 = false → s.cache.en = true →
    ∃ t, exec (.enDirectClear v) s = .next t ∧ t.cache.en = false ∧ t.cache.repl = bit v.toNat 1 ∧
      t.cache.evmode = bit v.toNat 2 ∧ t.cache.pfa = bit v.toNat 3 ∧ t.cache.pfb = bit v.toNat 4 ∧
      t.cache.pfDepth = BitVec.ofNat 3 (bits v.toNat 10 8)) ∧
  (∀ (s : State) (v : W32), running s = true → canDma s 0 = true → s.cache.disabling = none → s.cache.enabling = none →
    bit v.toNat 0 = true →
    ∃ t, exec (.enSet v) s = .next t ∧ t.cache.en = true ∧ t.cache.repl = bit v.toNat 1 ∧ t.cache.evmode = bit v.toNat 2 ∧
      t.cache.pfa = bit v.toNat 3 ∧ t.cache.pfb = bit v.toNat 4 ∧ t.cache.pfDepth = BitVec.ofNat 3 (bits v.toNat 10 8)) ∧
  (∀ (s : State) (v : W32), running s = true → canDma s 0 = true → s.cache.disabling = none → s.cache.enabling = none →
    bits v.toNat 31 16 ≠ s.cache.seed.toNat → bits v.toNat 31 16 ≠ 0 →
    ∃ t, exec (.lfsrSeedLoad v) s = .next t ∧ t.cache.seed = BitVec.ofNat 16 (bits v.toNat 31 16) ∧
      ∀ k, k < s.part.tiles → (getTile t k).tier.lfsr = lfsrAdvance k (BitVec.ofNat 16 (bits v.toNat 31 16))) ∧
  (∀ (s : State) (v : W32), running s = true → canDma s 0 = true → s.cache.disabling = none → s.cache.enabling = none →
    s.cache.evmode = true → bit v.toNat 2 = false →
    ∃ t, exec (.evmodeChange v) s = .next t ∧ t.cache.evmode = false ∧
      ∀ k, k < s.part.tiles → (getTile t k).tier.evmode = false ∧ (getTile t k).tier.evmodeWait = false) ∧
  (∀ (s : State) (v : W32), running s = true → canDma s 0 = true → s.cache.disabling = none → s.cache.enabling = none →
    s.cache.evmode = false → bit v.toNat 2 = true →
    ∃ t, exec (.evmodeChange v) s = .next t ∧ t.cache.evmode = true ∧
      ∀ k, k < s.part.tiles → (getTile s k).tier.evb = [] → (getTile t k).tier.evmode = true) ∧
  (∀ (s : State) (v : W32), running s = true → canDma s 0 = true → (s.cache.disabling.isSome || s.cache.enabling.isSome) = true →
    bit v.toNat 0 = true → ∃ t, exec (.enSet v) s = .next t ∧ t.cache = { s.cache with writeIgnored := true } ∧ t.tiles = s.tiles)

/-- The cache's mailbox commands (R270, R278, R286, R287, R296). -/
def Obligations.CacheCommandRows : Prop :=
  (∀ (s : State) (g : Go), GoReady s g false 0 [] → s.cache.disabling = none → s.cache.enabling = none →
    ∃ t, exec (.cacheDisable g) s = .next t ∧ t.cache = { s.cache with disabling := some g.mb } ∧ Runs t g .cacheDisable []) ∧
  (∀ (s : State) (mb : Nat), serving s = true → s.cache.disabling = some mb → noDirty s = true → s.maints = [] →
    (getMbx s mb).orphan = false →
    ∃ t, exec (.cacheDisableQuiesced mb) s = .next t ∧ t.cache.en = false ∧ t.cache.disabling = none ∧ (getMbx t mb).busy = false ∧
      (getMbx t mb).lastStatus = 0 ∧ ∀ k, k < s.part.tiles → (getTile t k).tier = emptyTier (getTile s k).tier) ∧
  (∀ (s : State) (g : Go), GoReady s g false 0 [] → s.cache.disabling = none → s.cache.enabling = none → s.cache.en = true →
    ∃ t, exec (.cacheEnable g) s = .next t ∧ t.cache = s.cache ∧ Answered t g (leBytes 8 0)) ∧
  (∀ (s : State) (g : Go), GoReady s g false 0 [] → s.cache.disabling = none → s.cache.enabling = none → s.cache.en = false →
    exec (.cacheEnable g) s = .next (settled (beginMaint
      (mbxPark { mbxTake s g [] none with cache := { s.cache with enabling := some g.mb } } g.mb (.cacheMaint 0) []) (.mailbox g) 7
      { force := true, discard := false, vol := 0, first := 0, count := 0, reservedZero := true }))) ∧
  (∀ (s : State) (g : Go) (tile delay : Nat), GoReady s g false 6 [] → (tile < s.part.tiles ∨ tile = 0xFF) → delay ≤ 1024 →
    ∃ t, exec (.cacheConfig g tile 1 0 delay) s = .next t ∧ t.tiles = s.tiles ∧ t.cfg.zGib = s.cfg.zGib ∧ Runs t g (.config 0) [] ∧
      ∀ k, k < s.part.tiles → (tile = k ∨ tile = 0xFF) → Tab.get? t.cfg.destageUs k = some delay) ∧
  (∀ (s : State) (g : Go) (tile z : Nat), GoReady s g false 6 [] → (tile < s.part.tiles ∨ tile = 0xFF) → z ≤ 8 →
    s.cache.en = false → (∀ k, k < s.part.tiles → (getTile s k).tier.store = [] ∧ windowOn s k = false) →
    ∃ t, exec (.cacheConfig g tile 2 z 0) s = .next t ∧ t.cfg.destageUs = s.cfg.destageUs ∧ Runs t g (.config 0) [] ∧
      ∀ k, k < s.part.tiles → (tile = k ∨ tile = 0xFF) → (getTile t k).tier.zGib = z) ∧
  (∀ (s : State) (g : Go) (vol policy : Nat) (l : List RatEntry),
    GoReady s g false (if l.isEmpty then 4 else 8 + 16 * l.length) [objVol vol] → s.phase = .ready → volExists s g.mb vol = true →
    (getVol s vol).st = .stopped → (poolCfg s (volCfg s vol).pool).partner = none → policy ≤ 3 → l.length ≤ 16 →
    (∀ e ∈ ratErrors l, e.2 = false) →
    ∃ t, exec (.cacheRatSet g vol policy l) s = .next t ∧ Runs t g (.config 0) [] ∧
      volCfg t vol = { volCfg s vol with policy := policy, rat := l }) ∧
  (∀ (s : State) (g : Go) (vol : Nat), GoReady s g true 2 [objVol vol] → s.phase = .ready → volExists s g.mb vol = true →
    ∃ t, exec (.cacheRatGet g vol) s = .next t ∧ t.cfg = s.cfg ∧
      Answered t g (leBytes 1 (volCfg s vol).policy ++ leBytes 1 (volCfg s vol).rat.length ++
        (if (volCfg s vol).rat.isEmpty then [] else leBytes 6 0 ++ (volCfg s vol).rat.flatMap ratBytes))) ∧
  (∀ (s : State) (g : Go) (tile : Nat) (buf : SegDesc), GoReady s g false 24 [] → badBuf buf = false →
    (tile < s.part.tiles ∨ tile = 0xFF) →
    ∃ t, exec (.cacheStats g tile buf) s = .next t ∧ t.tiles = s.tiles ∧
      Answered t g (bytesField (countBytes ((if tile = 0xFF then List.range s.part.tiles else [tile]).flatMap
        (fun k => cacheCounts (getTile s k).tier)))))

/-! ### Serosh Block Transport (chapter 07) -/

/-- A packet as its link and the SBT receiver take it (R298, R301, R304, R332): a well sent packet of a known connection is counted and
received in SEQ order; a DATA_OUT whose digest fails is discarded without acknowledgment; an ACK only acknowledges; another VERSION or
LENGTH is discarded and counted, a stray datagram is discarded at its link. -/
def Obligations.SbtPacketRows : Prop :=
  (∀ (s : State) (h : SbtHdr) (c : Capsule) (o : BlockOp) (mk : SbtHdr → Capsule → Instr),
    (o = .read ∧ mk = .read ∨ o = .write ∧ mk = .write ∨ o = .flush ∧ mk = .flush ∨ o = .zeroes ∧ mk = .writeZeroes ∨
      o = .dealloc ∧ mk = .deallocate ∨ o = .verify ∧ mk = .verify) →
    wellSent s h 0x10 64 = true → (getConn? s h.connId).isSome = true →
    (c.opcode.toNat = opcodeOf o ∨ c.opcode.toNat = 0 ∨ 6 < c.opcode.toNat) →
    exec (mk h c) s = .next (settled (maintProgress (receive (counted s h) h.connId h (.cmd o c))))) ∧
  (∀ (s : State) (h : SbtHdr) (tag : BitVec 16) (off dg : W32) (payload : List Byte), wellSent s h 0x12 (16 + payload.length) = true →
    (getConn? s h.connId).isSome = true → crc32c payload = dg →
    exec (.dataOut h tag off dg payload) s =
      .next (settled (maintProgress (receive (counted s h) h.connId h (.dataOut tag off dg payload))))) ∧
  (∀ (s : State) (h : SbtHdr) (tag : BitVec 16) (off dg : W32) (payload : List Byte), wellSent s h 0x12 (16 + payload.length) = true →
    (getConn? s h.connId).isSome = true → crc32c payload ≠ dg →
    exec (.dataOut h tag off dg payload) s = .next (settled (tallyConn (counted s h) h.connId kDiscard)) ∧
      ∃ t, exec (.dataOut h tag off dg payload) s = .next t ∧ t.cmds = s.cmds ∧ t.tiles = s.tiles) ∧
  (∀ (s : State) (h : SbtHdr) (c : Instr) (type len : Nat) (b : RxBody), wellSent s h type len = true →
    (getConn? s h.connId).isSome = true →
    ((∃ tag, c = .abort h tag ∧ b = .abort tag ∧ type = 0x15 ∧ len = 8) ∨
      (∃ k p, c = .errlogReq h k p ∧ b = .errlogReq k p ∧ type = 0x20 ∧ len = 8) ∨
      (∃ d f, c = .resume h d f ∧ b = .resume d f ∧ type = 0x22 ∧ len = 8) ∨
      (∃ r, c = .close h r ∧ b = .close r ∧ r ≠ 5 ∧ type = 0x03 ∧ len = 8)) →
    exec c s = .next (settled (maintProgress (receive (counted s h) h.connId h b)))) ∧
  (∀ (s : State) (h : SbtHdr), wellSent s h 0x30 0 = true → (getConn? s h.connId).isSome = true →
    exec (.ack h) s = .next (settled (processAck (counted s h) h.connId h))) ∧
  (∀ (s : State) (h : SbtHdr) (c : Instr), tenantPort s h.port = true → strayPacket s h = none → h.version ≠ 1 →
    ((c = .ack h ∧ h.type = 0x30) ∨ (∃ tag, c = .abort h tag ∧ h.type = 0x15) ∨ (∃ k p, c = .errlogReq h k p ∧ h.type = 0x20) ∨
      ∃ d f, c = .resume h d f ∧ h.type = 0x22) →
    exec c s = .next (settled (discardPkt (counted s h) h.port 1)) ∧
      ∃ t, exec c s = .next t ∧ t.sbt.conns = (counted s h).sbt.conns ∧ t.cmds = s.cmds ∧
        Tab.getD t.sbt.counts (16 * tileOfPort h.port + 8) 0 = Tab.getD s.sbt.counts (16 * tileOfPort h.port + 8) 0 + 1) ∧
  (∀ (s : State) (h : SbtHdr), tenantPort s h.port = true → h.type = 0x30 → strayPacket s h = none → h.version = 1 → h.length ≠ 0 →
    exec (.ack h) s = .next (settled (discardPkt (counted s h) h.port 3))) ∧
  (∀ (s : State) (h : SbtHdr) (cause : Nat), tenantPort s h.port = true → h.type = 0x30 → strayPacket s h = some cause →
    ∃ t, exec (.ack h) s = .next t ∧ t.sbt = s.sbt ∧
      (getLink t h.port).discards = Tab.set (getLink s h.port).discards cause (Tab.getD (getLink s h.port).discards cause 0 + 1))

/-- What a delivered CMD answers (Table 7-9, R324, R327, R328): the first failing check decides, in the table's order; a tag in use
closes the connection; and what sending one sequenced packet leaves (R303, R305). -/
def Obligations.SbtCommandChecks : Prop :=
  (∀ (s : State) (id : W32) (k : Conn) (o : Option BlockOp) (c : Capsule), isFrozen k = true → arrivalStatus s id k o c = 0x0080) ∧
  (∀ (s : State) (id : W32) (k : Conn) (o : Option BlockOp) (c : Capsule), isFrozen k = false → k.limit ≤ (owedCmds s id).length →
    arrivalStatus s id k o c = 0x0007) ∧
  (∀ (s : State) (id : W32) (k : Conn) (c : Capsule), isFrozen k = false → (owedCmds s id).length < k.limit →
    arrivalStatus s id k none c = 0x0001) ∧
  (∀ (s : State) (id : W32) (k : Conn) (o : BlockOp) (c : Capsule), isFrozen k = false → (owedCmds s id).length < k.limit →
    badCapsule o c = true → arrivalStatus s id k (some o) c = 0x0002) ∧
  (∀ (s : State) (id : W32) (k : Conn) (o : BlockOp) (c : Capsule), isFrozen k = false → (owedCmds s id).length < k.limit →
    badCapsule o c = false → tenantVol s k c.volume.toNat = false → arrivalStatus s id k (some o) c = 0x0003) ∧
  (∀ (s : State) (id : W32) (k : Conn) (o : BlockOp) (c : Capsule), isFrozen k = false → (owedCmds s id).length < k.limit →
    badCapsule o c = false → tenantVol s k c.volume.toNat = true →
    volBlocks (poolCfg s (volCfg s c.volume.toNat).pool) (volCfg s c.volume.toNat) < c.lba.toNat + c.length.toNat →
    arrivalStatus s id k (some o) c = 0x0004) ∧
  (∀ (s : State) (id : W32) (k : Conn) (o : BlockOp) (c : Capsule), c.tag ≠ 0xFFFF → tagCmd? s id c.tag = none →
    k.aborted.contains c.tag = false → c.opcode.toNat = opcodeOf o → arrivalStatus s id k (some o) c ≠ 0 →
    deliverCmd s id k o c = sbtSend s id (.resp c.tag (arrivalStatus s id k (some o) c) false false 0 0 0)) ∧
  (∀ (s : State) (id : W32) (k : Conn) (o : BlockOp) (c : Capsule), c.tag ≠ 0xFFFF →
    (tagCmd? s id c.tag).isSome = true ∨ k.aborted.contains c.tag = true →
    deliverCmd s id k o c = protocolError s id) ∧
  (∀ (s : State) (id : W32) (k : Conn) (b : TxBody), getConn? s id = some k →
    ∃ k' p, getConn? (sbtSend s id b) id = some k' ∧ k'.txNext = k.txNext + 1 ∧ p ∈ k'.tx ∧ p.seq = k.txNext ∧ p.body = b ∧
      k'.tx.length = k.tx.length + 1 ∧ (sbtSend s id b).cmds = s.cmds)

/-- CONNECT and what is kept of refusals and indexes (R312-R315, Table 7-5); packets of unknown connections and discarded ones (R301,
R323). -/
def Obligations.ConnectRows : Prop :=
  (∀ (s : State) (h : SbtHdr) (b : ConnectBody) (tenant i : Nat), tenantPort s h.port = true → h.type = 0x01 →
    strayPacket s h = none → h.length = 32 →
    s.sbt.conns.any (fun c => c.addr == h.addr && c.udp == h.udp && c.tenantConn == b.tenantConn && c.connectSeq == h.seq) = false →
    s.sbt.refusals.any (fun r => r.addr == h.addr && r.udp == h.udp && r.tenantConn == b.tenantConn && r.seq == h.seq) = false →
    connectResult s h b = 0 → tenantOf s b.tenantId = some tenant → freeIndex s (tileOfPort h.port) = some i →
    s.hk.running = false →
    (∀ c ∈ s.sbt.conns, ∀ g : BitVec 16, connIdOf c ≠ BitVec.ofNat 32 (field 29 (tileOfPort h.port) + field 16 i + g.toNat)) →
    ∃ t k, exec (.connect h b) s = .next t ∧ getConn? t (connIdOf k) = some k ∧ k.st = .open ∧ k.tile = tileOfPort h.port ∧
      k.index = i ∧ k.tenant = tenant ∧ k.tenantConn = b.tenantConn ∧ k.limit = min b.qdepth.toNat s.cfg.credit ∧
      k.rxNext = h.seq + 1 ∧ k.cwnd = 16 ∧ t.sbt.conns.length = s.sbt.conns.length + 1 ∧
      Emits s t (sbtOut s h.port h.dst h.addr h.udp b.tenantConn k.acceptSeq (h.seq + 1) true h.ce false 0 h.tsval
        (.accept 0 k.maxData k.limit (connIdOf k) s.moon.epoch))) ∧
  (∀ (s : State) (h : SbtHdr) (b : ConnectBody), tenantPort s h.port = true → h.type = 0x01 → strayPacket s h = none → h.length = 32 →
    s.sbt.conns.any (fun c => c.addr == h.addr && c.udp == h.udp && c.tenantConn == b.tenantConn && c.connectSeq == h.seq) = false →
    s.sbt.refusals.any (fun r => r.addr == h.addr && r.udp == h.udp && r.tenantConn == b.tenantConn && r.seq == h.seq) = false →
    connectResult s h b ≠ 0 →
    ∃ t r, exec (.connect h b) s = .next t ∧ t.sbt.conns = (counted s h).sbt.conns ∧ t.sbt.refusals = s.sbt.refusals ++ [r] ∧
      r.addr = h.addr ∧ r.udp = h.udp ∧ r.tenantConn = b.tenantConn ∧ r.seq = h.seq ∧ r.result = connectResult s h b ∧
      r.epoch = s.moon.epoch ∧
      Tab.getD t.sbt.counts (16 * tileOfPort h.port + kRefused) 0 = Tab.getD s.sbt.counts (16 * tileOfPort h.port + kRefused) 0 + 1 ∧
      Emits s t (refusalOut s h r false)) ∧
  (∀ (s : State) (h : SbtHdr) (b : ConnectBody) (r : Refusal1), tenantPort s h.port = true → h.type = 0x01 → strayPacket s h = none →
    h.length = 32 →
    s.sbt.conns.any (fun c => c.addr == h.addr && c.udp == h.udp && c.tenantConn == b.tenantConn && c.connectSeq == h.seq) = false →
    s.sbt.refusals.find? (fun r => r.addr == h.addr && r.udp == h.udp && r.tenantConn == b.tenantConn && r.seq == h.seq) = some r →
    ∃ t, exec (.connect h b) s = .next t ∧ t.sbt.refusals = s.sbt.refusals ∧ t.sbt.conns = (counted s h).sbt.conns ∧
      Emits s t (refusalOut s h r true)) ∧
  (∀ (s : State) (addr : BitVec 128) (udp : BitVec 16) (tc seq : W32), running s = true →
    ∃ t, exec (.refusalRetentionExpiry addr udp tc seq) s = .next t ∧ t.sbt.conns = s.sbt.conns ∧
      ∀ r, r ∈ t.sbt.refusals ↔ r ∈ s.sbt.refusals ∧ ¬(r.addr = addr ∧ r.udp = udp ∧ r.tenantConn = tc ∧ r.seq = seq)) ∧
  (∀ (s : State) (tile i : Nat), running s = true →
    ∃ t, exec (.indexReuse tile i) s = .next t ∧ t.sbt.cooling.contains (tile, i) = false ∧ t.sbt.conns = s.sbt.conns) ∧
  (∀ (s : State) (port : Nat) (cause : DiscardCause), tenantPort s port = true →
    ∃ t, exec (.sbtPacketDiscard port cause) s = .next t ∧
      t.sbt = { s.sbt with counts := bumpCount s.sbt.counts (16 * tileOfPort port + (kCause + causeCode cause)) }) ∧
  (∀ (s : State) (h : SbtHdr), wellSent s h h.type h.length = true → getConn? s h.connId = none →
    ∃ t, exec (.unknownConnectionPacket h true) s = .next t ∧ t.sbt.nUnknown = s.sbt.nUnknown + 1 ∧
      t.sbt.answered = s.sbt.answered ∧ t.sbt.conns = s.sbt.conns) ∧
  (∀ (s : State) (h : SbtHdr), wellSent s h h.type h.length = true → getConn? s h.connId = none →
    s.sbt.answered.any (fun e => e.1 == h.addr && e.2.1 == h.udp && decide (s.clock < e.2.2 + 10 ^ 6)) = false →
    ∃ t, exec (.unknownConnectionPacket h false) s = .next t ∧ t.sbt.nUnknown = s.sbt.nUnknown + 1 ∧ t.sbt.conns = s.sbt.conns ∧
      (h.addr, h.udp, s.clock) ∈ t.sbt.answered ∧
      Emits s t (sbtOut s h.port h.dst h.addr h.udp h.connId 0 0 false false false 0 0 (.close 5)))

/-- Timers of a connection, grants, and a command's completion (R306, R308, R309, R330, R334, R348). -/
def Obligations.ConnTimerRows : Prop :=
  (∀ (s : State) (conn : W32) (c : Conn), upConn? s conn = some c → 0 < c.unacked →
    ∃ t, exec (.delayedAck conn) s = .next t ∧ Emits s t (connOut s c c.txNext false .ack) ∧
      ∃ k, getConn? t conn = some k ∧ k = { c with unacked := 0 }) ∧
  (∀ (s : State) (conn seq : W32) (c : Conn) (p : TxPkt), upConn? s conn = some c →
    c.tx.find? (fun p => p.seq == seq && p.sent) = some p →
    ∃ t k, exec (.retransmitTimeout conn seq) s = .next t ∧ getConn? t conn = some k ∧ k.cwnd = 2 ∧ k.rto = min 10000 (2 * c.rto) ∧
      k.tx = c.tx ∧ Emits s t (connOut s c p.seq true p.body)) ∧
  (∀ (s : State) (conn : W32) (c : Conn), upConn? s conn = some c → c.tx.any (·.sent) = true → c.st ≠ .closing →
    exec (.connectionLoss conn) s = .next (settled (maintProgress (jetInfo (loseConn s c) 0x4001 (srcLink c.port) []))) ∧
      getConn? (loseConn s c) conn = none) ∧
  (∀ (s : State) (conn : W32) (c : Conn), upConn? s conn = some c → c.tx.any (·.sent) = true → c.st = .closing →
    ∃ t, exec (.connectionLoss conn) s = .next t ∧ getConn? t conn = none ∧ t.sbt.cooling = s.sbt.cooling ++ [(c.tile, c.index)]) ∧
  (∀ (s : State) (conn : W32) (c : Conn), upConn? s conn = some c → isLive c = true →
    exec (.creditProbe conn) s = .next (settled (sbtSend s conn (.credit c.limit 2)))) ∧
  (∀ (s : State) (id off len : Nat) (c : Cmd) (k : W32) (tag : BitVec 16) (x : Conn), fwUp s = true → getCmd? s id = some c →
    c.src = .sbt k tag → upConn? s k = some x → isLive x = true → (∀ a, x.allowance = some a → len ≤ a) → c.op = .write →
    c.phase = .locked → c.mute = false → 4096 ≤ len → len ≤ 1048576 → off % 4096 = 0 → len % 4096 = 0 → off + len ≤ 4096 * c.len →
    intentsIn s c off len = true →
    ∃ t, exec (.xferRdy id off len) s = .next t ∧ getCmd? t id = some { c with grants := c.grants ++ [(off, len)] }) ∧
  (∀ (s : State) (id : Nat) (c : Cmd) (k : W32) (tag : BitVec 16), getCmd? s id = some c → fwUp s = true → c.phase = .finished →
    tileUp s c.rx = true → c.src = .sbt k tag →
    exec (.commandCompletion id) s = .next (settled (maintProgress (completeSbt s k tag c)))) ∧
  (∀ (s : State) (id e : Nat) (c : Cmd), getCmd? s id = some c → fwUp s = true → c.phase = .finished → tileUp s c.rx = true →
    c.src = .ring e → exec (.commandCompletion id) s = .next (settled (maintProgress (completeRing s e c)))) ∧
  (∀ (s : State) (id m : Nat) (c : Cmd) (x : Maint), getCmd? s id = some c → fwUp s = true → c.phase = .finished →
    tileUp s c.rx = true → c.src = .maint m → getMaint? (removeCmd s c) m = some x →
    exec (.commandCompletion id) s = .next (settled (maintProgress (endMaint (removeCmd s c)
      { x with status := c.status, removed := if c.status = 0 then 1 else 0, todo := [] })))) ∧
  (∀ (s : State) (id : Nat) (l : Live), getCmd? s id = none → getLive? s id = some l → fwUp s = true → l.outcome.isSome = true →
    exec (.commandCompletion id) s = .next (settled (closeBatches s l.sq))) ∧
  (∀ (s : State) (p : Ps) (mb : Nat), s.hk.psPending = some (p, mb) → fwUp s = true → idleNow s = true → (getMbx s mb).orphan = false →
    ∃ t, exec .powerStateEntry s = .next t ∧ t.hk.ps = p ∧ t.hk.psPending = none ∧ (getMbx t mb).busy = false ∧
      (getMbx t mb).lastStatus = 0)

/-- The SBT commands of the mailbox (R6, R313, R315, R345, R349, R540, Table 7-18). -/
def Obligations.SbtCommandRows : Prop :=
  (∀ (s : State) (g : Go) (udp credit ms : Nat), GoReady s g false 8 [] → udp ≠ 0 → 1 ≤ credit → credit ≤ 1024 → 10 ≤ ms → ms ≤ 10000 →
    (udp = s.cfg.udpPort ∨ s.sbt.conns = []) →
    ∃ t, exec (.sbtConfig g udp credit ms) s = .next t ∧ t.cfg = { s.cfg with udpPort := udp, credit := credit, lossMs := ms } ∧
      Runs t g (.config 0) []) ∧
  (∀ (s : State) (g : Go) (i : Nat) (id : BitVec 128) (r : List (Nat × Nat)), GoReady s g false (24 + 4 * r.length) [] → i < 4096 →
    r.length ≤ 16 → (∀ x ∈ r, x.1 ≤ x.2) → (∀ x ∈ r, x.2 < s.part.volumes) →
    ∃ t, exec (.sbtTenantSet g i id r) s = .next t ∧ Tab.get? t.cfg.tenants i = some { tenantId := id, ranges := r } ∧
      (∀ j, j ≠ i → Tab.get? t.cfg.tenants j = Tab.get? s.cfg.tenants j) ∧ Runs t g (.config 0) []) ∧
  (∀ (s : State) (g : Go) (i : Nat) (id : BitVec 128) (r : List (Nat × Nat)), GoReady s g false (24 + 4 * r.length) [] → i < 4096 →
    r.length ≤ 16 → (∀ x ∈ r, x.1 ≤ x.2) → (∃ x ∈ r, s.part.volumes ≤ x.2) →
    ∃ t, exec (.sbtTenantSet g i id r) s = .next t ∧ t.cfg = s.cfg ∧ (getMbx t g.mb).lastStatus = 0x0003) ∧
  (∀ (s : State) (g : Go) (i : Nat) (id : BitVec 128) (r : List (Nat × Nat)), GoReady s g false (24 + 4 * r.length) [] → i < 4096 →
    r.length ≤ 16 → (∀ x ∈ r, x.1 ≤ x.2) → (∀ x ∈ r, x.2 < s.part.volumes) →
    ∃ t, exec (.sbtTenantRemove g i id r) s = .next t ∧ Tab.get? t.cfg.tenants i = none ∧
      (∀ j, j ≠ i → Tab.get? t.cfg.tenants j = Tab.get? s.cfg.tenants j) ∧ Runs t g (.config 0) []) ∧
  (∀ (s : State) (g : Go) (tile : Nat) (buf : SegDesc), GoReady s g false 24 [] → badBuf buf = false →
    (tile = 0xFF ∨ tile < s.part.tiles) →
    ∃ t, exec (.sbtConnList g tile buf) s = .next t ∧ t.sbt = s.sbt ∧
      Answered t g (leBytes 4 (s.sbt.conns.filter (fun c => tile == 0xFF || c.tile == tile)).length ++
        bytesField ((s.sbt.conns.filter (fun c => tile == 0xFF || c.tile == tile)).flatMap (connRecord s)))) ∧
  (∀ (s : State) (g : Go) (conn : W32) (k : Conn), GoReady s g false 4 [] → getConn? s conn = some k →
    exec (.sbtConnClose g conn) s = .next (settled (mbxOk (closeConn (mbxTake s g [] none) conn 2) g.mb []))) ∧
  (∀ (s : State) (id : W32) (k : Conn) (r : Nat), getConn? s id = some k → k.closeSent = false → s.cmds = [] →
    ∃ k', getConn? (closeConn s id r) id = some k' ∧ k'.st = .closing ∧ k'.closeSent = true) ∧
  (∀ (s : State) (g : Go) (conn : W32) (k : Conn) (target grace dur : Nat), GoReady s g false 14 [] → getConn? s conn = some k →
    1 ≤ target → target ≤ 256 → grace ≤ 1000000 →
    exec (.sbtThrottle g 0 target conn grace dur) s = .next (settled (mbxOk ((scopeConns (mbxTake s g [] none) 0 conn).foldl
      (fun u c => hostSlow u c target grace dur) (mbxTake s g [] none)) g.mb []))) ∧
  (∀ (s : State) (g : Go) (scope : Nat) (ident : W32) (target grace dur : Nat), GoReady s g false 14 [] → 1 ≤ target → target ≤ 256 →
    grace ≤ 1000000 →
    (scope = 1 ∧ (Tab.get? s.cfg.tenants ident.toNat).isSome = true ∨ scope = 2 ∧ (Tab.get? s.cfg.links ident.toNat).isSome = true) →
    exec (.sbtThrottle g scope target ident grace dur) s = .next (settled (mbxOk ((scopeConns (mbxTake s g [] none) scope ident).foldl
      (fun u c => hostSlow u c target grace dur) (mbxTake s g [] none)) g.mb []))) ∧
  (∀ (s : State) (g : Go) (scope : Nat) (ident : W32) (buf : SegDesc), GoReady s g false 24 [] → badBuf buf = false → scope ≤ 2 →
    (scope = 1 → ident.toNat < s.part.tiles) → (scope = 2 → (getConn? s ident).isSome = true) →
    ∃ t, exec (.sbtStats g scope ident buf) s = .next t ∧ t.sbt = s.sbt ∧
      Answered t g (bytesField (countBytes (statCounts s scope ident))))

/-! ### Ports and partner links (chapter 08) -/

/-- Links, flow control and neighbours (R353-R362, R364). -/
def Obligations.PortRows : Prop :=
  (∀ (s : State) (port : Nat), fwUp s = true → port < s.part.ports → tileUp s (tileOfPort port) = true →
    s.pins.sdRefclk.getD (tileOfPort port / 2) false = true → (getLink s port).started = true → (getLink s port).up = false →
    (linkCfg s port).p.role ≠ 0 →
    ∃ t, exec (.linkUp port) s = .next t ∧ (getLink t port).up = true ∧ t.cfg = s.cfg ∧ ∀ q, q ≠ port → getLink t q = getLink s q) ∧
  (∀ (s : State) (port : Nat), running s = true → (getLink s port).up = true → (linkCfg s port).p.role ≤ 1 →
    ∃ t, exec (.linkDown port) s = .next t ∧ (getLink t port).up = false ∧ t.members = s.members ∧ t.partners = s.partners) ∧
  (∀ (s : State) (port n : Nat), running s = true → (getLink s port).up = true → n ≤ 100 →
    ∃ t, exec (.fecErrorSecond port n) s = .next t ∧ t.jet = s.jet ∧
      getLink t port = { getLink s port with nUncorrectable := (getLink s port).nUncorrectable + n }) ∧
  (∀ (s : State) (port n : Nat), running s = true → (getLink s port).up = true → 100 < n →
    exec (.fecErrorSecond port n) s = .next (settled (fault0
      (modLink s port (fun l => { l with nUncorrectable := l.nUncorrectable + n })) 0x4012 1 (srcLink port)))) ∧
  (∀ (s : State) (port q : Nat) (cl : BitVec 8), ethernetUp s port = true → lossless (linkCfg s port).p = true →
    cl.getLsbD (linkCfg s port).p.pcp = true →
    ∃ t, exec (.pfcFrame port cl q) s = .next t ∧
      getLink t port = { getLink s port with nPfcRx := (getLink s port).nPfcRx + 1, paused := decide (0 < q) }) ∧
  (∀ (s : State) (port q : Nat) (cl : BitVec 8), ethernetUp s port = true → cl.getLsbD (linkCfg s port).p.pcp = false →
    ∃ t, exec (.pfcFrame port cl q) s = .next t ∧ (getLink t port).paused = (getLink s port).paused) ∧
  (∀ (s : State) (port k : Nat), ethernetUp s port = true → lossless (linkCfg s port).p = true →
    (linkCfg s port).p.xoff * lanesOf (linkCfg s port).p.mode ≤ k → k ≤ 2048 * lanesOf (linkCfg s port).p.mode →
    ∃ t, exec (.pfcRepeat port k) s = .next t ∧ (getLink t port).xoff = true ∧ (getLink t port).ingressKib = k ∧
      Emits s t (.pfc port 0xFFFF)) ∧
  (∀ (s : State) (port k : Nat), ethernetUp s port = true → lossless (linkCfg s port).p = true → (getLink s port).xoff = true →
    k < ((linkCfg s port).p.xoff - 256) * lanesOf (linkCfg s port).p.mode → k ≤ 2048 * lanesOf (linkCfg s port).p.mode →
    ∃ t, exec (.pfcRepeat port k) s = .next t ∧ (getLink t port).xoff = false ∧ Emits s t (.pfc port 0)) ∧
  (∀ (s : State) (tile port : Nat) (a : BitVec 128) (mac : BitVec 48),
    (getTile s tile).neighbours.find? (fun e => e.2.1 == a) = some (port, a, mac) → ethernetUp s port = true →
    ∃ t, exec (.neighbourResolve tile a) s = .next t ∧ t.tiles = s.tiles ∧ Emits s t (neighbourOut s port a)) ∧
  (∀ (s : State) (port : Nat) (c : Carriage) (target sender : BitVec 128) (mac : BitVec 48), ethernetUp s port = true →
    badCarriage (linkCfg s port).p c = none → (linkAddrs s port).contains target = true →
    ∃ t, exec (.neighbourDiscovery ⟨c, port⟩ (.request target sender mac)) s = .next t ∧ t.tiles = s.tiles ∧
      Emits s t (neighbourOut s port sender)) ∧
  (∀ (s : State) (port : Nat) (c : Carriage) (sender : BitVec 128) (mac : BitVec 48), ethernetUp s port = true →
    badCarriage (linkCfg s port).p c = none →
    ∃ t, exec (.neighbourDiscovery ⟨c, port⟩ (.answer sender mac)) s = .next t ∧
      (port, sender, mac) ∈ (getTile t (tileOfPort port)).neighbours ∧ (getTile t (tileOfPort port)).neighbours.length ≤ 4096) ∧
  (∀ (s : State) (port : Nat) (c : Carriage) (src dst : BitVec 128) (payload : List Byte), ethernetUp s port = true →
    badCarriage (linkCfg s port).p c = none → (linkAddrs s port).contains dst = true →
    ∃ t, exec (.echoRequest ⟨c, port⟩ src dst payload) s = .next t ∧ t.tiles = s.tiles ∧
      getLink t port = { getLink s port with nFrames := (getLink s port).nFrames + 1 } ∧
      Emits s t (.echoReply port (linkTag (linkCfg s port).p) dst src payload)) ∧
  (∀ (s : State) (port cause : Nat) (c : Carriage) (m : NeighbourMsg) (src dst : BitVec 128) (payload : List Byte) (i : Instr),
    ethernetUp s port = true → badCarriage (linkCfg s port).p c = some cause →
    (i = .neighbourDiscovery ⟨c, port⟩ m ∨ i = .echoRequest ⟨c, port⟩ src dst payload) →
    ∃ t, exec i s = .next t ∧ t.tiles = s.tiles ∧
      (getLink t port).discards = Tab.set (getLink s port).discards cause (Tab.getD (getLink s port).discards cause 0 + 1)) ∧
  (∀ (s : State) (mb port : Nat) (counts : List (Nat × Nat)), running s = true → (getMbx s mb).running = some (.portTest port) →
    (getMbx s mb).orphan = false →
    ∃ t, exec (.portTestComplete mb counts) s = .next t ∧ (getLink t port).test = none ∧ (getMbx t mb).busy = false ∧
      (getMbx t mb).resp = { status := 0, cmdId := (getMbx s mb).cmdId, detail := 0, data := laneCounts counts })

/-- Frames of a partner link (R379-R382, R385, R386): a good frame keeps the link up and acknowledges; the sequenced frames (`SeqRow`:
POOL_OFFER, POOL_REPLY, POOL_WITHDRAW, RECORD, CONFIRM, RELEASE, RELEASE_ACK) are taken in LSEQ order, a gap is answered by NACK and a
repetition dropped; a frame whose CRC fails is answered by NACK. -/
def Obligations.PartnerFrameRows : Prop :=
  (∀ (s : State) (h : PartnerHdr), exec (.hello h) s = .next (settled (takeFrame s h 1 []).1)) ∧
  (∀ (s : State) (h : PartnerHdr) (l : Nat), PartnerIn s h l 1 [] → exec (.hello h) s = .next (settled (partnerMet s h l))) ∧
  (∀ (s : State) (h : PartnerHdr) (l : Nat), PartnerIn s h l 1 [] → (getPartner s l).up = false → poolsOn s l = [] →
    (getPartner s l).unacked = [] →
    ∃ t, exec (.hello h) s = .next t ∧ (getPartner t l).up = true ∧ (getPartner t l).expect = (getPartner s l).expect) ∧
  (∀ (s : State) (h : PartnerHdr) (l : Nat) (c : PartnerCfg), linkAt s h.port = some l → Tab.get? s.cfg.partners l = some c →
    running s = true → tileUp s (tileOfPort h.port) = true → partnerWired s l = true → h.type = 1 → h.crcGood [] = false →
    ∃ t, exec (.hello h) s = .next t ∧ t.partners = s.partners ∧ Emits s t (partnerPlain s l 2)) ∧
  (∀ (s : State) (h : PartnerHdr) (l : Nat) (c : PartnerCfg), linkAt s h.port = some l → Tab.get? s.cfg.partners l = some c →
    running s = true → tileUp s (tileOfPort h.port) = true → partnerWired s l = true → h.type = 1 → h.crcGood [] = true →
    h.sender ≠ c.identity →
    exec (.hello h) s = .next (settled (partnerDown (countFrame s h.port) l))) ∧
  (∀ (s : State) (h : PartnerHdr) (l : Nat), PartnerIn s h l 2 [] →
    exec (.nack h) s = .next (settled (resendFrom (partnerMet s h l) l h.lack))) ∧
  (∀ (s : State) (h : PartnerHdr) (l : Nat) (pool : Nat) (d : PoolDesc),
    PartnerIn s h l (partnerBytes (.offer pool d)).1 (partnerBytes (.offer pool d)).2 →
    h.lseq = (getPartner s l).expect → exec (.poolOffer h pool d) s = .next (settled (offerTaken (partnerTurn s h l) l pool d))) ∧
  (∀ (s : State) (h : PartnerHdr) (l : Nat) (pool r : Nat), PartnerIn s h l (partnerBytes (.reply pool r)).1 (partnerBytes (.reply pool r)).2 →
    h.lseq = (getPartner s l).expect → exec (.poolReply h pool r) s = .next (settled (replyTaken (partnerTurn s h l) l pool r))) ∧
  (∀ (s : State) (h : PartnerHdr) (l : Nat) (pool : Nat), PartnerIn s h l (partnerBytes (.withdraw pool)).1 (partnerBytes (.withdraw pool)).2 →
    h.lseq = (getPartner s l).expect → exec (.poolWithdraw h pool) s = .next (settled (withdrawTaken (partnerTurn s h l) l pool))) ∧
  (∀ (s : State) (h : PartnerHdr) (l : Nat) (q fo o : Nat) (r : Rec),
    PartnerIn s h l (partnerBytes (.record q o fo true r)).1 (partnerBytes (.record q o fo true r)).2 →
    h.lseq = (getPartner s l).expect → exec (.record h q fo o true r) s = .next (settled (storePartner (partnerTurn s h l) l q o r))) ∧
  (∀ (s : State) (h : PartnerHdr) (l : Nat) (q fo o : Nat) (r : Rec),
    PartnerIn s h l (partnerBytes (.record q o fo false r)).1 (partnerBytes (.record q o fo false r)).2 →
    h.lseq = (getPartner s l).expect → exec (.record h q fo o false r) s = .next (settled (partnerTurn s h l))) ∧
  (∀ (s : State) (h : PartnerHdr) (l : Nat) (q o r : Nat), PartnerIn s h l (partnerBytes (.confirm q o r)).1 (partnerBytes (.confirm q o r)).2 →
    h.lseq = (getPartner s l).expect → exec (.confirm h q o r) s = .next (settled (confirmed (partnerTurn s h l) l o q r))) ∧
  (∀ (s : State) (h : PartnerHdr) (l : Nat) (pool : Nat) (hds : List PoolHeader), PartnerIn s h l (partnerBytes (.release pool)).1 (partnerBytes (.release pool)).2 →
    h.lseq = (getPartner s l).expect → exec (.release h pool hds) s = .next (settled (releaseTaken (partnerTurn s h l) l pool hds))) ∧
  (∀ (s : State) (h : PartnerHdr) (l : Nat) (pool r : Nat), PartnerIn s h l (partnerBytes (.releaseAck pool r)).1 (partnerBytes (.releaseAck pool r)).2 →
    h.lseq = (getPartner s l).expect → exec (.releaseAck h pool r) s = .next (settled (releaseEnd (partnerTurn s h l) l pool r))) ∧
  (∀ (s : State) (c : Instr) (h : PartnerHdr) (l : Nat) (b : PartnerBody), SeqRow c h b →
    PartnerIn s h l (partnerBytes b).1 (partnerBytes b).2 → seqBefore (getPartner s l).expect h.lseq = true →
    exec c s = .next (settled (emit (partnerMet s h l) (partnerPlain (partnerMet s h l) l 2)))) ∧
  (∀ (s : State) (c : Instr) (h : PartnerHdr) (l : Nat) (b : PartnerBody), SeqRow c h b →
    PartnerIn s h l (partnerBytes b).1 (partnerBytes b).2 → seqBefore h.lseq (getPartner s l).expect = true →
    exec c s = .next (settled (partnerMet s h l)))

/-- What the device answers to an offer and to mirrored records (R181, R184, R381, R382, Table 8-5). -/
def Obligations.PartnerAnswers : Prop :=
  (∀ (s : State) (l pool : Nat) (d : PoolDesc), offerResult s l pool d ≠ 0 →
    offerTaken s l pool d = partnerSend s l (.reply pool (offerResult s l pool d))) ∧
  (∀ (s : State) (l pool : Nat) (d : PoolDesc), offerResult s l pool d = 0 →
    ∃ c, poolCfg? (offerTaken s l pool d) pool = some c ∧ c.reserved = some l ∧ c.k = d.k ∧ c.s = d.s ∧ c.n = d.n ∧ c.seed = d.seed ∧
      c.members.length = d.n ∧ (getPool (offerTaken s l pool d) pool).st = .reserved) ∧
  (∀ (s : State) (l pool : Nat) (d : PoolDesc), (poolCfg? s pool).isSome = true → (poolCfg s pool).reserved ≠ some l →
    offerResult s l pool d = 1) ∧
  (∀ (s : State) (l q o t : Nat) (r : Rec) (i : RingRec), (poolCfg s (recPool s r)).reserved = some l → r.kind = .data →
    findPartner s l o r.ref = some (t, i) → (getTile s t).amber.high = true →
    storePartner s l q o r = partnerSend s l (.confirm q o 1)) ∧
  (∀ (s : State) (l q o t : Nat) (r : Rec), (poolCfg s (recPool s r)).reserved = some l → r.kind = .intent → mirrorTile s o = some t →
    ∃ x, storePartner s l q o r = modAmber s t (fun a => a.append x) ∧ x.r.partner = true ∧ x.r.kind = .intent ∧ x.r.vol = r.vol ∧
      x.r.row = r.row ∧ x.r.blockMask = r.blockMask ∧ x.origin = some (l, o, q)) ∧
  (∀ (s : State) (l q o : Nat) (r : Rec), (poolCfg s (recPool s r)).reserved ≠ some l → storePartner s l q o r = s) ∧
  (∀ (s : State) (l pool result mb : Nat), (getPartner s l).offers.find? (fun o => o.1 == pool) = some (pool, mb) →
    (getMbx s mb).running = some (.partnerOffer pool) → (getMbx s mb).orphan = false → result ≠ 0 →
    (getMbx (replyTaken s l pool result) mb).lastStatus = 0x0101 ∧ (getMbx (replyTaken s l pool result) mb).busy = false ∧
      (replyTaken s l pool result).cfg = s.cfg) ∧
  (∀ (s : State) (l pool mb : Nat), (getPartner s l).releases.find? (fun o => o.1 == pool) = some (pool, mb) →
    (getMbx s mb).running = some (.release pool) →
    poolCfg? (releaseEnd s l pool 0) pool = none ∧ (getMbx (releaseEnd s l pool 0) mb).running = some (.config 0))

/-- Timers of a partner link, leases and imports (R380, R383-R386). -/
def Obligations.PartnerTimerRows : Prop :=
  (∀ (s : State) (l : Nat) (f : W32 × PartnerBody) (r : List (W32 × PartnerBody)), (getPartner s l).unacked = f :: r → running s = true →
    partnerWired s l = true → ∃ t, exec (.partnerResendTimer l) s = .next t ∧ t.partners = s.partners ∧ Emits s t (partnerOut s l f)) ∧
  (∀ (s : State) (l : Nat), running s = true → partnerWired s l = true →
    ∃ t, exec (.helloSend l) s = .next t ∧ t.partners = s.partners ∧ Emits s t (partnerPlain s l 1)) ∧
  (∀ (s : State) (l : Nat), running s = true → (getPartner s l).up = true →
    exec (.partnerLinkTimeout l) s = .next (settled (fault0 (modPartner s l (fun p => { p with up := false })) 0x2020 1 (srcPartner l)))) ∧
  (∀ (s : State) (pool n : Nat) (o : BitVec 64), serving s = true → leased s pool = true → o = Config.identity →
    exec (.leaseRenewal pool n o) s = .next (settled (writeHeader (modPool (modPool s pool (fun p =>
      { p with owner := o, leaseOk := decide (2 ≤ n) && o == Config.identity })) pool (fun p => { p with lease := p.lease + 1 })) pool
      (metaMembers s pool)))) ∧
  (∀ (s : State) (pool n : Nat) (o : BitVec 64), serving s = true → leased s pool = true → o ≠ Config.identity →
    ∃ t, exec (.leaseRenewal pool n o) s = .next t ∧ (getPool t pool).lease = (getPool s pool).lease ∧
      (getPool t pool).owner = o ∧ (getPool t pool).leaseOk = false) ∧
  (∀ (s : State) (pool : Nat), serving s = true → leased s pool = true → (getPool s pool).leaseOk = false →
    exec (.leaseLoss pool) s = .next (settled (fault (modPool (poolOffline s pool) pool (fun p =>
      { p with disowned := p.owner != Config.identity })) { code := 0x2024, cls := 3, src := srcPool pool, acted := true }))) ∧
  (∀ (s : State) (pool : Nat), serving s = true → leased s pool = true → (getPool s pool).leaseOk = false →
    s.cmds = [] → s.destages = [] → (getPool s pool).work = none → (getPool s pool).copyWork = none → (getPool s pool).scrubWork = none →
    ∃ t, exec (.leaseLoss pool) s = .next t ∧ (getPool t pool).st = .offline ∧
      (getPool t pool).disowned = ((getPool s pool).owner != Config.identity)) ∧
  (∀ (s : State) (pool l : Nat) (c : PartnerCfg) (hds : List PoolHeader) (hd : PoolHeader), serving s = true →
    reservedDown s pool = some l → Tab.get? s.cfg.partners l = some c → c.autoImport = true → (getPool s pool).importHdr = none →
    newestHeader hds = some hd →
    ∃ t, exec (.autoImport pool hds) s = .next t ∧ (getPool t pool).importHdr = some hd ∧ (getPool t pool).importMb = none ∧
      t.cfg = s.cfg) ∧
  (∀ (s : State) (pool : Nat) (hds : List PoolHeader) (h0 hd : PoolHeader), serving s = true → (getPool s pool).importHdr = some h0 →
    (getPool s pool).importMb = none → (reservedDown s pool).isSome = true → h0.crcGood = true → newestHeader hds = some hd →
    h0.owner = hd.owner → h0.lease = hd.lease →
    exec (.importCheck pool hds) s = .next (settled (importPool s pool hd))) ∧
  (∀ (s : State) (pool : Nat) (hds : List PoolHeader) (h0 hd : PoolHeader), serving s = true → (getPool s pool).importHdr = some h0 →
    (getPool s pool).importMb = none → (reservedDown s pool).isSome = true → newestHeader hds = some hd → h0.lease ≠ hd.lease →
    ∃ t, exec (.importCheck pool hds) s = .next t ∧ (getPool t pool).importHdr = some hd ∧ t.cfg = s.cfg) ∧
  (∀ (s : State) (pool mb : Nat) (hds : List PoolHeader) (h0 hd : PoolHeader), serving s = true → (getPool s pool).importHdr = some h0 →
    (getPool s pool).importMb = some mb → (poolCfg s pool).reserved.isSome = true → newestHeader hds = some hd → h0.owner ≠ hd.owner →
    (getMbx s mb).orphan = false →
    ∃ t, exec (.importCheck pool hds) s = .next t ∧ (getPool t pool).importHdr = none ∧ (getMbx t mb).lastStatus = 0x0102 ∧
      (getMbx t mb).busy = false ∧ t.cfg = s.cfg)

/-- The port and partner commands of the mailbox (R357, R358, R378, R381, R385, R389). -/
def Obligations.PortCommandRows : Prop :=
  (∀ (s : State) (g : Go) (p : PortParams), GoReady s g false 64 [objLink p.port] → (portFields p).all (fun f => !f.2) = true →
    (portChecks s p).all (fun c => !c.fails) = true → (getLink s p.port).started = false → (getLink s p.port).test = none →
    ∃ t, exec (.portConfig g p) s = .next t ∧ Tab.get? t.cfg.links p.port = some { p := p, started := false } ∧
      t.links = s.links ∧ Runs t g (.config 0) []) ∧
  (∀ (s : State) (g : Go) (port : Nat), GoReady s g false 3 [objLink port] → port < s.part.ports → heldByOther s port port = false →
    (linkCfg s port).p.role ≠ 1 →
    exec (.portStop g port) s = .next (settled (mbxStore (setStarted (downLink (mbxTake s g [objLink port] none) port) port false) g.mb []))) ∧
  (∀ (s : State) (g : Go) (port : Nat), GoReady s g false 3 [objLink port] → port < s.part.ports → heldByOther s port port = false →
    (linkCfg s port).p.role = 1 →
    exec (.portStop g port) s = .next (settled (mbxStore (setStarted (downLink
      (((s.sbt.conns.filter (fun c => c.port == port)).map connIdOf).foldl (fun u id => closeConn u id 2) (mbxTake s g [objLink port] none))
      port) port false) g.mb []))) ∧
  (∀ (s : State) (g : Go) (port : Nat), GoReady s g false 3 [objLink port] → port < s.part.ports → heldByOther s port port = false →
    (linkCfg s port).p.role = 1 → s.sbt.conns = [] →
    ∃ t, exec (.portStop g port) s = .next t ∧ (getLink t port).started = false ∧ (getLink t port).up = false ∧ Runs t g (.config 0) []) ∧
  (∀ (s : State) (g : Go) (port : Nat), GoReady s g false 3 [objLink port] → port < s.part.ports → heldByOther s port port = false →
    (getLink s port).test = none →
    ∃ t, exec (.portStart g port) s = .next t ∧ (getLink t port).started = true ∧ (linkCfg t port).started = true ∧
      Runs t g (.config 0) []) ∧
  (∀ (s : State) (g : Go) (port : Nat), GoReady s g false 2 [] → port < s.part.ports → heldByOther s port port = false →
    ∃ t, exec (.portStatus g port) s = .next t ∧ t.links = s.links ∧ Answered t g
      (leBytes 1 (if (getLink s port).started = false then 0 else if (getLink s port).up = true then 2 else 1) ++
        leBytes 1 (linkCfg s port).p.mode ++ leBytes 1 (getLink s port).trained.toNat ++ leBytes 1 0 ++
        leBytes 2 (getTile s (tileOfPort port)).neighbours.length ++ leBytes 2 0 ++ leBytes 8 Config.baseMac.toNat)) ∧
  (∀ (s : State) (g : Go) (port : Nat) (buf : SegDesc), GoReady s g false 24 [] → badBuf buf = false → port < s.part.ports →
    port ≠ 0xFFFF → heldByOther s port port = false →
    ∃ t, exec (.portStats g port buf) s = .next t ∧ t.links = s.links ∧ Answered t g
      (bytesField (countBytes (linkCounts (Config.fecCorrected s.freeIx).toNat (getLink s port))))) ∧
  (∀ (s : State) (g : Go) (buf : SegDesc), GoReady s g false 24 [] → badBuf buf = false →
    ∃ t, exec (.portStats g 0xFFFF buf) s = .next t ∧ t.links = s.links ∧ (getMbx t g.mb).busy = false ∧
      (getMbx t g.mb).lastStatus = 0) ∧
  (∀ (s : State) (g : Go) (port pat sec : Nat), GoReady s g false 6 [objLink port] → port < s.part.ports →
    heldByOther s port port = false → pat ≤ 1 → (getLink s port).started = false → (getLink s port).test = none →
    ∃ t, exec (.portTest g port pat sec) s = .next t ∧ (getLink t port).test = some g.mb ∧ Runs t g (.portTest port) []) ∧
  (∀ (s : State) (g : Go) (port link : Nat) (auto : Bool) (id : BitVec 64) (c : LinkCfg),
    GoReady s g false 16 [objLink port, objPartner link] → link ≤ 5 → s.cfg.partners.any (fun e => e.1 != link && e.2.identity == id) = false →
    Tab.get? s.cfg.links port = some c → c.p.role = 3 → (getLink s port).started = false →
    ∃ t, exec (.partnerConfig g port link auto id) s = .next t ∧
      Tab.get? t.cfg.partners link = some { port := port, autoImport := auto, identity := id } ∧ t.partners = s.partners ∧
      Runs t g (.config 0) []) ∧
  (∀ (s : State) (g : Go) (link : Nat) (c : PartnerCfg), GoReady s g false 1 [] → link ≤ 5 → Tab.get? s.cfg.partners link = some c →
    ∃ t, exec (.partnerStatus g link) s = .next t ∧ t.partners = s.partners ∧
      Answered t g (leBytes 8 (getPartner s link).up.toNat ++
        leBytes 8 ((s.cfg.pools.map (fun e => flag e.1 (e.2.partner == some link || e.2.reserved == some link))).foldl (· + ·) 0) ++
        leBytes 4 (getPartner s link).awaiting.length)) ∧
  (∀ (s : State) (g : Go) (pool l : Nat) (hds : List PoolHeader) (hd : PoolHeader), GoReady s g false 2 [objPool pool] → s.phase = .ready →
    pool < 64 → reservedDown s pool = some l → (getPool s pool).importMb = none → newestHeader hds = some hd →
    ∃ t, exec (.poolImport g pool hds) s = .next t ∧ (getPool t pool).importHdr = some hd ∧ (getPool t pool).importMb = some g.mb ∧
      Runs t g (.importing pool) []) ∧
  (∀ (s : State) (g : Go) (pool l : Nat) (c : PoolCfg), GoReady s g false 2 [objPool pool] → s.phase = .ready → pool < 64 →
    poolCfg? s pool = some c → c.reserved = none → c.partner = some l → (getPool s pool).st = .stopped → (getPartner s l).up = true →
    ∃ t, exec (.poolRelease g pool) s = .next t ∧ (pool, g.mb) ∈ (getPartner t l).releases ∧ t.cfg = s.cfg ∧ Runs t g (.release pool) []) ∧
  (∀ (s : State) (g : Go) (pool l : Nat) (c : PoolCfg) (pc : PartnerCfg), GoReady s g false 3 [objPool pool, objPartner l] →
    s.phase = .ready → pool < 64 → l ≤ 5 → poolCfg? s pool = some c → c.reserved = none → Tab.get? s.cfg.partners l = some pc →
    (getPool s pool).st = .stopped → (getPartner s l).up = true →
    ∃ t, exec (.journalPartner g pool l) s = .next t ∧ (pool, g.mb) ∈ (getPartner t l).offers ∧ t.cfg = s.cfg ∧
      Runs t g (.partnerOffer pool) []) ∧
  (∀ (s : State) (g : Go) (pool : Nat) (c : PoolCfg), GoReady s g false 3 [objPool pool] → s.phase = .ready → pool < 64 →
    poolCfg? s pool = some c → c.reserved = none → (getPool s pool).st = .stopped →
    ∃ t, exec (.journalPartnerClear g pool 0xFF) s = .next t ∧ (poolCfg t pool).partner = none ∧ (getPool t pool).suspended = false ∧
      Runs t g (.config 0) [])

/-! ### Host endpoint (chapter 9) -/

/-- The PCIe link, D-states, VFs and function resets (R391, R395, R396, R398, R428, Table 9-17). -/
def Obligations.HostLinkRows : Prop :=
  (∀ (s : State) (rate width : Nat), endpointUp s = true → s.pcie.linkUp = false →
    (width = 1 ∨ width = 2 ∨ width = 4 ∨ width = 8 ∨ width = 16) →
    exec (.pcieLinkUp rate width) s =
      .next (settled (wakeHost (modPcie s (fun p => { p with linkUp := true, rate := rate, width := width }))))) ∧
  (∀ (s : State) (rate : Nat), running s = true → s.pcie.linkUp = true → 0 < s.pcie.width →
    exec (.pcieLinkDown rate 0) s =
      .next (settled (fault0 (modPcie s (fun p => { p with linkUp := false, rate := 0, width := 0 })) 0x5008 1 (srcHost 0)))) ∧
  (∀ (s : State) (rate width : Nat), running s = true → s.pcie.linkUp = true → 0 < width →
    (rate < s.pcie.rate ∨ width < s.pcie.width) →
    exec (.pcieLinkDown rate width) s =
      .next (settled (fault0 (modPcie s (fun p => { p with rate := rate, width := width })) 0x5008 1 (srcHost 0)))) ∧
  (∀ (s : State) (fn : Nat) (d : DState), running s = true → s.pcie.linkUp = true → fnExists s fn = true →
    (d = .d3hot ∨ d = .d1 ∧ fn = 0) → (getFunc s fn).d = .d0 →
    ∃ t, exec (.dStateEntry fn d) s = .next t ∧ (getFunc t fn).d = d ∧ t.sqs = s.sqs ∧ t.live = s.live) ∧
  (∀ (s : State) (fn : Nat), running s = true → s.pcie.linkUp = true → fnExists s fn = true → (getFunc s fn).d ≠ .d0 →
    exec (.d0Return fn) s = .next (settled (wakeHost (modFunc s fn (fun f => { f with d := .d0 }))))) ∧
  (∀ (s : State) (n : Nat), running s = true → s.pcie.linkUp = true → (getFunc s 0).d = .d0 → 1 ≤ n → n ≤ 63 → s.pcie.numVfs ≤ n →
    ∃ t, exec (.vfEnable true n) s = .next t ∧ t.pcie.numVfs = n ∧ t.sqs = s.sqs ∧ t.pcie.sqOwner = s.pcie.sqOwner) ∧
  (∀ (s : State) (n : Nat), running s = true → s.pcie.linkUp = true → (getFunc s 0).d = .d0 → n ≤ 63 →
    ∃ t, exec (.vfEnable false n) s = .next t ∧ t.pcie.numVfs = 0) ∧
  (∀ s : State, running s = true → s.pcie.linkUp = true →
    ∃ t, exec (.functionLevelReset 0) s = .next t ∧ t.pcie.numVfs = 0 ∧ t.pcie.sqOwner = [] ∧ t.pcie.cqOwner = [] ∧
      t.pcie.winOwner = [] ∧ t.pcie.volRanges = []) ∧
  (∀ (s : State) (fn : Nat), running s = true → s.pcie.linkUp = true → fnExists s fn = true → fn ≠ 0 →
    exec (.functionLevelReset fn) s = .next (settled (resetFunction s fn)))

/-- Completions, time-outs, tags and translations (R409, R412-R414, R416, R417, R419). -/
def Obligations.HostRequestRows : Prop :=
  (∀ (s : State) (c : HostCpl), running s = true → s.pcie.linkUp = true → s.pcie.reqs.find? (fun r => r.tag == c.tag) = none →
    Tab.get? s.pcie.quarantine c.tag = none →
    ∃ t, exec (.hostCompletion c) s = .next t ∧ t.pcie.aer = 2 :: s.pcie.aer ∧ t.pcie.reqs = s.pcie.reqs ∧ t.live = s.live) ∧
  (∀ (s : State) (c : HostCpl) (fn due : Nat), running s = true → s.pcie.linkUp = true →
    s.pcie.reqs.find? (fun r => r.tag == c.tag) = none → Tab.get? s.pcie.quarantine c.tag = some (fn, due) →
    ∃ t, exec (.hostCompletion c) s = .next t ∧ t.pcie.aer = 2 :: s.pcie.aer ∧ t.pcie.reqs = s.pcie.reqs ∧ t.live = s.live ∧
      t.pcie.quarantine = s.pcie.quarantine) ∧
  (∀ (s : State) (c : HostCpl) (r : HostReq), running s = true → s.pcie.linkUp = true →
    s.pcie.reqs.find? (fun r => r.tag == c.tag) = some r → c.status = .sc → c.poisoned = false → cplGood r c = true →
    r.got.length + c.data.length < r.len →
    ∃ t, exec (.hostCompletion c) s = .next t ∧ { r with got := r.got ++ c.data } ∈ t.pcie.reqs ∧ t.live = s.live) ∧
  (∀ (s : State) (c : HostCpl) (r : HostReq), running s = true → s.pcie.linkUp = true →
    s.pcie.reqs.find? (fun r => r.tag == c.tag) = some r → c.status = .sc → c.poisoned = false → cplGood r c = true →
    r.got.length + c.data.length = r.len →
    exec (.hostCompletion c) s = .next (settled (pumpHost (gotRead (dropReq s r) { r with got := r.got ++ c.data })))) ∧
  (∀ (s : State) (c : HostCpl) (r : HostReq), running s = true → s.pcie.linkUp = true →
    s.pcie.reqs.find? (fun r => r.tag == c.tag) = some r → c.status = .sc → c.poisoned = false → cplGood r c = false →
    exec (.hostCompletion c) s = .next (settled (pumpHost (failReq (unexpected (dropReq s r) r.fn) r)))) ∧
  (∀ (s : State) (c : HostCpl) (r : HostReq), running s = true → s.pcie.linkUp = true →
    s.pcie.reqs.find? (fun r => r.tag == c.tag) = some r → c.status = .sc → c.poisoned = true →
    exec (.hostCompletion c) s = .next (settled (pumpHost (failReq (aer (reqStatus (dropReq s r) r.fn 3) 3) r)))) ∧
  (∀ (s : State) (c : HostCpl) (r : HostReq), running s = true → s.pcie.linkUp = true →
    s.pcie.reqs.find? (fun r => r.tag == c.tag) = some r → c.status ≠ .sc →
    exec (.hostCompletion c) s = .next (settled (pumpHost (failReq (reqStatus (dropReq s r) r.fn 2) r)))) ∧
  (∀ (s : State) (tag : Nat) (r : HostReq), running s = true → s.pcie.reqs.find? (fun r => r.tag == tag) = some r →
    exec (.completionTimeout tag) s = .next (settled (pumpHost (timeOutReq s r)))) ∧
  (∀ (s : State) (tag : Nat) (e : Nat × Nat), running s = true → Tab.get? s.pcie.quarantine tag = some e →
    exec (.tagQuarantineEnd tag) s = .next (settled (pumpHost (modPcie s (fun p => { p with quarantine := Tab.erase p.quarantine tag }))))) ∧
  (∀ (s : State) (tag : Nat) (e : Nat × Nat), running s = true → Tab.get? s.pcie.quarantine tag = some e → s.pcie.waitReqs = [] →
    s.pcie.waitWrites = [] → s.live = [] →
    ∃ t, exec (.tagQuarantineEnd tag) s = .next t ∧ Tab.get? t.pcie.quarantine tag = none ∧ t.pcie.reqs = s.pcie.reqs) ∧
  (∀ (s : State) (tr : Translation) (x : TrReq), running s = true → s.pcie.linkUp = true →
    s.pcie.trReqs.find? (fun x => x.id == tr.req) = some x → tr.status = .sc → (if x.write then tr.writeOk else tr.readOk) = true →
    exec (.translationCompletion tr) s = .next (settled (pumpHost (atcInsert
      (modPcie s (fun p => { p with trReqs := p.trReqs.filter (fun y => y.id != x.id) }))
      { fn := x.fn, page := BitVec.ofNat 52 x.page, target := tr.page, r := tr.readOk, w := tr.writeOk })))) ∧
  (∀ (s : State) (tr : Translation) (x : TrReq), running s = true → s.pcie.linkUp = true →
    s.pcie.trReqs.find? (fun x => x.id == tr.req) = some x → (tr.status ≠ .sc ∨ (if x.write then tr.writeOk else tr.readOk) = false) →
    exec (.translationCompletion tr) s = .next (settled (pumpHost (refuseTranslation
      (modPcie s (fun p => { p with trReqs := p.trReqs.filter (fun y => y.id != x.id) })) x)))) ∧
  (∀ (s : State) (fn itag pages : Nat) (page : BitVec 52), running s = true → s.pcie.linkUp = true → fnExists s fn = true →
    (getFunc s fn).ats = false → s.pcie.waitReqs = [] → s.pcie.waitWrites = [] → s.live = [] →
    ∃ t, exec (.invalidationRequest fn itag page pages) s = .next t ∧ Emits s t (.invalidated fn itag) ∧
      (∀ e ∈ t.pcie.atc, e ∈ s.pcie.atc) ∧
      ∀ e ∈ t.pcie.atc, ¬(e.fn = fn ∧ page.toNat ≤ e.page.toNat ∧ e.page.toNat < page.toNat + pages))

/-- Peer windows (R420-R426, Tables 9-13 to 9-15). -/
def Obligations.WindowRows : Prop :=
  (∀ (s : State) (w : WinTlp) (data : List (Option Byte)), winReached s w = true →
    winRefuses s w true (enabledSpan w.offset data).1 (enabledSpan w.offset data).2 = true →
    ∃ t, exec (.windowWrite w data) s = .next t ∧ t.tiles = s.tiles ∧ (getWindow t w.window).dropped = true ∧
      (getWindow t w.window).refused = satInc (getWindow s w.window).refused 255 ∧
      (getWindow t w.window).act = (getWindow s w.window).act) ∧
  (∀ (s : State) (w : WinTlp) (b : Byte), winReached s w = true → winRefuses s w true w.offset (w.offset + 1) = false →
    winBase (getWindow s w.window).act ≤ w.offset →
    ∃ t, exec (.windowWrite w [some b]) s = .next t ∧ t.pcie.windows = s.pcie.windows ∧
      (getTile t (winTile (getWindow s w.window).act)).tier.staging =
        Mem.set (getTile s (winTile (getWindow s w.window).act)).tier.staging
          (winOffset (getWindow s w.window).act + w.offset - winBase (getWindow s w.window).act) b) ∧
  (∀ (s : State) (w : WinTlp) (len : Nat), winReached s w = true → winRefuses s w false w.offset (w.offset + len) = true →
    ∃ t, exec (.windowRead w len) s = .next t ∧ t.tiles = s.tiles ∧ (getWindow t w.window).readRefused = true ∧
      Emits s t (.peerCompletion .ur [])) ∧
  (∀ (s : State) (w : WinTlp) (len : Nat), winReached s w = true → winRefuses s w false w.offset (w.offset + len) = false →
    ∃ t, exec (.windowRead w len) s = .next t ∧ t.tiles = s.tiles ∧ t.pcie.windows = s.pcie.windows ∧
      Emits s t (.peerCompletion .sc (Mem.bytes (getTile s (winTile (getWindow s w.window).act)).tier.staging
        (winOffset (getWindow s w.window).act + w.offset - winBase (getWindow s w.window).act) len))) ∧
  (∀ (s : State) (fn w : Nat) (v : W32), winReach s fn w = true → v.toNat % 2 = 1 → commitGood s (getWindow s w).sh = true →
    ∃ t, exec (.winCommit fn w v) s = .next t ∧ (getWindow t w).act = (getWindow s w).sh ∧ (getWindow t w).refused = 0 ∧
      ∀ k, k ≠ w → getWindow t k = getWindow s k) ∧
  (∀ (s : State) (fn w : Nat) (v : W32), winReach s fn w = true → v.toNat % 2 = 1 → commitGood s (getWindow s w).sh = false →
    ∃ t, exec (.winCommit fn w v) s = .next t ∧ (getWindow t w).act = (getWindow s w).act ∧ (getWindow t w).commitErr = true) ∧
  (∀ (s : State) (fn w off : Nat) (v : W32), winReach s fn w = true →
    (off = 0x00 ∨ off = 0x04 ∨ off = 0x08 ∨ off = 0x0C ∨ off = 0x10) →
    ∃ t, exec (.windowDirectWrite fn w off v) s = .next t ∧ getWindow t w = { getWindow s w with directWrite := true })

/-- Writes of BAR 0, configuration space and the MSI-X table (R10-R16, R399-R403, R411, Tables 9-4 to 9-6): misaligned ones are discarded, write-one-to-clear bits clear, reserved
bits and values out of range change nothing, and each half of a 64-bit register keeps its partner. -/
def Obligations.RegisterWriteRows : Prop :=
  (∀ (s : State) (fn off width : Nat) (v : BitVec 64), running s = true → fnExists s fn = true → canDma s fn = true →
    exec (.registerWrite fn (.bar0 off) width v) s = .next (settled (writeReg s fn off width v))) ∧
  (∀ (s : State) (fn width : Nat) (f : CfgField) (v : BitVec 64), running s = true → fnExists s fn = true → s.pcie.linkUp = true →
    s.pins.perstN = true → tileUp s 0 = true →
    exec (.registerWrite fn (.config f) width v) s = .next (settled (writeCfg s fn f v.toNat))) ∧
  (∀ (s : State) (fn k width : Nat) (v : BitVec 64), running s = true → fnExists s fn = true → canDma s fn = true →
    exec (.registerWrite fn (.vector k) width v) s = .next (settled (writeVector s fn k v.toNat))) ∧
  (∀ (s : State) (fn off width : Nat) (v : BitVec 64), ¬(width = 4 ∧ off % 4 = 0) → ¬(width = 8 ∧ off % 8 = 0) →
    writeReg s fn off width v = s) ∧
  (∀ (s : State) (v : BitVec 64), running s = true → canDma s 0 = true →
    ∃ t, exec (.registerWrite 0 (.bar0 0x208) 4 v) s = .next t ∧
      t.jade.escMs = (if 1 ≤ v.toNat % 2 ^ 14 ∧ v.toNat % 2 ^ 14 ≤ 10000 then v.toNat % 2 ^ 14 else s.jade.escMs)) ∧
  (∀ (s : State) (v : BitVec 64), running s = true → canDma s 0 = true →
    ∃ t, exec (.registerWrite 0 (.bar0 0x200) 4 v) s = .next t ∧ t.jade.f1Seen = (s.jade.f1Seen && !v.getLsbD 0) ∧
      t.jade.f3Seen = (s.jade.f3Seen && !v.getLsbD 2) ∧ t.jade.hwdog = (s.jade.hwdog && !v.getLsbD 6) ∧ t.jade.queue.length = s.jade.queue.length) ∧
  (∀ (s : State) (v : BitVec 64), running s = true → canDma s 0 = true →
    ∃ t, exec (.registerWrite 0 (.bar0 0x408) 4 v) s = .next t ∧ t.moon.rephased = (s.moon.rephased && !v.getLsbD 8) ∧
      t.moon.sealDone = (s.moon.sealDone && !v.getLsbD 11) ∧ t.moon.breakSeen = (s.moon.breakSeen && !v.getLsbD 13) ∧
      t.moon.role = s.moon.role ∧ t.moon.epoch = s.moon.epoch) ∧
  (∀ (s : State) (v : BitVec 64), running s = true → canDma s 0 = true →
    ∃ t, exec (.registerWrite 0 (.bar0 0x104) 4 v) s = .next t ∧ (getFunc t 0).intMask = v.setWidth 7) ∧
  (∀ (s : State) (n : Nat) (v : BitVec 64), running s = true → canDma s 0 = true → n < s.part.sqs → sqOwner s n = 0 →
    tileUp s (sqTile s n) = true →
    ∃ t, exec (.registerWrite 0 (.bar0 (0x200000 + 64 * n + 0x1C)) 4 v) s = .next t ∧
      getSq t n = { getSq s n with weight := v.toNat % 2 ^ 6, burst := v.toNat / 2 ^ 8 % 2 ^ 5 }) ∧
  (∀ (s : State) (n : Nat) (v : BitVec 64), running s = true → canDma s 0 = true → n < s.part.sqs → sqOwner s n = 0 →
    tileUp s (sqTile s n) = true → (getSq s n).active = false → (getSq s n).draining = false →
    ∃ t, exec (.registerWrite 0 (.bar0 (0x200000 + 64 * n)) 8 v) s = .next t ∧
      getSq t n = { getSq s n with base := BitVec.ofNat 64 (v.toNat / 4096 * 4096) })

/-! ### Work rings (chapter 10) -/

/-- Doorbells, dispatch and the rows of dispatched entries (R442-R454). -/
def Obligations.RingEntryRows : Prop :=
  (∀ (s : State) (fn sq : Nat), sqReach s fn sq = true → (getSq s sq).scanning = false → mayFetch s sq = true →
    ∃ t, exec (.sqDb fn sq) s = .next t ∧ (getSq t sq).scanning = true ∧ (getSq t sq).scan = (getSq s sq).scan ∧ t.live = s.live) ∧
  (∀ (s : State) (fn sq : Nat), sqReach s fn sq = true → (getSq s sq).active = true → (getSq s sq).scanning = true →
    ∃ t, exec (.sqDb fn sq) s = .next t ∧ getSq t sq = { getSq s sq with again := true }) ∧
  (∀ (s u : State) (tile : Nat), serving s = true → tileUp s tile = true → arbPass s tile = some u →
    exec (.sqDispatch tile) s = .next (settled u)) ∧
  (∀ (s u : State) (tile : Nat), serving s = true → tileUp s tile = true → arbPass s tile = none →
    arbPass (refreshCredits s tile) tile = some u → exec (.sqDispatch tile) s = .next (settled u)) ∧
  (∀ (s : State) (tile n : Nat), serving s = true → tileUp s tile = true → n ∈ sqsOn s tile → sqReady s n = true →
    (getSq s n).credit ≠ 0 → ∃ u, arbPass s tile = some u ∧ exec (.sqDispatch tile) s = .next (settled u)) ∧
  (∀ (s : State) (id : Nat) (l : Live) (op : BlockOp) (opc : Nat) (c : Instr),
    (op = .read ∧ opc = 0x01 ∧ c = .ringRead id ∨ op = .write ∧ opc = 0x02 ∧ c = .ringWrite id ∨
      op = .flush ∧ opc = 0x03 ∧ c = .ringFlush id ∨ op = .zeroes ∧ opc = 0x04 ∧ c = .ringWriteZeroes id ∨
      op = .dealloc ∧ opc = 0x05 ∧ c = .ringDeallocate id) →
    getLive? s id = some l → startable s l opc = true →
    ∃ t, exec c s = .next t ∧ s.nextId < t.nextId ∧
      (∃ x ∈ t.cmds, x = { blockCmd s l op with phase := .forwarded, fwd := x.fwd }) ∧
      ∃ y, getLive? t id = some y ∧ y.started = true ∧ y.opc = l.opc ∧ y.segs = l.segs) ∧
  (∀ (s : State) (id : Nat) (l : Live) (opc : Nat) (c : Instr),
    (opc = 0x10 ∧ c = .pqCompute id ∨ opc = 0x11 ∧ c = .reconstruct id ∨ opc = 0x12 ∧ c = .copy id) →
    getLive? s id = some l → startable s l opc = true → exec c s = .next (settled (beginOffload s l))) ∧
  (∀ (s : State) (id : Nat) (l : Live), getLive? s id = some l → startable s l 0x3F = true →
    exec (.skip id) s = .next (settled (finishEntry (modLive s id (fun y => { y with started := true })) id 0)))

/-- Completion rings, enable and disable (R459-R467, Tables 10-12, 10-13). -/
def Obligations.RingControlRows : Prop :=
  (∀ (s : State) (fn cq : Nat) (v : W32), cqReach s fn cq = true → (getCq s cq).active = true →
    headGood (getCq s cq) (v.toNat % 2 ^ 16) (v.getLsbD 16) = false →
    ∃ t, exec (.cqHeadDb fn cq v) s = .next t ∧ getCq t cq = { getCq s cq with headErr := true }) ∧
  (∀ (s : State) (fn cq : Nat) (v : W32), cqReach s fn cq = true → (getCq s cq).active = true →
    headGood (getCq s cq) (v.toNat % 2 ^ 16) (v.getLsbD 16) = true → (getCq s cq).waiting = [] → (getCq s cq).backpressure = false →
    ∃ t, exec (.cqHeadDb fn cq v) s = .next t ∧ (getCq t cq).head = v.toNat % 2 ^ 16 ∧ (getCq t cq).headWrap = v.getLsbD 16 ∧
      (getCq t cq).tail = (getCq s cq).tail) ∧
  (∀ (s : State) (cq : Nat), running s = true → tileUp s (cqTile s cq) = true → (getCq s cq).active = true → (getCq s cq).ien = true →
    (getCq s cq).timer = true → (getCq s cq).aggTime ≠ 0 → 0 < (getCq s cq).sinceMsg →
    ∃ t, exec (.cqAggTimer cq) s = .next t ∧ getCq t cq = { getCq s cq with sinceMsg := 0, timer := false }) ∧
  (∀ (s : State) (fn sq : Nat) (v : W32), sqReach s fn sq = true → v.getLsbD 0 = false → (getSq s sq).en = true →
    exec (.sqDisable fn sq v) s = .next (settled (stopSq s sq))) ∧
  (∀ (s : State) (sq : Nat), running s = true → tileUp s (sqTile s sq) = true → (getSq s sq).draining = true → sqLive s sq = [] →
    (∀ c, sqCq s sq = some c → (getCq s c).waiting = []) →
    ∃ t, exec (.sqDrainComplete sq) s = .next t ∧ (getSq t sq).draining = false ∧ (getSq t sq).posHead = (getSq s sq).head ∧
      (getSq t sq).posWrap = (getSq s sq).headWrap ∧ (getSq t sq).pub = (getSq s sq).head) ∧
  (∀ (s : State) (fn sq c : Nat) (v : W32), sqReach s fn sq = true → v.getLsbD 0 = true → (getSq s sq).en = false →
    (getSq s sq).draining = false → (getSq s sq).base ≠ 0 → (getSq s sq).headword ≠ 0 → sqCq s sq = some c → c < s.part.cqs →
    cqOwner s c = sqOwner s sq → tileOfCq c = tileOfSq sq → (getSq s sq).posHead < 2 ^ (getSq s sq).size → (getCq s c).active = true →
    ∃ t, exec (.sqEnable fn sq v) s = .next t ∧ (getSq t sq).en = true ∧ (getSq t sq).active = true ∧ (getSq t sq).cfgStatus = 0 ∧
      (getSq t sq).head = (getSq s sq).posHead ∧ (getSq t sq).scan = (getSq s sq).posHead ∧ (getSq t sq).fetched = []) ∧
  (∀ (s : State) (fn sq : Nat) (v : W32), sqReach s fn sq = true → v.getLsbD 0 = true → (getSq s sq).en = false →
    (getSq s sq).draining = false → (getSq s sq).base = 0 →
    ∃ t, exec (.sqEnable fn sq v) s = .next t ∧ getSq t sq = { getSq s sq with cfgStatus := 0x0002 }) ∧
  (∀ (s : State) (fn cq : Nat) (v : W32), cqReach s fn cq = true → v.getLsbD 0 = true → (getCq s cq).en = false →
    (getCq s cq).base ≠ 0 →
    ∃ t, exec (.cqEnable fn cq v) s = .next t ∧ getCq t cq = { getCq s cq with
      en := true, active := true, cfgStatus := 0, tail := 0, tailWrap := false, head := 0, headWrap := false, sinceMsg := 0, timer := false }) ∧
  (∀ (s : State) (fn cq : Nat) (v : W32), cqReach s fn cq = true → v.getLsbD 0 = true → (getCq s cq).en = false →
    (getCq s cq).base = 0 →
    ∃ t, exec (.cqEnable fn cq v) s = .next t ∧ getCq t cq = { getCq s cq with cfgStatus := 0x0002 }) ∧
  (∀ (s : State) (fn cq : Nat) (v : W32), cqReach s fn cq = true → v.getLsbD 0 = false → (getCq s cq).en = true →
    (∀ k ∈ boundSqs s cq, (getSq s k).active = false ∧ (getSq s k).draining = false) →
    ∃ t, exec (.cqDisable fn cq v) s = .next t ∧ (getCq t cq).en = false ∧ (getCq t cq).active = false ∧ (getCq t cq).waiting = []) ∧
  (∀ (s : State) (fn cq k : Nat) (v : W32), cqReach s fn cq = true → v.getLsbD 0 = false → (getCq s cq).en = true →
    k ∈ boundSqs s cq → (getSq s k).active = true →
    ∃ t, exec (.cqDisable fn cq v) s = .next t ∧ getCq t cq = { getCq s cq with writeIgnored := true, cfgStatus := 0x0002 })

/-! ### Mailboxes (chapter 11) -/

/-- Doorbells, the storing of changes, and what every GO meets (R470-R474, R478, R485, Table 11-6). -/
def Obligations.MailboxRows : Prop :=
  (∀ (s : State) (mb : Nat) (v : W32), mbxReachable s mb = true → (getMbx s mb).busy = true → v.getLsbD 0 = true → v.getLsbD 1 = false →
    ∃ t, exec (.overrun mb v) s = .next t ∧ getMbx t mb = { getMbx s mb with overrun := true }) ∧
  (∀ (s : State) (mb vol : Nat) (v : W32), mbxReachable s mb = true → (getMbx s mb).busy = true → v.getLsbD 1 = true →
    (getMbx s mb).orphan = false → (getMbx s mb).running = some (.volumeStop vol) → (getVol s vol).st = .stopping →
    ∃ t, exec (.mailboxCancel mb v) s = .next t ∧ (getVol t vol).st = .running ∧ (getVol t vol).draining = false ∧
      (getMbx t mb).busy = false ∧ (getMbx t mb).done = true ∧ (getMbx t mb).lastStatus = 0x0005) ∧
  (∀ (s : State) (mb : Nat) (v : W32), mbxReachable s mb = true → (getMbx s mb).busy = true → v.getLsbD 1 = true →
    (getMbx s mb).orphan = false → (getMbx s mb).running = some .power →
    ∃ t, exec (.mailboxCancel mb v) s = .next t ∧ t.hk.psPending = none ∧ t.hk.ps = s.hk.ps ∧ (getMbx t mb).busy = false ∧
      (getMbx t mb).lastStatus = 0x0005) ∧
  (∀ (s : State) (mb : Nat) (v : W32), mbxReachable s mb = true → (getMbx s mb).busy = true → v.getLsbD 1 = true →
    (getMbx s mb).orphan = false → (getMbx s mb).running = some .waiting → (getMbx s mb).objs.contains (objCancel mb) = true →
    ∃ t, exec (.mailboxCancel mb v) s = .next t ∧ t.cfg = s.cfg ∧ t.vols = s.vols ∧ (getMbx t mb).busy = false ∧
      (getMbx t mb).lastStatus = 0x0005) ∧
  (∀ (s : State) (mb : Nat) (v : W32) (st : Status), mbxReachable s mb = true → (getMbx s mb).busy = true → v.getLsbD 1 = true →
    v.getLsbD 0 = false → (getMbx s mb).running = some (.config st) →
    ∃ t, exec (.mailboxCancel mb v) s = .next t ∧ t.mbx = s.mbx ∧ t.cfg = s.cfg) ∧
  (∀ (s : State) (mb : Nat) (st : Status), fwUp s = true → (getMbx s mb).running = some (.config st) → (getMbx s mb).orphan = false →
    ∃ t, exec (.configStored mb) s = .next t ∧ t.flash.gen = s.flash.gen + 1 ∧ t.cfg = s.cfg ∧
      (t.flash.copyA = .good (s.flash.gen + 1) s.cfg ∨ t.flash.copyB = .good (s.flash.gen + 1) s.cfg) ∧
      (getMbx t mb).busy = false ∧ (getMbx t mb).lastStatus = st ∧ (getMbx t mb).resp.cmdId = (getMbx s mb).cmdId) ∧
  (∀ (s : State) (mb vol : Nat), fwUp s = true → (getMbx s mb).running = some (.volumeStopped vol) → (getMbx s mb).orphan = false →
    ∃ t, exec (.configStored mb) s = .next t ∧ t.flash.gen = s.flash.gen + 1 ∧ t.cfg = s.cfg ∧ (getMbx t mb).busy = false ∧
      (getMbx t mb).lastStatus = 0) ∧
  (∀ (s : State) (mb pool : Nat), fwUp s = true → (getMbx s mb).running = some (.poolCreate pool) → (getMbx s mb).orphan = false →
    s.mcmds = [] →
    ∃ t, exec (.configStored mb) s = .next t ∧ t.flash.gen = s.flash.gen + 1 ∧ (getMbx t mb).busy = false ∧ (getMbx t mb).lastStatus = 0) ∧
  (∀ (s : State) (g : Go), mbxReachable s g.mb = true → (getMbx s g.mb).busy = true → (getMbx s g.mb).running ≠ some .waiting →
    ∃ t, exec (.devInfo g) s = .next t ∧ getMbx t g.mb = { getMbx s g.mb with overrun := true }) ∧
  (∀ (s : State) (g : Go), mbxReachable s g.mb = true → (getMbx s g.mb).busy = false → fwUp s = false →
    ∃ t, exec (.devInfo g) s = .next t ∧ (getMbx t g.mb).busy = false ∧ (getMbx t g.mb).done = true ∧
      (getMbx t g.mb).lastStatus = 0x0103 ∧ (getMbx t g.mb).resp.data = []) ∧
  (∀ (s : State) (g : Go) (floor : Nat), mbxReachable s g.mb = true → (getMbx s g.mb).busy = false → fwUp s = true → g.mb ≠ 0 →
    ∃ t, exec (.rebuildConfig g floor) s = .next t ∧ t.cfg = s.cfg ∧ (getMbx t g.mb).lastStatus = 0x0101) ∧
  (∀ (s : State) (g : Go) (o : Nat), mbxReachable s g.mb = true → (getMbx s g.mb).busy = false → fwUp s = true → s.hk.closing = false →
    g.hdrReserved = some o → o < 16 →
    ∃ t, exec (.devInfo g) s = .next t ∧ (getMbx t g.mb).lastStatus = 0x0002 ∧ (getMbx t g.mb).resp.detail = BitVec.ofNat 32 (0x80000000 + o)) ∧
  (∀ (s : State) (g : Go), mbxReachable s g.mb = true → (getMbx s g.mb).busy = false → fwUp s = true → s.hk.closing = false →
    g.hdrReserved = none → g.paramLen ≠ 0 →
    ∃ t, exec (.devInfo g) s = .next t ∧ (getMbx t g.mb).lastStatus = 0x0002 ∧ (getMbx t g.mb).resp.detail = 0) ∧
  (∀ (s : State) (g : Go), GoReady s g true 0 [] →
    ∃ t, exec (.devInfo g) s = .next t ∧ t.cfg = s.cfg ∧ Answered t g (leBytes 4 s.sec.version ++ leBytes 4 s.flash.gen ++
      leBytes 1 (if s.phase = .ready then 2 else 1) ++ leBytes 1 (tileBits s (fun x => x.inService))))

/-- FUNC_ASSIGN gives resources of PF0 to a VF and takes them back (R396, R397, Table 11-7). -/
def Obligations.AssignRows : Prop :=
  (∀ (s : State) (g : Go) (vf kind first last : Nat), GoReady s g false 8 [] → kind < 3 → first ≤ last → 1 ≤ vf → vf ≤ s.pcie.numVfs →
    last < resourceEnd s kind → (∀ n, first ≤ n → n ≤ last → resourceOwner s kind n = 0 ∧ resourceBusy s kind n = false) →
    (kind = 2 → windowsStopped s vf = true) → vfHolds s kind vf + (last + 1 - first) ≤ vfLimit s kind →
    ∃ t, exec (.funcAssign g vf kind 0 first last) s = .next t ∧ Answered t g [] ∧
      (∀ n, first ≤ n → n ≤ last → resourceOwner t kind n = vf) ∧
      (∀ n, n < first ∨ last < n → resourceOwner t kind n = resourceOwner s kind n)) ∧
  (∀ (s : State) (g : Go) (vf first last : Nat), GoReady s g false 8 [] → first ≤ last → 1 ≤ vf → vf ≤ s.pcie.numVfs →
    last < s.part.volumes → vfHolds s 3 vf < 16 →
    ∃ t, exec (.funcAssign g vf 3 0 first last) s = .next t ∧ Answered t g [] ∧
      Tab.getD t.pcie.volRanges vf [] = Tab.getD s.pcie.volRanges vf [] ++ [(first, last)]) ∧
  (∀ (s : State) (g : Go) (vf kind first last : Nat), GoReady s g false 8 [] → kind < 3 → first ≤ last → 1 ≤ vf → vf ≤ s.pcie.numVfs →
    last < resourceEnd s kind → (∀ n, first ≤ n → n ≤ last → resourceOwner s kind n = vf ∧ resourceBusy s kind n = false) →
    (kind = 2 → windowsStopped s vf = true) →
    ∃ t, exec (.withdraw g vf kind 1 first last) s = .next t ∧ Answered t g [] ∧
      (∀ n, first ≤ n → n ≤ last → resourceOwner t kind n = 0) ∧
      (∀ n, n < first ∨ last < n → resourceOwner t kind n = resourceOwner s kind n)) ∧
  (∀ (s : State) (g : Go) (vf first last v : Nat), GoReady s g false 8 [] → first ≤ last → 1 ≤ vf → vf ≤ s.pcie.numVfs →
    last < s.part.volumes → 1 ≤ vf →
    ∃ t, exec (.withdraw g vf 3 1 first last) s = .next t ∧ Answered t g [] ∧
      ((Tab.getD t.pcie.volRanges vf []).any (fun r => decide (r.1 ≤ v) && decide (v ≤ r.2)) = true ↔
        ((Tab.getD s.pcie.volRanges vf []).any (fun r => decide (r.1 ≤ v) && decide (v ≤ r.2)) = true ∧ (v < first ∨ last < v))))

/-- The pool group (R150, R177, R219, R245, R479-R482, R486, R487, Tables 11-8 and 11-10). -/
def Obligations.PoolCommandRows : Prop :=
  (∀ (s : State) (g : Go) (p : PoolParams) (found : List MemberIdent),
    GoReady s g false (16 + 2 * p.n + 2 * p.spares.length) [objPool p.pool] → s.phase = .ready → p.pool < 64 → 4 ≤ p.k → p.k ≤ 28 →
    (p.n = p.k + 2 ∨ p.s ≤ 2) → p.k + 2 ≤ p.n → p.n ≤ 1024 → p.spares.length ≤ 4 →
    (p.mirrorGiven = true → p.mirror0 < p.n ∧ p.mirror1 < p.n ∧ groupAt s p.members p.mirror0 ≠ groupAt s p.members p.mirror1) →
    poolCfg? s p.pool = none → (memberErrors s p.pool (p.members ++ p.spares) 16 [] found).all (fun e => !e.2) = true → (otherGroup s p.members).isSome = true →
    p.members.length = p.n →
    exec (.poolCreate g p found) s =
      .next (settled (mbxPark (makePool (mbxTake s g [objPool p.pool] none) p found) g.mb (.poolCreate p.pool) []))) ∧
  (∀ (s : State) (p : PoolParams) (found : List MemberIdent), ∃ c, poolCfg? (makePool s p found) p.pool = some c ∧ c.k = p.k ∧ c.n = p.n ∧
    c.s = spareCols p.k p.s p.n ∧ c.members = p.members ∧ c.spares = p.spares ∧ (p.n = p.k + 2 → c.seed = 0) ∧
    (p.n ≠ p.k + 2 → p.seedGiven = true → c.seed = p.seed) ∧ (getPool (makePool s p found) p.pool).st = .initialising) ∧
  (∀ (s : State) (g : Go) (pool : Nat) (c : PoolCfg), GoReady s g false 2 [objPool pool] → PoolReady s pool c →
    (getPool s pool).st = .stopped → volsOfPool s pool = [] →
    ∃ t, exec (.poolDelete g pool) s = .next t ∧ poolCfg? t pool = none ∧ (getPool t pool).st = .absent ∧ Runs t g (.config 0) []) ∧
  (∀ (s : State) (g : Go) (pool : Nat) (c : PoolCfg), GoReady s g false 2 [objPool pool] → PoolReady s pool c →
    (getPool s pool).st = .stopped → (getPool s pool).disowned = false →
    ∃ t, exec (.poolStart g pool) s = .next t ∧ (getPool t pool).st = .running ∧ poolCfg? t pool = some { c with running := true } ∧
      Runs t g (.config 0) []) ∧
  (∀ (s : State) (g : Go) (pool : Nat) (c : PoolCfg), GoReady s g false 2 [objPool pool] → PoolReady s pool c →
    (getPool s pool).st = .running → (∀ v ∈ volsOfPool s pool, (getVol s v).st = .stopped) →
    ∃ t, exec (.poolStop g pool) s = .next t ∧ (getPool t pool).st = .stopped ∧ poolCfg? t pool = some { c with running := false } ∧
      Runs t g (.config 0) []) ∧
  (∀ (s : State) (g : Go) (pool v : Nat) (c : PoolCfg), GoReady s g false 2 [objPool pool] → PoolReady s pool c →
    v ∈ volsOfPool s pool → (getVol s v).st = .running →
    ∃ t, exec (.poolStop g pool) s = .next t ∧ t.pools = s.pools ∧ t.cfg = s.cfg ∧ (getMbx t g.mb).lastStatus = 0x0100) ∧
  (∀ (s : State) (g : Go) (pool : Nat), GoReady s g false 2 [objPool pool] → s.phase = .ready → pool < 64 →
    ∃ t, exec (.poolStatus g pool) s = .next t ∧ t.pools = s.pools ∧ t.cfg = s.cfg ∧ Answered t g (poolStatusBytes s pool)) ∧
  (∀ (s : State) (g : Go) (pool : Nat) (c : PoolCfg) (found : List MemberIdent), GoReady s g false 3 [objPool pool] → PoolReady s pool c →
    (getPool s pool).st = .stopped → (c.spares.filter (fun m => (getMember s m).st == .replacing)).length ≤ 4 →
    ∃ t, exec (.hotspareSet g pool [] found) s = .next t ∧ Runs t g (.config 0) [] ∧
      (poolCfg t pool).spares = c.spares.filter (fun m => (getMember s m).st == .replacing)) ∧
  (∀ (s : State) (g : Go) (pool m : Nat) (c : PoolCfg) (found : List MemberIdent), GoReady s g false 6 [objPool pool] → PoolReady s pool c →
    (getPool s pool).st = .stopped → c.spares = [] → memberErrors s pool [m] 4 [] found = [(4, false)] →
    ∃ t, exec (.hotspareSet g pool [m] found) s = .next t ∧ Runs t g (.config 0) [] ∧ (poolCfg t pool).spares = [m] ∧
      (getMember t m).st = .spare) ∧
  (∀ (s : State) (g : Go) (pool us days : Nat) (c : PoolCfg), GoReady s g false 6 [objPool pool] → PoolReady s pool c → 100 ≤ us →
    us ≤ 5000 → days ≤ 365 → (getPool s pool).st = .stopped →
    ∃ t, exec (.poolDegradedConfig g pool us days) s = .next t ∧
      poolCfg? t pool = some { c with deadlineUs := us, scrubDays := days } ∧ t.pools = s.pools ∧ Runs t g (.config 0) []) ∧
  (∀ (s : State) (g : Go) (floor : Nat), GoReady s g false 1 [] → 2 ≤ floor → floor ≤ 50 →
    ∃ t, exec (.rebuildConfig g floor) s = .next t ∧ t.cfg = { s.cfg with floorPct := floor } ∧ Runs t g (.config 0) []) ∧
  (∀ (s : State) (g : Go) (pool : Nat) (buf : SegDesc) (c : PoolCfg), GoReady s g false 24 [objPool pool] → PoolReady s pool c →
    badBuf buf = false →
    ∃ t, exec (.rebuildStatus g pool buf) s = .next t ∧ t.pools = s.pools ∧ Answered t g (bytesField (rebuildStatusBytes s pool))) ∧
  (∀ (s : State) (g : Go) (pool : Nat) (c : PoolCfg), GoReady s g false 3 [objPool pool] → PoolReady s pool c →
    exec (.scrubStart g pool) s = .next (settled (mbxOk (restartScrub (mbxTake s g [objPool pool] none) pool) g.mb []))) ∧
  (∀ (s : State) (g : Go) (pool : Nat) (c : PoolCfg), GoReady s g false 3 [objPool pool] → PoolReady s pool c →
    ((getPool s pool).scrubWork = none → ∃ t, exec (.scrubStart g pool) s = .next t ∧ Answered t g [] ∧ (getPool t pool).scrubbing = true ∧
      (getPool t pool).scrubPaused = false ∧ (getPool t pool).scrubCursor = 0 ∧ (getPool t pool).skipIntent = 0) ∧
    (∃ t, exec (.scrubPause g pool) s = .next t ∧ Answered t g [] ∧ getPool t pool = { getPool s pool with scrubPaused := true }) ∧
    (∃ t, exec (.scrubResume g pool) s = .next t ∧ Answered t g [] ∧ getPool t pool = { getPool s pool with scrubPaused := false })) ∧
  (∀ (s : State) (g : Go) (pool first : Nat) (buf : SegDesc) (c : PoolCfg), GoReady s g false 24 [objPool pool] → PoolReady s pool c →
    badBuf buf = false →
    ∃ t, exec (.lstRead g pool first buf) s = .next t ∧ t.pools = s.pools ∧
      Answered t g (leBytes 4 ((getPool s pool).lst.drop first).length ++
        bytesField (((getPool s pool).lst.drop first).flatMap (lstBytes pool))))

/-- The member group (R204, R219, R242, R250, R365, R389). -/
def Obligations.MemberCommandRows : Prop :=
  (∀ (s : State) (g : Go) (p : MemberParams), GoReady s g false 255 [] → p.group ≤ 255 → (p.family = 4 ∨ p.family = 6) →
    p.nqn.length ≤ 223 → p.member < s.part.members → poolOfMember s p.member = none →
    ∃ t, exec (.memberDefine g p) s = .next t ∧ Runs t g (.config 0) [] ∧ Tab.get? t.members p.member = none ∧
      Tab.get? t.cfg.members p.member = some (if p.tcpPort = 0 then { p with tcpPort := 4420 } else p) ∧
      ∀ m, m ≠ p.member → Tab.get? t.cfg.members m = Tab.get? s.cfg.members m) ∧
  (∀ (s : State) (g : Go) (p : MemberParams) (pool : Nat), GoReady s g false 255 [] → p.group ≤ 255 → (p.family = 4 ∨ p.family = 6) →
    p.nqn.length ≤ 223 → p.member < s.part.members → poolOfMember s p.member = some pool →
    ∃ t, exec (.memberDefine g p) s = .next t ∧ t.cfg = s.cfg ∧ t.members = s.members ∧ (getMbx t g.mb).lastStatus = 0x0100) ∧
  (∀ (s : State) (g : Go) (m : Nat), GoReady s g false 2 [] → m < s.part.members →
    ∃ t, exec (.memberStatus g m) s = .next t ∧ t.members = s.members ∧ Answered t g (leBytes 1 (memberCode s m) ++
      leBytes 3 (groupOf s m) ++ leBytes 4 (getMember s m).timeouts ++ leBytes 4 (getMember s m).deadlines ++
      leBytes 4 (getMember s m).repairs ++ leBytes 8 (getMember s m).declared.toNat)) ∧
  (∀ (s : State) (g : Go) (m pool : Nat) (c : PoolCfg), GoReady s g false 2 [] → defined s m = true → poolOfMember s m = some pool →
    poolCfg? s pool = some c → c.reserved = none → (getPool s pool).st = .running →
    exec (.memberFail g m) s = .next (settled (mbxOk (declareFailed (mbxTake s g [] none) m) g.mb []))) ∧
  (∀ (s : State) (g : Go) (pool ix m : Nat) (c : PoolCfg) (found : MemberIdent), GoReady s g false 6 [objPool pool] → PoolReady s pool c →
    defined s m = true → (getPool s pool).st = .running → isFailedIx (getPool s pool).failList ix = true →
    (inPool s m = false ∨ barred s pool m = true) →
    fitMember [found] m = true → c.slots ≤ slotsOf found.capacity → (c.peridot = true → namedHome s pool ix = false) →
    (c.peridot = false → (getPool s pool).copy = none) → c.partner = none →
    exec (.memberReplace g pool ix m found) s = .next (settled (mbxStore (applyChange
      (takeMember [found] .replacing (mbxTake s g [objPool pool] none) m) (.replace pool ix m)) g.mb [])))

/-- The volume group (R480, R482, R488-R490, R579). -/
def Obligations.VolumeCommandRows : Prop :=
  (∀ (s : State) (g : Go) (p : VolParams) (c : PoolCfg), GoReady s g false 32 [objVol p.vol, objPool p.pool] → s.phase = .ready →
    p.pool < 64 → p.home < 8 → tileUp s p.home = true → p.attr.toNat ≤ 7 →
    (p.attr.getLsbD 0 = true → sealsOn s p.home < 2048) → p.policy ≤ 3 → 1 ≤ p.extents →
    p.extents ≤ 2 ^ 20 → badBuf p.buf = false → p.vol < s.part.volumes → volCfg? s p.vol = none → poolCfg? s p.pool = some c →
    c.reserved = none → c.partner = none → (getPool s p.pool).st = .running →
    badExtents s p.pool p.vol p.extents p.buf.segLen.toNat p.list = false →
    ∃ t, exec (.volumeCreate g p) s = .next t ∧ Runs t g (.config 0) (leBytes 1 p.home) ∧ getVol t p.vol = { home := p.home } ∧
      volCfg? t p.vol = some { pool := p.pool, home := p.home, attr := p.attr, policy := p.policy, extents := p.list }) ∧
  (∀ (s : State) (g : Go) (p : VolParams) (c : PoolCfg) (h : Nat), GoReady s g false 32 [objVol p.vol, objPool p.pool] → s.phase = .ready →
    p.pool < 64 → p.home = 0xFF → chooseHome s (p.attr.getLsbD 0) = some h → p.attr.toNat ≤ 7 →
    (p.attr.getLsbD 0 = true → sealsOn s h < 2048) → p.policy ≤ 3 → 1 ≤ p.extents →
    p.extents ≤ 2 ^ 20 → badBuf p.buf = false → p.vol < s.part.volumes → volCfg? s p.vol = none → poolCfg? s p.pool = some c →
    c.reserved = none → c.partner = none → (getPool s p.pool).st = .running →
    badExtents s p.pool p.vol p.extents p.buf.segLen.toNat p.list = false →
    ∃ t, exec (.volumeCreate g p) s = .next t ∧ Runs t g (.config 0) (leBytes 1 h) ∧ getVol t p.vol = { home := h } ∧
      volCfg? t p.vol = some { pool := p.pool, home := h, attr := p.attr, policy := p.policy, extents := p.list }) ∧
  (∀ (s : State) (g : Go) (vol : Nat) (c : VolCfg), GoReady s g false 2 [objVol vol] → VolReady s g vol c → (getVol s vol).st = .stopped →
    ∃ t, exec (.volumeDelete g vol) s = .next t ∧ Runs t g (.config 0) [] ∧ volCfg? t vol = none ∧
      (∀ e ∈ c.extents, (getPool t c.pool).zeroing.contains e = true)) ∧
  (∀ (s : State) (g : Go) (vol : Nat) (c : VolCfg), GoReady s g false 2 [objVol vol] → s.phase = .ready → volExists s g.mb vol = true →
    volCfg? s vol = some c → (getVol s vol).st = .stopped → keyless s vol = false → (getPool s c.pool).st = .running →
    ∃ t, exec (.volumeStart g vol) s = .next t ∧ Runs t g (.config 0) [] ∧ (getVol t vol).st = .running ∧
      volCfg? t vol = some { c with running := true }) ∧
  (∀ (s : State) (g : Go) (vol : Nat), GoReady s g false 2 [objVol vol] → volExists s g.mb vol = true → keyless s vol = true →
    ∃ t, exec (.volumeStart g vol) s = .next t ∧ t.vols = s.vols ∧ t.cfg = s.cfg ∧ (getMbx t g.mb).lastStatus = 0x0101) ∧
  (∀ (s : State) (g : Go) (vol : Nat), GoReady s g false 2 [objVol vol, objCancel g.mb] → s.phase = .ready →
    volExists s g.mb vol = true → ((getVol s vol).st = .running ∨ (getVol s vol).st = .stopping) →
    ∃ t, exec (.volumeStop g vol) s = .next t ∧ Runs t g (.volumeStop vol) [] ∧ (getVol t vol).st = .stopping ∧
      (getVol t vol).draining = true ∧ t.cfg = s.cfg) ∧
  (∀ (s : State) (g : Go) (vol : Nat), GoReady s g false 2 [objVol vol, objCancel g.mb] → s.phase = .ready →
    volExists s g.mb vol = true → (getVol s vol).st = .stopped →
    ∃ t, exec (.volumeStop g vol) s = .next t ∧ Answered t g [] ∧ t.vols = s.vols) ∧
  (∀ (s : State) (g : Go) (vol : Nat), GoReady s g false 2 [objVol vol, objCancel g.mb] → s.phase = .ready →
    volExists s g.mb vol = true → (getVol s vol).st = .offline →
    ∃ t, exec (.volumeStop g vol) s = .next t ∧ Runs t g (.config 0) [] ∧ (getVol t vol).st = .stopped ∧ (volCfg t vol).running = false) ∧
  (∀ (s : State) (mb vol : Nat), serving s = true → (getMbx s mb).running = some (.volumeStop vol) →
    ((getVol s vol).st = .offline ∨ (acceptedOf s vol = false ∧ dirtyVol s vol = false ∧ anyIntent s (· == vol) = false ∧
      s.destages.any (fun d => d.vol == vol) = false)) →
    ∃ t, exec (.volumeStopComplete mb) s = .next t ∧ (getVol t vol).st = .stopped ∧ (getVol t vol).draining = false ∧
      (volCfg t vol).running = false ∧ (getMbx t mb).running = some (.volumeStopped vol)) ∧
  (∀ (s : State) (g : Go) (vol mask home policy h' p' : Nat) (attr a' : BitVec 8) (c : VolCfg), GoReady s g false 6 [objVol vol] →
    VolReady s g vol c → (getVol s vol).st = .stopped → mask ≤ 7 → (mask % 2 = 1 → home < 8 ∧ tileUp s home = true) →
    (mask / 2 % 2 = 1 → attr.toNat ≤ 7) → (mask / 4 % 2 = 1 → policy ≤ 3) → h' = (if mask % 2 = 1 then home else c.home) →
    a' = (if mask / 2 % 2 = 1 then attr else c.attr) → p' = (if mask / 4 % 2 = 1 then policy else c.policy) →
    (a'.getLsbD 0 = true → (h' = c.home ∧ c.attr.getLsbD 0 = true) ∨ sealsOn s h' < 2048) →
    ∃ t, exec (.volumeSet g vol mask home attr policy) s = .next t ∧ Runs t g (.config 0) [] ∧
      volCfg? t vol = some { c with home := h', attr := a', policy := p' }) ∧
  (∀ (s : State) (g : Go) (vol : Nat) (c : VolCfg), GoReady s g true 2 [objVol vol] → s.phase = .ready → volExists s g.mb vol = true →
    volCfg? s vol = some c →
    ∃ t, exec (.volumeStatus g vol) s = .next t ∧ t.vols = s.vols ∧ Answered t g (leBytes 1 (volStateCode (getVol s vol).st) ++
      leBytes 1 (getVol s vol).home ++ leBytes 1 c.attr.toNat ++ leBytes 1 c.policy ++ leBytes 2 c.pool ++
      leBytes 2 (if c.key.isSome then 1 else 0) ++ leBytes 4 c.extents.length)) ∧
  (∀ (s : State) (g : Go) (vol : Nat), GoReady s g true 2 [objVol vol] → s.phase = .ready → vol < s.part.volumes →
    fnMayVol s g.mb vol = true → volCfg? s vol = none →
    ∃ t, exec (.volumeStatus g vol) s = .next t ∧ t.vols = s.vols ∧ Answered t g (leBytes 12 0)) ∧
  (∀ (s : State) (g : Go) (vol n : Nat) (buf : SegDesc) (l : List Nat) (c : VolCfg), GoReady s g false 24 [objVol vol] →
    VolReady s g vol c → (getVol s vol).st = .stopped → 1 ≤ n → n ≤ 2 ^ 20 → badBuf buf = false →
    badExtents s c.pool vol n buf.segLen.toNat l = false →
    ∃ t, exec (.volumeSetExtents g vol n buf l) s = .next t ∧ Runs t g (.config 0) [] ∧ volCfg? t vol = some { c with extents := l } ∧
      ∀ e ∈ c.extents, e ∉ l → (getPool t c.pool).zeroing.contains e = true)

/-- The journal group (R177, R201). -/
def Obligations.JournalCommandRows : Prop :=
  (∀ (s : State) (g : Go) (tile : Nat) (buf : SegDesc), GoReady s g false 24 [] → badBuf buf = false → tile < s.part.tiles →
    ∃ t, exec (.journalStatus g 0 tile buf) s = .next t ∧ t.tiles = s.tiles ∧ Answered t g (leBytes 4 40)) ∧
  (∀ (s : State) (g : Go) (pool : Nat) (buf : SegDesc) (c : PoolCfg), GoReady s g false 24 [objPool pool] → PoolReady s pool c →
    badBuf buf = false →
    ∃ t, exec (.journalStatus g 1 pool buf) s = .next t ∧ t.pools = s.pools ∧ Answered t g (leBytes 4 (8 * s.part.tiles + 32))) ∧
  (∀ (s : State) (g : Go) (pool i j : Nat) (c : PoolCfg), GoReady s g false 6 [objPool pool] → PoolReady s pool c →
    (getPool s pool).st = .stopped → i < c.n → j < c.n → groupAt s c.members i ≠ groupAt s c.members j → c.partner = none →
    ∃ t, exec (.journalMirrorSet g pool i j) s = .next t ∧ Runs t g (.config 0) [] ∧
      poolCfg? t pool = some { c with mirror0 := i, mirror1 := j }) ∧
  (∀ (s : State) (g : Go) (pool i j : Nat) (c : PoolCfg), GoReady s g false 6 [objPool pool] → PoolReady s pool c →
    (getPool s pool).st = .stopped → i < c.n → j < c.n → groupAt s c.members i = groupAt s c.members j →
    ∃ t, exec (.journalMirrorSet g pool i j) s = .next t ∧ t.cfg = s.cfg ∧ t.pools = s.pools ∧ (getMbx t g.mb).lastStatus = 0x0002) ∧
  (∀ (s : State) (g : Go) (vol : Nat), GoReady s g true 4 [objVol vol, objCancel g.mb] → s.phase = .ready →
    volExists s g.mb vol = true →
    ∃ t, exec (.journalDrain g 0 vol) s = .next t ∧ Runs t g (.drain 0 vol) [] ∧ (getVol t vol).draining = true ∧ t.tiles = s.tiles) ∧
  (∀ (s : State) (g : Go) (pool : Nat) (c : PoolCfg), GoReady s g false 4 [objPool pool, objCancel g.mb] → PoolReady s pool c →
    ∃ t, exec (.journalDrain g 1 pool) s = .next t ∧ Runs t g (.drain 1 pool) [] ∧ t.tiles = s.tiles ∧
      ∀ v ∈ volsOfPool s pool, (getVol t v).draining = true) ∧
  (∀ (s : State) (mb scope ident : Nat), serving s = true → (getMbx s mb).running = some (.drain scope ident) →
    anyIntent s (fun v => (drainVols s scope ident).contains v) = false →
    exec (.journalDrainComplete mb) s = .next (settled (mbxOk (endDrain s (drainVols s scope ident)) mb []))) ∧
  (∀ (s : State) (mb vol : Nat), serving s = true → (getMbx s mb).running = some (.drain 0 vol) → (getMbx s mb).orphan = false →
    anyIntent s (fun v => [vol].contains v) = false →
    ∃ t, exec (.journalDrainComplete mb) s = .next t ∧ (getMbx t mb).busy = false ∧ (getMbx t mb).lastStatus = 0 ∧
      (getVol t vol).draining = decide ((getVol s vol).st = .stopping))

/-- Self-tests (R491-R493). -/
def Obligations.SelftestRows : Prop :=
  (∀ (s : State) (g : Go) (pool : Nat), GoReady s g false 4 [] → testActive (getTest s 1 0) = false →
    ∃ t, exec (.shortSelftest g 1 pool) s = .next t ∧ Answered t g [] ∧ getTest t 1 0 = newTest s) ∧
  (∀ (s : State) (g : Go) (pool : Nat), GoReady s g false 4 [] → testActive (getTest s 1 0) = true →
    ∃ t, exec (.shortSelftest g 1 pool) s = .next t ∧ t.tests = s.tests ∧ (getMbx t g.mb).lastStatus = 0x0102) ∧
  (∀ (s : State) (g : Go) (pool : Nat) (c : PoolCfg), GoReady s g false 4 [objPool pool] → PoolReady s pool c →
    testActive (getTest s 2 pool) = false → extendedTests s < 4 →
    ∃ t, exec (.extendedSelftest g 2 pool) s = .next t ∧ Answered t g [] ∧ getTest t 2 pool = newTest s) ∧
  (∀ (s : State) (pool : Nat), serving s = true → (getTest s 1 0).st = 1 →
    ∃ t, exec (.selftestComplete 1 pool [] [] []) s = .next t ∧ (getTest t 1 0).st = 3 ∧ (getTest t 1 0).progress = 100 ∧
      (getTest t 1 0).failures = 0 ∧ t.tiles = s.tiles) ∧
  (∀ (s : State) (pool : Nat), serving s = true → (getTest s 2 pool).st = 1 →
    (poolCfg s pool).poolRows ≤ (getTest s 2 pool).row →
    ∃ t, exec (.selftestComplete 2 pool [] [] []) s = .next t ∧ (getTest t 2 pool).progress = 100 ∧
      (getTest t 2 pool).st = if (getTest s 2 pool).inconsistent = 0 then 3 else 4) ∧
  (∀ (s : State) (g : Go) (pool : Nat), GoReady s g false 4 [] →
    ∃ t, exec (.selftestStatus g 1 pool) s = .next t ∧ t.tests = s.tests ∧ Answered t g (testBytes s 1 (getTest s 1 0))) ∧
  (∀ (s : State) (g : Go) (pool : Nat) (c : PoolCfg), GoReady s g false 4 [objPool pool] → PoolReady s pool c →
    ∃ t, exec (.selftestStatus g 2 pool) s = .next t ∧ t.tests = s.tests ∧ Answered t g (testBytes s 2 (getTest s 2 pool))) ∧
  (∀ (s : State) (g : Go) (pool : Nat), GoReady s g false 4 [] → testActive (getTest s 1 0) = true →
    ∃ t, exec (.selftestAbort g 1 pool) s = .next t ∧ Answered t g [] ∧ (getTest t 1 0).st = 5) ∧
  (∀ (s : State) (g : Go) (pool : Nat) (c : PoolCfg), GoReady s g false 4 [objPool pool] → PoolReady s pool c →
    exec (.selftestAbort g 2 pool) s = .next (settled (mbxOk (abortTest (mbxTake s g [objPool pool] none) 2 pool) g.mb []))) ∧
  (∀ (s : State) (g : Go) (pool : Nat) (c : PoolCfg), GoReady s g false 4 [objPool pool] → PoolReady s pool c →
    testActive (getTest s 2 pool) = true → (getTest s 2 pool).fetch = none →
    ∃ t, exec (.selftestAbort g 2 pool) s = .next t ∧ Answered t g [] ∧ (getTest t 2 pool).st = 5 ∧ t.pools = s.pools)

/-- The event log's commands (R499, R519, R523). -/
def Obligations.JetCommandRows : Prop :=
  (∀ (s : State) (g : Go), GoReady s g false 0 [] →
    ∃ t, exec (.jetStatus g) s = .next t ∧ t.jet = s.jet ∧ Answered t g (leBytes 2 s.jet.pinned.length ++
      leBytes 2 s.jet.circ.length ++ leBytes 4 s.jet.total ++ leBytes 8 s.jet.lastClear.toNat)) ∧
  (∀ (s : State) (g : Go), GoReady s g false 0 [] →
    ∃ t v, exec (.jetToken g) s = .next t ∧ t.jet = { s.jet with token := some v } ∧ Answered t g (leBytes 4 v.toNat)) ∧
  (∀ (s : State) (v : W32), running s = true → s.jet.token = some v →
    ∃ t, exec .jetTokenExpiry s = .next t ∧ t.jet = { s.jet with token := none }) ∧
  (∀ (s : State) (g : Go) (v : W32), GoReady s g false 4 [] → s.jet.token = some v →
    ∃ t, exec (.jetClear g v) s = .next t ∧ t.jet.recording = false ∧ t.jet.token = none ∧ t.jet.pinned = [] ∧ t.jet.circ = [] ∧
      Runs t g .jetClear (leBytes 2 s.jet.pinned.length ++ leBytes 2 s.jet.circ.length ++ leBytes 4 s.jet.overwrites)) ∧
  (∀ (s : State) (g : Go) (v : W32), GoReady s g false 4 [] → s.jet.token ≠ some v →
    ∃ t, exec (.jetClear g v) s = .next t ∧ t.jet = s.jet ∧ (getMbx t g.mb).lastStatus = 0x0101) ∧
  (∀ (s : State) (mb : Nat), running s = true → (getMbx s mb).running = some .jetClear → (getMbx s mb).orphan = false →
    s.jet.pinned = [] → s.jet.buffer = [] → s.jet.overflow = [] →
    ∃ t r, exec (.jetClearDone mb) s = .next t ∧ t.jet.recording = true ∧ t.jet.lastClear = s.moon.epoch ∧ t.jet.pinned = [r] ∧
      r.code = 0x8007 ∧ r.data = (getMbx s mb).data ∧ (getMbx t mb).busy = false ∧ (getMbx t mb).lastStatus = 0)

/-- Firmware images (R494-R496, Table 11-11). -/
def Obligations.FirmwareRows : Prop :=
  (∀ (s : State) (g : Go), GoReady s g false 0 [] →
    ∃ t, exec (.fwInfo g) s = .next t ∧ t.flash = s.flash ∧ Answered t g (leBytes 1 s.flash.active ++ leBytes 1 s.flash.pending ++
      leBytes 2 s.sec.fusedSvn ++ leBytes 4 (slotVersion s.flash 0) ++ leBytes 4 (slotSvn s.flash 0) ++ leBytes 4 (slotVersion s.flash 1) ++
      leBytes 4 (slotSvn s.flash 1))) ∧
  (∀ (s : State) (g : Go) (off len : Nat) (buf : SegDesc) (data : List Byte), GoReady s g false 24 [] → off % 4096 = 0 → len % 4096 = 0 →
    off < 32 * 2 ^ 20 → len ≤ 4 * 2 ^ 20 → off + len ≤ 32 * 2 ^ 20 → badBuf buf = false → len ≤ buf.segLen.toNat → s.flash.active = 0 →
    ∃ t, exec (.fwDownload g off len buf data) s = .next t ∧ Answered t g [] ∧ t.flash.slotA = s.flash.slotA ∧
      t.flash.factoryA = s.flash.factoryA ∧ t.flash.slotB = Mem.paste s.flash.slotB off len (Mem.ofList (data.take len)) ∧
      t.flash.pending = if s.flash.pending = 2 then 0 else s.flash.pending) ∧
  (∀ (s : State) (g : Go), GoReady s g false 1 [] → imageSlotGood s (1 - s.flash.active) = true →
    ∃ t, exec (.fwVerifyPending g 0) s = .next t ∧ Answered t g [] ∧ t.flash = { s.flash with pending := 1 - s.flash.active + 1 }) ∧
  (∀ (s : State) (g : Go), GoReady s g false 1 [] → imageSlotGood s (1 - s.flash.active) = false →
    ∃ t, exec (.fwVerifyPending g 0) s = .next t ∧ t.flash = s.flash ∧ (getMbx t g.mb).lastStatus = 0x0101) ∧
  (∀ (s : State) (g : Go), GoReady s g false 1 [] →
    ∃ t, exec (.fwClearPending g 1) s = .next t ∧ Answered t g [] ∧ t.flash = { s.flash with pending := 0 }) ∧
  (∀ (s : State) (g : Go), GoReady s g false 1 [] →
    ∃ t, exec (.fwConfirm g 2) s = .next t ∧ Answered t g [] ∧ t.flash = s.flash ∧
      t.sec = { s.sec with fusedSvn := max s.sec.fusedSvn s.sec.svn })

/-- Keys and measurements (R494, R497, R498). -/
def Obligations.KeyRows : Prop :=
  (∀ (s : State) (g : Go) (buf : SegDesc), GoReady s g false 16 [] → badBuf buf = false →
    ∃ t, exec (.secPubkey g buf) s = .next t ∧ t.cfg = s.cfg ∧ Answered t g (bytesField Config.pubKeyChain)) ∧
  (∀ (s : State) (g : Go) (buf : SegDesc), GoReady s g false 16 [] → badBuf buf = false →
    ∃ t, exec (.secMeasure g buf) s = .next t ∧ t.sec = s.sec ∧ Answered t g (leBytes 4 (48 * s.sec.measured.length))) ∧
  (∀ (s : State) (g : Go) (hp w : List Byte), GoReady s g false 136 [] → s.cfg.vols.any (fun e => e.2.key.isSome) = false →
    ∃ t, exec (.kekLoad g hp w) s = .next t ∧
      match Config.kekUnwrap hp w with
      | some k => Runs t g (.config 0) [] ∧ t.cfg = { s.cfg with kek := some k }
      | none => (getMbx t g.mb).lastStatus = 0x0002 ∧ t.cfg = s.cfg) ∧
  (∀ (s : State) (g : Go) (hp w : List Byte), GoReady s g false 136 [] → s.cfg.vols.any (fun e => e.2.key.isSome) = true →
    ∃ t, exec (.kekLoad g hp w) s = .next t ∧ t.cfg = s.cfg ∧ (getMbx t g.mb).lastStatus = 0x0102) ∧
  (∀ (s : State) (g : Go) (vol : Nat) (w : List Byte) (c : VolCfg), GoReady s g false 80 [objVol vol] → VolReady s g vol c →
    (getVol s vol).st = .stopped → c.attr.getLsbD 2 = true →
    ∃ t, exec (.keyLoad g vol w) s = .next t ∧
      match unwrapKey s w with
      | some k => Runs t g (.config 0) [] ∧ volCfg? t vol = some { c with key := some k, wrapped := w }
      | none => (getMbx t g.mb).lastStatus = 0x0002 ∧ t.cfg = s.cfg) ∧
  (∀ (s : State) (g : Go) (vol : Nat) (c : VolCfg), GoReady s g false 2 [objVol vol] → VolReady s g vol c → (getVol s vol).st = .stopped →
    ∃ t, exec (.keyDestroy g vol) s = .next t ∧ Runs t g (.config 0) [] ∧ volCfg? t vol = some { c with key := none, wrapped := [] })

/-- Power states, D3cold and thresholds (R348, R429, R500, R534, R544-R546). -/
def Obligations.PowerRows : Prop :=
  (∀ (s : State) (g : Go) (st : Nat), GoReady s g false 1 [objCancel g.mb] → st ≤ 2 → s.hk.psPending = none → psOf st = s.hk.ps →
    ∃ t, exec (.powerStateSet g st) s = .next t ∧ Answered t g [] ∧ t.hk = s.hk) ∧
  (∀ (s : State) (g : Go) (st : Nat), GoReady s g false 1 [objCancel g.mb] → 1 ≤ st → st ≤ 2 → s.hk.psPending = none → psOf st ≠ s.hk.ps →
    ∃ t, exec (.powerStateSet g st) s = .next t ∧ Runs t g .power [] ∧ t.hk = { s.hk with psPending := some (psOf st, g.mb) }) ∧
  (∀ (s : State) (g : Go), GoReady s g false 1 [objCancel g.mb] → s.hk.psPending = none → s.hk.ps ≠ .ps0 →
    ∃ t, exec (.powerStateSet g 0) s = .next t ∧ Answered t g [] ∧ t.hk.ps = .ps0) ∧
  (∀ (s : State) (g : Go), GoReady s g false 0 [] →
    ∃ t, exec (.powerStatus g) s = .next t ∧ t.hk = s.hk ∧ Answered t g (leBytes 1 (psCode s.hk.ps) ++
      leBytes 1 s.hk.psPending.isSome.toNat ++ leBytes 1 s.cfg.d3coldEn.toNat)) ∧
  (∀ (s : State) (g : Go) (e : Nat), GoReady s g false 1 [] → e ≤ 1 →
    ∃ t, exec (.powerD3cold g e) s = .next t ∧ Runs t g (.config 0) [] ∧ t.cfg = { s.cfg with d3coldEn := decide (e = 1) }) ∧
  (∀ (s : State) (g : Go) (w th cr ms : Nat), GoReady s g false 6 [] → 60 ≤ w → w ≤ 105 → w < th → th ≤ 110 → th < cr → cr ≤ 115 →
    ms ≤ 1000 →
    ∃ t, exec (.thermalConfig g w th cr ms) s = .next t ∧ Runs t g (.config 0) [] ∧ t.hk = s.hk ∧
      t.cfg = { s.cfg with warn := w, throttle := th, critical := cr, graceMs := ms }) ∧
  (∀ (s : State) (g : Go) (w th cr ms : Nat), GoReady s g false 6 [] → (w < 60 ∨ 105 < w) →
    ∃ t, exec (.thermalConfig g w th cr ms) s = .next t ∧ t.cfg = s.cfg ∧ (getMbx t g.mb).lastStatus = 0x0002 ∧
      (getMbx t g.mb).resp.detail = 0)

/-! ### Parity and layout (chapter 03) -/

/-- The arithmetic of R131: multiplication is linear, commutative and associative with unit 1, multiplication by g is the shift
reduced by 0x11D, every non-zero element has its inverse, g has order 255, and the values the rule gives. -/
def Obligations.GaloisField : Prop :=
  (∀ a b c : Byte, gfMul a (b ^^^ c) = gfMul a b ^^^ gfMul a c) ∧
  (∀ a b : Byte, gfMul a b = gfMul b a) ∧
  (∀ a b c : Byte, gfMul (gfMul a b) c = gfMul a (gfMul b c)) ∧
  (∀ a : Byte, gfMul a 1 = a) ∧
  (∀ a : Byte, gfMul a 2 = if a.getLsbD 7 then (a <<< 1) ^^^ 0x1D#8 else a <<< 1) ∧
  (∀ a : Byte, a ≠ 0 → gfMul a (gfInv a) = 1) ∧
  (∀ i j : Nat, gfMul (gfPow i) (gfPow j) = gfPow (i + j)) ∧
  (∀ i : Nat, gfPow i = 1 ↔ i % 255 = 0) ∧
  gfPow 8 = 0x1D ∧ gfPow 12 = 0xCD ∧ gfPow 25 = 0x03 ∧ gfPow 50 = 0x05 ∧ gfPow 51 = 0x0A ∧ gfInv 2 = 0x8E

/-- Each byte of P and of Q is the sum R132 gives over the bytes of the data strips at the same offset, the coefficient of a
strip being g raised to its data strip index. -/
def Obligations.ParityBytes : Prop :=
  ∀ (ds : List Mem) (o : Nat), ds.all Mem.wf = true →
    Mem.get (parityP ds) o = (ds.map (fun d => Mem.get d o)).foldl (· ^^^ ·) 0 ∧
    Mem.get (parityQ ds) o =
      ((List.range ds.length).map (fun i => gfMul (gfPow i) (Mem.get (ds.getD i []) o))).foldl (· ^^^ ·) 0

/-- Recovery by Table 3-3: from a parity-consistent row with at most two erased strips, whatever stands in their place, every
byte of every strip comes back (R132, R134). -/
def Obligations.RecoverErased : Prop :=
  ∀ (ds : List Mem) (got : List (Nat × Mem)) (erased : List Nat),
    1 ≤ ds.length → ds.length ≤ 28 → ds.all Mem.wf = true → got.all (fun e => e.2.wf) = true →
    erased.length ≤ 2 → erased.Pairwise (· < ·) → (∀ j ∈ erased, j < ds.length + 2) →
    (∀ j < ds.length + 2, j ∉ erased → stripOf got j = (ds ++ [parityP ds, parityQ ds]).getD j []) →
    ∀ j < ds.length + 2, ∀ o, Mem.get (stripOf (recover ds.length got erased) j) o =
      Mem.get ((ds ++ [parityP ds, parityQ ds]).getD j []) o

/-- Where the strips of a Peridot row lie (R136), and that any w consecutive rows put P once and Q once on each member. -/
def Obligations.PeridotPlaces : Prop :=
  ∀ c : PoolCfg, c.n = c.w →
    (∀ v, poolIndex c v c.k = c.w - 1 - v % c.w) ∧
    (∀ v, poolIndex c v (c.k + 1) = (c.w - 1 - v % c.w + 1) % c.w) ∧
    (∀ v i, i < c.k → poolIndex c v i = (c.w - 1 - v % c.w + 2 + i) % c.w) ∧
    (∀ v m, m < c.w → ((List.range c.w).filter (fun x => poolIndex c (v + x) c.k == m)).length = 1 ∧
      ((List.range c.w).filter (fun x => poolIndex c (v + x) (c.k + 1) == m)).length = 1)

/-! ### Frames: what each command leaves unchanged -/

/-- What the mailbox commands that act at once leave unchanged, by the parts of the state (R478, R484; Table 11-8). -/
def Obligations.FrameMailbox : Prop :=
  (∀ s t g, exec (.devInfo g) s = .next t → Frame [.nextId, .mbx] s t) ∧
  (∀ s t g vf kind op first last, exec (.funcAssign g vf kind op first last) s = .next t → Frame [.nextId, .pcie, .mbx] s t) ∧
  (∀ s t g vf kind op first last, exec (.withdraw g vf kind op first last) s = .next t → Frame [.nextId, .pcie, .mbx] s t) ∧
  (∀ s t g p, exec (.portConfig g p) s = .next t → Frame [.nextId, .cfg, .mbx] s t) ∧
  (∀ s t g port, exec (.portStart g port) s = .next t → Frame [.nextId, .cfg, .links, .partners, .mbx] s t) ∧
  (∀ s t g port, exec (.portStatus g port) s = .next t → Frame [.nextId, .mbx] s t) ∧
  (∀ s t g port buf, exec (.portStats g port buf) s = .next t → Frame [.freeIx, .nextId, .pcie, .mbx] s t) ∧
  (∀ s t g port pattern seconds, exec (.portTest g port pattern seconds) s = .next t → Frame [.nextId, .links, .mbx] s t) ∧
  (∀ s t g udpPort credit lossMs, exec (.sbtConfig g udpPort credit lossMs) s = .next t → Frame [.nextId, .cfg, .mbx] s t) ∧
  (∀ s t g index tenantId ranges, exec (.sbtTenantSet g index tenantId ranges) s = .next t → Frame [.nextId, .cfg, .mbx] s t) ∧
  (∀ s t g index tenantId ranges, exec (.sbtTenantRemove g index tenantId ranges) s = .next t → Frame [.nextId, .cfg, .mbx] s t) ∧
  (∀ s t g tile buf, exec (.sbtConnList g tile buf) s = .next t → Frame [.nextId, .pcie, .mbx] s t) ∧
  (∀ s t g scope target ident grace duration, exec (.sbtThrottle g scope target ident grace duration) s = .next t →
    Frame [.nextId, .sbt, .mbx, .jet] s t) ∧
  (∀ s t g scope ident buf, exec (.sbtStats g scope ident buf) s = .next t → Frame [.nextId, .pcie, .mbx] s t) ∧
  (∀ s t g pool, exec (.poolStart g pool) s = .next t → Frame [.nextId, .cfg, .pools, .mbx] s t) ∧
  (∀ s t g pool, exec (.poolStop g pool) s = .next t → Frame [.nextId, .cfg, .pools, .mbx] s t) ∧
  (∀ s t g pool, exec (.poolStatus g pool) s = .next t → Frame [.nextId, .mbx] s t) ∧
  (∀ s t g pool deadlineUs scrubDays, exec (.poolDegradedConfig g pool deadlineUs scrubDays) s = .next t →
    Frame [.nextId, .cfg, .mbx] s t) ∧
  (∀ s t g floorPct, exec (.rebuildConfig g floorPct) s = .next t → Frame [.nextId, .cfg, .mbx] s t) ∧
  (∀ s t g pool buf, exec (.rebuildStatus g pool buf) s = .next t → Frame [.nextId, .pcie, .mbx] s t) ∧
  (∀ s t g pool, exec (.scrubStart g pool) s = .next t →
    Frame [.nextId, .pins, .moon, .tiles, .mcmds, .fetches, .destages, .budget, .pools, .links, .partners, .pcie, .mbx,
      .jade, .jet] s t) ∧
  (∀ s t g pool, exec (.scrubPause g pool) s = .next t → Frame [.nextId, .pools, .mbx] s t) ∧
  (∀ s t g pool, exec (.scrubResume g pool) s = .next t → Frame [.nextId, .pools, .mbx] s t) ∧
  (∀ s t g pool first buf, exec (.lstRead g pool first buf) s = .next t → Frame [.nextId, .pcie, .mbx] s t) ∧
  (∀ s t g vol, exec (.volumeStart g vol) s = .next t → Frame [.nextId, .cfg, .vols, .mbx] s t) ∧
  (∀ s t g vol, exec (.volumeStop g vol) s = .next t → Frame [.nextId, .cfg, .vols, .mbx] s t) ∧
  (∀ s t g vol, exec (.volumeStatus g vol) s = .next t → Frame [.nextId, .mbx] s t) ∧
  (∀ s t g p, exec (.memberDefine g p) s = .next t → Frame [.nextId, .cfg, .members, .mbx] s t) ∧
  (∀ s t g member, exec (.memberStatus g member) s = .next t → Frame [.nextId, .mbx] s t) ∧
  (∀ s t g port link autoImport identity, exec (.partnerConfig g port link autoImport identity) s = .next t →
    Frame [.nextId, .cfg, .mbx] s t) ∧
  (∀ s t g link, exec (.partnerStatus g link) s = .next t → Frame [.nextId, .mbx] s t) ∧
  (∀ s t g pool hds, exec (.poolImport g pool hds) s = .next t → Frame [.nextId, .pools, .mbx] s t) ∧
  (∀ s t g pool, exec (.poolRelease g pool) s = .next t → Frame [.nextId, .partners, .mbx] s t) ∧
  (∀ s t g p, exec (.epochConfig g p) s = .next t → Frame [.nextId, .moon, .cfg, .mbx] s t) ∧
  (∀ s t g, exec (.epochTrain g) s = .next t → Frame [.nextId, .moon, .mbx] s t) ∧
  (∀ s t g action es, exec (.epochSeal g action es) s = .next t → Frame [.nextId, .moon, .vols, .mbx] s t) ∧
  (∀ s t g action es, exec (.sealFailRequest g action es) s = .next t →
    Frame [.nextId, .pins, .moon, .tiles, .vols, .links, .partners, .pcie, .mbx, .jade, .jet] s t) ∧
  (∀ s t g, exec (.epochSealStatus g) s = .next t → Frame [.nextId, .mbx] s t) ∧
  (∀ s t g vol buf, exec (.epochCmapRead g vol buf) s = .next t → Frame [.nextId, .pcie, .mbx] s t) ∧
  (∀ s t g, exec (.epochStats g) s = .next t → Frame [.nextId, .mbx] s t) ∧
  (∀ s t g scope ident buf, exec (.journalStatus g scope ident buf) s = .next t → Frame [.nextId, .pcie, .mbx] s t) ∧
  (∀ s t g scope ident, exec (.journalDrain g scope ident) s = .next t → Frame [.nextId, .vols, .mbx] s t) ∧
  (∀ s t g, exec (.cacheDisable g) s = .next t → Frame [.nextId, .mbx, .cache] s t) ∧
  (∀ s t g tile mask zGib delayUs, exec (.cacheConfig g tile mask zGib delayUs) s = .next t →
    Frame [.nextId, .tiles, .cfg, .mbx] s t) ∧
  (∀ s t g vol, exec (.cacheRatGet g vol) s = .next t → Frame [.nextId, .mbx] s t) ∧
  (∀ s t g tile buf, exec (.cacheStats g tile buf) s = .next t → Frame [.nextId, .pcie, .mbx] s t) ∧
  (∀ s t g kind pool, exec (.shortSelftest g kind pool) s = .next t → Frame [.nextId, .mbx, .tests] s t) ∧
  (∀ s t g kind pool, exec (.extendedSelftest g kind pool) s = .next t → Frame [.nextId, .mbx, .tests] s t) ∧
  (∀ s t g kind pool, exec (.selftestStatus g kind pool) s = .next t → Frame [.nextId, .mbx] s t) ∧
  (∀ s t g kind pool, exec (.selftestAbort g kind pool) s = .next t →
    Frame [.nextId, .pins, .moon, .tiles, .mcmds, .fetches, .destages, .budget, .pools, .links, .partners, .pcie, .mbx,
      .jade, .jet, .tests] s t) ∧
  (∀ s t g, exec (.jetStatus g) s = .next t → Frame [.nextId, .mbx] s t) ∧
  (∀ s t g, exec (.jetToken g) s = .next t → Frame [.freeIx, .nextId, .mbx, .jet] s t) ∧
  (∀ s t g token, exec (.jetClear g token) s = .next t → Frame [.nextId, .mbx, .jet] s t) ∧
  (∀ s t g, exec (.fwInfo g) s = .next t → Frame [.nextId, .mbx] s t) ∧
  (∀ s t g offset length buf data, exec (.fwDownload g offset length buf data) s = .next t → Frame [.nextId, .flash, .mbx] s t) ∧
  (∀ s t g action, exec (.fwVerifyPending g action) s = .next t → Frame [.nextId, .flash, .mbx] s t) ∧
  (∀ s t g action, exec (.fwClearPending g action) s = .next t → Frame [.nextId, .flash, .mbx] s t) ∧
  (∀ s t g action, exec (.fwConfirm g action) s = .next t → Frame [.nextId, .mbx, .sec] s t) ∧
  (∀ s t g buf, exec (.secPubkey g buf) s = .next t → Frame [.nextId, .pcie, .mbx] s t) ∧
  (∀ s t g hostPub wrapped, exec (.kekLoad g hostPub wrapped) s = .next t → Frame [.nextId, .cfg, .mbx] s t) ∧
  (∀ s t g buf, exec (.secMeasure g buf) s = .next t → Frame [.nextId, .pcie, .mbx] s t) ∧
  (∀ s t g st, exec (.powerStateSet g st) s = .next t → Frame [.nextId, .mbx, .jet, .hk] s t) ∧
  (∀ s t g, exec (.powerStatus g) s = .next t → Frame [.nextId, .mbx] s t) ∧
  (∀ s t g enable, exec (.powerD3cold g enable) s = .next t → Frame [.nextId, .cfg, .mbx] s t) ∧
  (∀ s t g warn throttle critical graceMs, exec (.thermalConfig g warn throttle critical graceMs) s = .next t →
    Frame [.nextId, .cfg, .mbx] s t)

/-- What the rows of Moonstone, the mesh, JTAG, Jade, Jet, housekeeping, power and the tier's own timers leave unchanged. -/
def Obligations.FrameDevice : Prop :=
  (∀ s t id, exec (.homeTileAcceptance id) s = .next t → Frame [.tiles, .cmds, .cache, .jet] s t) ∧
  (∀ s t src dst, exec (.routeSwitch src dst) s = .next t → Frame [.nextId, .mesh, .cmds] s t) ∧
  (∀ s t tile, exec (.meshHeartbeat tile) s = .next t → Frame [.tiles] s t) ∧
  (∀ s t tile seq, exec (.recordCommit tile seq) s = .next t →
    Frame [.nextId, .pins, .moon, .tiles, .cmds, .mcmds, .fetches, .budget, .pools, .vols, .links, .partners, .pcie, .cqs,
      .live, .jade, .jet] s t) ∧
  (∀ s t id, exec (.ackHoldRelease id) s = .next t → Frame [.tiles, .cmds, .vols] s t) ∧
  (∀ s t tile, exec (.relocation tile) s = .next t → Frame [.tiles, .cmds, .destages, .maints, .pools, .partners] s t) ∧
  (∀ s t pool tile, exec (.mirrorRecopyComplete pool tile) s = .next t → Frame [.tiles, .pools, .partners, .jet] s t) ∧
  (∀ s t x b, exec (.invalidFrame x b) s = .next t → Frame [.clock, .moon] s t) ∧
  (∀ s t x b, exec (.announce x b) s = .next t → Frame [.clock, .moon, .vols] s t) ∧
  (∀ s t x b, exec (.poll x b) s = .next t → Frame [.clock, .pins, .moon, .tiles, .vols, .links, .partners, .pcie, .jade, .jet] s t) ∧
  (∀ s t x b, exec (.done x b) s = .next t → Frame [.clock, .pins, .moon, .tiles, .vols, .links, .partners, .pcie, .jade, .jet] s t) ∧
  (∀ s t x b, exec (.failed x b) s = .next t →
    Frame [.clock, .pins, .moon, .tiles, .vols, .links, .partners, .pcie, .jade, .jet] s t) ∧
  (∀ s t x b, exec (.holdover x b) s = .next t → Frame [.clock, .moon, .jet] s t) ∧
  (∀ s t f, exec (.trainCount f) s = .next t → Frame [.clock, .pins, .moon, .links, .partners, .pcie, .mbx, .jade, .jet] s t) ∧
  (∀ s t x y b, exec (.trainResult x y b) s = .next t → Frame [.clock, .pins, .moon, .links, .partners, .pcie, .jade, .jet] s t) ∧
  (∀ s t wide upper, exec (.epochNowRead wide upper) s = .next t → Frame [.moon] s t) ∧
  (∀ s t pool, exec (.cursorMetadataWrite pool) s = .next t → Frame [.nextId, .mcmds, .budget, .pools] s t) ∧
  (∀ s t tile entry, exec (.evictionComplete tile entry) s = .next t →
    Frame [.nextId, .pins, .moon, .tiles, .mcmds, .fetches, .destages, .maints, .budget, .pools, .vols, .links, .partners,
      .pcie, .live, .mbx, .cache, .jade, .jet] s t) ∧
  (∀ s t tile, exec (.evmodeSwitch tile) s = .next t → Frame [.tiles] s t) ∧
  (∀ s t v, exec (.enDirectClear v) s = .next t → Frame [.tiles, .cache, .jet] s t) ∧
  (∀ s t v, exec (.enSet v) s = .next t → Frame [.tiles, .cache, .jet] s t) ∧
  (∀ s t v, exec (.lfsrSeedLoad v) s = .next t → Frame [.tiles, .cache, .jet] s t) ∧
  (∀ s t v, exec (.evmodeChange v) s = .next t → Frame [.tiles, .cache, .jet] s t) ∧
  (∀ s t mb v, exec (.mailboxCancel mb v) s = .next t → Frame [.cfg, .vols, .mbx, .hk] s t) ∧
  (∀ s t mb v, exec (.overrun mb v) s = .next t → Frame [.cfg, .vols, .mbx, .hk] s t) ∧
  (∀ s t mb, exec (.configStored mb) s = .next t → Frame [.flash, .mbx] s t) ∧
  (∀ s t mb, exec (.volumeStopComplete mb) s = .next t → Frame [.cfg, .vols, .mbx] s t) ∧
  (∀ s t mb, exec (.journalDrainComplete mb) s = .next t → Frame [.vols, .mbx] s t) ∧
  (∀ s t mb, exec (.jetClearDone mb) s = .next t → Frame [.mbx, .jet] s t) ∧
  (∀ s t v, exec (.faultAck v) s = .next t → Frame [.pcie, .jade, .jet] s t) ∧
  (∀ s t kind ident, exec (.correlationWindowClose kind ident) s = .next t → Frame [.jade] s t) ∧
  (∀ s t v, exec (.aliveKick v) s = .next t → Frame [.jade] s t) ∧
  (∀ s t word, exec (.jetDataRead word) s = .next t → Frame [.jet] s t) ∧
  (∀ s t v, exec (.jetCursorWrite v) s = .next t → Frame [.jet] s t) ∧
  (∀ s t tile value, exec (.channelConversion tile value) s = .next t → Frame [.hk] s t) ∧
  (∀ s t tdi, exec (.extest tdi) s = .next t → Frame [.freeIx, .jtag] s t) ∧
  (∀ s t tdi, exec (.samplePreload tdi) s = .next t → Frame [.freeIx, .jtag] s t) ∧
  (∀ s t v, exec (.frzSelect v) s = .next t → Frame [.jtag] s t) ∧
  (∀ s t tdi, exec (.frzShift tdi) s = .next t → Frame [.freeIx, .jtag] s t) ∧
  (∀ s t v, exec (.frzMemaddr v) s = .next t → Frame [.jtag] s t) ∧
  (∀ s t value, exec (.auxTempPoll value) s = .next t → Frame [.hk] s t) ∧
  (∀ s t command, exec (.smbusBlockRead command) s = .next t → Frame [] s t) ∧
  (∀ s t c, exec (.refclkReturn c) s = .next t → Frame [.pins] s t) ∧
  (∀ s t a src dst payload, exec (.echoRequest a src dst payload) s = .next t → Frame [.links] s t) ∧
  (∀ s t a m, exec (.neighbourDiscovery a m) s = .next t → Frame [.tiles, .links] s t) ∧
  (∀ s t mb counts, exec (.portTestComplete mb counts) s = .next t → Frame [.links, .mbx] s t) ∧
  (∀ s t pool port, exec (.selftestCommandIssue pool port) s = .next t →
    Frame [.nextId, .pins, .moon, .tiles, .mcmds, .fetches, .destages, .budget, .pools, .links, .partners, .pcie, .jade,
      .jet, .tests] s t) ∧
  (∀ s t, exec .replayComplete s = .next t →
    Frame [.nextId, .phase, .pins, .moon, .tiles, .mcmds, .fetches, .destages, .budget, .pools, .vols, .links, .partners,
      .pcie, .jade, .jet] s t) ∧
  (∀ s t, exec .holdoverSend s = .next t → Frame [.moon] s t) ∧
  (∀ s t, exec .rephase s = .next t → Frame [.moon, .jet] s t) ∧
  (∀ s t, exec .trainTimeout s = .next t → Frame [.pins, .moon, .links, .partners, .pcie, .mbx, .jade, .jet] s t) ∧
  (∀ s t, exec .sealMapsStored s = .next t → Frame [.moon] s t) ∧
  (∀ s t, exec .sealTimeout s = .next t → Frame [.pins, .moon, .tiles, .vols, .links, .partners, .pcie, .jade, .jet] s t) ∧
  (∀ s t, exec .sealLocalEnd s = .next t → Frame [.pins, .moon, .tiles, .vols, .links, .partners, .pcie, .jade, .jet] s t) ∧
  (∀ s t, exec .powerStateEntry s = .next t → Frame [.mbx, .jet, .hk] s t) ∧
  (∀ s t, exec .jetTokenExpiry s = .next t → Frame [.jet] s t) ∧
  (∀ s t, exec .aliveToggle s = .next t → Frame [.pins] s t) ∧
  (∀ s t, exec .jetSuppressionWindow s = .next t → Frame [.jet] s t) ∧
  (∀ s t, exec .idcode s = .next t → Frame [.jtag] s t) ∧
  (∀ s t, exec .clamp s = .next t → Frame [.jtag] s t) ∧
  (∀ s t, exec .highz s = .next t → Frame [.jtag] s t) ∧
  (∀ s t, exec .frzStatus s = .next t → Frame [.jtag] s t) ∧
  (∀ s t, exec .frzMemdata s = .next t → Frame [.freeIx, .jtag] s t) ∧
  (∀ s t, exec .frzInfo s = .next t → Frame [.jtag] s t) ∧
  (∀ s t, exec .ps2Wake s = .next t → Frame [.hk] s t) ∧
  (∀ s t, exec .ps2Idle s = .next t → Frame [.hk] s t) ∧
  (∀ s t, exec .testLogicReset s = .next t → Frame [.jtag] s t)

/-- What the rows of transport, ports, partner links, the endpoint and the work rings that move no data leave unchanged. -/
def Obligations.FrameTransport : Prop :=
  (∀ s t h b, exec (.connect h b) s = .next t → Frame [.freeIx, .sbt, .links, .jet] s t) ∧
  (∀ s t h, exec (.ack h) s = .next t → Frame [.sbt, .links, .jet] s t) ∧
  (∀ s t port cause, exec (.sbtPacketDiscard port cause) s = .next t → Frame [.sbt] s t) ∧
  (∀ s t h isClose5, exec (.unknownConnectionPacket h isClose5) s = .next t → Frame [.sbt, .links, .jet] s t) ∧
  (∀ s t conn, exec (.delayedAck conn) s = .next t → Frame [.sbt] s t) ∧
  (∀ s t conn seq, exec (.retransmitTimeout conn seq) s = .next t → Frame [.sbt] s t) ∧
  (∀ s t conn, exec (.creditProbe conn) s = .next t → Frame [.sbt] s t) ∧
  (∀ s t addr udp tenantConn seq, exec (.refusalRetentionExpiry addr udp tenantConn seq) s = .next t → Frame [.sbt] s t) ∧
  (∀ s t tile index, exec (.indexReuse tile index) s = .next t → Frame [.sbt] s t) ∧
  (∀ s t id offset length, exec (.xferRdy id offset length) s = .next t → Frame [.cmds, .sbt] s t) ∧
  (∀ s t port, exec (.linkUp port) s = .next t → Frame [.links, .jet] s t) ∧
  (∀ s t port classes quanta, exec (.pfcFrame port classes quanta) s = .next t → Frame [.links] s t) ∧
  (∀ s t tile addr, exec (.neighbourResolve tile addr) s = .next t → Frame [] s t) ∧
  (∀ s t member, exec (.keepAlive member) s = .next t → Frame [.members] s t) ∧
  (∀ s t member tile admin cause, exec (.memberQueueBreak member tile admin cause) s = .next t →
    Frame [.mcmds, .budget, .members, .jet] s t) ∧
  (∀ s t member tile connected, exec (.memberReconnectAttempt member tile connected) s = .next t →
    Frame [.mcmds, .budget, .members, .jet] s t) ∧
  (∀ s t m, exec (.memberReissue m) s = .next t → Frame [.mcmds, .budget] s t) ∧
  (∀ s t pool, exec (.poolInitComplete pool) s = .next t → Frame [.pools] s t) ∧
  (∀ s t pool extent, exec (.extentZeroingComplete pool extent) s = .next t → Frame [.pools] s t) ∧
  (∀ s t link, exec (.partnerResendTimer link) s = .next t → Frame [] s t) ∧
  (∀ s t link, exec (.helloSend link) s = .next t → Frame [] s t) ∧
  (∀ s t pool completed owner, exec (.leaseRenewal pool completed owner) s = .next t →
    Frame [.nextId, .mcmds, .budget, .pools] s t) ∧
  (∀ s t pool hds, exec (.autoImport pool hds) s = .next t → Frame [.pools] s t) ∧
  (∀ s t rate width, exec (.pcieLinkUp rate width) s = .next t → Frame [.pcie, .sqs, .cqs, .live, .jet] s t) ∧
  (∀ s t fn d, exec (.dStateEntry fn d) s = .next t → Frame [.pcie] s t) ∧
  (∀ s t fn, exec (.d0Return fn) s = .next t → Frame [.pcie, .sqs, .cqs, .live, .jet] s t) ∧
  (∀ s t tag, exec (.tagQuarantineEnd tag) s = .next t → Frame [.pcie, .cqs, .live, .jet] s t) ∧
  (∀ s t t1 data, exec (.windowWrite t1 data) s = .next t → Frame [.tiles, .pcie, .jet] s t) ∧
  (∀ s t t1 len, exec (.windowRead t1 len) s = .next t → Frame [.pcie, .jet] s t) ∧
  (∀ s t fn window v, exec (.winCommit fn window v) s = .next t → Frame [.pcie] s t) ∧
  (∀ s t fn window offset v, exec (.windowDirectWrite fn window offset v) s = .next t → Frame [.pcie, .jet] s t) ∧
  (∀ s t fn sq, exec (.sqDb fn sq) s = .next t → Frame [.pcie, .sqs] s t) ∧
  (∀ s t id, exec (.pqCompute id) s = .next t → Frame [.freeIx, .tiles, .pcie, .cqs, .live, .jet] s t) ∧
  (∀ s t id, exec (.reconstruct id) s = .next t → Frame [.freeIx, .tiles, .pcie, .cqs, .live, .jet] s t) ∧
  (∀ s t id, exec (.copy id) s = .next t → Frame [.freeIx, .tiles, .pcie, .cqs, .live, .jet] s t) ∧
  (∀ s t id, exec (.skip id) s = .next t → Frame [.pcie, .cqs, .live, .jet] s t) ∧
  (∀ s t fn cq v, exec (.cqHeadDb fn cq v) s = .next t → Frame [.pcie, .sqs, .cqs] s t) ∧
  (∀ s t cq, exec (.cqAggTimer cq) s = .next t → Frame [.pcie, .cqs] s t) ∧
  (∀ s t fn sq v, exec (.sqDisable fn sq v) s = .next t → Frame [.pcie, .sqs, .cqs, .live, .jet] s t) ∧
  (∀ s t sq, exec (.sqDrainComplete sq) s = .next t → Frame [.pcie, .sqs] s t) ∧
  (∀ s t fn sq v, exec (.sqEnable fn sq v) s = .next t → Frame [.pcie, .sqs, .cqs, .live, .jet] s t) ∧
  (∀ s t fn cq v, exec (.cqEnable fn cq v) s = .next t → Frame [.cqs] s t) ∧
  (∀ s t fn cq v, exec (.cqDisable fn cq v) s = .next t → Frame [.cqs] s t)

/-- What the rows that move data, take tiles or members out of service, or start and stop the device leave unchanged. -/
def Obligations.FrameData : Prop :=
  (∀ s t failed, exec (.deviceStart failed) s = .next t →
    Frame [.phase, .pins, .moon, .tiles, .flash, .links, .partners, .pcie, .jade, .jet, .hk, .sec] s t) ∧
  (∀ s t c, exec (.refclkLoss c) s = .next t →
    Frame [.pins, .moon, .mcmds, .budget, .members, .links, .partners, .pcie, .jade, .jet] s t) ∧
  (∀ s t headers, exec (.firmwareUp headers) s = .next t →
    Frame [.nextId, .phase, .pins, .moon, .tiles, .mcmds, .fetches, .destages, .replays, .budget, .cfg, .flash, .pools,
      .vols, .members, .links, .partners, .pcie, .jade, .jet, .hk] s t) ∧
  (∀ s t tile, exec (.heartbeatTimeout tile) s = .next t →
    Frame [.freeIx, .nextId, .pins, .moon, .tiles, .mesh, .cmds, .mcmds, .fetches, .destages, .replays, .maints, .budget,
      .pools, .vols, .members, .sbt, .links, .partners, .pcie, .sqs, .cqs, .live, .jade, .jet, .tests] s t) ∧
  (∀ s t id, exec (.rangeLockGrant id) s = .next t →
    Frame [.freeIx, .nextId, .pins, .moon, .tiles, .cmds, .mcmds, .fetches, .budget, .pools, .vols, .links, .partners, .pcie,
      .cache, .jade, .jet] s t) ∧
  (∀ s t tile seq, exec (.partnerConfirmTimeout tile seq) s = .next t →
    Frame [.nextId, .pins, .moon, .tiles, .cmds, .mcmds, .fetches, .budget, .pools, .vols, .links, .partners, .pcie, .cqs,
      .live, .jade, .jet] s t) ∧
  (∀ s t id part, exec (.journalSpaceWaitEnd id part) s = .next t →
    Frame [.nextId, .pins, .moon, .tiles, .cmds, .mcmds, .fetches, .budget, .pools, .vols, .links, .partners, .pcie, .jade,
      .jet] s t) ∧
  (∀ s t tile, exec (.mramCommitFailure tile) s = .next t →
    Frame [.pins, .moon, .tiles, .cmds, .vols, .links, .partners, .pcie, .jade, .jet] s t) ∧
  (∀ s t vol row, exec (.destageStart vol row) s = .next t →
    Frame [.nextId, .pins, .moon, .tiles, .mcmds, .fetches, .destages, .budget, .pools, .links, .partners, .pcie, .jade,
      .jet] s t) ∧
  (∀ s t d, exec (.destageComplete d) s = .next t →
    Frame [.nextId, .pins, .moon, .tiles, .cmds, .mcmds, .fetches, .destages, .maints, .budget, .pools, .vols, .links,
      .partners, .pcie, .live, .mbx, .cache, .jade, .jet] s t) ∧
  (∀ s t m, exec (.readDeadline m) s = .next t →
    Frame [.freeIx, .nextId, .pins, .moon, .tiles, .cmds, .mcmds, .fetches, .destages, .maints, .budget, .pools, .vols,
      .members, .links, .partners, .pcie, .cache, .jade, .jet, .tests] s t) ∧
  (∀ s t x b, exec (.edge x b) s = .next t → Frame [.clock, .pins, .moon, .links, .partners, .pcie, .jade, .jet] s t) ∧
  (∀ s t m st data, exec (.memberCommandCompletion m st data) s = .next t →
    Frame [.freeIx, .nextId, .pins, .moon, .tiles, .cmds, .mcmds, .fetches, .destages, .replays, .maints, .budget, .cfg,
      .pools, .vols, .members, .links, .partners, .pcie, .live, .mbx, .cache, .jade, .jet, .tests] s t) ∧
  (∀ s t m, exec (.memberCommandTimeout m) s = .next t →
    Frame [.freeIx, .nextId, .pins, .moon, .tiles, .cmds, .mcmds, .fetches, .destages, .replays, .maints, .budget, .cfg,
      .pools, .vols, .members, .links, .partners, .pcie, .live, .mbx, .cache, .jade, .jet, .tests] s t) ∧
  (∀ s t member, exec (.memberReachTimeout member) s = .next t →
    Frame [.freeIx, .nextId, .pins, .moon, .tiles, .cmds, .mcmds, .fetches, .destages, .replays, .maints, .budget, .cfg,
      .pools, .vols, .members, .links, .partners, .pcie, .live, .mbx, .cache, .jade, .jet, .tests] s t) ∧
  (∀ s t member warning, exec (.smartLogPoll member warning) s = .next t →
    Frame [.freeIx, .nextId, .pins, .moon, .tiles, .cmds, .mcmds, .fetches, .destages, .replays, .maints, .budget, .cfg,
      .pools, .vols, .members, .links, .partners, .pcie, .live, .mbx, .cache, .jade, .jet, .tests] s t) ∧
  (∀ s t pool, exec (.rebuildCommandIssue pool) s = .next t →
    Frame [.nextId, .pins, .moon, .tiles, .mcmds, .fetches, .destages, .budget, .pools, .links, .partners, .pcie, .jade,
      .jet] s t) ∧
  (∀ s t pool, exec (.rebuildRowComplete pool) s = .next t →
    Frame [.nextId, .pins, .moon, .tiles, .mcmds, .fetches, .destages, .maints, .budget, .cfg, .flash, .pools, .vols,
      .members, .links, .partners, .pcie, .live, .mbx, .cache, .jade, .jet] s t) ∧
  (∀ s t pool row, exec (.rowInterlockGrant pool row) s = .next t →
    Frame [.nextId, .pins, .moon, .tiles, .mcmds, .fetches, .destages, .budget, .pools, .links, .partners, .pcie, .jade,
      .jet] s t) ∧
  (∀ s t pool, exec (.copybackRowComplete pool) s = .next t →
    Frame [.nextId, .pins, .moon, .tiles, .mcmds, .fetches, .destages, .budget, .cfg, .flash, .pools, .members, .links,
      .partners, .pcie, .jade, .jet] s t) ∧
  (∀ s t pool row, exec (.scrubRow pool row) s = .next t →
    Frame [.nextId, .pins, .moon, .tiles, .mcmds, .fetches, .destages, .maints, .budget, .pools, .vols, .links, .partners,
      .pcie, .live, .mbx, .cache, .jade, .jet] s t) ∧
  (∀ s t tile line, exec (.lineFillComplete tile line) s = .next t →
    Frame [.freeIx, .nextId, .pins, .moon, .tiles, .cmds, .mcmds, .fetches, .destages, .maints, .budget, .pools, .vols,
      .links, .partners, .pcie, .live, .mbx, .cache, .jade, .jet] s t) ∧
  (∀ s t id part, exec (.lineAllocation id part) s = .next t →
    Frame [.freeIx, .nextId, .pins, .moon, .tiles, .cmds, .mcmds, .fetches, .budget, .pools, .vols, .links, .partners, .pcie,
      .cache, .jade, .jet] s t) ∧
  (∀ s t tile, exec (.directorySweep tile) s = .next t →
    Frame [.nextId, .pins, .moon, .tiles, .mcmds, .fetches, .destages, .budget, .pools, .links, .partners, .pcie, .jade,
      .jet] s t) ∧
  (∀ s t tile line cause word, exec (.lineRetirement tile line cause word) s = .next t →
    Frame [.nextId, .pins, .moon, .tiles, .mcmds, .budget, .links, .partners, .pcie, .cache, .jade, .jet] s t) ∧
  (∀ s t src a, exec (.zeroLine src a) s = .next t →
    Frame [.nextId, .pins, .moon, .tiles, .cmds, .mcmds, .fetches, .destages, .maints, .budget, .pools, .vols, .links,
      .partners, .pcie, .live, .mbx, .cache, .jade, .jet] s t) ∧
  (∀ s t src a, exec (.invalKey src a) s = .next t →
    Frame [.nextId, .pins, .moon, .tiles, .cmds, .mcmds, .fetches, .destages, .maints, .budget, .pools, .vols, .links,
      .partners, .pcie, .live, .mbx, .cache, .jade, .jet] s t) ∧
  (∀ s t src a, exec (.invalRange src a) s = .next t →
    Frame [.nextId, .pins, .moon, .tiles, .cmds, .mcmds, .fetches, .destages, .maints, .budget, .pools, .vols, .links,
      .partners, .pcie, .live, .mbx, .cache, .jade, .jet] s t) ∧
  (∀ s t src a, exec (.cleanKey src a) s = .next t →
    Frame [.nextId, .pins, .moon, .tiles, .cmds, .mcmds, .fetches, .destages, .maints, .budget, .pools, .vols, .links,
      .partners, .pcie, .live, .mbx, .cache, .jade, .jet] s t) ∧
  (∀ s t src a, exec (.cleanRange src a) s = .next t →
    Frame [.nextId, .pins, .moon, .tiles, .cmds, .mcmds, .fetches, .destages, .maints, .budget, .pools, .vols, .links,
      .partners, .pcie, .live, .mbx, .cache, .jade, .jet] s t) ∧
  (∀ s t src a, exec (.lock src a) s = .next t →
    Frame [.nextId, .pins, .moon, .tiles, .cmds, .mcmds, .fetches, .destages, .maints, .budget, .pools, .vols, .links,
      .partners, .pcie, .live, .mbx, .cache, .jade, .jet] s t) ∧
  (∀ s t src a, exec (.unlock src a) s = .next t →
    Frame [.nextId, .pins, .moon, .tiles, .cmds, .mcmds, .fetches, .destages, .maints, .budget, .pools, .vols, .links,
      .partners, .pcie, .live, .mbx, .cache, .jade, .jet] s t) ∧
  (∀ s t src a, exec (.invalAll src a) s = .next t →
    Frame [.nextId, .pins, .moon, .tiles, .cmds, .mcmds, .fetches, .destages, .maints, .budget, .pools, .vols, .links,
      .partners, .pcie, .live, .mbx, .cache, .jade, .jet] s t) ∧
  (∀ s t h reason, exec (.close h reason) s = .next t →
    Frame [.nextId, .pins, .moon, .tiles, .cmds, .mcmds, .fetches, .destages, .maints, .budget, .pools, .vols, .sbt, .links,
      .partners, .pcie, .live, .mbx, .cache, .jade, .jet] s t) ∧
  (∀ s t h c, exec (.read h c) s = .next t →
    Frame [.nextId, .pins, .moon, .tiles, .cmds, .mcmds, .fetches, .destages, .maints, .budget, .pools, .vols, .sbt, .links,
      .partners, .pcie, .live, .mbx, .cache, .jade, .jet] s t) ∧
  (∀ s t h c, exec (.write h c) s = .next t →
    Frame [.nextId, .pins, .moon, .tiles, .cmds, .mcmds, .fetches, .destages, .maints, .budget, .pools, .vols, .sbt, .links,
      .partners, .pcie, .live, .mbx, .cache, .jade, .jet] s t) ∧
  (∀ s t h c, exec (.flush h c) s = .next t →
    Frame [.nextId, .pins, .moon, .tiles, .cmds, .mcmds, .fetches, .destages, .maints, .budget, .pools, .vols, .sbt, .links,
      .partners, .pcie, .live, .mbx, .cache, .jade, .jet] s t) ∧
  (∀ s t h c, exec (.writeZeroes h c) s = .next t →
    Frame [.nextId, .pins, .moon, .tiles, .cmds, .mcmds, .fetches, .destages, .maints, .budget, .pools, .vols, .sbt, .links,
      .partners, .pcie, .live, .mbx, .cache, .jade, .jet] s t) ∧
  (∀ s t h c, exec (.deallocate h c) s = .next t →
    Frame [.nextId, .pins, .moon, .tiles, .cmds, .mcmds, .fetches, .destages, .maints, .budget, .pools, .vols, .sbt, .links,
      .partners, .pcie, .live, .mbx, .cache, .jade, .jet] s t) ∧
  (∀ s t h c, exec (.verify h c) s = .next t →
    Frame [.nextId, .pins, .moon, .tiles, .cmds, .mcmds, .fetches, .destages, .maints, .budget, .pools, .vols, .sbt, .links,
      .partners, .pcie, .live, .mbx, .cache, .jade, .jet] s t) ∧
  (∀ s t h tag offset ddgst payload, exec (.dataOut h tag offset ddgst payload) s = .next t →
    Frame [.nextId, .pins, .moon, .tiles, .cmds, .mcmds, .fetches, .destages, .maints, .budget, .pools, .vols, .sbt, .links,
      .partners, .pcie, .live, .mbx, .cache, .jade, .jet] s t) ∧
  (∀ s t h tag, exec (.abort h tag) s = .next t →
    Frame [.nextId, .pins, .moon, .tiles, .cmds, .mcmds, .fetches, .destages, .maints, .budget, .pools, .vols, .sbt, .links,
      .partners, .pcie, .live, .mbx, .cache, .jade, .jet] s t) ∧
  (∀ s t h kind page, exec (.errlogReq h kind page) s = .next t →
    Frame [.nextId, .pins, .moon, .tiles, .cmds, .mcmds, .fetches, .destages, .maints, .budget, .pools, .vols, .sbt, .links,
      .partners, .pcie, .live, .mbx, .cache, .jade, .jet] s t) ∧
  (∀ s t h disposition freezeId, exec (.resume h disposition freezeId) s = .next t →
    Frame [.nextId, .pins, .moon, .tiles, .cmds, .mcmds, .fetches, .destages, .maints, .budget, .pools, .vols, .sbt, .links,
      .partners, .pcie, .live, .mbx, .cache, .jade, .jet] s t) ∧
  (∀ s t conn, exec (.connectionLoss conn) s = .next t →
    Frame [.nextId, .pins, .moon, .tiles, .cmds, .mcmds, .fetches, .destages, .maints, .budget, .pools, .vols, .sbt, .links,
      .partners, .pcie, .live, .mbx, .cache, .jade, .jet] s t) ∧
  (∀ s t id, exec (.commandCompletion id) s = .next t →
    Frame [.nextId, .pins, .moon, .tiles, .cmds, .mcmds, .fetches, .destages, .maints, .budget, .pools, .vols, .sbt, .links,
      .partners, .pcie, .cqs, .live, .mbx, .cache, .jade, .jet] s t) ∧
  (∀ s t port, exec (.linkDown port) s = .next t →
    Frame [.pins, .moon, .mcmds, .budget, .members, .links, .partners, .pcie, .jade, .jet] s t) ∧
  (∀ s t port codewords, exec (.fecErrorSecond port codewords) s = .next t →
    Frame [.pins, .moon, .links, .partners, .pcie, .jade, .jet] s t) ∧
  (∀ s t port occupancyKib, exec (.pfcRepeat port occupancyKib) s = .next t →
    Frame [.pins, .moon, .links, .partners, .pcie, .jade, .jet] s t) ∧
  (∀ s t member tile admin step, exec (.memberQueueSetup member tile admin step) s = .next t →
    Frame [.pins, .moon, .mcmds, .budget, .members, .links, .partners, .pcie, .jade, .jet] s t) ∧
  (∀ s t h, exec (.hello h) s = .next t →
    Frame [.nextId, .pins, .moon, .mcmds, .budget, .pools, .links, .partners, .pcie, .jade, .jet] s t) ∧
  (∀ s t h, exec (.nack h) s = .next t →
    Frame [.nextId, .pins, .moon, .mcmds, .budget, .pools, .links, .partners, .pcie, .jade, .jet] s t) ∧
  (∀ s t h pool d, exec (.poolOffer h pool d) s = .next t →
    Frame [.nextId, .pins, .moon, .mcmds, .budget, .cfg, .flash, .pools, .vols, .members, .links, .partners, .pcie, .jade,
      .jet] s t) ∧
  (∀ s t h pool result, exec (.poolReply h pool result) s = .next t →
    Frame [.nextId, .pins, .moon, .tiles, .mcmds, .fetches, .destages, .budget, .cfg, .pools, .vols, .members, .links,
      .partners, .pcie, .mbx, .jade, .jet] s t) ∧
  (∀ s t h pool, exec (.poolWithdraw h pool) s = .next t →
    Frame [.nextId, .pins, .moon, .tiles, .mcmds, .budget, .cfg, .flash, .pools, .vols, .members, .links, .partners, .pcie,
      .jade, .jet] s t) ∧
  (∀ s t h seq fragOffset originTile last r, exec (.record h seq fragOffset originTile last r) s = .next t →
    Frame [.nextId, .pins, .moon, .tiles, .mcmds, .budget, .pools, .links, .partners, .pcie, .jade, .jet] s t) ∧
  (∀ s t h seq originTile result, exec (.confirm h seq originTile result) s = .next t →
    Frame [.nextId, .pins, .moon, .tiles, .cmds, .mcmds, .fetches, .budget, .pools, .vols, .links, .partners, .pcie, .cqs,
      .live, .jade, .jet] s t) ∧
  (∀ s t h pool hds, exec (.release h pool hds) s = .next t →
    Frame [.nextId, .pins, .moon, .tiles, .mcmds, .fetches, .destages, .replays, .budget, .cfg, .flash, .pools, .vols,
      .links, .partners, .pcie, .jade, .jet] s t) ∧
  (∀ s t h pool result, exec (.releaseAck h pool result) s = .next t →
    Frame [.nextId, .pins, .moon, .tiles, .mcmds, .fetches, .budget, .cfg, .pools, .vols, .members, .links, .partners, .pcie,
      .mbx, .jade, .jet] s t) ∧
  (∀ s t link, exec (.partnerLinkTimeout link) s = .next t → Frame [.pins, .moon, .links, .partners, .pcie, .jade, .jet] s t) ∧
  (∀ s t pool, exec (.leaseLoss pool) s = .next t →
    Frame [.nextId, .pins, .moon, .tiles, .cmds, .mcmds, .fetches, .destages, .budget, .pools, .vols, .links, .partners,
      .pcie, .jade, .jet] s t) ∧
  (∀ s t pool hds, exec (.importCheck pool hds) s = .next t →
    Frame [.nextId, .pins, .moon, .tiles, .mcmds, .fetches, .destages, .replays, .budget, .cfg, .flash, .pools, .vols,
      .links, .partners, .pcie, .mbx, .jade, .jet] s t) ∧
  (∀ s t rate width, exec (.pcieLinkDown rate width) s = .next t →
    Frame [.pins, .moon, .links, .partners, .pcie, .jade, .jet] s t) ∧
  (∀ s t enable numVfs, exec (.vfEnable enable numVfs) s = .next t →
    Frame [.tiles, .cmds, .mcmds, .fetches, .cfg, .flash, .pools, .vols, .partners, .pcie, .sqs, .cqs, .live, .mbx, .hk] s t) ∧
  (∀ s t fn, exec (.functionLevelReset fn) s = .next t →
    Frame [.tiles, .cmds, .mcmds, .fetches, .cfg, .flash, .pools, .vols, .partners, .pcie, .sqs, .cqs, .live, .mbx, .hk] s t) ∧
  (∀ s t c, exec (.hostCompletion c) s = .next t →
    Frame [.freeIx, .nextId, .pins, .moon, .tiles, .cmds, .mcmds, .fetches, .budget, .pools, .vols, .links, .partners, .pcie,
      .sqs, .cqs, .live, .jade, .jet] s t) ∧
  (∀ s t tag, exec (.completionTimeout tag) s = .next t →
    Frame [.pins, .moon, .tiles, .cmds, .mcmds, .fetches, .pools, .vols, .links, .partners, .pcie, .sqs, .cqs, .live, .jade,
      .jet] s t) ∧
  (∀ s t t1, exec (.translationCompletion t1) s = .next t →
    Frame [.pins, .moon, .tiles, .cmds, .mcmds, .fetches, .pools, .vols, .links, .partners, .pcie, .sqs, .cqs, .live, .jade,
      .jet] s t) ∧
  (∀ s t fn itag page pages, exec (.invalidationRequest fn itag page pages) s = .next t →
    Frame [.pins, .moon, .tiles, .cmds, .mcmds, .fetches, .pools, .vols, .links, .partners, .pcie, .sqs, .cqs, .live, .jade,
      .jet] s t) ∧
  (∀ s t tile, exec (.sqDispatch tile) s = .next t →
    Frame [.nextId, .pins, .moon, .tiles, .links, .partners, .pcie, .sqs, .cqs, .live, .jade, .jet] s t) ∧
  (∀ s t id, exec (.ringRead id) s = .next t → Frame [.nextId, .cmds, .live] s t) ∧
  (∀ s t id, exec (.ringWrite id) s = .next t → Frame [.nextId, .cmds, .live] s t) ∧
  (∀ s t id, exec (.ringFlush id) s = .next t → Frame [.nextId, .cmds, .live] s t) ∧
  (∀ s t id, exec (.ringWriteZeroes id) s = .next t → Frame [.nextId, .cmds, .live] s t) ∧
  (∀ s t id, exec (.ringDeallocate id) s = .next t → Frame [.nextId, .cmds, .live] s t) ∧
  (∀ s t g port, exec (.portStop g port) s = .next t →
    Frame [.nextId, .pins, .moon, .tiles, .cmds, .mcmds, .fetches, .budget, .cfg, .pools, .vols, .members, .sbt, .links,
      .partners, .pcie, .mbx, .jade, .jet] s t) ∧
  (∀ s t g conn, exec (.sbtConnClose g conn) s = .next t →
    Frame [.nextId, .tiles, .cmds, .mcmds, .fetches, .pools, .vols, .sbt, .partners, .mbx] s t) ∧
  (∀ s t g p found, exec (.poolCreate g p found) s = .next t →
    Frame [.freeIx, .nextId, .mcmds, .budget, .cfg, .pools, .members, .mbx] s t) ∧
  (∀ s t g pool, exec (.poolDelete g pool) s = .next t →
    Frame [.nextId, .tiles, .mcmds, .fetches, .budget, .cfg, .pools, .vols, .members, .partners, .mbx] s t) ∧
  (∀ s t g pool members found, exec (.hotspareSet g pool members found) s = .next t →
    Frame [.nextId, .mcmds, .budget, .cfg, .pools, .members, .mbx] s t) ∧
  (∀ s t g p, exec (.volumeCreate g p) s = .next t → Frame [.nextId, .tiles, .cfg, .pools, .vols, .partners, .mbx] s t) ∧
  (∀ s t g vol, exec (.volumeDelete g vol) s = .next t → Frame [.nextId, .tiles, .cfg, .pools, .vols, .partners, .mbx] s t) ∧
  (∀ s t g vol mask home attr policy, exec (.volumeSet g vol mask home attr policy) s = .next t →
    Frame [.nextId, .tiles, .cfg, .pools, .vols, .partners, .mbx] s t) ∧
  (∀ s t g vol extents buf list, exec (.volumeSetExtents g vol extents buf list) s = .next t →
    Frame [.nextId, .tiles, .cfg, .pools, .vols, .partners, .mbx] s t) ∧
  (∀ s t g member, exec (.memberFail g member) s = .next t →
    Frame [.freeIx, .nextId, .pins, .moon, .tiles, .cmds, .mcmds, .fetches, .destages, .replays, .maints, .budget, .cfg,
      .pools, .vols, .members, .links, .partners, .pcie, .mbx, .cache, .jade, .jet, .tests] s t) ∧
  (∀ s t g pool index member found, exec (.memberReplace g pool index member found) s = .next t →
    Frame [.nextId, .pins, .moon, .tiles, .mcmds, .fetches, .destages, .budget, .cfg, .pools, .vols, .members, .links,
      .partners, .pcie, .mbx, .jade, .jet] s t) ∧
  (∀ s t g pool index0 index1, exec (.journalMirrorSet g pool index0 index1) s = .next t →
    Frame [.nextId, .cfg, .pools, .partners, .mbx] s t) ∧
  (∀ s t g pool link, exec (.journalPartner g pool link) s = .next t → Frame [.nextId, .pools, .partners, .mbx] s t) ∧
  (∀ s t g pool link, exec (.journalPartnerClear g pool link) s = .next t → Frame [.nextId, .cfg, .pools, .partners, .mbx] s t) ∧
  (∀ s t mb, exec (.cacheDisableQuiesced mb) s = .next t →
    Frame [.nextId, .pins, .moon, .tiles, .mcmds, .fetches, .destages, .maints, .budget, .pools, .vols, .links, .partners,
      .pcie, .live, .mbx, .cache, .jade, .jet] s t) ∧
  (∀ s t g, exec (.cacheEnable g) s = .next t →
    Frame [.nextId, .pins, .moon, .tiles, .cmds, .mcmds, .fetches, .destages, .maints, .budget, .pools, .vols, .links,
      .partners, .pcie, .live, .mbx, .cache, .jade, .jet] s t) ∧
  (∀ s t g vol policy entries, exec (.cacheRatSet g vol policy entries) s = .next t →
    Frame [.nextId, .tiles, .cfg, .pools, .vols, .partners, .mbx] s t) ∧
  (∀ s t kind pool badLines badMram badCitrine, exec (.selftestComplete kind pool badLines badMram badCitrine) s = .next t →
    Frame [.freeIx, .nextId, .pins, .moon, .tiles, .mcmds, .budget, .links, .partners, .pcie, .cache, .jade, .jet,
      .tests] s t) ∧
  (∀ s t g vol wrapped, exec (.keyLoad g vol wrapped) s = .next t →
    Frame [.nextId, .tiles, .cfg, .pools, .vols, .partners, .mbx] s t) ∧
  (∀ s t g vol, exec (.keyDestroy g vol) s = .next t → Frame [.nextId, .tiles, .cfg, .pools, .vols, .partners, .mbx] s t) ∧
  (∀ s t slot, exec (.f2TimerExpiry slot) s = .next t → Frame [.pins, .moon, .links, .partners, .pcie, .jade, .jet] s t) ∧
  (∀ s t slot, exec (.f3Contained slot) s = .next t →
    Frame [.nextId, .pins, .moon, .tiles, .mesh, .cmds, .mcmds, .fetches, .destages, .replays, .maints, .budget, .pools,
      .vols, .members, .sbt, .links, .partners, .pcie, .sqs, .cqs, .live, .jade, .jet, .tests] s t) ∧
  (∀ s t slot, exec (.f3ContainmentTimeout slot) s = .next t → Frame [.pins, .moon, .links, .partners, .pcie, .jade, .jet] s t) ∧
  (∀ s t tile, exec (.roundEnd tile) s = .next t →
    Frame [.nextId, .phase, .pins, .moon, .tiles, .mcmds, .fetches, .destages, .budget, .pools, .sbt, .links, .partners,
      .pcie, .mbx, .jade, .jet, .hk, .tests] s t) ∧
  (∀ s t tile diode, exec (.tripComparator tile diode) s = .next t →
    Frame [.phase, .pins, .moon, .links, .partners, .pcie, .jade, .jet, .hk] s t) ∧
  (∀ s t fn p width v, exec (.registerWrite fn p width v) s = .next t →
    Frame [.nextId, .moon, .tiles, .cfg, .vols, .pcie, .sqs, .cqs, .live, .mbx, .cache, .jade, .jet, .hk] s t) ∧
  (∀ s t tile core, exec (.coreWatchdog tile core) s = .next t →
    Frame [.nextId, .pins, .moon, .tiles, .mesh, .cmds, .mcmds, .fetches, .destages, .replays, .maints, .budget, .pools,
      .vols, .members, .sbt, .links, .partners, .pcie, .sqs, .cqs, .live, .jade, .jet, .tests] s t) ∧
  (∀ s t a b, exec (.meshLinkLoss a b) s = .next t → Frame [.pins, .moon, .mesh, .links, .partners, .pcie, .jade, .jet] s t) ∧
  (∀ s t, exec .pwrOkLoss s = .next t →
    Frame [.freeIx, .phase, .pins, .moon, .tiles, .mesh, .cmds, .mcmds, .fetches, .destages, .replays, .maints, .budget,
      .pools, .vols, .members, .sbt, .links, .partners, .pcie, .sqs, .cqs, .live, .mbx, .cache, .jade, .jet, .jtag, .hk,
      .tests, .sec] s t) ∧
  (∀ s t, exec .sysResetNAssert s = .next t →
    Frame [.freeIx, .phase, .pins, .moon, .tiles, .mesh, .cmds, .mcmds, .fetches, .destages, .replays, .maints, .budget,
      .pools, .vols, .members, .sbt, .links, .partners, .pcie, .sqs, .cqs, .live, .mbx, .cache, .jade, .jet, .jtag, .hk,
      .tests, .sec] s t) ∧
  (∀ s t, exec .perstNAssert s = .next t →
    Frame [.nextId, .pins, .moon, .tiles, .cmds, .mcmds, .fetches, .destages, .budget, .cfg, .flash, .pools, .vols, .links,
      .partners, .pcie, .sqs, .cqs, .live, .mbx, .jade, .jet, .hk, .tests] s t) ∧
  (∀ s t, exec .perstNRelease s = .next t →
    Frame [.freeIx, .phase, .pins, .moon, .tiles, .mesh, .cmds, .mcmds, .fetches, .destages, .replays, .maints, .budget,
      .flash, .pools, .vols, .members, .sbt, .links, .partners, .pcie, .sqs, .cqs, .live, .mbx, .cache, .jade, .jet, .jtag,
      .hk, .tests, .sec] s t) ∧
  (∀ s t, exec .freezeNLow s = .next t → Frame [.pins, .moon, .tiles, .links, .partners, .pcie, .jade] s t) ∧
  (∀ s t, exec .epochEdge s = .next t →
    Frame [.clock, .nextId, .pins, .moon, .tiles, .mcmds, .budget, .cfg, .pools, .vols, .sbt, .links, .partners, .pcie, .sqs,
      .jade, .jet, .hk, .tests] s t) ∧
  (∀ s t, exec .missLimit s = .next t → Frame [.pins, .moon, .links, .partners, .pcie, .jade, .jet] s t) ∧
  (∀ s t, exec .unsynchronised s = .next t → Frame [.pins, .moon, .links, .partners, .pcie, .jade, .jet] s t) ∧
  (∀ s t, exec .hostWatchdog s = .next t → Frame [.pins, .moon, .links, .partners, .pcie, .jade, .jet] s t) ∧
  (∀ s t, exec .shutdownClose s = .next t →
    Frame [.phase, .pins, .moon, .tiles, .cmds, .mcmds, .fetches, .pools, .vols, .sbt, .links, .partners, .pcie, .live,
      .jade, .jet, .hk] s t)
end

