-- ==== Sys2Proof/Laws/Tab.lean ====
section
/-! SUPPORT. Laws of tables and sparse bytes: read after write, and the canonical form that every operation keeps. -/

namespace Sys2Proof

/-! ### Read after write -/

theorem Tab.get?_set_self {α : Type} (t : Tab α) (k : Nat) (v : α) : Tab.get? (Tab.set t k v) k = some v := by
  induction t with
  | nil => simp [Tab.set, Tab.get?]
  | cons e r ih =>
    obtain ⟨j, w⟩ := e
    simp only [Tab.set]
    split
    · simp [Tab.get?]
    · split
      · simp [Tab.get?]
      · simp [Tab.get?, ih]; omega

theorem Tab.get?_set_ne {α : Type} (t : Tab α) (k i : Nat) (v : α) (h : i ≠ k) :
    Tab.get? (Tab.set t k v) i = Tab.get? t i := by
  induction t with
  | nil => simp [Tab.set, Tab.get?, Ne.symm h]
  | cons e r ih =>
    obtain ⟨j, w⟩ := e
    simp only [Tab.set]
    split
    · simp [Tab.get?, Ne.symm h]
    · split
      · subst_vars; simp [Tab.get?, Ne.symm h]
      · simp [Tab.get?, ih]

@[simp] theorem Tab.getD_set_self {α : Type} (t : Tab α) (k : Nat) (v d : α) : Tab.getD (Tab.set t k v) k d = v := by
  simp [Tab.getD, Tab.get?_set_self]

theorem Tab.getD_set_ne {α : Type} (t : Tab α) (k i : Nat) (v d : α) (h : i ≠ k) :
    Tab.getD (Tab.set t k v) i d = Tab.getD t i d := by
  simp [Tab.getD, Tab.get?_set_ne t k i v h]

/-! ### The canonical form -/

theorem Tab.mem_set {α : Type} {t : Tab α} {k : Nat} {v : α} {e : Nat × α} (h : e ∈ Tab.set t k v) : e = (k, v) ∨ e ∈ t := by
  induction t with
  | nil => simpa [Tab.set] using h
  | cons x r ih =>
    obtain ⟨j, w⟩ := x
    simp only [Tab.set] at h
    split at h
    · simpa using h
    · split at h
      · rcases List.mem_cons.1 h with h | h <;> simp [h]
      · rcases List.mem_cons.1 h with h | h
        · simp [h]
        · rcases ih h with h | h <;> simp [h]

theorem Tab.wf_set {α : Type} {t : Tab α} (k : Nat) (v : α) (h : Tab.wf t = true) : Tab.wf (Tab.set t k v) = true := by
  simp only [Tab.wf, decide_eq_true_eq] at h ⊢
  induction t with
  | nil => simp [Tab.set]
  | cons x r ih =>
    obtain ⟨j, w⟩ := x
    obtain ⟨h1, h2⟩ := List.pairwise_cons.1 h
    simp only [Tab.set]
    split
    · rename_i hk
      refine List.pairwise_cons.2 ⟨fun e he => ?_, h⟩
      rcases List.mem_cons.1 he with rfl | he
      · exact hk
      · exact Nat.lt_trans hk (h1 e he)
    · split
      · rename_i hk; subst hk; exact List.pairwise_cons.2 ⟨h1, h2⟩
      · refine List.pairwise_cons.2 ⟨fun e he => ?_, ih h2⟩
        rcases Tab.mem_set he with rfl | he
        · show j < k; omega
        · exact h1 e he

theorem Tab.wf_erase {α : Type} {t : Tab α} (k : Nat) (h : Tab.wf t = true) : Tab.wf (Tab.erase t k) = true := by
  simp only [Tab.wf, decide_eq_true_eq] at h ⊢
  exact h.filter _

theorem Tab.wf_adjust {α : Type} {t : Tab α} (k : Nat) (f : α → α) (h : Tab.wf t = true) :
    Tab.wf (Tab.adjust t k f) = true := by
  simp only [Tab.wf, decide_eq_true_eq, Tab.adjust, List.pairwise_map] at h ⊢
  refine h.imp ?_
  intro a b hab
  split <;> split <;> exact hab

@[simp] theorem Tab.get?_adjust_self {α : Type} (t : Tab α) (k : Nat) (f : α → α) :
    Tab.get? (Tab.adjust t k f) k = (Tab.get? t k).map f := by
  induction t with
  | nil => rfl
  | cons x r ih =>
    obtain ⟨j, w⟩ := x
    by_cases h : j = k
    · simp [Tab.adjust, Tab.get?, h]
    · simpa [Tab.adjust, Tab.get?, h] using ih

theorem Tab.get?_adjust_ne {α : Type} (t : Tab α) (k j : Nat) (f : α → α) (h : j ≠ k) :
    Tab.get? (Tab.adjust t k f) j = Tab.get? t j := by
  induction t with
  | nil => rfl
  | cons x r ih =>
    obtain ⟨i, w⟩ := x
    by_cases hk : i = k
    · subst hk
      have hj : ¬ i = j := fun e => h e.symm
      simpa [Tab.adjust, Tab.get?, hj] using ih
    · by_cases hj : i = j
      · subst hj; simp [Tab.adjust, Tab.get?, hk]
      · simpa [Tab.adjust, Tab.get?, hk, hj] using ih

theorem Mem.mem_set {m : Mem} {a : Nat} {b : Byte} {e : Nat × Byte} (h : e ∈ Mem.set m a b) :
    (e = (a, b) ∧ b ≠ 0) ∨ e ∈ m := by
  induction m with
  | nil =>
    simp only [Mem.set] at h
    split at h <;> simp_all
  | cons x r ih =>
    obtain ⟨j, w⟩ := x
    simp only [Mem.set] at h
    split at h
    · split at h
      · exact .inr h
      · rcases List.mem_cons.1 h with h | h
        · exact .inl ⟨h, by assumption⟩
        · exact .inr h
    · split at h
      · split at h
        · exact .inr (List.mem_cons_of_mem _ h)
        · rcases List.mem_cons.1 h with h | h
          · exact .inl ⟨h, by assumption⟩
          · exact .inr (List.mem_cons_of_mem _ h)
      · rcases List.mem_cons.1 h with h | h
        · exact .inr (h ▸ List.mem_cons_self)
        · rcases ih h with h | h
          · exact .inl h
          · exact .inr (List.mem_cons_of_mem _ h)

/-- A byte written keeps the canonical form. -/
theorem Mem.wf_set {m : Mem} (a : Nat) (b : Byte) (h : Mem.wf m = true) : Mem.wf (Mem.set m a b) = true := by
  simp only [Mem.wf, Tab.wf, Bool.and_eq_true, decide_eq_true_eq, List.all_eq_true, bne_iff_ne, ne_eq] at h ⊢
  refine ⟨?_, fun e he => ?_⟩
  · have hp := h.1
    clear h
    induction m with
    | nil => simp only [Mem.set]; split <;> simp
    | cons x r ih =>
      obtain ⟨j, w⟩ := x
      obtain ⟨h1, h2⟩ := List.pairwise_cons.1 hp
      simp only [Mem.set]
      split
      · rename_i hk
        split
        · exact hp
        · refine List.pairwise_cons.2 ⟨fun e he => ?_, hp⟩
          rcases List.mem_cons.1 he with rfl | he
          · exact hk
          · exact Nat.lt_trans hk (h1 e he)
      · split
        · rename_i hk
          subst hk
          split
          · exact h2
          · exact List.pairwise_cons.2 ⟨h1, h2⟩
        · refine List.pairwise_cons.2 ⟨fun e he => ?_, ih h2⟩
          rcases Mem.mem_set he with ⟨rfl, -⟩ | he
          · show j < a; omega
          · exact h1 e he
  · rcases Mem.mem_set he with ⟨rfl, hb⟩ | he
    · exact hb
    · exact h.2 e he

theorem Mem.get_set_self (m : Mem) (a : Nat) (b : Byte) (h : Mem.wf m = true) : Mem.get (Mem.set m a b) a = b := by
  simp only [Mem.wf, Tab.wf, Bool.and_eq_true, decide_eq_true_eq] at h
  have hp := h.1
  clear h
  have gone : ∀ r : Mem, (∀ e ∈ r, a < e.1) → Mem.get r a = 0 := by
    intro r hr
    induction r with
    | nil => rfl
    | cons y r ih =>
      have h1 := hr y List.mem_cons_self
      have h2 := ih (fun e he => hr e (List.mem_cons_of_mem _ he))
      simp only [Mem.get, Tab.getD, Tab.get?] at h2 ⊢
      rw [if_neg (by omega)]
      exact h2
  induction m with
  | nil =>
    simp only [Mem.set]
    split
    · subst_vars; rfl
    · simp [Mem.get, Tab.getD, Tab.get?]
  | cons x r ih =>
    obtain ⟨j, w⟩ := x
    obtain ⟨h1, h2⟩ := List.pairwise_cons.1 hp
    simp only [Mem.set]
    split
    · rename_i hk
      split
      · subst_vars
        refine gone _ (fun e he => ?_)
        rcases List.mem_cons.1 he with rfl | he
        · exact hk
        · exact Nat.lt_trans hk (h1 e he)
      · simp [Mem.get, Tab.getD, Tab.get?]
    · split
      · rename_i hk
        subst hk
        split
        · subst_vars; exact gone _ h1
        · simp [Mem.get, Tab.getD, Tab.get?]
      · have := ih h2
        simp only [Mem.get, Tab.getD, Tab.get?] at this ⊢
        rw [if_neg (by omega)]
        exact this

theorem Mem.get_set_ne (m : Mem) (a i : Nat) (b : Byte) (h : i ≠ a) : Mem.get (Mem.set m a b) i = Mem.get m i := by
  induction m with
  | nil =>
    simp only [Mem.set]
    split
    · rfl
    · simp [Mem.get, Tab.getD, Tab.get?, Ne.symm h]
  | cons x r ih =>
    obtain ⟨j, w⟩ := x
    simp only [Mem.set]
    split
    · split
      · rfl
      · simp [Mem.get, Tab.getD, Tab.get?, Ne.symm h]
    · split
      · rename_i hk
        subst hk
        split <;> simp [Mem.get, Tab.getD, Tab.get?, Ne.symm h]
      · simp only [Mem.get, Tab.getD, Tab.get?] at ih ⊢
        split
        · rfl
        · exact ih

theorem Mem.wf_slice {m : Mem} (a n : Nat) (h : Mem.wf m = true) : Mem.wf (Mem.slice m a n) = true := by
  simp only [Mem.wf, Tab.wf, Bool.and_eq_true, decide_eq_true_eq, List.all_eq_true, bne_iff_ne, ne_eq, Mem.slice,
    List.pairwise_map] at h ⊢
  refine ⟨?_, ?_⟩
  · have hp := h.1.filter (fun e => decide (a ≤ e.1) && decide (e.1 < a + n))
    refine hp.imp_of_mem ?_
    intro x y hx hy hxy
    simp only [List.mem_filter, Bool.and_eq_true, decide_eq_true_eq] at hx hy
    omega
  · intro e he
    simp only [List.mem_map, List.mem_filter] at he
    obtain ⟨x, ⟨hx, -⟩, rfl⟩ := he
    exact h.2 x hx

theorem Mem.wf_paste {m src : Mem} (a n : Nat) (hm : Mem.wf m = true) (hs : Mem.wf src = true) :
    Mem.wf (Mem.paste m a n src) = true := by
  simp only [Mem.wf, Tab.wf, Bool.and_eq_true, decide_eq_true_eq, List.all_eq_true, bne_iff_ne, ne_eq, Mem.paste] at hm hs ⊢
  refine ⟨?_, ?_⟩
  · refine decide_eq_true ?_
    simp only [List.pairwise_append, List.pairwise_map, List.mem_append, List.mem_map, List.mem_filter, decide_eq_true_eq]
    refine ⟨⟨hm.1.filter _, ?_, ?_⟩, hm.1.filter _, ?_⟩
    · exact (hs.1.filter _).imp (fun h => by omega)
    · rintro x ⟨-, hx⟩ y ⟨z, ⟨-, -⟩, rfl⟩
      show x.1 < a + z.1
      omega
    · rintro x (⟨-, hx⟩ | ⟨z, ⟨-, hz⟩, rfl⟩) y ⟨-, hy⟩
      · omega
      · show a + z.1 < y.1
        omega
  · intro e he
    simp only [List.mem_append, List.mem_map, List.mem_filter] at he
    rcases he with (⟨he, -⟩ | ⟨z, ⟨hz, -⟩, rfl⟩) | ⟨he, -⟩
    · exact hm.2 e he
    · exact hs.2 z hz
    · exact hm.2 e he

theorem Mem.wf_ofListAt (l : List Byte) : ∀ a, (Mem.wf (Mem.ofListAt a l) = true) ∧ ∀ e ∈ Mem.ofListAt a l, a ≤ e.1 := by
  induction l with
  | nil => intro a; simp [Mem.ofListAt, Mem.wf, Tab.wf]
  | cons b r ih =>
    intro a
    obtain ⟨hw, hge⟩ := ih (a + 1)
    simp only [Mem.ofListAt]
    split
    · exact ⟨hw, fun e he => by have := hge e he; omega⟩
    · simp only [Mem.wf, Tab.wf, Bool.and_eq_true, decide_eq_true_eq, List.all_eq_true, bne_iff_ne, ne_eq] at hw ⊢
      refine ⟨⟨List.pairwise_cons.2 ⟨fun e he => ?_, hw.1⟩, fun e he => ?_⟩, fun e he => ?_⟩
      · have := hge e he; show a < e.1; omega
      · rcases List.mem_cons.1 he with rfl | he
        · assumption
        · exact hw.2 e he
      · rcases List.mem_cons.1 he with rfl | he
        · exact Nat.le_refl _
        · have := hge e he; omega

theorem Mem.wf_ofList (l : List Byte) : Mem.wf (Mem.ofList l) = true := (Mem.wf_ofListAt l 0).1

theorem Mem.wf_xor (m₁ m₂ : Mem) (h : Mem.wf m₁ = true) : Mem.wf (Mem.xor m₁ m₂) = true := by
  simp only [Mem.xor]
  induction m₂ generalizing m₁ with
  | nil => exact h
  | cons e r ih => exact ih _ (Mem.wf_set _ _ h)

theorem Mem.wf_scale (c : Byte) (m : Mem) (h : Mem.wf m = true) : Mem.wf (Mem.scale c m) = true := by
  simp only [Mem.scale]
  split
  · simp [Mem.wf, Tab.wf]
  · simp only [Mem.wf, Tab.wf, Bool.and_eq_true, decide_eq_true_eq, List.all_eq_true, bne_iff_ne, ne_eq] at h ⊢
    refine ⟨List.Pairwise.filter _ (List.pairwise_map.2 h.1), fun e he => ?_⟩
    simp only [List.mem_filter, bne_iff_ne, ne_eq] at he
    exact he.2

end Sys2Proof
end

