-- ==== Sys2Proof/Laws/State.lean ====
section
/-! SUPPORT. Laws of the state's updates: which fields each one leaves as they are, one lemma per field, and reading back what
was set. -/

namespace Sys2Proof.Machine

/-! ### Read after write -/

@[simp] theorem getTile_setTile_self (s : State) (i : Nat) (x : Tile) : getTile (setTile s i x) i = x := by
  simp [getTile, setTile]

theorem getTile_setTile_ne (s : State) (i j : Nat) (x : Tile) (h : j ≠ i) : getTile (setTile s i x) j = getTile s j := by
  simp [getTile, setTile, Tab.getD_set_ne _ _ _ _ _ h]

@[simp] theorem getPool_setPool_self (s : State) (i : Nat) (x : Pool) : getPool (setPool s i x) i = x := by
  simp [getPool, setPool]

theorem getPool_setPool_ne (s : State) (i j : Nat) (x : Pool) (h : j ≠ i) : getPool (setPool s i x) j = getPool s j := by
  simp [getPool, setPool, Tab.getD_set_ne _ _ _ _ _ h]

@[simp] theorem getVol_setVol_self (s : State) (i : Nat) (x : Vol) : getVol (setVol s i x) i = x := by
  simp [getVol, setVol]

theorem getVol_setVol_ne (s : State) (i j : Nat) (x : Vol) (h : j ≠ i) : getVol (setVol s i x) j = getVol s j := by
  simp [getVol, setVol, Tab.getD_set_ne _ _ _ _ _ h]

@[simp] theorem getMember_setMember_self (s : State) (i : Nat) (x : Member) : getMember (setMember s i x) i = x := by
  simp [getMember, setMember]

theorem getMember_setMember_ne (s : State) (i j : Nat) (x : Member) (h : j ≠ i) : getMember (setMember s i x) j = getMember s j := by
  simp [getMember, setMember, Tab.getD_set_ne _ _ _ _ _ h]

@[simp] theorem getLink_setLink_self (s : State) (i : Nat) (x : Link) : getLink (setLink s i x) i = x := by
  simp [getLink, setLink]

theorem getLink_setLink_ne (s : State) (i j : Nat) (x : Link) (h : j ≠ i) : getLink (setLink s i x) j = getLink s j := by
  simp [getLink, setLink, Tab.getD_set_ne _ _ _ _ _ h]

@[simp] theorem getPartner_setPartner_self (s : State) (i : Nat) (x : Partner) : getPartner (setPartner s i x) i = x := by
  simp [getPartner, setPartner]

theorem getPartner_setPartner_ne (s : State) (i j : Nat) (x : Partner) (h : j ≠ i) : getPartner (setPartner s i x) j = getPartner s j := by
  simp [getPartner, setPartner, Tab.getD_set_ne _ _ _ _ _ h]

@[simp] theorem getFunc_setFunc_self (s : State) (i : Nat) (x : Func) : getFunc (setFunc s i x) i = x := by
  simp [getFunc, setFunc]

theorem getFunc_setFunc_ne (s : State) (i j : Nat) (x : Func) (h : j ≠ i) : getFunc (setFunc s i x) j = getFunc s j := by
  simp [getFunc, setFunc, Tab.getD_set_ne _ _ _ _ _ h]

@[simp] theorem getWindow_setWindow_self (s : State) (i : Nat) (x : Window) : getWindow (setWindow s i x) i = x := by
  simp [getWindow, setWindow]

theorem getWindow_setWindow_ne (s : State) (i j : Nat) (x : Window) (h : j ≠ i) : getWindow (setWindow s i x) j = getWindow s j := by
  simp [getWindow, setWindow, Tab.getD_set_ne _ _ _ _ _ h]

@[simp] theorem getSq_setSq_self (s : State) (i : Nat) (x : Sq) : getSq (setSq s i x) i = x := by
  simp [getSq, setSq]

theorem getSq_setSq_ne (s : State) (i j : Nat) (x : Sq) (h : j ≠ i) : getSq (setSq s i x) j = getSq s j := by
  simp [getSq, setSq, Tab.getD_set_ne _ _ _ _ _ h]

@[simp] theorem getCq_setCq_self (s : State) (i : Nat) (x : Cq) : getCq (setCq s i x) i = x := by
  simp [getCq, setCq]

theorem getCq_setCq_ne (s : State) (i j : Nat) (x : Cq) (h : j ≠ i) : getCq (setCq s i x) j = getCq s j := by
  simp [getCq, setCq, Tab.getD_set_ne _ _ _ _ _ h]

@[simp] theorem getMbx_setMbx_self (s : State) (i : Nat) (x : Mailbox) : getMbx (setMbx s i x) i = x := by
  simp [getMbx, setMbx]

theorem getMbx_setMbx_ne (s : State) (i j : Nat) (x : Mailbox) (h : j ≠ i) : getMbx (setMbx s i x) j = getMbx s j := by
  simp [getMbx, setMbx, Tab.getD_set_ne _ _ _ _ _ h]

@[simp] theorem getSlice_setSlice_self (s : State) (i : Nat) (x : HkSlice) : getSlice (setSlice s i x) i = x := by
  simp [getSlice, setSlice]

theorem getSlice_setSlice_ne (s : State) (i j : Nat) (x : HkSlice) (h : j ≠ i) : getSlice (setSlice s i x) j = getSlice s j := by
  simp [getSlice, setSlice, Tab.getD_set_ne _ _ _ _ _ h]

/-! ### A change of one resource is a set of it -/

@[simp] theorem modTile_eq (s : State) (t : Nat) (f : Tile → Tile) : modTile s t f = setTile s t (f (getTile s t)) := rfl

@[simp] theorem modTier_eq (s : State) (t : Nat) (f : Tier → Tier) : modTier s t f = setTile s t { getTile s t with tier := f (getTile s t).tier } := rfl

@[simp] theorem modAmber_eq (s : State) (t : Nat) (f : Amber → Amber) : modAmber s t f = setTile s t { getTile s t with amber := f (getTile s t).amber } := rfl

@[simp] theorem modPool_eq (s : State) (i : Nat) (f : Pool → Pool) : modPool s i f = setPool s i (f (getPool s i)) := rfl

@[simp] theorem modVol_eq (s : State) (i : Nat) (f : Vol → Vol) : modVol s i f = setVol s i (f (getVol s i)) := rfl

@[simp] theorem modMember_eq (s : State) (i : Nat) (f : Member → Member) : modMember s i f = setMember s i (f (getMember s i)) := rfl

@[simp] theorem modLink_eq (s : State) (i : Nat) (f : Link → Link) : modLink s i f = setLink s i (f (getLink s i)) := rfl

@[simp] theorem modPartner_eq (s : State) (i : Nat) (f : Partner → Partner) : modPartner s i f = setPartner s i (f (getPartner s i)) := rfl

@[simp] theorem modFunc_eq (s : State) (i : Nat) (f : Func → Func) : modFunc s i f = setFunc s i (f (getFunc s i)) := rfl

@[simp] theorem modWindow_eq (s : State) (i : Nat) (f : Window → Window) : modWindow s i f = setWindow s i (f (getWindow s i)) := rfl

@[simp] theorem modSq_eq (s : State) (i : Nat) (f : Sq → Sq) : modSq s i f = setSq s i (f (getSq s i)) := rfl

@[simp] theorem modCq_eq (s : State) (i : Nat) (f : Cq → Cq) : modCq s i f = setCq s i (f (getCq s i)) := rfl

@[simp] theorem modMbx_eq (s : State) (i : Nat) (f : Mailbox → Mailbox) : modMbx s i f = setMbx s i (f (getMbx s i)) := rfl

/-! ### What each update leaves as it is -/

@[simp] theorem setTile_part (s : State) (t : Nat) (x : Tile) : (setTile s t x).part = s.part := rfl
@[simp] theorem setTile_clock (s : State) (t : Nat) (x : Tile) : (setTile s t x).clock = s.clock := rfl
@[simp] theorem setTile_freeIx (s : State) (t : Nat) (x : Tile) : (setTile s t x).freeIx = s.freeIx := rfl
@[simp] theorem setTile_nextId (s : State) (t : Nat) (x : Tile) : (setTile s t x).nextId = s.nextId := rfl
@[simp] theorem setTile_out (s : State) (t : Nat) (x : Tile) : (setTile s t x).out = s.out := rfl
@[simp] theorem setTile_phase (s : State) (t : Nat) (x : Tile) : (setTile s t x).phase = s.phase := rfl
@[simp] theorem setTile_pins (s : State) (t : Nat) (x : Tile) : (setTile s t x).pins = s.pins := rfl
@[simp] theorem setTile_moon (s : State) (t : Nat) (x : Tile) : (setTile s t x).moon = s.moon := rfl
@[simp] theorem setTile_mesh (s : State) (t : Nat) (x : Tile) : (setTile s t x).mesh = s.mesh := rfl
@[simp] theorem setTile_cmds (s : State) (t : Nat) (x : Tile) : (setTile s t x).cmds = s.cmds := rfl
@[simp] theorem setTile_mcmds (s : State) (t : Nat) (x : Tile) : (setTile s t x).mcmds = s.mcmds := rfl
@[simp] theorem setTile_fetches (s : State) (t : Nat) (x : Tile) : (setTile s t x).fetches = s.fetches := rfl
@[simp] theorem setTile_destages (s : State) (t : Nat) (x : Tile) : (setTile s t x).destages = s.destages := rfl
@[simp] theorem setTile_replays (s : State) (t : Nat) (x : Tile) : (setTile s t x).replays = s.replays := rfl
@[simp] theorem setTile_maints (s : State) (t : Nat) (x : Tile) : (setTile s t x).maints = s.maints := rfl
@[simp] theorem setTile_budget (s : State) (t : Nat) (x : Tile) : (setTile s t x).budget = s.budget := rfl
@[simp] theorem setTile_cfg (s : State) (t : Nat) (x : Tile) : (setTile s t x).cfg = s.cfg := rfl
@[simp] theorem setTile_flash (s : State) (t : Nat) (x : Tile) : (setTile s t x).flash = s.flash := rfl
@[simp] theorem setTile_pools (s : State) (t : Nat) (x : Tile) : (setTile s t x).pools = s.pools := rfl
@[simp] theorem setTile_vols (s : State) (t : Nat) (x : Tile) : (setTile s t x).vols = s.vols := rfl
@[simp] theorem setTile_members (s : State) (t : Nat) (x : Tile) : (setTile s t x).members = s.members := rfl
@[simp] theorem setTile_sbt (s : State) (t : Nat) (x : Tile) : (setTile s t x).sbt = s.sbt := rfl
@[simp] theorem setTile_links (s : State) (t : Nat) (x : Tile) : (setTile s t x).links = s.links := rfl
@[simp] theorem setTile_partners (s : State) (t : Nat) (x : Tile) : (setTile s t x).partners = s.partners := rfl
@[simp] theorem setTile_pcie (s : State) (t : Nat) (x : Tile) : (setTile s t x).pcie = s.pcie := rfl
@[simp] theorem setTile_sqs (s : State) (t : Nat) (x : Tile) : (setTile s t x).sqs = s.sqs := rfl
@[simp] theorem setTile_cqs (s : State) (t : Nat) (x : Tile) : (setTile s t x).cqs = s.cqs := rfl
@[simp] theorem setTile_live (s : State) (t : Nat) (x : Tile) : (setTile s t x).live = s.live := rfl
@[simp] theorem setTile_mbx (s : State) (t : Nat) (x : Tile) : (setTile s t x).mbx = s.mbx := rfl
@[simp] theorem setTile_cache (s : State) (t : Nat) (x : Tile) : (setTile s t x).cache = s.cache := rfl
@[simp] theorem setTile_jade (s : State) (t : Nat) (x : Tile) : (setTile s t x).jade = s.jade := rfl
@[simp] theorem setTile_jet (s : State) (t : Nat) (x : Tile) : (setTile s t x).jet = s.jet := rfl
@[simp] theorem setTile_jtag (s : State) (t : Nat) (x : Tile) : (setTile s t x).jtag = s.jtag := rfl
@[simp] theorem setTile_hk (s : State) (t : Nat) (x : Tile) : (setTile s t x).hk = s.hk := rfl
@[simp] theorem setTile_tests (s : State) (t : Nat) (x : Tile) : (setTile s t x).tests = s.tests := rfl
@[simp] theorem setTile_sec (s : State) (t : Nat) (x : Tile) : (setTile s t x).sec = s.sec := rfl
@[simp] theorem setTile_pending (s : State) (t : Nat) (x : Tile) : (setTile s t x).pending = s.pending := rfl

@[simp] theorem setPool_part (s : State) (p : Nat) (x : Pool) : (setPool s p x).part = s.part := rfl
@[simp] theorem setPool_clock (s : State) (p : Nat) (x : Pool) : (setPool s p x).clock = s.clock := rfl
@[simp] theorem setPool_freeIx (s : State) (p : Nat) (x : Pool) : (setPool s p x).freeIx = s.freeIx := rfl
@[simp] theorem setPool_nextId (s : State) (p : Nat) (x : Pool) : (setPool s p x).nextId = s.nextId := rfl
@[simp] theorem setPool_out (s : State) (p : Nat) (x : Pool) : (setPool s p x).out = s.out := rfl
@[simp] theorem setPool_phase (s : State) (p : Nat) (x : Pool) : (setPool s p x).phase = s.phase := rfl
@[simp] theorem setPool_pins (s : State) (p : Nat) (x : Pool) : (setPool s p x).pins = s.pins := rfl
@[simp] theorem setPool_moon (s : State) (p : Nat) (x : Pool) : (setPool s p x).moon = s.moon := rfl
@[simp] theorem setPool_tiles (s : State) (p : Nat) (x : Pool) : (setPool s p x).tiles = s.tiles := rfl
@[simp] theorem setPool_mesh (s : State) (p : Nat) (x : Pool) : (setPool s p x).mesh = s.mesh := rfl
@[simp] theorem setPool_cmds (s : State) (p : Nat) (x : Pool) : (setPool s p x).cmds = s.cmds := rfl
@[simp] theorem setPool_mcmds (s : State) (p : Nat) (x : Pool) : (setPool s p x).mcmds = s.mcmds := rfl
@[simp] theorem setPool_fetches (s : State) (p : Nat) (x : Pool) : (setPool s p x).fetches = s.fetches := rfl
@[simp] theorem setPool_destages (s : State) (p : Nat) (x : Pool) : (setPool s p x).destages = s.destages := rfl
@[simp] theorem setPool_replays (s : State) (p : Nat) (x : Pool) : (setPool s p x).replays = s.replays := rfl
@[simp] theorem setPool_maints (s : State) (p : Nat) (x : Pool) : (setPool s p x).maints = s.maints := rfl
@[simp] theorem setPool_budget (s : State) (p : Nat) (x : Pool) : (setPool s p x).budget = s.budget := rfl
@[simp] theorem setPool_cfg (s : State) (p : Nat) (x : Pool) : (setPool s p x).cfg = s.cfg := rfl
@[simp] theorem setPool_flash (s : State) (p : Nat) (x : Pool) : (setPool s p x).flash = s.flash := rfl
@[simp] theorem setPool_vols (s : State) (p : Nat) (x : Pool) : (setPool s p x).vols = s.vols := rfl
@[simp] theorem setPool_members (s : State) (p : Nat) (x : Pool) : (setPool s p x).members = s.members := rfl
@[simp] theorem setPool_sbt (s : State) (p : Nat) (x : Pool) : (setPool s p x).sbt = s.sbt := rfl
@[simp] theorem setPool_links (s : State) (p : Nat) (x : Pool) : (setPool s p x).links = s.links := rfl
@[simp] theorem setPool_partners (s : State) (p : Nat) (x : Pool) : (setPool s p x).partners = s.partners := rfl
@[simp] theorem setPool_pcie (s : State) (p : Nat) (x : Pool) : (setPool s p x).pcie = s.pcie := rfl
@[simp] theorem setPool_sqs (s : State) (p : Nat) (x : Pool) : (setPool s p x).sqs = s.sqs := rfl
@[simp] theorem setPool_cqs (s : State) (p : Nat) (x : Pool) : (setPool s p x).cqs = s.cqs := rfl
@[simp] theorem setPool_live (s : State) (p : Nat) (x : Pool) : (setPool s p x).live = s.live := rfl
@[simp] theorem setPool_mbx (s : State) (p : Nat) (x : Pool) : (setPool s p x).mbx = s.mbx := rfl
@[simp] theorem setPool_cache (s : State) (p : Nat) (x : Pool) : (setPool s p x).cache = s.cache := rfl
@[simp] theorem setPool_jade (s : State) (p : Nat) (x : Pool) : (setPool s p x).jade = s.jade := rfl
@[simp] theorem setPool_jet (s : State) (p : Nat) (x : Pool) : (setPool s p x).jet = s.jet := rfl
@[simp] theorem setPool_jtag (s : State) (p : Nat) (x : Pool) : (setPool s p x).jtag = s.jtag := rfl
@[simp] theorem setPool_hk (s : State) (p : Nat) (x : Pool) : (setPool s p x).hk = s.hk := rfl
@[simp] theorem setPool_tests (s : State) (p : Nat) (x : Pool) : (setPool s p x).tests = s.tests := rfl
@[simp] theorem setPool_sec (s : State) (p : Nat) (x : Pool) : (setPool s p x).sec = s.sec := rfl
@[simp] theorem setPool_pending (s : State) (p : Nat) (x : Pool) : (setPool s p x).pending = s.pending := rfl

@[simp] theorem setPoolCfg_part (s : State) (p : Nat) (x : PoolCfg) : (setPoolCfg s p x).part = s.part := rfl
@[simp] theorem setPoolCfg_clock (s : State) (p : Nat) (x : PoolCfg) : (setPoolCfg s p x).clock = s.clock := rfl
@[simp] theorem setPoolCfg_freeIx (s : State) (p : Nat) (x : PoolCfg) : (setPoolCfg s p x).freeIx = s.freeIx := rfl
@[simp] theorem setPoolCfg_nextId (s : State) (p : Nat) (x : PoolCfg) : (setPoolCfg s p x).nextId = s.nextId := rfl
@[simp] theorem setPoolCfg_out (s : State) (p : Nat) (x : PoolCfg) : (setPoolCfg s p x).out = s.out := rfl
@[simp] theorem setPoolCfg_phase (s : State) (p : Nat) (x : PoolCfg) : (setPoolCfg s p x).phase = s.phase := rfl
@[simp] theorem setPoolCfg_pins (s : State) (p : Nat) (x : PoolCfg) : (setPoolCfg s p x).pins = s.pins := rfl
@[simp] theorem setPoolCfg_moon (s : State) (p : Nat) (x : PoolCfg) : (setPoolCfg s p x).moon = s.moon := rfl
@[simp] theorem setPoolCfg_tiles (s : State) (p : Nat) (x : PoolCfg) : (setPoolCfg s p x).tiles = s.tiles := rfl
@[simp] theorem setPoolCfg_mesh (s : State) (p : Nat) (x : PoolCfg) : (setPoolCfg s p x).mesh = s.mesh := rfl
@[simp] theorem setPoolCfg_cmds (s : State) (p : Nat) (x : PoolCfg) : (setPoolCfg s p x).cmds = s.cmds := rfl
@[simp] theorem setPoolCfg_mcmds (s : State) (p : Nat) (x : PoolCfg) : (setPoolCfg s p x).mcmds = s.mcmds := rfl
@[simp] theorem setPoolCfg_fetches (s : State) (p : Nat) (x : PoolCfg) : (setPoolCfg s p x).fetches = s.fetches := rfl
@[simp] theorem setPoolCfg_destages (s : State) (p : Nat) (x : PoolCfg) : (setPoolCfg s p x).destages = s.destages := rfl
@[simp] theorem setPoolCfg_replays (s : State) (p : Nat) (x : PoolCfg) : (setPoolCfg s p x).replays = s.replays := rfl
@[simp] theorem setPoolCfg_maints (s : State) (p : Nat) (x : PoolCfg) : (setPoolCfg s p x).maints = s.maints := rfl
@[simp] theorem setPoolCfg_budget (s : State) (p : Nat) (x : PoolCfg) : (setPoolCfg s p x).budget = s.budget := rfl
@[simp] theorem setPoolCfg_flash (s : State) (p : Nat) (x : PoolCfg) : (setPoolCfg s p x).flash = s.flash := rfl
@[simp] theorem setPoolCfg_pools (s : State) (p : Nat) (x : PoolCfg) : (setPoolCfg s p x).pools = s.pools := rfl
@[simp] theorem setPoolCfg_vols (s : State) (p : Nat) (x : PoolCfg) : (setPoolCfg s p x).vols = s.vols := rfl
@[simp] theorem setPoolCfg_members (s : State) (p : Nat) (x : PoolCfg) : (setPoolCfg s p x).members = s.members := rfl
@[simp] theorem setPoolCfg_sbt (s : State) (p : Nat) (x : PoolCfg) : (setPoolCfg s p x).sbt = s.sbt := rfl
@[simp] theorem setPoolCfg_links (s : State) (p : Nat) (x : PoolCfg) : (setPoolCfg s p x).links = s.links := rfl
@[simp] theorem setPoolCfg_partners (s : State) (p : Nat) (x : PoolCfg) : (setPoolCfg s p x).partners = s.partners := rfl
@[simp] theorem setPoolCfg_pcie (s : State) (p : Nat) (x : PoolCfg) : (setPoolCfg s p x).pcie = s.pcie := rfl
@[simp] theorem setPoolCfg_sqs (s : State) (p : Nat) (x : PoolCfg) : (setPoolCfg s p x).sqs = s.sqs := rfl
@[simp] theorem setPoolCfg_cqs (s : State) (p : Nat) (x : PoolCfg) : (setPoolCfg s p x).cqs = s.cqs := rfl
@[simp] theorem setPoolCfg_live (s : State) (p : Nat) (x : PoolCfg) : (setPoolCfg s p x).live = s.live := rfl
@[simp] theorem setPoolCfg_mbx (s : State) (p : Nat) (x : PoolCfg) : (setPoolCfg s p x).mbx = s.mbx := rfl
@[simp] theorem setPoolCfg_cache (s : State) (p : Nat) (x : PoolCfg) : (setPoolCfg s p x).cache = s.cache := rfl
@[simp] theorem setPoolCfg_jade (s : State) (p : Nat) (x : PoolCfg) : (setPoolCfg s p x).jade = s.jade := rfl
@[simp] theorem setPoolCfg_jet (s : State) (p : Nat) (x : PoolCfg) : (setPoolCfg s p x).jet = s.jet := rfl
@[simp] theorem setPoolCfg_jtag (s : State) (p : Nat) (x : PoolCfg) : (setPoolCfg s p x).jtag = s.jtag := rfl
@[simp] theorem setPoolCfg_hk (s : State) (p : Nat) (x : PoolCfg) : (setPoolCfg s p x).hk = s.hk := rfl
@[simp] theorem setPoolCfg_tests (s : State) (p : Nat) (x : PoolCfg) : (setPoolCfg s p x).tests = s.tests := rfl
@[simp] theorem setPoolCfg_sec (s : State) (p : Nat) (x : PoolCfg) : (setPoolCfg s p x).sec = s.sec := rfl
@[simp] theorem setPoolCfg_pending (s : State) (p : Nat) (x : PoolCfg) : (setPoolCfg s p x).pending = s.pending := rfl

@[simp] theorem setVol_part (s : State) (v : Nat) (x : Vol) : (setVol s v x).part = s.part := rfl
@[simp] theorem setVol_clock (s : State) (v : Nat) (x : Vol) : (setVol s v x).clock = s.clock := rfl
@[simp] theorem setVol_freeIx (s : State) (v : Nat) (x : Vol) : (setVol s v x).freeIx = s.freeIx := rfl
@[simp] theorem setVol_nextId (s : State) (v : Nat) (x : Vol) : (setVol s v x).nextId = s.nextId := rfl
@[simp] theorem setVol_out (s : State) (v : Nat) (x : Vol) : (setVol s v x).out = s.out := rfl
@[simp] theorem setVol_phase (s : State) (v : Nat) (x : Vol) : (setVol s v x).phase = s.phase := rfl
@[simp] theorem setVol_pins (s : State) (v : Nat) (x : Vol) : (setVol s v x).pins = s.pins := rfl
@[simp] theorem setVol_moon (s : State) (v : Nat) (x : Vol) : (setVol s v x).moon = s.moon := rfl
@[simp] theorem setVol_tiles (s : State) (v : Nat) (x : Vol) : (setVol s v x).tiles = s.tiles := rfl
@[simp] theorem setVol_mesh (s : State) (v : Nat) (x : Vol) : (setVol s v x).mesh = s.mesh := rfl
@[simp] theorem setVol_cmds (s : State) (v : Nat) (x : Vol) : (setVol s v x).cmds = s.cmds := rfl
@[simp] theorem setVol_mcmds (s : State) (v : Nat) (x : Vol) : (setVol s v x).mcmds = s.mcmds := rfl
@[simp] theorem setVol_fetches (s : State) (v : Nat) (x : Vol) : (setVol s v x).fetches = s.fetches := rfl
@[simp] theorem setVol_destages (s : State) (v : Nat) (x : Vol) : (setVol s v x).destages = s.destages := rfl
@[simp] theorem setVol_replays (s : State) (v : Nat) (x : Vol) : (setVol s v x).replays = s.replays := rfl
@[simp] theorem setVol_maints (s : State) (v : Nat) (x : Vol) : (setVol s v x).maints = s.maints := rfl
@[simp] theorem setVol_budget (s : State) (v : Nat) (x : Vol) : (setVol s v x).budget = s.budget := rfl
@[simp] theorem setVol_cfg (s : State) (v : Nat) (x : Vol) : (setVol s v x).cfg = s.cfg := rfl
@[simp] theorem setVol_flash (s : State) (v : Nat) (x : Vol) : (setVol s v x).flash = s.flash := rfl
@[simp] theorem setVol_pools (s : State) (v : Nat) (x : Vol) : (setVol s v x).pools = s.pools := rfl
@[simp] theorem setVol_members (s : State) (v : Nat) (x : Vol) : (setVol s v x).members = s.members := rfl
@[simp] theorem setVol_sbt (s : State) (v : Nat) (x : Vol) : (setVol s v x).sbt = s.sbt := rfl
@[simp] theorem setVol_links (s : State) (v : Nat) (x : Vol) : (setVol s v x).links = s.links := rfl
@[simp] theorem setVol_partners (s : State) (v : Nat) (x : Vol) : (setVol s v x).partners = s.partners := rfl
@[simp] theorem setVol_pcie (s : State) (v : Nat) (x : Vol) : (setVol s v x).pcie = s.pcie := rfl
@[simp] theorem setVol_sqs (s : State) (v : Nat) (x : Vol) : (setVol s v x).sqs = s.sqs := rfl
@[simp] theorem setVol_cqs (s : State) (v : Nat) (x : Vol) : (setVol s v x).cqs = s.cqs := rfl
@[simp] theorem setVol_live (s : State) (v : Nat) (x : Vol) : (setVol s v x).live = s.live := rfl
@[simp] theorem setVol_mbx (s : State) (v : Nat) (x : Vol) : (setVol s v x).mbx = s.mbx := rfl
@[simp] theorem setVol_cache (s : State) (v : Nat) (x : Vol) : (setVol s v x).cache = s.cache := rfl
@[simp] theorem setVol_jade (s : State) (v : Nat) (x : Vol) : (setVol s v x).jade = s.jade := rfl
@[simp] theorem setVol_jet (s : State) (v : Nat) (x : Vol) : (setVol s v x).jet = s.jet := rfl
@[simp] theorem setVol_jtag (s : State) (v : Nat) (x : Vol) : (setVol s v x).jtag = s.jtag := rfl
@[simp] theorem setVol_hk (s : State) (v : Nat) (x : Vol) : (setVol s v x).hk = s.hk := rfl
@[simp] theorem setVol_tests (s : State) (v : Nat) (x : Vol) : (setVol s v x).tests = s.tests := rfl
@[simp] theorem setVol_sec (s : State) (v : Nat) (x : Vol) : (setVol s v x).sec = s.sec := rfl
@[simp] theorem setVol_pending (s : State) (v : Nat) (x : Vol) : (setVol s v x).pending = s.pending := rfl

@[simp] theorem setVolCfg_part (s : State) (v : Nat) (x : VolCfg) : (setVolCfg s v x).part = s.part := rfl
@[simp] theorem setVolCfg_clock (s : State) (v : Nat) (x : VolCfg) : (setVolCfg s v x).clock = s.clock := rfl
@[simp] theorem setVolCfg_freeIx (s : State) (v : Nat) (x : VolCfg) : (setVolCfg s v x).freeIx = s.freeIx := rfl
@[simp] theorem setVolCfg_nextId (s : State) (v : Nat) (x : VolCfg) : (setVolCfg s v x).nextId = s.nextId := rfl
@[simp] theorem setVolCfg_out (s : State) (v : Nat) (x : VolCfg) : (setVolCfg s v x).out = s.out := rfl
@[simp] theorem setVolCfg_phase (s : State) (v : Nat) (x : VolCfg) : (setVolCfg s v x).phase = s.phase := rfl
@[simp] theorem setVolCfg_pins (s : State) (v : Nat) (x : VolCfg) : (setVolCfg s v x).pins = s.pins := rfl
@[simp] theorem setVolCfg_moon (s : State) (v : Nat) (x : VolCfg) : (setVolCfg s v x).moon = s.moon := rfl
@[simp] theorem setVolCfg_tiles (s : State) (v : Nat) (x : VolCfg) : (setVolCfg s v x).tiles = s.tiles := rfl
@[simp] theorem setVolCfg_mesh (s : State) (v : Nat) (x : VolCfg) : (setVolCfg s v x).mesh = s.mesh := rfl
@[simp] theorem setVolCfg_cmds (s : State) (v : Nat) (x : VolCfg) : (setVolCfg s v x).cmds = s.cmds := rfl
@[simp] theorem setVolCfg_mcmds (s : State) (v : Nat) (x : VolCfg) : (setVolCfg s v x).mcmds = s.mcmds := rfl
@[simp] theorem setVolCfg_fetches (s : State) (v : Nat) (x : VolCfg) : (setVolCfg s v x).fetches = s.fetches := rfl
@[simp] theorem setVolCfg_destages (s : State) (v : Nat) (x : VolCfg) : (setVolCfg s v x).destages = s.destages := rfl
@[simp] theorem setVolCfg_replays (s : State) (v : Nat) (x : VolCfg) : (setVolCfg s v x).replays = s.replays := rfl
@[simp] theorem setVolCfg_maints (s : State) (v : Nat) (x : VolCfg) : (setVolCfg s v x).maints = s.maints := rfl
@[simp] theorem setVolCfg_budget (s : State) (v : Nat) (x : VolCfg) : (setVolCfg s v x).budget = s.budget := rfl
@[simp] theorem setVolCfg_flash (s : State) (v : Nat) (x : VolCfg) : (setVolCfg s v x).flash = s.flash := rfl
@[simp] theorem setVolCfg_pools (s : State) (v : Nat) (x : VolCfg) : (setVolCfg s v x).pools = s.pools := rfl
@[simp] theorem setVolCfg_vols (s : State) (v : Nat) (x : VolCfg) : (setVolCfg s v x).vols = s.vols := rfl
@[simp] theorem setVolCfg_members (s : State) (v : Nat) (x : VolCfg) : (setVolCfg s v x).members = s.members := rfl
@[simp] theorem setVolCfg_sbt (s : State) (v : Nat) (x : VolCfg) : (setVolCfg s v x).sbt = s.sbt := rfl
@[simp] theorem setVolCfg_links (s : State) (v : Nat) (x : VolCfg) : (setVolCfg s v x).links = s.links := rfl
@[simp] theorem setVolCfg_partners (s : State) (v : Nat) (x : VolCfg) : (setVolCfg s v x).partners = s.partners := rfl
@[simp] theorem setVolCfg_pcie (s : State) (v : Nat) (x : VolCfg) : (setVolCfg s v x).pcie = s.pcie := rfl
@[simp] theorem setVolCfg_sqs (s : State) (v : Nat) (x : VolCfg) : (setVolCfg s v x).sqs = s.sqs := rfl
@[simp] theorem setVolCfg_cqs (s : State) (v : Nat) (x : VolCfg) : (setVolCfg s v x).cqs = s.cqs := rfl
@[simp] theorem setVolCfg_live (s : State) (v : Nat) (x : VolCfg) : (setVolCfg s v x).live = s.live := rfl
@[simp] theorem setVolCfg_mbx (s : State) (v : Nat) (x : VolCfg) : (setVolCfg s v x).mbx = s.mbx := rfl
@[simp] theorem setVolCfg_cache (s : State) (v : Nat) (x : VolCfg) : (setVolCfg s v x).cache = s.cache := rfl
@[simp] theorem setVolCfg_jade (s : State) (v : Nat) (x : VolCfg) : (setVolCfg s v x).jade = s.jade := rfl
@[simp] theorem setVolCfg_jet (s : State) (v : Nat) (x : VolCfg) : (setVolCfg s v x).jet = s.jet := rfl
@[simp] theorem setVolCfg_jtag (s : State) (v : Nat) (x : VolCfg) : (setVolCfg s v x).jtag = s.jtag := rfl
@[simp] theorem setVolCfg_hk (s : State) (v : Nat) (x : VolCfg) : (setVolCfg s v x).hk = s.hk := rfl
@[simp] theorem setVolCfg_tests (s : State) (v : Nat) (x : VolCfg) : (setVolCfg s v x).tests = s.tests := rfl
@[simp] theorem setVolCfg_sec (s : State) (v : Nat) (x : VolCfg) : (setVolCfg s v x).sec = s.sec := rfl
@[simp] theorem setVolCfg_pending (s : State) (v : Nat) (x : VolCfg) : (setVolCfg s v x).pending = s.pending := rfl

@[simp] theorem setMember_part (s : State) (m : Nat) (x : Member) : (setMember s m x).part = s.part := rfl
@[simp] theorem setMember_clock (s : State) (m : Nat) (x : Member) : (setMember s m x).clock = s.clock := rfl
@[simp] theorem setMember_freeIx (s : State) (m : Nat) (x : Member) : (setMember s m x).freeIx = s.freeIx := rfl
@[simp] theorem setMember_nextId (s : State) (m : Nat) (x : Member) : (setMember s m x).nextId = s.nextId := rfl
@[simp] theorem setMember_out (s : State) (m : Nat) (x : Member) : (setMember s m x).out = s.out := rfl
@[simp] theorem setMember_phase (s : State) (m : Nat) (x : Member) : (setMember s m x).phase = s.phase := rfl
@[simp] theorem setMember_pins (s : State) (m : Nat) (x : Member) : (setMember s m x).pins = s.pins := rfl
@[simp] theorem setMember_moon (s : State) (m : Nat) (x : Member) : (setMember s m x).moon = s.moon := rfl
@[simp] theorem setMember_tiles (s : State) (m : Nat) (x : Member) : (setMember s m x).tiles = s.tiles := rfl
@[simp] theorem setMember_mesh (s : State) (m : Nat) (x : Member) : (setMember s m x).mesh = s.mesh := rfl
@[simp] theorem setMember_cmds (s : State) (m : Nat) (x : Member) : (setMember s m x).cmds = s.cmds := rfl
@[simp] theorem setMember_mcmds (s : State) (m : Nat) (x : Member) : (setMember s m x).mcmds = s.mcmds := rfl
@[simp] theorem setMember_fetches (s : State) (m : Nat) (x : Member) : (setMember s m x).fetches = s.fetches := rfl
@[simp] theorem setMember_destages (s : State) (m : Nat) (x : Member) : (setMember s m x).destages = s.destages := rfl
@[simp] theorem setMember_replays (s : State) (m : Nat) (x : Member) : (setMember s m x).replays = s.replays := rfl
@[simp] theorem setMember_maints (s : State) (m : Nat) (x : Member) : (setMember s m x).maints = s.maints := rfl
@[simp] theorem setMember_budget (s : State) (m : Nat) (x : Member) : (setMember s m x).budget = s.budget := rfl
@[simp] theorem setMember_cfg (s : State) (m : Nat) (x : Member) : (setMember s m x).cfg = s.cfg := rfl
@[simp] theorem setMember_flash (s : State) (m : Nat) (x : Member) : (setMember s m x).flash = s.flash := rfl
@[simp] theorem setMember_pools (s : State) (m : Nat) (x : Member) : (setMember s m x).pools = s.pools := rfl
@[simp] theorem setMember_vols (s : State) (m : Nat) (x : Member) : (setMember s m x).vols = s.vols := rfl
@[simp] theorem setMember_sbt (s : State) (m : Nat) (x : Member) : (setMember s m x).sbt = s.sbt := rfl
@[simp] theorem setMember_links (s : State) (m : Nat) (x : Member) : (setMember s m x).links = s.links := rfl
@[simp] theorem setMember_partners (s : State) (m : Nat) (x : Member) : (setMember s m x).partners = s.partners := rfl
@[simp] theorem setMember_pcie (s : State) (m : Nat) (x : Member) : (setMember s m x).pcie = s.pcie := rfl
@[simp] theorem setMember_sqs (s : State) (m : Nat) (x : Member) : (setMember s m x).sqs = s.sqs := rfl
@[simp] theorem setMember_cqs (s : State) (m : Nat) (x : Member) : (setMember s m x).cqs = s.cqs := rfl
@[simp] theorem setMember_live (s : State) (m : Nat) (x : Member) : (setMember s m x).live = s.live := rfl
@[simp] theorem setMember_mbx (s : State) (m : Nat) (x : Member) : (setMember s m x).mbx = s.mbx := rfl
@[simp] theorem setMember_cache (s : State) (m : Nat) (x : Member) : (setMember s m x).cache = s.cache := rfl
@[simp] theorem setMember_jade (s : State) (m : Nat) (x : Member) : (setMember s m x).jade = s.jade := rfl
@[simp] theorem setMember_jet (s : State) (m : Nat) (x : Member) : (setMember s m x).jet = s.jet := rfl
@[simp] theorem setMember_jtag (s : State) (m : Nat) (x : Member) : (setMember s m x).jtag = s.jtag := rfl
@[simp] theorem setMember_hk (s : State) (m : Nat) (x : Member) : (setMember s m x).hk = s.hk := rfl
@[simp] theorem setMember_tests (s : State) (m : Nat) (x : Member) : (setMember s m x).tests = s.tests := rfl
@[simp] theorem setMember_sec (s : State) (m : Nat) (x : Member) : (setMember s m x).sec = s.sec := rfl
@[simp] theorem setMember_pending (s : State) (m : Nat) (x : Member) : (setMember s m x).pending = s.pending := rfl

@[simp] theorem setLink_part (s : State) (p : Nat) (x : Link) : (setLink s p x).part = s.part := rfl
@[simp] theorem setLink_clock (s : State) (p : Nat) (x : Link) : (setLink s p x).clock = s.clock := rfl
@[simp] theorem setLink_freeIx (s : State) (p : Nat) (x : Link) : (setLink s p x).freeIx = s.freeIx := rfl
@[simp] theorem setLink_nextId (s : State) (p : Nat) (x : Link) : (setLink s p x).nextId = s.nextId := rfl
@[simp] theorem setLink_out (s : State) (p : Nat) (x : Link) : (setLink s p x).out = s.out := rfl
@[simp] theorem setLink_phase (s : State) (p : Nat) (x : Link) : (setLink s p x).phase = s.phase := rfl
@[simp] theorem setLink_pins (s : State) (p : Nat) (x : Link) : (setLink s p x).pins = s.pins := rfl
@[simp] theorem setLink_moon (s : State) (p : Nat) (x : Link) : (setLink s p x).moon = s.moon := rfl
@[simp] theorem setLink_tiles (s : State) (p : Nat) (x : Link) : (setLink s p x).tiles = s.tiles := rfl
@[simp] theorem setLink_mesh (s : State) (p : Nat) (x : Link) : (setLink s p x).mesh = s.mesh := rfl
@[simp] theorem setLink_cmds (s : State) (p : Nat) (x : Link) : (setLink s p x).cmds = s.cmds := rfl
@[simp] theorem setLink_mcmds (s : State) (p : Nat) (x : Link) : (setLink s p x).mcmds = s.mcmds := rfl
@[simp] theorem setLink_fetches (s : State) (p : Nat) (x : Link) : (setLink s p x).fetches = s.fetches := rfl
@[simp] theorem setLink_destages (s : State) (p : Nat) (x : Link) : (setLink s p x).destages = s.destages := rfl
@[simp] theorem setLink_replays (s : State) (p : Nat) (x : Link) : (setLink s p x).replays = s.replays := rfl
@[simp] theorem setLink_maints (s : State) (p : Nat) (x : Link) : (setLink s p x).maints = s.maints := rfl
@[simp] theorem setLink_budget (s : State) (p : Nat) (x : Link) : (setLink s p x).budget = s.budget := rfl
@[simp] theorem setLink_cfg (s : State) (p : Nat) (x : Link) : (setLink s p x).cfg = s.cfg := rfl
@[simp] theorem setLink_flash (s : State) (p : Nat) (x : Link) : (setLink s p x).flash = s.flash := rfl
@[simp] theorem setLink_pools (s : State) (p : Nat) (x : Link) : (setLink s p x).pools = s.pools := rfl
@[simp] theorem setLink_vols (s : State) (p : Nat) (x : Link) : (setLink s p x).vols = s.vols := rfl
@[simp] theorem setLink_members (s : State) (p : Nat) (x : Link) : (setLink s p x).members = s.members := rfl
@[simp] theorem setLink_sbt (s : State) (p : Nat) (x : Link) : (setLink s p x).sbt = s.sbt := rfl
@[simp] theorem setLink_partners (s : State) (p : Nat) (x : Link) : (setLink s p x).partners = s.partners := rfl
@[simp] theorem setLink_pcie (s : State) (p : Nat) (x : Link) : (setLink s p x).pcie = s.pcie := rfl
@[simp] theorem setLink_sqs (s : State) (p : Nat) (x : Link) : (setLink s p x).sqs = s.sqs := rfl
@[simp] theorem setLink_cqs (s : State) (p : Nat) (x : Link) : (setLink s p x).cqs = s.cqs := rfl
@[simp] theorem setLink_live (s : State) (p : Nat) (x : Link) : (setLink s p x).live = s.live := rfl
@[simp] theorem setLink_mbx (s : State) (p : Nat) (x : Link) : (setLink s p x).mbx = s.mbx := rfl
@[simp] theorem setLink_cache (s : State) (p : Nat) (x : Link) : (setLink s p x).cache = s.cache := rfl
@[simp] theorem setLink_jade (s : State) (p : Nat) (x : Link) : (setLink s p x).jade = s.jade := rfl
@[simp] theorem setLink_jet (s : State) (p : Nat) (x : Link) : (setLink s p x).jet = s.jet := rfl
@[simp] theorem setLink_jtag (s : State) (p : Nat) (x : Link) : (setLink s p x).jtag = s.jtag := rfl
@[simp] theorem setLink_hk (s : State) (p : Nat) (x : Link) : (setLink s p x).hk = s.hk := rfl
@[simp] theorem setLink_tests (s : State) (p : Nat) (x : Link) : (setLink s p x).tests = s.tests := rfl
@[simp] theorem setLink_sec (s : State) (p : Nat) (x : Link) : (setLink s p x).sec = s.sec := rfl
@[simp] theorem setLink_pending (s : State) (p : Nat) (x : Link) : (setLink s p x).pending = s.pending := rfl

@[simp] theorem setPartner_part (s : State) (l : Nat) (x : Partner) : (setPartner s l x).part = s.part := rfl
@[simp] theorem setPartner_clock (s : State) (l : Nat) (x : Partner) : (setPartner s l x).clock = s.clock := rfl
@[simp] theorem setPartner_freeIx (s : State) (l : Nat) (x : Partner) : (setPartner s l x).freeIx = s.freeIx := rfl
@[simp] theorem setPartner_nextId (s : State) (l : Nat) (x : Partner) : (setPartner s l x).nextId = s.nextId := rfl
@[simp] theorem setPartner_out (s : State) (l : Nat) (x : Partner) : (setPartner s l x).out = s.out := rfl
@[simp] theorem setPartner_phase (s : State) (l : Nat) (x : Partner) : (setPartner s l x).phase = s.phase := rfl
@[simp] theorem setPartner_pins (s : State) (l : Nat) (x : Partner) : (setPartner s l x).pins = s.pins := rfl
@[simp] theorem setPartner_moon (s : State) (l : Nat) (x : Partner) : (setPartner s l x).moon = s.moon := rfl
@[simp] theorem setPartner_tiles (s : State) (l : Nat) (x : Partner) : (setPartner s l x).tiles = s.tiles := rfl
@[simp] theorem setPartner_mesh (s : State) (l : Nat) (x : Partner) : (setPartner s l x).mesh = s.mesh := rfl
@[simp] theorem setPartner_cmds (s : State) (l : Nat) (x : Partner) : (setPartner s l x).cmds = s.cmds := rfl
@[simp] theorem setPartner_mcmds (s : State) (l : Nat) (x : Partner) : (setPartner s l x).mcmds = s.mcmds := rfl
@[simp] theorem setPartner_fetches (s : State) (l : Nat) (x : Partner) : (setPartner s l x).fetches = s.fetches := rfl
@[simp] theorem setPartner_destages (s : State) (l : Nat) (x : Partner) : (setPartner s l x).destages = s.destages := rfl
@[simp] theorem setPartner_replays (s : State) (l : Nat) (x : Partner) : (setPartner s l x).replays = s.replays := rfl
@[simp] theorem setPartner_maints (s : State) (l : Nat) (x : Partner) : (setPartner s l x).maints = s.maints := rfl
@[simp] theorem setPartner_budget (s : State) (l : Nat) (x : Partner) : (setPartner s l x).budget = s.budget := rfl
@[simp] theorem setPartner_cfg (s : State) (l : Nat) (x : Partner) : (setPartner s l x).cfg = s.cfg := rfl
@[simp] theorem setPartner_flash (s : State) (l : Nat) (x : Partner) : (setPartner s l x).flash = s.flash := rfl
@[simp] theorem setPartner_pools (s : State) (l : Nat) (x : Partner) : (setPartner s l x).pools = s.pools := rfl
@[simp] theorem setPartner_vols (s : State) (l : Nat) (x : Partner) : (setPartner s l x).vols = s.vols := rfl
@[simp] theorem setPartner_members (s : State) (l : Nat) (x : Partner) : (setPartner s l x).members = s.members := rfl
@[simp] theorem setPartner_sbt (s : State) (l : Nat) (x : Partner) : (setPartner s l x).sbt = s.sbt := rfl
@[simp] theorem setPartner_links (s : State) (l : Nat) (x : Partner) : (setPartner s l x).links = s.links := rfl
@[simp] theorem setPartner_pcie (s : State) (l : Nat) (x : Partner) : (setPartner s l x).pcie = s.pcie := rfl
@[simp] theorem setPartner_sqs (s : State) (l : Nat) (x : Partner) : (setPartner s l x).sqs = s.sqs := rfl
@[simp] theorem setPartner_cqs (s : State) (l : Nat) (x : Partner) : (setPartner s l x).cqs = s.cqs := rfl
@[simp] theorem setPartner_live (s : State) (l : Nat) (x : Partner) : (setPartner s l x).live = s.live := rfl
@[simp] theorem setPartner_mbx (s : State) (l : Nat) (x : Partner) : (setPartner s l x).mbx = s.mbx := rfl
@[simp] theorem setPartner_cache (s : State) (l : Nat) (x : Partner) : (setPartner s l x).cache = s.cache := rfl
@[simp] theorem setPartner_jade (s : State) (l : Nat) (x : Partner) : (setPartner s l x).jade = s.jade := rfl
@[simp] theorem setPartner_jet (s : State) (l : Nat) (x : Partner) : (setPartner s l x).jet = s.jet := rfl
@[simp] theorem setPartner_jtag (s : State) (l : Nat) (x : Partner) : (setPartner s l x).jtag = s.jtag := rfl
@[simp] theorem setPartner_hk (s : State) (l : Nat) (x : Partner) : (setPartner s l x).hk = s.hk := rfl
@[simp] theorem setPartner_tests (s : State) (l : Nat) (x : Partner) : (setPartner s l x).tests = s.tests := rfl
@[simp] theorem setPartner_sec (s : State) (l : Nat) (x : Partner) : (setPartner s l x).sec = s.sec := rfl
@[simp] theorem setPartner_pending (s : State) (l : Nat) (x : Partner) : (setPartner s l x).pending = s.pending := rfl

@[simp] theorem setFunc_part (s : State) (f : Nat) (x : Func) : (setFunc s f x).part = s.part := rfl
@[simp] theorem setFunc_clock (s : State) (f : Nat) (x : Func) : (setFunc s f x).clock = s.clock := rfl
@[simp] theorem setFunc_freeIx (s : State) (f : Nat) (x : Func) : (setFunc s f x).freeIx = s.freeIx := rfl
@[simp] theorem setFunc_nextId (s : State) (f : Nat) (x : Func) : (setFunc s f x).nextId = s.nextId := rfl
@[simp] theorem setFunc_out (s : State) (f : Nat) (x : Func) : (setFunc s f x).out = s.out := rfl
@[simp] theorem setFunc_phase (s : State) (f : Nat) (x : Func) : (setFunc s f x).phase = s.phase := rfl
@[simp] theorem setFunc_pins (s : State) (f : Nat) (x : Func) : (setFunc s f x).pins = s.pins := rfl
@[simp] theorem setFunc_moon (s : State) (f : Nat) (x : Func) : (setFunc s f x).moon = s.moon := rfl
@[simp] theorem setFunc_tiles (s : State) (f : Nat) (x : Func) : (setFunc s f x).tiles = s.tiles := rfl
@[simp] theorem setFunc_mesh (s : State) (f : Nat) (x : Func) : (setFunc s f x).mesh = s.mesh := rfl
@[simp] theorem setFunc_cmds (s : State) (f : Nat) (x : Func) : (setFunc s f x).cmds = s.cmds := rfl
@[simp] theorem setFunc_mcmds (s : State) (f : Nat) (x : Func) : (setFunc s f x).mcmds = s.mcmds := rfl
@[simp] theorem setFunc_fetches (s : State) (f : Nat) (x : Func) : (setFunc s f x).fetches = s.fetches := rfl
@[simp] theorem setFunc_destages (s : State) (f : Nat) (x : Func) : (setFunc s f x).destages = s.destages := rfl
@[simp] theorem setFunc_replays (s : State) (f : Nat) (x : Func) : (setFunc s f x).replays = s.replays := rfl
@[simp] theorem setFunc_maints (s : State) (f : Nat) (x : Func) : (setFunc s f x).maints = s.maints := rfl
@[simp] theorem setFunc_budget (s : State) (f : Nat) (x : Func) : (setFunc s f x).budget = s.budget := rfl
@[simp] theorem setFunc_cfg (s : State) (f : Nat) (x : Func) : (setFunc s f x).cfg = s.cfg := rfl
@[simp] theorem setFunc_flash (s : State) (f : Nat) (x : Func) : (setFunc s f x).flash = s.flash := rfl
@[simp] theorem setFunc_pools (s : State) (f : Nat) (x : Func) : (setFunc s f x).pools = s.pools := rfl
@[simp] theorem setFunc_vols (s : State) (f : Nat) (x : Func) : (setFunc s f x).vols = s.vols := rfl
@[simp] theorem setFunc_members (s : State) (f : Nat) (x : Func) : (setFunc s f x).members = s.members := rfl
@[simp] theorem setFunc_sbt (s : State) (f : Nat) (x : Func) : (setFunc s f x).sbt = s.sbt := rfl
@[simp] theorem setFunc_links (s : State) (f : Nat) (x : Func) : (setFunc s f x).links = s.links := rfl
@[simp] theorem setFunc_partners (s : State) (f : Nat) (x : Func) : (setFunc s f x).partners = s.partners := rfl
@[simp] theorem setFunc_sqs (s : State) (f : Nat) (x : Func) : (setFunc s f x).sqs = s.sqs := rfl
@[simp] theorem setFunc_cqs (s : State) (f : Nat) (x : Func) : (setFunc s f x).cqs = s.cqs := rfl
@[simp] theorem setFunc_live (s : State) (f : Nat) (x : Func) : (setFunc s f x).live = s.live := rfl
@[simp] theorem setFunc_mbx (s : State) (f : Nat) (x : Func) : (setFunc s f x).mbx = s.mbx := rfl
@[simp] theorem setFunc_cache (s : State) (f : Nat) (x : Func) : (setFunc s f x).cache = s.cache := rfl
@[simp] theorem setFunc_jade (s : State) (f : Nat) (x : Func) : (setFunc s f x).jade = s.jade := rfl
@[simp] theorem setFunc_jet (s : State) (f : Nat) (x : Func) : (setFunc s f x).jet = s.jet := rfl
@[simp] theorem setFunc_jtag (s : State) (f : Nat) (x : Func) : (setFunc s f x).jtag = s.jtag := rfl
@[simp] theorem setFunc_hk (s : State) (f : Nat) (x : Func) : (setFunc s f x).hk = s.hk := rfl
@[simp] theorem setFunc_tests (s : State) (f : Nat) (x : Func) : (setFunc s f x).tests = s.tests := rfl
@[simp] theorem setFunc_sec (s : State) (f : Nat) (x : Func) : (setFunc s f x).sec = s.sec := rfl
@[simp] theorem setFunc_pending (s : State) (f : Nat) (x : Func) : (setFunc s f x).pending = s.pending := rfl

@[simp] theorem setWindow_part (s : State) (w : Nat) (x : Window) : (setWindow s w x).part = s.part := rfl
@[simp] theorem setWindow_clock (s : State) (w : Nat) (x : Window) : (setWindow s w x).clock = s.clock := rfl
@[simp] theorem setWindow_freeIx (s : State) (w : Nat) (x : Window) : (setWindow s w x).freeIx = s.freeIx := rfl
@[simp] theorem setWindow_nextId (s : State) (w : Nat) (x : Window) : (setWindow s w x).nextId = s.nextId := rfl
@[simp] theorem setWindow_out (s : State) (w : Nat) (x : Window) : (setWindow s w x).out = s.out := rfl
@[simp] theorem setWindow_phase (s : State) (w : Nat) (x : Window) : (setWindow s w x).phase = s.phase := rfl
@[simp] theorem setWindow_pins (s : State) (w : Nat) (x : Window) : (setWindow s w x).pins = s.pins := rfl
@[simp] theorem setWindow_moon (s : State) (w : Nat) (x : Window) : (setWindow s w x).moon = s.moon := rfl
@[simp] theorem setWindow_tiles (s : State) (w : Nat) (x : Window) : (setWindow s w x).tiles = s.tiles := rfl
@[simp] theorem setWindow_mesh (s : State) (w : Nat) (x : Window) : (setWindow s w x).mesh = s.mesh := rfl
@[simp] theorem setWindow_cmds (s : State) (w : Nat) (x : Window) : (setWindow s w x).cmds = s.cmds := rfl
@[simp] theorem setWindow_mcmds (s : State) (w : Nat) (x : Window) : (setWindow s w x).mcmds = s.mcmds := rfl
@[simp] theorem setWindow_fetches (s : State) (w : Nat) (x : Window) : (setWindow s w x).fetches = s.fetches := rfl
@[simp] theorem setWindow_destages (s : State) (w : Nat) (x : Window) : (setWindow s w x).destages = s.destages := rfl
@[simp] theorem setWindow_replays (s : State) (w : Nat) (x : Window) : (setWindow s w x).replays = s.replays := rfl
@[simp] theorem setWindow_maints (s : State) (w : Nat) (x : Window) : (setWindow s w x).maints = s.maints := rfl
@[simp] theorem setWindow_budget (s : State) (w : Nat) (x : Window) : (setWindow s w x).budget = s.budget := rfl
@[simp] theorem setWindow_cfg (s : State) (w : Nat) (x : Window) : (setWindow s w x).cfg = s.cfg := rfl
@[simp] theorem setWindow_flash (s : State) (w : Nat) (x : Window) : (setWindow s w x).flash = s.flash := rfl
@[simp] theorem setWindow_pools (s : State) (w : Nat) (x : Window) : (setWindow s w x).pools = s.pools := rfl
@[simp] theorem setWindow_vols (s : State) (w : Nat) (x : Window) : (setWindow s w x).vols = s.vols := rfl
@[simp] theorem setWindow_members (s : State) (w : Nat) (x : Window) : (setWindow s w x).members = s.members := rfl
@[simp] theorem setWindow_sbt (s : State) (w : Nat) (x : Window) : (setWindow s w x).sbt = s.sbt := rfl
@[simp] theorem setWindow_links (s : State) (w : Nat) (x : Window) : (setWindow s w x).links = s.links := rfl
@[simp] theorem setWindow_partners (s : State) (w : Nat) (x : Window) : (setWindow s w x).partners = s.partners := rfl
@[simp] theorem setWindow_sqs (s : State) (w : Nat) (x : Window) : (setWindow s w x).sqs = s.sqs := rfl
@[simp] theorem setWindow_cqs (s : State) (w : Nat) (x : Window) : (setWindow s w x).cqs = s.cqs := rfl
@[simp] theorem setWindow_live (s : State) (w : Nat) (x : Window) : (setWindow s w x).live = s.live := rfl
@[simp] theorem setWindow_mbx (s : State) (w : Nat) (x : Window) : (setWindow s w x).mbx = s.mbx := rfl
@[simp] theorem setWindow_cache (s : State) (w : Nat) (x : Window) : (setWindow s w x).cache = s.cache := rfl
@[simp] theorem setWindow_jade (s : State) (w : Nat) (x : Window) : (setWindow s w x).jade = s.jade := rfl
@[simp] theorem setWindow_jet (s : State) (w : Nat) (x : Window) : (setWindow s w x).jet = s.jet := rfl
@[simp] theorem setWindow_jtag (s : State) (w : Nat) (x : Window) : (setWindow s w x).jtag = s.jtag := rfl
@[simp] theorem setWindow_hk (s : State) (w : Nat) (x : Window) : (setWindow s w x).hk = s.hk := rfl
@[simp] theorem setWindow_tests (s : State) (w : Nat) (x : Window) : (setWindow s w x).tests = s.tests := rfl
@[simp] theorem setWindow_sec (s : State) (w : Nat) (x : Window) : (setWindow s w x).sec = s.sec := rfl
@[simp] theorem setWindow_pending (s : State) (w : Nat) (x : Window) : (setWindow s w x).pending = s.pending := rfl

@[simp] theorem modPcie_part (s : State) (f : Pcie → Pcie) : (modPcie s f).part = s.part := rfl
@[simp] theorem modPcie_clock (s : State) (f : Pcie → Pcie) : (modPcie s f).clock = s.clock := rfl
@[simp] theorem modPcie_freeIx (s : State) (f : Pcie → Pcie) : (modPcie s f).freeIx = s.freeIx := rfl
@[simp] theorem modPcie_nextId (s : State) (f : Pcie → Pcie) : (modPcie s f).nextId = s.nextId := rfl
@[simp] theorem modPcie_out (s : State) (f : Pcie → Pcie) : (modPcie s f).out = s.out := rfl
@[simp] theorem modPcie_phase (s : State) (f : Pcie → Pcie) : (modPcie s f).phase = s.phase := rfl
@[simp] theorem modPcie_pins (s : State) (f : Pcie → Pcie) : (modPcie s f).pins = s.pins := rfl
@[simp] theorem modPcie_moon (s : State) (f : Pcie → Pcie) : (modPcie s f).moon = s.moon := rfl
@[simp] theorem modPcie_tiles (s : State) (f : Pcie → Pcie) : (modPcie s f).tiles = s.tiles := rfl
@[simp] theorem modPcie_mesh (s : State) (f : Pcie → Pcie) : (modPcie s f).mesh = s.mesh := rfl
@[simp] theorem modPcie_cmds (s : State) (f : Pcie → Pcie) : (modPcie s f).cmds = s.cmds := rfl
@[simp] theorem modPcie_mcmds (s : State) (f : Pcie → Pcie) : (modPcie s f).mcmds = s.mcmds := rfl
@[simp] theorem modPcie_fetches (s : State) (f : Pcie → Pcie) : (modPcie s f).fetches = s.fetches := rfl
@[simp] theorem modPcie_destages (s : State) (f : Pcie → Pcie) : (modPcie s f).destages = s.destages := rfl
@[simp] theorem modPcie_replays (s : State) (f : Pcie → Pcie) : (modPcie s f).replays = s.replays := rfl
@[simp] theorem modPcie_maints (s : State) (f : Pcie → Pcie) : (modPcie s f).maints = s.maints := rfl
@[simp] theorem modPcie_budget (s : State) (f : Pcie → Pcie) : (modPcie s f).budget = s.budget := rfl
@[simp] theorem modPcie_cfg (s : State) (f : Pcie → Pcie) : (modPcie s f).cfg = s.cfg := rfl
@[simp] theorem modPcie_flash (s : State) (f : Pcie → Pcie) : (modPcie s f).flash = s.flash := rfl
@[simp] theorem modPcie_pools (s : State) (f : Pcie → Pcie) : (modPcie s f).pools = s.pools := rfl
@[simp] theorem modPcie_vols (s : State) (f : Pcie → Pcie) : (modPcie s f).vols = s.vols := rfl
@[simp] theorem modPcie_members (s : State) (f : Pcie → Pcie) : (modPcie s f).members = s.members := rfl
@[simp] theorem modPcie_sbt (s : State) (f : Pcie → Pcie) : (modPcie s f).sbt = s.sbt := rfl
@[simp] theorem modPcie_links (s : State) (f : Pcie → Pcie) : (modPcie s f).links = s.links := rfl
@[simp] theorem modPcie_partners (s : State) (f : Pcie → Pcie) : (modPcie s f).partners = s.partners := rfl
@[simp] theorem modPcie_sqs (s : State) (f : Pcie → Pcie) : (modPcie s f).sqs = s.sqs := rfl
@[simp] theorem modPcie_cqs (s : State) (f : Pcie → Pcie) : (modPcie s f).cqs = s.cqs := rfl
@[simp] theorem modPcie_live (s : State) (f : Pcie → Pcie) : (modPcie s f).live = s.live := rfl
@[simp] theorem modPcie_mbx (s : State) (f : Pcie → Pcie) : (modPcie s f).mbx = s.mbx := rfl
@[simp] theorem modPcie_cache (s : State) (f : Pcie → Pcie) : (modPcie s f).cache = s.cache := rfl
@[simp] theorem modPcie_jade (s : State) (f : Pcie → Pcie) : (modPcie s f).jade = s.jade := rfl
@[simp] theorem modPcie_jet (s : State) (f : Pcie → Pcie) : (modPcie s f).jet = s.jet := rfl
@[simp] theorem modPcie_jtag (s : State) (f : Pcie → Pcie) : (modPcie s f).jtag = s.jtag := rfl
@[simp] theorem modPcie_hk (s : State) (f : Pcie → Pcie) : (modPcie s f).hk = s.hk := rfl
@[simp] theorem modPcie_tests (s : State) (f : Pcie → Pcie) : (modPcie s f).tests = s.tests := rfl
@[simp] theorem modPcie_sec (s : State) (f : Pcie → Pcie) : (modPcie s f).sec = s.sec := rfl
@[simp] theorem modPcie_pending (s : State) (f : Pcie → Pcie) : (modPcie s f).pending = s.pending := rfl

@[simp] theorem setSq_part (s : State) (n : Nat) (x : Sq) : (setSq s n x).part = s.part := rfl
@[simp] theorem setSq_clock (s : State) (n : Nat) (x : Sq) : (setSq s n x).clock = s.clock := rfl
@[simp] theorem setSq_freeIx (s : State) (n : Nat) (x : Sq) : (setSq s n x).freeIx = s.freeIx := rfl
@[simp] theorem setSq_nextId (s : State) (n : Nat) (x : Sq) : (setSq s n x).nextId = s.nextId := rfl
@[simp] theorem setSq_out (s : State) (n : Nat) (x : Sq) : (setSq s n x).out = s.out := rfl
@[simp] theorem setSq_phase (s : State) (n : Nat) (x : Sq) : (setSq s n x).phase = s.phase := rfl
@[simp] theorem setSq_pins (s : State) (n : Nat) (x : Sq) : (setSq s n x).pins = s.pins := rfl
@[simp] theorem setSq_moon (s : State) (n : Nat) (x : Sq) : (setSq s n x).moon = s.moon := rfl
@[simp] theorem setSq_tiles (s : State) (n : Nat) (x : Sq) : (setSq s n x).tiles = s.tiles := rfl
@[simp] theorem setSq_mesh (s : State) (n : Nat) (x : Sq) : (setSq s n x).mesh = s.mesh := rfl
@[simp] theorem setSq_cmds (s : State) (n : Nat) (x : Sq) : (setSq s n x).cmds = s.cmds := rfl
@[simp] theorem setSq_mcmds (s : State) (n : Nat) (x : Sq) : (setSq s n x).mcmds = s.mcmds := rfl
@[simp] theorem setSq_fetches (s : State) (n : Nat) (x : Sq) : (setSq s n x).fetches = s.fetches := rfl
@[simp] theorem setSq_destages (s : State) (n : Nat) (x : Sq) : (setSq s n x).destages = s.destages := rfl
@[simp] theorem setSq_replays (s : State) (n : Nat) (x : Sq) : (setSq s n x).replays = s.replays := rfl
@[simp] theorem setSq_maints (s : State) (n : Nat) (x : Sq) : (setSq s n x).maints = s.maints := rfl
@[simp] theorem setSq_budget (s : State) (n : Nat) (x : Sq) : (setSq s n x).budget = s.budget := rfl
@[simp] theorem setSq_cfg (s : State) (n : Nat) (x : Sq) : (setSq s n x).cfg = s.cfg := rfl
@[simp] theorem setSq_flash (s : State) (n : Nat) (x : Sq) : (setSq s n x).flash = s.flash := rfl
@[simp] theorem setSq_pools (s : State) (n : Nat) (x : Sq) : (setSq s n x).pools = s.pools := rfl
@[simp] theorem setSq_vols (s : State) (n : Nat) (x : Sq) : (setSq s n x).vols = s.vols := rfl
@[simp] theorem setSq_members (s : State) (n : Nat) (x : Sq) : (setSq s n x).members = s.members := rfl
@[simp] theorem setSq_sbt (s : State) (n : Nat) (x : Sq) : (setSq s n x).sbt = s.sbt := rfl
@[simp] theorem setSq_links (s : State) (n : Nat) (x : Sq) : (setSq s n x).links = s.links := rfl
@[simp] theorem setSq_partners (s : State) (n : Nat) (x : Sq) : (setSq s n x).partners = s.partners := rfl
@[simp] theorem setSq_pcie (s : State) (n : Nat) (x : Sq) : (setSq s n x).pcie = s.pcie := rfl
@[simp] theorem setSq_cqs (s : State) (n : Nat) (x : Sq) : (setSq s n x).cqs = s.cqs := rfl
@[simp] theorem setSq_live (s : State) (n : Nat) (x : Sq) : (setSq s n x).live = s.live := rfl
@[simp] theorem setSq_mbx (s : State) (n : Nat) (x : Sq) : (setSq s n x).mbx = s.mbx := rfl
@[simp] theorem setSq_cache (s : State) (n : Nat) (x : Sq) : (setSq s n x).cache = s.cache := rfl
@[simp] theorem setSq_jade (s : State) (n : Nat) (x : Sq) : (setSq s n x).jade = s.jade := rfl
@[simp] theorem setSq_jet (s : State) (n : Nat) (x : Sq) : (setSq s n x).jet = s.jet := rfl
@[simp] theorem setSq_jtag (s : State) (n : Nat) (x : Sq) : (setSq s n x).jtag = s.jtag := rfl
@[simp] theorem setSq_hk (s : State) (n : Nat) (x : Sq) : (setSq s n x).hk = s.hk := rfl
@[simp] theorem setSq_tests (s : State) (n : Nat) (x : Sq) : (setSq s n x).tests = s.tests := rfl
@[simp] theorem setSq_sec (s : State) (n : Nat) (x : Sq) : (setSq s n x).sec = s.sec := rfl
@[simp] theorem setSq_pending (s : State) (n : Nat) (x : Sq) : (setSq s n x).pending = s.pending := rfl

@[simp] theorem setCq_part (s : State) (n : Nat) (x : Cq) : (setCq s n x).part = s.part := rfl
@[simp] theorem setCq_clock (s : State) (n : Nat) (x : Cq) : (setCq s n x).clock = s.clock := rfl
@[simp] theorem setCq_freeIx (s : State) (n : Nat) (x : Cq) : (setCq s n x).freeIx = s.freeIx := rfl
@[simp] theorem setCq_nextId (s : State) (n : Nat) (x : Cq) : (setCq s n x).nextId = s.nextId := rfl
@[simp] theorem setCq_out (s : State) (n : Nat) (x : Cq) : (setCq s n x).out = s.out := rfl
@[simp] theorem setCq_phase (s : State) (n : Nat) (x : Cq) : (setCq s n x).phase = s.phase := rfl
@[simp] theorem setCq_pins (s : State) (n : Nat) (x : Cq) : (setCq s n x).pins = s.pins := rfl
@[simp] theorem setCq_moon (s : State) (n : Nat) (x : Cq) : (setCq s n x).moon = s.moon := rfl
@[simp] theorem setCq_tiles (s : State) (n : Nat) (x : Cq) : (setCq s n x).tiles = s.tiles := rfl
@[simp] theorem setCq_mesh (s : State) (n : Nat) (x : Cq) : (setCq s n x).mesh = s.mesh := rfl
@[simp] theorem setCq_cmds (s : State) (n : Nat) (x : Cq) : (setCq s n x).cmds = s.cmds := rfl
@[simp] theorem setCq_mcmds (s : State) (n : Nat) (x : Cq) : (setCq s n x).mcmds = s.mcmds := rfl
@[simp] theorem setCq_fetches (s : State) (n : Nat) (x : Cq) : (setCq s n x).fetches = s.fetches := rfl
@[simp] theorem setCq_destages (s : State) (n : Nat) (x : Cq) : (setCq s n x).destages = s.destages := rfl
@[simp] theorem setCq_replays (s : State) (n : Nat) (x : Cq) : (setCq s n x).replays = s.replays := rfl
@[simp] theorem setCq_maints (s : State) (n : Nat) (x : Cq) : (setCq s n x).maints = s.maints := rfl
@[simp] theorem setCq_budget (s : State) (n : Nat) (x : Cq) : (setCq s n x).budget = s.budget := rfl
@[simp] theorem setCq_cfg (s : State) (n : Nat) (x : Cq) : (setCq s n x).cfg = s.cfg := rfl
@[simp] theorem setCq_flash (s : State) (n : Nat) (x : Cq) : (setCq s n x).flash = s.flash := rfl
@[simp] theorem setCq_pools (s : State) (n : Nat) (x : Cq) : (setCq s n x).pools = s.pools := rfl
@[simp] theorem setCq_vols (s : State) (n : Nat) (x : Cq) : (setCq s n x).vols = s.vols := rfl
@[simp] theorem setCq_members (s : State) (n : Nat) (x : Cq) : (setCq s n x).members = s.members := rfl
@[simp] theorem setCq_sbt (s : State) (n : Nat) (x : Cq) : (setCq s n x).sbt = s.sbt := rfl
@[simp] theorem setCq_links (s : State) (n : Nat) (x : Cq) : (setCq s n x).links = s.links := rfl
@[simp] theorem setCq_partners (s : State) (n : Nat) (x : Cq) : (setCq s n x).partners = s.partners := rfl
@[simp] theorem setCq_pcie (s : State) (n : Nat) (x : Cq) : (setCq s n x).pcie = s.pcie := rfl
@[simp] theorem setCq_sqs (s : State) (n : Nat) (x : Cq) : (setCq s n x).sqs = s.sqs := rfl
@[simp] theorem setCq_live (s : State) (n : Nat) (x : Cq) : (setCq s n x).live = s.live := rfl
@[simp] theorem setCq_mbx (s : State) (n : Nat) (x : Cq) : (setCq s n x).mbx = s.mbx := rfl
@[simp] theorem setCq_cache (s : State) (n : Nat) (x : Cq) : (setCq s n x).cache = s.cache := rfl
@[simp] theorem setCq_jade (s : State) (n : Nat) (x : Cq) : (setCq s n x).jade = s.jade := rfl
@[simp] theorem setCq_jet (s : State) (n : Nat) (x : Cq) : (setCq s n x).jet = s.jet := rfl
@[simp] theorem setCq_jtag (s : State) (n : Nat) (x : Cq) : (setCq s n x).jtag = s.jtag := rfl
@[simp] theorem setCq_hk (s : State) (n : Nat) (x : Cq) : (setCq s n x).hk = s.hk := rfl
@[simp] theorem setCq_tests (s : State) (n : Nat) (x : Cq) : (setCq s n x).tests = s.tests := rfl
@[simp] theorem setCq_sec (s : State) (n : Nat) (x : Cq) : (setCq s n x).sec = s.sec := rfl
@[simp] theorem setCq_pending (s : State) (n : Nat) (x : Cq) : (setCq s n x).pending = s.pending := rfl

@[simp] theorem setMbx_part (s : State) (n : Nat) (x : Mailbox) : (setMbx s n x).part = s.part := rfl
@[simp] theorem setMbx_clock (s : State) (n : Nat) (x : Mailbox) : (setMbx s n x).clock = s.clock := rfl
@[simp] theorem setMbx_freeIx (s : State) (n : Nat) (x : Mailbox) : (setMbx s n x).freeIx = s.freeIx := rfl
@[simp] theorem setMbx_nextId (s : State) (n : Nat) (x : Mailbox) : (setMbx s n x).nextId = s.nextId := rfl
@[simp] theorem setMbx_out (s : State) (n : Nat) (x : Mailbox) : (setMbx s n x).out = s.out := rfl
@[simp] theorem setMbx_phase (s : State) (n : Nat) (x : Mailbox) : (setMbx s n x).phase = s.phase := rfl
@[simp] theorem setMbx_pins (s : State) (n : Nat) (x : Mailbox) : (setMbx s n x).pins = s.pins := rfl
@[simp] theorem setMbx_moon (s : State) (n : Nat) (x : Mailbox) : (setMbx s n x).moon = s.moon := rfl
@[simp] theorem setMbx_tiles (s : State) (n : Nat) (x : Mailbox) : (setMbx s n x).tiles = s.tiles := rfl
@[simp] theorem setMbx_mesh (s : State) (n : Nat) (x : Mailbox) : (setMbx s n x).mesh = s.mesh := rfl
@[simp] theorem setMbx_cmds (s : State) (n : Nat) (x : Mailbox) : (setMbx s n x).cmds = s.cmds := rfl
@[simp] theorem setMbx_mcmds (s : State) (n : Nat) (x : Mailbox) : (setMbx s n x).mcmds = s.mcmds := rfl
@[simp] theorem setMbx_fetches (s : State) (n : Nat) (x : Mailbox) : (setMbx s n x).fetches = s.fetches := rfl
@[simp] theorem setMbx_destages (s : State) (n : Nat) (x : Mailbox) : (setMbx s n x).destages = s.destages := rfl
@[simp] theorem setMbx_replays (s : State) (n : Nat) (x : Mailbox) : (setMbx s n x).replays = s.replays := rfl
@[simp] theorem setMbx_maints (s : State) (n : Nat) (x : Mailbox) : (setMbx s n x).maints = s.maints := rfl
@[simp] theorem setMbx_budget (s : State) (n : Nat) (x : Mailbox) : (setMbx s n x).budget = s.budget := rfl
@[simp] theorem setMbx_cfg (s : State) (n : Nat) (x : Mailbox) : (setMbx s n x).cfg = s.cfg := rfl
@[simp] theorem setMbx_flash (s : State) (n : Nat) (x : Mailbox) : (setMbx s n x).flash = s.flash := rfl
@[simp] theorem setMbx_pools (s : State) (n : Nat) (x : Mailbox) : (setMbx s n x).pools = s.pools := rfl
@[simp] theorem setMbx_vols (s : State) (n : Nat) (x : Mailbox) : (setMbx s n x).vols = s.vols := rfl
@[simp] theorem setMbx_members (s : State) (n : Nat) (x : Mailbox) : (setMbx s n x).members = s.members := rfl
@[simp] theorem setMbx_sbt (s : State) (n : Nat) (x : Mailbox) : (setMbx s n x).sbt = s.sbt := rfl
@[simp] theorem setMbx_links (s : State) (n : Nat) (x : Mailbox) : (setMbx s n x).links = s.links := rfl
@[simp] theorem setMbx_partners (s : State) (n : Nat) (x : Mailbox) : (setMbx s n x).partners = s.partners := rfl
@[simp] theorem setMbx_pcie (s : State) (n : Nat) (x : Mailbox) : (setMbx s n x).pcie = s.pcie := rfl
@[simp] theorem setMbx_sqs (s : State) (n : Nat) (x : Mailbox) : (setMbx s n x).sqs = s.sqs := rfl
@[simp] theorem setMbx_cqs (s : State) (n : Nat) (x : Mailbox) : (setMbx s n x).cqs = s.cqs := rfl
@[simp] theorem setMbx_live (s : State) (n : Nat) (x : Mailbox) : (setMbx s n x).live = s.live := rfl
@[simp] theorem setMbx_cache (s : State) (n : Nat) (x : Mailbox) : (setMbx s n x).cache = s.cache := rfl
@[simp] theorem setMbx_jade (s : State) (n : Nat) (x : Mailbox) : (setMbx s n x).jade = s.jade := rfl
@[simp] theorem setMbx_jet (s : State) (n : Nat) (x : Mailbox) : (setMbx s n x).jet = s.jet := rfl
@[simp] theorem setMbx_jtag (s : State) (n : Nat) (x : Mailbox) : (setMbx s n x).jtag = s.jtag := rfl
@[simp] theorem setMbx_hk (s : State) (n : Nat) (x : Mailbox) : (setMbx s n x).hk = s.hk := rfl
@[simp] theorem setMbx_tests (s : State) (n : Nat) (x : Mailbox) : (setMbx s n x).tests = s.tests := rfl
@[simp] theorem setMbx_sec (s : State) (n : Nat) (x : Mailbox) : (setMbx s n x).sec = s.sec := rfl
@[simp] theorem setMbx_pending (s : State) (n : Nat) (x : Mailbox) : (setMbx s n x).pending = s.pending := rfl

@[simp] theorem setSlice_part (s : State) (t : Nat) (x : HkSlice) : (setSlice s t x).part = s.part := rfl
@[simp] theorem setSlice_clock (s : State) (t : Nat) (x : HkSlice) : (setSlice s t x).clock = s.clock := rfl
@[simp] theorem setSlice_freeIx (s : State) (t : Nat) (x : HkSlice) : (setSlice s t x).freeIx = s.freeIx := rfl
@[simp] theorem setSlice_nextId (s : State) (t : Nat) (x : HkSlice) : (setSlice s t x).nextId = s.nextId := rfl
@[simp] theorem setSlice_out (s : State) (t : Nat) (x : HkSlice) : (setSlice s t x).out = s.out := rfl
@[simp] theorem setSlice_phase (s : State) (t : Nat) (x : HkSlice) : (setSlice s t x).phase = s.phase := rfl
@[simp] theorem setSlice_pins (s : State) (t : Nat) (x : HkSlice) : (setSlice s t x).pins = s.pins := rfl
@[simp] theorem setSlice_moon (s : State) (t : Nat) (x : HkSlice) : (setSlice s t x).moon = s.moon := rfl
@[simp] theorem setSlice_tiles (s : State) (t : Nat) (x : HkSlice) : (setSlice s t x).tiles = s.tiles := rfl
@[simp] theorem setSlice_mesh (s : State) (t : Nat) (x : HkSlice) : (setSlice s t x).mesh = s.mesh := rfl
@[simp] theorem setSlice_cmds (s : State) (t : Nat) (x : HkSlice) : (setSlice s t x).cmds = s.cmds := rfl
@[simp] theorem setSlice_mcmds (s : State) (t : Nat) (x : HkSlice) : (setSlice s t x).mcmds = s.mcmds := rfl
@[simp] theorem setSlice_fetches (s : State) (t : Nat) (x : HkSlice) : (setSlice s t x).fetches = s.fetches := rfl
@[simp] theorem setSlice_destages (s : State) (t : Nat) (x : HkSlice) : (setSlice s t x).destages = s.destages := rfl
@[simp] theorem setSlice_replays (s : State) (t : Nat) (x : HkSlice) : (setSlice s t x).replays = s.replays := rfl
@[simp] theorem setSlice_maints (s : State) (t : Nat) (x : HkSlice) : (setSlice s t x).maints = s.maints := rfl
@[simp] theorem setSlice_budget (s : State) (t : Nat) (x : HkSlice) : (setSlice s t x).budget = s.budget := rfl
@[simp] theorem setSlice_cfg (s : State) (t : Nat) (x : HkSlice) : (setSlice s t x).cfg = s.cfg := rfl
@[simp] theorem setSlice_flash (s : State) (t : Nat) (x : HkSlice) : (setSlice s t x).flash = s.flash := rfl
@[simp] theorem setSlice_pools (s : State) (t : Nat) (x : HkSlice) : (setSlice s t x).pools = s.pools := rfl
@[simp] theorem setSlice_vols (s : State) (t : Nat) (x : HkSlice) : (setSlice s t x).vols = s.vols := rfl
@[simp] theorem setSlice_members (s : State) (t : Nat) (x : HkSlice) : (setSlice s t x).members = s.members := rfl
@[simp] theorem setSlice_sbt (s : State) (t : Nat) (x : HkSlice) : (setSlice s t x).sbt = s.sbt := rfl
@[simp] theorem setSlice_links (s : State) (t : Nat) (x : HkSlice) : (setSlice s t x).links = s.links := rfl
@[simp] theorem setSlice_partners (s : State) (t : Nat) (x : HkSlice) : (setSlice s t x).partners = s.partners := rfl
@[simp] theorem setSlice_pcie (s : State) (t : Nat) (x : HkSlice) : (setSlice s t x).pcie = s.pcie := rfl
@[simp] theorem setSlice_sqs (s : State) (t : Nat) (x : HkSlice) : (setSlice s t x).sqs = s.sqs := rfl
@[simp] theorem setSlice_cqs (s : State) (t : Nat) (x : HkSlice) : (setSlice s t x).cqs = s.cqs := rfl
@[simp] theorem setSlice_live (s : State) (t : Nat) (x : HkSlice) : (setSlice s t x).live = s.live := rfl
@[simp] theorem setSlice_mbx (s : State) (t : Nat) (x : HkSlice) : (setSlice s t x).mbx = s.mbx := rfl
@[simp] theorem setSlice_cache (s : State) (t : Nat) (x : HkSlice) : (setSlice s t x).cache = s.cache := rfl
@[simp] theorem setSlice_jade (s : State) (t : Nat) (x : HkSlice) : (setSlice s t x).jade = s.jade := rfl
@[simp] theorem setSlice_jet (s : State) (t : Nat) (x : HkSlice) : (setSlice s t x).jet = s.jet := rfl
@[simp] theorem setSlice_jtag (s : State) (t : Nat) (x : HkSlice) : (setSlice s t x).jtag = s.jtag := rfl
@[simp] theorem setSlice_tests (s : State) (t : Nat) (x : HkSlice) : (setSlice s t x).tests = s.tests := rfl
@[simp] theorem setSlice_sec (s : State) (t : Nat) (x : HkSlice) : (setSlice s t x).sec = s.sec := rfl
@[simp] theorem setSlice_pending (s : State) (t : Nat) (x : HkSlice) : (setSlice s t x).pending = s.pending := rfl

@[simp] theorem modCmd_part (s : State) (i : Nat) (f : Cmd → Cmd) : (modCmd s i f).part = s.part := rfl
@[simp] theorem modCmd_clock (s : State) (i : Nat) (f : Cmd → Cmd) : (modCmd s i f).clock = s.clock := rfl
@[simp] theorem modCmd_freeIx (s : State) (i : Nat) (f : Cmd → Cmd) : (modCmd s i f).freeIx = s.freeIx := rfl
@[simp] theorem modCmd_nextId (s : State) (i : Nat) (f : Cmd → Cmd) : (modCmd s i f).nextId = s.nextId := rfl
@[simp] theorem modCmd_out (s : State) (i : Nat) (f : Cmd → Cmd) : (modCmd s i f).out = s.out := rfl
@[simp] theorem modCmd_phase (s : State) (i : Nat) (f : Cmd → Cmd) : (modCmd s i f).phase = s.phase := rfl
@[simp] theorem modCmd_pins (s : State) (i : Nat) (f : Cmd → Cmd) : (modCmd s i f).pins = s.pins := rfl
@[simp] theorem modCmd_moon (s : State) (i : Nat) (f : Cmd → Cmd) : (modCmd s i f).moon = s.moon := rfl
@[simp] theorem modCmd_tiles (s : State) (i : Nat) (f : Cmd → Cmd) : (modCmd s i f).tiles = s.tiles := rfl
@[simp] theorem modCmd_mesh (s : State) (i : Nat) (f : Cmd → Cmd) : (modCmd s i f).mesh = s.mesh := rfl
@[simp] theorem modCmd_mcmds (s : State) (i : Nat) (f : Cmd → Cmd) : (modCmd s i f).mcmds = s.mcmds := rfl
@[simp] theorem modCmd_fetches (s : State) (i : Nat) (f : Cmd → Cmd) : (modCmd s i f).fetches = s.fetches := rfl
@[simp] theorem modCmd_destages (s : State) (i : Nat) (f : Cmd → Cmd) : (modCmd s i f).destages = s.destages := rfl
@[simp] theorem modCmd_replays (s : State) (i : Nat) (f : Cmd → Cmd) : (modCmd s i f).replays = s.replays := rfl
@[simp] theorem modCmd_maints (s : State) (i : Nat) (f : Cmd → Cmd) : (modCmd s i f).maints = s.maints := rfl
@[simp] theorem modCmd_budget (s : State) (i : Nat) (f : Cmd → Cmd) : (modCmd s i f).budget = s.budget := rfl
@[simp] theorem modCmd_cfg (s : State) (i : Nat) (f : Cmd → Cmd) : (modCmd s i f).cfg = s.cfg := rfl
@[simp] theorem modCmd_flash (s : State) (i : Nat) (f : Cmd → Cmd) : (modCmd s i f).flash = s.flash := rfl
@[simp] theorem modCmd_pools (s : State) (i : Nat) (f : Cmd → Cmd) : (modCmd s i f).pools = s.pools := rfl
@[simp] theorem modCmd_vols (s : State) (i : Nat) (f : Cmd → Cmd) : (modCmd s i f).vols = s.vols := rfl
@[simp] theorem modCmd_members (s : State) (i : Nat) (f : Cmd → Cmd) : (modCmd s i f).members = s.members := rfl
@[simp] theorem modCmd_sbt (s : State) (i : Nat) (f : Cmd → Cmd) : (modCmd s i f).sbt = s.sbt := rfl
@[simp] theorem modCmd_links (s : State) (i : Nat) (f : Cmd → Cmd) : (modCmd s i f).links = s.links := rfl
@[simp] theorem modCmd_partners (s : State) (i : Nat) (f : Cmd → Cmd) : (modCmd s i f).partners = s.partners := rfl
@[simp] theorem modCmd_pcie (s : State) (i : Nat) (f : Cmd → Cmd) : (modCmd s i f).pcie = s.pcie := rfl
@[simp] theorem modCmd_sqs (s : State) (i : Nat) (f : Cmd → Cmd) : (modCmd s i f).sqs = s.sqs := rfl
@[simp] theorem modCmd_cqs (s : State) (i : Nat) (f : Cmd → Cmd) : (modCmd s i f).cqs = s.cqs := rfl
@[simp] theorem modCmd_live (s : State) (i : Nat) (f : Cmd → Cmd) : (modCmd s i f).live = s.live := rfl
@[simp] theorem modCmd_mbx (s : State) (i : Nat) (f : Cmd → Cmd) : (modCmd s i f).mbx = s.mbx := rfl
@[simp] theorem modCmd_cache (s : State) (i : Nat) (f : Cmd → Cmd) : (modCmd s i f).cache = s.cache := rfl
@[simp] theorem modCmd_jade (s : State) (i : Nat) (f : Cmd → Cmd) : (modCmd s i f).jade = s.jade := rfl
@[simp] theorem modCmd_jet (s : State) (i : Nat) (f : Cmd → Cmd) : (modCmd s i f).jet = s.jet := rfl
@[simp] theorem modCmd_jtag (s : State) (i : Nat) (f : Cmd → Cmd) : (modCmd s i f).jtag = s.jtag := rfl
@[simp] theorem modCmd_hk (s : State) (i : Nat) (f : Cmd → Cmd) : (modCmd s i f).hk = s.hk := rfl
@[simp] theorem modCmd_tests (s : State) (i : Nat) (f : Cmd → Cmd) : (modCmd s i f).tests = s.tests := rfl
@[simp] theorem modCmd_sec (s : State) (i : Nat) (f : Cmd → Cmd) : (modCmd s i f).sec = s.sec := rfl
@[simp] theorem modCmd_pending (s : State) (i : Nat) (f : Cmd → Cmd) : (modCmd s i f).pending = s.pending := rfl

@[simp] theorem dropCmd_part (s : State) (i : Nat) : (dropCmd s i).part = s.part := rfl
@[simp] theorem dropCmd_clock (s : State) (i : Nat) : (dropCmd s i).clock = s.clock := rfl
@[simp] theorem dropCmd_freeIx (s : State) (i : Nat) : (dropCmd s i).freeIx = s.freeIx := rfl
@[simp] theorem dropCmd_nextId (s : State) (i : Nat) : (dropCmd s i).nextId = s.nextId := rfl
@[simp] theorem dropCmd_out (s : State) (i : Nat) : (dropCmd s i).out = s.out := rfl
@[simp] theorem dropCmd_phase (s : State) (i : Nat) : (dropCmd s i).phase = s.phase := rfl
@[simp] theorem dropCmd_pins (s : State) (i : Nat) : (dropCmd s i).pins = s.pins := rfl
@[simp] theorem dropCmd_moon (s : State) (i : Nat) : (dropCmd s i).moon = s.moon := rfl
@[simp] theorem dropCmd_tiles (s : State) (i : Nat) : (dropCmd s i).tiles = s.tiles := rfl
@[simp] theorem dropCmd_mesh (s : State) (i : Nat) : (dropCmd s i).mesh = s.mesh := rfl
@[simp] theorem dropCmd_mcmds (s : State) (i : Nat) : (dropCmd s i).mcmds = s.mcmds := rfl
@[simp] theorem dropCmd_fetches (s : State) (i : Nat) : (dropCmd s i).fetches = s.fetches := rfl
@[simp] theorem dropCmd_destages (s : State) (i : Nat) : (dropCmd s i).destages = s.destages := rfl
@[simp] theorem dropCmd_replays (s : State) (i : Nat) : (dropCmd s i).replays = s.replays := rfl
@[simp] theorem dropCmd_maints (s : State) (i : Nat) : (dropCmd s i).maints = s.maints := rfl
@[simp] theorem dropCmd_budget (s : State) (i : Nat) : (dropCmd s i).budget = s.budget := rfl
@[simp] theorem dropCmd_cfg (s : State) (i : Nat) : (dropCmd s i).cfg = s.cfg := rfl
@[simp] theorem dropCmd_flash (s : State) (i : Nat) : (dropCmd s i).flash = s.flash := rfl
@[simp] theorem dropCmd_pools (s : State) (i : Nat) : (dropCmd s i).pools = s.pools := rfl
@[simp] theorem dropCmd_vols (s : State) (i : Nat) : (dropCmd s i).vols = s.vols := rfl
@[simp] theorem dropCmd_members (s : State) (i : Nat) : (dropCmd s i).members = s.members := rfl
@[simp] theorem dropCmd_sbt (s : State) (i : Nat) : (dropCmd s i).sbt = s.sbt := rfl
@[simp] theorem dropCmd_links (s : State) (i : Nat) : (dropCmd s i).links = s.links := rfl
@[simp] theorem dropCmd_partners (s : State) (i : Nat) : (dropCmd s i).partners = s.partners := rfl
@[simp] theorem dropCmd_pcie (s : State) (i : Nat) : (dropCmd s i).pcie = s.pcie := rfl
@[simp] theorem dropCmd_sqs (s : State) (i : Nat) : (dropCmd s i).sqs = s.sqs := rfl
@[simp] theorem dropCmd_cqs (s : State) (i : Nat) : (dropCmd s i).cqs = s.cqs := rfl
@[simp] theorem dropCmd_live (s : State) (i : Nat) : (dropCmd s i).live = s.live := rfl
@[simp] theorem dropCmd_mbx (s : State) (i : Nat) : (dropCmd s i).mbx = s.mbx := rfl
@[simp] theorem dropCmd_cache (s : State) (i : Nat) : (dropCmd s i).cache = s.cache := rfl
@[simp] theorem dropCmd_jade (s : State) (i : Nat) : (dropCmd s i).jade = s.jade := rfl
@[simp] theorem dropCmd_jet (s : State) (i : Nat) : (dropCmd s i).jet = s.jet := rfl
@[simp] theorem dropCmd_jtag (s : State) (i : Nat) : (dropCmd s i).jtag = s.jtag := rfl
@[simp] theorem dropCmd_hk (s : State) (i : Nat) : (dropCmd s i).hk = s.hk := rfl
@[simp] theorem dropCmd_tests (s : State) (i : Nat) : (dropCmd s i).tests = s.tests := rfl
@[simp] theorem dropCmd_sec (s : State) (i : Nat) : (dropCmd s i).sec = s.sec := rfl
@[simp] theorem dropCmd_pending (s : State) (i : Nat) : (dropCmd s i).pending = s.pending := rfl

@[simp] theorem modLive_part (s : State) (i : Nat) (f : Live → Live) : (modLive s i f).part = s.part := rfl
@[simp] theorem modLive_clock (s : State) (i : Nat) (f : Live → Live) : (modLive s i f).clock = s.clock := rfl
@[simp] theorem modLive_freeIx (s : State) (i : Nat) (f : Live → Live) : (modLive s i f).freeIx = s.freeIx := rfl
@[simp] theorem modLive_nextId (s : State) (i : Nat) (f : Live → Live) : (modLive s i f).nextId = s.nextId := rfl
@[simp] theorem modLive_out (s : State) (i : Nat) (f : Live → Live) : (modLive s i f).out = s.out := rfl
@[simp] theorem modLive_phase (s : State) (i : Nat) (f : Live → Live) : (modLive s i f).phase = s.phase := rfl
@[simp] theorem modLive_pins (s : State) (i : Nat) (f : Live → Live) : (modLive s i f).pins = s.pins := rfl
@[simp] theorem modLive_moon (s : State) (i : Nat) (f : Live → Live) : (modLive s i f).moon = s.moon := rfl
@[simp] theorem modLive_tiles (s : State) (i : Nat) (f : Live → Live) : (modLive s i f).tiles = s.tiles := rfl
@[simp] theorem modLive_mesh (s : State) (i : Nat) (f : Live → Live) : (modLive s i f).mesh = s.mesh := rfl
@[simp] theorem modLive_cmds (s : State) (i : Nat) (f : Live → Live) : (modLive s i f).cmds = s.cmds := rfl
@[simp] theorem modLive_mcmds (s : State) (i : Nat) (f : Live → Live) : (modLive s i f).mcmds = s.mcmds := rfl
@[simp] theorem modLive_fetches (s : State) (i : Nat) (f : Live → Live) : (modLive s i f).fetches = s.fetches := rfl
@[simp] theorem modLive_destages (s : State) (i : Nat) (f : Live → Live) : (modLive s i f).destages = s.destages := rfl
@[simp] theorem modLive_replays (s : State) (i : Nat) (f : Live → Live) : (modLive s i f).replays = s.replays := rfl
@[simp] theorem modLive_maints (s : State) (i : Nat) (f : Live → Live) : (modLive s i f).maints = s.maints := rfl
@[simp] theorem modLive_budget (s : State) (i : Nat) (f : Live → Live) : (modLive s i f).budget = s.budget := rfl
@[simp] theorem modLive_cfg (s : State) (i : Nat) (f : Live → Live) : (modLive s i f).cfg = s.cfg := rfl
@[simp] theorem modLive_flash (s : State) (i : Nat) (f : Live → Live) : (modLive s i f).flash = s.flash := rfl
@[simp] theorem modLive_pools (s : State) (i : Nat) (f : Live → Live) : (modLive s i f).pools = s.pools := rfl
@[simp] theorem modLive_vols (s : State) (i : Nat) (f : Live → Live) : (modLive s i f).vols = s.vols := rfl
@[simp] theorem modLive_members (s : State) (i : Nat) (f : Live → Live) : (modLive s i f).members = s.members := rfl
@[simp] theorem modLive_sbt (s : State) (i : Nat) (f : Live → Live) : (modLive s i f).sbt = s.sbt := rfl
@[simp] theorem modLive_links (s : State) (i : Nat) (f : Live → Live) : (modLive s i f).links = s.links := rfl
@[simp] theorem modLive_partners (s : State) (i : Nat) (f : Live → Live) : (modLive s i f).partners = s.partners := rfl
@[simp] theorem modLive_pcie (s : State) (i : Nat) (f : Live → Live) : (modLive s i f).pcie = s.pcie := rfl
@[simp] theorem modLive_sqs (s : State) (i : Nat) (f : Live → Live) : (modLive s i f).sqs = s.sqs := rfl
@[simp] theorem modLive_cqs (s : State) (i : Nat) (f : Live → Live) : (modLive s i f).cqs = s.cqs := rfl
@[simp] theorem modLive_mbx (s : State) (i : Nat) (f : Live → Live) : (modLive s i f).mbx = s.mbx := rfl
@[simp] theorem modLive_cache (s : State) (i : Nat) (f : Live → Live) : (modLive s i f).cache = s.cache := rfl
@[simp] theorem modLive_jade (s : State) (i : Nat) (f : Live → Live) : (modLive s i f).jade = s.jade := rfl
@[simp] theorem modLive_jet (s : State) (i : Nat) (f : Live → Live) : (modLive s i f).jet = s.jet := rfl
@[simp] theorem modLive_jtag (s : State) (i : Nat) (f : Live → Live) : (modLive s i f).jtag = s.jtag := rfl
@[simp] theorem modLive_hk (s : State) (i : Nat) (f : Live → Live) : (modLive s i f).hk = s.hk := rfl
@[simp] theorem modLive_tests (s : State) (i : Nat) (f : Live → Live) : (modLive s i f).tests = s.tests := rfl
@[simp] theorem modLive_sec (s : State) (i : Nat) (f : Live → Live) : (modLive s i f).sec = s.sec := rfl
@[simp] theorem modLive_pending (s : State) (i : Nat) (f : Live → Live) : (modLive s i f).pending = s.pending := rfl

@[simp] theorem modMCmd_part (s : State) (i : Nat) (f : MCmd → MCmd) : (modMCmd s i f).part = s.part := rfl
@[simp] theorem modMCmd_clock (s : State) (i : Nat) (f : MCmd → MCmd) : (modMCmd s i f).clock = s.clock := rfl
@[simp] theorem modMCmd_freeIx (s : State) (i : Nat) (f : MCmd → MCmd) : (modMCmd s i f).freeIx = s.freeIx := rfl
@[simp] theorem modMCmd_nextId (s : State) (i : Nat) (f : MCmd → MCmd) : (modMCmd s i f).nextId = s.nextId := rfl
@[simp] theorem modMCmd_out (s : State) (i : Nat) (f : MCmd → MCmd) : (modMCmd s i f).out = s.out := rfl
@[simp] theorem modMCmd_phase (s : State) (i : Nat) (f : MCmd → MCmd) : (modMCmd s i f).phase = s.phase := rfl
@[simp] theorem modMCmd_pins (s : State) (i : Nat) (f : MCmd → MCmd) : (modMCmd s i f).pins = s.pins := rfl
@[simp] theorem modMCmd_moon (s : State) (i : Nat) (f : MCmd → MCmd) : (modMCmd s i f).moon = s.moon := rfl
@[simp] theorem modMCmd_tiles (s : State) (i : Nat) (f : MCmd → MCmd) : (modMCmd s i f).tiles = s.tiles := rfl
@[simp] theorem modMCmd_mesh (s : State) (i : Nat) (f : MCmd → MCmd) : (modMCmd s i f).mesh = s.mesh := rfl
@[simp] theorem modMCmd_cmds (s : State) (i : Nat) (f : MCmd → MCmd) : (modMCmd s i f).cmds = s.cmds := rfl
@[simp] theorem modMCmd_fetches (s : State) (i : Nat) (f : MCmd → MCmd) : (modMCmd s i f).fetches = s.fetches := rfl
@[simp] theorem modMCmd_destages (s : State) (i : Nat) (f : MCmd → MCmd) : (modMCmd s i f).destages = s.destages := rfl
@[simp] theorem modMCmd_replays (s : State) (i : Nat) (f : MCmd → MCmd) : (modMCmd s i f).replays = s.replays := rfl
@[simp] theorem modMCmd_maints (s : State) (i : Nat) (f : MCmd → MCmd) : (modMCmd s i f).maints = s.maints := rfl
@[simp] theorem modMCmd_budget (s : State) (i : Nat) (f : MCmd → MCmd) : (modMCmd s i f).budget = s.budget := rfl
@[simp] theorem modMCmd_cfg (s : State) (i : Nat) (f : MCmd → MCmd) : (modMCmd s i f).cfg = s.cfg := rfl
@[simp] theorem modMCmd_flash (s : State) (i : Nat) (f : MCmd → MCmd) : (modMCmd s i f).flash = s.flash := rfl
@[simp] theorem modMCmd_pools (s : State) (i : Nat) (f : MCmd → MCmd) : (modMCmd s i f).pools = s.pools := rfl
@[simp] theorem modMCmd_vols (s : State) (i : Nat) (f : MCmd → MCmd) : (modMCmd s i f).vols = s.vols := rfl
@[simp] theorem modMCmd_members (s : State) (i : Nat) (f : MCmd → MCmd) : (modMCmd s i f).members = s.members := rfl
@[simp] theorem modMCmd_sbt (s : State) (i : Nat) (f : MCmd → MCmd) : (modMCmd s i f).sbt = s.sbt := rfl
@[simp] theorem modMCmd_links (s : State) (i : Nat) (f : MCmd → MCmd) : (modMCmd s i f).links = s.links := rfl
@[simp] theorem modMCmd_partners (s : State) (i : Nat) (f : MCmd → MCmd) : (modMCmd s i f).partners = s.partners := rfl
@[simp] theorem modMCmd_pcie (s : State) (i : Nat) (f : MCmd → MCmd) : (modMCmd s i f).pcie = s.pcie := rfl
@[simp] theorem modMCmd_sqs (s : State) (i : Nat) (f : MCmd → MCmd) : (modMCmd s i f).sqs = s.sqs := rfl
@[simp] theorem modMCmd_cqs (s : State) (i : Nat) (f : MCmd → MCmd) : (modMCmd s i f).cqs = s.cqs := rfl
@[simp] theorem modMCmd_live (s : State) (i : Nat) (f : MCmd → MCmd) : (modMCmd s i f).live = s.live := rfl
@[simp] theorem modMCmd_mbx (s : State) (i : Nat) (f : MCmd → MCmd) : (modMCmd s i f).mbx = s.mbx := rfl
@[simp] theorem modMCmd_cache (s : State) (i : Nat) (f : MCmd → MCmd) : (modMCmd s i f).cache = s.cache := rfl
@[simp] theorem modMCmd_jade (s : State) (i : Nat) (f : MCmd → MCmd) : (modMCmd s i f).jade = s.jade := rfl
@[simp] theorem modMCmd_jet (s : State) (i : Nat) (f : MCmd → MCmd) : (modMCmd s i f).jet = s.jet := rfl
@[simp] theorem modMCmd_jtag (s : State) (i : Nat) (f : MCmd → MCmd) : (modMCmd s i f).jtag = s.jtag := rfl
@[simp] theorem modMCmd_hk (s : State) (i : Nat) (f : MCmd → MCmd) : (modMCmd s i f).hk = s.hk := rfl
@[simp] theorem modMCmd_tests (s : State) (i : Nat) (f : MCmd → MCmd) : (modMCmd s i f).tests = s.tests := rfl
@[simp] theorem modMCmd_sec (s : State) (i : Nat) (f : MCmd → MCmd) : (modMCmd s i f).sec = s.sec := rfl
@[simp] theorem modMCmd_pending (s : State) (i : Nat) (f : MCmd → MCmd) : (modMCmd s i f).pending = s.pending := rfl

@[simp] theorem dropMCmd_part (s : State) (i : Nat) : (dropMCmd s i).part = s.part := rfl
@[simp] theorem dropMCmd_clock (s : State) (i : Nat) : (dropMCmd s i).clock = s.clock := rfl
@[simp] theorem dropMCmd_freeIx (s : State) (i : Nat) : (dropMCmd s i).freeIx = s.freeIx := rfl
@[simp] theorem dropMCmd_nextId (s : State) (i : Nat) : (dropMCmd s i).nextId = s.nextId := rfl
@[simp] theorem dropMCmd_out (s : State) (i : Nat) : (dropMCmd s i).out = s.out := rfl
@[simp] theorem dropMCmd_phase (s : State) (i : Nat) : (dropMCmd s i).phase = s.phase := rfl
@[simp] theorem dropMCmd_pins (s : State) (i : Nat) : (dropMCmd s i).pins = s.pins := rfl
@[simp] theorem dropMCmd_moon (s : State) (i : Nat) : (dropMCmd s i).moon = s.moon := rfl
@[simp] theorem dropMCmd_tiles (s : State) (i : Nat) : (dropMCmd s i).tiles = s.tiles := rfl
@[simp] theorem dropMCmd_mesh (s : State) (i : Nat) : (dropMCmd s i).mesh = s.mesh := rfl
@[simp] theorem dropMCmd_cmds (s : State) (i : Nat) : (dropMCmd s i).cmds = s.cmds := rfl
@[simp] theorem dropMCmd_fetches (s : State) (i : Nat) : (dropMCmd s i).fetches = s.fetches := rfl
@[simp] theorem dropMCmd_destages (s : State) (i : Nat) : (dropMCmd s i).destages = s.destages := rfl
@[simp] theorem dropMCmd_replays (s : State) (i : Nat) : (dropMCmd s i).replays = s.replays := rfl
@[simp] theorem dropMCmd_maints (s : State) (i : Nat) : (dropMCmd s i).maints = s.maints := rfl
@[simp] theorem dropMCmd_budget (s : State) (i : Nat) : (dropMCmd s i).budget = s.budget := rfl
@[simp] theorem dropMCmd_cfg (s : State) (i : Nat) : (dropMCmd s i).cfg = s.cfg := rfl
@[simp] theorem dropMCmd_flash (s : State) (i : Nat) : (dropMCmd s i).flash = s.flash := rfl
@[simp] theorem dropMCmd_pools (s : State) (i : Nat) : (dropMCmd s i).pools = s.pools := rfl
@[simp] theorem dropMCmd_vols (s : State) (i : Nat) : (dropMCmd s i).vols = s.vols := rfl
@[simp] theorem dropMCmd_members (s : State) (i : Nat) : (dropMCmd s i).members = s.members := rfl
@[simp] theorem dropMCmd_sbt (s : State) (i : Nat) : (dropMCmd s i).sbt = s.sbt := rfl
@[simp] theorem dropMCmd_links (s : State) (i : Nat) : (dropMCmd s i).links = s.links := rfl
@[simp] theorem dropMCmd_partners (s : State) (i : Nat) : (dropMCmd s i).partners = s.partners := rfl
@[simp] theorem dropMCmd_pcie (s : State) (i : Nat) : (dropMCmd s i).pcie = s.pcie := rfl
@[simp] theorem dropMCmd_sqs (s : State) (i : Nat) : (dropMCmd s i).sqs = s.sqs := rfl
@[simp] theorem dropMCmd_cqs (s : State) (i : Nat) : (dropMCmd s i).cqs = s.cqs := rfl
@[simp] theorem dropMCmd_live (s : State) (i : Nat) : (dropMCmd s i).live = s.live := rfl
@[simp] theorem dropMCmd_mbx (s : State) (i : Nat) : (dropMCmd s i).mbx = s.mbx := rfl
@[simp] theorem dropMCmd_cache (s : State) (i : Nat) : (dropMCmd s i).cache = s.cache := rfl
@[simp] theorem dropMCmd_jade (s : State) (i : Nat) : (dropMCmd s i).jade = s.jade := rfl
@[simp] theorem dropMCmd_jet (s : State) (i : Nat) : (dropMCmd s i).jet = s.jet := rfl
@[simp] theorem dropMCmd_jtag (s : State) (i : Nat) : (dropMCmd s i).jtag = s.jtag := rfl
@[simp] theorem dropMCmd_hk (s : State) (i : Nat) : (dropMCmd s i).hk = s.hk := rfl
@[simp] theorem dropMCmd_tests (s : State) (i : Nat) : (dropMCmd s i).tests = s.tests := rfl
@[simp] theorem dropMCmd_sec (s : State) (i : Nat) : (dropMCmd s i).sec = s.sec := rfl
@[simp] theorem dropMCmd_pending (s : State) (i : Nat) : (dropMCmd s i).pending = s.pending := rfl

@[simp] theorem modFetch_part (s : State) (i : Nat) (f : Fetch → Fetch) : (modFetch s i f).part = s.part := rfl
@[simp] theorem modFetch_clock (s : State) (i : Nat) (f : Fetch → Fetch) : (modFetch s i f).clock = s.clock := rfl
@[simp] theorem modFetch_freeIx (s : State) (i : Nat) (f : Fetch → Fetch) : (modFetch s i f).freeIx = s.freeIx := rfl
@[simp] theorem modFetch_nextId (s : State) (i : Nat) (f : Fetch → Fetch) : (modFetch s i f).nextId = s.nextId := rfl
@[simp] theorem modFetch_out (s : State) (i : Nat) (f : Fetch → Fetch) : (modFetch s i f).out = s.out := rfl
@[simp] theorem modFetch_phase (s : State) (i : Nat) (f : Fetch → Fetch) : (modFetch s i f).phase = s.phase := rfl
@[simp] theorem modFetch_pins (s : State) (i : Nat) (f : Fetch → Fetch) : (modFetch s i f).pins = s.pins := rfl
@[simp] theorem modFetch_moon (s : State) (i : Nat) (f : Fetch → Fetch) : (modFetch s i f).moon = s.moon := rfl
@[simp] theorem modFetch_tiles (s : State) (i : Nat) (f : Fetch → Fetch) : (modFetch s i f).tiles = s.tiles := rfl
@[simp] theorem modFetch_mesh (s : State) (i : Nat) (f : Fetch → Fetch) : (modFetch s i f).mesh = s.mesh := rfl
@[simp] theorem modFetch_cmds (s : State) (i : Nat) (f : Fetch → Fetch) : (modFetch s i f).cmds = s.cmds := rfl
@[simp] theorem modFetch_mcmds (s : State) (i : Nat) (f : Fetch → Fetch) : (modFetch s i f).mcmds = s.mcmds := rfl
@[simp] theorem modFetch_destages (s : State) (i : Nat) (f : Fetch → Fetch) : (modFetch s i f).destages = s.destages := rfl
@[simp] theorem modFetch_replays (s : State) (i : Nat) (f : Fetch → Fetch) : (modFetch s i f).replays = s.replays := rfl
@[simp] theorem modFetch_maints (s : State) (i : Nat) (f : Fetch → Fetch) : (modFetch s i f).maints = s.maints := rfl
@[simp] theorem modFetch_budget (s : State) (i : Nat) (f : Fetch → Fetch) : (modFetch s i f).budget = s.budget := rfl
@[simp] theorem modFetch_cfg (s : State) (i : Nat) (f : Fetch → Fetch) : (modFetch s i f).cfg = s.cfg := rfl
@[simp] theorem modFetch_flash (s : State) (i : Nat) (f : Fetch → Fetch) : (modFetch s i f).flash = s.flash := rfl
@[simp] theorem modFetch_pools (s : State) (i : Nat) (f : Fetch → Fetch) : (modFetch s i f).pools = s.pools := rfl
@[simp] theorem modFetch_vols (s : State) (i : Nat) (f : Fetch → Fetch) : (modFetch s i f).vols = s.vols := rfl
@[simp] theorem modFetch_members (s : State) (i : Nat) (f : Fetch → Fetch) : (modFetch s i f).members = s.members := rfl
@[simp] theorem modFetch_sbt (s : State) (i : Nat) (f : Fetch → Fetch) : (modFetch s i f).sbt = s.sbt := rfl
@[simp] theorem modFetch_links (s : State) (i : Nat) (f : Fetch → Fetch) : (modFetch s i f).links = s.links := rfl
@[simp] theorem modFetch_partners (s : State) (i : Nat) (f : Fetch → Fetch) : (modFetch s i f).partners = s.partners := rfl
@[simp] theorem modFetch_pcie (s : State) (i : Nat) (f : Fetch → Fetch) : (modFetch s i f).pcie = s.pcie := rfl
@[simp] theorem modFetch_sqs (s : State) (i : Nat) (f : Fetch → Fetch) : (modFetch s i f).sqs = s.sqs := rfl
@[simp] theorem modFetch_cqs (s : State) (i : Nat) (f : Fetch → Fetch) : (modFetch s i f).cqs = s.cqs := rfl
@[simp] theorem modFetch_live (s : State) (i : Nat) (f : Fetch → Fetch) : (modFetch s i f).live = s.live := rfl
@[simp] theorem modFetch_mbx (s : State) (i : Nat) (f : Fetch → Fetch) : (modFetch s i f).mbx = s.mbx := rfl
@[simp] theorem modFetch_cache (s : State) (i : Nat) (f : Fetch → Fetch) : (modFetch s i f).cache = s.cache := rfl
@[simp] theorem modFetch_jade (s : State) (i : Nat) (f : Fetch → Fetch) : (modFetch s i f).jade = s.jade := rfl
@[simp] theorem modFetch_jet (s : State) (i : Nat) (f : Fetch → Fetch) : (modFetch s i f).jet = s.jet := rfl
@[simp] theorem modFetch_jtag (s : State) (i : Nat) (f : Fetch → Fetch) : (modFetch s i f).jtag = s.jtag := rfl
@[simp] theorem modFetch_hk (s : State) (i : Nat) (f : Fetch → Fetch) : (modFetch s i f).hk = s.hk := rfl
@[simp] theorem modFetch_tests (s : State) (i : Nat) (f : Fetch → Fetch) : (modFetch s i f).tests = s.tests := rfl
@[simp] theorem modFetch_sec (s : State) (i : Nat) (f : Fetch → Fetch) : (modFetch s i f).sec = s.sec := rfl
@[simp] theorem modFetch_pending (s : State) (i : Nat) (f : Fetch → Fetch) : (modFetch s i f).pending = s.pending := rfl

@[simp] theorem dropFetch_part (s : State) (i : Nat) : (dropFetch s i).part = s.part := rfl
@[simp] theorem dropFetch_clock (s : State) (i : Nat) : (dropFetch s i).clock = s.clock := rfl
@[simp] theorem dropFetch_freeIx (s : State) (i : Nat) : (dropFetch s i).freeIx = s.freeIx := rfl
@[simp] theorem dropFetch_nextId (s : State) (i : Nat) : (dropFetch s i).nextId = s.nextId := rfl
@[simp] theorem dropFetch_out (s : State) (i : Nat) : (dropFetch s i).out = s.out := rfl
@[simp] theorem dropFetch_phase (s : State) (i : Nat) : (dropFetch s i).phase = s.phase := rfl
@[simp] theorem dropFetch_pins (s : State) (i : Nat) : (dropFetch s i).pins = s.pins := rfl
@[simp] theorem dropFetch_moon (s : State) (i : Nat) : (dropFetch s i).moon = s.moon := rfl
@[simp] theorem dropFetch_tiles (s : State) (i : Nat) : (dropFetch s i).tiles = s.tiles := rfl
@[simp] theorem dropFetch_mesh (s : State) (i : Nat) : (dropFetch s i).mesh = s.mesh := rfl
@[simp] theorem dropFetch_cmds (s : State) (i : Nat) : (dropFetch s i).cmds = s.cmds := rfl
@[simp] theorem dropFetch_mcmds (s : State) (i : Nat) : (dropFetch s i).mcmds = s.mcmds := rfl
@[simp] theorem dropFetch_destages (s : State) (i : Nat) : (dropFetch s i).destages = s.destages := rfl
@[simp] theorem dropFetch_replays (s : State) (i : Nat) : (dropFetch s i).replays = s.replays := rfl
@[simp] theorem dropFetch_maints (s : State) (i : Nat) : (dropFetch s i).maints = s.maints := rfl
@[simp] theorem dropFetch_budget (s : State) (i : Nat) : (dropFetch s i).budget = s.budget := rfl
@[simp] theorem dropFetch_cfg (s : State) (i : Nat) : (dropFetch s i).cfg = s.cfg := rfl
@[simp] theorem dropFetch_flash (s : State) (i : Nat) : (dropFetch s i).flash = s.flash := rfl
@[simp] theorem dropFetch_pools (s : State) (i : Nat) : (dropFetch s i).pools = s.pools := rfl
@[simp] theorem dropFetch_vols (s : State) (i : Nat) : (dropFetch s i).vols = s.vols := rfl
@[simp] theorem dropFetch_members (s : State) (i : Nat) : (dropFetch s i).members = s.members := rfl
@[simp] theorem dropFetch_sbt (s : State) (i : Nat) : (dropFetch s i).sbt = s.sbt := rfl
@[simp] theorem dropFetch_links (s : State) (i : Nat) : (dropFetch s i).links = s.links := rfl
@[simp] theorem dropFetch_partners (s : State) (i : Nat) : (dropFetch s i).partners = s.partners := rfl
@[simp] theorem dropFetch_pcie (s : State) (i : Nat) : (dropFetch s i).pcie = s.pcie := rfl
@[simp] theorem dropFetch_sqs (s : State) (i : Nat) : (dropFetch s i).sqs = s.sqs := rfl
@[simp] theorem dropFetch_cqs (s : State) (i : Nat) : (dropFetch s i).cqs = s.cqs := rfl
@[simp] theorem dropFetch_live (s : State) (i : Nat) : (dropFetch s i).live = s.live := rfl
@[simp] theorem dropFetch_mbx (s : State) (i : Nat) : (dropFetch s i).mbx = s.mbx := rfl
@[simp] theorem dropFetch_cache (s : State) (i : Nat) : (dropFetch s i).cache = s.cache := rfl
@[simp] theorem dropFetch_jade (s : State) (i : Nat) : (dropFetch s i).jade = s.jade := rfl
@[simp] theorem dropFetch_jet (s : State) (i : Nat) : (dropFetch s i).jet = s.jet := rfl
@[simp] theorem dropFetch_jtag (s : State) (i : Nat) : (dropFetch s i).jtag = s.jtag := rfl
@[simp] theorem dropFetch_hk (s : State) (i : Nat) : (dropFetch s i).hk = s.hk := rfl
@[simp] theorem dropFetch_tests (s : State) (i : Nat) : (dropFetch s i).tests = s.tests := rfl
@[simp] theorem dropFetch_sec (s : State) (i : Nat) : (dropFetch s i).sec = s.sec := rfl
@[simp] theorem dropFetch_pending (s : State) (i : Nat) : (dropFetch s i).pending = s.pending := rfl

@[simp] theorem modDestage_part (s : State) (i : Nat) (f : Destage → Destage) : (modDestage s i f).part = s.part := rfl
@[simp] theorem modDestage_clock (s : State) (i : Nat) (f : Destage → Destage) : (modDestage s i f).clock = s.clock := rfl
@[simp] theorem modDestage_freeIx (s : State) (i : Nat) (f : Destage → Destage) : (modDestage s i f).freeIx = s.freeIx := rfl
@[simp] theorem modDestage_nextId (s : State) (i : Nat) (f : Destage → Destage) : (modDestage s i f).nextId = s.nextId := rfl
@[simp] theorem modDestage_out (s : State) (i : Nat) (f : Destage → Destage) : (modDestage s i f).out = s.out := rfl
@[simp] theorem modDestage_phase (s : State) (i : Nat) (f : Destage → Destage) : (modDestage s i f).phase = s.phase := rfl
@[simp] theorem modDestage_pins (s : State) (i : Nat) (f : Destage → Destage) : (modDestage s i f).pins = s.pins := rfl
@[simp] theorem modDestage_moon (s : State) (i : Nat) (f : Destage → Destage) : (modDestage s i f).moon = s.moon := rfl
@[simp] theorem modDestage_tiles (s : State) (i : Nat) (f : Destage → Destage) : (modDestage s i f).tiles = s.tiles := rfl
@[simp] theorem modDestage_mesh (s : State) (i : Nat) (f : Destage → Destage) : (modDestage s i f).mesh = s.mesh := rfl
@[simp] theorem modDestage_cmds (s : State) (i : Nat) (f : Destage → Destage) : (modDestage s i f).cmds = s.cmds := rfl
@[simp] theorem modDestage_mcmds (s : State) (i : Nat) (f : Destage → Destage) : (modDestage s i f).mcmds = s.mcmds := rfl
@[simp] theorem modDestage_fetches (s : State) (i : Nat) (f : Destage → Destage) : (modDestage s i f).fetches = s.fetches := rfl
@[simp] theorem modDestage_replays (s : State) (i : Nat) (f : Destage → Destage) : (modDestage s i f).replays = s.replays := rfl
@[simp] theorem modDestage_maints (s : State) (i : Nat) (f : Destage → Destage) : (modDestage s i f).maints = s.maints := rfl
@[simp] theorem modDestage_budget (s : State) (i : Nat) (f : Destage → Destage) : (modDestage s i f).budget = s.budget := rfl
@[simp] theorem modDestage_cfg (s : State) (i : Nat) (f : Destage → Destage) : (modDestage s i f).cfg = s.cfg := rfl
@[simp] theorem modDestage_flash (s : State) (i : Nat) (f : Destage → Destage) : (modDestage s i f).flash = s.flash := rfl
@[simp] theorem modDestage_pools (s : State) (i : Nat) (f : Destage → Destage) : (modDestage s i f).pools = s.pools := rfl
@[simp] theorem modDestage_vols (s : State) (i : Nat) (f : Destage → Destage) : (modDestage s i f).vols = s.vols := rfl
@[simp] theorem modDestage_members (s : State) (i : Nat) (f : Destage → Destage) : (modDestage s i f).members = s.members := rfl
@[simp] theorem modDestage_sbt (s : State) (i : Nat) (f : Destage → Destage) : (modDestage s i f).sbt = s.sbt := rfl
@[simp] theorem modDestage_links (s : State) (i : Nat) (f : Destage → Destage) : (modDestage s i f).links = s.links := rfl
@[simp] theorem modDestage_partners (s : State) (i : Nat) (f : Destage → Destage) : (modDestage s i f).partners = s.partners := rfl
@[simp] theorem modDestage_pcie (s : State) (i : Nat) (f : Destage → Destage) : (modDestage s i f).pcie = s.pcie := rfl
@[simp] theorem modDestage_sqs (s : State) (i : Nat) (f : Destage → Destage) : (modDestage s i f).sqs = s.sqs := rfl
@[simp] theorem modDestage_cqs (s : State) (i : Nat) (f : Destage → Destage) : (modDestage s i f).cqs = s.cqs := rfl
@[simp] theorem modDestage_live (s : State) (i : Nat) (f : Destage → Destage) : (modDestage s i f).live = s.live := rfl
@[simp] theorem modDestage_mbx (s : State) (i : Nat) (f : Destage → Destage) : (modDestage s i f).mbx = s.mbx := rfl
@[simp] theorem modDestage_cache (s : State) (i : Nat) (f : Destage → Destage) : (modDestage s i f).cache = s.cache := rfl
@[simp] theorem modDestage_jade (s : State) (i : Nat) (f : Destage → Destage) : (modDestage s i f).jade = s.jade := rfl
@[simp] theorem modDestage_jet (s : State) (i : Nat) (f : Destage → Destage) : (modDestage s i f).jet = s.jet := rfl
@[simp] theorem modDestage_jtag (s : State) (i : Nat) (f : Destage → Destage) : (modDestage s i f).jtag = s.jtag := rfl
@[simp] theorem modDestage_hk (s : State) (i : Nat) (f : Destage → Destage) : (modDestage s i f).hk = s.hk := rfl
@[simp] theorem modDestage_tests (s : State) (i : Nat) (f : Destage → Destage) : (modDestage s i f).tests = s.tests := rfl
@[simp] theorem modDestage_sec (s : State) (i : Nat) (f : Destage → Destage) : (modDestage s i f).sec = s.sec := rfl
@[simp] theorem modDestage_pending (s : State) (i : Nat) (f : Destage → Destage) : (modDestage s i f).pending = s.pending := rfl

@[simp] theorem bump_part (s : State) : (bump s).part = s.part := rfl
@[simp] theorem bump_clock (s : State) : (bump s).clock = s.clock := rfl
@[simp] theorem bump_freeIx (s : State) : (bump s).freeIx = s.freeIx := rfl
@[simp] theorem bump_out (s : State) : (bump s).out = s.out := rfl
@[simp] theorem bump_phase (s : State) : (bump s).phase = s.phase := rfl
@[simp] theorem bump_pins (s : State) : (bump s).pins = s.pins := rfl
@[simp] theorem bump_moon (s : State) : (bump s).moon = s.moon := rfl
@[simp] theorem bump_tiles (s : State) : (bump s).tiles = s.tiles := rfl
@[simp] theorem bump_mesh (s : State) : (bump s).mesh = s.mesh := rfl
@[simp] theorem bump_cmds (s : State) : (bump s).cmds = s.cmds := rfl
@[simp] theorem bump_mcmds (s : State) : (bump s).mcmds = s.mcmds := rfl
@[simp] theorem bump_fetches (s : State) : (bump s).fetches = s.fetches := rfl
@[simp] theorem bump_destages (s : State) : (bump s).destages = s.destages := rfl
@[simp] theorem bump_replays (s : State) : (bump s).replays = s.replays := rfl
@[simp] theorem bump_maints (s : State) : (bump s).maints = s.maints := rfl
@[simp] theorem bump_budget (s : State) : (bump s).budget = s.budget := rfl
@[simp] theorem bump_cfg (s : State) : (bump s).cfg = s.cfg := rfl
@[simp] theorem bump_flash (s : State) : (bump s).flash = s.flash := rfl
@[simp] theorem bump_pools (s : State) : (bump s).pools = s.pools := rfl
@[simp] theorem bump_vols (s : State) : (bump s).vols = s.vols := rfl
@[simp] theorem bump_members (s : State) : (bump s).members = s.members := rfl
@[simp] theorem bump_sbt (s : State) : (bump s).sbt = s.sbt := rfl
@[simp] theorem bump_links (s : State) : (bump s).links = s.links := rfl
@[simp] theorem bump_partners (s : State) : (bump s).partners = s.partners := rfl
@[simp] theorem bump_pcie (s : State) : (bump s).pcie = s.pcie := rfl
@[simp] theorem bump_sqs (s : State) : (bump s).sqs = s.sqs := rfl
@[simp] theorem bump_cqs (s : State) : (bump s).cqs = s.cqs := rfl
@[simp] theorem bump_live (s : State) : (bump s).live = s.live := rfl
@[simp] theorem bump_mbx (s : State) : (bump s).mbx = s.mbx := rfl
@[simp] theorem bump_cache (s : State) : (bump s).cache = s.cache := rfl
@[simp] theorem bump_jade (s : State) : (bump s).jade = s.jade := rfl
@[simp] theorem bump_jet (s : State) : (bump s).jet = s.jet := rfl
@[simp] theorem bump_jtag (s : State) : (bump s).jtag = s.jtag := rfl
@[simp] theorem bump_hk (s : State) : (bump s).hk = s.hk := rfl
@[simp] theorem bump_tests (s : State) : (bump s).tests = s.tests := rfl
@[simp] theorem bump_sec (s : State) : (bump s).sec = s.sec := rfl
@[simp] theorem bump_pending (s : State) : (bump s).pending = s.pending := rfl

@[simp] theorem drawn_part (s : State) : (drawn s).part = s.part := rfl
@[simp] theorem drawn_clock (s : State) : (drawn s).clock = s.clock := rfl
@[simp] theorem drawn_nextId (s : State) : (drawn s).nextId = s.nextId := rfl
@[simp] theorem drawn_out (s : State) : (drawn s).out = s.out := rfl
@[simp] theorem drawn_phase (s : State) : (drawn s).phase = s.phase := rfl
@[simp] theorem drawn_pins (s : State) : (drawn s).pins = s.pins := rfl
@[simp] theorem drawn_moon (s : State) : (drawn s).moon = s.moon := rfl
@[simp] theorem drawn_tiles (s : State) : (drawn s).tiles = s.tiles := rfl
@[simp] theorem drawn_mesh (s : State) : (drawn s).mesh = s.mesh := rfl
@[simp] theorem drawn_cmds (s : State) : (drawn s).cmds = s.cmds := rfl
@[simp] theorem drawn_mcmds (s : State) : (drawn s).mcmds = s.mcmds := rfl
@[simp] theorem drawn_fetches (s : State) : (drawn s).fetches = s.fetches := rfl
@[simp] theorem drawn_destages (s : State) : (drawn s).destages = s.destages := rfl
@[simp] theorem drawn_replays (s : State) : (drawn s).replays = s.replays := rfl
@[simp] theorem drawn_maints (s : State) : (drawn s).maints = s.maints := rfl
@[simp] theorem drawn_budget (s : State) : (drawn s).budget = s.budget := rfl
@[simp] theorem drawn_cfg (s : State) : (drawn s).cfg = s.cfg := rfl
@[simp] theorem drawn_flash (s : State) : (drawn s).flash = s.flash := rfl
@[simp] theorem drawn_pools (s : State) : (drawn s).pools = s.pools := rfl
@[simp] theorem drawn_vols (s : State) : (drawn s).vols = s.vols := rfl
@[simp] theorem drawn_members (s : State) : (drawn s).members = s.members := rfl
@[simp] theorem drawn_sbt (s : State) : (drawn s).sbt = s.sbt := rfl
@[simp] theorem drawn_links (s : State) : (drawn s).links = s.links := rfl
@[simp] theorem drawn_partners (s : State) : (drawn s).partners = s.partners := rfl
@[simp] theorem drawn_pcie (s : State) : (drawn s).pcie = s.pcie := rfl
@[simp] theorem drawn_sqs (s : State) : (drawn s).sqs = s.sqs := rfl
@[simp] theorem drawn_cqs (s : State) : (drawn s).cqs = s.cqs := rfl
@[simp] theorem drawn_live (s : State) : (drawn s).live = s.live := rfl
@[simp] theorem drawn_mbx (s : State) : (drawn s).mbx = s.mbx := rfl
@[simp] theorem drawn_cache (s : State) : (drawn s).cache = s.cache := rfl
@[simp] theorem drawn_jade (s : State) : (drawn s).jade = s.jade := rfl
@[simp] theorem drawn_jet (s : State) : (drawn s).jet = s.jet := rfl
@[simp] theorem drawn_jtag (s : State) : (drawn s).jtag = s.jtag := rfl
@[simp] theorem drawn_hk (s : State) : (drawn s).hk = s.hk := rfl
@[simp] theorem drawn_tests (s : State) : (drawn s).tests = s.tests := rfl
@[simp] theorem drawn_sec (s : State) : (drawn s).sec = s.sec := rfl
@[simp] theorem drawn_pending (s : State) : (drawn s).pending = s.pending := rfl

@[simp] theorem emit_part (s : State) (o : Output) : (emit s o).part = s.part := rfl
@[simp] theorem emit_clock (s : State) (o : Output) : (emit s o).clock = s.clock := rfl
@[simp] theorem emit_freeIx (s : State) (o : Output) : (emit s o).freeIx = s.freeIx := rfl
@[simp] theorem emit_nextId (s : State) (o : Output) : (emit s o).nextId = s.nextId := rfl
@[simp] theorem emit_phase (s : State) (o : Output) : (emit s o).phase = s.phase := rfl
@[simp] theorem emit_pins (s : State) (o : Output) : (emit s o).pins = s.pins := rfl
@[simp] theorem emit_moon (s : State) (o : Output) : (emit s o).moon = s.moon := rfl
@[simp] theorem emit_tiles (s : State) (o : Output) : (emit s o).tiles = s.tiles := rfl
@[simp] theorem emit_mesh (s : State) (o : Output) : (emit s o).mesh = s.mesh := rfl
@[simp] theorem emit_cmds (s : State) (o : Output) : (emit s o).cmds = s.cmds := rfl
@[simp] theorem emit_mcmds (s : State) (o : Output) : (emit s o).mcmds = s.mcmds := rfl
@[simp] theorem emit_fetches (s : State) (o : Output) : (emit s o).fetches = s.fetches := rfl
@[simp] theorem emit_destages (s : State) (o : Output) : (emit s o).destages = s.destages := rfl
@[simp] theorem emit_replays (s : State) (o : Output) : (emit s o).replays = s.replays := rfl
@[simp] theorem emit_maints (s : State) (o : Output) : (emit s o).maints = s.maints := rfl
@[simp] theorem emit_budget (s : State) (o : Output) : (emit s o).budget = s.budget := rfl
@[simp] theorem emit_cfg (s : State) (o : Output) : (emit s o).cfg = s.cfg := rfl
@[simp] theorem emit_flash (s : State) (o : Output) : (emit s o).flash = s.flash := rfl
@[simp] theorem emit_pools (s : State) (o : Output) : (emit s o).pools = s.pools := rfl
@[simp] theorem emit_vols (s : State) (o : Output) : (emit s o).vols = s.vols := rfl
@[simp] theorem emit_members (s : State) (o : Output) : (emit s o).members = s.members := rfl
@[simp] theorem emit_sbt (s : State) (o : Output) : (emit s o).sbt = s.sbt := rfl
@[simp] theorem emit_links (s : State) (o : Output) : (emit s o).links = s.links := rfl
@[simp] theorem emit_partners (s : State) (o : Output) : (emit s o).partners = s.partners := rfl
@[simp] theorem emit_pcie (s : State) (o : Output) : (emit s o).pcie = s.pcie := rfl
@[simp] theorem emit_sqs (s : State) (o : Output) : (emit s o).sqs = s.sqs := rfl
@[simp] theorem emit_cqs (s : State) (o : Output) : (emit s o).cqs = s.cqs := rfl
@[simp] theorem emit_live (s : State) (o : Output) : (emit s o).live = s.live := rfl
@[simp] theorem emit_mbx (s : State) (o : Output) : (emit s o).mbx = s.mbx := rfl
@[simp] theorem emit_cache (s : State) (o : Output) : (emit s o).cache = s.cache := rfl
@[simp] theorem emit_jade (s : State) (o : Output) : (emit s o).jade = s.jade := rfl
@[simp] theorem emit_jet (s : State) (o : Output) : (emit s o).jet = s.jet := rfl
@[simp] theorem emit_jtag (s : State) (o : Output) : (emit s o).jtag = s.jtag := rfl
@[simp] theorem emit_hk (s : State) (o : Output) : (emit s o).hk = s.hk := rfl
@[simp] theorem emit_tests (s : State) (o : Output) : (emit s o).tests = s.tests := rfl
@[simp] theorem emit_sec (s : State) (o : Output) : (emit s o).sec = s.sec := rfl
@[simp] theorem emit_pending (s : State) (o : Output) : (emit s o).pending = s.pending := rfl

@[simp] theorem emits_part (s : State) (os : List Output) : (emits s os).part = s.part := rfl
@[simp] theorem emits_clock (s : State) (os : List Output) : (emits s os).clock = s.clock := rfl
@[simp] theorem emits_freeIx (s : State) (os : List Output) : (emits s os).freeIx = s.freeIx := rfl
@[simp] theorem emits_nextId (s : State) (os : List Output) : (emits s os).nextId = s.nextId := rfl
@[simp] theorem emits_phase (s : State) (os : List Output) : (emits s os).phase = s.phase := rfl
@[simp] theorem emits_pins (s : State) (os : List Output) : (emits s os).pins = s.pins := rfl
@[simp] theorem emits_moon (s : State) (os : List Output) : (emits s os).moon = s.moon := rfl
@[simp] theorem emits_tiles (s : State) (os : List Output) : (emits s os).tiles = s.tiles := rfl
@[simp] theorem emits_mesh (s : State) (os : List Output) : (emits s os).mesh = s.mesh := rfl
@[simp] theorem emits_cmds (s : State) (os : List Output) : (emits s os).cmds = s.cmds := rfl
@[simp] theorem emits_mcmds (s : State) (os : List Output) : (emits s os).mcmds = s.mcmds := rfl
@[simp] theorem emits_fetches (s : State) (os : List Output) : (emits s os).fetches = s.fetches := rfl
@[simp] theorem emits_destages (s : State) (os : List Output) : (emits s os).destages = s.destages := rfl
@[simp] theorem emits_replays (s : State) (os : List Output) : (emits s os).replays = s.replays := rfl
@[simp] theorem emits_maints (s : State) (os : List Output) : (emits s os).maints = s.maints := rfl
@[simp] theorem emits_budget (s : State) (os : List Output) : (emits s os).budget = s.budget := rfl
@[simp] theorem emits_cfg (s : State) (os : List Output) : (emits s os).cfg = s.cfg := rfl
@[simp] theorem emits_flash (s : State) (os : List Output) : (emits s os).flash = s.flash := rfl
@[simp] theorem emits_pools (s : State) (os : List Output) : (emits s os).pools = s.pools := rfl
@[simp] theorem emits_vols (s : State) (os : List Output) : (emits s os).vols = s.vols := rfl
@[simp] theorem emits_members (s : State) (os : List Output) : (emits s os).members = s.members := rfl
@[simp] theorem emits_sbt (s : State) (os : List Output) : (emits s os).sbt = s.sbt := rfl
@[simp] theorem emits_links (s : State) (os : List Output) : (emits s os).links = s.links := rfl
@[simp] theorem emits_partners (s : State) (os : List Output) : (emits s os).partners = s.partners := rfl
@[simp] theorem emits_pcie (s : State) (os : List Output) : (emits s os).pcie = s.pcie := rfl
@[simp] theorem emits_sqs (s : State) (os : List Output) : (emits s os).sqs = s.sqs := rfl
@[simp] theorem emits_cqs (s : State) (os : List Output) : (emits s os).cqs = s.cqs := rfl
@[simp] theorem emits_live (s : State) (os : List Output) : (emits s os).live = s.live := rfl
@[simp] theorem emits_mbx (s : State) (os : List Output) : (emits s os).mbx = s.mbx := rfl
@[simp] theorem emits_cache (s : State) (os : List Output) : (emits s os).cache = s.cache := rfl
@[simp] theorem emits_jade (s : State) (os : List Output) : (emits s os).jade = s.jade := rfl
@[simp] theorem emits_jet (s : State) (os : List Output) : (emits s os).jet = s.jet := rfl
@[simp] theorem emits_jtag (s : State) (os : List Output) : (emits s os).jtag = s.jtag := rfl
@[simp] theorem emits_hk (s : State) (os : List Output) : (emits s os).hk = s.hk := rfl
@[simp] theorem emits_tests (s : State) (os : List Output) : (emits s os).tests = s.tests := rfl
@[simp] theorem emits_sec (s : State) (os : List Output) : (emits s os).sec = s.sec := rfl
@[simp] theorem emits_pending (s : State) (os : List Output) : (emits s os).pending = s.pending := rfl

@[simp] theorem jetRec_part (s : State) (c r : BitVec 16) (k : Nat) (a b : Bool) (d : List Byte) : (jetRec s c r k a b d).part = s.part := rfl
@[simp] theorem jetRec_clock (s : State) (c r : BitVec 16) (k : Nat) (a b : Bool) (d : List Byte) : (jetRec s c r k a b d).clock = s.clock := rfl
@[simp] theorem jetRec_freeIx (s : State) (c r : BitVec 16) (k : Nat) (a b : Bool) (d : List Byte) : (jetRec s c r k a b d).freeIx = s.freeIx := rfl
@[simp] theorem jetRec_nextId (s : State) (c r : BitVec 16) (k : Nat) (a b : Bool) (d : List Byte) : (jetRec s c r k a b d).nextId = s.nextId := rfl
@[simp] theorem jetRec_out (s : State) (c r : BitVec 16) (k : Nat) (a b : Bool) (d : List Byte) : (jetRec s c r k a b d).out = s.out := rfl
@[simp] theorem jetRec_phase (s : State) (c r : BitVec 16) (k : Nat) (a b : Bool) (d : List Byte) : (jetRec s c r k a b d).phase = s.phase := rfl
@[simp] theorem jetRec_pins (s : State) (c r : BitVec 16) (k : Nat) (a b : Bool) (d : List Byte) : (jetRec s c r k a b d).pins = s.pins := rfl
@[simp] theorem jetRec_moon (s : State) (c r : BitVec 16) (k : Nat) (a b : Bool) (d : List Byte) : (jetRec s c r k a b d).moon = s.moon := rfl
@[simp] theorem jetRec_tiles (s : State) (c r : BitVec 16) (k : Nat) (a b : Bool) (d : List Byte) : (jetRec s c r k a b d).tiles = s.tiles := rfl
@[simp] theorem jetRec_mesh (s : State) (c r : BitVec 16) (k : Nat) (a b : Bool) (d : List Byte) : (jetRec s c r k a b d).mesh = s.mesh := rfl
@[simp] theorem jetRec_cmds (s : State) (c r : BitVec 16) (k : Nat) (a b : Bool) (d : List Byte) : (jetRec s c r k a b d).cmds = s.cmds := rfl
@[simp] theorem jetRec_mcmds (s : State) (c r : BitVec 16) (k : Nat) (a b : Bool) (d : List Byte) : (jetRec s c r k a b d).mcmds = s.mcmds := rfl
@[simp] theorem jetRec_fetches (s : State) (c r : BitVec 16) (k : Nat) (a b : Bool) (d : List Byte) : (jetRec s c r k a b d).fetches = s.fetches := rfl
@[simp] theorem jetRec_destages (s : State) (c r : BitVec 16) (k : Nat) (a b : Bool) (d : List Byte) : (jetRec s c r k a b d).destages = s.destages := rfl
@[simp] theorem jetRec_replays (s : State) (c r : BitVec 16) (k : Nat) (a b : Bool) (d : List Byte) : (jetRec s c r k a b d).replays = s.replays := rfl
@[simp] theorem jetRec_maints (s : State) (c r : BitVec 16) (k : Nat) (a b : Bool) (d : List Byte) : (jetRec s c r k a b d).maints = s.maints := rfl
@[simp] theorem jetRec_budget (s : State) (c r : BitVec 16) (k : Nat) (a b : Bool) (d : List Byte) : (jetRec s c r k a b d).budget = s.budget := rfl
@[simp] theorem jetRec_cfg (s : State) (c r : BitVec 16) (k : Nat) (a b : Bool) (d : List Byte) : (jetRec s c r k a b d).cfg = s.cfg := rfl
@[simp] theorem jetRec_flash (s : State) (c r : BitVec 16) (k : Nat) (a b : Bool) (d : List Byte) : (jetRec s c r k a b d).flash = s.flash := rfl
@[simp] theorem jetRec_pools (s : State) (c r : BitVec 16) (k : Nat) (a b : Bool) (d : List Byte) : (jetRec s c r k a b d).pools = s.pools := rfl
@[simp] theorem jetRec_vols (s : State) (c r : BitVec 16) (k : Nat) (a b : Bool) (d : List Byte) : (jetRec s c r k a b d).vols = s.vols := rfl
@[simp] theorem jetRec_members (s : State) (c r : BitVec 16) (k : Nat) (a b : Bool) (d : List Byte) : (jetRec s c r k a b d).members = s.members := rfl
@[simp] theorem jetRec_sbt (s : State) (c r : BitVec 16) (k : Nat) (a b : Bool) (d : List Byte) : (jetRec s c r k a b d).sbt = s.sbt := rfl
@[simp] theorem jetRec_links (s : State) (c r : BitVec 16) (k : Nat) (a b : Bool) (d : List Byte) : (jetRec s c r k a b d).links = s.links := rfl
@[simp] theorem jetRec_partners (s : State) (c r : BitVec 16) (k : Nat) (a b : Bool) (d : List Byte) : (jetRec s c r k a b d).partners = s.partners := rfl
@[simp] theorem jetRec_pcie (s : State) (c r : BitVec 16) (k : Nat) (a b : Bool) (d : List Byte) : (jetRec s c r k a b d).pcie = s.pcie := rfl
@[simp] theorem jetRec_sqs (s : State) (c r : BitVec 16) (k : Nat) (a b : Bool) (d : List Byte) : (jetRec s c r k a b d).sqs = s.sqs := rfl
@[simp] theorem jetRec_cqs (s : State) (c r : BitVec 16) (k : Nat) (a b : Bool) (d : List Byte) : (jetRec s c r k a b d).cqs = s.cqs := rfl
@[simp] theorem jetRec_live (s : State) (c r : BitVec 16) (k : Nat) (a b : Bool) (d : List Byte) : (jetRec s c r k a b d).live = s.live := rfl
@[simp] theorem jetRec_mbx (s : State) (c r : BitVec 16) (k : Nat) (a b : Bool) (d : List Byte) : (jetRec s c r k a b d).mbx = s.mbx := rfl
@[simp] theorem jetRec_cache (s : State) (c r : BitVec 16) (k : Nat) (a b : Bool) (d : List Byte) : (jetRec s c r k a b d).cache = s.cache := rfl
@[simp] theorem jetRec_jade (s : State) (c r : BitVec 16) (k : Nat) (a b : Bool) (d : List Byte) : (jetRec s c r k a b d).jade = s.jade := rfl
@[simp] theorem jetRec_jtag (s : State) (c r : BitVec 16) (k : Nat) (a b : Bool) (d : List Byte) : (jetRec s c r k a b d).jtag = s.jtag := rfl
@[simp] theorem jetRec_hk (s : State) (c r : BitVec 16) (k : Nat) (a b : Bool) (d : List Byte) : (jetRec s c r k a b d).hk = s.hk := rfl
@[simp] theorem jetRec_tests (s : State) (c r : BitVec 16) (k : Nat) (a b : Bool) (d : List Byte) : (jetRec s c r k a b d).tests = s.tests := rfl
@[simp] theorem jetRec_sec (s : State) (c r : BitVec 16) (k : Nat) (a b : Bool) (d : List Byte) : (jetRec s c r k a b d).sec = s.sec := rfl
@[simp] theorem jetRec_pending (s : State) (c r : BitVec 16) (k : Nat) (a b : Bool) (d : List Byte) : (jetRec s c r k a b d).pending = s.pending := rfl

@[simp] theorem jetInfo_part (s : State) (c r : BitVec 16) (d : List Byte) : (jetInfo s c r d).part = s.part := rfl
@[simp] theorem jetInfo_clock (s : State) (c r : BitVec 16) (d : List Byte) : (jetInfo s c r d).clock = s.clock := rfl
@[simp] theorem jetInfo_freeIx (s : State) (c r : BitVec 16) (d : List Byte) : (jetInfo s c r d).freeIx = s.freeIx := rfl
@[simp] theorem jetInfo_nextId (s : State) (c r : BitVec 16) (d : List Byte) : (jetInfo s c r d).nextId = s.nextId := rfl
@[simp] theorem jetInfo_out (s : State) (c r : BitVec 16) (d : List Byte) : (jetInfo s c r d).out = s.out := rfl
@[simp] theorem jetInfo_phase (s : State) (c r : BitVec 16) (d : List Byte) : (jetInfo s c r d).phase = s.phase := rfl
@[simp] theorem jetInfo_pins (s : State) (c r : BitVec 16) (d : List Byte) : (jetInfo s c r d).pins = s.pins := rfl
@[simp] theorem jetInfo_moon (s : State) (c r : BitVec 16) (d : List Byte) : (jetInfo s c r d).moon = s.moon := rfl
@[simp] theorem jetInfo_tiles (s : State) (c r : BitVec 16) (d : List Byte) : (jetInfo s c r d).tiles = s.tiles := rfl
@[simp] theorem jetInfo_mesh (s : State) (c r : BitVec 16) (d : List Byte) : (jetInfo s c r d).mesh = s.mesh := rfl
@[simp] theorem jetInfo_cmds (s : State) (c r : BitVec 16) (d : List Byte) : (jetInfo s c r d).cmds = s.cmds := rfl
@[simp] theorem jetInfo_mcmds (s : State) (c r : BitVec 16) (d : List Byte) : (jetInfo s c r d).mcmds = s.mcmds := rfl
@[simp] theorem jetInfo_fetches (s : State) (c r : BitVec 16) (d : List Byte) : (jetInfo s c r d).fetches = s.fetches := rfl
@[simp] theorem jetInfo_destages (s : State) (c r : BitVec 16) (d : List Byte) : (jetInfo s c r d).destages = s.destages := rfl
@[simp] theorem jetInfo_replays (s : State) (c r : BitVec 16) (d : List Byte) : (jetInfo s c r d).replays = s.replays := rfl
@[simp] theorem jetInfo_maints (s : State) (c r : BitVec 16) (d : List Byte) : (jetInfo s c r d).maints = s.maints := rfl
@[simp] theorem jetInfo_budget (s : State) (c r : BitVec 16) (d : List Byte) : (jetInfo s c r d).budget = s.budget := rfl
@[simp] theorem jetInfo_cfg (s : State) (c r : BitVec 16) (d : List Byte) : (jetInfo s c r d).cfg = s.cfg := rfl
@[simp] theorem jetInfo_flash (s : State) (c r : BitVec 16) (d : List Byte) : (jetInfo s c r d).flash = s.flash := rfl
@[simp] theorem jetInfo_pools (s : State) (c r : BitVec 16) (d : List Byte) : (jetInfo s c r d).pools = s.pools := rfl
@[simp] theorem jetInfo_vols (s : State) (c r : BitVec 16) (d : List Byte) : (jetInfo s c r d).vols = s.vols := rfl
@[simp] theorem jetInfo_members (s : State) (c r : BitVec 16) (d : List Byte) : (jetInfo s c r d).members = s.members := rfl
@[simp] theorem jetInfo_sbt (s : State) (c r : BitVec 16) (d : List Byte) : (jetInfo s c r d).sbt = s.sbt := rfl
@[simp] theorem jetInfo_links (s : State) (c r : BitVec 16) (d : List Byte) : (jetInfo s c r d).links = s.links := rfl
@[simp] theorem jetInfo_partners (s : State) (c r : BitVec 16) (d : List Byte) : (jetInfo s c r d).partners = s.partners := rfl
@[simp] theorem jetInfo_pcie (s : State) (c r : BitVec 16) (d : List Byte) : (jetInfo s c r d).pcie = s.pcie := rfl
@[simp] theorem jetInfo_sqs (s : State) (c r : BitVec 16) (d : List Byte) : (jetInfo s c r d).sqs = s.sqs := rfl
@[simp] theorem jetInfo_cqs (s : State) (c r : BitVec 16) (d : List Byte) : (jetInfo s c r d).cqs = s.cqs := rfl
@[simp] theorem jetInfo_live (s : State) (c r : BitVec 16) (d : List Byte) : (jetInfo s c r d).live = s.live := rfl
@[simp] theorem jetInfo_mbx (s : State) (c r : BitVec 16) (d : List Byte) : (jetInfo s c r d).mbx = s.mbx := rfl
@[simp] theorem jetInfo_cache (s : State) (c r : BitVec 16) (d : List Byte) : (jetInfo s c r d).cache = s.cache := rfl
@[simp] theorem jetInfo_jade (s : State) (c r : BitVec 16) (d : List Byte) : (jetInfo s c r d).jade = s.jade := rfl
@[simp] theorem jetInfo_jtag (s : State) (c r : BitVec 16) (d : List Byte) : (jetInfo s c r d).jtag = s.jtag := rfl
@[simp] theorem jetInfo_hk (s : State) (c r : BitVec 16) (d : List Byte) : (jetInfo s c r d).hk = s.hk := rfl
@[simp] theorem jetInfo_tests (s : State) (c r : BitVec 16) (d : List Byte) : (jetInfo s c r d).tests = s.tests := rfl
@[simp] theorem jetInfo_sec (s : State) (c r : BitVec 16) (d : List Byte) : (jetInfo s c r d).sec = s.sec := rfl
@[simp] theorem jetInfo_pending (s : State) (c r : BitVec 16) (d : List Byte) : (jetInfo s c r d).pending = s.pending := rfl

@[simp] theorem settleF2_part (s : State) : (settleF2 s).part = s.part := rfl
@[simp] theorem settleF2_clock (s : State) : (settleF2 s).clock = s.clock := rfl
@[simp] theorem settleF2_freeIx (s : State) : (settleF2 s).freeIx = s.freeIx := rfl
@[simp] theorem settleF2_nextId (s : State) : (settleF2 s).nextId = s.nextId := rfl
@[simp] theorem settleF2_out (s : State) : (settleF2 s).out = s.out := rfl
@[simp] theorem settleF2_phase (s : State) : (settleF2 s).phase = s.phase := rfl
@[simp] theorem settleF2_pins (s : State) : (settleF2 s).pins = s.pins := rfl
@[simp] theorem settleF2_moon (s : State) : (settleF2 s).moon = s.moon := rfl
@[simp] theorem settleF2_tiles (s : State) : (settleF2 s).tiles = s.tiles := rfl
@[simp] theorem settleF2_mesh (s : State) : (settleF2 s).mesh = s.mesh := rfl
@[simp] theorem settleF2_cmds (s : State) : (settleF2 s).cmds = s.cmds := rfl
@[simp] theorem settleF2_mcmds (s : State) : (settleF2 s).mcmds = s.mcmds := rfl
@[simp] theorem settleF2_fetches (s : State) : (settleF2 s).fetches = s.fetches := rfl
@[simp] theorem settleF2_destages (s : State) : (settleF2 s).destages = s.destages := rfl
@[simp] theorem settleF2_replays (s : State) : (settleF2 s).replays = s.replays := rfl
@[simp] theorem settleF2_maints (s : State) : (settleF2 s).maints = s.maints := rfl
@[simp] theorem settleF2_budget (s : State) : (settleF2 s).budget = s.budget := rfl
@[simp] theorem settleF2_cfg (s : State) : (settleF2 s).cfg = s.cfg := rfl
@[simp] theorem settleF2_flash (s : State) : (settleF2 s).flash = s.flash := rfl
@[simp] theorem settleF2_pools (s : State) : (settleF2 s).pools = s.pools := rfl
@[simp] theorem settleF2_vols (s : State) : (settleF2 s).vols = s.vols := rfl
@[simp] theorem settleF2_members (s : State) : (settleF2 s).members = s.members := rfl
@[simp] theorem settleF2_sbt (s : State) : (settleF2 s).sbt = s.sbt := rfl
@[simp] theorem settleF2_links (s : State) : (settleF2 s).links = s.links := rfl
@[simp] theorem settleF2_partners (s : State) : (settleF2 s).partners = s.partners := rfl
@[simp] theorem settleF2_pcie (s : State) : (settleF2 s).pcie = s.pcie := rfl
@[simp] theorem settleF2_sqs (s : State) : (settleF2 s).sqs = s.sqs := rfl
@[simp] theorem settleF2_cqs (s : State) : (settleF2 s).cqs = s.cqs := rfl
@[simp] theorem settleF2_live (s : State) : (settleF2 s).live = s.live := rfl
@[simp] theorem settleF2_mbx (s : State) : (settleF2 s).mbx = s.mbx := rfl
@[simp] theorem settleF2_cache (s : State) : (settleF2 s).cache = s.cache := rfl
@[simp] theorem settleF2_jet (s : State) : (settleF2 s).jet = s.jet := rfl
@[simp] theorem settleF2_jtag (s : State) : (settleF2 s).jtag = s.jtag := rfl
@[simp] theorem settleF2_hk (s : State) : (settleF2 s).hk = s.hk := rfl
@[simp] theorem settleF2_tests (s : State) : (settleF2 s).tests = s.tests := rfl
@[simp] theorem settleF2_sec (s : State) : (settleF2 s).sec = s.sec := rfl
@[simp] theorem settleF2_pending (s : State) : (settleF2 s).pending = s.pending := rfl

@[simp] theorem modWin_part (s : State) (dk di : Nat) (f : CorrWin → CorrWin) : (modWin s dk di f).part = s.part := rfl
@[simp] theorem modWin_clock (s : State) (dk di : Nat) (f : CorrWin → CorrWin) : (modWin s dk di f).clock = s.clock := rfl
@[simp] theorem modWin_freeIx (s : State) (dk di : Nat) (f : CorrWin → CorrWin) : (modWin s dk di f).freeIx = s.freeIx := rfl
@[simp] theorem modWin_nextId (s : State) (dk di : Nat) (f : CorrWin → CorrWin) : (modWin s dk di f).nextId = s.nextId := rfl
@[simp] theorem modWin_out (s : State) (dk di : Nat) (f : CorrWin → CorrWin) : (modWin s dk di f).out = s.out := rfl
@[simp] theorem modWin_phase (s : State) (dk di : Nat) (f : CorrWin → CorrWin) : (modWin s dk di f).phase = s.phase := rfl
@[simp] theorem modWin_pins (s : State) (dk di : Nat) (f : CorrWin → CorrWin) : (modWin s dk di f).pins = s.pins := rfl
@[simp] theorem modWin_moon (s : State) (dk di : Nat) (f : CorrWin → CorrWin) : (modWin s dk di f).moon = s.moon := rfl
@[simp] theorem modWin_tiles (s : State) (dk di : Nat) (f : CorrWin → CorrWin) : (modWin s dk di f).tiles = s.tiles := rfl
@[simp] theorem modWin_mesh (s : State) (dk di : Nat) (f : CorrWin → CorrWin) : (modWin s dk di f).mesh = s.mesh := rfl
@[simp] theorem modWin_cmds (s : State) (dk di : Nat) (f : CorrWin → CorrWin) : (modWin s dk di f).cmds = s.cmds := rfl
@[simp] theorem modWin_mcmds (s : State) (dk di : Nat) (f : CorrWin → CorrWin) : (modWin s dk di f).mcmds = s.mcmds := rfl
@[simp] theorem modWin_fetches (s : State) (dk di : Nat) (f : CorrWin → CorrWin) : (modWin s dk di f).fetches = s.fetches := rfl
@[simp] theorem modWin_destages (s : State) (dk di : Nat) (f : CorrWin → CorrWin) : (modWin s dk di f).destages = s.destages := rfl
@[simp] theorem modWin_replays (s : State) (dk di : Nat) (f : CorrWin → CorrWin) : (modWin s dk di f).replays = s.replays := rfl
@[simp] theorem modWin_maints (s : State) (dk di : Nat) (f : CorrWin → CorrWin) : (modWin s dk di f).maints = s.maints := rfl
@[simp] theorem modWin_budget (s : State) (dk di : Nat) (f : CorrWin → CorrWin) : (modWin s dk di f).budget = s.budget := rfl
@[simp] theorem modWin_cfg (s : State) (dk di : Nat) (f : CorrWin → CorrWin) : (modWin s dk di f).cfg = s.cfg := rfl
@[simp] theorem modWin_flash (s : State) (dk di : Nat) (f : CorrWin → CorrWin) : (modWin s dk di f).flash = s.flash := rfl
@[simp] theorem modWin_pools (s : State) (dk di : Nat) (f : CorrWin → CorrWin) : (modWin s dk di f).pools = s.pools := rfl
@[simp] theorem modWin_vols (s : State) (dk di : Nat) (f : CorrWin → CorrWin) : (modWin s dk di f).vols = s.vols := rfl
@[simp] theorem modWin_members (s : State) (dk di : Nat) (f : CorrWin → CorrWin) : (modWin s dk di f).members = s.members := rfl
@[simp] theorem modWin_sbt (s : State) (dk di : Nat) (f : CorrWin → CorrWin) : (modWin s dk di f).sbt = s.sbt := rfl
@[simp] theorem modWin_links (s : State) (dk di : Nat) (f : CorrWin → CorrWin) : (modWin s dk di f).links = s.links := rfl
@[simp] theorem modWin_partners (s : State) (dk di : Nat) (f : CorrWin → CorrWin) : (modWin s dk di f).partners = s.partners := rfl
@[simp] theorem modWin_pcie (s : State) (dk di : Nat) (f : CorrWin → CorrWin) : (modWin s dk di f).pcie = s.pcie := rfl
@[simp] theorem modWin_sqs (s : State) (dk di : Nat) (f : CorrWin → CorrWin) : (modWin s dk di f).sqs = s.sqs := rfl
@[simp] theorem modWin_cqs (s : State) (dk di : Nat) (f : CorrWin → CorrWin) : (modWin s dk di f).cqs = s.cqs := rfl
@[simp] theorem modWin_live (s : State) (dk di : Nat) (f : CorrWin → CorrWin) : (modWin s dk di f).live = s.live := rfl
@[simp] theorem modWin_mbx (s : State) (dk di : Nat) (f : CorrWin → CorrWin) : (modWin s dk di f).mbx = s.mbx := rfl
@[simp] theorem modWin_cache (s : State) (dk di : Nat) (f : CorrWin → CorrWin) : (modWin s dk di f).cache = s.cache := rfl
@[simp] theorem modWin_jet (s : State) (dk di : Nat) (f : CorrWin → CorrWin) : (modWin s dk di f).jet = s.jet := rfl
@[simp] theorem modWin_jtag (s : State) (dk di : Nat) (f : CorrWin → CorrWin) : (modWin s dk di f).jtag = s.jtag := rfl
@[simp] theorem modWin_hk (s : State) (dk di : Nat) (f : CorrWin → CorrWin) : (modWin s dk di f).hk = s.hk := rfl
@[simp] theorem modWin_tests (s : State) (dk di : Nat) (f : CorrWin → CorrWin) : (modWin s dk di f).tests = s.tests := rfl
@[simp] theorem modWin_sec (s : State) (dk di : Nat) (f : CorrWin → CorrWin) : (modWin s dk di f).sec = s.sec := rfl
@[simp] theorem modWin_pending (s : State) (dk di : Nat) (f : CorrWin → CorrWin) : (modWin s dk di f).pending = s.pending := rfl

end Sys2Proof.Machine
end

