-- ==== Sys2Proof/Laws/Done.lean ====
section
/-! SUPPORT. Laws of the end of a command and of raising a fault: what each may change, said once, and field by field. -/

namespace Sys2Proof.Machine

/-! ### Interrupt levels -/

/-- A message changes what is emitted, or the messages a function holds. -/
theorem sendMsg_frame (s : State) (fn v : Nat) :
    ∃ fs o, sendMsg s fn v = { s with pcie := { s.pcie with funcs := fs }, out := s.out ++ o } := by
  simp only [sendMsg]
  split
  · exact ⟨s.pcie.funcs, [.msix fn v], rfl⟩
  · exact ⟨(modFunc s fn (fun f => { f with heldMsgs := addOnce f.heldMsgs v })).pcie.funcs, [], by simp [setFunc]⟩

theorem sendMsgs_frame (fn : Nat) (l : List Nat) (s : State) :
    ∃ fs o, l.foldl (fun s v => sendMsg s fn v) s = { s with pcie := { s.pcie with funcs := fs }, out := s.out ++ o } := by
  induction l generalizing s with
  | nil => exact ⟨s.pcie.funcs, [], by simp⟩
  | cons v r ih =>
    obtain ⟨f1, o1, h1⟩ := sendMsg_frame s fn v
    obtain ⟨f2, o2, h2⟩ := ih (sendMsg s fn v)
    exact ⟨f2, o1 ++ o2, by rw [List.foldl_cons, h2, h1]; simp⟩

theorem irqFn_frame (s : State) (fn : Nat) :
    ∃ fs o, irqFn s fn = { s with pcie := { s.pcie with funcs := fs }, out := s.out ++ o } := by
  simp only [irqFn]
  split
  · exact ⟨s.pcie.funcs, [], by simp⟩
  · obtain ⟨f2, o2, h2⟩ := sendMsgs_frame fn
      ((highVectors s fn).filter (fun v => !(getFunc s fn).high.contains v))
      (modFunc s fn (fun f => { f with high := highVectors s fn }))
    exact ⟨f2, o2, by rw [h2]; simp [setFunc]⟩

theorem irqFns_frame (l : List Nat) (s : State) :
    ∃ fs o, l.foldl irqFn s = { s with pcie := { s.pcie with funcs := fs }, out := s.out ++ o } := by
  induction l generalizing s with
  | nil => exact ⟨s.pcie.funcs, [], by simp⟩
  | cons v r ih =>
    obtain ⟨f1, o1, h1⟩ := irqFn_frame s v
    obtain ⟨f2, o2, h2⟩ := ih (irqFn s v)
    exact ⟨f2, o1 ++ o2, by rw [List.foldl_cons, h2, h1]; simp⟩

/-- The end of a command changes F2 timers, the functions' held messages and levels, and what is emitted. -/
theorem settled_frame (s : State) :
    ∃ q fs o, settled s =
      { s with jade := { s.jade with queue := q }, pcie := { s.pcie with funcs := fs }, out := s.out ++ o } := by
  obtain ⟨fs, o, h⟩ := irqFns_frame (List.range ((settleF2 s).pcie.numVfs + 1)) (settleF2 s)
  exact ⟨(settleF2 s).jade.queue, fs, o, by rw [settled, irqUpdate, h]; simp [settleF2]⟩

/-- A command that has taken its effect answers the settled state. -/
theorem done_eq (s : State) : done s = .next (settled s) := rfl

/-- What the end of a command emits comes after what the command emitted. -/
theorem settled_out (s : State) : ∃ o, (settled s).out = s.out ++ o := by
  obtain ⟨q, fs, o, h⟩ := settled_frame s
  exact ⟨o, by rw [h]⟩

theorem settled_jade (s : State) : ∃ q, (settled s).jade = { s.jade with queue := q } := by
  obtain ⟨q, fs, o, h⟩ := settled_frame s
  exact ⟨q, by rw [h]⟩

theorem settled_pcie (s : State) : ∃ fs, (settled s).pcie = { s.pcie with funcs := fs } := by
  obtain ⟨q, fs, o, h⟩ := settled_frame s
  exact ⟨fs, by rw [h]⟩

@[simp] theorem settled_part (s : State) : (settled s).part = s.part := by
  obtain ⟨q, fs, o, h⟩ := settled_frame s; rw [h]
@[simp] theorem settled_clock (s : State) : (settled s).clock = s.clock := by
  obtain ⟨q, fs, o, h⟩ := settled_frame s; rw [h]
@[simp] theorem settled_freeIx (s : State) : (settled s).freeIx = s.freeIx := by
  obtain ⟨q, fs, o, h⟩ := settled_frame s; rw [h]
@[simp] theorem settled_nextId (s : State) : (settled s).nextId = s.nextId := by
  obtain ⟨q, fs, o, h⟩ := settled_frame s; rw [h]
@[simp] theorem settled_phase (s : State) : (settled s).phase = s.phase := by
  obtain ⟨q, fs, o, h⟩ := settled_frame s; rw [h]
@[simp] theorem settled_pins (s : State) : (settled s).pins = s.pins := by
  obtain ⟨q, fs, o, h⟩ := settled_frame s; rw [h]
@[simp] theorem settled_moon (s : State) : (settled s).moon = s.moon := by
  obtain ⟨q, fs, o, h⟩ := settled_frame s; rw [h]
@[simp] theorem settled_tiles (s : State) : (settled s).tiles = s.tiles := by
  obtain ⟨q, fs, o, h⟩ := settled_frame s; rw [h]
@[simp] theorem settled_mesh (s : State) : (settled s).mesh = s.mesh := by
  obtain ⟨q, fs, o, h⟩ := settled_frame s; rw [h]
@[simp] theorem settled_cmds (s : State) : (settled s).cmds = s.cmds := by
  obtain ⟨q, fs, o, h⟩ := settled_frame s; rw [h]
@[simp] theorem settled_mcmds (s : State) : (settled s).mcmds = s.mcmds := by
  obtain ⟨q, fs, o, h⟩ := settled_frame s; rw [h]
@[simp] theorem settled_fetches (s : State) : (settled s).fetches = s.fetches := by
  obtain ⟨q, fs, o, h⟩ := settled_frame s; rw [h]
@[simp] theorem settled_destages (s : State) : (settled s).destages = s.destages := by
  obtain ⟨q, fs, o, h⟩ := settled_frame s; rw [h]
@[simp] theorem settled_replays (s : State) : (settled s).replays = s.replays := by
  obtain ⟨q, fs, o, h⟩ := settled_frame s; rw [h]
@[simp] theorem settled_maints (s : State) : (settled s).maints = s.maints := by
  obtain ⟨q, fs, o, h⟩ := settled_frame s; rw [h]
@[simp] theorem settled_budget (s : State) : (settled s).budget = s.budget := by
  obtain ⟨q, fs, o, h⟩ := settled_frame s; rw [h]
@[simp] theorem settled_cfg (s : State) : (settled s).cfg = s.cfg := by
  obtain ⟨q, fs, o, h⟩ := settled_frame s; rw [h]
@[simp] theorem settled_flash (s : State) : (settled s).flash = s.flash := by
  obtain ⟨q, fs, o, h⟩ := settled_frame s; rw [h]
@[simp] theorem settled_pools (s : State) : (settled s).pools = s.pools := by
  obtain ⟨q, fs, o, h⟩ := settled_frame s; rw [h]
@[simp] theorem settled_vols (s : State) : (settled s).vols = s.vols := by
  obtain ⟨q, fs, o, h⟩ := settled_frame s; rw [h]
@[simp] theorem settled_members (s : State) : (settled s).members = s.members := by
  obtain ⟨q, fs, o, h⟩ := settled_frame s; rw [h]
@[simp] theorem settled_sbt (s : State) : (settled s).sbt = s.sbt := by
  obtain ⟨q, fs, o, h⟩ := settled_frame s; rw [h]
@[simp] theorem settled_links (s : State) : (settled s).links = s.links := by
  obtain ⟨q, fs, o, h⟩ := settled_frame s; rw [h]
@[simp] theorem settled_partners (s : State) : (settled s).partners = s.partners := by
  obtain ⟨q, fs, o, h⟩ := settled_frame s; rw [h]
@[simp] theorem settled_sqs (s : State) : (settled s).sqs = s.sqs := by
  obtain ⟨q, fs, o, h⟩ := settled_frame s; rw [h]
@[simp] theorem settled_cqs (s : State) : (settled s).cqs = s.cqs := by
  obtain ⟨q, fs, o, h⟩ := settled_frame s; rw [h]
@[simp] theorem settled_live (s : State) : (settled s).live = s.live := by
  obtain ⟨q, fs, o, h⟩ := settled_frame s; rw [h]
@[simp] theorem settled_mbx (s : State) : (settled s).mbx = s.mbx := by
  obtain ⟨q, fs, o, h⟩ := settled_frame s; rw [h]
@[simp] theorem settled_cache (s : State) : (settled s).cache = s.cache := by
  obtain ⟨q, fs, o, h⟩ := settled_frame s; rw [h]
@[simp] theorem settled_jet (s : State) : (settled s).jet = s.jet := by
  obtain ⟨q, fs, o, h⟩ := settled_frame s; rw [h]
@[simp] theorem settled_jtag (s : State) : (settled s).jtag = s.jtag := by
  obtain ⟨q, fs, o, h⟩ := settled_frame s; rw [h]
@[simp] theorem settled_hk (s : State) : (settled s).hk = s.hk := by
  obtain ⟨q, fs, o, h⟩ := settled_frame s; rw [h]
@[simp] theorem settled_tests (s : State) : (settled s).tests = s.tests := by
  obtain ⟨q, fs, o, h⟩ := settled_frame s; rw [h]
@[simp] theorem settled_sec (s : State) : (settled s).sec = s.sec := by
  obtain ⟨q, fs, o, h⟩ := settled_frame s; rw [h]
@[simp] theorem settled_pending (s : State) : (settled s).pending = s.pending := by
  obtain ⟨q, fs, o, h⟩ := settled_frame s; rw [h]

/-! ### Raising a fault -/

/-- What a fault may change: Jade's queue, windows and latches, Jet, four pins, training, the links, the host link and the functions'
PME and levels, and what is emitted. -/
def FaultFrame (s t : State) : Prop :=
  ∃ q li w f1 f3 es qf f4 fc ar jt fn al wk bc ba tr ls ps lu fs o, t =
    { s with
      jade := { s.jade with queue := q, lastId := li, windows := w, f1Seen := f1, f3Seen := f3, escalated := es,
                            queueFull := qf, f4 := f4, f4Cause := fc, aliveRunning := ar }
      jet := jt
      pins := { s.pins with faultN := fn, alive := al, wakeN := wk, bypassClosed := bc, bypassAt := ba }
      moon := { s.moon with trained := tr }
      links := ls
      partners := ps
      pcie := { s.pcie with linkUp := lu, funcs := fs }
      out := o }

theorem FaultFrame.refl (s : State) : FaultFrame s s := ⟨_, _, _, _, _, _, _, _, _, _, _, _, _, _, _, _, _, _, _, _, _, _, rfl⟩

theorem FaultFrame.trans {s t u : State} (h : FaultFrame s t) (k : FaultFrame t u) : FaultFrame s u := by
  obtain ⟨_, _, _, _, _, _, _, _, _, _, _, _, _, _, _, _, _, _, _, _, _, _, rfl⟩ := h
  obtain ⟨_, _, _, _, _, _, _, _, _, _, _, _, _, _, _, _, _, _, _, _, _, _, rfl⟩ := k
  exact ⟨_, _, _, _, _, _, _, _, _, _, _, _, _, _, _, _, _, _, _, _, _, _, rfl⟩

theorem jetRec_faultFrame (s : State) (c r : BitVec 16) (k : Nat) (a b : Bool) (d : List Byte) :
    FaultFrame s (jetRec s c r k a b d) := ⟨_, _, _, _, _, _, _, _, _, _, _, _, _, _, _, _, _, _, _, _, _, _, rfl⟩

theorem enterF4_faultFrame (s : State) (c : Nat) : FaultFrame s (enterF4 s c) := by
  simp only [enterF4]
  split
  · exact .refl s
  · exact ⟨_, _, _, _, _, _, _, _, _, _, _, _, _, _, _, _, _, _, _, _, _, _, rfl⟩

theorem modWin_faultFrame (s : State) (dk di : Nat) (f : CorrWin → CorrWin) : FaultFrame s (modWin s dk di f) :=
  ⟨_, _, _, _, _, _, _, _, _, _, _, _, _, _, _, _, _, _, _, _, _, _, rfl⟩

theorem recordFault_faultFrame (s : State) (a : FaultArg) (c : Bool) : FaultFrame s (recordFault s a c) := by
  simp only [recordFault]
  split <;> exact ⟨_, _, _, _, _, _, _, _, _, _, _, _, _, _, _, _, _, _, _, _, _, _, rfl⟩

theorem makeEntry_faultFrame (s : State) (code src : BitVec 16) (cls dk di : Nat) (corr acted : Bool) :
    FaultFrame s (makeEntry s code src cls dk di corr acted) := by
  simp only [makeEntry]
  repeat' split
  all_goals first
    | exact enterF4_faultFrame _ _
    | exact FaultFrame.trans ⟨_, _, _, _, _, _, _, _, _, _, _, _, _, _, _, _, _, _, _, _, _, _, rfl⟩ (enterF4_faultFrame _ _)
    | exact ⟨_, _, _, _, _, _, _, _, _, _, _, _, _, _, _, _, _, _, _, _, _, _, rfl⟩

theorem placeEvent_faultFrame (s : State) (dk di : Nat) (code src : BitVec 16) (cls : Nat) (corr acted : Bool) :
    FaultFrame s (placeEvent s dk di code src cls corr acted) := by
  simp only [placeEvent]
  repeat' split
  all_goals first
    | exact enterF4_faultFrame _ _
    | exact makeEntry_faultFrame _ _ _ _ _ _ _ _
    | exact ⟨_, _, _, _, _, _, _, _, _, _, _, _, _, _, _, _, _, _, _, _, _, _, rfl⟩

theorem joinWindow_faultFrame (s : State) (w : CorrWin) (a : FaultArg) : FaultFrame s (joinWindow s w a) := by
  simp only [joinWindow]
  split
  · split <;> exact ⟨_, _, _, _, _, _, _, _, _, _, _, _, _, _, _, _, _, _, _, _, _, _, rfl⟩
  · have h := recordFault_faultFrame s a true
    generalize recordFault s a true = u at h ⊢
    generalize (if w.escalated = true then max w.cls a.cls else min 4 (max w.cls a.cls + 1)) = cls
    refine FaultFrame.trans h (FaultFrame.trans ?_ (placeEvent_faultFrame _ _ _ _ _ _ _ _))
    split <;> exact ⟨_, _, _, _, _, _, _, _, _, _, _, _, _, _, _, _, _, _, _, _, _, _, rfl⟩

theorem raise_faultFrame (s : State) (a : FaultArg) : FaultFrame s (raise s a) := by
  unfold raise
  split
  · exact recordFault_faultFrame _ _ _
  · split
    · exact recordFault_faultFrame _ _ _
    · split
      · exact FaultFrame.trans (recordFault_faultFrame s a false) (enterF4_faultFrame _ _)
      · split
        · exact joinWindow_faultFrame _ _ _
        · have h := recordFault_faultFrame s a false
          generalize recordFault s a false = u at h ⊢
          refine FaultFrame.trans h (FaultFrame.trans ?_ (placeEvent_faultFrame _ _ _ _ _ _ _ _))
          exact ⟨_, _, _, _, _, _, _, _, _, _, _, _, _, _, _, _, _, _, _, _, _, _, rfl⟩

theorem wakeEvent_faultFrame (s : State) : FaultFrame s (wakeEvent s) := by
  simp only [wakeEvent]
  repeat' split
  all_goals exact ⟨_, _, _, _, _, _, _, _, _, _, _, _, _, _, _, _, _, _, _, _, _, _, rfl⟩

/-- A fault changes Jade, Jet, the pins, training, the links, the host link and what is emitted, and nothing else. -/
theorem fault_faultFrame (s : State) (a : FaultArg) : FaultFrame s (fault s a) := by
  simp only [fault]
  split
  · exact FaultFrame.trans (raise_faultFrame s a) (wakeEvent_faultFrame _)
  · exact raise_faultFrame s a

@[simp] theorem fault_part (s : State) (a : FaultArg) : (fault s a).part = s.part := by
  obtain ⟨_, _, _, _, _, _, _, _, _, _, _, _, _, _, _, _, _, _, _, _, _, _, h⟩ := fault_faultFrame s a; rw [h]
@[simp] theorem fault0_part (s : State) (c : BitVec 16) (k : Nat) (r : BitVec 16) : (fault0 s c k r).part = s.part := by
  simp [fault0]
@[simp] theorem fault_clock (s : State) (a : FaultArg) : (fault s a).clock = s.clock := by
  obtain ⟨_, _, _, _, _, _, _, _, _, _, _, _, _, _, _, _, _, _, _, _, _, _, h⟩ := fault_faultFrame s a; rw [h]
@[simp] theorem fault0_clock (s : State) (c : BitVec 16) (k : Nat) (r : BitVec 16) : (fault0 s c k r).clock = s.clock := by
  simp [fault0]
@[simp] theorem fault_freeIx (s : State) (a : FaultArg) : (fault s a).freeIx = s.freeIx := by
  obtain ⟨_, _, _, _, _, _, _, _, _, _, _, _, _, _, _, _, _, _, _, _, _, _, h⟩ := fault_faultFrame s a; rw [h]
@[simp] theorem fault0_freeIx (s : State) (c : BitVec 16) (k : Nat) (r : BitVec 16) : (fault0 s c k r).freeIx = s.freeIx := by
  simp [fault0]
@[simp] theorem fault_nextId (s : State) (a : FaultArg) : (fault s a).nextId = s.nextId := by
  obtain ⟨_, _, _, _, _, _, _, _, _, _, _, _, _, _, _, _, _, _, _, _, _, _, h⟩ := fault_faultFrame s a; rw [h]
@[simp] theorem fault0_nextId (s : State) (c : BitVec 16) (k : Nat) (r : BitVec 16) : (fault0 s c k r).nextId = s.nextId := by
  simp [fault0]
@[simp] theorem fault_phase (s : State) (a : FaultArg) : (fault s a).phase = s.phase := by
  obtain ⟨_, _, _, _, _, _, _, _, _, _, _, _, _, _, _, _, _, _, _, _, _, _, h⟩ := fault_faultFrame s a; rw [h]
@[simp] theorem fault0_phase (s : State) (c : BitVec 16) (k : Nat) (r : BitVec 16) : (fault0 s c k r).phase = s.phase := by
  simp [fault0]
@[simp] theorem fault_tiles (s : State) (a : FaultArg) : (fault s a).tiles = s.tiles := by
  obtain ⟨_, _, _, _, _, _, _, _, _, _, _, _, _, _, _, _, _, _, _, _, _, _, h⟩ := fault_faultFrame s a; rw [h]
@[simp] theorem fault0_tiles (s : State) (c : BitVec 16) (k : Nat) (r : BitVec 16) : (fault0 s c k r).tiles = s.tiles := by
  simp [fault0]
@[simp] theorem fault_mesh (s : State) (a : FaultArg) : (fault s a).mesh = s.mesh := by
  obtain ⟨_, _, _, _, _, _, _, _, _, _, _, _, _, _, _, _, _, _, _, _, _, _, h⟩ := fault_faultFrame s a; rw [h]
@[simp] theorem fault0_mesh (s : State) (c : BitVec 16) (k : Nat) (r : BitVec 16) : (fault0 s c k r).mesh = s.mesh := by
  simp [fault0]
@[simp] theorem fault_cmds (s : State) (a : FaultArg) : (fault s a).cmds = s.cmds := by
  obtain ⟨_, _, _, _, _, _, _, _, _, _, _, _, _, _, _, _, _, _, _, _, _, _, h⟩ := fault_faultFrame s a; rw [h]
@[simp] theorem fault0_cmds (s : State) (c : BitVec 16) (k : Nat) (r : BitVec 16) : (fault0 s c k r).cmds = s.cmds := by
  simp [fault0]
@[simp] theorem fault_mcmds (s : State) (a : FaultArg) : (fault s a).mcmds = s.mcmds := by
  obtain ⟨_, _, _, _, _, _, _, _, _, _, _, _, _, _, _, _, _, _, _, _, _, _, h⟩ := fault_faultFrame s a; rw [h]
@[simp] theorem fault0_mcmds (s : State) (c : BitVec 16) (k : Nat) (r : BitVec 16) : (fault0 s c k r).mcmds = s.mcmds := by
  simp [fault0]
@[simp] theorem fault_fetches (s : State) (a : FaultArg) : (fault s a).fetches = s.fetches := by
  obtain ⟨_, _, _, _, _, _, _, _, _, _, _, _, _, _, _, _, _, _, _, _, _, _, h⟩ := fault_faultFrame s a; rw [h]
@[simp] theorem fault0_fetches (s : State) (c : BitVec 16) (k : Nat) (r : BitVec 16) : (fault0 s c k r).fetches = s.fetches := by
  simp [fault0]
@[simp] theorem fault_destages (s : State) (a : FaultArg) : (fault s a).destages = s.destages := by
  obtain ⟨_, _, _, _, _, _, _, _, _, _, _, _, _, _, _, _, _, _, _, _, _, _, h⟩ := fault_faultFrame s a; rw [h]
@[simp] theorem fault0_destages (s : State) (c : BitVec 16) (k : Nat) (r : BitVec 16) : (fault0 s c k r).destages = s.destages := by
  simp [fault0]
@[simp] theorem fault_replays (s : State) (a : FaultArg) : (fault s a).replays = s.replays := by
  obtain ⟨_, _, _, _, _, _, _, _, _, _, _, _, _, _, _, _, _, _, _, _, _, _, h⟩ := fault_faultFrame s a; rw [h]
@[simp] theorem fault0_replays (s : State) (c : BitVec 16) (k : Nat) (r : BitVec 16) : (fault0 s c k r).replays = s.replays := by
  simp [fault0]
@[simp] theorem fault_maints (s : State) (a : FaultArg) : (fault s a).maints = s.maints := by
  obtain ⟨_, _, _, _, _, _, _, _, _, _, _, _, _, _, _, _, _, _, _, _, _, _, h⟩ := fault_faultFrame s a; rw [h]
@[simp] theorem fault0_maints (s : State) (c : BitVec 16) (k : Nat) (r : BitVec 16) : (fault0 s c k r).maints = s.maints := by
  simp [fault0]
@[simp] theorem fault_budget (s : State) (a : FaultArg) : (fault s a).budget = s.budget := by
  obtain ⟨_, _, _, _, _, _, _, _, _, _, _, _, _, _, _, _, _, _, _, _, _, _, h⟩ := fault_faultFrame s a; rw [h]
@[simp] theorem fault0_budget (s : State) (c : BitVec 16) (k : Nat) (r : BitVec 16) : (fault0 s c k r).budget = s.budget := by
  simp [fault0]
@[simp] theorem fault_cfg (s : State) (a : FaultArg) : (fault s a).cfg = s.cfg := by
  obtain ⟨_, _, _, _, _, _, _, _, _, _, _, _, _, _, _, _, _, _, _, _, _, _, h⟩ := fault_faultFrame s a; rw [h]
@[simp] theorem fault0_cfg (s : State) (c : BitVec 16) (k : Nat) (r : BitVec 16) : (fault0 s c k r).cfg = s.cfg := by
  simp [fault0]
@[simp] theorem fault_flash (s : State) (a : FaultArg) : (fault s a).flash = s.flash := by
  obtain ⟨_, _, _, _, _, _, _, _, _, _, _, _, _, _, _, _, _, _, _, _, _, _, h⟩ := fault_faultFrame s a; rw [h]
@[simp] theorem fault0_flash (s : State) (c : BitVec 16) (k : Nat) (r : BitVec 16) : (fault0 s c k r).flash = s.flash := by
  simp [fault0]
@[simp] theorem fault_pools (s : State) (a : FaultArg) : (fault s a).pools = s.pools := by
  obtain ⟨_, _, _, _, _, _, _, _, _, _, _, _, _, _, _, _, _, _, _, _, _, _, h⟩ := fault_faultFrame s a; rw [h]
@[simp] theorem fault0_pools (s : State) (c : BitVec 16) (k : Nat) (r : BitVec 16) : (fault0 s c k r).pools = s.pools := by
  simp [fault0]
@[simp] theorem fault_vols (s : State) (a : FaultArg) : (fault s a).vols = s.vols := by
  obtain ⟨_, _, _, _, _, _, _, _, _, _, _, _, _, _, _, _, _, _, _, _, _, _, h⟩ := fault_faultFrame s a; rw [h]
@[simp] theorem fault0_vols (s : State) (c : BitVec 16) (k : Nat) (r : BitVec 16) : (fault0 s c k r).vols = s.vols := by
  simp [fault0]
@[simp] theorem fault_members (s : State) (a : FaultArg) : (fault s a).members = s.members := by
  obtain ⟨_, _, _, _, _, _, _, _, _, _, _, _, _, _, _, _, _, _, _, _, _, _, h⟩ := fault_faultFrame s a; rw [h]
@[simp] theorem fault0_members (s : State) (c : BitVec 16) (k : Nat) (r : BitVec 16) : (fault0 s c k r).members = s.members := by
  simp [fault0]
@[simp] theorem fault_sbt (s : State) (a : FaultArg) : (fault s a).sbt = s.sbt := by
  obtain ⟨_, _, _, _, _, _, _, _, _, _, _, _, _, _, _, _, _, _, _, _, _, _, h⟩ := fault_faultFrame s a; rw [h]
@[simp] theorem fault0_sbt (s : State) (c : BitVec 16) (k : Nat) (r : BitVec 16) : (fault0 s c k r).sbt = s.sbt := by
  simp [fault0]
@[simp] theorem fault_sqs (s : State) (a : FaultArg) : (fault s a).sqs = s.sqs := by
  obtain ⟨_, _, _, _, _, _, _, _, _, _, _, _, _, _, _, _, _, _, _, _, _, _, h⟩ := fault_faultFrame s a; rw [h]
@[simp] theorem fault0_sqs (s : State) (c : BitVec 16) (k : Nat) (r : BitVec 16) : (fault0 s c k r).sqs = s.sqs := by
  simp [fault0]
@[simp] theorem fault_cqs (s : State) (a : FaultArg) : (fault s a).cqs = s.cqs := by
  obtain ⟨_, _, _, _, _, _, _, _, _, _, _, _, _, _, _, _, _, _, _, _, _, _, h⟩ := fault_faultFrame s a; rw [h]
@[simp] theorem fault0_cqs (s : State) (c : BitVec 16) (k : Nat) (r : BitVec 16) : (fault0 s c k r).cqs = s.cqs := by
  simp [fault0]
@[simp] theorem fault_live (s : State) (a : FaultArg) : (fault s a).live = s.live := by
  obtain ⟨_, _, _, _, _, _, _, _, _, _, _, _, _, _, _, _, _, _, _, _, _, _, h⟩ := fault_faultFrame s a; rw [h]
@[simp] theorem fault0_live (s : State) (c : BitVec 16) (k : Nat) (r : BitVec 16) : (fault0 s c k r).live = s.live := by
  simp [fault0]
@[simp] theorem fault_mbx (s : State) (a : FaultArg) : (fault s a).mbx = s.mbx := by
  obtain ⟨_, _, _, _, _, _, _, _, _, _, _, _, _, _, _, _, _, _, _, _, _, _, h⟩ := fault_faultFrame s a; rw [h]
@[simp] theorem fault0_mbx (s : State) (c : BitVec 16) (k : Nat) (r : BitVec 16) : (fault0 s c k r).mbx = s.mbx := by
  simp [fault0]
@[simp] theorem fault_cache (s : State) (a : FaultArg) : (fault s a).cache = s.cache := by
  obtain ⟨_, _, _, _, _, _, _, _, _, _, _, _, _, _, _, _, _, _, _, _, _, _, h⟩ := fault_faultFrame s a; rw [h]
@[simp] theorem fault0_cache (s : State) (c : BitVec 16) (k : Nat) (r : BitVec 16) : (fault0 s c k r).cache = s.cache := by
  simp [fault0]
@[simp] theorem fault_jtag (s : State) (a : FaultArg) : (fault s a).jtag = s.jtag := by
  obtain ⟨_, _, _, _, _, _, _, _, _, _, _, _, _, _, _, _, _, _, _, _, _, _, h⟩ := fault_faultFrame s a; rw [h]
@[simp] theorem fault0_jtag (s : State) (c : BitVec 16) (k : Nat) (r : BitVec 16) : (fault0 s c k r).jtag = s.jtag := by
  simp [fault0]
@[simp] theorem fault_hk (s : State) (a : FaultArg) : (fault s a).hk = s.hk := by
  obtain ⟨_, _, _, _, _, _, _, _, _, _, _, _, _, _, _, _, _, _, _, _, _, _, h⟩ := fault_faultFrame s a; rw [h]
@[simp] theorem fault0_hk (s : State) (c : BitVec 16) (k : Nat) (r : BitVec 16) : (fault0 s c k r).hk = s.hk := by
  simp [fault0]
@[simp] theorem fault_tests (s : State) (a : FaultArg) : (fault s a).tests = s.tests := by
  obtain ⟨_, _, _, _, _, _, _, _, _, _, _, _, _, _, _, _, _, _, _, _, _, _, h⟩ := fault_faultFrame s a; rw [h]
@[simp] theorem fault0_tests (s : State) (c : BitVec 16) (k : Nat) (r : BitVec 16) : (fault0 s c k r).tests = s.tests := by
  simp [fault0]
@[simp] theorem fault_sec (s : State) (a : FaultArg) : (fault s a).sec = s.sec := by
  obtain ⟨_, _, _, _, _, _, _, _, _, _, _, _, _, _, _, _, _, _, _, _, _, _, h⟩ := fault_faultFrame s a; rw [h]
@[simp] theorem fault0_sec (s : State) (c : BitVec 16) (k : Nat) (r : BitVec 16) : (fault0 s c k r).sec = s.sec := by
  simp [fault0]
@[simp] theorem fault_pending (s : State) (a : FaultArg) : (fault s a).pending = s.pending := by
  obtain ⟨_, _, _, _, _, _, _, _, _, _, _, _, _, _, _, _, _, _, _, _, _, _, h⟩ := fault_faultFrame s a; rw [h]
@[simp] theorem fault0_pending (s : State) (c : BitVec 16) (k : Nat) (r : BitVec 16) : (fault0 s c k r).pending = s.pending := by
  simp [fault0]

theorem fault_moon (s : State) (a : FaultArg) : ∃ tr, (fault s a).moon = { s.moon with trained := tr } := by
  obtain ⟨_, _, _, _, _, _, _, _, _, _, _, _, _, _, _, _, _, _, _, _, _, _, h⟩ := fault_faultFrame s a; exact ⟨_, by rw [h]⟩

theorem fault_pcie (s : State) (a : FaultArg) : ∃ lu fs, (fault s a).pcie = { s.pcie with linkUp := lu, funcs := fs } := by
  obtain ⟨_, _, _, _, _, _, _, _, _, _, _, _, _, _, _, _, _, _, _, _, _, _, h⟩ := fault_faultFrame s a; exact ⟨_, _, by rw [h]⟩

theorem fault_jade (s : State) (a : FaultArg) :
    ∃ q li w f1 f3 es qf f4 fc ar, (fault s a).jade = { s.jade with
      queue := q, lastId := li, windows := w, f1Seen := f1, f3Seen := f3, escalated := es, queueFull := qf, f4 := f4, f4Cause := fc,
      aliveRunning := ar } := by
  obtain ⟨_, _, _, _, _, _, _, _, _, _, _, _, _, _, _, _, _, _, _, _, _, _, h⟩ := fault_faultFrame s a; exact ⟨_, _, _, _, _, _, _, _, _, _, by rw [h]⟩


end Sys2Proof.Machine
end

