-- ==== Sys2Proof/Laws/Frame.lean ====
section
/-! SUPPORT. Laws of `Frame`: frames compose, weaken, and stand through the end of a command. -/

namespace Sys2Proof.Machine

theorem Frame.refl (l : List Piece) (s : State) : Frame l s s := by
  constructor <;> first | exact List.prefix_rfl | (intros; rfl)

theorem Frame.trans {l : List Piece} {s t u : State} (h : Frame l s t) (k : Frame l t u) : Frame l s u where
  pending := k.pending.trans h.pending
  out := h.out.trans k.out
  part := fun m => (k.part m).trans (h.part m)
  clock := fun m => (k.clock m).trans (h.clock m)
  freeIx := fun m => (k.freeIx m).trans (h.freeIx m)
  nextId := fun m => (k.nextId m).trans (h.nextId m)
  phase := fun m => (k.phase m).trans (h.phase m)
  pins := fun m => (k.pins m).trans (h.pins m)
  moon := fun m => (k.moon m).trans (h.moon m)
  tiles := fun m => (k.tiles m).trans (h.tiles m)
  mesh := fun m => (k.mesh m).trans (h.mesh m)
  cmds := fun m => (k.cmds m).trans (h.cmds m)
  mcmds := fun m => (k.mcmds m).trans (h.mcmds m)
  fetches := fun m => (k.fetches m).trans (h.fetches m)
  destages := fun m => (k.destages m).trans (h.destages m)
  replays := fun m => (k.replays m).trans (h.replays m)
  maints := fun m => (k.maints m).trans (h.maints m)
  budget := fun m => (k.budget m).trans (h.budget m)
  cfg := fun m => (k.cfg m).trans (h.cfg m)
  flash := fun m => (k.flash m).trans (h.flash m)
  pools := fun m => (k.pools m).trans (h.pools m)
  vols := fun m => (k.vols m).trans (h.vols m)
  members := fun m => (k.members m).trans (h.members m)
  sbt := fun m => (k.sbt m).trans (h.sbt m)
  links := fun m => (k.links m).trans (h.links m)
  partners := fun m => (k.partners m).trans (h.partners m)
  pcie := fun m => by have a := h.pcie m; have b := k.pcie m; rw [b, a]
  sqs := fun m => (k.sqs m).trans (h.sqs m)
  cqs := fun m => (k.cqs m).trans (h.cqs m)
  live := fun m => (k.live m).trans (h.live m)
  mbx := fun m => (k.mbx m).trans (h.mbx m)
  cache := fun m => (k.cache m).trans (h.cache m)
  jade := fun m => by have a := h.jade m; have b := k.jade m; rw [b, a]
  jet := fun m => (k.jet m).trans (h.jet m)
  jtag := fun m => (k.jtag m).trans (h.jtag m)
  hk := fun m => (k.hk m).trans (h.hk m)
  tests := fun m => (k.tests m).trans (h.tests m)
  sec := fun m => (k.sec m).trans (h.sec m)

theorem Frame.mono {l r : List Piece} {s t : State} (h : Frame l s t) (k : l ⊆ r) : Frame r s t where
  pending := h.pending
  out := h.out
  part := fun m => h.part (fun x => m (k x))
  clock := fun m => h.clock (fun x => m (k x))
  freeIx := fun m => h.freeIx (fun x => m (k x))
  nextId := fun m => h.nextId (fun x => m (k x))
  phase := fun m => h.phase (fun x => m (k x))
  pins := fun m => h.pins (fun x => m (k x))
  moon := fun m => h.moon (fun x => m (k x))
  tiles := fun m => h.tiles (fun x => m (k x))
  mesh := fun m => h.mesh (fun x => m (k x))
  cmds := fun m => h.cmds (fun x => m (k x))
  mcmds := fun m => h.mcmds (fun x => m (k x))
  fetches := fun m => h.fetches (fun x => m (k x))
  destages := fun m => h.destages (fun x => m (k x))
  replays := fun m => h.replays (fun x => m (k x))
  maints := fun m => h.maints (fun x => m (k x))
  budget := fun m => h.budget (fun x => m (k x))
  cfg := fun m => h.cfg (fun x => m (k x))
  flash := fun m => h.flash (fun x => m (k x))
  pools := fun m => h.pools (fun x => m (k x))
  vols := fun m => h.vols (fun x => m (k x))
  members := fun m => h.members (fun x => m (k x))
  sbt := fun m => h.sbt (fun x => m (k x))
  links := fun m => h.links (fun x => m (k x))
  partners := fun m => h.partners (fun x => m (k x))
  pcie := fun m => h.pcie (fun x => m (k x))
  sqs := fun m => h.sqs (fun x => m (k x))
  cqs := fun m => h.cqs (fun x => m (k x))
  live := fun m => h.live (fun x => m (k x))
  mbx := fun m => h.mbx (fun x => m (k x))
  cache := fun m => h.cache (fun x => m (k x))
  jade := fun m => h.jade (fun x => m (k x))
  jet := fun m => h.jet (fun x => m (k x))
  jtag := fun m => h.jtag (fun x => m (k x))
  hk := fun m => h.hk (fun x => m (k x))
  tests := fun m => h.tests (fun x => m (k x))
  sec := fun m => h.sec (fun x => m (k x))

/-- The end of a command keeps a frame. -/
theorem Frame.settled {l : List Piece} {s t : State} (h : Frame l s t) : Frame l s (settled t) := by
  obtain ⟨q, fs, o, e⟩ := settled_frame t
  refine h.trans ?_
  rw [e]
  constructor <;> first | exact List.prefix_append _ _ | (intros; rfl)

/-- A fold keeps a frame that each of its steps keeps. -/
theorem Frame.foldl {α : Type} {l : List Piece} (f : State → α → State) (hf : ∀ s a, Frame l s (f s a)) (r : List α) (s : State) :
    Frame l s (r.foldl f s) := by
  induction r generalizing s with
  | nil => exact Frame.refl l s
  | cons a r ih => exact (hf s a).trans (ih (f s a))

theorem emit_Frame (s : State) (o : Output) : Frame [] s (emit s o) := by
  constructor <;> first | exact List.prefix_append _ _ | (intros; rfl)

theorem emits_Frame (s : State) (os : List Output) : Frame [] s (emits s os) := by
  constructor <;> first | exact List.prefix_append _ _ | (intros; rfl)

theorem bump_Frame (s : State) : Frame [.nextId] s (bump s) := by
  constructor <;> first | exact List.prefix_rfl | (intros; rfl) | (intro h; exact absurd List.mem_cons_self h)

theorem drawn_Frame (s : State) : Frame [.freeIx] s (drawn s) := by
  constructor <;> first | exact List.prefix_rfl | (intros; rfl) | (intro h; exact absurd List.mem_cons_self h)

theorem setTile_Frame (s : State) (k : Nat) (x : Tile) : Frame [.tiles] s (setTile s k x) := by
  constructor <;> first | exact List.prefix_rfl | (intros; rfl) | (intro h; exact absurd List.mem_cons_self h)

theorem setPool_Frame (s : State) (k : Nat) (x : Pool) : Frame [.pools] s (setPool s k x) := by
  constructor <;> first | exact List.prefix_rfl | (intros; rfl) | (intro h; exact absurd List.mem_cons_self h)

theorem setPoolCfg_Frame (s : State) (k : Nat) (x : PoolCfg) : Frame [.cfg] s (setPoolCfg s k x) := by
  constructor <;> first | exact List.prefix_rfl | (intros; rfl) | (intro h; exact absurd List.mem_cons_self h)

theorem setVol_Frame (s : State) (k : Nat) (x : Vol) : Frame [.vols] s (setVol s k x) := by
  constructor <;> first | exact List.prefix_rfl | (intros; rfl) | (intro h; exact absurd List.mem_cons_self h)

theorem setVolCfg_Frame (s : State) (k : Nat) (x : VolCfg) : Frame [.cfg] s (setVolCfg s k x) := by
  constructor <;> first | exact List.prefix_rfl | (intros; rfl) | (intro h; exact absurd List.mem_cons_self h)

theorem setMember_Frame (s : State) (k : Nat) (x : Member) : Frame [.members] s (setMember s k x) := by
  constructor <;> first | exact List.prefix_rfl | (intros; rfl) | (intro h; exact absurd List.mem_cons_self h)

theorem setLink_Frame (s : State) (k : Nat) (x : Link) : Frame [.links] s (setLink s k x) := by
  constructor <;> first | exact List.prefix_rfl | (intros; rfl) | (intro h; exact absurd List.mem_cons_self h)

theorem setPartner_Frame (s : State) (k : Nat) (x : Partner) : Frame [.partners] s (setPartner s k x) := by
  constructor <;> first | exact List.prefix_rfl | (intros; rfl) | (intro h; exact absurd List.mem_cons_self h)

theorem setFunc_Frame (s : State) (k : Nat) (x : Func) : Frame [.pcie] s (setFunc s k x) := by
  constructor <;> first | exact List.prefix_rfl | (intros; rfl)

theorem setSq_Frame (s : State) (k : Nat) (x : Sq) : Frame [.sqs] s (setSq s k x) := by
  constructor <;> first | exact List.prefix_rfl | (intros; rfl) | (intro h; exact absurd List.mem_cons_self h)

theorem setCq_Frame (s : State) (k : Nat) (x : Cq) : Frame [.cqs] s (setCq s k x) := by
  constructor <;> first | exact List.prefix_rfl | (intros; rfl) | (intro h; exact absurd List.mem_cons_self h)

theorem setMbx_Frame (s : State) (k : Nat) (x : Mailbox) : Frame [.mbx] s (setMbx s k x) := by
  constructor <;> first | exact List.prefix_rfl | (intros; rfl) | (intro h; exact absurd List.mem_cons_self h)

theorem setSlice_Frame (s : State) (k : Nat) (x : HkSlice) : Frame [.hk] s (setSlice s k x) := by
  constructor <;> first | exact List.prefix_rfl | (intros; rfl) | (intro h; exact absurd List.mem_cons_self h)

theorem dropCmd_Frame (s : State) (k : Nat) : Frame [.cmds] s (dropCmd s k) := by
  constructor <;> first | exact List.prefix_rfl | (intros; rfl) | (intro h; exact absurd List.mem_cons_self h)

theorem dropMCmd_Frame (s : State) (k : Nat) : Frame [.mcmds] s (dropMCmd s k) := by
  constructor <;> first | exact List.prefix_rfl | (intros; rfl) | (intro h; exact absurd List.mem_cons_self h)

theorem dropFetch_Frame (s : State) (k : Nat) : Frame [.fetches] s (dropFetch s k) := by
  constructor <;> first | exact List.prefix_rfl | (intros; rfl) | (intro h; exact absurd List.mem_cons_self h)

theorem mbxTake_Frame (s : State) (g : Go) (objs : List (Nat × Nat)) (r : Option Running) :
    Frame [.nextId, .mbx] s (mbxTake s g objs r) := by
  simp only [mbxTake]
  split <;> constructor <;> first | exact List.prefix_rfl | (intros; rfl) | (intro h; simp at h)

theorem mbxFinish_Frame (s : State) (mb : Nat) (st : Status) (d : Nat) (data : List Byte) : Frame [.mbx] s (mbxFinish s mb st d data) := by
  simp only [mbxFinish]
  split <;> constructor <;> first | exact List.prefix_rfl | (intros; rfl) | (intro h; simp at h)

theorem mbxPark_Frame (s : State) (mb : Nat) (r : Running) (data : List Byte) : Frame [.mbx] s (mbxPark s mb r data) := by
  constructor <;> first | exact List.prefix_rfl | (intros; rfl) | (intro h; simp at h)

/-- GO on a mailbox keeps a frame that the command's effect keeps. -/
theorem mbxRun_Frame {l : List Piece} (hl : [.nextId, .mbx] ⊆ l) {s t : State} {g : Go} {vf refused : Bool} {len : Nat}
    {fields : List (Nat × Bool)} {checks : List Check} {objs : List (Nat × Nat)} {effect : State → State}
    (he : ∀ u, Frame l u (effect u)) (h : mbxRun s g vf refused len fields checks objs effect = .next t) : Frame l s t := by
  have hm : ([.mbx] : List Piece) ⊆ l := fun x hx => hl (List.mem_cons_of_mem _ hx)
  unfold mbxRun at h
  dsimp only at h
  repeat' split at h
  all_goals (first
    | (cases h; exact Frame.refl l s)
    | (cases h; refine Frame.settled ?_; first
        | exact ((mbxTake_Frame s g objs none).mono hl).trans (he _)
        | exact ((mbxTake_Frame s g _ _).mono hl).trans ((mbxFinish_Frame _ _ _ _ _).mono hm)
        | exact (mbxTake_Frame s g _ _).mono hl
        | exact (setMbx_Frame s _ _).mono hm))

end Sys2Proof.Machine
end

