-- ==== Sys2Proof/Laws/Mailbox.lean ====
section
/-! SUPPORT. Laws of mailbox commands: what GO does with a command whose checks pass, and what each ending leaves. -/

namespace Sys2Proof.Machine

/-- GO on a free mailbox, every check passing: the effect, from the state with the command taken. -/
theorem mbxRun_clear {s : State} {g : Go} {vf : Bool} {len : Nat} {objs : List (Nat × Nat)} (refused : Bool)
    (fields : List (Nat × Bool)) (checks : List Check) (effect : State → State)
    (h : GoReady s g vf len objs) (hr : refused = false) (hf : fields.all (fun f => !f.2) = true)
    (hc : checks.all (fun c => !c.fails) = true) :
    mbxRun s g vf refused len fields checks objs effect = done (effect (mbxTake s g objs none)) := by
  obtain ⟨hfw, hre, hb, hcl, hm, hh, hfr, hl, hbl⟩ := h
  have hlow : lowestField fields = none := by
    have : fields.filter (fun x => x.2) = [] := by
      rw [List.filter_eq_nil_iff]
      intro a ha
      have := List.all_eq_true.1 hf a ha
      simpa using this
    simp [lowestField, this]
  have hpass : firstFailing checks = none := by
    clear hlow
    induction checks with
    | nil => rfl
    | cons c r ih =>
      simp only [List.all_cons, Bool.and_eq_true, Bool.not_eq_true'] at hc
      simp [firstFailing, hc.1, ih hc.2]
  have hgate : (g.mb != 0 && !vf) = false := by
    rcases hm with h | h <;> simp [h]
  simp [mbxRun, hre, hb, hr, gateChecks, formChecks, fieldCheck, hfr, hlow, firstFailing, hfw, hcl, hh, hl, hbl, hpass, hgate]

@[simp] theorem mbxTake_getMbx (s : State) (g : Go) (objs : List (Nat × Nat)) (r : Option Running) :
    getMbx (mbxTake s g objs r) g.mb =
      { getMbx s g.mb with
        busy := true, done := false, cmdId := g.cmdId, running := r, objs := objs, orphan := false
        ticket := if (getMbx s g.mb).busy then (getMbx s g.mb).ticket else s.nextId } := by
  simp [mbxTake]

/-- Success on a mailbox whose command is not an orphan. -/
theorem mbxOk_answered (s : State) (g : Go) (data : List Byte) (ho : (getMbx s g.mb).orphan = false)
    (hi : (getMbx s g.mb).cmdId = g.cmdId) : Answered (mbxOk s g.mb data) g data := by
  simp [Answered, mbxOk, mbxFinish, ho, hi]

theorem mbxPark_runs (s : State) (g : Go) (r : Running) (data : List Byte) (hb : (getMbx s g.mb).busy = true)
    (hi : (getMbx s g.mb).cmdId = g.cmdId) : Runs (mbxPark s g.mb r data) g r data := by
  simp [Runs, mbxPark, hb, hi]

/-- Mailboxes do not change as a command ends. -/
@[simp] theorem getMbx_settled (s : State) (n : Nat) : getMbx (settled s) n = getMbx s n := by simp [getMbx]

theorem Answered.settled {t : State} {g : Go} {data : List Byte} (h : Answered t g data) : Answered (settled t) g data := by
  simpa [Answered] using h

theorem Runs.settled {t : State} {g : Go} {r : Running} {data : List Byte} (h : Runs t g r data) : Runs (settled t) g r data := by
  simpa [Runs] using h

@[simp] theorem mbxTake_part (s : State) (g : Go) (objs : List (Nat × Nat)) (r : Option Running) : (mbxTake s g objs r).part = s.part := by
  simp only [mbxTake]; split <;> rfl
@[simp] theorem mbxFinish_part (s : State) (mb : Nat) (st : Status) (d : Nat) (data : List Byte) : (mbxFinish s mb st d data).part = s.part := by
  simp only [mbxFinish]; split <;> rfl
@[simp] theorem mbxPark_part (s : State) (mb : Nat) (r : Running) (data : List Byte) : (mbxPark s mb r data).part = s.part := rfl
@[simp] theorem mbxTake_clock (s : State) (g : Go) (objs : List (Nat × Nat)) (r : Option Running) : (mbxTake s g objs r).clock = s.clock := by
  simp only [mbxTake]; split <;> rfl
@[simp] theorem mbxFinish_clock (s : State) (mb : Nat) (st : Status) (d : Nat) (data : List Byte) : (mbxFinish s mb st d data).clock = s.clock := by
  simp only [mbxFinish]; split <;> rfl
@[simp] theorem mbxPark_clock (s : State) (mb : Nat) (r : Running) (data : List Byte) : (mbxPark s mb r data).clock = s.clock := rfl
@[simp] theorem mbxTake_freeIx (s : State) (g : Go) (objs : List (Nat × Nat)) (r : Option Running) : (mbxTake s g objs r).freeIx = s.freeIx := by
  simp only [mbxTake]; split <;> rfl
@[simp] theorem mbxFinish_freeIx (s : State) (mb : Nat) (st : Status) (d : Nat) (data : List Byte) : (mbxFinish s mb st d data).freeIx = s.freeIx := by
  simp only [mbxFinish]; split <;> rfl
@[simp] theorem mbxPark_freeIx (s : State) (mb : Nat) (r : Running) (data : List Byte) : (mbxPark s mb r data).freeIx = s.freeIx := rfl
@[simp] theorem mbxFinish_nextId (s : State) (mb : Nat) (st : Status) (d : Nat) (data : List Byte) : (mbxFinish s mb st d data).nextId = s.nextId := by
  simp only [mbxFinish]; split <;> rfl
@[simp] theorem mbxPark_nextId (s : State) (mb : Nat) (r : Running) (data : List Byte) : (mbxPark s mb r data).nextId = s.nextId := rfl
@[simp] theorem mbxTake_out (s : State) (g : Go) (objs : List (Nat × Nat)) (r : Option Running) : (mbxTake s g objs r).out = s.out := by
  simp only [mbxTake]; split <;> rfl
@[simp] theorem mbxFinish_out (s : State) (mb : Nat) (st : Status) (d : Nat) (data : List Byte) : (mbxFinish s mb st d data).out = s.out := by
  simp only [mbxFinish]; split <;> rfl
@[simp] theorem mbxPark_out (s : State) (mb : Nat) (r : Running) (data : List Byte) : (mbxPark s mb r data).out = s.out := rfl
@[simp] theorem mbxTake_phase (s : State) (g : Go) (objs : List (Nat × Nat)) (r : Option Running) : (mbxTake s g objs r).phase = s.phase := by
  simp only [mbxTake]; split <;> rfl
@[simp] theorem mbxFinish_phase (s : State) (mb : Nat) (st : Status) (d : Nat) (data : List Byte) : (mbxFinish s mb st d data).phase = s.phase := by
  simp only [mbxFinish]; split <;> rfl
@[simp] theorem mbxPark_phase (s : State) (mb : Nat) (r : Running) (data : List Byte) : (mbxPark s mb r data).phase = s.phase := rfl
@[simp] theorem mbxTake_pins (s : State) (g : Go) (objs : List (Nat × Nat)) (r : Option Running) : (mbxTake s g objs r).pins = s.pins := by
  simp only [mbxTake]; split <;> rfl
@[simp] theorem mbxFinish_pins (s : State) (mb : Nat) (st : Status) (d : Nat) (data : List Byte) : (mbxFinish s mb st d data).pins = s.pins := by
  simp only [mbxFinish]; split <;> rfl
@[simp] theorem mbxPark_pins (s : State) (mb : Nat) (r : Running) (data : List Byte) : (mbxPark s mb r data).pins = s.pins := rfl
@[simp] theorem mbxTake_moon (s : State) (g : Go) (objs : List (Nat × Nat)) (r : Option Running) : (mbxTake s g objs r).moon = s.moon := by
  simp only [mbxTake]; split <;> rfl
@[simp] theorem mbxFinish_moon (s : State) (mb : Nat) (st : Status) (d : Nat) (data : List Byte) : (mbxFinish s mb st d data).moon = s.moon := by
  simp only [mbxFinish]; split <;> rfl
@[simp] theorem mbxPark_moon (s : State) (mb : Nat) (r : Running) (data : List Byte) : (mbxPark s mb r data).moon = s.moon := rfl
@[simp] theorem mbxTake_tiles (s : State) (g : Go) (objs : List (Nat × Nat)) (r : Option Running) : (mbxTake s g objs r).tiles = s.tiles := by
  simp only [mbxTake]; split <;> rfl
@[simp] theorem mbxFinish_tiles (s : State) (mb : Nat) (st : Status) (d : Nat) (data : List Byte) : (mbxFinish s mb st d data).tiles = s.tiles := by
  simp only [mbxFinish]; split <;> rfl
@[simp] theorem mbxPark_tiles (s : State) (mb : Nat) (r : Running) (data : List Byte) : (mbxPark s mb r data).tiles = s.tiles := rfl
@[simp] theorem mbxTake_mesh (s : State) (g : Go) (objs : List (Nat × Nat)) (r : Option Running) : (mbxTake s g objs r).mesh = s.mesh := by
  simp only [mbxTake]; split <;> rfl
@[simp] theorem mbxFinish_mesh (s : State) (mb : Nat) (st : Status) (d : Nat) (data : List Byte) : (mbxFinish s mb st d data).mesh = s.mesh := by
  simp only [mbxFinish]; split <;> rfl
@[simp] theorem mbxPark_mesh (s : State) (mb : Nat) (r : Running) (data : List Byte) : (mbxPark s mb r data).mesh = s.mesh := rfl
@[simp] theorem mbxTake_cmds (s : State) (g : Go) (objs : List (Nat × Nat)) (r : Option Running) : (mbxTake s g objs r).cmds = s.cmds := by
  simp only [mbxTake]; split <;> rfl
@[simp] theorem mbxFinish_cmds (s : State) (mb : Nat) (st : Status) (d : Nat) (data : List Byte) : (mbxFinish s mb st d data).cmds = s.cmds := by
  simp only [mbxFinish]; split <;> rfl
@[simp] theorem mbxPark_cmds (s : State) (mb : Nat) (r : Running) (data : List Byte) : (mbxPark s mb r data).cmds = s.cmds := rfl
@[simp] theorem mbxTake_mcmds (s : State) (g : Go) (objs : List (Nat × Nat)) (r : Option Running) : (mbxTake s g objs r).mcmds = s.mcmds := by
  simp only [mbxTake]; split <;> rfl
@[simp] theorem mbxFinish_mcmds (s : State) (mb : Nat) (st : Status) (d : Nat) (data : List Byte) : (mbxFinish s mb st d data).mcmds = s.mcmds := by
  simp only [mbxFinish]; split <;> rfl
@[simp] theorem mbxPark_mcmds (s : State) (mb : Nat) (r : Running) (data : List Byte) : (mbxPark s mb r data).mcmds = s.mcmds := rfl
@[simp] theorem mbxTake_fetches (s : State) (g : Go) (objs : List (Nat × Nat)) (r : Option Running) : (mbxTake s g objs r).fetches = s.fetches := by
  simp only [mbxTake]; split <;> rfl
@[simp] theorem mbxFinish_fetches (s : State) (mb : Nat) (st : Status) (d : Nat) (data : List Byte) : (mbxFinish s mb st d data).fetches = s.fetches := by
  simp only [mbxFinish]; split <;> rfl
@[simp] theorem mbxPark_fetches (s : State) (mb : Nat) (r : Running) (data : List Byte) : (mbxPark s mb r data).fetches = s.fetches := rfl
@[simp] theorem mbxTake_destages (s : State) (g : Go) (objs : List (Nat × Nat)) (r : Option Running) : (mbxTake s g objs r).destages = s.destages := by
  simp only [mbxTake]; split <;> rfl
@[simp] theorem mbxFinish_destages (s : State) (mb : Nat) (st : Status) (d : Nat) (data : List Byte) : (mbxFinish s mb st d data).destages = s.destages := by
  simp only [mbxFinish]; split <;> rfl
@[simp] theorem mbxPark_destages (s : State) (mb : Nat) (r : Running) (data : List Byte) : (mbxPark s mb r data).destages = s.destages := rfl
@[simp] theorem mbxTake_replays (s : State) (g : Go) (objs : List (Nat × Nat)) (r : Option Running) : (mbxTake s g objs r).replays = s.replays := by
  simp only [mbxTake]; split <;> rfl
@[simp] theorem mbxFinish_replays (s : State) (mb : Nat) (st : Status) (d : Nat) (data : List Byte) : (mbxFinish s mb st d data).replays = s.replays := by
  simp only [mbxFinish]; split <;> rfl
@[simp] theorem mbxPark_replays (s : State) (mb : Nat) (r : Running) (data : List Byte) : (mbxPark s mb r data).replays = s.replays := rfl
@[simp] theorem mbxTake_maints (s : State) (g : Go) (objs : List (Nat × Nat)) (r : Option Running) : (mbxTake s g objs r).maints = s.maints := by
  simp only [mbxTake]; split <;> rfl
@[simp] theorem mbxFinish_maints (s : State) (mb : Nat) (st : Status) (d : Nat) (data : List Byte) : (mbxFinish s mb st d data).maints = s.maints := by
  simp only [mbxFinish]; split <;> rfl
@[simp] theorem mbxPark_maints (s : State) (mb : Nat) (r : Running) (data : List Byte) : (mbxPark s mb r data).maints = s.maints := rfl
@[simp] theorem mbxTake_budget (s : State) (g : Go) (objs : List (Nat × Nat)) (r : Option Running) : (mbxTake s g objs r).budget = s.budget := by
  simp only [mbxTake]; split <;> rfl
@[simp] theorem mbxFinish_budget (s : State) (mb : Nat) (st : Status) (d : Nat) (data : List Byte) : (mbxFinish s mb st d data).budget = s.budget := by
  simp only [mbxFinish]; split <;> rfl
@[simp] theorem mbxPark_budget (s : State) (mb : Nat) (r : Running) (data : List Byte) : (mbxPark s mb r data).budget = s.budget := rfl
@[simp] theorem mbxTake_cfg (s : State) (g : Go) (objs : List (Nat × Nat)) (r : Option Running) : (mbxTake s g objs r).cfg = s.cfg := by
  simp only [mbxTake]; split <;> rfl
@[simp] theorem mbxFinish_cfg (s : State) (mb : Nat) (st : Status) (d : Nat) (data : List Byte) : (mbxFinish s mb st d data).cfg = s.cfg := by
  simp only [mbxFinish]; split <;> rfl
@[simp] theorem mbxPark_cfg (s : State) (mb : Nat) (r : Running) (data : List Byte) : (mbxPark s mb r data).cfg = s.cfg := rfl
@[simp] theorem mbxTake_flash (s : State) (g : Go) (objs : List (Nat × Nat)) (r : Option Running) : (mbxTake s g objs r).flash = s.flash := by
  simp only [mbxTake]; split <;> rfl
@[simp] theorem mbxFinish_flash (s : State) (mb : Nat) (st : Status) (d : Nat) (data : List Byte) : (mbxFinish s mb st d data).flash = s.flash := by
  simp only [mbxFinish]; split <;> rfl
@[simp] theorem mbxPark_flash (s : State) (mb : Nat) (r : Running) (data : List Byte) : (mbxPark s mb r data).flash = s.flash := rfl
@[simp] theorem mbxTake_pools (s : State) (g : Go) (objs : List (Nat × Nat)) (r : Option Running) : (mbxTake s g objs r).pools = s.pools := by
  simp only [mbxTake]; split <;> rfl
@[simp] theorem mbxFinish_pools (s : State) (mb : Nat) (st : Status) (d : Nat) (data : List Byte) : (mbxFinish s mb st d data).pools = s.pools := by
  simp only [mbxFinish]; split <;> rfl
@[simp] theorem mbxPark_pools (s : State) (mb : Nat) (r : Running) (data : List Byte) : (mbxPark s mb r data).pools = s.pools := rfl
@[simp] theorem mbxTake_vols (s : State) (g : Go) (objs : List (Nat × Nat)) (r : Option Running) : (mbxTake s g objs r).vols = s.vols := by
  simp only [mbxTake]; split <;> rfl
@[simp] theorem mbxFinish_vols (s : State) (mb : Nat) (st : Status) (d : Nat) (data : List Byte) : (mbxFinish s mb st d data).vols = s.vols := by
  simp only [mbxFinish]; split <;> rfl
@[simp] theorem mbxPark_vols (s : State) (mb : Nat) (r : Running) (data : List Byte) : (mbxPark s mb r data).vols = s.vols := rfl
@[simp] theorem mbxTake_members (s : State) (g : Go) (objs : List (Nat × Nat)) (r : Option Running) : (mbxTake s g objs r).members = s.members := by
  simp only [mbxTake]; split <;> rfl
@[simp] theorem mbxFinish_members (s : State) (mb : Nat) (st : Status) (d : Nat) (data : List Byte) : (mbxFinish s mb st d data).members = s.members := by
  simp only [mbxFinish]; split <;> rfl
@[simp] theorem mbxPark_members (s : State) (mb : Nat) (r : Running) (data : List Byte) : (mbxPark s mb r data).members = s.members := rfl
@[simp] theorem mbxTake_sbt (s : State) (g : Go) (objs : List (Nat × Nat)) (r : Option Running) : (mbxTake s g objs r).sbt = s.sbt := by
  simp only [mbxTake]; split <;> rfl
@[simp] theorem mbxFinish_sbt (s : State) (mb : Nat) (st : Status) (d : Nat) (data : List Byte) : (mbxFinish s mb st d data).sbt = s.sbt := by
  simp only [mbxFinish]; split <;> rfl
@[simp] theorem mbxPark_sbt (s : State) (mb : Nat) (r : Running) (data : List Byte) : (mbxPark s mb r data).sbt = s.sbt := rfl
@[simp] theorem mbxTake_links (s : State) (g : Go) (objs : List (Nat × Nat)) (r : Option Running) : (mbxTake s g objs r).links = s.links := by
  simp only [mbxTake]; split <;> rfl
@[simp] theorem mbxFinish_links (s : State) (mb : Nat) (st : Status) (d : Nat) (data : List Byte) : (mbxFinish s mb st d data).links = s.links := by
  simp only [mbxFinish]; split <;> rfl
@[simp] theorem mbxPark_links (s : State) (mb : Nat) (r : Running) (data : List Byte) : (mbxPark s mb r data).links = s.links := rfl
@[simp] theorem mbxTake_partners (s : State) (g : Go) (objs : List (Nat × Nat)) (r : Option Running) : (mbxTake s g objs r).partners = s.partners := by
  simp only [mbxTake]; split <;> rfl
@[simp] theorem mbxFinish_partners (s : State) (mb : Nat) (st : Status) (d : Nat) (data : List Byte) : (mbxFinish s mb st d data).partners = s.partners := by
  simp only [mbxFinish]; split <;> rfl
@[simp] theorem mbxPark_partners (s : State) (mb : Nat) (r : Running) (data : List Byte) : (mbxPark s mb r data).partners = s.partners := rfl
@[simp] theorem mbxTake_pcie (s : State) (g : Go) (objs : List (Nat × Nat)) (r : Option Running) : (mbxTake s g objs r).pcie = s.pcie := by
  simp only [mbxTake]; split <;> rfl
@[simp] theorem mbxFinish_pcie (s : State) (mb : Nat) (st : Status) (d : Nat) (data : List Byte) : (mbxFinish s mb st d data).pcie = s.pcie := by
  simp only [mbxFinish]; split <;> rfl
@[simp] theorem mbxPark_pcie (s : State) (mb : Nat) (r : Running) (data : List Byte) : (mbxPark s mb r data).pcie = s.pcie := rfl
@[simp] theorem mbxTake_sqs (s : State) (g : Go) (objs : List (Nat × Nat)) (r : Option Running) : (mbxTake s g objs r).sqs = s.sqs := by
  simp only [mbxTake]; split <;> rfl
@[simp] theorem mbxFinish_sqs (s : State) (mb : Nat) (st : Status) (d : Nat) (data : List Byte) : (mbxFinish s mb st d data).sqs = s.sqs := by
  simp only [mbxFinish]; split <;> rfl
@[simp] theorem mbxPark_sqs (s : State) (mb : Nat) (r : Running) (data : List Byte) : (mbxPark s mb r data).sqs = s.sqs := rfl
@[simp] theorem mbxTake_cqs (s : State) (g : Go) (objs : List (Nat × Nat)) (r : Option Running) : (mbxTake s g objs r).cqs = s.cqs := by
  simp only [mbxTake]; split <;> rfl
@[simp] theorem mbxFinish_cqs (s : State) (mb : Nat) (st : Status) (d : Nat) (data : List Byte) : (mbxFinish s mb st d data).cqs = s.cqs := by
  simp only [mbxFinish]; split <;> rfl
@[simp] theorem mbxPark_cqs (s : State) (mb : Nat) (r : Running) (data : List Byte) : (mbxPark s mb r data).cqs = s.cqs := rfl
@[simp] theorem mbxTake_live (s : State) (g : Go) (objs : List (Nat × Nat)) (r : Option Running) : (mbxTake s g objs r).live = s.live := by
  simp only [mbxTake]; split <;> rfl
@[simp] theorem mbxFinish_live (s : State) (mb : Nat) (st : Status) (d : Nat) (data : List Byte) : (mbxFinish s mb st d data).live = s.live := by
  simp only [mbxFinish]; split <;> rfl
@[simp] theorem mbxPark_live (s : State) (mb : Nat) (r : Running) (data : List Byte) : (mbxPark s mb r data).live = s.live := rfl
@[simp] theorem mbxTake_cache (s : State) (g : Go) (objs : List (Nat × Nat)) (r : Option Running) : (mbxTake s g objs r).cache = s.cache := by
  simp only [mbxTake]; split <;> rfl
@[simp] theorem mbxFinish_cache (s : State) (mb : Nat) (st : Status) (d : Nat) (data : List Byte) : (mbxFinish s mb st d data).cache = s.cache := by
  simp only [mbxFinish]; split <;> rfl
@[simp] theorem mbxPark_cache (s : State) (mb : Nat) (r : Running) (data : List Byte) : (mbxPark s mb r data).cache = s.cache := rfl
@[simp] theorem mbxTake_jade (s : State) (g : Go) (objs : List (Nat × Nat)) (r : Option Running) : (mbxTake s g objs r).jade = s.jade := by
  simp only [mbxTake]; split <;> rfl
@[simp] theorem mbxFinish_jade (s : State) (mb : Nat) (st : Status) (d : Nat) (data : List Byte) : (mbxFinish s mb st d data).jade = s.jade := by
  simp only [mbxFinish]; split <;> rfl
@[simp] theorem mbxPark_jade (s : State) (mb : Nat) (r : Running) (data : List Byte) : (mbxPark s mb r data).jade = s.jade := rfl
@[simp] theorem mbxTake_jet (s : State) (g : Go) (objs : List (Nat × Nat)) (r : Option Running) : (mbxTake s g objs r).jet = s.jet := by
  simp only [mbxTake]; split <;> rfl
@[simp] theorem mbxFinish_jet (s : State) (mb : Nat) (st : Status) (d : Nat) (data : List Byte) : (mbxFinish s mb st d data).jet = s.jet := by
  simp only [mbxFinish]; split <;> rfl
@[simp] theorem mbxPark_jet (s : State) (mb : Nat) (r : Running) (data : List Byte) : (mbxPark s mb r data).jet = s.jet := rfl
@[simp] theorem mbxTake_jtag (s : State) (g : Go) (objs : List (Nat × Nat)) (r : Option Running) : (mbxTake s g objs r).jtag = s.jtag := by
  simp only [mbxTake]; split <;> rfl
@[simp] theorem mbxFinish_jtag (s : State) (mb : Nat) (st : Status) (d : Nat) (data : List Byte) : (mbxFinish s mb st d data).jtag = s.jtag := by
  simp only [mbxFinish]; split <;> rfl
@[simp] theorem mbxPark_jtag (s : State) (mb : Nat) (r : Running) (data : List Byte) : (mbxPark s mb r data).jtag = s.jtag := rfl
@[simp] theorem mbxTake_hk (s : State) (g : Go) (objs : List (Nat × Nat)) (r : Option Running) : (mbxTake s g objs r).hk = s.hk := by
  simp only [mbxTake]; split <;> rfl
@[simp] theorem mbxFinish_hk (s : State) (mb : Nat) (st : Status) (d : Nat) (data : List Byte) : (mbxFinish s mb st d data).hk = s.hk := by
  simp only [mbxFinish]; split <;> rfl
@[simp] theorem mbxPark_hk (s : State) (mb : Nat) (r : Running) (data : List Byte) : (mbxPark s mb r data).hk = s.hk := rfl
@[simp] theorem mbxTake_tests (s : State) (g : Go) (objs : List (Nat × Nat)) (r : Option Running) : (mbxTake s g objs r).tests = s.tests := by
  simp only [mbxTake]; split <;> rfl
@[simp] theorem mbxFinish_tests (s : State) (mb : Nat) (st : Status) (d : Nat) (data : List Byte) : (mbxFinish s mb st d data).tests = s.tests := by
  simp only [mbxFinish]; split <;> rfl
@[simp] theorem mbxPark_tests (s : State) (mb : Nat) (r : Running) (data : List Byte) : (mbxPark s mb r data).tests = s.tests := rfl
@[simp] theorem mbxTake_sec (s : State) (g : Go) (objs : List (Nat × Nat)) (r : Option Running) : (mbxTake s g objs r).sec = s.sec := by
  simp only [mbxTake]; split <;> rfl
@[simp] theorem mbxFinish_sec (s : State) (mb : Nat) (st : Status) (d : Nat) (data : List Byte) : (mbxFinish s mb st d data).sec = s.sec := by
  simp only [mbxFinish]; split <;> rfl
@[simp] theorem mbxPark_sec (s : State) (mb : Nat) (r : Running) (data : List Byte) : (mbxPark s mb r data).sec = s.sec := rfl
@[simp] theorem mbxTake_pending (s : State) (g : Go) (objs : List (Nat × Nat)) (r : Option Running) : (mbxTake s g objs r).pending = s.pending := by
  simp only [mbxTake]; split <;> rfl
@[simp] theorem mbxFinish_pending (s : State) (mb : Nat) (st : Status) (d : Nat) (data : List Byte) : (mbxFinish s mb st d data).pending = s.pending := by
  simp only [mbxFinish]; split <;> rfl
@[simp] theorem mbxPark_pending (s : State) (mb : Nat) (r : Running) (data : List Byte) : (mbxPark s mb r data).pending = s.pending := rfl

end Sys2Proof.Machine
end

