-- ==== Sys2Proof/Laws/Update.lean ====
section
/-! SUPPORT. Laws of the updates that whole families share: counters of SBT and of the network links, frames to a partner, the
stored configuration and maintenance operations. One lemma per field, what each update does said once, and its frame. -/

namespace Sys2Proof.Machine

@[simp] theorem modMoon_part (s : State) (f : Moon → Moon) : (modMoon s f).part = s.part := rfl
@[simp] theorem modMoon_clock (s : State) (f : Moon → Moon) : (modMoon s f).clock = s.clock := rfl
@[simp] theorem modMoon_freeIx (s : State) (f : Moon → Moon) : (modMoon s f).freeIx = s.freeIx := rfl
@[simp] theorem modMoon_nextId (s : State) (f : Moon → Moon) : (modMoon s f).nextId = s.nextId := rfl
@[simp] theorem modMoon_out (s : State) (f : Moon → Moon) : (modMoon s f).out = s.out := rfl
@[simp] theorem modMoon_phase (s : State) (f : Moon → Moon) : (modMoon s f).phase = s.phase := rfl
@[simp] theorem modMoon_pins (s : State) (f : Moon → Moon) : (modMoon s f).pins = s.pins := rfl
@[simp] theorem modMoon_tiles (s : State) (f : Moon → Moon) : (modMoon s f).tiles = s.tiles := rfl
@[simp] theorem modMoon_mesh (s : State) (f : Moon → Moon) : (modMoon s f).mesh = s.mesh := rfl
@[simp] theorem modMoon_cmds (s : State) (f : Moon → Moon) : (modMoon s f).cmds = s.cmds := rfl
@[simp] theorem modMoon_mcmds (s : State) (f : Moon → Moon) : (modMoon s f).mcmds = s.mcmds := rfl
@[simp] theorem modMoon_fetches (s : State) (f : Moon → Moon) : (modMoon s f).fetches = s.fetches := rfl
@[simp] theorem modMoon_destages (s : State) (f : Moon → Moon) : (modMoon s f).destages = s.destages := rfl
@[simp] theorem modMoon_replays (s : State) (f : Moon → Moon) : (modMoon s f).replays = s.replays := rfl
@[simp] theorem modMoon_maints (s : State) (f : Moon → Moon) : (modMoon s f).maints = s.maints := rfl
@[simp] theorem modMoon_budget (s : State) (f : Moon → Moon) : (modMoon s f).budget = s.budget := rfl
@[simp] theorem modMoon_cfg (s : State) (f : Moon → Moon) : (modMoon s f).cfg = s.cfg := rfl
@[simp] theorem modMoon_flash (s : State) (f : Moon → Moon) : (modMoon s f).flash = s.flash := rfl
@[simp] theorem modMoon_pools (s : State) (f : Moon → Moon) : (modMoon s f).pools = s.pools := rfl
@[simp] theorem modMoon_vols (s : State) (f : Moon → Moon) : (modMoon s f).vols = s.vols := rfl
@[simp] theorem modMoon_members (s : State) (f : Moon → Moon) : (modMoon s f).members = s.members := rfl
@[simp] theorem modMoon_sbt (s : State) (f : Moon → Moon) : (modMoon s f).sbt = s.sbt := rfl
@[simp] theorem modMoon_links (s : State) (f : Moon → Moon) : (modMoon s f).links = s.links := rfl
@[simp] theorem modMoon_partners (s : State) (f : Moon → Moon) : (modMoon s f).partners = s.partners := rfl
@[simp] theorem modMoon_pcie (s : State) (f : Moon → Moon) : (modMoon s f).pcie = s.pcie := rfl
@[simp] theorem modMoon_sqs (s : State) (f : Moon → Moon) : (modMoon s f).sqs = s.sqs := rfl
@[simp] theorem modMoon_cqs (s : State) (f : Moon → Moon) : (modMoon s f).cqs = s.cqs := rfl
@[simp] theorem modMoon_live (s : State) (f : Moon → Moon) : (modMoon s f).live = s.live := rfl
@[simp] theorem modMoon_mbx (s : State) (f : Moon → Moon) : (modMoon s f).mbx = s.mbx := rfl
@[simp] theorem modMoon_cache (s : State) (f : Moon → Moon) : (modMoon s f).cache = s.cache := rfl
@[simp] theorem modMoon_jade (s : State) (f : Moon → Moon) : (modMoon s f).jade = s.jade := rfl
@[simp] theorem modMoon_jet (s : State) (f : Moon → Moon) : (modMoon s f).jet = s.jet := rfl
@[simp] theorem modMoon_jtag (s : State) (f : Moon → Moon) : (modMoon s f).jtag = s.jtag := rfl
@[simp] theorem modMoon_hk (s : State) (f : Moon → Moon) : (modMoon s f).hk = s.hk := rfl
@[simp] theorem modMoon_tests (s : State) (f : Moon → Moon) : (modMoon s f).tests = s.tests := rfl
@[simp] theorem modMoon_sec (s : State) (f : Moon → Moon) : (modMoon s f).sec = s.sec := rfl
@[simp] theorem modMoon_pending (s : State) (f : Moon → Moon) : (modMoon s f).pending = s.pending := rfl

theorem modMoon_Frame (s : State) (f : Moon → Moon) : Frame [.moon] s (modMoon s f) := by
  constructor <;> intros <;> simp_all

@[simp] theorem modSbt_part (s : State) (f : Sbt → Sbt) : (modSbt s f).part = s.part := rfl
@[simp] theorem modSbt_clock (s : State) (f : Sbt → Sbt) : (modSbt s f).clock = s.clock := rfl
@[simp] theorem modSbt_freeIx (s : State) (f : Sbt → Sbt) : (modSbt s f).freeIx = s.freeIx := rfl
@[simp] theorem modSbt_nextId (s : State) (f : Sbt → Sbt) : (modSbt s f).nextId = s.nextId := rfl
@[simp] theorem modSbt_out (s : State) (f : Sbt → Sbt) : (modSbt s f).out = s.out := rfl
@[simp] theorem modSbt_phase (s : State) (f : Sbt → Sbt) : (modSbt s f).phase = s.phase := rfl
@[simp] theorem modSbt_pins (s : State) (f : Sbt → Sbt) : (modSbt s f).pins = s.pins := rfl
@[simp] theorem modSbt_moon (s : State) (f : Sbt → Sbt) : (modSbt s f).moon = s.moon := rfl
@[simp] theorem modSbt_tiles (s : State) (f : Sbt → Sbt) : (modSbt s f).tiles = s.tiles := rfl
@[simp] theorem modSbt_mesh (s : State) (f : Sbt → Sbt) : (modSbt s f).mesh = s.mesh := rfl
@[simp] theorem modSbt_cmds (s : State) (f : Sbt → Sbt) : (modSbt s f).cmds = s.cmds := rfl
@[simp] theorem modSbt_mcmds (s : State) (f : Sbt → Sbt) : (modSbt s f).mcmds = s.mcmds := rfl
@[simp] theorem modSbt_fetches (s : State) (f : Sbt → Sbt) : (modSbt s f).fetches = s.fetches := rfl
@[simp] theorem modSbt_destages (s : State) (f : Sbt → Sbt) : (modSbt s f).destages = s.destages := rfl
@[simp] theorem modSbt_replays (s : State) (f : Sbt → Sbt) : (modSbt s f).replays = s.replays := rfl
@[simp] theorem modSbt_maints (s : State) (f : Sbt → Sbt) : (modSbt s f).maints = s.maints := rfl
@[simp] theorem modSbt_budget (s : State) (f : Sbt → Sbt) : (modSbt s f).budget = s.budget := rfl
@[simp] theorem modSbt_cfg (s : State) (f : Sbt → Sbt) : (modSbt s f).cfg = s.cfg := rfl
@[simp] theorem modSbt_flash (s : State) (f : Sbt → Sbt) : (modSbt s f).flash = s.flash := rfl
@[simp] theorem modSbt_pools (s : State) (f : Sbt → Sbt) : (modSbt s f).pools = s.pools := rfl
@[simp] theorem modSbt_vols (s : State) (f : Sbt → Sbt) : (modSbt s f).vols = s.vols := rfl
@[simp] theorem modSbt_members (s : State) (f : Sbt → Sbt) : (modSbt s f).members = s.members := rfl
@[simp] theorem modSbt_links (s : State) (f : Sbt → Sbt) : (modSbt s f).links = s.links := rfl
@[simp] theorem modSbt_partners (s : State) (f : Sbt → Sbt) : (modSbt s f).partners = s.partners := rfl
@[simp] theorem modSbt_pcie (s : State) (f : Sbt → Sbt) : (modSbt s f).pcie = s.pcie := rfl
@[simp] theorem modSbt_sqs (s : State) (f : Sbt → Sbt) : (modSbt s f).sqs = s.sqs := rfl
@[simp] theorem modSbt_cqs (s : State) (f : Sbt → Sbt) : (modSbt s f).cqs = s.cqs := rfl
@[simp] theorem modSbt_live (s : State) (f : Sbt → Sbt) : (modSbt s f).live = s.live := rfl
@[simp] theorem modSbt_mbx (s : State) (f : Sbt → Sbt) : (modSbt s f).mbx = s.mbx := rfl
@[simp] theorem modSbt_cache (s : State) (f : Sbt → Sbt) : (modSbt s f).cache = s.cache := rfl
@[simp] theorem modSbt_jade (s : State) (f : Sbt → Sbt) : (modSbt s f).jade = s.jade := rfl
@[simp] theorem modSbt_jet (s : State) (f : Sbt → Sbt) : (modSbt s f).jet = s.jet := rfl
@[simp] theorem modSbt_jtag (s : State) (f : Sbt → Sbt) : (modSbt s f).jtag = s.jtag := rfl
@[simp] theorem modSbt_hk (s : State) (f : Sbt → Sbt) : (modSbt s f).hk = s.hk := rfl
@[simp] theorem modSbt_tests (s : State) (f : Sbt → Sbt) : (modSbt s f).tests = s.tests := rfl
@[simp] theorem modSbt_sec (s : State) (f : Sbt → Sbt) : (modSbt s f).sec = s.sec := rfl
@[simp] theorem modSbt_pending (s : State) (f : Sbt → Sbt) : (modSbt s f).pending = s.pending := rfl

theorem modSbt_Frame (s : State) (f : Sbt → Sbt) : Frame [.sbt] s (modSbt s f) := by
  constructor <;> intros <;> simp_all

@[simp] theorem modConn_part (s : State) (i : W32) (f : Conn → Conn) : (modConn s i f).part = s.part := rfl
@[simp] theorem modConn_clock (s : State) (i : W32) (f : Conn → Conn) : (modConn s i f).clock = s.clock := rfl
@[simp] theorem modConn_freeIx (s : State) (i : W32) (f : Conn → Conn) : (modConn s i f).freeIx = s.freeIx := rfl
@[simp] theorem modConn_nextId (s : State) (i : W32) (f : Conn → Conn) : (modConn s i f).nextId = s.nextId := rfl
@[simp] theorem modConn_out (s : State) (i : W32) (f : Conn → Conn) : (modConn s i f).out = s.out := rfl
@[simp] theorem modConn_phase (s : State) (i : W32) (f : Conn → Conn) : (modConn s i f).phase = s.phase := rfl
@[simp] theorem modConn_pins (s : State) (i : W32) (f : Conn → Conn) : (modConn s i f).pins = s.pins := rfl
@[simp] theorem modConn_moon (s : State) (i : W32) (f : Conn → Conn) : (modConn s i f).moon = s.moon := rfl
@[simp] theorem modConn_tiles (s : State) (i : W32) (f : Conn → Conn) : (modConn s i f).tiles = s.tiles := rfl
@[simp] theorem modConn_mesh (s : State) (i : W32) (f : Conn → Conn) : (modConn s i f).mesh = s.mesh := rfl
@[simp] theorem modConn_cmds (s : State) (i : W32) (f : Conn → Conn) : (modConn s i f).cmds = s.cmds := rfl
@[simp] theorem modConn_mcmds (s : State) (i : W32) (f : Conn → Conn) : (modConn s i f).mcmds = s.mcmds := rfl
@[simp] theorem modConn_fetches (s : State) (i : W32) (f : Conn → Conn) : (modConn s i f).fetches = s.fetches := rfl
@[simp] theorem modConn_destages (s : State) (i : W32) (f : Conn → Conn) : (modConn s i f).destages = s.destages := rfl
@[simp] theorem modConn_replays (s : State) (i : W32) (f : Conn → Conn) : (modConn s i f).replays = s.replays := rfl
@[simp] theorem modConn_maints (s : State) (i : W32) (f : Conn → Conn) : (modConn s i f).maints = s.maints := rfl
@[simp] theorem modConn_budget (s : State) (i : W32) (f : Conn → Conn) : (modConn s i f).budget = s.budget := rfl
@[simp] theorem modConn_cfg (s : State) (i : W32) (f : Conn → Conn) : (modConn s i f).cfg = s.cfg := rfl
@[simp] theorem modConn_flash (s : State) (i : W32) (f : Conn → Conn) : (modConn s i f).flash = s.flash := rfl
@[simp] theorem modConn_pools (s : State) (i : W32) (f : Conn → Conn) : (modConn s i f).pools = s.pools := rfl
@[simp] theorem modConn_vols (s : State) (i : W32) (f : Conn → Conn) : (modConn s i f).vols = s.vols := rfl
@[simp] theorem modConn_members (s : State) (i : W32) (f : Conn → Conn) : (modConn s i f).members = s.members := rfl
@[simp] theorem modConn_links (s : State) (i : W32) (f : Conn → Conn) : (modConn s i f).links = s.links := rfl
@[simp] theorem modConn_partners (s : State) (i : W32) (f : Conn → Conn) : (modConn s i f).partners = s.partners := rfl
@[simp] theorem modConn_pcie (s : State) (i : W32) (f : Conn → Conn) : (modConn s i f).pcie = s.pcie := rfl
@[simp] theorem modConn_sqs (s : State) (i : W32) (f : Conn → Conn) : (modConn s i f).sqs = s.sqs := rfl
@[simp] theorem modConn_cqs (s : State) (i : W32) (f : Conn → Conn) : (modConn s i f).cqs = s.cqs := rfl
@[simp] theorem modConn_live (s : State) (i : W32) (f : Conn → Conn) : (modConn s i f).live = s.live := rfl
@[simp] theorem modConn_mbx (s : State) (i : W32) (f : Conn → Conn) : (modConn s i f).mbx = s.mbx := rfl
@[simp] theorem modConn_cache (s : State) (i : W32) (f : Conn → Conn) : (modConn s i f).cache = s.cache := rfl
@[simp] theorem modConn_jade (s : State) (i : W32) (f : Conn → Conn) : (modConn s i f).jade = s.jade := rfl
@[simp] theorem modConn_jet (s : State) (i : W32) (f : Conn → Conn) : (modConn s i f).jet = s.jet := rfl
@[simp] theorem modConn_jtag (s : State) (i : W32) (f : Conn → Conn) : (modConn s i f).jtag = s.jtag := rfl
@[simp] theorem modConn_hk (s : State) (i : W32) (f : Conn → Conn) : (modConn s i f).hk = s.hk := rfl
@[simp] theorem modConn_tests (s : State) (i : W32) (f : Conn → Conn) : (modConn s i f).tests = s.tests := rfl
@[simp] theorem modConn_sec (s : State) (i : W32) (f : Conn → Conn) : (modConn s i f).sec = s.sec := rfl
@[simp] theorem modConn_pending (s : State) (i : W32) (f : Conn → Conn) : (modConn s i f).pending = s.pending := rfl

theorem modConn_Frame (s : State) (i : W32) (f : Conn → Conn) : Frame [.sbt] s (modConn s i f) := by
  constructor <;> intros <;> simp_all

@[simp] theorem countFrame_part (s : State) (p : Nat) : (countFrame s p).part = s.part := rfl
@[simp] theorem countFrame_clock (s : State) (p : Nat) : (countFrame s p).clock = s.clock := rfl
@[simp] theorem countFrame_freeIx (s : State) (p : Nat) : (countFrame s p).freeIx = s.freeIx := rfl
@[simp] theorem countFrame_nextId (s : State) (p : Nat) : (countFrame s p).nextId = s.nextId := rfl
@[simp] theorem countFrame_out (s : State) (p : Nat) : (countFrame s p).out = s.out := rfl
@[simp] theorem countFrame_phase (s : State) (p : Nat) : (countFrame s p).phase = s.phase := rfl
@[simp] theorem countFrame_pins (s : State) (p : Nat) : (countFrame s p).pins = s.pins := rfl
@[simp] theorem countFrame_moon (s : State) (p : Nat) : (countFrame s p).moon = s.moon := rfl
@[simp] theorem countFrame_tiles (s : State) (p : Nat) : (countFrame s p).tiles = s.tiles := rfl
@[simp] theorem countFrame_mesh (s : State) (p : Nat) : (countFrame s p).mesh = s.mesh := rfl
@[simp] theorem countFrame_cmds (s : State) (p : Nat) : (countFrame s p).cmds = s.cmds := rfl
@[simp] theorem countFrame_mcmds (s : State) (p : Nat) : (countFrame s p).mcmds = s.mcmds := rfl
@[simp] theorem countFrame_fetches (s : State) (p : Nat) : (countFrame s p).fetches = s.fetches := rfl
@[simp] theorem countFrame_destages (s : State) (p : Nat) : (countFrame s p).destages = s.destages := rfl
@[simp] theorem countFrame_replays (s : State) (p : Nat) : (countFrame s p).replays = s.replays := rfl
@[simp] theorem countFrame_maints (s : State) (p : Nat) : (countFrame s p).maints = s.maints := rfl
@[simp] theorem countFrame_budget (s : State) (p : Nat) : (countFrame s p).budget = s.budget := rfl
@[simp] theorem countFrame_cfg (s : State) (p : Nat) : (countFrame s p).cfg = s.cfg := rfl
@[simp] theorem countFrame_flash (s : State) (p : Nat) : (countFrame s p).flash = s.flash := rfl
@[simp] theorem countFrame_pools (s : State) (p : Nat) : (countFrame s p).pools = s.pools := rfl
@[simp] theorem countFrame_vols (s : State) (p : Nat) : (countFrame s p).vols = s.vols := rfl
@[simp] theorem countFrame_members (s : State) (p : Nat) : (countFrame s p).members = s.members := rfl
@[simp] theorem countFrame_sbt (s : State) (p : Nat) : (countFrame s p).sbt = s.sbt := rfl
@[simp] theorem countFrame_partners (s : State) (p : Nat) : (countFrame s p).partners = s.partners := rfl
@[simp] theorem countFrame_pcie (s : State) (p : Nat) : (countFrame s p).pcie = s.pcie := rfl
@[simp] theorem countFrame_sqs (s : State) (p : Nat) : (countFrame s p).sqs = s.sqs := rfl
@[simp] theorem countFrame_cqs (s : State) (p : Nat) : (countFrame s p).cqs = s.cqs := rfl
@[simp] theorem countFrame_live (s : State) (p : Nat) : (countFrame s p).live = s.live := rfl
@[simp] theorem countFrame_mbx (s : State) (p : Nat) : (countFrame s p).mbx = s.mbx := rfl
@[simp] theorem countFrame_cache (s : State) (p : Nat) : (countFrame s p).cache = s.cache := rfl
@[simp] theorem countFrame_jade (s : State) (p : Nat) : (countFrame s p).jade = s.jade := rfl
@[simp] theorem countFrame_jet (s : State) (p : Nat) : (countFrame s p).jet = s.jet := rfl
@[simp] theorem countFrame_jtag (s : State) (p : Nat) : (countFrame s p).jtag = s.jtag := rfl
@[simp] theorem countFrame_hk (s : State) (p : Nat) : (countFrame s p).hk = s.hk := rfl
@[simp] theorem countFrame_tests (s : State) (p : Nat) : (countFrame s p).tests = s.tests := rfl
@[simp] theorem countFrame_sec (s : State) (p : Nat) : (countFrame s p).sec = s.sec := rfl
@[simp] theorem countFrame_pending (s : State) (p : Nat) : (countFrame s p).pending = s.pending := rfl

theorem countFrame_Frame (s : State) (p : Nat) : Frame [.links] s (countFrame s p) := by
  constructor <;> intros <;> simp_all

@[simp] theorem dropFrame_part (s : State) (p c : Nat) : (dropFrame s p c).part = s.part := rfl
@[simp] theorem dropFrame_clock (s : State) (p c : Nat) : (dropFrame s p c).clock = s.clock := rfl
@[simp] theorem dropFrame_freeIx (s : State) (p c : Nat) : (dropFrame s p c).freeIx = s.freeIx := rfl
@[simp] theorem dropFrame_nextId (s : State) (p c : Nat) : (dropFrame s p c).nextId = s.nextId := rfl
@[simp] theorem dropFrame_out (s : State) (p c : Nat) : (dropFrame s p c).out = s.out := rfl
@[simp] theorem dropFrame_phase (s : State) (p c : Nat) : (dropFrame s p c).phase = s.phase := rfl
@[simp] theorem dropFrame_pins (s : State) (p c : Nat) : (dropFrame s p c).pins = s.pins := rfl
@[simp] theorem dropFrame_moon (s : State) (p c : Nat) : (dropFrame s p c).moon = s.moon := rfl
@[simp] theorem dropFrame_tiles (s : State) (p c : Nat) : (dropFrame s p c).tiles = s.tiles := rfl
@[simp] theorem dropFrame_mesh (s : State) (p c : Nat) : (dropFrame s p c).mesh = s.mesh := rfl
@[simp] theorem dropFrame_cmds (s : State) (p c : Nat) : (dropFrame s p c).cmds = s.cmds := rfl
@[simp] theorem dropFrame_mcmds (s : State) (p c : Nat) : (dropFrame s p c).mcmds = s.mcmds := rfl
@[simp] theorem dropFrame_fetches (s : State) (p c : Nat) : (dropFrame s p c).fetches = s.fetches := rfl
@[simp] theorem dropFrame_destages (s : State) (p c : Nat) : (dropFrame s p c).destages = s.destages := rfl
@[simp] theorem dropFrame_replays (s : State) (p c : Nat) : (dropFrame s p c).replays = s.replays := rfl
@[simp] theorem dropFrame_maints (s : State) (p c : Nat) : (dropFrame s p c).maints = s.maints := rfl
@[simp] theorem dropFrame_budget (s : State) (p c : Nat) : (dropFrame s p c).budget = s.budget := rfl
@[simp] theorem dropFrame_cfg (s : State) (p c : Nat) : (dropFrame s p c).cfg = s.cfg := rfl
@[simp] theorem dropFrame_flash (s : State) (p c : Nat) : (dropFrame s p c).flash = s.flash := rfl
@[simp] theorem dropFrame_pools (s : State) (p c : Nat) : (dropFrame s p c).pools = s.pools := rfl
@[simp] theorem dropFrame_vols (s : State) (p c : Nat) : (dropFrame s p c).vols = s.vols := rfl
@[simp] theorem dropFrame_members (s : State) (p c : Nat) : (dropFrame s p c).members = s.members := rfl
@[simp] theorem dropFrame_sbt (s : State) (p c : Nat) : (dropFrame s p c).sbt = s.sbt := rfl
@[simp] theorem dropFrame_partners (s : State) (p c : Nat) : (dropFrame s p c).partners = s.partners := rfl
@[simp] theorem dropFrame_pcie (s : State) (p c : Nat) : (dropFrame s p c).pcie = s.pcie := rfl
@[simp] theorem dropFrame_sqs (s : State) (p c : Nat) : (dropFrame s p c).sqs = s.sqs := rfl
@[simp] theorem dropFrame_cqs (s : State) (p c : Nat) : (dropFrame s p c).cqs = s.cqs := rfl
@[simp] theorem dropFrame_live (s : State) (p c : Nat) : (dropFrame s p c).live = s.live := rfl
@[simp] theorem dropFrame_mbx (s : State) (p c : Nat) : (dropFrame s p c).mbx = s.mbx := rfl
@[simp] theorem dropFrame_cache (s : State) (p c : Nat) : (dropFrame s p c).cache = s.cache := rfl
@[simp] theorem dropFrame_jade (s : State) (p c : Nat) : (dropFrame s p c).jade = s.jade := rfl
@[simp] theorem dropFrame_jet (s : State) (p c : Nat) : (dropFrame s p c).jet = s.jet := rfl
@[simp] theorem dropFrame_jtag (s : State) (p c : Nat) : (dropFrame s p c).jtag = s.jtag := rfl
@[simp] theorem dropFrame_hk (s : State) (p c : Nat) : (dropFrame s p c).hk = s.hk := rfl
@[simp] theorem dropFrame_tests (s : State) (p c : Nat) : (dropFrame s p c).tests = s.tests := rfl
@[simp] theorem dropFrame_sec (s : State) (p c : Nat) : (dropFrame s p c).sec = s.sec := rfl
@[simp] theorem dropFrame_pending (s : State) (p c : Nat) : (dropFrame s p c).pending = s.pending := rfl

theorem dropFrame_Frame (s : State) (p c : Nat) : Frame [.links] s (dropFrame s p c) := by
  constructor <;> intros <;> simp_all

@[simp] theorem modMaint_part (s : State) (i : Nat) (f : Maint → Maint) : (modMaint s i f).part = s.part := rfl
@[simp] theorem modMaint_clock (s : State) (i : Nat) (f : Maint → Maint) : (modMaint s i f).clock = s.clock := rfl
@[simp] theorem modMaint_freeIx (s : State) (i : Nat) (f : Maint → Maint) : (modMaint s i f).freeIx = s.freeIx := rfl
@[simp] theorem modMaint_nextId (s : State) (i : Nat) (f : Maint → Maint) : (modMaint s i f).nextId = s.nextId := rfl
@[simp] theorem modMaint_out (s : State) (i : Nat) (f : Maint → Maint) : (modMaint s i f).out = s.out := rfl
@[simp] theorem modMaint_phase (s : State) (i : Nat) (f : Maint → Maint) : (modMaint s i f).phase = s.phase := rfl
@[simp] theorem modMaint_pins (s : State) (i : Nat) (f : Maint → Maint) : (modMaint s i f).pins = s.pins := rfl
@[simp] theorem modMaint_moon (s : State) (i : Nat) (f : Maint → Maint) : (modMaint s i f).moon = s.moon := rfl
@[simp] theorem modMaint_tiles (s : State) (i : Nat) (f : Maint → Maint) : (modMaint s i f).tiles = s.tiles := rfl
@[simp] theorem modMaint_mesh (s : State) (i : Nat) (f : Maint → Maint) : (modMaint s i f).mesh = s.mesh := rfl
@[simp] theorem modMaint_cmds (s : State) (i : Nat) (f : Maint → Maint) : (modMaint s i f).cmds = s.cmds := rfl
@[simp] theorem modMaint_mcmds (s : State) (i : Nat) (f : Maint → Maint) : (modMaint s i f).mcmds = s.mcmds := rfl
@[simp] theorem modMaint_fetches (s : State) (i : Nat) (f : Maint → Maint) : (modMaint s i f).fetches = s.fetches := rfl
@[simp] theorem modMaint_destages (s : State) (i : Nat) (f : Maint → Maint) : (modMaint s i f).destages = s.destages := rfl
@[simp] theorem modMaint_replays (s : State) (i : Nat) (f : Maint → Maint) : (modMaint s i f).replays = s.replays := rfl
@[simp] theorem modMaint_budget (s : State) (i : Nat) (f : Maint → Maint) : (modMaint s i f).budget = s.budget := rfl
@[simp] theorem modMaint_cfg (s : State) (i : Nat) (f : Maint → Maint) : (modMaint s i f).cfg = s.cfg := rfl
@[simp] theorem modMaint_flash (s : State) (i : Nat) (f : Maint → Maint) : (modMaint s i f).flash = s.flash := rfl
@[simp] theorem modMaint_pools (s : State) (i : Nat) (f : Maint → Maint) : (modMaint s i f).pools = s.pools := rfl
@[simp] theorem modMaint_vols (s : State) (i : Nat) (f : Maint → Maint) : (modMaint s i f).vols = s.vols := rfl
@[simp] theorem modMaint_members (s : State) (i : Nat) (f : Maint → Maint) : (modMaint s i f).members = s.members := rfl
@[simp] theorem modMaint_sbt (s : State) (i : Nat) (f : Maint → Maint) : (modMaint s i f).sbt = s.sbt := rfl
@[simp] theorem modMaint_links (s : State) (i : Nat) (f : Maint → Maint) : (modMaint s i f).links = s.links := rfl
@[simp] theorem modMaint_partners (s : State) (i : Nat) (f : Maint → Maint) : (modMaint s i f).partners = s.partners := rfl
@[simp] theorem modMaint_pcie (s : State) (i : Nat) (f : Maint → Maint) : (modMaint s i f).pcie = s.pcie := rfl
@[simp] theorem modMaint_sqs (s : State) (i : Nat) (f : Maint → Maint) : (modMaint s i f).sqs = s.sqs := rfl
@[simp] theorem modMaint_cqs (s : State) (i : Nat) (f : Maint → Maint) : (modMaint s i f).cqs = s.cqs := rfl
@[simp] theorem modMaint_live (s : State) (i : Nat) (f : Maint → Maint) : (modMaint s i f).live = s.live := rfl
@[simp] theorem modMaint_mbx (s : State) (i : Nat) (f : Maint → Maint) : (modMaint s i f).mbx = s.mbx := rfl
@[simp] theorem modMaint_cache (s : State) (i : Nat) (f : Maint → Maint) : (modMaint s i f).cache = s.cache := rfl
@[simp] theorem modMaint_jade (s : State) (i : Nat) (f : Maint → Maint) : (modMaint s i f).jade = s.jade := rfl
@[simp] theorem modMaint_jet (s : State) (i : Nat) (f : Maint → Maint) : (modMaint s i f).jet = s.jet := rfl
@[simp] theorem modMaint_jtag (s : State) (i : Nat) (f : Maint → Maint) : (modMaint s i f).jtag = s.jtag := rfl
@[simp] theorem modMaint_hk (s : State) (i : Nat) (f : Maint → Maint) : (modMaint s i f).hk = s.hk := rfl
@[simp] theorem modMaint_tests (s : State) (i : Nat) (f : Maint → Maint) : (modMaint s i f).tests = s.tests := rfl
@[simp] theorem modMaint_sec (s : State) (i : Nat) (f : Maint → Maint) : (modMaint s i f).sec = s.sec := rfl
@[simp] theorem modMaint_pending (s : State) (i : Nat) (f : Maint → Maint) : (modMaint s i f).pending = s.pending := rfl

theorem modMaint_Frame (s : State) (i : Nat) (f : Maint → Maint) : Frame [.maints] s (modMaint s i f) := by
  constructor <;> intros <;> simp_all

@[simp] theorem storeCfg_part (s : State) : (storeCfg s).part = s.part := rfl
@[simp] theorem storeCfg_clock (s : State) : (storeCfg s).clock = s.clock := rfl
@[simp] theorem storeCfg_freeIx (s : State) : (storeCfg s).freeIx = s.freeIx := rfl
@[simp] theorem storeCfg_nextId (s : State) : (storeCfg s).nextId = s.nextId := rfl
@[simp] theorem storeCfg_out (s : State) : (storeCfg s).out = s.out := rfl
@[simp] theorem storeCfg_phase (s : State) : (storeCfg s).phase = s.phase := rfl
@[simp] theorem storeCfg_pins (s : State) : (storeCfg s).pins = s.pins := rfl
@[simp] theorem storeCfg_moon (s : State) : (storeCfg s).moon = s.moon := rfl
@[simp] theorem storeCfg_tiles (s : State) : (storeCfg s).tiles = s.tiles := rfl
@[simp] theorem storeCfg_mesh (s : State) : (storeCfg s).mesh = s.mesh := rfl
@[simp] theorem storeCfg_cmds (s : State) : (storeCfg s).cmds = s.cmds := rfl
@[simp] theorem storeCfg_mcmds (s : State) : (storeCfg s).mcmds = s.mcmds := rfl
@[simp] theorem storeCfg_fetches (s : State) : (storeCfg s).fetches = s.fetches := rfl
@[simp] theorem storeCfg_destages (s : State) : (storeCfg s).destages = s.destages := rfl
@[simp] theorem storeCfg_replays (s : State) : (storeCfg s).replays = s.replays := rfl
@[simp] theorem storeCfg_maints (s : State) : (storeCfg s).maints = s.maints := rfl
@[simp] theorem storeCfg_budget (s : State) : (storeCfg s).budget = s.budget := rfl
@[simp] theorem storeCfg_cfg (s : State) : (storeCfg s).cfg = s.cfg := rfl
@[simp] theorem storeCfg_pools (s : State) : (storeCfg s).pools = s.pools := rfl
@[simp] theorem storeCfg_vols (s : State) : (storeCfg s).vols = s.vols := rfl
@[simp] theorem storeCfg_members (s : State) : (storeCfg s).members = s.members := rfl
@[simp] theorem storeCfg_sbt (s : State) : (storeCfg s).sbt = s.sbt := rfl
@[simp] theorem storeCfg_links (s : State) : (storeCfg s).links = s.links := rfl
@[simp] theorem storeCfg_partners (s : State) : (storeCfg s).partners = s.partners := rfl
@[simp] theorem storeCfg_pcie (s : State) : (storeCfg s).pcie = s.pcie := rfl
@[simp] theorem storeCfg_sqs (s : State) : (storeCfg s).sqs = s.sqs := rfl
@[simp] theorem storeCfg_cqs (s : State) : (storeCfg s).cqs = s.cqs := rfl
@[simp] theorem storeCfg_live (s : State) : (storeCfg s).live = s.live := rfl
@[simp] theorem storeCfg_mbx (s : State) : (storeCfg s).mbx = s.mbx := rfl
@[simp] theorem storeCfg_cache (s : State) : (storeCfg s).cache = s.cache := rfl
@[simp] theorem storeCfg_jade (s : State) : (storeCfg s).jade = s.jade := rfl
@[simp] theorem storeCfg_jet (s : State) : (storeCfg s).jet = s.jet := rfl
@[simp] theorem storeCfg_jtag (s : State) : (storeCfg s).jtag = s.jtag := rfl
@[simp] theorem storeCfg_hk (s : State) : (storeCfg s).hk = s.hk := rfl
@[simp] theorem storeCfg_tests (s : State) : (storeCfg s).tests = s.tests := rfl
@[simp] theorem storeCfg_sec (s : State) : (storeCfg s).sec = s.sec := rfl
@[simp] theorem storeCfg_pending (s : State) : (storeCfg s).pending = s.pending := rfl

theorem storeCfg_Frame (s : State) : Frame [.flash] s (storeCfg s) := by
  constructor <;> intros <;> simp_all

@[simp] theorem partnerSend_part (s : State) (l : Nat) (b : PartnerBody) : (partnerSend s l b).part = s.part := by
  simp only [partnerSend]; split <;> rfl
@[simp] theorem partnerSend_clock (s : State) (l : Nat) (b : PartnerBody) : (partnerSend s l b).clock = s.clock := by
  simp only [partnerSend]; split <;> rfl
@[simp] theorem partnerSend_freeIx (s : State) (l : Nat) (b : PartnerBody) : (partnerSend s l b).freeIx = s.freeIx := by
  simp only [partnerSend]; split <;> rfl
@[simp] theorem partnerSend_nextId (s : State) (l : Nat) (b : PartnerBody) : (partnerSend s l b).nextId = s.nextId := by
  simp only [partnerSend]; split <;> rfl
@[simp] theorem partnerSend_phase (s : State) (l : Nat) (b : PartnerBody) : (partnerSend s l b).phase = s.phase := by
  simp only [partnerSend]; split <;> rfl
@[simp] theorem partnerSend_pins (s : State) (l : Nat) (b : PartnerBody) : (partnerSend s l b).pins = s.pins := by
  simp only [partnerSend]; split <;> rfl
@[simp] theorem partnerSend_moon (s : State) (l : Nat) (b : PartnerBody) : (partnerSend s l b).moon = s.moon := by
  simp only [partnerSend]; split <;> rfl
@[simp] theorem partnerSend_tiles (s : State) (l : Nat) (b : PartnerBody) : (partnerSend s l b).tiles = s.tiles := by
  simp only [partnerSend]; split <;> rfl
@[simp] theorem partnerSend_mesh (s : State) (l : Nat) (b : PartnerBody) : (partnerSend s l b).mesh = s.mesh := by
  simp only [partnerSend]; split <;> rfl
@[simp] theorem partnerSend_cmds (s : State) (l : Nat) (b : PartnerBody) : (partnerSend s l b).cmds = s.cmds := by
  simp only [partnerSend]; split <;> rfl
@[simp] theorem partnerSend_mcmds (s : State) (l : Nat) (b : PartnerBody) : (partnerSend s l b).mcmds = s.mcmds := by
  simp only [partnerSend]; split <;> rfl
@[simp] theorem partnerSend_fetches (s : State) (l : Nat) (b : PartnerBody) : (partnerSend s l b).fetches = s.fetches := by
  simp only [partnerSend]; split <;> rfl
@[simp] theorem partnerSend_destages (s : State) (l : Nat) (b : PartnerBody) : (partnerSend s l b).destages = s.destages := by
  simp only [partnerSend]; split <;> rfl
@[simp] theorem partnerSend_replays (s : State) (l : Nat) (b : PartnerBody) : (partnerSend s l b).replays = s.replays := by
  simp only [partnerSend]; split <;> rfl
@[simp] theorem partnerSend_maints (s : State) (l : Nat) (b : PartnerBody) : (partnerSend s l b).maints = s.maints := by
  simp only [partnerSend]; split <;> rfl
@[simp] theorem partnerSend_budget (s : State) (l : Nat) (b : PartnerBody) : (partnerSend s l b).budget = s.budget := by
  simp only [partnerSend]; split <;> rfl
@[simp] theorem partnerSend_cfg (s : State) (l : Nat) (b : PartnerBody) : (partnerSend s l b).cfg = s.cfg := by
  simp only [partnerSend]; split <;> rfl
@[simp] theorem partnerSend_flash (s : State) (l : Nat) (b : PartnerBody) : (partnerSend s l b).flash = s.flash := by
  simp only [partnerSend]; split <;> rfl
@[simp] theorem partnerSend_pools (s : State) (l : Nat) (b : PartnerBody) : (partnerSend s l b).pools = s.pools := by
  simp only [partnerSend]; split <;> rfl
@[simp] theorem partnerSend_vols (s : State) (l : Nat) (b : PartnerBody) : (partnerSend s l b).vols = s.vols := by
  simp only [partnerSend]; split <;> rfl
@[simp] theorem partnerSend_members (s : State) (l : Nat) (b : PartnerBody) : (partnerSend s l b).members = s.members := by
  simp only [partnerSend]; split <;> rfl
@[simp] theorem partnerSend_sbt (s : State) (l : Nat) (b : PartnerBody) : (partnerSend s l b).sbt = s.sbt := by
  simp only [partnerSend]; split <;> rfl
@[simp] theorem partnerSend_links (s : State) (l : Nat) (b : PartnerBody) : (partnerSend s l b).links = s.links := by
  simp only [partnerSend]; split <;> rfl
@[simp] theorem partnerSend_pcie (s : State) (l : Nat) (b : PartnerBody) : (partnerSend s l b).pcie = s.pcie := by
  simp only [partnerSend]; split <;> rfl
@[simp] theorem partnerSend_sqs (s : State) (l : Nat) (b : PartnerBody) : (partnerSend s l b).sqs = s.sqs := by
  simp only [partnerSend]; split <;> rfl
@[simp] theorem partnerSend_cqs (s : State) (l : Nat) (b : PartnerBody) : (partnerSend s l b).cqs = s.cqs := by
  simp only [partnerSend]; split <;> rfl
@[simp] theorem partnerSend_live (s : State) (l : Nat) (b : PartnerBody) : (partnerSend s l b).live = s.live := by
  simp only [partnerSend]; split <;> rfl
@[simp] theorem partnerSend_mbx (s : State) (l : Nat) (b : PartnerBody) : (partnerSend s l b).mbx = s.mbx := by
  simp only [partnerSend]; split <;> rfl
@[simp] theorem partnerSend_cache (s : State) (l : Nat) (b : PartnerBody) : (partnerSend s l b).cache = s.cache := by
  simp only [partnerSend]; split <;> rfl
@[simp] theorem partnerSend_jade (s : State) (l : Nat) (b : PartnerBody) : (partnerSend s l b).jade = s.jade := by
  simp only [partnerSend]; split <;> rfl
@[simp] theorem partnerSend_jet (s : State) (l : Nat) (b : PartnerBody) : (partnerSend s l b).jet = s.jet := by
  simp only [partnerSend]; split <;> rfl
@[simp] theorem partnerSend_jtag (s : State) (l : Nat) (b : PartnerBody) : (partnerSend s l b).jtag = s.jtag := by
  simp only [partnerSend]; split <;> rfl
@[simp] theorem partnerSend_hk (s : State) (l : Nat) (b : PartnerBody) : (partnerSend s l b).hk = s.hk := by
  simp only [partnerSend]; split <;> rfl
@[simp] theorem partnerSend_tests (s : State) (l : Nat) (b : PartnerBody) : (partnerSend s l b).tests = s.tests := by
  simp only [partnerSend]; split <;> rfl
@[simp] theorem partnerSend_sec (s : State) (l : Nat) (b : PartnerBody) : (partnerSend s l b).sec = s.sec := by
  simp only [partnerSend]; split <;> rfl
@[simp] theorem partnerSend_pending (s : State) (l : Nat) (b : PartnerBody) : (partnerSend s l b).pending = s.pending := by
  simp only [partnerSend]; split <;> rfl

theorem partnerSend_Frame (s : State) (l : Nat) (b : PartnerBody) : Frame [.partners] s (partnerSend s l b) := by
  constructor
  case out => simp only [partnerSend]; split <;> simp [emit, setPartner]
  all_goals intros; simp_all

/-! ### What they do -/

@[simp] theorem modMoon_moon (s : State) (f : Moon → Moon) : (modMoon s f).moon = f s.moon := rfl
@[simp] theorem modSbt_sbt (s : State) (f : Sbt → Sbt) : (modSbt s f).sbt = f s.sbt := rfl
@[simp] theorem tally_eq (s : State) (t k : Nat) :
    tally s t k = modSbt s (fun b => { b with counts := bumpCount b.counts (16 * t + k) }) := rfl
@[simp] theorem modConn_counts (s : State) (i : W32) (f : Conn → Conn) : (modConn s i f).sbt.counts = s.sbt.counts := rfl

/-- A frame that arrives on a port with a link is counted (R389). -/
theorem getLink_countFrame (s : State) (p : Nat) (h : (Tab.get? s.links p).isSome = true) :
    getLink (countFrame s p) p = { getLink s p with nFrames := (getLink s p).nFrames + 1 } := by
  obtain ⟨l, e⟩ := Option.isSome_iff_exists.mp h
  simp [getLink, countFrame, Tab.getD, e]

/-- A discarded frame is counted with its cause (R389). -/
theorem getLink_dropFrame (s : State) (p c : Nat) (h : (Tab.get? s.links p).isSome = true) :
    getLink (dropFrame s p c) p = { getLink s p with
      nFrames := (getLink s p).nFrames + 1, discards := Tab.set (getLink s p).discards c (Tab.getD (getLink s p).discards c 0 + 1) } := by
  obtain ⟨l, e⟩ := Option.isSome_iff_exists.mp h
  simp [getLink, dropFrame, Tab.getD, e]

/-- A discarded frame raises its cause's count, and no other (R389). -/
theorem dropFrame_discards (s : State) (p c k : Nat) (h : (Tab.get? s.links p).isSome = true) :
    Tab.getD (getLink (dropFrame s p c) p).discards k 0 = Tab.getD (getLink s p).discards k 0 + if k = c then 1 else 0 := by
  rw [getLink_dropFrame s p c h]
  by_cases e : k = c
  · subst e; simp
  · simp [e, Tab.getD_set_ne _ _ _ _ _ e]

theorem countFrame_other (s : State) (p q : Nat) (h : q ≠ p) : getLink (countFrame s p) q = getLink s q := by
  simp [getLink, countFrame, Tab.getD, Tab.get?_adjust_ne _ _ _ _ h]

theorem dropFrame_other (s : State) (p c q : Nat) (h : q ≠ p) : getLink (dropFrame s p c) q = getLink s q := by
  simp [getLink, dropFrame, Tab.getD, Tab.get?_adjust_ne _ _ _ _ h]

/-- A frame to a partner waits for its acknowledgment under the link's next LSEQ (R380). -/
@[simp] theorem getPartner_partnerSend (s : State) (l : Nat) (b : PartnerBody) :
    getPartner (partnerSend s l b) l = { getPartner s l with
      lseq := (getPartner s l).lseq + 1, unacked := (getPartner s l).unacked ++ [((getPartner s l).lseq, b)] } := by
  simp [partnerSend]

theorem getPartner_partnerSend_ne (s : State) (l k : Nat) (b : PartnerBody) (h : k ≠ l) :
    getPartner (partnerSend s l b) k = getPartner s k := by
  simp only [partnerSend, getPartner_setPartner_ne _ _ _ _ h]; split <;> rfl

/-- Storing the configuration leaves the copy that held the newest generation as it was (R474). -/
theorem storeCfg_keeps (s : State) :
    (copyGen s.flash.copyA = some s.flash.gen → (storeCfg s).flash.copyA = s.flash.copyA) ∧
    (copyGen s.flash.copyA ≠ some s.flash.gen → (storeCfg s).flash.copyB = s.flash.copyB) := by
  constructor <;> intro h <;> simp [storeCfg, h]

/-- The configuration stored is the one in force, under the next generation (R474). -/
theorem storeCfg_holds (s : State) :
    (storeCfg s).flash.gen = s.flash.gen + 1 ∧
    (.good (s.flash.gen + 1) s.cfg = (storeCfg s).flash.copyA ∨ .good (s.flash.gen + 1) s.cfg = (storeCfg s).flash.copyB) := by
  by_cases h : copyGen s.flash.copyA = some s.flash.gen <;> simp [storeCfg, h]

@[simp] theorem finishCmd_eq (s : State) (id : Nat) (st : Status) :
    finishCmd s id st = modCmd s id (fun c => { c with phase := .finished, status := st }) := rfl

/-! ### Member commands (R228, R229, R248) -/

theorem sendM_Frame (s : State) (m : MCmd) : Frame [.mcmds, .budget] s (sendM s m) := by
  unfold sendM; split <;> constructor
  case isTrue.out | isFalse.out => exact List.prefix_append _ _
  all_goals intros; simp_all

theorem holdM_Frame (s : State) (m : MCmd) : Frame [.mcmds, .budget] s (holdM s m) := by
  unfold holdM; constructor <;> intros <;> simp_all

/-- A member command is sent with its data form, or held; either way it stands last among the member commands. -/
theorem launch_cases (s : State) (m : MCmd) :
    (launch s m = sendM s m ∧ mayGo s m = true) ∨ launch s m = holdM s m := by
  unfold launch; split <;> simp_all

theorem launch_Frame (s : State) (m : MCmd) : Frame [.mcmds, .budget] s (launch s m) := by
  obtain ⟨h, -⟩ | h := launch_cases s m <;> rw [h]
  · exact sendM_Frame s m
  · exact holdM_Frame s m

theorem issue_Frame (s : State) (m : MCmd) : Frame [.nextId, .mcmds, .budget] s (issue s m) :=
  ((bump_Frame s).mono (by simp)).trans ((launch_Frame _ _).mono (by simp))

/-- A pool's metadata goes out as member commands under the pool's next generation, and changes nothing else. -/
theorem metaWrite_Frame (s : State) (pool : Nat) (ms : List Nat) (off len : Nat) (data : Mem) (purpose : Purpose) :
    Frame [.pools, .nextId, .mcmds, .budget] s (metaWrite s pool ms off len data purpose) := by
  unfold metaWrite
  exact ((setPool_Frame s pool _).mono (by simp)).trans (Frame.foldl _ (fun t m => (issue_Frame t _).mono (by simp)) ms _)

/-- What a change of one part of a command may change: that command's parts (R28). -/
theorem modPart_Frame (s : State) (id i : Nat) (f : RowPart → RowPart) : Frame [.cmds] s (modPart s id i f) := by
  constructor <;> intros <;> simp_all [modPart]

end Sys2Proof.Machine
end

