-- ==== Sys2Proof/Machine/Package.lean ====
section
/-! DEFINITION. The package: ball names, tile regions, the cell pattern and what each ball carries (R552-R557). It changes no state;
it says where on the package a signal of the state's pins lies. -/

namespace Sys2Proof.Machine

/-- The letters of row names (R552). -/
def rowLetters : List Char := ['A', 'B', 'C', 'D', 'E', 'F', 'G', 'H', 'J', 'K', 'L', 'M', 'N', 'P', 'T', 'U', 'V', 'W', 'Y']

/-- A row's letters: rows 1 to 19 take one, rows from 20 on two (R552). -/
def rowName (i : Nat) : List Char :=
  if i ≤ 19 then [rowLetters.getD (i - 1) 'A']
  else [rowLetters.getD ((i - 20) / 19) 'A', rowLetters.getD ((i - 20) % 19) 'A']

/-- A ball: its row name and its column number (R552). -/
structure Ball where
  row : List Char
  col : Nat
  deriving DecidableEq, Repr

/-- A tile's region (Table 14-2): mesh y, first row and column, and its whole cells. -/
structure TileRegion where
  y : Nat
  firstRow : Nat
  firstCol : Nat
  cellRows : Nat
  cellCols : Nat
  deriving DecidableEq, Repr

/-- Table 14-2. -/
def tileRegion (p : Part) (t : Nat) : TileRegion :=
  match p with
  | .efv2 => if t = 0 then ⟨0, 1, 1, 13, 7⟩ else ⟨0, 1, 29, 13, 6⟩
  | .efv4 =>
    match t with
    | 0 => ⟨0, 1, 1, 9, 9⟩
    | 1 => ⟨0, 1, 37, 9, 8⟩
    | 2 => ⟨1, 37, 1, 8, 9⟩
    | _ => ⟨1, 37, 37, 8, 8⟩
  | .efv8 =>
    let col := match t % 4 with
      | 0 => 1
      | 1 => 25
      | 2 => 45
      | _ => 65
    ⟨t / 4, 1 + 44 * (t / 4), col, 11, if t % 4 = 0 ∨ t % 4 = 3 then 6 else 5⟩

/-- The ball of position (lr, lc) of cell `n` in a region (R554). -/
def cellBall (g : TileRegion) (n lr lc : Nat) : Ball :=
  let cr := n / g.cellCols
  let row := if g.y = 0 then g.firstRow + 4 * cr else g.firstRow + 4 * (g.cellRows - 1 - cr)
  ⟨rowName (row + lr), g.firstCol + 4 * (n % g.cellCols) + lc⟩

/-- Positions of a cell (Table 14-3): lane, supply or VSS. -/
inductive CellPos where
  | lane (k : Nat) | supply (k : Nat) | vss
  deriving DecidableEq, Repr

/-- Table 14-3. -/
def cellPos (lr lc : Nat) : CellPos :=
  match lr, lc with
  | 0, 0 => .lane 0
  | 0, 1 => .lane 1
  | 2, 0 => .lane 2
  | 2, 1 => .lane 3
  | 0, 3 => .supply 0
  | 1, 2 => .supply 1
  | 2, 3 => .supply 2
  | 3, 2 => .supply 3
  | _, _ => .vss

/-- What a ball carries: a signal with its index, a rail, or VSS. -/
inductive BallUse where
  | signal (name : String) (index : Nat)
  | rail (name : String)
  | vss
  deriving DecidableEq, Repr

/-- The rail of supply index `k` (R556). -/
def supplyRail (k : Nat) : String :=
  match k % 8 with
  | 1 => "VDD_SRAM"
  | 3 => "VDD_HBM"
  | 5 => "VDDQ_HBM"
  | 7 => "VDD_MRAM"
  | _ => "VDD_CORE"

/-- A signal of a SD_REFCLK pair; VSS where the part lacks the pair (R557). -/
def refclkBall (p : Part) (name : String) (j : Nat) : BallUse := if 2 * j < p.tiles then .signal name j else .vss

/-- The control cells of T0, lane positions (Table 14-5). -/
def controlLane (p : Part) (n k : Nat) : BallUse :=
  match n, k with
  | 48, 0 => .signal "REFCLK_PCIE_P" 0
  | 48, 1 => .signal "REFCLK_PCIE_N" 0
  | 48, 2 => refclkBall p "SD_REFCLK_P" 0
  | 48, _ => refclkBall p "SD_REFCLK_N" 0
  | 49, 0 => refclkBall p "SD_REFCLK_P" 1
  | 49, 1 => refclkBall p "SD_REFCLK_N" 1
  | 49, 2 => refclkBall p "SD_REFCLK_P" 2
  | 49, _ => refclkBall p "SD_REFCLK_N" 2
  | 50, 0 => refclkBall p "SD_REFCLK_P" 3
  | 50, 1 => refclkBall p "SD_REFCLK_N" 3
  | 50, 2 => .signal "HK_XTAL_IN" 0
  | 50, _ => .signal "HK_XTAL_OUT" 0
  | 51, 0 => .signal "EPOCH_IN_P" 0
  | 51, 1 => .signal "EPOCH_IN_N" 0
  | 51, 2 => .signal "EPOCH_OUT_P" 0
  | 51, _ => .signal "EPOCH_OUT_N" 0
  | 52, 0 => .signal "SPI_CLK" 0
  | 52, 1 => .signal "SPI_CS_N" 0
  | 52, 2 => .signal "SPI_IO" 0
  | 52, _ => .signal "SPI_IO" 1
  | _, _ => .rail "AUX_3V3"

/-- The control cells of T0, supply positions (Table 14-5). -/
def controlSupply (n k : Nat) : BallUse :=
  match n, k with
  | 48, 0 => .signal "PERST_N" 0
  | 48, 1 => .signal "PWR_OK" 0
  | 48, 2 => .signal "SYS_RESET_N" 0
  | 48, _ => .signal "WAKE_N" 0
  | 49, 0 => .signal "ALIVE" 0
  | 49, 1 => .signal "FAULT_N" 0
  | 49, 2 => .signal "FREEZE_N" 0
  | 49, _ => .signal "TRST_N" 0
  | 50, 0 => .signal "TCK" 0
  | 50, 1 => .signal "TMS" 0
  | 50, 2 => .signal "TDI" 0
  | 50, _ => .signal "TDO" 0
  | 51, 0 => .signal "HK_SCL" 0
  | 51, 1 => .signal "HK_SDA" 0
  | 52, 0 => .signal "SPI_IO" 2
  | 52, 1 => .signal "SPI_IO" 3
  | 53, _ => .rail "AUX_3V3"
  | _, _ => .rail "VDD_IO"

/-- The name of a lane position of a port or PCIe lane cell (Table 14-4). -/
def lanePin (pre : String) (k : Nat) : String :=
  match k with
  | 0 => pre ++ "_TXP"
  | 1 => pre ++ "_TXN"
  | 2 => pre ++ "_RXP"
  | _ => pre ++ "_RXN"

/-- What position (lr, lc) of cell `n` of tile `t` carries (R555, R556, Tables 14-3 to 14-5). -/
def cellUse (p : Part) (t n lr lc : Nat) : BallUse :=
  let lanes := n < 32 ∨ (t = 0 ∧ n < 48)
  match cellPos lr lc with
  | .vss => .vss
  | .lane k =>
    if n < 32 then .signal (lanePin "PORT" k) (32 * t + n)
    else if lanes then .signal (lanePin "PCIE" k) (n - 32)
    else if t = 0 ∧ n < 54 then controlLane p n k
    else .rail (supplyRail (n - if t = 0 then 54 else 32))
  | .supply k =>
    if lanes then .rail (if k % 2 = 0 then "VDD_SDA" else "VDD_SDT")
    else if t = 0 ∧ n < 54 then controlSupply n k
    else .rail (supplyRail (n - if t = 0 then 54 else 32))

end Sys2Proof.Machine
end

