-- ==== Sys2Proof/WellFormed.lean ====
section
/-! DEFINITION. When the operands of a command lie within what its packet, frame, register or parameter field can carry, or name
a resource the part has at all. A value within its field that the spec forbids is well formed: the command refuses it as the spec says. -/

namespace Sys2Proof

/-- `x` fits in a field of `n` bits. -/
def fits (n x : Nat) : Bool := decide (x < 2 ^ n)

/-- Rates of R391 in GT/s, 2 standing for 2.5. -/
def pcieRate (r : Nat) : Bool := [2, 5, 8, 16, 32, 64].contains r

/-- Link widths of the endpoint (R391). -/
def pcieWidth (w : Nat) : Bool := [1, 2, 4, 8, 16].contains w

/-- A list of FIRST and LAST fields with an 8-bit count (Table 11-8). -/
def ranges16 (l : List (Nat × Nat)) : Bool := decide (l.length < 256) && l.all (fun e => fits 16 e.1 && fits 16 e.2)

/-- Lines of tiles. -/
def tileLines (l : List (Nat × Nat)) : Bool := l.all (fun e => decide (e.1 < 8) && decide (e.2 < 64))

/-- A reference clock of the part: 4 tile pairs and PCIe. -/
def RefClk.wf : RefClk → Bool
  | .sd pair => decide (pair < 4)
  | .pcie => true

/-- Offsets of Table 11-4's reserved header bytes and of the parameter area. -/
def Go.wf (g : Go) : Bool :=
  decide (g.mb < 64) && fits 16 g.paramLen && g.hdrReserved.all (fun o => decide (8 ≤ o) && decide (o < 16)) &&
    g.fieldReserved.all (fun o => fits 16 o)

/-- The field widths of the PORT_CONFIG row of Table 11-8. -/
def PortParams.wf (p : PortParams) : Bool :=
  fits 16 p.port && fits 8 p.role && fits 8 p.mode && fits 8 p.flags && fits 8 p.pcp && fits 16 p.vlan && fits 16 p.mtu &&
    fits 16 p.xoff && fits 8 p.prefix4 && fits 8 p.prefix6

/-- The field widths of Table 11-10. -/
def PoolParams.wf (p : PoolParams) : Bool :=
  fits 16 p.pool && fits 8 p.k && fits 8 p.s && fits 16 p.n && fits 16 p.mirror0 && fits 16 p.mirror1 &&
    p.members.all (fits 16) && decide (p.spares.length < 256) && p.spares.all (fits 16)

/-- A member number as a parameter carries it. -/
def MemberIdent.wf (m : MemberIdent) : Bool := fits 16 m.member

/-- The field widths of the VOLUME_CREATE row of Table 11-8. -/
def VolParams.wf (p : VolParams) : Bool :=
  fits 16 p.vol && fits 16 p.pool && fits 8 p.home && fits 8 p.policy && fits 32 p.extents && p.list.all (fits 32)

/-- The field widths of the MEMBER_DEFINE row of Table 11-8. -/
def MemberParams.wf (p : MemberParams) : Bool :=
  fits 16 p.member && fits 8 p.group && fits 8 p.family && fits 16 p.tcpPort && decide (p.nqn.length ≤ 223)

/-- The field widths of Table 6-7. -/
def RatEntry.wf (e : RatEntry) : Bool := fits 40 e.firstRow && fits 40 e.rows && fits 2 e.policy

/-- The field widths of the EPOCH_CONFIG row of Table 11-8. -/
def EpochParams.wf (p : EpochParams) : Bool :=
  fits 8 p.role && fits 8 p.guard && fits 8 p.period && decide (-32768 ≤ p.dlyAdj) && decide (p.dlyAdj < 32768) && fits 32 p.sealTimeoutMs

/-- Where a maintenance operation comes from. -/
def MaintSrc.wf : MaintSrc → Bool
  | .ring _ => true
  | .mailbox g => g.wf

/-- The field widths of Table 10-8. -/
def MaintArgs.wf (a : MaintArgs) : Bool := fits 16 a.vol && fits 64 a.first && fits 32 a.count

/-- The port on which a packet arrived, and a header of 32 bytes (Table 7-1). -/
def SbtHdr.wf (h : SbtHdr) : Bool := decide (h.port < 256) && h.bytes.length == 32

/-- The port on which a partner frame arrived, and a header of 32 bytes (Table 8-4). -/
def PartnerHdr.wf (h : PartnerHdr) : Bool := decide (h.port < 256) && h.bytes.length == 32

/-- A frame has 31 data characters (R73). -/
def frameLen (body : List Byte) : Bool := body.length == 31

/-- A tag of the endpoint is 14 bits at most, Byte Count 12 bits with 4,096 as zero, Lower Address 7. -/
def HostCpl.wf (c : HostCpl) : Bool := fits 14 c.tag && decide (c.byteCount ≤ 4096) && fits 7 c.lowerAddr

/-- BAR 0 and the MSI-X table of a function (Table 9-3). -/
def RegPlace.wf : RegPlace → Bool
  | .bar0 off => fits 24 off
  | .config _ => true
  | .vector v => decide (v < 2048)

/-- A TLP targets one of the part's 64 windows. -/
def WinTlp.wf (t : WinTlp) : Bool := decide (t.window < 64)

/-- CAP.MQES and CNTLID are 16 bits, MAXH2CDATA and IOCCSZ 32. -/
def QueueStep.wf : QueueStep → Bool
  | .tcp => true
  | .icResp _ _ maxH2c => fits 32 maxH2c
  | .connect _ cntlid => fits 16 cntlid
  | .property _ => true
  | .identify queues mqes ioccsz _ _ _ => fits 16 queues && fits 16 mqes && fits 32 ioccsz

/-- The field widths of Tables 5-4 and 5-6. -/
def MetaImage.wf (m : MetaImage) : Bool :=
  fits 8 m.state && fits 32 m.gen && fits 40 m.cursor && fits 40 m.baseCursor && fits 40 m.critCursor && fits 40 m.copyCursor &&
    fits 40 m.scrubCursor && decide (m.failList.length ≤ 8) && m.failList.all (fun e => fits 10 e.1) &&
    m.lst.all (fun e => fits 40 e.1 && fits 5 e.2.1 && fits 4 e.2.2.1)

/-- A pool header's image. -/
def PoolHeader.wf (h : PoolHeader) : Bool := h.image.wf && decide (h.gen < 2 ^ 64)

/-- The parts of a pool description (R381). -/
def PoolDesc.wf (d : PoolDesc) : Bool :=
  fits 8 d.k && fits 8 d.s && fits 16 d.n && fits 16 d.mirror0 && fits 16 d.mirror1 && d.members.all MemberParams.wf &&
    d.vols.all (fun v => fits 14 v.1 && v.2.2.2.2.all RatEntry.wf)

/-- The field widths of Table 4-4. -/
def Rec.wf (r : Rec) : Bool :=
  fits 14 r.vol && fits 40 r.row && fits 16 r.generation && fits 64 r.seq && fits 64 r.ref && decide (r.payloadBlocks ≤ 120) &&
    r.payload.wf

/-- The operands of a command lie within their fields. -/
def Instr.wf : Instr → Bool
  -- Power, reset and boot
  | .deviceStart down => down.all (fun t => decide (t < 8))
  | .refclkLoss c => c.wf
  | .firmwareUp headers => headers.all (fun e => decide (e.1 < 64) && e.2.wf)
  -- Tiles and the home path
  | .homeTileAcceptance _ => true
  | .routeSwitch src dst => decide (src < 8) && decide (dst < 8)
  | .meshHeartbeat tile => decide (tile < 8)
  | .heartbeatTimeout tile => decide (tile < 8)
  | .rangeLockGrant _ => true
  | .recordCommit tile seq => decide (tile < 8) && fits 64 seq
  | .ackHoldRelease _ => true
  | .partnerConfirmTimeout tile seq => decide (tile < 8) && fits 64 seq
  | .relocation tile => decide (tile < 8)
  | .journalSpaceWaitEnd _ _ => true
  | .mramCommitFailure tile => decide (tile < 8)
  | .destageStart vol row => fits 14 vol && fits 40 row
  | .destageComplete _ => true
  | .mirrorRecopyComplete pool tile => decide (pool < 64) && decide (tile < 8)
  | .readDeadline _ => true
  -- Moonstone
  | .edge _ body => frameLen body
  | .invalidFrame _ body => frameLen body
  | .announce _ body => frameLen body
  | .poll _ body => frameLen body
  | .done _ body => frameLen body
  | .failed _ body => frameLen body
  | .holdover _ body => frameLen body
  | .trainCount f => frameLen f.body
  | .trainResult _ _ body => frameLen body
  | .epochNowRead _ _ => true
  -- Members and rebuild
  | .memberCommandCompletion _ _ data => data.wf
  | .memberCommandTimeout _ => true
  | .memberReachTimeout member => decide (member < 1024)
  | .smartLogPoll member _ => decide (member < 1024)
  | .rebuildCommandIssue pool => decide (pool < 64)
  | .rebuildRowComplete pool => decide (pool < 64)
  | .cursorMetadataWrite pool => decide (pool < 64)
  | .rowInterlockGrant pool row => decide (pool < 64) && fits 40 row
  | .copybackRowComplete pool => decide (pool < 64)
  | .scrubRow pool row => decide (pool < 64) && fits 40 row
  -- Cache tier
  | .lineFillComplete tile line => decide (tile < 8) && decide (line < 72)
  | .lineAllocation _ _ => true
  | .evictionComplete tile entry => decide (tile < 8) && decide (entry < 64)
  | .evmodeSwitch tile => decide (tile < 8)
  | .directorySweep tile => decide (tile < 8)
  | .lineRetirement tile line cause word => decide (tile < 8) && decide (line < 64) && decide (cause < 4) && fits 14 word
  | .zeroLine src a => src.wf && a.wf
  | .invalKey src a => src.wf && a.wf
  | .invalRange src a => src.wf && a.wf
  | .cleanKey src a => src.wf && a.wf
  | .cleanRange src a => src.wf && a.wf
  | .lock src a => src.wf && a.wf
  | .unlock src a => src.wf && a.wf
  | .invalAll src a => src.wf && a.wf
  | .enDirectClear _ => true
  | .enSet _ => true
  | .lfsrSeedLoad _ => true
  | .evmodeChange _ => true
  -- Serosh Block Transport
  | .connect h _ => h.wf
  | .close h _ => h.wf
  | .read h _ => h.wf
  | .write h _ => h.wf
  | .flush h _ => h.wf
  | .writeZeroes h _ => h.wf
  | .deallocate h _ => h.wf
  | .verify h _ => h.wf
  | .dataOut h _ _ _ _ => h.wf
  | .abort h _ => h.wf
  | .errlogReq h _ _ => h.wf
  | .resume h _ _ => h.wf
  | .ack h => h.wf
  | .sbtPacketDiscard port _ => decide (port < 256)
  | .unknownConnectionPacket h _ => h.wf
  | .delayedAck _ => true
  | .retransmitTimeout _ _ => true
  | .connectionLoss _ => true
  | .creditProbe _ => true
  | .refusalRetentionExpiry _ _ _ _ => true
  | .indexReuse tile index => decide (tile < 8) && fits 13 index
  | .xferRdy _ offset length => fits 32 offset && fits 32 length
  | .commandCompletion _ => true
  -- Ports and partner links
  | .linkUp port => decide (port < 256)
  | .linkDown port => decide (port < 256)
  | .fecErrorSecond port codewords => decide (port < 256) && fits 64 codewords
  | .pfcFrame port _ quanta => decide (port < 256) && fits 16 quanta
  | .pfcRepeat port _ => decide (port < 256)
  | .neighbourResolve tile _ => decide (tile < 8)
  | .memberQueueSetup member tile _ step => decide (member < 1024) && decide (tile < 8) && step.wf
  | .keepAlive member => decide (member < 1024)
  | .memberQueueBreak member tile _ _ => decide (member < 1024) && decide (tile < 8)
  | .memberReconnectAttempt member tile _ => decide (member < 1024) && decide (tile < 8)
  | .memberReissue _ => true
  | .poolInitComplete pool => decide (pool < 64)
  | .extentZeroingComplete pool extent => decide (pool < 64) && fits 32 extent
  | .hello h => h.wf
  | .nack h => h.wf
  | .poolOffer h pool d => h.wf && fits 16 pool && d.wf
  | .poolReply h pool result => h.wf && fits 16 pool && fits 8 result
  | .poolWithdraw h pool => h.wf && fits 16 pool
  | .record h seq fragOffset originTile _ r => h.wf && fits 64 seq && fits 32 fragOffset && decide (originTile < 8) && r.wf
  | .confirm h seq originTile result => h.wf && fits 64 seq && decide (originTile < 8) && fits 8 result
  | .release h pool hds => h.wf && fits 16 pool && hds.all PoolHeader.wf
  | .releaseAck h pool result => h.wf && fits 16 pool && fits 8 result
  | .partnerResendTimer link => decide (link < 8)
  | .helloSend link => decide (link < 8)
  | .partnerLinkTimeout link => decide (link < 8)
  | .leaseRenewal pool completed _ => decide (pool < 64) && decide (completed < 4)
  | .leaseLoss pool => decide (pool < 64)
  | .autoImport pool hds => decide (pool < 64) && hds.all PoolHeader.wf
  | .importCheck pool hds => decide (pool < 64) && hds.all PoolHeader.wf
  -- Host endpoint
  | .pcieLinkUp rate width => pcieRate rate && pcieWidth width
  | .pcieLinkDown rate width => pcieRate rate && (width == 0 || pcieWidth width)
  | .dStateEntry fn _ => decide (fn < 64)
  | .d0Return fn => decide (fn < 64)
  | .vfEnable _ numVfs => fits 16 numVfs
  | .functionLevelReset fn => decide (fn < 64)
  | .hostCompletion c => c.wf
  | .completionTimeout tag => fits 14 tag
  | .tagQuarantineEnd tag => fits 14 tag
  | .translationCompletion _ => true
  | .invalidationRequest fn itag _ _ => decide (fn < 64) && decide (itag < 32)
  | .windowWrite t data => t.wf && decide (data.length ≤ 4096)
  | .windowRead t len => t.wf && decide (len ≤ 4096)
  | .winCommit fn window _ => decide (fn < 64) && decide (window < 64)
  | .windowDirectWrite fn window offset _ => decide (fn < 64) && decide (window < 64) && (decide (offset < 64) && offset % 4 == 0)
  -- Work rings
  | .sqDb fn sq => decide (fn < 64) && decide (sq < 2048)
  | .sqDispatch tile => decide (tile < 8)
  | .ringRead _ => true
  | .ringWrite _ => true
  | .ringFlush _ => true
  | .ringWriteZeroes _ => true
  | .ringDeallocate _ => true
  | .pqCompute _ => true
  | .reconstruct _ => true
  | .copy _ => true
  | .skip _ => true
  | .cqHeadDb fn cq _ => decide (fn < 64) && decide (cq < 512)
  | .cqAggTimer cq => decide (cq < 512)
  | .sqDisable fn sq _ => decide (fn < 64) && decide (sq < 2048)
  | .sqDrainComplete sq => decide (sq < 2048)
  | .sqEnable fn sq _ => decide (fn < 64) && decide (sq < 2048)
  | .cqEnable fn cq _ => decide (fn < 64) && decide (cq < 512)
  | .cqDisable fn cq _ => decide (fn < 64) && decide (cq < 512)
  -- Mailbox commands
  | .mailboxCancel mb _ => decide (mb < 64)
  | .overrun mb _ => decide (mb < 64)
  | .configStored mb => decide (mb < 64)
  | .devInfo g => g.wf
  | .funcAssign g vf kind op first last => g.wf && fits 8 vf && fits 8 kind && op == 0 && fits 16 first && fits 16 last
  | .withdraw g vf kind op first last => g.wf && fits 8 vf && fits 8 kind && op == 1 && fits 16 first && fits 16 last
  | .portConfig g p => g.wf && p.wf
  | .portStop g port => g.wf && fits 16 port
  | .portStart g port => g.wf && fits 16 port
  | .portStatus g port => g.wf && fits 16 port
  | .portStats g port _ => g.wf && fits 16 port
  | .portTest g port pattern seconds => g.wf && fits 16 port && fits 8 pattern && fits 16 seconds
  | .sbtConfig g udpPort credit lossMs => g.wf && fits 16 udpPort && fits 16 credit && fits 32 lossMs
  | .sbtTenantSet g index _ ranges => g.wf && fits 16 index && ranges16 ranges
  | .sbtTenantRemove g index _ ranges => g.wf && fits 16 index && ranges16 ranges
  | .sbtConnList g tile _ => g.wf && fits 8 tile
  | .sbtConnClose g _ => g.wf
  | .sbtThrottle g scope target _ grace duration => g.wf && fits 8 scope && fits 16 target && fits 32 grace && fits 16 duration
  | .sbtStats g scope _ _ => g.wf && fits 8 scope
  | .poolCreate g p found => g.wf && p.wf && found.all MemberIdent.wf
  | .poolDelete g pool => g.wf && fits 16 pool
  | .poolStart g pool => g.wf && fits 16 pool
  | .poolStop g pool => g.wf && fits 16 pool
  | .poolStatus g pool => g.wf && fits 16 pool
  | .hotspareSet g pool members found => g.wf && fits 16 pool && (decide (members.length < 256) && members.all (fits 16)) && found.all MemberIdent.wf
  | .poolDegradedConfig g pool deadlineUs scrubDays => g.wf && fits 16 pool && fits 16 deadlineUs && fits 16 scrubDays
  | .rebuildConfig g floorPct => g.wf && fits 8 floorPct
  | .rebuildStatus g pool _ => g.wf && fits 16 pool
  | .scrubStart g pool => g.wf && fits 16 pool
  | .scrubPause g pool => g.wf && fits 16 pool
  | .scrubResume g pool => g.wf && fits 16 pool
  | .lstRead g pool first _ => g.wf && fits 16 pool && fits 32 first
  | .volumeCreate g p => g.wf && p.wf
  | .volumeDelete g vol => g.wf && fits 16 vol
  | .volumeStart g vol => g.wf && fits 16 vol
  | .volumeStop g vol => g.wf && fits 16 vol
  | .volumeStopComplete mb => decide (mb < 64)
  | .volumeSet g vol mask home _ policy => g.wf && fits 16 vol && fits 8 mask && fits 8 home && fits 8 policy
  | .volumeStatus g vol => g.wf && fits 16 vol
  | .volumeSetExtents g vol extents _ list => g.wf && fits 16 vol && fits 32 extents && list.all (fits 32)
  | .memberDefine g p => g.wf && p.wf
  | .memberStatus g member => g.wf && fits 16 member
  | .memberFail g member => g.wf && fits 16 member
  | .memberReplace g pool index member found => g.wf && fits 16 pool && fits 16 index && fits 16 member && found.wf
  | .partnerConfig g port link _ _ => g.wf && fits 16 port && fits 8 link
  | .partnerStatus g link => g.wf && fits 8 link
  | .poolImport g pool hds => g.wf && fits 16 pool && hds.all PoolHeader.wf
  | .poolRelease g pool => g.wf && fits 16 pool
  | .epochConfig g p => g.wf && p.wf
  | .epochTrain g => g.wf
  | .epochSeal g action _ => g.wf && fits 8 action
  | .sealFailRequest g action _ => g.wf && fits 8 action
  | .epochSealStatus g => g.wf
  | .epochCmapRead g vol _ => g.wf && fits 16 vol
  | .epochStats g => g.wf
  | .journalStatus g scope ident _ => g.wf && fits 8 scope && fits 16 ident
  | .journalMirrorSet g pool index0 index1 => g.wf && fits 16 pool && fits 16 index0 && fits 16 index1
  | .journalPartner g pool link => g.wf && fits 16 pool && fits 8 link
  | .journalPartnerClear g pool link => g.wf && fits 16 pool && fits 8 link
  | .journalDrain g scope ident => g.wf && fits 8 scope && fits 16 ident
  | .journalDrainComplete mb => decide (mb < 64)
  | .cacheDisable g => g.wf
  | .cacheDisableQuiesced mb => decide (mb < 64)
  | .cacheEnable g => g.wf
  | .cacheConfig g tile mask zGib delayUs => g.wf && fits 8 tile && fits 8 mask && fits 8 zGib && fits 16 delayUs
  | .cacheRatSet g vol policy entries => g.wf && fits 16 vol && fits 8 policy && (decide (entries.length < 256) && entries.all RatEntry.wf)
  | .cacheRatGet g vol => g.wf && fits 16 vol
  | .cacheStats g tile _ => g.wf && fits 8 tile
  | .shortSelftest g kind pool => g.wf && fits 8 kind && fits 16 pool
  | .extendedSelftest g kind pool => g.wf && fits 8 kind && fits 16 pool
  | .selftestComplete kind pool badLines badMram badCitrine => fits 8 kind && decide (pool < 64) && tileLines badLines && badMram.all (fun t => decide (t < 8)) && badCitrine.all (fun e => decide (e.1 < 8))
  | .selftestStatus g kind pool => g.wf && fits 8 kind && fits 16 pool
  | .selftestAbort g kind pool => g.wf && fits 8 kind && fits 16 pool
  | .jetStatus g => g.wf
  | .jetToken g => g.wf
  | .jetClear g _ => g.wf
  | .jetClearDone mb => decide (mb < 64)
  | .fwInfo g => g.wf
  | .fwDownload g offset length _ data => g.wf && fits 32 offset && fits 32 length && decide (data.length ≤ length)
  | .fwVerifyPending g action => g.wf && fits 8 action
  | .fwClearPending g action => g.wf && fits 8 action
  | .fwConfirm g action => g.wf && fits 8 action
  | .secPubkey g _ => g.wf
  | .kekLoad g hostPub wrapped => g.wf && hostPub.length == 96 && wrapped.length == 40
  | .keyLoad g vol wrapped => g.wf && fits 16 vol && wrapped.length == 72
  | .keyDestroy g vol => g.wf && fits 16 vol
  | .secMeasure g _ => g.wf
  | .powerStateSet g st => g.wf && fits 8 st
  | .powerStatus g => g.wf
  | .powerD3cold g enable => g.wf && fits 8 enable
  | .thermalConfig g warn throttle critical graceMs => g.wf && fits 8 warn && fits 8 throttle && fits 8 critical && fits 16 graceMs
  -- Faults, Jet and JTAG
  | .faultAck _ => true
  | .f2TimerExpiry _ => true
  | .f3Contained _ => true
  | .f3ContainmentTimeout _ => true
  | .correlationWindowClose kind ident => decide (kind < 16) && fits 16 ident
  | .aliveKick _ => true
  | .jetDataRead word => fits 14 word
  | .jetCursorWrite _ => true
  -- Housekeeping and power
  | .channelConversion tile _ => decide (tile < 8)
  | .roundEnd tile => decide (tile < 8)
  | .tripComparator tile diode => decide (tile < 8) && decide (diode < 8)
  | .registerWrite fn p width v => decide (fn < 64) && p.wf && (width == 4 || width == 8) && (width == 8 || fits 32 v.toNat)
  -- Of several of the families above, placed last: Lean's code generator wants constructors with operands first
  | .extest _ => true
  | .samplePreload _ => true
  | .frzSelect _ => true
  | .frzShift _ => true
  | .frzMemaddr _ => true
  | .coreWatchdog tile core => decide (tile < 8) && decide (core < 4)
  | .auxTempPoll _ => true
  | .smbusBlockRead _ => true
  | .meshLinkLoss a b => decide (a < 8) && decide (b < 8)
  | .refclkReturn c => c.wf
  | .echoRequest a _ _ _ => decide (a.port < 256)
  | .neighbourDiscovery a _ => decide (a.port < 256)
  | .portTestComplete mb counts => decide (mb < 64) && decide (counts.length ≤ 4)
  | .selftestCommandIssue pool port => decide (pool < 64) && decide (port < 256)
  -- Commands without operands
  | .pwrOkLoss => true
  | .sysResetNAssert => true
  | .perstNAssert => true
  | .perstNRelease => true
  | .freezeNLow => true
  | .replayComplete => true
  | .epochEdge => true
  | .missLimit => true
  | .unsynchronised => true
  | .holdoverSend => true
  | .rephase => true
  | .trainTimeout => true
  | .sealMapsStored => true
  | .sealTimeout => true
  | .sealLocalEnd => true
  | .powerStateEntry => true
  | .jetTokenExpiry => true
  | .aliveToggle => true
  | .hostWatchdog => true
  | .jetSuppressionWindow => true
  | .idcode => true
  | .clamp => true
  | .highz => true
  | .frzStatus => true
  | .frzMemdata => true
  | .frzInfo => true
  | .shutdownClose => true
  | .ps2Wake => true
  | .ps2Idle => true
  | .testLogicReset => true

end Sys2Proof
end

