-- ==== Sys2Proof/Tests/Slice0.lean ====
section
/-! SUPPORT. Tests: for every statement that has hypotheses a state and operands that meet them (witness_...), well-formedness, and
the spec's own worked examples. The witnesses' conjuncts follow the clauses of the statement. -/

set_option linter.unusedVariables false
set_option Elab.async false

namespace Sys2Proof.Tests

open Sys2Proof Sys2Proof.Machine

/-! ### Small states and operands -/

/-- The block with firmware up and replay complete, host link up, bypass open. -/
def up : State :=
  { State.reset with
    phase := .ready, pins := { sysResetN := true, perstN := true, bypassClosed := false }, pcie := { linkUp := true, width := 8 } }

/-- A pool of six members, and a volume of one extent in it. -/
def pool0 : PoolCfg :=
  { k := 4, s := 0, n := 6, seed := 0, members := [0, 1, 2, 3, 4, 5], spares := [], mirror0 := 0, mirror1 := 1, slots := 8192, running := true }
def vol0 : VolCfg := { pool := 0, home := 0, attr := 0, policy := 0, extents := [0], running := true }
def vol0S : VolCfg := { vol0 with running := false }

/-- The pool and the volume running, with a link to its members. -/
def served : State :=
  { up with
    cfg := { pools := [(0, pool0)], vols := [(0, vol0)] }, pools := [(0, { st := .running })], vols := [(0, { st := .running })] }

/-- The pool and the volume stopped. -/
def stopped : State :=
  { up with
    cfg := { pools := [(0, { pool0 with running := false })], vols := [(0, { vol0 with running := false })] }
    pools := [(0, { st := .stopped })], vols := [(0, { st := .stopped })] }

/-- GO on PF0's mailbox with a parameter area of `n` bytes. -/
def go (n : Nat) : Go := { mb := 0, cmdId := 7, paramLen := n, hdrReserved := none, fieldReserved := none }

def buf0 : SegDesc := { address := 0x1000, segLen := 4096, typ := 0, window := 0, reservedZero := true }

/-- The EDGE frame of epoch 32,768 from device 0, and a control frame of `origin`, of epoch 32,768. -/
def edge0 : MoonFrame := { at_ := 0, timed := true, body := frameBody true 32768 0 false 0 kEdge (edgeArgs 2) }
def ctl0 (origin : BitVec 10) (command : Nat) (args : List Byte) : MoonFrame :=
  { at_ := 0, timed := false, body := frameBody false 32768 origin false 0 command args }
def seal0 (phase : Nat) (a : SealArgs) : MoonFrame := ctl0 0 kSeal (sealArgs phase a)

/-- A read of one block that has been forwarded, a write intent in a ring, a dirty row, a member read and a destage. -/
def cmd0 : Cmd := { id := 1, src := .ring 9, rx := 0, op := .read, vol := 0, lba := 0, len := 1, phase := .forwarded }
def intent0 : Rec := { kind := .intent, epoch := 32768, vol := 0, row := 0, seq := 0, slotMask := 1, blockMask := 1 }
def ring0 : RingRec := { r := intent0, off := 64 }
def row0 : CRow := { vol := 0, row := 0, valid := 1, dirty := 1, data := [(0, 5)] }
def read0 : MCmd := { id := 5, member := 0, pool := 0, tile := 0, op := .read, off := 0, len := 4096, purpose := .metadata 0, pipe := .host }
def destage0 : Destage := { id := 4, tile := 0, pool := 0, vol := 0, q := 0, row := 0, mask := 1, data := [], intents := [], issued := true }

/-- An F3 entry that waits for containment, and a bucket of four dirty slots with a row that waits for one of them. -/
def lost0 (code source : BitVec 16) : FaultEnt :=
  { code := code, source := source, ident := 1, cls := 3, st := 3, domKind := 1, domId := 0 }
def slot0 (way : Nat) : Slot := { c := row0, st := 2, way := way }
def full0 : Tile := { tier := { evb := [(2, row0)], store := [(0, slot0 0), (1, slot0 1), (2, slot0 2), (3, slot0 3)] } }

/-- Tile 0 as given, the others as at reset. -/
def tiled (s : State) (t : Tile) : State :=
  { s with tiles := [(0, t), (1, {}), (2, {}), (3, {}), (4, {}), (5, {}), (6, {}), (7, {})] }

/-- A link of one lane: priority 3 lossless, threshold 256 KiB. -/
def port0 (role : Nat) : PortParams :=
  { port := 0, role := role, mode := 0, flags := 0, pcp := 3, vlan := 0, mtu := 9000, xoff := 1024, pfcMask := 8, prefix4 := 24,
    prefix6 := 64, poolMask := 1, ipv4 := 0x0A000001, gw4 := 0, ipv6 := 0, gw6 := 0 }

/-- Member queues on link 0: the administrative one and the one for I/O. -/
def queues0 : List Queue := [{ tile := 0, admin := true, connected := true }, { tile := 0, admin := false, connected := true }]

/-- The pool with its members connected over link 0. -/
def linked : State :=
  { served with
    cfg := { served.cfg with links := [(0, { p := port0 2, started := true })] }, links := [(0, { up := true, started := true })]
    members := [(0, { queues := queues0 }), (1, { queues := queues0 }), (2, { queues := queues0 }), (3, { queues := queues0 }),
      (4, { queues := queues0 }), (5, { queues := queues0 })] }

/-- `linked` with tile 0's cache tier and ring as given. -/
def ringOf (t : Tier) (l : List RingRec) : State := tiled linked { tier := t, amber := { recs := l, nextSeq := l.length } }

/-- One link that is up. -/
def portUp (p : PortParams) : State :=
  { up with cfg := { links := [(0, { p := p, started := true })] }, links := [(0, { up := true, started := true })] }

/-- A connection of tenant 0 on link 0, and the state that holds it. -/
def conn0 : Conn :=
  { tile := 0, index := 0, gen := 0, port := 0, dst := v4Mapped 0x0A000001, addr := 1, udp := 9, tenantConn := 5, tenant := 0, connectSeq := 10, accept := .ack, acceptSeq := 20,
    maxData := 4096, limit := 8, rxNext := 11, txNext := 21, txAcked := 21, windowEnd := 21 }

/-- A tenant link up, a tenant that may name volume 0, and a connection. -/
def netted (c : Conn) : State :=
  { served with
    cfg := { served.cfg with links := [(0, { p := port0 1, started := true })], tenants := [(0, { tenantId := 77, ranges := [(0, 3)] })] }
    links := [(0, { up := true, started := true })], sbt := { conns := [c] } }

def hdr0 (type length : Nat) : SbtHdr :=
  { port := 0, dst := v4Mapped 0x0A000001, dport := 47589, addr := 1, udp := 9, ce := false
    bytes := sbtHeader type true false false 0 11 21 0 length 0 0 }

def cap0 : Capsule := { opcode := 1, flags := 0, tag := 3, volume := 0, lba := 0, length := 1, reservedZero := true }

/-- A frame of partner link 2, whose port is link 0. -/
def phdr (b : Nat × List Byte) (lseq : W32) : PartnerHdr :=
  { port := 0, bytes := partnerHeader b.1 b.2.length lseq 0 99 2 32768
    crc := crc32c (partnerHeader b.1 b.2.length lseq 0 99 2 32768 ++ b.2) }

/-- A partner link up, with a pool reserved for it or mirrored over it. -/
def paired (p : Partner) (c : PoolCfg) (x : Pool) : State :=
  { up with
    cfg := { links := [(0, { p := { port0 3 with mode := 6 }, started := true })], pools := [(0, c)], vols := [(0, vol0)]
             partners := [(2, { port := 0, autoImport := true, identity := 99 })] }
    links := [(0, { up := true, started := true })], partners := [(2, p)], pools := [(0, x)], vols := [(0, { st := .running })] }

/-- Mailbox `n` as `m`, on a base state. -/
def boxed (s : State) (n : Nat) (m : Mailbox) : State := { s with mbx := [(n, m)] }

/-- Rings 0 to 3 as given. -/
def ringed (q : Sq) (c : Cq) : State := { up with sqs := [(0, q)], cqs := [(0, c)] }

def tlp0 : WinTlp := { window := 0, viaPf := true, requester := 0, offset := 0, atomic := false }

/-- Window 0 active: one page of tile 0's staging area, reads and writes. -/
def windowed : State := { up with pcie := { up.pcie with windows := [(0, { act := { base := 0, limit := 0, target := 0, ctl := 7 } })] } }

/-- Members 6 to 11 defined, in two failure groups, outside every pool. -/
def member0 (m g : Nat) : MemberParams := { member := m, group := g, family := 4, tcpPort := 4420, nsid := 1, addr := 1, nqn := [] }
def spares : Tab MemberParams :=
  [(6, member0 6 0), (7, member0 7 1), (8, member0 8 0), (9, member0 9 0), (10, member0 10 0), (11, member0 11 0)]
def ident0 (m : Nat) : MemberIdent := { member := m, capacity := 2 ^ 40, dlfeat1 := true, fit := true }

/-- A tile whose round found nothing: every diode at 40 °C, every rail at its nominal. -/
def quiet0 : HkSlice :=
  { next := 24
    readings := [(0, 160), (1, 160), (2, 160), (3, 160), (4, 160), (5, 160), (6, 160), (7, 160), (8, 750), (9, 800), (10, 1000), (11, 900),
      (12, 1200), (13, 1800), (14, 1100), (15, 400), (18, Config.bandgapMv.setWidth 16), (20, 3300)] }

def quiet : State :=
  { up with hk := { slices := [(0, quiet0)] }, pins := { up.pins with sdRefclk := [true, true, true, true] } }

/-- `PartnerIn` of a frame made by `phdr`: all but its CRC and the partner's entry by evaluation. -/
theorem partnerIn_phdr (s : State) (b : Nat × List Byte) (q : W32) (l : Nat) (c : PartnerCfg)
    (h1 : (running s && tileUp s (tileOfPort (phdr b q).port) && linkAt s (phdr b q).port == some l && partnerWired s l &&
      (phdr b q).type == b.1) = true)
    (h2 : Tab.get? s.cfg.partners l = some c) (h3 : ((phdr b q).sender == c.identity) = true) :
    PartnerIn s (phdr b q) l b.1 b.2 := by
  simp only [Bool.and_eq_true, beq_iff_eq] at h1 h3
  obtain ⟨⟨⟨⟨a, b⟩, c'⟩, d⟩, e⟩ := h1
  exact ⟨a, b, c', d, e, by simp [PartnerHdr.crcGood, phdr], c, h2, h3⟩

theorem quiet_bandgap : oscBad quiet0 true 18 = false := by
  have h : quiet0.reading 18 = (Config.bandgapMv.toNat : Int) := by
    have hb := Config.bandgapMv.isLt
    show (Config.bandgapMv.setWidth 16).toInt = _
    rw [BitVec.toInt_eq_toNat_cond]; simp; omega
  simp [oscBad, outside, h]

theorem quiet_rounds : roundFaults quiet0 0 true = [] := by
  have h2 : voltChannels.filter (volt5 quiet0) = [] := by decide +kernel
  have h3 : [16, 17, 19].filter (oscBad quiet0 true) = [] := by decide +kernel
  have h4 : [16, 17, 18, 19].filter (oscBad quiet0 true) = [] := by
    simp only [List.filter_eq_nil_iff] at h3 ⊢
    intro c hc
    by_cases h : c = 18
    · rw [h, quiet_bandgap]; simp
    · exact h3 c (by simp at hc ⊢; omega)
  have h5 : quiet0.diodes = [0, 1, 2, 3, 4, 5, 6, 7] := by decide
  simp only [roundFaults, h2, h4, h5]
  decide

theorem quiet_others (k : Nat) (_ : tileUp quiet k = true) :
    (getSlice quiet k).temp < 4 * (quiet.cfg.warn : Int) - 12 ∧ (getSlice quiet k).alarm = false := by
  have h : getSlice quiet k = quiet0 ∨ getSlice quiet k = {} := by
    by_cases e : k = 0
    · left; rw [e]; rfl
    · right
      have e' : ¬ 0 = k := fun x => e x.symm
      simp [getSlice, Tab.getD, Tab.get?, quiet, e']
  rcases h with h | h <;> rw [h] <;> decide +kernel

/-! ### Statements about the queue, invariants, parity and layout -/

theorem witness_StepRunsFront : ∃ (s : State) (c : Instr) (rest : List Instr), s.pending = c :: rest :=
  ⟨{ up with pending := [.replayComplete, .epochEdge] }, .replayComplete, [.epochEdge], rfl⟩

theorem witness_SettledStep : ∃ s t : State, Settled s ∧ step s = .next t := by
  refine ⟨{ up with clock := 16 }, _, ⟨?_, fun e he => by cases he⟩, rfl⟩
  intro fn h
  have e : fn = 0 := by simpa [up] using h
  subst e
  decide +kernel

theorem witness_ParityBytes : ∃ ds : List Mem, ds.all Mem.wf = true ∧ ds ≠ [] := ⟨[[(0, 0x5A)], [(0, 0xC3)]], by decide⟩

theorem witness_RecoverErased :
    ∃ (ds : List Mem) (got : List (Nat × Mem)) (erased : List Nat),
      1 ≤ ds.length ∧ ds.length ≤ 28 ∧ ds.all Mem.wf = true ∧ got.all (fun e => e.2.wf) = true ∧ erased.length ≤ 2 ∧
        erased.Pairwise (· < ·) ∧ (∀ j ∈ erased, j < ds.length + 2) ∧
        (∀ j < ds.length + 2, j ∉ erased → stripOf got j = (ds ++ [parityP ds, parityQ ds]).getD j []) :=
  ⟨[[(0, 0x5A)], [(0, 0xC3)], [(0, 0x07)], [(0, 0x4D)]],
    [(0, [(0, 0x5A)]), (1, [(0, 1)]), (2, [(0, 0x07)]), (4, [(0, 0xD3)]), (5, [(0, 0x8F)])], [1, 3], by decide +kernel⟩

theorem witness_PeridotPlaces : ∃ c : PoolCfg, c.n = c.w ∧ ∃ i, i < c.k := ⟨pool0, by decide, 0, by decide⟩

/-! ### Worked examples of the spec -/

/-- Table 3-4: P and Q of a byte column, and the recovery of D1 and D3. -/
theorem test_parity_column :
    parityP [[(0, 0x5A)], [(0, 0xC3)], [(0, 0x07)], [(0, 0x4D)]] = [(0, 0xD3)] ∧
      parityQ [[(0, 0x5A)], [(0, 0xC3)], [(0, 0x07)], [(0, 0x4D)]] = [(0, 0x8F)] := by decide +kernel
theorem test_recover_two :
    recover 4 [(0, [(0, 0x5A)]), (2, [(0, 0x07)]), (4, [(0, 0xD3)]), (5, [(0, 0x8F)])] [1, 3] =
      [(0, [(0, 0x5A)]), (1, [(0, 0xC3)]), (2, [(0, 0x07)]), (3, [(0, 0x4D)]), (4, [(0, 0xD3)]), (5, [(0, 0x8F)])] := by
  decide +kernel
/-- R246's example: a wrong D2 in the column of Table 3-4. -/
theorem test_scrub_finds_d2 :
    scrubVerdict 4 [[(0, 0x5A)], [(0, 0xC3)], [(0, 0x17)], [(0, 0x4D)], [(0, 0xD3)], [(0, 0x8F)]] = some (some 2) := by decide +kernel

/-- Pool 7 of HX-14: row 17,613 (Table 3-5). -/
def pool7 : PoolCfg := { pool0 with k := 16, n := 18, members := List.range 18 }
theorem test_pool7_places :
    (List.range 18).map (poolIndex pool7 17613) = [10, 11, 12, 13, 14, 15, 16, 17, 0, 1, 2, 3, 4, 5, 6, 7, 8, 9] := by decide +kernel

/-- Table 3-6. -/
theorem test_spinel_hash : spinelH 0x04D2 0x21 = 0xA9CD9733 ∧ spinelH 0x04D2 0xA584 = 0x8CCAC094 := by decide +kernel
/-- Pool 12 of HX-31: pool row 100 (Tables 3-7 and 3-8). -/
def pool12 : PoolCfg := { pool0 with k := 8, s := 2, n := 40, seed := 0x04D2, members := List.range 40 }
theorem test_pool12_row : pool12.layoutRow 100 = 127 ∧ stripSlot pool12 100 = 33 := by decide +kernel
theorem test_pool12_places : (List.range 10).map (poolIndex pool12 100) = [18, 30, 1, 13, 25, 37, 8, 20, 32, 3] := by decide +kernel
/-- V01234, pool row 33: its bucket in the store. -/
theorem test_bucket : bucketOf 1234 33 = 0x9733 := by decide +kernel
/-- P200 and PCIe lane 0 of an EFV-8. -/
theorem test_ball_p200 : cellBall (tileRegion .efv8 6) 8 0 0 = ⟨['D', 'E'], 57⟩ ∧ cellUse .efv8 6 8 0 0 = .signal "PORT_TXP" 200 := by
  decide +kernel
theorem test_ball_pcie0 : cellBall (tileRegion .efv8 0) 32 0 0 = ⟨['A', 'B'], 9⟩ ∧ cellUse .efv8 0 32 0 0 = .signal "PCIE_TXP" 0 := by
  decide +kernel

/-! ### Single steps -/

/-- An empty queue lets 16 ns pass. -/
theorem test_idle : ∃ t, step State.reset = .next t ∧ t.clock = 16 := ⟨_, rfl, rfl⟩
/-- R112, R570: SYS_RESET_N closes the bypass and drops ALIVE. -/
theorem test_reset_pins : ∃ t, exec .sysResetNAssert up = .next t ∧ t.pins.bypassClosed = true ∧ t.pins.alive = false := by
  refine ⟨_, rfl, ?_, ?_⟩ <;> decide +kernel
/-- R528: IDCODE is selected by test-logic reset. -/
theorem test_tlr : ∃ t, exec .testLogicReset { up with jtag := { ir := 0x80 } } = .next t ∧ t.jtag.ir = 0x02 := by
  refine ⟨_, rfl, ?_⟩; decide +kernel
/-- R470: a doorbell on a busy mailbox sets OVERRUN. -/
theorem test_overrun : ∃ t, exec (.overrun 0 1) (boxed up 0 { busy := true }) = .next t ∧ (getMbx t 0).overrun = true := by
  refine ⟨_, rfl, ?_⟩; decide +kernel

/-! ### Witnesses of the rows' statements -/

theorem witness_JtagPublic :
    (∃ (s : State), tapUp s = true) ∧
    (∃ (s : State), tapUp s = true) ∧
    (∃ (s : State), tapUp s = true) ∧
    (∃ (s : State), tapUp s = true) ∧
    (∃ (s : State) (tdi : List Bool), tapUp s = true) ∧
    (∃ (s : State) (tdi : List Bool), tapUp s = true) ∧
    (∃ (s : State), tapUp s = true) := by
  refine ⟨?_, ?_, ?_, ?_, ?_, ?_, ?_⟩
  · exact ⟨up, by decide +kernel⟩
  · exact ⟨up, by decide +kernel⟩
  · exact ⟨up, by decide +kernel⟩
  · exact ⟨up, by decide +kernel⟩
  · exact ⟨up, [true, false], by decide +kernel⟩
  · exact ⟨up, [true, false], by decide +kernel⟩
  · exact ⟨up, by decide +kernel⟩

theorem witness_JtagFreeze :
    (∃ (s : State) (v : BitVec 16), tapUp s = true ∧ s.jade.frozen = true) ∧
    (∃ (s : State) (v : BitVec 64), tapUp s = true ∧ s.jade.frozen = true) ∧
    (∃ (s : State) (tdi : List Bool), tapUp s = true ∧ s.jade.frozen = true ∧ chainThere s = true) ∧
    (∃ (s : State), tapUp s = true ∧ s.jade.frozen = true) ∧
    (∃ (s : State), tapUp s = true ∧ s.jade.frozen = true) ∧
    (∃ (s : State) (c : Instr) (code : BitVec 8), tapUp s = true ∧ s.jade.frozen = false ∧ ((∃ v, c = .frzSelect v ∧ code = 0x81) ∨
      (∃ l, c = .frzShift l ∧ code = 0x82) ∨ (∃ v, c = .frzMemaddr v ∧ code = 0x83) ∨ (c = .frzMemdata ∧ code = 0x84) ∨ (c =
      .frzInfo ∧ code = 0x85))) ∧
    (∃ (s : State) (c : Instr) (code : BitVec 8), tapUp s = true ∧ s.jade.frozen = false ∧ ((∃ v, c = .frzSelect v ∧ code = 0x81) ∨
      (∃ l, c = .frzShift l ∧ code = 0x82) ∨ (∃ v, c = .frzMemaddr v ∧ code = 0x83) ∨ (c = .frzMemdata ∧ code = 0x84) ∨ (c =
      .frzInfo ∧ code = 0x85))) ∧
    (∃ (s : State) (c : Instr) (code : BitVec 8), tapUp s = true ∧ s.jade.frozen = false ∧ ((∃ v, c = .frzSelect v ∧ code = 0x81) ∨
      (∃ l, c = .frzShift l ∧ code = 0x82) ∨ (∃ v, c = .frzMemaddr v ∧ code = 0x83) ∨ (c = .frzMemdata ∧ code = 0x84) ∨ (c =
      .frzInfo ∧ code = 0x85))) ∧
    (∃ (s : State) (c : Instr) (code : BitVec 8), tapUp s = true ∧ s.jade.frozen = false ∧ ((∃ v, c = .frzSelect v ∧ code = 0x81) ∨
      (∃ l, c = .frzShift l ∧ code = 0x82) ∨ (∃ v, c = .frzMemaddr v ∧ code = 0x83) ∨ (c = .frzMemdata ∧ code = 0x84) ∨ (c =
      .frzInfo ∧ code = 0x85))) ∧
    (∃ (s : State) (c : Instr) (code : BitVec 8), tapUp s = true ∧ s.jade.frozen = false ∧ ((∃ v, c = .frzSelect v ∧ code = 0x81) ∨
      (∃ l, c = .frzShift l ∧ code = 0x82) ∨ (∃ v, c = .frzMemaddr v ∧ code = 0x83) ∨ (c = .frzMemdata ∧ code = 0x84) ∨ (c =
      .frzInfo ∧ code = 0x85))) := by
  refine ⟨?_, ?_, ?_, ?_, ?_, ?_, ?_, ?_, ?_, ?_⟩
  · exact ⟨{ up with jade := { frozen := true } }, 0x1FFF, by decide +kernel⟩
  · exact ⟨{ up with jade := { frozen := true } }, 0x80, by decide +kernel⟩
  · exact ⟨{ up with jade := { frozen := true } }, [true], by decide +kernel⟩
  · exact ⟨{ up with jade := { frozen := true } }, by decide +kernel⟩
  · exact ⟨{ up with jade := { frozen := true } }, by decide +kernel⟩
  · exact ⟨up, .frzSelect 1, 0x81, by decide +kernel, by decide +kernel, by simp⟩
  · exact ⟨up, .frzShift [true], 0x82, by decide +kernel, by decide +kernel, by simp⟩
  · exact ⟨up, .frzMemaddr 1, 0x83, by decide +kernel, by decide +kernel, by simp⟩
  · exact ⟨up, .frzMemdata, 0x84, by decide +kernel, by decide +kernel, by simp⟩
  · exact ⟨up, .frzInfo, 0x85, by decide +kernel, by decide +kernel, by simp⟩

theorem witness_FaultQueueRows :
    (∃ (s : State) (v : W32), running s = true ∧ canDma s 0 = true ∧ f2Slot s.jade (v.toNat % 256) = none) ∧
    (∃ (s : State) (v : W32) (i : Nat), running s = true ∧ canDma s 0 = true ∧ f2Slot s.jade (v.toNat % 256) = some i) ∧
    (∃ (s : State) (slot : Nat) (e : FaultEnt), running s = true ∧ hostAway s = false ∧ Tab.get? s.jade.queue slot = some e ∧ e.st =
      1 ∧ (uncontainable e.source && !e.acted) = false) ∧
    (∃ (s : State) (slot : Nat) (e : FaultEnt), running s = true ∧ Tab.get? s.jade.queue slot = some e ∧ e.st = 1 ∧ hostAway s =
      false ∧ uncontainable e.source = true ∧ e.acted = false) ∧
    (∃ (s : State) (slot : Nat) (e : FaultEnt), fwUp s = true ∧ Tab.get? s.jade.queue slot = some e ∧ e.st = 3 ∧ e.acted = true) ∧
    (∃ (s : State) (slot : Nat) (e : FaultEnt), fwUp s = true ∧ Tab.get? s.jade.queue slot = some e ∧ e.st = 3 ∧ e.acted = false ∧
      (contain s e).jade.f4 = false) ∧
    (∃ (s : State) (slot : Nat) (e : FaultEnt), fwUp s = true ∧ Tab.get? s.jade.queue slot = some e ∧ e.st = 3 ∧ e.acted = false ∧
      (contain s e).jade.f4 = true) ∧
    (∃ (s : State) (slot : Nat) (e : FaultEnt), running s = true ∧ Tab.get? s.jade.queue slot = some e ∧ e.st = 3) ∧
    (∃ (s : State) (kind : Nat) (ident : Nat), running s = true ∧ (domWindow s.jade kind ident).isSome = true) := by
  refine ⟨?_, ?_, ?_, ?_, ?_, ?_, ?_, ?_, ?_⟩
  · exact ⟨up, 1, by decide +kernel⟩
  · exact ⟨{ up with jade := { queue := [(0, { code := 0x7007, source := 0x7001, ident := 1, cls := 2, st := 1, domKind := 1, domId := 0 })] } }, 1, 0, by decide +kernel⟩
  · exact ⟨{ up with jade := { queue := [(0, { code := 0x7007, source := 0x7001, ident := 1, cls := 2, st := 1, domKind := 1, domId := 0 })] } }, 0, { code := 0x7007, source := 0x7001, ident := 1, cls := 2, st := 1, domKind := 1, domId := 0 }, by decide +kernel⟩
  · exact ⟨{ up with jade := { queue := [(0, { code := 0x8004, source := 0xD000, ident := 1, cls := 2, st := 1, domKind := 1, domId := 0 })] } }, 0, { code := 0x8004, source := 0xD000, ident := 1, cls := 2, st := 1, domKind := 1, domId := 0 }, by decide +kernel⟩
  · exact ⟨{ up with jade := { queue := [(0, { code := 0x7007, source := 0x7001, ident := 1, cls := 3, st := 3, domKind := 1, domId := 0, acted := true })] } }, 0, { code := 0x7007, source := 0x7001, ident := 1, cls := 3, st := 3, domKind := 1, domId := 0, acted := true }, by decide +kernel⟩
  · exact ⟨{ up with jade := { queue := [(0, lost0 0x7007 0x7001)] } }, 0, lost0 0x7007 0x7001, by decide +kernel⟩
  · exact ⟨{ up with tiles := [(0, {}), (1, {}), (2, {}), (3, {}), (4, {}), (5, {}), (6, {}), (7, {})], mesh := { lostLinks := [(0, 4)] }, jade := { queue := [(0, { lost0 0x3002 0x3001 with domId := 1 })] } }, 0, { lost0 0x3002 0x3001 with domId := 1 }, by decide +kernel⟩
  · exact ⟨{ up with jade := { queue := [(0, { code := 0x7007, source := 0x7001, ident := 1, cls := 3, st := 3, domKind := 1, domId := 0, acted := true })] } }, 0, { code := 0x7007, source := 0x7001, ident := 1, cls := 3, st := 3, domKind := 1, domId := 0, acted := true }, by decide +kernel⟩
  · exact ⟨{ up with jade := { windows := [{ domKind := 1, domId := 0, faults := [], cls := 1 }] } }, 1, 0, by decide +kernel⟩

theorem witness_AliveAndJetRows :
    (∃ (s : State), running s = true ∧ s.jade.aliveRunning = true) ∧
    (∃ (s : State) (tile : Nat) (core : Nat), fwUp s = true ∧ tileUp s tile = true ∧ core < 4) ∧
    (∃ (s : State), running s = true ∧ s.jade.hwdogEn = true ∧ s.jade.hwdogRunning = true ∧ hostAway s = false) ∧
    (∃ (s : State) (v : W32), running s = true ∧ canDma s 0 = true) ∧
    (∃ (s : State) (w : Nat), running s = true ∧ canDma s 0 = true ∧ w < 7) ∧
    (∃ (s : State), running s = true ∧ canDma s 0 = true) ∧
    (∃ (s : State) (v : W32), running s = true ∧ canDma s 0 = true ∧ bits v.toNat 11 0 < areaSize (bit v.toNat 12)) ∧
    (∃ (s : State), running s = true ∧ s.jet.suppressed = []) ∧
    (∃ (s : State), running s = true) := by
  refine ⟨?_, ?_, ?_, ?_, ?_, ?_, ?_, ?_, ?_⟩
  · exact ⟨{ up with jade := { aliveRunning := true } }, by decide +kernel⟩
  · exact ⟨up, 0, 3, by decide +kernel⟩
  · exact ⟨{ up with jade := { hwdogEn := true, hwdogRunning := true } }, by decide +kernel⟩
  · exact ⟨{ up with jade := { hwdogEn := true } }, 1, by decide +kernel⟩
  · exact ⟨up, 6, by decide +kernel⟩
  · exact ⟨up, by decide +kernel⟩
  · exact ⟨up, 0x1003, by decide +kernel⟩
  · exact ⟨up, by decide +kernel⟩
  · exact ⟨{ up with jet := { suppressed := [(0x5001, 3)] } }, by decide +kernel⟩

theorem witness_PowerLossRows :
    (∃ (s : State), s.phase ≠ .off) ∧
    (∃ (s : State), s.phase ≠ .off ∧ s.jade.f4 = false) ∧
    (∃ (s : State), s.phase ≠ .off ∧ s.jade.f4 = true) ∧
    (∃ (s : State), powered s = true) := by
  refine ⟨?_, ?_, ?_, ?_⟩
  · exact ⟨up, by decide +kernel⟩
  · exact ⟨up, by decide +kernel⟩
  · exact ⟨{ up with jade := { f4 := true } }, by decide +kernel⟩
  · exact ⟨up, by decide +kernel⟩

theorem witness_StartRows :
    (∃ (s : State) (failed : List Nat), (s.phase = .off ∨ s.phase = .held) ∧ tooHot s = false ∧ failed.contains 0 = false) ∧
    (∃ (s : State) (failed : List Nat), (s.phase = .off ∨ s.phase = .held) ∧ tooHot s = false ∧ failed.contains 0 = false) ∧
    (∃ (s : State) (failed : List Nat), (s.phase = .off ∨ s.phase = .held) ∧ tooHot s = false ∧ failed.contains 0 = true) ∧
    (∃ (s : State) (failed : List Nat), (s.phase = .off ∨ s.phase = .held) ∧ tooHot s = false ∧ failed.contains 0 = true) ∧
    (∃ (s : State) (headers : List (Nat × PoolHeader)), running s = true ∧ s.phase = .boot ∧ tileUp s 0 = true ∧ s.sec.bootFailed =
      false) ∧
    (∃ (s : State), running s = true ∧ s.phase = .replay ∧ replayed s = true) := by
  refine ⟨?_, ?_, ?_, ?_, ?_, ?_⟩
  · exact ⟨State.reset, [3], by decide +kernel⟩
  · exact ⟨{ up with phase := .off, pins := { State.reset.pins with pwrOk := false } }, [3], by decide +kernel⟩
  · exact ⟨State.reset, [0], by decide +kernel⟩
  · exact ⟨{ State.reset with phase := .off }, [0], by decide +kernel⟩
  · exact ⟨{ up with phase := .boot }, [], by decide +kernel⟩
  · exact ⟨{ up with phase := .replay }, by decide +kernel⟩

theorem witness_PinRows :
    (∃ (s : State), s.pins.perstN = true ∧ running s = true ∧ ((getFunc s 0).d = .d3hot && s.cfg.d3coldEn && fwUp s) = false) ∧
    (∃ (s : State), s.pins.perstN = true ∧ running s = true ∧ (getFunc s 0).d = .d3hot ∧ s.cfg.d3coldEn = true ∧ fwUp s = true) ∧
    (∃ (s : State), s.pins.perstN = true ∧ running s = false) ∧
    (∃ (s : State), s.pins.perstN = false ∧ s.phase ≠ .d3cold) ∧
    (∃ (s : State), s.pins.perstN = false ∧ s.phase = .d3cold) ∧
    (∃ (s : State), running s = true ∧ s.pins.pcieRefclk = true ∧ s.pcie.linkUp = true) ∧
    (∃ (s : State), s.pins.pcieRefclk = true ∧ (running s && s.pcie.linkUp) = false) ∧
    (∃ (s : State) (j : Nat), running s = false ∧ j < s.part.tiles / 2 ∧ s.pins.sdRefclk.getD j false = true) ∧
    (∃ (s : State) (j : Nat), running s = true ∧ j < s.part.tiles / 2 ∧ s.pins.sdRefclk.getD j false = true) ∧
    (∃ (s : State) (j : Nat), j < s.part.tiles / 2) := by
  refine ⟨?_, ?_, ?_, ?_, ?_, ?_, ?_, ?_, ?_, ?_⟩
  · exact ⟨up, by decide +kernel⟩
  · exact ⟨{ up with pcie := { linkUp := true, funcs := [(0, { d := .d3hot })] }, cfg := { d3coldEn := true } }, by decide +kernel⟩
  · exact ⟨{ State.reset with pins := { State.reset.pins with perstN := true } }, by decide +kernel⟩
  · exact ⟨{ up with pins := { up.pins with perstN := false } }, by decide +kernel⟩
  · exact ⟨{ up with pins := { up.pins with perstN := false }, phase := .d3cold }, by decide +kernel⟩
  · exact ⟨up, by decide +kernel⟩
  · exact ⟨{ up with pcie := {} }, by decide +kernel⟩
  · exact ⟨State.reset, 3, by decide +kernel⟩
  · exact ⟨up, 3, by decide +kernel⟩
  · exact ⟨up, 3, by decide +kernel⟩

theorem witness_HousekeepingRows :
    (∃ (s : State) (tile : Nat) (v : BitVec 16), fwUp s = true ∧ tileUp s tile = true ∧ (getSlice s tile).next < 24) ∧
    (∃ (s : State) (tile : Nat) (diode : Nat), powered s = true ∧ tile < s.part.tiles ∧ diode < 8 ∧ (getSlice s
      tile).excluded.contains diode = false) ∧
    (∃ (s : State) (v : BitVec 11), powered s = false) ∧
    (∃ (s : State), fwUp s = true ∧ s.hk.ps = .ps2 ∧ s.hk.ps2Idle = true) ∧
    (∃ (s : State), fwUp s = true ∧ s.hk.ps = .ps2 ∧ s.hk.ps2Idle = false ∧ idleNow s = true) ∧
    (∃ (s : State) (c : Byte), c ≠ 0x10) ∧
    (∃ (s : State), running s = true ∧ s.hk.closing = true ∧ s.hk.toD3cold = false) ∧
    (∃ (s : State), running s = true ∧ s.hk.closing = true ∧ s.hk.toD3cold = true) ∧
    (∃ (s : State) (tile : Nat), fwUp s = true ∧ tileUp s tile = true ∧ (getSlice s tile).next = 24 ∧ fastRise (getSlice s tile) =
      true) ∧
    (∃ (s : State) (tile : Nat), fwUp s = true ∧ tileUp s tile = true ∧ (getSlice s tile).next = 24 ∧ fastRise (getSlice s tile) =
      false ∧ s.hk.closing = true) ∧
    (∃ (s : State) (tile : Nat), fwUp s = true ∧ tileUp s tile = true ∧ (getSlice s tile).next = 24 ∧ fastRise (getSlice s tile) =
      false ∧ s.hk.closing = false ∧ s.hk.running = false ∧ roundFaults (getSlice s tile) tile (s.pins.sdRefclk.getD (tile / 2)
      false) = [] ∧ (∀ k, tileUp s k = true → k ≠ tile → (getSlice s k).temp < 4 * (s.cfg.warn : Int) - 12 ∧ (getSlice s
      k).alarm = false) ∧ (∀ d, d < 8 → (getSlice s tile).reading d < 4 * (s.cfg.warn : Int) - 12) ∧ (getSlice s tile).diodes ≠
      [] ∧ s.cfg.warn ≤ s.cfg.throttle ∧ s.cfg.throttle ≤ s.cfg.critical) := by
  refine ⟨?_, ?_, ?_, ?_, ?_, ?_, ?_, ?_, ?_, ?_, ?_⟩
  · exact ⟨{ up with hk := { slices := [(0, { next := 23 })] } }, 0, 5, by decide +kernel⟩
  · exact ⟨up, 7, 7, by decide +kernel⟩
  · exact ⟨State.reset, 5, by decide +kernel⟩
  · exact ⟨{ up with hk := { ps := .ps2, ps2Idle := true } }, by decide +kernel⟩
  · exact ⟨{ up with hk := { ps := .ps2 } }, by decide +kernel⟩
  · exact ⟨up, 0x11, by decide +kernel⟩
  · exact ⟨{ up with hk := { closing := true } }, by decide +kernel⟩
  · exact ⟨{ up with hk := { closing := true, toD3cold := true } }, by decide +kernel⟩
  · exact ⟨{ up with hk := { slices := [(0, { next := 24, past := [[0], [0]], readings := [(0, 100)], excluded := [1, 2, 3, 4, 5, 6, 7] })] } }, 0, by decide +kernel⟩
  · exact ⟨{ up with hk := { slices := [(0, { next := 24 })], closing := true } }, 0, by decide +kernel⟩
  · exact ⟨quiet, 0, by decide +kernel, by decide +kernel, by decide +kernel, by decide +kernel, by decide +kernel, by decide +kernel, quiet_rounds, by intro k h _; exact quiet_others k h, by decide +kernel, by decide +kernel, by decide +kernel, by decide +kernel⟩

theorem witness_MoonFrameRows :
    (∃ (s : State) (f : MoonFrame), FrameIn s f ∧ frameIs f kEdge none = true ∧ isMaster s = true ∧ frameOrigin f = 0 ∧
      s.moon.edgesOut.contains (frameNumber f) = true) ∧
    (∃ (s : State) (f : MoonFrame), FrameIn s f ∧ frameIs f kEdge none = true ∧ isMaster s = true ∧ (frameOrigin f ≠ 0 ∨
      s.moon.edgesOut.contains (frameNumber f) = false)) ∧
    (∃ (s : State) (f : MoonFrame), FrameIn s f ∧ frameIs f kEdge none = true ∧ isMaster s = true ∧ (frameOrigin f ≠ 0 ∨
      s.moon.edgesOut.contains (frameNumber f) = false)) ∧
    (∃ (s : State) (f : MoonFrame), FrameIn s f ∧ frameIs f kEdge none = true ∧ isMaster s = false ∧ (isMember s && s.moon.trained)
      = false) ∧
    (∃ (s : State) (f : MoonFrame), FrameIn s f ∧ frameIs f kEdge none = true ∧ isMember s = true ∧ s.moon.trained = true ∧ inWindow
      (frameOffset s.moon f) = true ∧ frameOrigin f = 0 ∧ s.moon.behind = false ∧ frameEpoch s.moon f ≤ frameNumber f) ∧
    (∃ (s : State) (f : MoonFrame), FrameIn s f ∧ frameIs f kEdge none = true ∧ isMember s = true ∧ s.moon.trained = true ∧ inWindow
      (frameOffset s.moon f) = true ∧ frameNumber f < frameEpoch s.moon f) ∧
    (∃ (s : State) (f : MoonFrame), FrameIn s f ∧ frameIs f kEdge none = true ∧ isMember s = true ∧ s.moon.trained = true ∧ inWindow
      (frameOffset s.moon f) = false) ∧
    (∃ (s : State) (f : MoonFrame), FrameIn s f ∧ frameValid f = false ∧ (isMaster s && frameOrigin f == 0) = false) ∧
    (∃ (s : State) (f : MoonFrame), FrameIn s f ∧ frameValid f = true ∧ frameKnown f = false ∧ ownFrame s f false = false) ∧
    (∃ (s : State) (f : MoonFrame) (c : Instr), frameValid f = false ∧ c ∈ [.edge f.sync f.body, .announce f.sync f.body, .poll
      f.sync f.body, .done f.sync f.body, .failed f.sync f.body, .holdover f.sync f.body, .trainCount f, .trainResult f.at_
      f.timed f.body]) ∧
    (∃ (s : State) (f : MoonFrame), FrameIn s f ∧ frameIs f kHoldover none = true ∧ ownFrame s f true = false ∧ framePhase f = 2) ∧
    (∃ (s : State) (f : MoonFrame), FrameIn s f ∧ frameIs f kHoldover none = true ∧ ownFrame s f true = false ∧ framePhase f ≠ 2) ∧
    (∃ (s : State) (f : MoonFrame), FrameIn s f ∧ frameIs f kHoldover none = true ∧ ownFrame s f true = true) ∧
    (∃ (s : State) (f : MoonFrame) (c : Instr), FrameRow c f ∧ s.pins.bypassClosed = true ∧ s.pins.bypassAt ≤ f.at_) ∧
    (∃ (s : State) (f : MoonFrame) (c : Instr), FrameRow c f ∧ f.at_ < s.pins.bypassAt) := by
  refine ⟨?_, ?_, ?_, ?_, ?_, ?_, ?_, ?_, ?_, ?_, ?_, ?_, ?_, ?_, ?_⟩
  · exact ⟨{ up with moon := { role := 1, edgesOut := [32768] } }, edge0, by unfold FrameIn; decide +kernel⟩
  · exact ⟨{ up with moon := { role := 1, edgesOut := [32768] } }, { edge0 with body := frameBody true 32768 1 false 0 kEdge (edgeArgs 2) }, by unfold FrameIn; decide +kernel⟩
  · exact ⟨{ up with moon := { role := 1 } }, edge0, by unfold FrameIn; decide +kernel⟩
  · exact ⟨up, edge0, by unfold FrameIn; decide +kernel⟩
  · exact ⟨{ up with moon := { role := 2, trained := true, position := 4 } }, edge0, by unfold FrameIn; decide +kernel⟩
  · exact ⟨{ up with moon := { role := 2, trained := true, position := 4 } }, { edge0 with body := frameBody true 7 0 false 0 kEdge (edgeArgs 2) }, by unfold FrameIn; decide +kernel⟩
  · exact ⟨{ up with moon := { role := 2, trained := true, position := 4 } }, { edge0 with at_ := 65 }, by unfold FrameIn; decide +kernel⟩
  · exact ⟨up, { edge0 with body := [0x10] }, by unfold FrameIn; decide +kernel⟩
  · exact ⟨up, ctl0 5 kSeal [5], by unfold FrameIn; decide +kernel⟩
  · exact ⟨up, { edge0 with body := [] }, .poll edge0.sync [], by decide +kernel, by simp⟩
  · exact ⟨up, ctl0 5 kHoldover (holdoverArgs 2), by unfold FrameIn; decide +kernel⟩
  · exact ⟨up, ctl0 5 kHoldover (holdoverArgs 1), by unfold FrameIn; decide +kernel⟩
  · exact ⟨{ up with moon := { role := 2, trained := true, position := 4 } }, ctl0 4 kHoldover (holdoverArgs 2), by unfold FrameIn; decide +kernel⟩
  · exact ⟨State.reset, edge0, .edge edge0.sync edge0.body, .inl ⟨rfl, by decide +kernel⟩, by decide +kernel⟩
  · exact ⟨{ up with pins := { up.pins with bypassAt := 1 } }, seal0 4 { sealEpoch := 32770, accepted := 0, finished := 0, withdrawn := 0 }, .failed (seal0 4 { sealEpoch := 32770, accepted := 0, finished := 0, withdrawn := 0 }).sync (seal0 4 { sealEpoch := 32770, accepted := 0, finished := 0, withdrawn := 0 }).body, by unfold FrameRow; exact .inr (.inr (.inr (.inr (.inr (.inr (.inr (.inl ⟨rfl, by decide +kernel⟩))))))), by decide +kernel⟩

theorem witness_MoonTimerRows :
    (∃ (s : State), fwUp s = true ∧ isMember s = true ∧ s.moon.trained = true ∧ s.moon.misses = 16) ∧
    (∃ (s : State), fwUp s = true ∧ isMember s = true ∧ s.moon.trained = true ∧ s.moon.unsynced = false ∧ 0 < s.moon.misses) ∧
    (∃ (s : State), retimes s = true ∧ isMember s = true ∧ 4 ≤ s.moon.silent ∧ s.moon.holdoverSent = false) ∧
    (∃ (s : State) (x : Int) (y : Int) (z : Int) (l : List Int), fwUp s = true ∧ s.moon.strays = x :: y :: z :: l ∧ ownDrift s x =
      true) ∧
    (∃ (s : State) (x : Int) (y : Int) (z : Int) (l : List Int), fwUp s = true ∧ s.moon.strays = x :: y :: z :: l ∧ ownDrift s x =
      false) ∧
    (∃ (s : State) (x : Int) (a : Nat), s.moon.lastAccepted = some a) := by
  refine ⟨?_, ?_, ?_, ?_, ?_, ?_⟩
  · exact ⟨{ up with moon := { role := 2, trained := true, misses := 16 } }, by decide +kernel⟩
  · exact ⟨{ up with moon := { role := 2, trained := true, misses := 1 } }, by decide +kernel⟩
  · exact ⟨{ up with moon := { role := 2, silent := 4 } }, by decide +kernel⟩
  · exact ⟨{ up with clock := 100, moon := { lastAccepted := some 0, strays := [64, 60, 60] } }, 64, 60, 60, [], by decide +kernel⟩
  · exact ⟨{ up with clock := 100, moon := { lastAccepted := some 0, strays := [65, 60, 60] } }, 65, 60, 60, [], by decide +kernel⟩
  · exact ⟨{ up with moon := { lastAccepted := some 0 } }, 64, 0, by decide +kernel⟩

theorem witness_MoonTrainRows :
    (∃ (s : State) (f : MoonFrame), FrameIn s f ∧ frameIs f kTrain (some 1) = true ∧ ownFrame s f false = false ∧ frameOvf f = false
      ∧ frameCount f ≠ 1023) ∧
    (∃ (s : State) (f : MoonFrame), FrameIn s f ∧ frameIs f kTrain (some 1) = true ∧ ownFrame s f false = false ∧ (hop f).2 = true) ∧
    (∃ (s : State) (f : MoonFrame) (t0 : Nat) (mb : Nat), FrameIn s f ∧ frameIs f kTrain (some 1) = true ∧ ownFrame s f false = true
      ∧ s.moon.train.sentAt = some t0 ∧ s.moon.train.mb = some mb ∧ frameOvf f = false ∧ (getMbx s mb).orphan = false) ∧
    (∃ (s : State) (f : MoonFrame) (t0 : Nat) (mb : Nat), FrameIn s f ∧ frameIs f kTrain (some 1) = true ∧ ownFrame s f false = true
      ∧ s.moon.train.sentAt = some t0 ∧ s.moon.train.mb = some mb ∧ frameOvf f = true ∧ (getMbx s mb).orphan = false) ∧
    (∃ (s : State) (f : MoonFrame) (p : Nat), FrameIn s f ∧ frameIs f kTrain (some 2) = true ∧ ownFrame s f false = false ∧
      s.moon.train.seen = some p ∧ p < frameDevices f ∧ frameOvf f = false) ∧
    (∃ (s : State) (f : MoonFrame) (p : Nat), FrameIn s f ∧ frameIs f kTrain (some 2) = true ∧ ownFrame s f false = false ∧
      s.moon.train.seen = some p ∧ (frameDevices f ≤ p ∨ frameOvf f = true)) ∧
    (∃ (s : State) (f : MoonFrame) (p : Nat), FrameIn s f ∧ frameIs f kTrain (some 2) = true ∧ ownFrame s f false = false ∧
      s.moon.train.seen = some p ∧ (frameDevices f ≤ p ∨ frameOvf f = true)) ∧
    (∃ (s : State) (f : MoonFrame), FrameIn s f ∧ frameIs f kTrain (some 2) = true ∧ ownFrame s f false = false ∧ s.moon.train.seen
      = none) ∧
    (∃ (s : State) (f : MoonFrame), FrameIn s f ∧ frameIs f kTrain (some 2) = true ∧ ownFrame s f false = true) ∧
    (∃ (s : State) (t0 : Nat) (mb : Nat), fwUp s = true ∧ s.moon.train.sentAt = some t0 ∧ s.moon.train.mb = some mb ∧ (getMbx s
      mb).orphan = false) ∧
    (∃ (s : State) (g : Go), GoReady s g false 0 [] ∧ isMaster s = true ∧ s.moon.sealActive = false ∧ s.moon.train.sentAt = none) ∧
    (∃ (p : Nat) (l : Nat) (n : Nat), 0 < n) := by
  refine ⟨?_, ?_, ?_, ?_, ?_, ?_, ?_, ?_, ?_, ?_, ?_, ?_⟩
  · exact ⟨up, { ctl0 0 kTrain (trainArgs 1 0 0) with at_ := 5 }, by unfold FrameIn; decide +kernel⟩
  · exact ⟨up, { at_ := 5, timed := false, body := frameBody false 32768 0 false 1023 kTrain (trainArgs 1 0 0) }, by unfold FrameIn; decide +kernel⟩
  · exact ⟨{ up with moon := { role := 1, train := { sentAt := some 0, mb := some 0 } } }, { at_ := 5, timed := false, body := frameBody false 32768 0 false 3 kTrain (trainArgs 1 0 0) }, 0, 0, by unfold FrameIn; decide +kernel⟩
  · exact ⟨{ up with moon := { role := 1, train := { sentAt := some 0, mb := some 0 } } }, { at_ := 5, timed := false, body := frameBody false 32768 0 true 3 kTrain (trainArgs 1 0 0) }, 0, 0, by unfold FrameIn; decide +kernel⟩
  · exact ⟨{ up with moon := { role := 2, train := { seen := some 2 } } }, ctl0 0 kTrain (trainArgs 2 1000 3), 2, by unfold FrameIn; decide +kernel⟩
  · exact ⟨{ up with moon := { role := 2, train := { seen := some 2 } } }, ctl0 0 kTrain (trainArgs 2 1000 2), 2, by unfold FrameIn; decide +kernel⟩
  · exact ⟨{ up with moon := { role := 2, train := { seen := some 2 } } }, { at_ := 0, timed := false, body := frameBody false 32768 0 true 0 kTrain (trainArgs 2 1000 3) }, 2, by unfold FrameIn; decide +kernel⟩
  · exact ⟨up, ctl0 0 kTrain (trainArgs 2 1000 2), by unfold FrameIn; decide +kernel⟩
  · exact ⟨{ up with moon := { role := 1 } }, ctl0 0 kTrain (trainArgs 2 1000 2), by unfold FrameIn; decide +kernel⟩
  · exact ⟨{ up with moon := { role := 1, train := { sentAt := some 0, mb := some 0 } } }, 0, 0, by decide +kernel⟩
  · exact ⟨{ up with moon := { role := 1 } }, go 0, by unfold GoReady; decide +kernel⟩
  · exact ⟨0, 1000, 1, by decide +kernel⟩

theorem witness_MoonSealRows :
    (∃ (s : State) (f : MoonFrame), FrameIn s f ∧ frameIs f kSeal (some 1) = true ∧ ownFrame s f false = false) ∧
    (∃ (s : State) (f : MoonFrame), FrameIn s f ∧ frameIs f kSeal (some 1) = true ∧ ownFrame s f false = true ∧ s.moon.sealActive =
      true ∧ s.moon.sealSt.es = (frameSeal f).sealEpoch) ∧
    (∃ (s : State) (f : MoonFrame), FrameIn s f ∧ frameIs f kSeal (some 2) = true ∧ ownFrame s f false = false ∧ s.moon.sealActive =
      true) ∧
    (∃ (s : State) (f : MoonFrame), FrameIn s f ∧ frameIs f kSeal (some 2) = true ∧ ownFrame s f false = true ∧ s.moon.sealActive =
      true ∧ s.moon.sealSt.es = (frameSeal f).sealEpoch ∧ s.moon.sealSt.announceCount = some (frameCount f) ∧ (frameSeal
      f).finished = (frameSeal f).accepted) ∧
    (∃ (s : State) (f : MoonFrame), FrameIn s f ∧ frameIs f kSeal (some 2) = true ∧ ownFrame s f false = true ∧ s.moon.sealActive =
      true ∧ s.moon.sealSt.es = (frameSeal f).sealEpoch ∧ s.moon.sealSt.announceCount = some (frameCount f) ∧ (frameSeal
      f).finished ≠ (frameSeal f).accepted) ∧
    (∃ (s : State) (f : MoonFrame), FrameIn s f ∧ frameIs f kSeal (some 2) = true ∧ ownFrame s f false = true ∧ s.moon.sealActive =
      true ∧ s.moon.sealSt.es = (frameSeal f).sealEpoch ∧ s.moon.sealSt.announceCount ≠ some (frameCount f)) ∧
    (∃ (s : State) (f : MoonFrame), FrameIn s f ∧ frameIs f kSeal (some 3) = true ∧ ownFrame s f false = false ∧ s.moon.sealActive =
      true) ∧
    (∃ (s : State) (f : MoonFrame), FrameIn s f ∧ frameIs f kSeal (some 4) = true ∧ ownFrame s f false = false ∧ s.moon.sealActive =
      true) ∧
    (∃ (s : State) (f : MoonFrame) (c : Instr), FrameIn s f ∧ ((c = .done f.sync f.body ∧ frameIs f kSeal (some 3) = true) ∨ (c =
      .failed f.sync f.body ∧ frameIs f kSeal (some 4) = true)) ∧ ownFrame s f false = true) ∧
    (∃ (s : State) (f : MoonFrame) (c : Instr), FrameIn s f ∧ ((c = .done f.sync f.body ∧ frameIs f kSeal (some 3) = true) ∨ (c =
      .failed f.sync f.body ∧ frameIs f kSeal (some 4) = true)) ∧ ownFrame s f false = true) ∧
    (∃ (s : State) (f : MoonFrame) (c : Instr), FrameIn s f ∧ ((c = .done f.sync f.body ∧ frameIs f kSeal (some 3) = true) ∨ (c =
      .failed f.sync f.body ∧ frameIs f kSeal (some 4) = true)) ∧ ownFrame s f false = false ∧ s.moon.sealActive = false) ∧
    (∃ (s : State) (f : MoonFrame) (c : Instr), FrameIn s f ∧ ((c = .done f.sync f.body ∧ frameIs f kSeal (some 3) = true) ∨ (c =
      .failed f.sync f.body ∧ frameIs f kSeal (some 4) = true)) ∧ ownFrame s f false = false ∧ s.moon.sealActive = false) ∧
    (∃ (s : State), serving s = true ∧ s.moon.sealActive = true ∧ s.moon.sealSt.takesPart = true ∧ s.moon.sealSt.frozen = true ∧
      s.moon.sealSt.stored = false ∧ mapsOut s = false ∧ sealDrained s s.moon.sealSt.es = true) ∧
    (∃ (s : State), fwUp s = true ∧ isMaster s = true ∧ s.moon.sealActive = true) ∧
    (∃ (s : State), fwUp s = true ∧ s.moon.sealActive = true) ∧
    (∃ (s : State) (g : Go), GoReady s g false 16 [] ∧ isMaster s = true ∧ s.moon.sealActive = false) ∧
    (∃ (s : State) (g : Go) (es : BitVec 64), GoReady s g false 16 [] ∧ isMaster s = true ∧ es ≠ 0 ∧ es.toNat < 2 ^ 48 ∧
      sealLateEnough s es.toNat = false) ∧
    (∃ (s : State) (g : Go) (es : BitVec 64), GoReady s g false 16 [] ∧ isMaster s = true ∧ s.moon.sealActive = true ∧ es.toNat < 2
      ^ 48) := by
  refine ⟨?_, ?_, ?_, ?_, ?_, ?_, ?_, ?_, ?_, ?_, ?_, ?_, ?_, ?_, ?_, ?_, ?_, ?_⟩
  · exact ⟨up, seal0 1 { sealEpoch := 32770, accepted := 0, finished := 0, withdrawn := 0 }, by unfold FrameIn; decide +kernel⟩
  · exact ⟨{ up with moon := { role := 1, sealActive := true, sealSt := { es := 32770 } } }, seal0 1 { sealEpoch := 32770, accepted := 0, finished := 0, withdrawn := 0 }, by unfold FrameIn; decide +kernel⟩
  · exact ⟨{ up with moon := { role := 2, trained := true, sealActive := true, sealSt := { es := 32770, takesPart := true, stored := true } } }, seal0 2 { sealEpoch := 32770, accepted := 0, finished := 0, withdrawn := 0 }, by unfold FrameIn; decide +kernel⟩
  · exact ⟨{ up with moon := { role := 1, sealActive := true, sealSt := { es := 32770, announceCount := some 0 } } }, seal0 2 { sealEpoch := 32770, accepted := 0, finished := 0, withdrawn := 0 }, by unfold FrameIn; decide +kernel⟩
  · exact ⟨{ up with moon := { role := 1, sealActive := true, sealSt := { es := 32770, announceCount := some 0 } } }, seal0 2 { sealEpoch := 32770, accepted := 1, finished := 0, withdrawn := 0 }, by unfold FrameIn; decide +kernel⟩
  · exact ⟨{ up with moon := { role := 1, sealActive := true, sealSt := { es := 32770, announceCount := some 3 } } }, seal0 2 { sealEpoch := 32770, accepted := 0, finished := 0, withdrawn := 0 }, by unfold FrameIn; decide +kernel⟩
  · exact ⟨{ up with moon := { role := 2, trained := true, sealActive := true, sealSt := { es := 32770, takesPart := true, stored := true } } }, seal0 3 { sealEpoch := 32770, accepted := 0, finished := 0, withdrawn := 0 }, by unfold FrameIn; decide +kernel⟩
  · exact ⟨{ up with moon := { role := 2, trained := true, sealActive := true, sealSt := { es := 32770, takesPart := true, stored := true } } }, seal0 4 { sealEpoch := 32770, accepted := 0, finished := 0, withdrawn := 0 }, by unfold FrameIn; decide +kernel⟩
  · exact ⟨{ up with moon := { role := 1, sealActive := true, sealSt := { es := 32770 } } }, seal0 3 { sealEpoch := 32770, accepted := 0, finished := 0, withdrawn := 0 }, .done (seal0 3 { sealEpoch := 32770, accepted := 0, finished := 0, withdrawn := 0 }).sync (seal0 3 { sealEpoch := 32770, accepted := 0, finished := 0, withdrawn := 0 }).body, by unfold FrameIn; decide +kernel, .inl ⟨rfl, by decide +kernel⟩, by decide +kernel⟩
  · exact ⟨{ up with moon := { role := 1, sealActive := true, sealSt := { es := 32770 } } }, seal0 4 { sealEpoch := 32770, accepted := 0, finished := 0, withdrawn := 0 }, .failed (seal0 4 { sealEpoch := 32770, accepted := 0, finished := 0, withdrawn := 0 }).sync (seal0 4 { sealEpoch := 32770, accepted := 0, finished := 0, withdrawn := 0 }).body, by unfold FrameIn; decide +kernel, .inr ⟨rfl, by decide +kernel⟩, by decide +kernel⟩
  · exact ⟨up, seal0 3 { sealEpoch := 32770, accepted := 0, finished := 0, withdrawn := 0 }, .done (seal0 3 { sealEpoch := 32770, accepted := 0, finished := 0, withdrawn := 0 }).sync (seal0 3 { sealEpoch := 32770, accepted := 0, finished := 0, withdrawn := 0 }).body, by unfold FrameIn; decide +kernel, .inl ⟨rfl, by decide +kernel⟩, by decide +kernel⟩
  · exact ⟨up, seal0 4 { sealEpoch := 32770, accepted := 0, finished := 0, withdrawn := 0 }, .failed (seal0 4 { sealEpoch := 32770, accepted := 0, finished := 0, withdrawn := 0 }).sync (seal0 4 { sealEpoch := 32770, accepted := 0, finished := 0, withdrawn := 0 }).body, by unfold FrameIn; decide +kernel, .inr ⟨rfl, by decide +kernel⟩, by decide +kernel⟩
  · exact ⟨{ up with moon := { sealActive := true, sealSt := { es := 32768, takesPart := true, frozen := true } } }, by decide +kernel⟩
  · exact ⟨{ up with moon := { role := 1, sealActive := true } }, by decide +kernel⟩
  · exact ⟨{ up with moon := { sealActive := true } }, by decide +kernel⟩
  · exact ⟨{ up with moon := { role := 1 } }, go 16, by unfold GoReady; decide +kernel⟩
  · exact ⟨{ up with moon := { role := 1 } }, go 16, 32768, by unfold GoReady; decide +kernel⟩
  · exact ⟨{ up with moon := { role := 1, sealActive := true, sealSt := { es := 32770 } } }, go 16, 32770, by unfold GoReady; decide +kernel⟩

theorem witness_MoonCommandRows :
    (∃ (s : State), running s = true ∧ canDma s 0 = true) ∧
    (∃ (s : State), running s = true ∧ canDma s 0 = true) ∧
    (∃ (s : State) (v : W32), running s = true ∧ canDma s 0 = true ∧ s.moon.latch = some v) ∧
    (∃ (s : State) (g : Go) (p : EpochParams), GoReady s g false 12 [] ∧ (p.periodValid && !isMaster s) = false ∧ p.role ≤ 2 ∧ 4 ≤
      p.guard ∧ p.guard ≤ 16 ∧ p.period ≤ 6 ∧ -1000 ≤ p.dlyAdj ∧ p.dlyAdj ≤ 1000 ∧ 100 ≤ p.sealTimeoutMs ∧ p.sealTimeoutMs ≤
      60000 ∧ s.moon.sealActive = false) ∧
    (∃ (s : State) (g : Go) (p : EpochParams), GoReady s g false 12 [] ∧ p.periodValid = true ∧ isMaster s = false) ∧
    (∃ (s : State) (g : Go), GoReady s g false 0 []) ∧
    (∃ (s : State) (g : Go) (vol : Nat) (buf : SegDesc), GoReady s g false 24 [objVol vol] ∧ badBuf buf = false ∧ s.phase = .ready ∧
      vol < s.part.volumes ∧ fnMayVol s g.mb vol = true ∧ (volCfg? s vol).isSome = true ∧ volReserved s vol = false) ∧
    (∃ (s : State) (g : Go), GoReady s g false 0 []) ∧
    (∃ (s : State), running s = true ∧ fwUp s = false) ∧
    (∃ (s : State), running s = true ∧ fwUp s = true) := by
  refine ⟨?_, ?_, ?_, ?_, ?_, ?_, ?_, ?_, ?_, ?_⟩
  · exact ⟨up, by decide +kernel⟩
  · exact ⟨up, by decide +kernel⟩
  · exact ⟨{ up with moon := { latch := some 3 } }, 3, by decide +kernel⟩
  · exact ⟨up, go 12, { role := 1, guard := 4, period := 2, periodValid := false, dlyAdj := -1000, sealTimeoutMs := 60000 }, by unfold GoReady; decide +kernel⟩
  · exact ⟨up, go 12, { role := 2, guard := 4, period := 2, periodValid := true, dlyAdj := 0, sealTimeoutMs := 2000 }, by unfold GoReady; decide +kernel⟩
  · exact ⟨up, go 0, by unfold GoReady; decide +kernel⟩
  · exact ⟨stopped, go 24, 0, buf0, by unfold GoReady; decide +kernel⟩
  · exact ⟨up, go 0, by unfold GoReady; decide +kernel⟩
  · exact ⟨{ up with phase := .boot }, by decide +kernel⟩
  · exact ⟨up, by decide +kernel⟩

theorem witness_HomePathRows :
    (∃ (s : State) (id : Nat) (c : Cmd), serving s = true ∧ getCmd? s id = some c ∧ c.phase = .forwarded ∧ c.op ≠ .flush ∧
      arrivedHome s c = true ∧ tileUp s (homeTile s c.vol) = true ∧ homeStatus s { c with home := homeTile s c.vol } = 0) ∧
    (∃ (s : State) (id : Nat) (c : Cmd), serving s = true ∧ getCmd? s id = some c ∧ c.phase = .forwarded ∧ arrivedHome s c = true ∧
      ((getVol s c.vol).st = .offline ∨ tileUp s (homeTile s c.vol) = true)) ∧
    (∃ (s : State) (id : Nat) (c : Cmd), serving s = true ∧ getCmd? s id = some c ∧ c.phase = .forwarded ∧ arrivedHome s c = true ∧
      ((getVol s c.vol).st = .offline ∨ tileUp s (homeTile s c.vol) = true)) ∧
    (∃ (s : State) (id : Nat) (c : Cmd), serving s = true ∧ getCmd? s id = some c ∧ c.phase = .forwarded ∧ c.op ≠ .flush ∧
      arrivedHome s c = true ∧ ((getVol s c.vol).st = .offline ∨ tileUp s (homeTile s c.vol) = true) ∧ homeStatus s { c with
      home := homeTile s c.vol } ≠ 0) ∧
    (∃ (s : State) (id : Nat) (c : Cmd), serving s = true ∧ getCmd? s id = some c ∧ c.phase = .forwarded ∧ c.op ≠ .flush ∧
      arrivedHome s c = true ∧ ((getVol s c.vol).st = .offline ∨ tileUp s (homeTile s c.vol) = true) ∧ homeStatus s { c with
      home := homeTile s c.vol } ≠ 0) ∧
    (∃ (s : State) (id : Nat) (c : Cmd), getCmd? s id = some c ∧ arrivedHome s c = false) ∧
    (∃ (s : State) (c : Cmd), s.mesh.switching.contains (c.rx, homeTile s c.vol) = true) ∧
    (∃ (s : State) (id : Nat) (c : Cmd), serving s = true ∧ getCmd? s id = some c ∧ tileUp s c.home = true ∧ c.phase = .accepted ∧
      lockFree s c = true ∧ isReadOp c.op = true) ∧
    (∃ (s : State) (id : Nat) (c : Cmd), serving s = true ∧ getCmd? s id = some c ∧ tileUp s c.home = true ∧ c.phase = .accepted ∧
      lockFree s c = true ∧ isReadOp c.op = false) ∧
    (∃ (s : State) (c : Cmd), getCmd? s c.id = some c) ∧
    (∃ (s : State) (id : Nat) (c : Cmd), fwUp s = true ∧ getCmd? s id = some c ∧ c.phase = .held ∧ c.stampEpoch ≤ s.moon.epoch) ∧
    (∃ (s : State) (id : Nat) (part : Nat) (c : Cmd) (p : RowPart), serving s = true ∧ getCmd? s id = some c ∧ c.parts[part]? = some
      p ∧ tileUp s c.home = true ∧ c.phase = .locked ∧ p.waiting = true ∧ isWriteOp c.op = true) ∧
    (∃ (s : State) (src : Nat) (dst : Nat), running s = true ∧ s.mesh.switching.contains (src, dst) = true ∧ s.cmds.any (underWay s
      src dst) = false) ∧
    (∃ (s : State) (src : Nat) (dst : Nat), s.cmds.any (underWay s src dst) = true) ∧
    (∃ (s : State) (tile : Nat) (b : Nat), running s = true ∧ tileUp s tile = true ∧ tileUp s b = true ∧ b < s.part.tiles ∧ adjacent
      s.part tile b = true ∧ linkLost s tile b = false) ∧
    (∃ (s : State) (tile : Nat), running s = true ∧ tileUp s tile = true ∧ (upTiles s).any (· != tile) = true) ∧
    (∃ (s : State) (a : Nat) (b : Nat), running s = true ∧ adjacent s.part a b = true ∧ linkLost s a b = false) := by
  refine ⟨?_, ?_, ?_, ?_, ?_, ?_, ?_, ?_, ?_, ?_, ?_, ?_, ?_, ?_, ?_, ?_, ?_⟩
  · exact ⟨{ served with cmds := [cmd0] }, 1, cmd0, by decide +kernel⟩
  · exact ⟨{ { served with vols := [(0, { st := .offline })] } with cmds := [cmd0] }, 1, cmd0, by decide +kernel⟩
  · exact ⟨{ served with cmds := [{ cmd0 with fwd := some 0 }] }, 1, { cmd0 with fwd := some 0 }, by decide +kernel⟩
  · exact ⟨{ { served with vols := [(0, { st := .offline })] } with cmds := [cmd0] }, 1, cmd0, by decide +kernel⟩
  · exact ⟨{ stopped with cmds := [cmd0] }, 1, cmd0, by decide +kernel⟩
  · exact ⟨{ { served with vols := [(0, { st := .running, home := 1 })] } with cmds := [cmd0] }, 1, cmd0, by decide +kernel⟩
  · exact ⟨{ served with mesh := { switching := [(0, 0)] } }, cmd0, by decide +kernel⟩
  · exact ⟨{ served with cmds := [{ id := 1, src := .ring 9, rx := 0, op := .read, vol := 0, lba := 0, len := 1, phase := .accepted }] }, 1, { id := 1, src := .ring 9, rx := 0, op := .read, vol := 0, lba := 0, len := 1, phase := .accepted }, by decide +kernel⟩
  · exact ⟨{ served with cmds := [{ id := 1, src := .ring 9, rx := 0, op := .write, vol := 0, lba := 0, len := 1, phase := .accepted }] }, 1, { id := 1, src := .ring 9, rx := 0, op := .write, vol := 0, lba := 0, len := 1, phase := .accepted }, by decide +kernel⟩
  · exact ⟨{ served with cmds := [{ id := 1, src := .ring 9, rx := 0, op := .write, vol := 0, lba := 0, len := 1, phase := .accepted }] }, { id := 1, src := .ring 9, rx := 0, op := .write, vol := 0, lba := 0, len := 1, phase := .accepted }, by decide +kernel⟩
  · exact ⟨{ served with cmds := [{ id := 1, src := .ring 9, rx := 0, op := .write, vol := 0, lba := 0, len := 1, phase := .held }] }, 1, { id := 1, src := .ring 9, rx := 0, op := .write, vol := 0, lba := 0, len := 1, phase := .held }, by decide +kernel⟩
  · exact ⟨{ served with cmds := [{ id := 1, src := .ring 9, rx := 0, op := .write, vol := 0, lba := 0, len := 1, phase := .locked, parts := [{ q := 0, row := 0, first := 0, count := 1, waiting := true }] }] }, 1, 0, { id := 1, src := .ring 9, rx := 0, op := .write, vol := 0, lba := 0, len := 1, phase := .locked, parts := [{ q := 0, row := 0, first := 0, count := 1, waiting := true }] }, { q := 0, row := 0, first := 0, count := 1, waiting := true }, by decide +kernel⟩
  · exact ⟨{ up with mesh := { switching := [(0, 1)] } }, 0, 1, by decide +kernel⟩
  · exact ⟨{ served with cmds := [{ cmd0 with fwd := some 0 }] }, 0, 0, by decide +kernel⟩
  · exact ⟨up, 0, 1, by decide +kernel⟩
  · exact ⟨up, 3, by decide +kernel⟩
  · exact ⟨up, 0, 1, by decide +kernel⟩

theorem witness_JournalRows :
    (∃ (s : State) (tile : Nat) (seq : Nat) (r : RingRec), running s = true ∧ ringServed s tile = true ∧ (getTile s
      tile).amber.find? seq = some r ∧ r.committed = false ∧ (getTile s tile).amber.failed = false ∧ r.open_ = false ∧ r.own =
      false ∧ r.mirror = false ∧ r.origin = none) ∧
    (∃ (s : State) (tile : Nat) (seq : Nat) (l : Nat) (t : Nat) (q : Nat) (r : RingRec), running s = true ∧ ringServed s tile = true
      ∧ (getTile s tile).amber.find? seq = some r ∧ r.committed = false ∧ (getTile s tile).amber.failed = false ∧ r.open_ =
      false ∧ r.own = false ∧ r.mirror = false ∧ r.origin = some (l, t, q)) ∧
    (∃ (s : State) (tile : Nat) (seq : Nat) (r : RingRec), fwUp s = true ∧ ringServed s tile = true ∧ (getTile s tile).amber.find?
      seq = some r ∧ r.partnerWait = true) ∧
    (∃ (s : State) (tile : Nat) (x : RingRec) (l : List RingRec), running s = true ∧ ringServed s tile = true ∧ (getTile s
      tile).amber.live = x :: l ∧ (getTile s tile).amber.high = true ∧ (getTile s tile).amber.failed = false ∧ x.r.kind =
      .intent ∧ x.committed = true ∧ s.replays.any (fun y => y.intents.contains (tile, x.r.seq)) = false) ∧
    (∃ (s : State) (tile : Nat), running s = true ∧ tileUp s tile = true ∧ mramFailed s tile = false) ∧
    (∃ (s : State) (tile : Nat), running s = true ∧ tileUp s tile = true ∧ mramFailed s tile = false ∧ s.cmds = []) ∧
    (∃ (s : State) (u : State) (vol : Nat) (row : Nat), serving s = true ∧ tileUp s (homeTile s vol) = true ∧ s.hk.closing = false ∧
      (volCfg? s vol).isSome = true ∧ (s.cache.en = true ∨ askedFor s (homeTile s vol) vol (poolRowOf (volCfg s vol) row) =
      true) ∧ (urgentRow s (homeTile s vol) vol (poolRowOf (volCfg s vol) row) = true ∨ urgentReady s (homeTile s vol) = false)
      ∧ startDestage s (homeTile s vol) vol (poolRowOf (volCfg s vol) row) = some u) ∧
    (∃ (s : State) (u : State) (vol : Nat) (row : Nat), serving s = true ∧ tileUp s (homeTile s vol) = true ∧ s.hk.closing = false ∧
      (volCfg? s vol).isSome = true ∧ (s.cache.en = true ∨ askedFor s (homeTile s vol) vol (poolRowOf (volCfg s vol) row) =
      true) ∧ (urgentRow s (homeTile s vol) vol (poolRowOf (volCfg s vol) row) = true ∨ urgentReady s (homeTile s vol) = false)
      ∧ startDestage s (homeTile s vol) vol (poolRowOf (volCfg s vol) row) = some u) ∧
    (∃ (s : State) (u : State) (vol : Nat) (row : Nat), serving s = true ∧ tileUp s (homeTile s vol) = true ∧ s.hk.closing = false ∧
      (volCfg? s vol).isSome = true ∧ (s.cache.en = true ∨ askedFor s (homeTile s vol) vol (poolRowOf (volCfg s vol) row) =
      true) ∧ (urgentRow s (homeTile s vol) vol (poolRowOf (volCfg s vol) row) = true ∨ urgentReady s (homeTile s vol) = false)
      ∧ startDestage s (homeTile s vol) vol (poolRowOf (volCfg s vol) row) = some u) ∧
    (∃ (s : State) (u : State) (vol : Nat) (row : Nat), serving s = true ∧ tileUp s (homeTile s vol) = true ∧ s.hk.closing = false ∧
      (volCfg? s vol).isSome = true ∧ (s.cache.en = true ∨ askedFor s (homeTile s vol) vol (poolRowOf (volCfg s vol) row) =
      true) ∧ (urgentRow s (homeTile s vol) vol (poolRowOf (volCfg s vol) row) = true ∨ urgentReady s (homeTile s vol) = false)
      ∧ startDestage s (homeTile s vol) vol (poolRowOf (volCfg s vol) row) = some u) ∧
    (∃ (s : State) (t : Nat) (vol : Nat) (row : Nat) (src : CRow), destaging s vol row = false ∧ (getPool s (volCfg s vol).pool).st
      ≠ .offline ∧ isBroken s (volCfg s vol).pool row = false ∧ (getPool s (volCfg s vol).pool).interlocks.contains row = false
      ∧ recoveringMask (getTile s t).tier vol row = 0 ∧ destageSource (getTile s t).tier vol row = some src ∧ (destageData s t
      vol row src).1 ≠ 0) ∧
    (∃ (s : State) (vol : Nat) (row : Nat) (src : CRow), serving s = true ∧ tileUp s (homeTile s vol) = true ∧ s.hk.closing = false
      ∧ (volCfg? s vol).isSome = true ∧ s.cache.en = true ∧ urgentReady s (homeTile s vol) = false ∧ destaging s vol (poolRowOf
      (volCfg s vol) row) = false ∧ (getPool s (volCfg s vol).pool).st ≠ .offline ∧ isBroken s (volCfg s vol).pool (poolRowOf
      (volCfg s vol) row) = false ∧ (getPool s (volCfg s vol).pool).interlocks.contains (poolRowOf (volCfg s vol) row) = false ∧
      recoveringMask (getTile s (homeTile s vol)).tier vol (poolRowOf (volCfg s vol) row) = 0 ∧ destageSource (getTile s
      (homeTile s vol)).tier vol (poolRowOf (volCfg s vol) row) = some src ∧ (destageData s (homeTile s vol) vol (poolRowOf
      (volCfg s vol) row) src).1 ≠ 0) ∧
    (∃ (s : State) (vol : Nat) (row : Nat), urgentRow s (homeTile s vol) vol (poolRowOf (volCfg s vol) row) = false ∧ urgentReady s
      (homeTile s vol) = true) ∧
    (∃ (s : State) (d : Nat) (x : Destage), running s = true ∧ getDestage? s d = some x ∧ x.issued = true ∧ x.writes = []) ∧
    (∃ (s : State) (pool : Nat) (tile : Nat), serving s = true ∧ tileUp s (hostOf s tile) = true ∧ (getPool s pool).recopying =
      [tile] ∧ (getPool s pool).mirrorLost.length = 1 ∧ s.mcmds = [] ∧ moveWaits s (hostOf s tile) pool = false ∧ (getTile s
      (hostOf s tile)).amber.fits 64 = true) ∧
    (∃ (s : State) (pool : Nat) (tile : Nat), serving s = true ∧ tileUp s (hostOf s tile) = true ∧ (getPool s
      pool).recopying.contains tile = true ∧ ((getPool s pool).recopying.filter (· != tile)) ≠ [] ∧ (getPool s
      pool).mirrorLost.length = 1 ∧ (∀ m ∈ s.mcmds, ∀ a b, m.purpose ≠ .recopyRead pool tile a b ∧ m.purpose ≠ .recopyWrite pool
      tile a) ∧ moveWaits s (hostOf s tile) pool = false ∧ (getTile s (hostOf s tile)).amber.fits 64 = true) := by
  refine ⟨?_, ?_, ?_, ?_, ?_, ?_, ?_, ?_, ?_, ?_, ?_, ?_, ?_, ?_, ?_, ?_⟩
  · exact ⟨ringOf {} [ring0], 0, 0, ring0, by decide +kernel⟩
  · exact ⟨ringOf {} [{ ring0 with origin := some (0, 1, 2) }], 0, 0, 0, 1, 2, { ring0 with origin := some (0, 1, 2) }, by decide +kernel⟩
  · exact ⟨{ served with tiles := [(0, { amber := { recs := [{ r := { kind := .intent, epoch := 32768, vol := 0, row := 0, seq := 0, slotMask := 1, blockMask := 1 }, off := 64, partnerWait := true, own := true, mirror := true }], nextSeq := 1 } }), (1, {}), (2, {}), (3, {}), (4, {}), (5, {}), (6, {}), (7, {})] }, 0, 0, { r := { kind := .intent, epoch := 32768, vol := 0, row := 0, seq := 0, slotMask := 1, blockMask := 1 }, off := 64, partnerWait := true, own := true, mirror := true }, by decide +kernel⟩
  · exact ⟨ringOf {} [{ ring0 with r := { intent0 with payloadBlocks := 40000 }, committed := true }], 0, { ring0 with r := { intent0 with payloadBlocks := 40000 }, committed := true }, [], by decide +kernel⟩
  · exact ⟨up, 1, by decide +kernel⟩
  · exact ⟨up, 1, by decide +kernel⟩
  · exact ⟨ringOf { lines := [(0, { st := .dirty, c := row0 })] } [{ ring0 with r := { intent0 with payloadBlocks := 40000 }, committed := true }], (startDestage (ringOf { lines := [(0, { st := .dirty, c := row0 })] } [{ ring0 with r := { intent0 with payloadBlocks := 40000 }, committed := true }]) 0 0 0).getD up, 0, 0, by decide +kernel⟩
  · exact ⟨tiled linked { tier := { lines := [(0, { st := .dirty, c := row0 })] } }, (startDestage (tiled linked { tier := { lines := [(0, { st := .dirty, c := row0 })] } }) 0 0 0).getD up, 0, 0, by decide +kernel⟩
  · exact ⟨{ ringOf { lines := [(0, { st := .dirty, c := row0 })] } [{ ring0 with r := { intent0 with payloadBlocks := 40000 }, committed := true }] with cache := { en := false, disabling := some 0 } }, (startDestage ({ ringOf { lines := [(0, { st := .dirty, c := row0 })] } [{ ring0 with r := { intent0 with payloadBlocks := 40000 }, committed := true }] with cache := { en := false, disabling := some 0 } }) 0 0 0).getD up, 0, 0, by decide +kernel⟩
  · exact ⟨{ tiled linked { tier := { lines := [(0, { st := .dirty, c := row0 })] } } with cache := { en := false, disabling := some 0 } }, (startDestage ({ tiled linked { tier := { lines := [(0, { st := .dirty, c := row0 })] } } with cache := { en := false, disabling := some 0 } }) 0 0 0).getD up, 0, 0, by decide +kernel⟩
  · exact ⟨tiled linked { tier := { lines := [(0, { st := .dirty, c := row0 })] } }, 0, 0, 0, row0, by decide +kernel⟩
  · exact ⟨tiled linked { tier := { lines := [(0, { st := .dirty, c := row0 })] } }, 0, 0, row0, by decide +kernel⟩
  · exact ⟨ringOf { lines := [(0, { st := .dirty, c := row0 })] } [{ ring0 with r := { intent0 with payloadBlocks := 40000 }, committed := true }], 0, 7, by decide +kernel⟩
  · exact ⟨{ served with destages := [destage0] }, 4, destage0, by decide +kernel⟩
  · exact ⟨{ served with pools := [(0, { st := .running, recopying := [0], mirrorLost := [3] })] }, 0, 0, by decide +kernel⟩
  · exact ⟨{ served with pools := [(0, { st := .running, recopying := [0, 1], mirrorLost := [3] })] }, 0, 0, by decide +kernel, by decide +kernel, by decide +kernel, by decide +kernel, by decide +kernel, by simp [served, up, State.reset], by decide +kernel⟩

theorem witness_MemberRows :
    (∃ (s : State) (m : Nat) (x : MCmd) (st : NvmeStatus) (data : Mem), running s = true ∧ getMCmd? s m = some x ∧ outstanding x =
      true ∧ hasPath s x.member = true) ∧
    (∃ (s : State) (m : Nat) (st : NvmeStatus), st ≠ .success ∧ st ≠ .dataDigest ∧ adminUp s m = true) ∧
    (∃ (s : State) (m : Nat) (x : MCmd), running s = true ∧ getMCmd? s m = some x ∧ outstanding x = true ∧ (x.op != .read &&
      x.reissued && x.late) = false) ∧
    (∃ (s : State) (m : Nat) (x : MCmd), running s = true ∧ getMCmd? s m = some x ∧ x.op = .read ∧ x.pipe = .host ∧ outstanding x =
      true ∧ x.late = false ∧ (∀ f pos, x.purpose ≠ .fetch f pos)) ∧
    (∃ (s : State) (m : Nat) (f : Nat) (pos : Nat) (x : MCmd), running s = true ∧ getMCmd? s m = some x ∧ x.op = .read ∧ x.pipe =
      .host ∧ outstanding x = true ∧ x.late = false ∧ x.purpose = .fetch f pos) ∧
    (∃ (s : State) (member : Nat), serving s = true ∧ (poolOfMember s member).isSome = true ∧ hasPath s member = false ∧
      memberFailed s member = false) ∧
    (∃ (s : State) (member : Nat) (w : Byte), serving s = true ∧ w.getLsbD 3 = false ∧ adminUp s member = true) ∧
    (∃ (s : State) (member : Nat) (w : Byte), serving s = true ∧ w.getLsbD 3 = true ∧ adminUp s member = true) ∧
    (∃ (s : State) (member : Nat), running s = true ∧ adminUp s member = true) ∧
    (∃ (s : State) (member : Nat) (tile : Nat) (admin : Bool) (why : BreakCause) (q : Queue), running s = true ∧ getQueue? s member
      tile admin = some q ∧ q.connected = true) ∧
    (∃ (s : State) (member : Nat) (tile : Nat) (pool : Nat) (p : Nat), fwUp s = true ∧ tileUp s tile = true ∧ poolOfMember s member
      = some pool ∧ tile = (getPool s pool).tile ∧ memberFailed s member = false ∧ (getMember s member).unusable = false ∧
      getQueue? s member tile true = none ∧ pathFor s tile pool = some p) ∧
    (∃ (s : State) (member : Nat) (tile : Nat) (pool : Nat) (p : Nat), fwUp s = true ∧ tileUp s tile = true ∧ poolOfMember s member
      = some pool ∧ (getMember s member).identified = true ∧ ((getMember s member).queues.filter (fun q => !q.admin && q.tile !=
      tile)).length < min 8 (getMember s member).granted ∧ memberFailed s member = false ∧ (getMember s member).unusable = false
      ∧ getQueue? s member tile false = none ∧ pathFor s tile pool = some p) ∧
    (∃ (s : State) (member : Nat) (tile : Nat) (pool : Nat) (p : Nat) (q : Queue) (st : QueueStep), fwUp s = true ∧ tileUp s tile =
      true ∧ poolOfMember s member = some pool ∧ tile = (getPool s pool).tile ∧ memberFailed s member = false ∧ (getMember s
      member).unusable = false ∧ getQueue? s member tile true = some q ∧ q.connected = false ∧ pathFor s tile pool = some p) ∧
    (∃ (s : State) (member : Nat) (tile : Nat) (pool : Nat) (p : Nat) (q : Queue) (h : Bool) (d : Bool) (n : Nat), fwUp s = true ∧
      tileUp s tile = true ∧ poolOfMember s member = some pool ∧ tile = (getPool s pool).tile ∧ memberFailed s member = false ∧
      (getMember s member).unusable = false ∧ getQueue? s member tile true = some q ∧ q.connected = false ∧ q.step = 1 ∧ pathFor
      s tile pool = some p ∧ (h && d) = false) ∧
    (∃ (s : State) (member : Nat) (tile : Nat) (pool : Nat) (p : Nat) (q : Queue), running s = true ∧ tileUp s tile = true ∧
      poolOfMember s member = some pool ∧ getQueue? s member tile false = some q ∧ q.connected = false ∧ q.step = 0 ∧
      memberFailed s member = false ∧ nextPath s tile pool q.port = some p) ∧
    (∃ (s : State) (m : Nat) (x : MCmd), running s = true ∧ getMCmd? s m = some x ∧ x.retrying = true) ∧
    (∃ (s : State) (pool : Nat), fwUp s = true ∧ (getPool s pool).st = .initialising ∧ (getPool s pool).init = true ∧ (getPool s
      pool).initWork = [] ∧ s.mcmds.any (fun m => m.purpose == .initZero pool) = false) ∧
    (∃ (s : State) (pool : Nat) (x : Nat), fwUp s = true ∧ (getPool s pool).zeroing.contains x = true ∧ extentStrips s pool ≤
      Tab.getD (getPool s pool).zeroNext x 0 ∧ s.mcmds.any (fun m => m.purpose == .extentZero pool x) = false) := by
  refine ⟨?_, ?_, ?_, ?_, ?_, ?_, ?_, ?_, ?_, ?_, ?_, ?_, ?_, ?_, ?_, ?_, ?_, ?_⟩
  · exact ⟨{ linked with mcmds := [read0] }, 5, read0, .success, [], by decide +kernel⟩
  · exact ⟨linked, 0, .mediaError, by decide +kernel⟩
  · exact ⟨{ linked with mcmds := [read0] }, 5, read0, by decide +kernel⟩
  · exact ⟨{ linked with mcmds := [read0] }, 5, read0, by decide +kernel, by decide +kernel, by decide +kernel, by decide +kernel, by decide +kernel, by decide +kernel, by intro f pos; simp [read0]⟩
  · exact ⟨{ linked with mcmds := [{ read0 with purpose := .fetch 9 0 }] }, 5, 9, 0, { read0 with purpose := .fetch 9 0 }, by decide +kernel⟩
  · exact ⟨served, 2, by decide +kernel⟩
  · exact ⟨linked, 0, 0, by decide +kernel⟩
  · exact ⟨linked, 0, 8, by decide +kernel⟩
  · exact ⟨linked, 0, by decide +kernel⟩
  · exact ⟨linked, 0, 0, false, .reset, { tile := 0, admin := false, connected := true }, by decide +kernel⟩
  · exact ⟨{ linked with members := [(0, { queues := [] })] }, 0, 0, 0, 0, by decide +kernel⟩
  · exact ⟨{ linked with members := [(0, { identified := true, queues := [{ tile := 0, admin := true, connected := true }] })] }, 0, 0, 0, 0, by decide +kernel⟩
  · exact ⟨{ linked with members := [(0, { queues := [{ tile := 0, admin := true, step := 1 }] })] }, 0, 0, 0, 0, { tile := 0, admin := true, step := 1 }, .icResp true true 4096, by decide +kernel⟩
  · exact ⟨{ linked with members := [(0, { queues := [{ tile := 0, admin := true, step := 1 }] })] }, 0, 0, 0, 0, { tile := 0, admin := true, step := 1 }, true, false, 4096, by decide +kernel⟩
  · exact ⟨{ linked with members := [(0, { queues := [{ tile := 0, admin := false }] })] }, 0, 0, 0, 0, { tile := 0, admin := false }, by decide +kernel⟩
  · exact ⟨{ linked with mcmds := [{ read0 with retrying := true }] }, 5, { read0 with retrying := true }, by decide +kernel⟩
  · exact ⟨{ served with pools := [(0, { st := .initialising, init := true })] }, 0, by decide +kernel⟩
  · exact ⟨{ served with pools := [(0, { st := .running, zeroing := [3], zeroNext := [(3, 1000000)] })] }, 0, 3, by decide +kernel⟩

theorem witness_RebuildRows :
    (∃ (s : State) (pool : Nat) (cls : Nat), serving s = true ∧ nextWork s = some (cls, pool)) ∧
    (∃ (s : State) (pool : Nat) (cls : Nat), serving s = true ∧ nextWork s = some (cls, pool) ∧ heldNext s pool cls = none ∧
      classReady s pool cls = true ∧ 0 < s.budget.r.getD 0 0 ∧ (volOfRow s pool (classCursor (getPool s pool) cls)).isSome =
      true ∧ cls < 2) ∧
    (∃ (s : State) (pool : Nat) (cls : Nat) (m : MCmd), serving s = true ∧ nextWork s = some (cls, pool) ∧ heldNext s pool cls =
      some m) ∧
    (∃ (s : State) (pool : Nat) (row : Nat), serving s = true ∧ (getPool s pool).interlockWait.contains row = true ∧ destaging s
      (rowVol s pool row) row = false ∧ (getPool s pool).work = none ∧ (getPool s pool).copyWork = none ∧ (getPool s
      pool).scrubWork = none ∧ (getPool s pool).repairs = [] ∧ rowBusy s pool row = true) ∧
    (∃ (s : State) (pool : Nat) (row : Nat), serving s = true ∧ (getPool s pool).interlockWait.contains row = true ∧ destaging s
      (rowVol s pool row) row = false ∧ (getPool s pool).work = none ∧ (getPool s pool).copyWork = none ∧ (getPool s
      pool).scrubWork = none ∧ (getPool s pool).repairs = [] ∧ rowBusy s pool row = false ∧ (getPool s pool).salvages = []) ∧
    (∃ (s : State) (pool : Nat) (row : Nat), destaging s (rowVol s pool row) row = true) ∧
    (∃ (s : State) (pool : Nat) (w : RowWork), serving s = true ∧ (getPool s pool).work = some w ∧ w.issued = true ∧ w.writes = [] ∧
      resyncing s pool w.row = false) ∧
    (∃ (s : State) (pool : Nat) (row : Nat), (getPool s pool).salvages = []) ∧
    (∃ (s : State) (pool : Nat), serving s = true ∧ (getPool s pool).cursorsMoved = true) ∧
    (∃ (s : State) (pool : Nat) (ix : Nat) (m : Nat) (w : RowWork), serving s = true ∧ (getPool s pool).copyWork = some w ∧ (getPool
      s pool).copy = some (ix, m) ∧ w.issued = true ∧ w.writes = [] ∧ resyncing s pool w.row = false ∧ (getPool s pool).salvages
      = [] ∧ (getPool s pool).copyCursor + 1 < (poolCfg s pool).poolRows) ∧
    (∃ (s : State) (pool : Nat) (ix : Nat) (m : Nat) (w : RowWork), serving s = true ∧ (getPool s pool).copyWork = some w ∧ (getPool
      s pool).copy = some (ix, m) ∧ w.issued = true ∧ w.writes = [] ∧ resyncing s pool w.row = false ∧ (getPool s pool).salvages
      = [] ∧ (poolCfg s pool).poolRows ≤ (getPool s pool).copyCursor + 1) ∧
    (∃ (s : State) (pool : Nat), serving s = true ∧ scrubOn s pool = true ∧ (getPool s pool).scrubWork = none ∧ skipRow s pool
      (getPool s pool).scrubCursor = true ∧ destaging s (rowVol s pool (getPool s pool).scrubCursor) (getPool s
      pool).scrubCursor = false ∧ (getPool s pool).interlocks.contains (getPool s pool).scrubCursor = false ∧ unsynced s pool
      (getPool s pool).scrubCursor = false) ∧
    (∃ (s : State) (pool : Nat) (f : Nat) (w : RowWork) (x : Fetch), serving s = true ∧ (getPool s pool).scrubWork = some w ∧
      w.fetch = some f ∧ getFetch? s f = some x ∧ fetchReady s x = true) ∧
    (∃ (s : State) (pool : Nat) (port : Nat), serving s = true ∧ s.hk.closing = false ∧ (getTest s 2 pool).st = 1 ∧ (getTest s 2
      pool).row < (poolCfg s pool).poolRows ∧ (memberLinks s (tileOfPort port) pool).contains port = true ∧ s.mcmds.any (fun m
      => m.throttled && m.pipe != .verify && onPort s port m) = false ∧ 0 < s.budget.v.getD 0 0 ∧ (getTest s 2 pool).fetch =
      none ∧ destaging s (rowVol s pool (getTest s 2 pool).row) (getTest s 2 pool).row = false ∧ (getPool s
      pool).interlocks.contains (getTest s 2 pool).row = false) ∧
    (∃ (s : State) (pool : Nat) (port : Nat), serving s = true ∧ s.hk.closing = false ∧ (getTest s 2 pool).st = 1 ∧ (getTest s 2
      pool).row < (poolCfg s pool).poolRows ∧ (memberLinks s (tileOfPort port) pool).contains port = true ∧ s.mcmds.any (fun m
      => m.throttled && m.pipe != .verify && onPort s port m) = false ∧ 0 < s.budget.v.getD 0 0 ∧ (getTest s 2
      pool).fetch.isSome = true) := by
  refine ⟨?_, ?_, ?_, ?_, ?_, ?_, ?_, ?_, ?_, ?_, ?_, ?_, ?_, ?_, ?_⟩
  · exact ⟨{ linked with pools := [(0, { st := .running, pstate := 2 })], budget := { r := [10000000, 10000000], v := [10000000, 10000000] } }, 0, 1, by decide +kernel⟩
  · exact ⟨{ linked with pools := [(0, { st := .running, pstate := 2 })], budget := { r := [10000000, 10000000], v := [10000000, 10000000] } }, 0, 1, by decide +kernel⟩
  · exact ⟨{ linked with pools := [(0, { st := .running, pstate := 2 })], budget := { r := [10000000, 10000000], v := [10000000, 10000000] }, mcmds := [{ read0 with pipe := .rebuild, cls := 1, throttled := true }] }, 0, 1, { read0 with pipe := .rebuild, cls := 1, throttled := true }, by decide +kernel⟩
  · exact ⟨{ linked with pools := [(0, { st := .running, interlockWait := [3] })], mcmds := [{ read0 with op := .write, purpose := .repair 0 3 1 }] }, 0, 3, by decide +kernel⟩
  · exact ⟨{ served with pools := [(0, { st := .running, interlockWait := [3] })] }, 0, 3, by decide +kernel⟩
  · exact ⟨{ served with destages := [destage0] }, 0, 0, by decide +kernel⟩
  · exact ⟨{ served with pools := [(0, { st := .running, pstate := 1, work := some { row := 3, issued := true } })] }, 0, { row := 3, issued := true }, by decide +kernel⟩
  · exact ⟨served, 0, 3, by decide +kernel⟩
  · exact ⟨{ linked with pools := [(0, { st := .running, cursorsMoved := true })] }, 0, by decide +kernel⟩
  · exact ⟨{ served with pools := [(0, { st := .running, copy := some (0, 7), copyWork := some { row := 3, issued := true } })] }, 0, 0, 7, { row := 3, issued := true }, by decide +kernel⟩
  · exact ⟨{ served with pools := [(0, { st := .running, copyCursor := 8191, copy := some (0, 7), copyWork := some { row := 3, issued := true } })] }, 0, 0, 7, { row := 3, issued := true }, by decide +kernel⟩
  · exact ⟨{ ringOf {} [ring0] with pools := [(0, { st := .running, scrubbing := true })] }, 0, by decide +kernel⟩
  · exact ⟨{ served with pools := [(0, { st := .running, scrubbing := true, scrubWork := some { row := 3, fetch := some 9 } })], fetches := [{ id := 9, pool := 0, row := 3, vol := 0, cols := 15, want := [], dest := .scrub 0 }] }, 0, 9, { row := 3, fetch := some 9 }, { id := 9, pool := 0, row := 3, vol := 0, cols := 15, want := [], dest := .scrub 0 }, by decide +kernel⟩
  · exact ⟨{ linked with tests := [((2, 0), { st := 1 })], budget := { r := [10000000, 10000000], v := [10000000, 10000000] } }, 0, 0, by decide +kernel⟩
  · exact ⟨{ linked with tests := [((2, 0), { st := 1, fetch := some 9 })], budget := { r := [10000000, 10000000], v := [10000000, 10000000] } }, 0, 0, by decide +kernel⟩

theorem witness_TierRows :
    (∃ (s : State) (tile : Nat) (line : Nat) (l : Line), running s = true ∧ tileUp s tile = true ∧ Tab.get? (getTile s
      tile).tier.lines line = some l ∧ l.st = .filling ∧ (∀ f ∈ l.fetches, ∃ x, getFetch? s f = some x ∧ fetchReady s x = true)) ∧
    (∃ (s : State) (id : Nat) (part : Nat) (c : Cmd) (p : RowPart), serving s = true ∧ getCmd? s id = some c ∧ c.parts[part]? = some
      p ∧ tileUp s c.home = true ∧ c.phase = .locked ∧ p.waiting = true ∧ lineAhead s c = false ∧ isReadOp c.op = true) ∧
    (∃ (s : State) (id : Nat) (part : Nat) (c : Cmd) (p : RowPart), serving s = true ∧ getCmd? s id = some c ∧ c.parts[part]? = some
      p ∧ tileUp s c.home = true ∧ c.phase = .locked ∧ p.waiting = true ∧ lineAhead s c = false ∧ isReadOp c.op = false ∧
      p.intent.isSome = true) ∧
    (∃ (s : State) (tile : Nat) (e : Nat) (c : CRow) (t' : Tier), serving s = true ∧ tileUp s tile = true ∧ Tab.get? (getTile s
      tile).tier.evb e = some c ∧ insertSlot (getTile s tile).tier c = some t') ∧
    (∃ (s : State) (tile : Nat) (e : Nat) (c : CRow), serving s = true ∧ tileUp s tile = true ∧ Tab.get? (getTile s tile).tier.evb e
      = some c ∧ (bucketSlots (getTile s tile).tier c.vol c.row).length < 4 ∧ (freeStoreSlot (getTile s tile).tier).isSome =
      true) ∧
    (∃ (s : State) (tile : Nat) (e : Nat) (l : Line) (t' : Tier), serving s = true ∧ tileUp s tile = true ∧ Tab.get? (getTile s
      tile).tier.evb e = none ∧ (getTile s tile).tier.leaving.contains e = true ∧ Tab.get? (getTile s tile).tier.lines e = some
      l ∧ l.st ≠ .filling ∧ l.st ≠ .writing ∧ insertSlot (getTile s tile).tier l.c = some t') ∧
    (∃ (s : State) (tile : Nat) (e : Nat) (c : CRow) (sl : Slot), serving s = true ∧ tileUp s tile = true ∧ s.cache.en = true ∧
      Tab.get? (getTile s tile).tier.evb e = some c ∧ insertSlot (getTile s tile).tier c = none ∧ oldestDirty (bucketSlots
      (getTile s tile).tier c.vol c.row) = some sl ∧ sl.st = 2) ∧
    (∃ (s : State) (tile : Nat), running s = true ∧ tileUp s tile = true ∧ (getTile s tile).tier.evmodeWait = true ∧ (getTile s
      tile).tier.evb = []) ∧
    (∃ (s : State) (tile : Nat), serving s = true ∧ tileUp s tile = true ∧ (getTile s tile).tier.sweeping = true ∧ s.cache.en =
      false) ∧
    (∃ (s : State) (u : State) (tile : Nat) (line : Nat) (cause : Nat) (word : Nat), retireLine s tile line cause word = some u) ∧
    (∃ (s : State) (tile : Nat) (line : Nat) (word : Nat), running s = true ∧ tileUp s tile = true ∧ line < 64 ∧ lineRetired
      (getTile s tile).tier line = false ∧ Tab.get? (getTile s tile).tier.lines line = none) ∧
    (∃ (s : State) (tile : Nat) (e : Nat) (x : SideEnt), running s = true ∧ tileUp s tile = true ∧ e < 8 ∧ Tab.get? (getTile s
      tile).tier.lines (64 + e) = none ∧ Tab.get? (getTile s tile).tier.side e = some x ∧ x.filling = true ∧ x.fetches = [] ∧
      s.maints = []) := by
  refine ⟨?_, ?_, ?_, ?_, ?_, ?_, ?_, ?_, ?_, ?_, ?_, ?_⟩
  · exact ⟨{ served with tiles := [(0, { tier := { lines := [(0, { st := .filling, c := { vol := 0, row := 0 } })] } }), (1, {}), (2, {}), (3, {}), (4, {}), (5, {}), (6, {}), (7, {})] }, 0, 0, { st := .filling, c := { vol := 0, row := 0 } }, by decide +kernel⟩
  · exact ⟨{ served with cmds := [{ id := 1, src := .ring 9, rx := 0, op := .read, vol := 0, lba := 0, len := 1, phase := .locked, parts := [{ q := 0, row := 0, first := 0, count := 1, waiting := true }] }] }, 1, 0, { id := 1, src := .ring 9, rx := 0, op := .read, vol := 0, lba := 0, len := 1, phase := .locked, parts := [{ q := 0, row := 0, first := 0, count := 1, waiting := true }] }, { q := 0, row := 0, first := 0, count := 1, waiting := true }, by decide +kernel⟩
  · exact ⟨{ served with cmds := [{ id := 1, src := .ring 9, rx := 0, op := .write, vol := 0, lba := 0, len := 1, phase := .locked, parts := [{ q := 0, row := 0, first := 0, count := 1, waiting := true, intent := some 0 }] }] }, 1, 0, { id := 1, src := .ring 9, rx := 0, op := .write, vol := 0, lba := 0, len := 1, phase := .locked, parts := [{ q := 0, row := 0, first := 0, count := 1, waiting := true, intent := some 0 }] }, { q := 0, row := 0, first := 0, count := 1, waiting := true, intent := some 0 }, by decide +kernel⟩
  · exact ⟨{ served with tiles := [(0, { tier := { evb := [(2, { vol := 0, row := 0 })] } }), (1, {}), (2, {}), (3, {}), (4, {}), (5, {}), (6, {}), (7, {})] }, 0, 2, { vol := 0, row := 0 }, (insertSlot { evb := [(2, { vol := 0, row := 0 })] } { vol := 0, row := 0 }).getD {}, by decide +kernel⟩
  · exact ⟨tiled served { tier := { evb := [(2, row0)] } }, 0, 2, row0, by decide +kernel⟩
  · exact ⟨tiled served { tier := { lines := [(2, { st := .dirty, c := row0 })], leaving := [2] } }, 0, 2, { st := .dirty, c := row0 }, (insertSlot { lines := [(2, { st := .dirty, c := row0 })], leaving := [2] } row0).getD {}, by decide +kernel⟩
  · exact ⟨tiled served full0, 0, 2, row0, slot0 0, by decide +kernel⟩
  · exact ⟨{ served with tiles := [(0, { tier := { evmodeWait := true } }), (1, {}), (2, {}), (3, {}), (4, {}), (5, {}), (6, {}), (7, {})] }, 0, by decide +kernel⟩
  · exact ⟨{ served with cache := { en := false }, tiles := [(0, { tier := { sweeping := true, store := [(0, { c := { vol := 0, row := 0 }, age := 3 })] } }), (1, {}), (2, {}), (3, {}), (4, {}), (5, {}), (6, {}), (7, {})] }, 0, by decide +kernel⟩
  · exact ⟨served, (retireLine served 0 5 3 0).getD up, 0, 5, 3, 0, by decide +kernel⟩
  · exact ⟨served, 0, 63, 0, by decide +kernel⟩
  · exact ⟨{ served with tiles := [(0, { tier := { side := [(1, { filling := true, c := { vol := 0, row := 0 } })] } }), (1, {}), (2, {}), (3, {}), (4, {}), (5, {}), (6, {}), (7, {})] }, 0, 1, { filling := true, c := { vol := 0, row := 0 } }, by decide +kernel⟩

theorem witness_MaintenanceRows :
    (∃ (s : State) (op : Nat) (mk : MaintSrc → MaintArgs → Instr) (a : MaintArgs) (e : Nat) (l : Live), (op = 0 ∧ mk = .zeroLine ∨
      op = 1 ∧ mk = .invalKey ∨ op = 2 ∧ mk = .invalRange ∨ op = 3 ∧ mk = .cleanKey ∨ op = 4 ∧ mk = .cleanRange ∨ op = 5 ∧ mk =
      .lock ∨ op = 6 ∧ mk = .unlock ∨ op = 7 ∧ mk = .invalAll) ∧ serving s = true ∧ getLive? s e = some l ∧ l.started = false ∧
      l.outcome = none ∧ l.opc = 0x20 ∧ parseMaint l.bytes = (op, a)) ∧
    (∃ (s : State) (op : Nat) (mk : MaintSrc → MaintArgs → Instr) (a : MaintArgs) (e : Nat) (l : Live), (op = 0 ∧ mk = .zeroLine ∨
      op = 1 ∧ mk = .invalKey ∨ op = 2 ∧ mk = .invalRange ∨ op = 3 ∧ mk = .cleanKey ∨ op = 4 ∧ mk = .cleanRange ∨ op = 5 ∧ mk =
      .lock ∨ op = 6 ∧ mk = .unlock ∨ op = 7 ∧ mk = .invalAll) ∧ serving s = true ∧ getLive? s e = some l ∧ l.started = false ∧
      l.outcome = none ∧ l.opc = 0x20 ∧ parseMaint l.bytes = (op, a)) ∧
    (∃ (s : State) (op : Nat) (mk : MaintSrc → MaintArgs → Instr) (a : MaintArgs) (e : Nat) (l : Live), (op = 0 ∧ mk = .zeroLine ∨
      op = 1 ∧ mk = .invalKey ∨ op = 2 ∧ mk = .invalRange ∨ op = 3 ∧ mk = .cleanKey ∨ op = 4 ∧ mk = .cleanRange ∨ op = 5 ∧ mk =
      .lock ∨ op = 6 ∧ mk = .unlock ∨ op = 7 ∧ mk = .invalAll) ∧ serving s = true ∧ getLive? s e = some l ∧ l.started = false ∧
      l.outcome = none ∧ l.opc = 0x20 ∧ parseMaint l.bytes = (op, a)) ∧
    (∃ (s : State) (op : Nat) (mk : MaintSrc → MaintArgs → Instr) (a : MaintArgs) (e : Nat) (l : Live), (op = 0 ∧ mk = .zeroLine ∨
      op = 1 ∧ mk = .invalKey ∨ op = 2 ∧ mk = .invalRange ∨ op = 3 ∧ mk = .cleanKey ∨ op = 4 ∧ mk = .cleanRange ∨ op = 5 ∧ mk =
      .lock ∨ op = 6 ∧ mk = .unlock ∨ op = 7 ∧ mk = .invalAll) ∧ serving s = true ∧ getLive? s e = some l ∧ l.started = false ∧
      l.outcome = none ∧ l.opc = 0x20 ∧ parseMaint l.bytes = (op, a)) ∧
    (∃ (s : State) (op : Nat) (mk : MaintSrc → MaintArgs → Instr) (a : MaintArgs) (e : Nat) (l : Live), (op = 0 ∧ mk = .zeroLine ∨
      op = 1 ∧ mk = .invalKey ∨ op = 2 ∧ mk = .invalRange ∨ op = 3 ∧ mk = .cleanKey ∨ op = 4 ∧ mk = .cleanRange ∨ op = 5 ∧ mk =
      .lock ∨ op = 6 ∧ mk = .unlock ∨ op = 7 ∧ mk = .invalAll) ∧ serving s = true ∧ getLive? s e = some l ∧ l.started = false ∧
      l.outcome = none ∧ l.opc = 0x20 ∧ parseMaint l.bytes = (op, a)) ∧
    (∃ (s : State) (op : Nat) (mk : MaintSrc → MaintArgs → Instr) (a : MaintArgs) (e : Nat) (l : Live), (op = 0 ∧ mk = .zeroLine ∨
      op = 1 ∧ mk = .invalKey ∨ op = 2 ∧ mk = .invalRange ∨ op = 3 ∧ mk = .cleanKey ∨ op = 4 ∧ mk = .cleanRange ∨ op = 5 ∧ mk =
      .lock ∨ op = 6 ∧ mk = .unlock ∨ op = 7 ∧ mk = .invalAll) ∧ serving s = true ∧ getLive? s e = some l ∧ l.started = false ∧
      l.outcome = none ∧ l.opc = 0x20 ∧ parseMaint l.bytes = (op, a)) ∧
    (∃ (s : State) (op : Nat) (mk : MaintSrc → MaintArgs → Instr) (a : MaintArgs) (e : Nat) (l : Live), (op = 0 ∧ mk = .zeroLine ∨
      op = 1 ∧ mk = .invalKey ∨ op = 2 ∧ mk = .invalRange ∨ op = 3 ∧ mk = .cleanKey ∨ op = 4 ∧ mk = .cleanRange ∨ op = 5 ∧ mk =
      .lock ∨ op = 6 ∧ mk = .unlock ∨ op = 7 ∧ mk = .invalAll) ∧ serving s = true ∧ getLive? s e = some l ∧ l.started = false ∧
      l.outcome = none ∧ l.opc = 0x20 ∧ parseMaint l.bytes = (op, a)) ∧
    (∃ (s : State) (op : Nat) (mk : MaintSrc → MaintArgs → Instr) (a : MaintArgs) (e : Nat) (l : Live), (op = 0 ∧ mk = .zeroLine ∨
      op = 1 ∧ mk = .invalKey ∨ op = 2 ∧ mk = .invalRange ∨ op = 3 ∧ mk = .cleanKey ∨ op = 4 ∧ mk = .cleanRange ∨ op = 5 ∧ mk =
      .lock ∨ op = 6 ∧ mk = .unlock ∨ op = 7 ∧ mk = .invalAll) ∧ serving s = true ∧ getLive? s e = some l ∧ l.started = false ∧
      l.outcome = none ∧ l.opc = 0x20 ∧ parseMaint l.bytes = (op, a)) ∧
    (∃ (s : State) (op : Nat) (mk : MaintSrc → MaintArgs → Instr) (a : MaintArgs) (g : Go), (op = 0 ∧ mk = .zeroLine ∨ op = 1 ∧ mk =
      .invalKey ∨ op = 2 ∧ mk = .invalRange ∨ op = 3 ∧ mk = .cleanKey ∨ op = 4 ∧ mk = .cleanRange ∨ op = 5 ∧ mk = .lock ∨ op = 6
      ∧ mk = .unlock ∨ op = 7 ∧ mk = .invalAll) ∧ GoReady s g true 16 (if op = 7 then [] else [objVol a.vol]) ∧ s.phase = .ready
      ∧ maintFormBad op a = false ∧ (op = 7 → g.mb = 0) ∧ (op ≠ 7 → volExists s g.mb a.vol = true) ∧ maintBeyond s op a = false) ∧
    (∃ (s : State) (op : Nat) (mk : MaintSrc → MaintArgs → Instr) (a : MaintArgs) (g : Go), (op = 0 ∧ mk = .zeroLine ∨ op = 1 ∧ mk =
      .invalKey ∨ op = 2 ∧ mk = .invalRange ∨ op = 3 ∧ mk = .cleanKey ∨ op = 4 ∧ mk = .cleanRange ∨ op = 5 ∧ mk = .lock ∨ op = 6
      ∧ mk = .unlock ∨ op = 7 ∧ mk = .invalAll) ∧ GoReady s g true 16 (if op = 7 then [] else [objVol a.vol]) ∧ s.phase = .ready
      ∧ maintFormBad op a = false ∧ (op = 7 → g.mb = 0) ∧ (op ≠ 7 → volExists s g.mb a.vol = true) ∧ maintBeyond s op a = false) ∧
    (∃ (s : State) (op : Nat) (mk : MaintSrc → MaintArgs → Instr) (a : MaintArgs) (g : Go), (op = 0 ∧ mk = .zeroLine ∨ op = 1 ∧ mk =
      .invalKey ∨ op = 2 ∧ mk = .invalRange ∨ op = 3 ∧ mk = .cleanKey ∨ op = 4 ∧ mk = .cleanRange ∨ op = 5 ∧ mk = .lock ∨ op = 6
      ∧ mk = .unlock ∨ op = 7 ∧ mk = .invalAll) ∧ GoReady s g true 16 (if op = 7 then [] else [objVol a.vol]) ∧ s.phase = .ready
      ∧ maintFormBad op a = false ∧ (op = 7 → g.mb = 0) ∧ (op ≠ 7 → volExists s g.mb a.vol = true) ∧ maintBeyond s op a = false) ∧
    (∃ (s : State) (op : Nat) (mk : MaintSrc → MaintArgs → Instr) (a : MaintArgs) (g : Go), (op = 0 ∧ mk = .zeroLine ∨ op = 1 ∧ mk =
      .invalKey ∨ op = 2 ∧ mk = .invalRange ∨ op = 3 ∧ mk = .cleanKey ∨ op = 4 ∧ mk = .cleanRange ∨ op = 5 ∧ mk = .lock ∨ op = 6
      ∧ mk = .unlock ∨ op = 7 ∧ mk = .invalAll) ∧ GoReady s g true 16 (if op = 7 then [] else [objVol a.vol]) ∧ s.phase = .ready
      ∧ maintFormBad op a = false ∧ (op = 7 → g.mb = 0) ∧ (op ≠ 7 → volExists s g.mb a.vol = true) ∧ maintBeyond s op a = false) ∧
    (∃ (s : State) (op : Nat) (mk : MaintSrc → MaintArgs → Instr) (a : MaintArgs) (g : Go), (op = 0 ∧ mk = .zeroLine ∨ op = 1 ∧ mk =
      .invalKey ∨ op = 2 ∧ mk = .invalRange ∨ op = 3 ∧ mk = .cleanKey ∨ op = 4 ∧ mk = .cleanRange ∨ op = 5 ∧ mk = .lock ∨ op = 6
      ∧ mk = .unlock ∨ op = 7 ∧ mk = .invalAll) ∧ GoReady s g true 16 (if op = 7 then [] else [objVol a.vol]) ∧ s.phase = .ready
      ∧ maintFormBad op a = false ∧ (op = 7 → g.mb = 0) ∧ (op ≠ 7 → volExists s g.mb a.vol = true) ∧ maintBeyond s op a = false) ∧
    (∃ (s : State) (op : Nat) (mk : MaintSrc → MaintArgs → Instr) (a : MaintArgs) (g : Go), (op = 0 ∧ mk = .zeroLine ∨ op = 1 ∧ mk =
      .invalKey ∨ op = 2 ∧ mk = .invalRange ∨ op = 3 ∧ mk = .cleanKey ∨ op = 4 ∧ mk = .cleanRange ∨ op = 5 ∧ mk = .lock ∨ op = 6
      ∧ mk = .unlock ∨ op = 7 ∧ mk = .invalAll) ∧ GoReady s g true 16 (if op = 7 then [] else [objVol a.vol]) ∧ s.phase = .ready
      ∧ maintFormBad op a = false ∧ (op = 7 → g.mb = 0) ∧ (op ≠ 7 → volExists s g.mb a.vol = true) ∧ maintBeyond s op a = false) ∧
    (∃ (s : State) (op : Nat) (mk : MaintSrc → MaintArgs → Instr) (a : MaintArgs) (g : Go), (op = 0 ∧ mk = .zeroLine ∨ op = 1 ∧ mk =
      .invalKey ∨ op = 2 ∧ mk = .invalRange ∨ op = 3 ∧ mk = .cleanKey ∨ op = 4 ∧ mk = .cleanRange ∨ op = 5 ∧ mk = .lock ∨ op = 6
      ∧ mk = .unlock ∨ op = 7 ∧ mk = .invalAll) ∧ GoReady s g true 16 (if op = 7 then [] else [objVol a.vol]) ∧ s.phase = .ready
      ∧ maintFormBad op a = false ∧ (op = 7 → g.mb = 0) ∧ (op ≠ 7 → volExists s g.mb a.vol = true) ∧ maintBeyond s op a = false) ∧
    (∃ (s : State) (op : Nat) (mk : MaintSrc → MaintArgs → Instr) (a : MaintArgs) (g : Go), (op = 0 ∧ mk = .zeroLine ∨ op = 1 ∧ mk =
      .invalKey ∨ op = 2 ∧ mk = .invalRange ∨ op = 3 ∧ mk = .cleanKey ∨ op = 4 ∧ mk = .cleanRange ∨ op = 5 ∧ mk = .lock ∨ op = 6
      ∧ mk = .unlock ∨ op = 7 ∧ mk = .invalAll) ∧ GoReady s g true 16 (if op = 7 then [] else [objVol a.vol]) ∧ s.phase = .ready
      ∧ maintFormBad op a = false ∧ (op = 7 → g.mb = 0) ∧ (op ≠ 7 → volExists s g.mb a.vol = true) ∧ maintBeyond s op a = false) := by
  refine ⟨?_, ?_, ?_, ?_, ?_, ?_, ?_, ?_, ?_, ?_, ?_, ?_, ?_, ?_, ?_, ?_⟩
  · exact ⟨{ served with live := [{ id := 4, sq := 0, fn := 0, tag := 1, opc := 0x20, cpl := true, ord := false, index := 0, bytes := [32, 0, 0, 0, 0, 0, 0, 0, 0, 0, 0, 0, 0, 0, 0, 0, 0, 0, 0, 0, 0, 0, 0, 0, 0, 0, 0, 0, 0, 0, 0, 0, 0, 0, 0, 0, 0, 0, 0, 0, 0, 0, 0, 0, 0, 0, 0, 0, 0, 0, 0, 0, 0, 0, 0, 0, 0, 0, 0, 0, 0, 0, 0, 0] }] }, 0, Instr.zeroLine, { force := false, discard := false, vol := 0, first := 0, count := 0, reservedZero := true }, 4, { id := 4, sq := 0, fn := 0, tag := 1, opc := 0x20, cpl := true, ord := false, index := 0, bytes := [32, 0, 0, 0, 0, 0, 0, 0, 0, 0, 0, 0, 0, 0, 0, 0, 0, 0, 0, 0, 0, 0, 0, 0, 0, 0, 0, 0, 0, 0, 0, 0, 0, 0, 0, 0, 0, 0, 0, 0, 0, 0, 0, 0, 0, 0, 0, 0, 0, 0, 0, 0, 0, 0, 0, 0, 0, 0, 0, 0, 0, 0, 0, 0] }, by simp, by decide +kernel⟩
  · exact ⟨{ served with live := [{ id := 4, sq := 0, fn := 0, tag := 1, opc := 0x20, cpl := true, ord := false, index := 0, bytes := [32, 0, 0, 0, 0, 0, 0, 0, 1, 0, 0, 0, 0, 0, 0, 0, 0, 0, 0, 0, 0, 0, 0, 0, 0, 0, 0, 0, 0, 0, 0, 0, 0, 0, 0, 0, 0, 0, 0, 0, 0, 0, 0, 0, 0, 0, 0, 0, 0, 0, 0, 0, 0, 0, 0, 0, 0, 0, 0, 0, 0, 0, 0, 0] }] }, 1, Instr.invalKey, { force := false, discard := false, vol := 0, first := 0, count := 0, reservedZero := true }, 4, { id := 4, sq := 0, fn := 0, tag := 1, opc := 0x20, cpl := true, ord := false, index := 0, bytes := [32, 0, 0, 0, 0, 0, 0, 0, 1, 0, 0, 0, 0, 0, 0, 0, 0, 0, 0, 0, 0, 0, 0, 0, 0, 0, 0, 0, 0, 0, 0, 0, 0, 0, 0, 0, 0, 0, 0, 0, 0, 0, 0, 0, 0, 0, 0, 0, 0, 0, 0, 0, 0, 0, 0, 0, 0, 0, 0, 0, 0, 0, 0, 0] }, by simp, by decide +kernel⟩
  · exact ⟨{ served with live := [{ id := 4, sq := 0, fn := 0, tag := 1, opc := 0x20, cpl := true, ord := false, index := 0, bytes := [32, 0, 0, 0, 0, 0, 0, 0, 2, 0, 0, 0, 0, 0, 0, 0, 0, 0, 0, 0, 0, 0, 0, 0, 0, 0, 0, 0, 0, 0, 0, 0, 0, 0, 0, 0, 0, 0, 0, 0, 0, 0, 0, 0, 0, 0, 0, 0, 0, 0, 0, 0, 0, 0, 0, 0, 0, 0, 0, 0, 0, 0, 0, 0] }] }, 2, Instr.invalRange, { force := false, discard := false, vol := 0, first := 0, count := 0, reservedZero := true }, 4, { id := 4, sq := 0, fn := 0, tag := 1, opc := 0x20, cpl := true, ord := false, index := 0, bytes := [32, 0, 0, 0, 0, 0, 0, 0, 2, 0, 0, 0, 0, 0, 0, 0, 0, 0, 0, 0, 0, 0, 0, 0, 0, 0, 0, 0, 0, 0, 0, 0, 0, 0, 0, 0, 0, 0, 0, 0, 0, 0, 0, 0, 0, 0, 0, 0, 0, 0, 0, 0, 0, 0, 0, 0, 0, 0, 0, 0, 0, 0, 0, 0] }, by simp, by decide +kernel⟩
  · exact ⟨{ served with live := [{ id := 4, sq := 0, fn := 0, tag := 1, opc := 0x20, cpl := true, ord := false, index := 0, bytes := [32, 0, 0, 0, 0, 0, 0, 0, 3, 0, 0, 0, 0, 0, 0, 0, 0, 0, 0, 0, 0, 0, 0, 0, 0, 0, 0, 0, 0, 0, 0, 0, 0, 0, 0, 0, 0, 0, 0, 0, 0, 0, 0, 0, 0, 0, 0, 0, 0, 0, 0, 0, 0, 0, 0, 0, 0, 0, 0, 0, 0, 0, 0, 0] }] }, 3, Instr.cleanKey, { force := false, discard := false, vol := 0, first := 0, count := 0, reservedZero := true }, 4, { id := 4, sq := 0, fn := 0, tag := 1, opc := 0x20, cpl := true, ord := false, index := 0, bytes := [32, 0, 0, 0, 0, 0, 0, 0, 3, 0, 0, 0, 0, 0, 0, 0, 0, 0, 0, 0, 0, 0, 0, 0, 0, 0, 0, 0, 0, 0, 0, 0, 0, 0, 0, 0, 0, 0, 0, 0, 0, 0, 0, 0, 0, 0, 0, 0, 0, 0, 0, 0, 0, 0, 0, 0, 0, 0, 0, 0, 0, 0, 0, 0] }, by simp, by decide +kernel⟩
  · exact ⟨{ served with live := [{ id := 4, sq := 0, fn := 0, tag := 1, opc := 0x20, cpl := true, ord := false, index := 0, bytes := [32, 0, 0, 0, 0, 0, 0, 0, 4, 0, 0, 0, 0, 0, 0, 0, 0, 0, 0, 0, 0, 0, 0, 0, 0, 0, 0, 0, 0, 0, 0, 0, 0, 0, 0, 0, 0, 0, 0, 0, 0, 0, 0, 0, 0, 0, 0, 0, 0, 0, 0, 0, 0, 0, 0, 0, 0, 0, 0, 0, 0, 0, 0, 0] }] }, 4, Instr.cleanRange, { force := false, discard := false, vol := 0, first := 0, count := 0, reservedZero := true }, 4, { id := 4, sq := 0, fn := 0, tag := 1, opc := 0x20, cpl := true, ord := false, index := 0, bytes := [32, 0, 0, 0, 0, 0, 0, 0, 4, 0, 0, 0, 0, 0, 0, 0, 0, 0, 0, 0, 0, 0, 0, 0, 0, 0, 0, 0, 0, 0, 0, 0, 0, 0, 0, 0, 0, 0, 0, 0, 0, 0, 0, 0, 0, 0, 0, 0, 0, 0, 0, 0, 0, 0, 0, 0, 0, 0, 0, 0, 0, 0, 0, 0] }, by simp, by decide +kernel⟩
  · exact ⟨{ served with live := [{ id := 4, sq := 0, fn := 0, tag := 1, opc := 0x20, cpl := true, ord := false, index := 0, bytes := [32, 0, 0, 0, 0, 0, 0, 0, 5, 0, 0, 0, 0, 0, 0, 0, 0, 0, 0, 0, 0, 0, 0, 0, 0, 0, 0, 0, 0, 0, 0, 0, 0, 0, 0, 0, 0, 0, 0, 0, 0, 0, 0, 0, 0, 0, 0, 0, 0, 0, 0, 0, 0, 0, 0, 0, 0, 0, 0, 0, 0, 0, 0, 0] }] }, 5, Instr.lock, { force := false, discard := false, vol := 0, first := 0, count := 0, reservedZero := true }, 4, { id := 4, sq := 0, fn := 0, tag := 1, opc := 0x20, cpl := true, ord := false, index := 0, bytes := [32, 0, 0, 0, 0, 0, 0, 0, 5, 0, 0, 0, 0, 0, 0, 0, 0, 0, 0, 0, 0, 0, 0, 0, 0, 0, 0, 0, 0, 0, 0, 0, 0, 0, 0, 0, 0, 0, 0, 0, 0, 0, 0, 0, 0, 0, 0, 0, 0, 0, 0, 0, 0, 0, 0, 0, 0, 0, 0, 0, 0, 0, 0, 0] }, by simp, by decide +kernel⟩
  · exact ⟨{ served with live := [{ id := 4, sq := 0, fn := 0, tag := 1, opc := 0x20, cpl := true, ord := false, index := 0, bytes := [32, 0, 0, 0, 0, 0, 0, 0, 6, 0, 0, 0, 0, 0, 0, 0, 0, 0, 0, 0, 0, 0, 0, 0, 0, 0, 0, 0, 0, 0, 0, 0, 0, 0, 0, 0, 0, 0, 0, 0, 0, 0, 0, 0, 0, 0, 0, 0, 0, 0, 0, 0, 0, 0, 0, 0, 0, 0, 0, 0, 0, 0, 0, 0] }] }, 6, Instr.unlock, { force := false, discard := false, vol := 0, first := 0, count := 0, reservedZero := true }, 4, { id := 4, sq := 0, fn := 0, tag := 1, opc := 0x20, cpl := true, ord := false, index := 0, bytes := [32, 0, 0, 0, 0, 0, 0, 0, 6, 0, 0, 0, 0, 0, 0, 0, 0, 0, 0, 0, 0, 0, 0, 0, 0, 0, 0, 0, 0, 0, 0, 0, 0, 0, 0, 0, 0, 0, 0, 0, 0, 0, 0, 0, 0, 0, 0, 0, 0, 0, 0, 0, 0, 0, 0, 0, 0, 0, 0, 0, 0, 0, 0, 0] }, by simp, by decide +kernel⟩
  · exact ⟨{ served with live := [{ id := 4, sq := 0, fn := 0, tag := 1, opc := 0x20, cpl := true, ord := false, index := 0, bytes := [32, 0, 0, 0, 0, 0, 0, 0, 7, 0, 0, 0, 0, 0, 0, 0, 0, 0, 0, 0, 0, 0, 0, 0, 0, 0, 0, 0, 0, 0, 0, 0, 0, 0, 0, 0, 0, 0, 0, 0, 0, 0, 0, 0, 0, 0, 0, 0, 0, 0, 0, 0, 0, 0, 0, 0, 0, 0, 0, 0, 0, 0, 0, 0] }] }, 7, Instr.invalAll, { force := false, discard := false, vol := 0, first := 0, count := 0, reservedZero := true }, 4, { id := 4, sq := 0, fn := 0, tag := 1, opc := 0x20, cpl := true, ord := false, index := 0, bytes := [32, 0, 0, 0, 0, 0, 0, 0, 7, 0, 0, 0, 0, 0, 0, 0, 0, 0, 0, 0, 0, 0, 0, 0, 0, 0, 0, 0, 0, 0, 0, 0, 0, 0, 0, 0, 0, 0, 0, 0, 0, 0, 0, 0, 0, 0, 0, 0, 0, 0, 0, 0, 0, 0, 0, 0, 0, 0, 0, 0, 0, 0, 0, 0] }, by simp, by decide +kernel⟩
  · exact ⟨served, 0, Instr.zeroLine, { force := false, discard := false, vol := 0, first := 0, count := 0, reservedZero := true }, go 16, by simp, by unfold GoReady; decide +kernel⟩
  · exact ⟨served, 1, Instr.invalKey, { force := false, discard := false, vol := 0, first := 0, count := 0, reservedZero := true }, go 16, by simp, by unfold GoReady; decide +kernel⟩
  · exact ⟨served, 2, Instr.invalRange, { force := false, discard := false, vol := 0, first := 0, count := 1, reservedZero := true }, go 16, by simp, by unfold GoReady; decide +kernel⟩
  · exact ⟨served, 3, Instr.cleanKey, { force := false, discard := false, vol := 0, first := 0, count := 0, reservedZero := true }, go 16, by simp, by unfold GoReady; decide +kernel⟩
  · exact ⟨served, 4, Instr.cleanRange, { force := false, discard := false, vol := 0, first := 0, count := 1, reservedZero := true }, go 16, by simp, by unfold GoReady; decide +kernel⟩
  · exact ⟨served, 5, Instr.lock, { force := false, discard := false, vol := 0, first := 0, count := 0, reservedZero := true }, go 16, by simp, by unfold GoReady; decide +kernel⟩
  · exact ⟨served, 6, Instr.unlock, { force := false, discard := false, vol := 0, first := 0, count := 0, reservedZero := true }, go 16, by simp, by unfold GoReady; decide +kernel⟩
  · exact ⟨served, 7, Instr.invalAll, { force := false, discard := false, vol := 0, first := 0, count := 0, reservedZero := true }, go 16, by simp, by unfold GoReady; decide +kernel⟩

theorem witness_CacheCtlRows :
    (∃ (s : State) (v : W32), running s = true ∧ canDma s 0 = true ∧ s.cache.disabling = none ∧ s.cache.enabling = none ∧ bit
      v.toNat 0 = false ∧ s.cache.en = true) ∧
    (∃ (s : State) (v : W32), running s = true ∧ canDma s 0 = true ∧ s.cache.disabling = none ∧ s.cache.enabling = none ∧ bit
      v.toNat 0 = true) ∧
    (∃ (s : State) (v : W32), running s = true ∧ canDma s 0 = true ∧ s.cache.disabling = none ∧ s.cache.enabling = none ∧ bits
      v.toNat 31 16 ≠ s.cache.seed.toNat ∧ bits v.toNat 31 16 ≠ 0) ∧
    (∃ (s : State) (v : W32), running s = true ∧ canDma s 0 = true ∧ s.cache.disabling = none ∧ s.cache.enabling = none ∧
      s.cache.evmode = true ∧ bit v.toNat 2 = false) ∧
    (∃ (s : State) (v : W32), running s = true ∧ canDma s 0 = true ∧ s.cache.disabling = none ∧ s.cache.enabling = none ∧
      s.cache.evmode = false ∧ bit v.toNat 2 = true) ∧
    (∃ (s : State) (v : W32), running s = true ∧ canDma s 0 = true ∧ (s.cache.disabling.isSome || s.cache.enabling.isSome) = true ∧
      bit v.toNat 0 = true) := by
  refine ⟨?_, ?_, ?_, ?_, ?_, ?_⟩
  · exact ⟨up, 0x0706, by decide +kernel⟩
  · exact ⟨{ up with cache := { en := false } }, 0x0701, by decide +kernel⟩
  · exact ⟨up, 0x12340001, by decide +kernel⟩
  · exact ⟨{ up with cache := { evmode := true } }, 1, by decide +kernel⟩
  · exact ⟨up, 5, by decide +kernel⟩
  · exact ⟨{ up with cache := { disabling := some 0 } }, 1, by decide +kernel⟩

theorem witness_CacheCommandRows :
    (∃ (s : State) (g : Go), GoReady s g false 0 [] ∧ s.cache.disabling = none ∧ s.cache.enabling = none) ∧
    (∃ (s : State) (mb : Nat), serving s = true ∧ s.cache.disabling = some mb ∧ noDirty s = true ∧ s.maints = [] ∧ (getMbx s
      mb).orphan = false) ∧
    (∃ (s : State) (g : Go), GoReady s g false 0 [] ∧ s.cache.disabling = none ∧ s.cache.enabling = none ∧ s.cache.en = true) ∧
    (∃ (s : State) (g : Go), GoReady s g false 0 [] ∧ s.cache.disabling = none ∧ s.cache.enabling = none ∧ s.cache.en = false) ∧
    (∃ (s : State) (g : Go) (tile : Nat) (delay : Nat), GoReady s g false 6 [] ∧ (tile < s.part.tiles ∨ tile = 0xFF) ∧ delay ≤ 1024) ∧
    (∃ (s : State) (g : Go) (tile : Nat) (delay : Nat), GoReady s g false 6 [] ∧ (tile < s.part.tiles ∨ tile = 0xFF) ∧ delay ≤ 1024) ∧
    (∃ (s : State) (g : Go) (tile : Nat) (z : Nat), GoReady s g false 6 [] ∧ (tile < s.part.tiles ∨ tile = 0xFF) ∧ z ≤ 8 ∧
      s.cache.en = false ∧ (∀ k, k < s.part.tiles → (getTile s k).tier.store = [] ∧ windowOn s k = false)) ∧
    (∃ (s : State) (g : Go) (tile : Nat) (z : Nat), GoReady s g false 6 [] ∧ (tile < s.part.tiles ∨ tile = 0xFF) ∧ z ≤ 8 ∧
      s.cache.en = false ∧ (∀ k, k < s.part.tiles → (getTile s k).tier.store = [] ∧ windowOn s k = false)) ∧
    (∃ (s : State) (g : Go) (vol : Nat) (policy : Nat) (l : List RatEntry), GoReady s g false (if l.isEmpty then 4 else 8 + 16 *
      l.length) [objVol vol] ∧ s.phase = .ready ∧ volExists s g.mb vol = true ∧ (getVol s vol).st = .stopped ∧ (poolCfg s
      (volCfg s vol).pool).partner = none ∧ policy ≤ 3 ∧ l.length ≤ 16 ∧ (∀ e ∈ ratErrors l, e.2 = false)) ∧
    (∃ (s : State) (g : Go) (vol : Nat), GoReady s g true 2 [objVol vol] ∧ s.phase = .ready ∧ volExists s g.mb vol = true) ∧
    (∃ (s : State) (g : Go) (tile : Nat) (buf : SegDesc), GoReady s g false 24 [] ∧ badBuf buf = false ∧ (tile < s.part.tiles ∨ tile
      = 0xFF)) ∧
    (∃ (s : State) (g : Go) (tile : Nat) (buf : SegDesc), GoReady s g false 24 [] ∧ badBuf buf = false ∧ (tile < s.part.tiles ∨ tile
      = 0xFF)) := by
  refine ⟨?_, ?_, ?_, ?_, ?_, ?_, ?_, ?_, ?_, ?_, ?_, ?_⟩
  · exact ⟨up, go 0, by unfold GoReady; decide +kernel⟩
  · exact ⟨{ up with cache := { disabling := some 0 } }, 0, by decide +kernel⟩
  · exact ⟨up, go 0, by unfold GoReady; decide +kernel⟩
  · exact ⟨{ up with cache := { en := false } }, go 0, by unfold GoReady; decide +kernel⟩
  · exact ⟨up, go 6, 7, 1024, by unfold GoReady; decide +kernel⟩
  · exact ⟨up, go 6, 0xFF, 0, by unfold GoReady; decide +kernel⟩
  · exact ⟨{ up with cache := { en := false } }, go 6, 7, 8, by unfold GoReady; decide +kernel, by decide +kernel, by decide +kernel, by decide +kernel, by decide +kernel⟩
  · exact ⟨{ up with cache := { en := false } }, go 6, 0xFF, 8, by unfold GoReady; decide +kernel, by decide +kernel, by decide +kernel, by decide +kernel, by decide +kernel⟩
  · exact ⟨stopped, go 24, 0, 3, [{ firstRow := 0, rows := 1, policy := 3, valid := true }], by unfold GoReady; decide +kernel⟩
  · exact ⟨served, go 2, 0, by unfold GoReady; decide +kernel⟩
  · exact ⟨up, go 24, 7, buf0, by unfold GoReady; decide +kernel⟩
  · exact ⟨up, go 24, 0xFF, buf0, by unfold GoReady; decide +kernel⟩

theorem witness_SbtPacketRows :
    (∃ (s : State) (h : SbtHdr) (c : Capsule) (o : BlockOp) (mk : SbtHdr → Capsule → Instr), (o = .read ∧ mk = .read ∨ o = .write ∧
      mk = .write ∨ o = .flush ∧ mk = .flush ∨ o = .zeroes ∧ mk = .writeZeroes ∨ o = .dealloc ∧ mk = .deallocate ∨ o = .verify ∧
      mk = .verify) ∧ wellSent s h 0x10 64 = true ∧ (getConn? s h.connId).isSome = true ∧ (c.opcode.toNat = opcodeOf o ∨
      c.opcode.toNat = 0 ∨ 6 < c.opcode.toNat)) ∧
    (∃ (s : State) (h : SbtHdr) (c : Capsule) (o : BlockOp) (mk : SbtHdr → Capsule → Instr), (o = .read ∧ mk = .read ∨ o = .write ∧
      mk = .write ∨ o = .flush ∧ mk = .flush ∨ o = .zeroes ∧ mk = .writeZeroes ∨ o = .dealloc ∧ mk = .deallocate ∨ o = .verify ∧
      mk = .verify) ∧ wellSent s h 0x10 64 = true ∧ (getConn? s h.connId).isSome = true ∧ (c.opcode.toNat = opcodeOf o ∨
      c.opcode.toNat = 0 ∨ 6 < c.opcode.toNat)) ∧
    (∃ (s : State) (h : SbtHdr) (c : Capsule) (o : BlockOp) (mk : SbtHdr → Capsule → Instr), (o = .read ∧ mk = .read ∨ o = .write ∧
      mk = .write ∨ o = .flush ∧ mk = .flush ∨ o = .zeroes ∧ mk = .writeZeroes ∨ o = .dealloc ∧ mk = .deallocate ∨ o = .verify ∧
      mk = .verify) ∧ wellSent s h 0x10 64 = true ∧ (getConn? s h.connId).isSome = true ∧ (c.opcode.toNat = opcodeOf o ∨
      c.opcode.toNat = 0 ∨ 6 < c.opcode.toNat)) ∧
    (∃ (s : State) (h : SbtHdr) (c : Capsule) (o : BlockOp) (mk : SbtHdr → Capsule → Instr), (o = .read ∧ mk = .read ∨ o = .write ∧
      mk = .write ∨ o = .flush ∧ mk = .flush ∨ o = .zeroes ∧ mk = .writeZeroes ∨ o = .dealloc ∧ mk = .deallocate ∨ o = .verify ∧
      mk = .verify) ∧ wellSent s h 0x10 64 = true ∧ (getConn? s h.connId).isSome = true ∧ (c.opcode.toNat = opcodeOf o ∨
      c.opcode.toNat = 0 ∨ 6 < c.opcode.toNat)) ∧
    (∃ (s : State) (h : SbtHdr) (c : Capsule) (o : BlockOp) (mk : SbtHdr → Capsule → Instr), (o = .read ∧ mk = .read ∨ o = .write ∧
      mk = .write ∨ o = .flush ∧ mk = .flush ∨ o = .zeroes ∧ mk = .writeZeroes ∨ o = .dealloc ∧ mk = .deallocate ∨ o = .verify ∧
      mk = .verify) ∧ wellSent s h 0x10 64 = true ∧ (getConn? s h.connId).isSome = true ∧ (c.opcode.toNat = opcodeOf o ∨
      c.opcode.toNat = 0 ∨ 6 < c.opcode.toNat)) ∧
    (∃ (s : State) (h : SbtHdr) (c : Capsule) (o : BlockOp) (mk : SbtHdr → Capsule → Instr), (o = .read ∧ mk = .read ∨ o = .write ∧
      mk = .write ∨ o = .flush ∧ mk = .flush ∨ o = .zeroes ∧ mk = .writeZeroes ∨ o = .dealloc ∧ mk = .deallocate ∨ o = .verify ∧
      mk = .verify) ∧ wellSent s h 0x10 64 = true ∧ (getConn? s h.connId).isSome = true ∧ (c.opcode.toNat = opcodeOf o ∨
      c.opcode.toNat = 0 ∨ 6 < c.opcode.toNat)) ∧
    (∃ (s : State) (h : SbtHdr) (tag : BitVec 16) (off : W32) (dg : W32) (payload : List Byte), wellSent s h 0x12 (16 +
      payload.length) = true ∧ (getConn? s h.connId).isSome = true ∧ crc32c payload = dg) ∧
    (∃ (s : State) (h : SbtHdr) (tag : BitVec 16) (off : W32) (dg : W32) (payload : List Byte), wellSent s h 0x12 (16 +
      payload.length) = true ∧ (getConn? s h.connId).isSome = true ∧ crc32c payload ≠ dg) ∧
    (∃ (s : State) (h : SbtHdr) (c : Instr) (type : Nat) (len : Nat) (b : RxBody), wellSent s h type len = true ∧ (getConn? s
      h.connId).isSome = true ∧ ((∃ tag, c = .abort h tag ∧ b = .abort tag ∧ type = 0x15 ∧ len = 8) ∨ (∃ k p, c = .errlogReq h k
      p ∧ b = .errlogReq k p ∧ type = 0x20 ∧ len = 8) ∨ (∃ d f, c = .resume h d f ∧ b = .resume d f ∧ type = 0x22 ∧ len = 8) ∨
      (∃ r, c = .close h r ∧ b = .close r ∧ r ≠ 5 ∧ type = 0x03 ∧ len = 8))) ∧
    (∃ (s : State) (h : SbtHdr) (c : Instr) (type : Nat) (len : Nat) (b : RxBody), wellSent s h type len = true ∧ (getConn? s
      h.connId).isSome = true ∧ ((∃ tag, c = .abort h tag ∧ b = .abort tag ∧ type = 0x15 ∧ len = 8) ∨ (∃ k p, c = .errlogReq h k
      p ∧ b = .errlogReq k p ∧ type = 0x20 ∧ len = 8) ∨ (∃ d f, c = .resume h d f ∧ b = .resume d f ∧ type = 0x22 ∧ len = 8) ∨
      (∃ r, c = .close h r ∧ b = .close r ∧ r ≠ 5 ∧ type = 0x03 ∧ len = 8))) ∧
    (∃ (s : State) (h : SbtHdr) (c : Instr) (type : Nat) (len : Nat) (b : RxBody), wellSent s h type len = true ∧ (getConn? s
      h.connId).isSome = true ∧ ((∃ tag, c = .abort h tag ∧ b = .abort tag ∧ type = 0x15 ∧ len = 8) ∨ (∃ k p, c = .errlogReq h k
      p ∧ b = .errlogReq k p ∧ type = 0x20 ∧ len = 8) ∨ (∃ d f, c = .resume h d f ∧ b = .resume d f ∧ type = 0x22 ∧ len = 8) ∨
      (∃ r, c = .close h r ∧ b = .close r ∧ r ≠ 5 ∧ type = 0x03 ∧ len = 8))) ∧
    (∃ (s : State) (h : SbtHdr) (c : Instr) (type : Nat) (len : Nat) (b : RxBody), wellSent s h type len = true ∧ (getConn? s
      h.connId).isSome = true ∧ ((∃ tag, c = .abort h tag ∧ b = .abort tag ∧ type = 0x15 ∧ len = 8) ∨ (∃ k p, c = .errlogReq h k
      p ∧ b = .errlogReq k p ∧ type = 0x20 ∧ len = 8) ∨ (∃ d f, c = .resume h d f ∧ b = .resume d f ∧ type = 0x22 ∧ len = 8) ∨
      (∃ r, c = .close h r ∧ b = .close r ∧ r ≠ 5 ∧ type = 0x03 ∧ len = 8))) ∧
    (∃ (s : State) (h : SbtHdr), wellSent s h 0x30 0 = true ∧ (getConn? s h.connId).isSome = true) ∧
    (∃ (s : State) (h : SbtHdr) (c : Instr), tenantPort s h.port = true ∧ strayPacket s h = none ∧ h.version ≠ 1 ∧ ((c = .ack h ∧
      h.type = 0x30) ∨ (∃ tag, c = .abort h tag ∧ h.type = 0x15) ∨ (∃ k p, c = .errlogReq h k p ∧ h.type = 0x20) ∨ ∃ d f, c =
      .resume h d f ∧ h.type = 0x22)) ∧
    (∃ (s : State) (h : SbtHdr) (c : Instr), tenantPort s h.port = true ∧ strayPacket s h = none ∧ h.version ≠ 1 ∧ ((c = .ack h ∧
      h.type = 0x30) ∨ (∃ tag, c = .abort h tag ∧ h.type = 0x15) ∨ (∃ k p, c = .errlogReq h k p ∧ h.type = 0x20) ∨ ∃ d f, c =
      .resume h d f ∧ h.type = 0x22)) ∧
    (∃ (s : State) (h : SbtHdr) (c : Instr), tenantPort s h.port = true ∧ strayPacket s h = none ∧ h.version ≠ 1 ∧ ((c = .ack h ∧
      h.type = 0x30) ∨ (∃ tag, c = .abort h tag ∧ h.type = 0x15) ∨ (∃ k p, c = .errlogReq h k p ∧ h.type = 0x20) ∨ ∃ d f, c =
      .resume h d f ∧ h.type = 0x22)) ∧
    (∃ (s : State) (h : SbtHdr) (c : Instr), tenantPort s h.port = true ∧ strayPacket s h = none ∧ h.version ≠ 1 ∧ ((c = .ack h ∧
      h.type = 0x30) ∨ (∃ tag, c = .abort h tag ∧ h.type = 0x15) ∨ (∃ k p, c = .errlogReq h k p ∧ h.type = 0x20) ∨ ∃ d f, c =
      .resume h d f ∧ h.type = 0x22)) ∧
    (∃ (s : State) (h : SbtHdr), tenantPort s h.port = true ∧ h.type = 0x30 ∧ strayPacket s h = none ∧ h.version = 1 ∧ h.length ≠ 0) ∧
    (∃ (s : State) (h : SbtHdr) (cause : Nat), tenantPort s h.port = true ∧ h.type = 0x30 ∧ strayPacket s h = some cause) := by
  refine ⟨?_, ?_, ?_, ?_, ?_, ?_, ?_, ?_, ?_, ?_, ?_, ?_, ?_, ?_, ?_, ?_, ?_, ?_, ?_⟩
  · exact ⟨netted conn0, hdr0 0x10 64, { cap0 with opcode := 1 }, .read, Instr.read, by simp, by decide +kernel, by decide +kernel, by decide +kernel⟩
  · exact ⟨netted conn0, hdr0 0x10 64, { cap0 with opcode := 2 }, .write, Instr.write, by simp, by decide +kernel, by decide +kernel, by decide +kernel⟩
  · exact ⟨netted conn0, hdr0 0x10 64, { cap0 with opcode := 3 }, .flush, Instr.flush, by simp, by decide +kernel, by decide +kernel, by decide +kernel⟩
  · exact ⟨netted conn0, hdr0 0x10 64, { cap0 with opcode := 4 }, .zeroes, Instr.writeZeroes, by simp, by decide +kernel, by decide +kernel, by decide +kernel⟩
  · exact ⟨netted conn0, hdr0 0x10 64, { cap0 with opcode := 5 }, .dealloc, Instr.deallocate, by simp, by decide +kernel, by decide +kernel, by decide +kernel⟩
  · exact ⟨netted conn0, hdr0 0x10 64, { cap0 with opcode := 6 }, .verify, Instr.verify, by simp, by decide +kernel, by decide +kernel, by decide +kernel⟩
  · exact ⟨netted conn0, hdr0 0x12 16, 3, 0, 0, [], by decide +kernel⟩
  · exact ⟨netted conn0, hdr0 0x12 16, 3, 0, 1, [], by decide +kernel⟩
  · exact ⟨netted conn0, hdr0 0x15 8, .abort (hdr0 0x15 8) 3, 0x15, 8, .abort 3, by decide +kernel, by decide +kernel, by simp⟩
  · exact ⟨netted conn0, hdr0 0x20 8, .errlogReq (hdr0 0x20 8) 0 0, 0x20, 8, .errlogReq 0 0, by decide +kernel, by decide +kernel, by simp⟩
  · exact ⟨netted conn0, hdr0 0x22 8, .resume (hdr0 0x22 8) 1 1, 0x22, 8, .resume 1 1, by decide +kernel, by decide +kernel, by simp⟩
  · exact ⟨netted conn0, hdr0 0x03 8, .close (hdr0 0x03 8) 1, 0x03, 8, .close 1, by decide +kernel, by decide +kernel, by simp⟩
  · exact ⟨netted conn0, hdr0 0x30 0, by decide +kernel⟩
  · exact ⟨netted conn0, { hdr0 0x30 0 with bytes := 0x20 :: (hdr0 0x30 0).bytes.drop 1 }, .ack ({ hdr0 0x30 0 with bytes := 0x20 :: (hdr0 0x30 0).bytes.drop 1 }), by decide +kernel, by decide +kernel, by decide +kernel, .inl ⟨rfl, by decide +kernel⟩⟩
  · exact ⟨netted conn0, { hdr0 0x15 8 with bytes := 0x20 :: (hdr0 0x15 8).bytes.drop 1 }, .abort ({ hdr0 0x15 8 with bytes := 0x20 :: (hdr0 0x15 8).bytes.drop 1 }) 3, by decide +kernel, by decide +kernel, by decide +kernel, .inr (.inl ⟨3, rfl, by decide +kernel⟩)⟩
  · exact ⟨netted conn0, { hdr0 0x20 8 with bytes := 0x20 :: (hdr0 0x20 8).bytes.drop 1 }, .errlogReq ({ hdr0 0x20 8 with bytes := 0x20 :: (hdr0 0x20 8).bytes.drop 1 }) 0 0, by decide +kernel, by decide +kernel, by decide +kernel, .inr (.inr (.inl ⟨0, 0, rfl, by decide +kernel⟩))⟩
  · exact ⟨netted conn0, { hdr0 0x22 8 with bytes := 0x20 :: (hdr0 0x22 8).bytes.drop 1 }, .resume ({ hdr0 0x22 8 with bytes := 0x20 :: (hdr0 0x22 8).bytes.drop 1 }) 1 1, by decide +kernel, by decide +kernel, by decide +kernel, .inr (.inr (.inr ⟨1, 1, rfl, by decide +kernel⟩))⟩
  · exact ⟨netted conn0, hdr0 0x30 4, by decide +kernel⟩
  · exact ⟨netted conn0, { hdr0 0x30 0 with dport := 5 }, 5, by decide +kernel⟩

theorem witness_SbtCommandChecks :
    (∃ (s : State) (id : W32) (k : Conn) (o : Option BlockOp) (c : Capsule), isFrozen k = true) ∧
    (∃ (s : State) (id : W32) (k : Conn) (o : Option BlockOp) (c : Capsule), isFrozen k = false ∧ k.limit ≤ (owedCmds s id).length) ∧
    (∃ (s : State) (id : W32) (k : Conn) (c : Capsule), isFrozen k = false ∧ (owedCmds s id).length < k.limit) ∧
    (∃ (s : State) (id : W32) (k : Conn) (o : BlockOp) (c : Capsule), isFrozen k = false ∧ (owedCmds s id).length < k.limit ∧
      badCapsule o c = true) ∧
    (∃ (s : State) (id : W32) (k : Conn) (o : BlockOp) (c : Capsule), isFrozen k = false ∧ (owedCmds s id).length < k.limit ∧
      badCapsule o c = false ∧ tenantVol s k c.volume.toNat = false) ∧
    (∃ (s : State) (id : W32) (k : Conn) (o : BlockOp) (c : Capsule), isFrozen k = false ∧ (owedCmds s id).length < k.limit ∧
      badCapsule o c = false ∧ tenantVol s k c.volume.toNat = true ∧ volBlocks (poolCfg s (volCfg s c.volume.toNat).pool)
      (volCfg s c.volume.toNat) < c.lba.toNat + c.length.toNat) ∧
    (∃ (s : State) (id : W32) (k : Conn) (o : BlockOp) (c : Capsule), c.tag ≠ 0xFFFF ∧ tagCmd? s id c.tag = none ∧
      k.aborted.contains c.tag = false ∧ c.opcode.toNat = opcodeOf o ∧ arrivalStatus s id k (some o) c ≠ 0) ∧
    (∃ (s : State) (id : W32) (k : Conn) (o : BlockOp) (c : Capsule), c.tag ≠ 0xFFFF ∧ ((tagCmd? s id c.tag).isSome = true ∨
      k.aborted.contains c.tag = true)) ∧
    (∃ (s : State) (id : W32) (k : Conn) (o : BlockOp) (c : Capsule), c.tag ≠ 0xFFFF ∧ ((tagCmd? s id c.tag).isSome = true ∨
      k.aborted.contains c.tag = true)) ∧
    (∃ (s : State) (id : W32) (k : Conn) (b : TxBody), getConn? s id = some k) := by
  refine ⟨?_, ?_, ?_, ?_, ?_, ?_, ?_, ?_, ?_, ?_⟩
  · exact ⟨up, 0, { conn0 with st := .settled }, some .read, cap0, by decide +kernel⟩
  · exact ⟨up, 0, { conn0 with limit := 0 }, none, cap0, by decide +kernel⟩
  · exact ⟨up, 0, conn0, cap0, by decide +kernel⟩
  · exact ⟨up, 0, conn0, .read, { cap0 with length := 0 }, by decide +kernel⟩
  · exact ⟨up, 0, conn0, .read, cap0, by decide +kernel⟩
  · exact ⟨netted conn0, 0, conn0, .read, { cap0 with lba := 1000000000 }, by decide +kernel⟩
  · exact ⟨netted conn0, 0, conn0, .read, { cap0 with length := 0 }, by decide +kernel⟩
  · exact ⟨{ netted conn0 with cmds := [{ cmd0 with src := .sbt 0 3 }] }, 0, conn0, .read, cap0, by decide +kernel⟩
  · exact ⟨netted { conn0 with aborted := [3] }, 0, { conn0 with aborted := [3] }, .read, cap0, by decide +kernel⟩
  · exact ⟨netted conn0, 0, conn0, .ack, by decide +kernel⟩

theorem witness_ConnectRows :
    (∃ (s : State) (h : SbtHdr) (b : ConnectBody) (tenant : Nat) (i : Nat), tenantPort s h.port = true ∧ h.type = 0x01 ∧ strayPacket
      s h = none ∧ h.length = 32 ∧ s.sbt.conns.any (fun c => c.addr == h.addr && c.udp == h.udp && c.tenantConn == b.tenantConn
      && c.connectSeq == h.seq) = false ∧ s.sbt.refusals.any (fun r => r.addr == h.addr && r.udp == h.udp && r.tenantConn ==
      b.tenantConn && r.seq == h.seq) = false ∧ connectResult s h b = 0 ∧ tenantOf s b.tenantId = some tenant ∧ freeIndex s
      (tileOfPort h.port) = some i ∧ s.hk.running = false ∧ (∀ c ∈ s.sbt.conns, ∀ g : BitVec 16, connIdOf c ≠ BitVec.ofNat 32
      (field 29 (tileOfPort h.port) + field 16 i + g.toNat))) ∧
    (∃ (s : State) (h : SbtHdr) (b : ConnectBody), tenantPort s h.port = true ∧ h.type = 0x01 ∧ strayPacket s h = none ∧ h.length =
      32 ∧ s.sbt.conns.any (fun c => c.addr == h.addr && c.udp == h.udp && c.tenantConn == b.tenantConn && c.connectSeq ==
      h.seq) = false ∧ s.sbt.refusals.any (fun r => r.addr == h.addr && r.udp == h.udp && r.tenantConn == b.tenantConn && r.seq
      == h.seq) = false ∧ connectResult s h b ≠ 0) ∧
    (∃ (s : State) (h : SbtHdr) (b : ConnectBody) (r : Refusal1), tenantPort s h.port = true ∧ h.type = 0x01 ∧ strayPacket s h =
      none ∧ h.length = 32 ∧ s.sbt.conns.any (fun c => c.addr == h.addr && c.udp == h.udp && c.tenantConn == b.tenantConn &&
      c.connectSeq == h.seq) = false ∧ s.sbt.refusals.find? (fun r => r.addr == h.addr && r.udp == h.udp && r.tenantConn ==
      b.tenantConn && r.seq == h.seq) = some r) ∧
    (∃ (s : State) (addr : BitVec 128) (udp : BitVec 16) (tc : W32) (seq : W32), running s = true) ∧
    (∃ (s : State) (tile : Nat) (i : Nat), running s = true) ∧
    (∃ (s : State) (port : Nat) (cause : DiscardCause), tenantPort s port = true) ∧
    (∃ (s : State) (h : SbtHdr), wellSent s h h.type h.length = true ∧ getConn? s h.connId = none) ∧
    (∃ (s : State) (h : SbtHdr), wellSent s h h.type h.length = true ∧ getConn? s h.connId = none ∧ s.sbt.answered.any (fun e => e.1
      == h.addr && e.2.1 == h.udp && decide (s.clock < e.2.2 + 10 ^ 6)) = false) := by
  refine ⟨?_, ?_, ?_, ?_, ?_, ?_, ?_, ?_⟩
  · exact ⟨{ netted conn0 with sbt := {} }, hdr0 0x01 32, { tenantConn := 5, maxData := 4096, qdepth := 8, tenantId := 77 }, 0, 0, by decide +kernel⟩
  · exact ⟨{ netted conn0 with sbt := {} }, hdr0 0x01 32, { tenantConn := 5, maxData := 4096, qdepth := 8, tenantId := 78 }, by decide +kernel⟩
  · exact ⟨{ netted conn0 with sbt := { refusals := [{ addr := 1, udp := 9, tenantConn := 5, seq := 11, result := 1, isn := 4, epoch := 32768 }] } }, hdr0 0x01 32, { tenantConn := 5, maxData := 4096, qdepth := 8, tenantId := 77 }, { addr := 1, udp := 9, tenantConn := 5, seq := 11, result := 1, isn := 4, epoch := 32768 }, by decide +kernel⟩
  · exact ⟨{ up with sbt := { refusals := [{ addr := 1, udp := 9, tenantConn := 5, seq := 11, result := 1, isn := 4, epoch := 32768 }] } }, 1, 9, 5, 1, by decide +kernel⟩
  · exact ⟨{ up with sbt := { cooling := [(0, 3)] } }, 0, 3, by decide +kernel⟩
  · exact ⟨{ netted conn0 with sbt := {} }, 0, .length, by decide +kernel⟩
  · exact ⟨{ netted conn0 with sbt := {} }, hdr0 0x30 0, by decide +kernel⟩
  · exact ⟨{ netted conn0 with sbt := {} }, hdr0 0x30 0, by decide +kernel⟩

theorem witness_ConnTimerRows :
    (∃ (s : State) (conn : W32) (c : Conn), upConn? s conn = some c ∧ 0 < c.unacked) ∧
    (∃ (s : State) (conn : W32) (seq : W32) (c : Conn) (p : TxPkt), upConn? s conn = some c ∧ c.tx.find? (fun p => p.seq == seq &&
      p.sent) = some p) ∧
    (∃ (s : State) (conn : W32) (c : Conn), upConn? s conn = some c ∧ c.tx.any (·.sent) = true ∧ c.st ≠ .closing) ∧
    (∃ (s : State) (conn : W32) (c : Conn), upConn? s conn = some c ∧ c.tx.any (·.sent) = true ∧ c.st = .closing) ∧
    (∃ (s : State) (conn : W32) (c : Conn), upConn? s conn = some c ∧ isLive c = true) ∧
    (∃ (s : State) (id : Nat) (off : Nat) (len : Nat) (c : Cmd) (k : W32) (tag : BitVec 16) (x : Conn), fwUp s = true ∧ getCmd? s id
      = some c ∧ c.src = .sbt k tag ∧ upConn? s k = some x ∧ isLive x = true ∧ (∀ a, x.allowance = some a → len ≤ a) ∧ c.op =
      .write ∧ c.phase = .locked ∧ c.mute = false ∧ 4096 ≤ len ∧ len ≤ 1048576 ∧ off % 4096 = 0 ∧ len % 4096 = 0 ∧ off + len ≤
      4096 * c.len ∧ intentsIn s c off len = true) ∧
    (∃ (s : State) (id : Nat) (c : Cmd) (k : W32) (tag : BitVec 16), getCmd? s id = some c ∧ fwUp s = true ∧ c.phase = .finished ∧
      tileUp s c.rx = true ∧ c.src = .sbt k tag) ∧
    (∃ (s : State) (id : Nat) (e : Nat) (c : Cmd), getCmd? s id = some c ∧ fwUp s = true ∧ c.phase = .finished ∧ tileUp s c.rx =
      true ∧ c.src = .ring e) ∧
    (∃ (s : State) (id : Nat) (m : Nat) (c : Cmd) (x : Maint), getCmd? s id = some c ∧ fwUp s = true ∧ c.phase = .finished ∧ tileUp
      s c.rx = true ∧ c.src = .maint m ∧ getMaint? (removeCmd s c) m = some x) ∧
    (∃ (s : State) (id : Nat) (l : Live), getCmd? s id = none ∧ getLive? s id = some l ∧ fwUp s = true ∧ l.outcome.isSome = true) ∧
    (∃ (s : State) (p : Ps) (mb : Nat), s.hk.psPending = some (p, mb) ∧ fwUp s = true ∧ idleNow s = true ∧ (getMbx s mb).orphan =
      false) := by
  refine ⟨?_, ?_, ?_, ?_, ?_, ?_, ?_, ?_, ?_, ?_, ?_⟩
  · exact ⟨netted { conn0 with unacked := 1 }, 0, { conn0 with unacked := 1 }, by decide +kernel⟩
  · exact ⟨netted { conn0 with tx := [{ seq := 21, body := .credit 3 1, sent := true }] }, 0, 21, { conn0 with tx := [{ seq := 21, body := .credit 3 1, sent := true }] }, { seq := 21, body := .credit 3 1, sent := true }, by decide +kernel⟩
  · exact ⟨netted { conn0 with tx := [{ seq := 21, body := .credit 3 1, sent := true }] }, 0, { conn0 with tx := [{ seq := 21, body := .credit 3 1, sent := true }] }, by decide +kernel⟩
  · exact ⟨netted { conn0 with tx := [{ seq := 21, body := .credit 3 1, sent := true }], st := .closing }, 0, { conn0 with tx := [{ seq := 21, body := .credit 3 1, sent := true }], st := .closing }, by decide +kernel⟩
  · exact ⟨netted conn0, 0, conn0, by decide +kernel⟩
  · exact ⟨{ tiled (netted conn0) { amber := { recs := [{ ring0 with committed := true }], nextSeq := 1 } } with cmds := [{ cmd0 with src := .sbt 0 3, op := .write, phase := .locked, parts := [{ q := 0, row := 0, first := 0, count := 1, intent := some 0 }] }] }, 1, 0, 4096, { cmd0 with src := .sbt 0 3, op := .write, phase := .locked, parts := [{ q := 0, row := 0, first := 0, count := 1, intent := some 0 }] }, 0, 3, conn0, by decide +kernel, by decide +kernel, by decide +kernel, by decide +kernel, by decide +kernel, by intro a h; simp [conn0] at h, by decide +kernel⟩
  · exact ⟨{ netted conn0 with cmds := [{ id := 1, src := .sbt 0 3, rx := 0, op := .write, vol := 0, lba := 0, len := 1, phase := .finished }] }, 1, { id := 1, src := .sbt 0 3, rx := 0, op := .write, vol := 0, lba := 0, len := 1, phase := .finished }, 0, 3, by decide +kernel⟩
  · exact ⟨{ netted conn0 with cmds := [{ id := 1, src := .ring 4, rx := 0, op := .write, vol := 0, lba := 0, len := 1, phase := .finished }] }, 1, 4, { id := 1, src := .ring 4, rx := 0, op := .write, vol := 0, lba := 0, len := 1, phase := .finished }, by decide +kernel⟩
  · exact ⟨{ served with cmds := [{ cmd0 with src := .maint 7, phase := .finished }], maints := [{ id := 7, src := .ring 4, op := 3, force := false, discard := false, vol := 0, todo := [], epoch := 32768 }] }, 1, 7, { cmd0 with src := .maint 7, phase := .finished }, { id := 7, src := .ring 4, op := 3, force := false, discard := false, vol := 0, todo := [], epoch := 32768 }, by decide +kernel⟩
  · exact ⟨{ up with live := [{ id := 4, sq := 0, fn := 0, tag := 1, opc := 0x3F, cpl := true, ord := false, index := 0, bytes := [], outcome := some 0 }] }, 4, { id := 4, sq := 0, fn := 0, tag := 1, opc := 0x3F, cpl := true, ord := false, index := 0, bytes := [], outcome := some 0 }, by decide +kernel⟩
  · exact ⟨{ up with hk := { psPending := some (.ps1, 0) } }, .ps1, 0, by decide +kernel⟩

theorem witness_SbtCommandRows :
    (∃ (s : State) (g : Go) (udp : Nat) (credit : Nat) (ms : Nat), GoReady s g false 8 [] ∧ udp ≠ 0 ∧ 1 ≤ credit ∧ credit ≤ 1024 ∧
      10 ≤ ms ∧ ms ≤ 10000 ∧ (udp = s.cfg.udpPort ∨ s.sbt.conns = [])) ∧
    (∃ (s : State) (g : Go) (udp : Nat) (credit : Nat) (ms : Nat), GoReady s g false 8 [] ∧ udp ≠ 0 ∧ 1 ≤ credit ∧ credit ≤ 1024 ∧
      10 ≤ ms ∧ ms ≤ 10000 ∧ (udp = s.cfg.udpPort ∨ s.sbt.conns = [])) ∧
    (∃ (s : State) (g : Go) (i : Nat) (id : BitVec 128) (r : List (Nat × Nat)), GoReady s g false (24 + 4 * r.length) [] ∧ i < 4096
      ∧ r.length ≤ 16 ∧ (∀ x ∈ r, x.1 ≤ x.2) ∧ (∀ x ∈ r, x.2 < s.part.volumes)) ∧
    (∃ (s : State) (g : Go) (i : Nat) (id : BitVec 128) (r : List (Nat × Nat)), GoReady s g false (24 + 4 * r.length) [] ∧ i < 4096
      ∧ r.length ≤ 16 ∧ (∀ x ∈ r, x.1 ≤ x.2) ∧ (∃ x ∈ r, s.part.volumes ≤ x.2)) ∧
    (∃ (s : State) (g : Go) (i : Nat) (id : BitVec 128) (r : List (Nat × Nat)), GoReady s g false (24 + 4 * r.length) [] ∧ i < 4096
      ∧ r.length ≤ 16 ∧ (∀ x ∈ r, x.1 ≤ x.2) ∧ (∀ x ∈ r, x.2 < s.part.volumes)) ∧
    (∃ (s : State) (g : Go) (tile : Nat) (buf : SegDesc), GoReady s g false 24 [] ∧ badBuf buf = false ∧ (tile = 0xFF ∨ tile <
      s.part.tiles)) ∧
    (∃ (s : State) (g : Go) (tile : Nat) (buf : SegDesc), GoReady s g false 24 [] ∧ badBuf buf = false ∧ (tile = 0xFF ∨ tile <
      s.part.tiles)) ∧
    (∃ (s : State) (g : Go) (conn : W32) (k : Conn), GoReady s g false 4 [] ∧ getConn? s conn = some k) ∧
    (∃ (s : State) (id : W32) (k : Conn) (r : Nat), getConn? s id = some k ∧ k.closeSent = false ∧ s.cmds = []) ∧
    (∃ (s : State) (g : Go) (conn : W32) (k : Conn) (target : Nat) (grace : Nat) (dur : Nat), GoReady s g false 14 [] ∧ getConn? s
      conn = some k ∧ 1 ≤ target ∧ target ≤ 256 ∧ grace ≤ 1000000) ∧
    (∃ (s : State) (g : Go) (scope : Nat) (ident : W32) (target : Nat) (grace : Nat) (dur : Nat), GoReady s g false 14 [] ∧ 1 ≤
      target ∧ target ≤ 256 ∧ grace ≤ 1000000 ∧ (scope = 1 ∧ (Tab.get? s.cfg.tenants ident.toNat).isSome = true ∨ scope = 2 ∧
      (Tab.get? s.cfg.links ident.toNat).isSome = true)) ∧
    (∃ (s : State) (g : Go) (scope : Nat) (ident : W32) (target : Nat) (grace : Nat) (dur : Nat), GoReady s g false 14 [] ∧ 1 ≤
      target ∧ target ≤ 256 ∧ grace ≤ 1000000 ∧ (scope = 1 ∧ (Tab.get? s.cfg.tenants ident.toNat).isSome = true ∨ scope = 2 ∧
      (Tab.get? s.cfg.links ident.toNat).isSome = true)) ∧
    (∃ (s : State) (g : Go) (scope : Nat) (ident : W32) (buf : SegDesc), GoReady s g false 24 [] ∧ badBuf buf = false ∧ scope ≤ 2 ∧
      (scope = 1 → ident.toNat < s.part.tiles) ∧ (scope = 2 → (getConn? s ident).isSome = true)) := by
  refine ⟨?_, ?_, ?_, ?_, ?_, ?_, ?_, ?_, ?_, ?_, ?_, ?_, ?_⟩
  · exact ⟨netted conn0, go 8, 47589, 1024, 10, by unfold GoReady; decide +kernel⟩
  · exact ⟨up, go 8, 47590, 1, 10000, by unfold GoReady; decide +kernel⟩
  · exact ⟨up, go 28, 4095, 7, [(1, 2)], by unfold GoReady; decide +kernel⟩
  · exact ⟨{ up with part := .efv2 }, go 28, 0, 7, [(1, 65535)], by unfold GoReady; decide +kernel, by decide +kernel, by decide +kernel, by decide +kernel, ⟨(1, 65535), by simp, by decide +kernel⟩⟩
  · exact ⟨netted conn0, go 28, 0, 7, [(1, 2)], by unfold GoReady; decide +kernel⟩
  · exact ⟨netted conn0, go 24, 0xFF, buf0, by unfold GoReady; decide +kernel⟩
  · exact ⟨netted conn0, go 24, 7, buf0, by unfold GoReady; decide +kernel⟩
  · exact ⟨netted conn0, go 4, 0, conn0, by unfold GoReady; decide +kernel⟩
  · exact ⟨netted conn0, 0, conn0, 2, by decide +kernel⟩
  · exact ⟨netted conn0, go 14, 0, conn0, 256, 0, 0, by unfold GoReady; decide +kernel⟩
  · exact ⟨netted conn0, go 14, 1, 0, 256, 0, 0, by unfold GoReady; decide +kernel⟩
  · exact ⟨netted conn0, go 14, 2, 0, 1, 1000000, 0, by unfold GoReady; decide +kernel⟩
  · exact ⟨netted conn0, go 24, 2, 0, buf0, by unfold GoReady; decide +kernel⟩

theorem witness_PortRows :
    (∃ (s : State) (port : Nat), fwUp s = true ∧ port < s.part.ports ∧ tileUp s (tileOfPort port) = true ∧ s.pins.sdRefclk.getD
      (tileOfPort port / 2) false = true ∧ (getLink s port).started = true ∧ (getLink s port).up = false ∧ (linkCfg s
      port).p.role ≠ 0) ∧
    (∃ (s : State) (port : Nat), running s = true ∧ (getLink s port).up = true ∧ (linkCfg s port).p.role ≤ 1) ∧
    (∃ (s : State) (port : Nat) (n : Nat), running s = true ∧ (getLink s port).up = true ∧ n ≤ 100) ∧
    (∃ (s : State) (port : Nat) (n : Nat), running s = true ∧ (getLink s port).up = true ∧ 100 < n) ∧
    (∃ (s : State) (port : Nat) (q : Nat) (cl : BitVec 8), ethernetUp s port = true ∧ lossless (linkCfg s port).p = true ∧
      cl.getLsbD (linkCfg s port).p.pcp = true) ∧
    (∃ (s : State) (port : Nat) (q : Nat) (cl : BitVec 8), ethernetUp s port = true ∧ cl.getLsbD (linkCfg s port).p.pcp = false) ∧
    (∃ (s : State) (port : Nat) (k : Nat), ethernetUp s port = true ∧ lossless (linkCfg s port).p = true ∧ (linkCfg s port).p.xoff *
      lanesOf (linkCfg s port).p.mode ≤ k ∧ k ≤ 2048 * lanesOf (linkCfg s port).p.mode) ∧
    (∃ (s : State) (port : Nat) (k : Nat), ethernetUp s port = true ∧ lossless (linkCfg s port).p = true ∧ (getLink s port).xoff =
      true ∧ k < ((linkCfg s port).p.xoff - 256) * lanesOf (linkCfg s port).p.mode ∧ k ≤ 2048 * lanesOf (linkCfg s port).p.mode) ∧
    (∃ (s : State) (tile : Nat) (port : Nat) (a : BitVec 128) (mac : BitVec 48), (getTile s tile).neighbours.find? (fun e => e.2.1
      == a) = some (port, a, mac) ∧ ethernetUp s port = true) ∧
    (∃ (s : State) (port : Nat) (c : Carriage) (target : BitVec 128) (sender : BitVec 128) (mac : BitVec 48), ethernetUp s port =
      true ∧ badCarriage (linkCfg s port).p c = none ∧ (linkAddrs s port).contains target = true) ∧
    (∃ (s : State) (port : Nat) (c : Carriage) (sender : BitVec 128) (mac : BitVec 48), ethernetUp s port = true ∧ badCarriage
      (linkCfg s port).p c = none) ∧
    (∃ (s : State) (port : Nat) (c : Carriage) (src : BitVec 128) (dst : BitVec 128) (payload : List Byte), ethernetUp s port = true
      ∧ badCarriage (linkCfg s port).p c = none ∧ (linkAddrs s port).contains dst = true) ∧
    (∃ (s : State) (port : Nat) (cause : Nat) (c : Carriage) (m : NeighbourMsg) (src : BitVec 128) (dst : BitVec 128) (payload :
      List Byte) (i : Instr), ethernetUp s port = true ∧ badCarriage (linkCfg s port).p c = some cause ∧ (i =
      .neighbourDiscovery ⟨c, port⟩ m ∨ i = .echoRequest ⟨c, port⟩ src dst payload)) ∧
    (∃ (s : State) (port : Nat) (cause : Nat) (c : Carriage) (m : NeighbourMsg) (src : BitVec 128) (dst : BitVec 128) (payload :
      List Byte) (i : Instr), ethernetUp s port = true ∧ badCarriage (linkCfg s port).p c = some cause ∧ (i =
      .neighbourDiscovery ⟨c, port⟩ m ∨ i = .echoRequest ⟨c, port⟩ src dst payload)) ∧
    (∃ (s : State) (mb : Nat) (port : Nat) (counts : List (Nat × Nat)), running s = true ∧ (getMbx s mb).running = some (.portTest
      port) ∧ (getMbx s mb).orphan = false) := by
  refine ⟨?_, ?_, ?_, ?_, ?_, ?_, ?_, ?_, ?_, ?_, ?_, ?_, ?_, ?_, ?_⟩
  · exact ⟨{ up with cfg := { links := [(0, { p := port0 1, started := true })] }, links := [(0, { started := true })] }, 0, by decide +kernel⟩
  · exact ⟨{ up with cfg := { links := [(0, { p := port0 1, started := true })] }, links := [(0, { up := true, started := true })] }, 0, by decide +kernel⟩
  · exact ⟨{ up with cfg := { links := [(0, { p := port0 1, started := true })] }, links := [(0, { up := true, started := true })] }, 0, 100, by decide +kernel⟩
  · exact ⟨{ up with cfg := { links := [(0, { p := port0 1, started := true })] }, links := [(0, { up := true, started := true })] }, 0, 101, by decide +kernel⟩
  · exact ⟨{ up with cfg := { links := [(0, { p := port0 1, started := true })] }, links := [(0, { up := true, started := true })] }, 0, 5, 8, by decide +kernel⟩
  · exact ⟨{ up with cfg := { links := [(0, { p := port0 1, started := true })] }, links := [(0, { up := true, started := true })] }, 0, 5, 4, by decide +kernel⟩
  · exact ⟨{ up with cfg := { links := [(0, { p := port0 1, started := true })] }, links := [(0, { up := true, started := true })] }, 0, 1024, by decide +kernel⟩
  · exact ⟨{ up with cfg := { links := [(0, { p := port0 1, started := true })] }, links := [(0, { up := true, started := true, xoff := true })] }, 0, 767, by decide +kernel⟩
  · exact ⟨{ up with cfg := { links := [(0, { p := port0 1, started := true })] }, links := [(0, { up := true, started := true })], tiles := [(0, { neighbours := [(0, 9, 7)] })] }, 0, 0, 9, 7, by decide +kernel⟩
  · exact ⟨portUp (port0 1), 0, {}, v4Mapped 0x0A000001, 9, 7, by decide +kernel⟩
  · exact ⟨portUp (port0 1), 0, {}, 9, 7, by decide +kernel⟩
  · exact ⟨portUp (port0 1), 0, {}, 9, v4Mapped 0x0A000001, [1], by decide +kernel⟩
  · exact ⟨portUp (port0 1), 0, ((badCarriage (port0 1) { stag := true }).getD 0), { stag := true }, .answer 9 7, 9, 9, [], .neighbourDiscovery ⟨{ stag := true }, 0⟩ (.answer 9 7), by decide +kernel, by decide +kernel, by simp⟩
  · exact ⟨portUp (port0 1), 0, ((badCarriage (port0 1) { stag := true }).getD 0), { stag := true }, .answer 9 7, 9, 9, [], .echoRequest ⟨{ stag := true }, 0⟩ 9 9 [], by decide +kernel, by decide +kernel, by simp⟩
  · exact ⟨boxed up 0 { busy := true, running := some (.portTest 0) }, 0, 0, [(1, 2)], by decide +kernel⟩

theorem witness_PartnerFrameRows :
    (∃ (s : State) (h : PartnerHdr) (l : Nat), PartnerIn s h l 1 []) ∧
    (∃ (s : State) (h : PartnerHdr) (l : Nat), PartnerIn s h l 1 [] ∧ (getPartner s l).up = false ∧ poolsOn s l = [] ∧ (getPartner s
      l).unacked = []) ∧
    (∃ (s : State) (h : PartnerHdr) (l : Nat) (c : PartnerCfg), linkAt s h.port = some l ∧ Tab.get? s.cfg.partners l = some c ∧
      running s = true ∧ tileUp s (tileOfPort h.port) = true ∧ partnerWired s l = true ∧ h.type = 1 ∧ h.crcGood [] = false) ∧
    (∃ (s : State) (h : PartnerHdr) (l : Nat) (c : PartnerCfg), linkAt s h.port = some l ∧ Tab.get? s.cfg.partners l = some c ∧
      running s = true ∧ tileUp s (tileOfPort h.port) = true ∧ partnerWired s l = true ∧ h.type = 1 ∧ h.crcGood [] = true ∧
      h.sender ≠ c.identity) ∧
    (∃ (s : State) (h : PartnerHdr) (l : Nat), PartnerIn s h l 2 []) ∧
    (∃ (s : State) (h : PartnerHdr) (l : Nat) (pool : Nat) (d : PoolDesc), PartnerIn s h l (partnerBytes (.offer pool d)).1
      (partnerBytes (.offer pool d)).2 ∧ h.lseq = (getPartner s l).expect) ∧
    (∃ (s : State) (h : PartnerHdr) (l : Nat) (pool : Nat) (r : Nat), PartnerIn s h l (partnerBytes (.reply pool r)).1 (partnerBytes
      (.reply pool r)).2 ∧ h.lseq = (getPartner s l).expect) ∧
    (∃ (s : State) (h : PartnerHdr) (l : Nat) (pool : Nat), PartnerIn s h l (partnerBytes (.withdraw pool)).1 (partnerBytes
      (.withdraw pool)).2 ∧ h.lseq = (getPartner s l).expect) ∧
    (∃ (s : State) (h : PartnerHdr) (l : Nat) (q : Nat) (fo : Nat) (o : Nat) (r : Rec), PartnerIn s h l (partnerBytes (.record q o
      fo true r)).1 (partnerBytes (.record q o fo true r)).2 ∧ h.lseq = (getPartner s l).expect) ∧
    (∃ (s : State) (h : PartnerHdr) (l : Nat) (q : Nat) (fo : Nat) (o : Nat) (r : Rec), PartnerIn s h l (partnerBytes (.record q o
      fo false r)).1 (partnerBytes (.record q o fo false r)).2 ∧ h.lseq = (getPartner s l).expect) ∧
    (∃ (s : State) (h : PartnerHdr) (l : Nat) (q : Nat) (o : Nat) (r : Nat), PartnerIn s h l (partnerBytes (.confirm q o r)).1
      (partnerBytes (.confirm q o r)).2 ∧ h.lseq = (getPartner s l).expect) ∧
    (∃ (s : State) (h : PartnerHdr) (l : Nat) (pool : Nat) (hds : List PoolHeader), PartnerIn s h l (partnerBytes (.release pool)).1
      (partnerBytes (.release pool)).2 ∧ h.lseq = (getPartner s l).expect) ∧
    (∃ (s : State) (h : PartnerHdr) (l : Nat) (pool : Nat) (r : Nat), PartnerIn s h l (partnerBytes (.releaseAck pool r)).1
      (partnerBytes (.releaseAck pool r)).2 ∧ h.lseq = (getPartner s l).expect) ∧
    (∃ (s : State) (c : Instr) (h : PartnerHdr) (l : Nat) (b : PartnerBody), SeqRow c h b ∧ PartnerIn s h l (partnerBytes b).1
      (partnerBytes b).2 ∧ seqBefore (getPartner s l).expect h.lseq = true) ∧
    (∃ (s : State) (c : Instr) (h : PartnerHdr) (l : Nat) (b : PartnerBody), SeqRow c h b ∧ PartnerIn s h l (partnerBytes b).1
      (partnerBytes b).2 ∧ seqBefore h.lseq (getPartner s l).expect = true) := by
  refine ⟨?_, ?_, ?_, ?_, ?_, ?_, ?_, ?_, ?_, ?_, ?_, ?_, ?_, ?_, ?_⟩
  · exact ⟨paired { up := true } pool0 { st := .running }, phdr (1, []) 0, 2, partnerIn_phdr _ _ _ _ _ (by decide +kernel) rfl (by decide +kernel)⟩
  · exact ⟨paired {} pool0 { st := .running }, phdr (1, []) 0, 2, partnerIn_phdr _ _ _ _ _ (by decide +kernel) rfl (by decide +kernel), by decide +kernel⟩
  · exact ⟨paired { up := true } pool0 { st := .running }, { phdr (1, []) 0 with crc := 0 }, 2, { port := 0, autoImport := true, identity := 99 }, by decide +kernel⟩
  · exact ⟨{ paired { up := true } pool0 { st := .running } with cfg := { (paired { up := true } pool0 { st := .running }).cfg with partners := [(2, { port := 0, autoImport := true, identity := 98 })] } }, phdr (1, []) 0, 2, { port := 0, autoImport := true, identity := 98 }, by decide +kernel⟩
  · exact ⟨paired { up := true } pool0 { st := .running }, phdr (2, []) 0, 2, partnerIn_phdr _ _ _ _ _ (by decide +kernel) rfl (by decide +kernel)⟩
  · exact ⟨paired { up := true } pool0 { st := .running }, phdr (partnerBytes (.offer 0 { k := 4, s := 0, n := 6, seed := 0, mirror0 := 0, mirror1 := 1, members := [], vols := [] })) 0, 2, 0, { k := 4, s := 0, n := 6, seed := 0, mirror0 := 0, mirror1 := 1, members := [], vols := [] }, partnerIn_phdr _ _ _ _ _ (by decide +kernel) rfl (by decide +kernel), by decide +kernel⟩
  · exact ⟨paired { up := true } pool0 { st := .running }, phdr (partnerBytes (.reply 0 1)) 0, 2, 0, 1, partnerIn_phdr _ _ _ _ _ (by decide +kernel) rfl (by decide +kernel), by decide +kernel⟩
  · exact ⟨paired { up := true } pool0 { st := .running }, phdr (partnerBytes (.withdraw 0)) 0, 2, 0, partnerIn_phdr _ _ _ _ _ (by decide +kernel) rfl (by decide +kernel), by decide +kernel⟩
  · exact ⟨paired { up := true } pool0 { st := .running }, phdr (partnerBytes (.record 3 1 0 true intent0)) 0, 2, 3, 0, 1, intent0, partnerIn_phdr _ _ _ _ _ (by decide +kernel) rfl (by decide +kernel), by decide +kernel⟩
  · exact ⟨paired { up := true } pool0 { st := .running }, phdr (partnerBytes (.record 3 1 0 false intent0)) 0, 2, 3, 0, 1, intent0, partnerIn_phdr _ _ _ _ _ (by decide +kernel) rfl (by decide +kernel), by decide +kernel⟩
  · exact ⟨paired { up := true } pool0 { st := .running }, phdr (partnerBytes (.confirm 3 1 0)) 0, 2, 3, 1, 0, partnerIn_phdr _ _ _ _ _ (by decide +kernel) rfl (by decide +kernel), by decide +kernel⟩
  · exact ⟨paired { up := true } pool0 { st := .running }, phdr (partnerBytes (.release 0)) 0, 2, 0, [], partnerIn_phdr _ _ _ _ _ (by decide +kernel) rfl (by decide +kernel), by decide +kernel⟩
  · exact ⟨paired { up := true } pool0 { st := .running }, phdr (partnerBytes (.releaseAck 0 0)) 0, 2, 0, 0, partnerIn_phdr _ _ _ _ _ (by decide +kernel) rfl (by decide +kernel), by decide +kernel⟩
  · exact ⟨paired { up := true } pool0 { st := .running }, .poolWithdraw (phdr (partnerBytes (.withdraw 0)) 5) 0, phdr (partnerBytes (.withdraw 0)) 5, 2, .withdraw 0, .inr (.inr (.inl ⟨0, rfl, rfl⟩)), partnerIn_phdr _ _ _ _ _ (by decide +kernel) rfl (by decide +kernel), by decide +kernel⟩
  · exact ⟨paired { up := true, expect := 5 } pool0 { st := .running }, .poolWithdraw (phdr (partnerBytes (.withdraw 0)) 0) 0, phdr (partnerBytes (.withdraw 0)) 0, 2, .withdraw 0, .inr (.inr (.inl ⟨0, rfl, rfl⟩)), partnerIn_phdr _ _ _ _ _ (by decide +kernel) rfl (by decide +kernel), by decide +kernel⟩

theorem witness_PartnerAnswers :
    (∃ (s : State) (l : Nat) (pool : Nat) (d : PoolDesc), offerResult s l pool d ≠ 0) ∧
    (∃ (s : State) (l : Nat) (pool : Nat) (d : PoolDesc), offerResult s l pool d = 0) ∧
    (∃ (s : State) (l : Nat) (pool : Nat) (d : PoolDesc), (poolCfg? s pool).isSome = true ∧ (poolCfg s pool).reserved ≠ some l) ∧
    (∃ (s : State) (l : Nat) (q : Nat) (o : Nat) (t : Nat) (r : Rec) (i : RingRec), (poolCfg s (recPool s r)).reserved = some l ∧
      r.kind = .data ∧ findPartner s l o r.ref = some (t, i) ∧ (getTile s t).amber.high = true) ∧
    (∃ (s : State) (l : Nat) (q : Nat) (o : Nat) (t : Nat) (r : Rec), (poolCfg s (recPool s r)).reserved = some l ∧ r.kind = .intent
      ∧ mirrorTile s o = some t) ∧
    (∃ (s : State) (l : Nat) (q : Nat) (o : Nat) (r : Rec), (poolCfg s (recPool s r)).reserved ≠ some l) ∧
    (∃ (s : State) (l : Nat) (pool : Nat) (result : Nat) (mb : Nat), (getPartner s l).offers.find? (fun o => o.1 == pool) = some
      (pool, mb) ∧ (getMbx s mb).running = some (.partnerOffer pool) ∧ (getMbx s mb).orphan = false ∧ result ≠ 0) ∧
    (∃ (s : State) (l : Nat) (pool : Nat) (mb : Nat), (getPartner s l).releases.find? (fun o => o.1 == pool) = some (pool, mb) ∧
      (getMbx s mb).running = some (.release pool)) := by
  refine ⟨?_, ?_, ?_, ?_, ?_, ?_, ?_, ?_⟩
  · exact ⟨{ up with cfg := { members := spares } }, 2, 0, { k := 3, s := 0, n := 6, seed := 0, mirror0 := 0, mirror1 := 1, members := [member0 0 0, member0 1 1, member0 2 0, member0 3 0, member0 4 0, member0 5 0], vols := [] }, by decide +kernel⟩
  · exact ⟨{ up with cfg := { members := spares } }, 2, 0, { k := 4, s := 0, n := 6, seed := 0, mirror0 := 0, mirror1 := 1, members := [member0 0 0, member0 1 1, member0 2 0, member0 3 0, member0 4 0, member0 5 0], vols := [] }, by decide +kernel⟩
  · exact ⟨served, 2, 0, { k := 4, s := 0, n := 6, seed := 0, mirror0 := 0, mirror1 := 1, members := [member0 0 0, member0 1 1, member0 2 0, member0 3 0, member0 4 0, member0 5 0], vols := [] }, by decide +kernel⟩
  · exact ⟨tiled (paired { up := true } { pool0 with reserved := some 2 } { st := .reserved }) { amber := { recs := [{ ring0 with r := { intent0 with partner := true, payloadBlocks := 40000, aux := 5, ref := 3 }, committed := true, origin := some (2, 0, 3) }], nextSeq := 1 } }, 2, 3, 0, 0, { intent0 with kind := .data, ref := 3 }, { ring0 with r := { intent0 with partner := true, payloadBlocks := 40000, aux := 5, ref := 3 }, committed := true, origin := some (2, 0, 3) }, by decide +kernel⟩
  · exact ⟨paired { up := true } { pool0 with reserved := some 2 } { st := .reserved }, 2, 3, 0, 0, intent0, by decide +kernel⟩
  · exact ⟨paired { up := true } pool0 { st := .running }, 2, 3, 0, intent0, by decide +kernel⟩
  · exact ⟨boxed (paired { up := true, offers := [(0, 0)] } (pool0) { st := .running }) 0 { busy := true, running := some (.partnerOffer 0) }, 2, 0, 3, 0, by decide +kernel⟩
  · exact ⟨boxed (paired { up := true, releases := [(0, 0)] } ({ pool0 with partner := some 2 }) { st := .running }) 0 { busy := true, running := some (.release 0) }, 2, 0, 0, by decide +kernel⟩

theorem witness_PartnerTimerRows :
    (∃ (s : State) (l : Nat) (f : W32 × PartnerBody) (r : List (W32 × PartnerBody)), (getPartner s l).unacked = f :: r ∧ running s =
      true ∧ partnerWired s l = true) ∧
    (∃ (s : State) (l : Nat), running s = true ∧ partnerWired s l = true) ∧
    (∃ (s : State) (l : Nat), running s = true ∧ (getPartner s l).up = true) ∧
    (∃ (s : State) (pool : Nat) (n : Nat) (o : BitVec 64), serving s = true ∧ leased s pool = true ∧ o = Config.identity) ∧
    (∃ (s : State) (pool : Nat) (n : Nat) (o : BitVec 64), serving s = true ∧ leased s pool = true ∧ o ≠ Config.identity) ∧
    (∃ (s : State) (pool : Nat), serving s = true ∧ leased s pool = true ∧ (getPool s pool).leaseOk = false) ∧
    (∃ (s : State) (pool : Nat), serving s = true ∧ leased s pool = true ∧ (getPool s pool).leaseOk = false ∧ s.cmds = [] ∧
      s.destages = [] ∧ (getPool s pool).work = none ∧ (getPool s pool).copyWork = none ∧ (getPool s pool).scrubWork = none) ∧
    (∃ (s : State) (pool : Nat) (l : Nat) (c : PartnerCfg) (hds : List PoolHeader) (hd : PoolHeader), serving s = true ∧
      reservedDown s pool = some l ∧ Tab.get? s.cfg.partners l = some c ∧ c.autoImport = true ∧ (getPool s pool).importHdr =
      none ∧ newestHeader hds = some hd) ∧
    (∃ (s : State) (pool : Nat) (hds : List PoolHeader) (h0 : PoolHeader) (hd : PoolHeader), serving s = true ∧ (getPool s
      pool).importHdr = some h0 ∧ (getPool s pool).importMb = none ∧ (reservedDown s pool).isSome = true ∧ h0.crcGood = true ∧
      newestHeader hds = some hd ∧ h0.owner = hd.owner ∧ h0.lease = hd.lease) ∧
    (∃ (s : State) (pool : Nat) (hds : List PoolHeader) (h0 : PoolHeader) (hd : PoolHeader), serving s = true ∧ (getPool s
      pool).importHdr = some h0 ∧ (getPool s pool).importMb = none ∧ (reservedDown s pool).isSome = true ∧ newestHeader hds =
      some hd ∧ h0.lease ≠ hd.lease) ∧
    (∃ (s : State) (pool : Nat) (mb : Nat) (hds : List PoolHeader) (h0 : PoolHeader) (hd : PoolHeader), serving s = true ∧ (getPool
      s pool).importHdr = some h0 ∧ (getPool s pool).importMb = some mb ∧ (poolCfg s pool).reserved.isSome = true ∧ newestHeader
      hds = some hd ∧ h0.owner ≠ hd.owner ∧ (getMbx s mb).orphan = false) := by
  refine ⟨?_, ?_, ?_, ?_, ?_, ?_, ?_, ?_, ?_, ?_, ?_⟩
  · exact ⟨paired { up := true, unacked := [(3, .withdraw 0)] } (pool0) { st := .running }, 2, (3, .withdraw 0), [], by decide +kernel⟩
  · exact ⟨paired { up := true } (pool0) { st := .running }, 2, by decide +kernel⟩
  · exact ⟨paired { up := true } (pool0) { st := .running }, 2, by decide +kernel⟩
  · exact ⟨paired { up := true } ({ pool0 with partner := some 2 }) { st := .running }, 0, 2, Config.identity, by decide +kernel, by decide +kernel, rfl⟩
  · exact ⟨paired { up := true } ({ pool0 with partner := some 2 }) { st := .running }, 0, 2, Config.identity + 1, by decide +kernel, by decide +kernel, by simp⟩
  · exact ⟨paired { up := true } ({ pool0 with partner := some 2 }) { st := .running, leaseOk := false }, 0, by decide +kernel⟩
  · exact ⟨paired { up := true } { pool0 with partner := some 2 } { st := .running, leaseOk := false }, 0, by decide +kernel⟩
  · exact ⟨paired {} { pool0 with reserved := some 2 } { st := .reserved }, 0, 2, { port := 0, autoImport := true, identity := 99 }, [{ owner := 3, lease := 5, suspended := false, image := {} }], { owner := 3, lease := 5, suspended := false, image := {} }, by decide +kernel⟩
  · exact ⟨paired {} { pool0 with reserved := some 2 } { st := .reserved, importHdr := some { owner := 3, lease := 5, suspended := false, image := {} } }, 0, [{ owner := 3, lease := 5, suspended := false, image := {} }], { owner := 3, lease := 5, suspended := false, image := {} }, { owner := 3, lease := 5, suspended := false, image := {} }, by decide +kernel⟩
  · exact ⟨paired {} { pool0 with reserved := some 2 } { st := .reserved, importHdr := some { owner := 3, lease := 5, suspended := false, image := {} } }, 0, [{ owner := 3, lease := 6, suspended := false, image := {} }], { owner := 3, lease := 5, suspended := false, image := {} }, { owner := 3, lease := 6, suspended := false, image := {} }, by decide +kernel⟩
  · exact ⟨boxed (paired {} { pool0 with reserved := some 2 } { st := .reserved, importHdr := some { owner := 3, lease := 5, suspended := false, image := {} }, importMb := some 0 }) 0 { busy := true, running := some (.importing 0) }, 0, 0, [{ owner := 4, lease := 5, suspended := false, image := {} }], { owner := 3, lease := 5, suspended := false, image := {} }, { owner := 4, lease := 5, suspended := false, image := {} }, by decide +kernel⟩

theorem witness_PortCommandRows :
    (∃ (s : State) (g : Go) (p : PortParams), GoReady s g false 64 [objLink p.port] ∧ (portFields p).all (fun f => !f.2) = true ∧
      (portChecks s p).all (fun c => !c.fails) = true ∧ (getLink s p.port).started = false ∧ (getLink s p.port).test = none) ∧
    (∃ (s : State) (g : Go) (port : Nat), GoReady s g false 3 [objLink port] ∧ port < s.part.ports ∧ heldByOther s port port = false
      ∧ (linkCfg s port).p.role ≠ 1) ∧
    (∃ (s : State) (g : Go) (port : Nat), GoReady s g false 3 [objLink port] ∧ port < s.part.ports ∧ heldByOther s port port = false
      ∧ (linkCfg s port).p.role = 1) ∧
    (∃ (s : State) (g : Go) (port : Nat), GoReady s g false 3 [objLink port] ∧ port < s.part.ports ∧ heldByOther s port port = false
      ∧ (linkCfg s port).p.role = 1 ∧ s.sbt.conns = []) ∧
    (∃ (s : State) (g : Go) (port : Nat), GoReady s g false 3 [objLink port] ∧ port < s.part.ports ∧ heldByOther s port port = false
      ∧ (getLink s port).test = none) ∧
    (∃ (s : State) (g : Go) (port : Nat), GoReady s g false 2 [] ∧ port < s.part.ports ∧ heldByOther s port port = false) ∧
    (∃ (s : State) (g : Go) (port : Nat) (buf : SegDesc), GoReady s g false 24 [] ∧ badBuf buf = false ∧ port < s.part.ports ∧ port
      ≠ 0xFFFF ∧ heldByOther s port port = false) ∧
    (∃ (s : State) (g : Go) (buf : SegDesc), GoReady s g false 24 [] ∧ badBuf buf = false) ∧
    (∃ (s : State) (g : Go) (port : Nat) (pat : Nat) (sec : Nat), GoReady s g false 6 [objLink port] ∧ port < s.part.ports ∧
      heldByOther s port port = false ∧ pat ≤ 1 ∧ (getLink s port).started = false ∧ (getLink s port).test = none) ∧
    (∃ (s : State) (g : Go) (port : Nat) (link : Nat) (auto : Bool) (id : BitVec 64) (c : LinkCfg), GoReady s g false 16 [objLink
      port, objPartner link] ∧ link ≤ 5 ∧ s.cfg.partners.any (fun e => e.1 != link && e.2.identity == id) = false ∧ Tab.get?
      s.cfg.links port = some c ∧ c.p.role = 3 ∧ (getLink s port).started = false) ∧
    (∃ (s : State) (g : Go) (link : Nat) (c : PartnerCfg), GoReady s g false 1 [] ∧ link ≤ 5 ∧ Tab.get? s.cfg.partners link = some
      c) ∧
    (∃ (s : State) (g : Go) (pool : Nat) (l : Nat) (hds : List PoolHeader) (hd : PoolHeader), GoReady s g false 2 [objPool pool] ∧
      s.phase = .ready ∧ pool < 64 ∧ reservedDown s pool = some l ∧ (getPool s pool).importMb = none ∧ newestHeader hds = some
      hd) ∧
    (∃ (s : State) (g : Go) (pool : Nat) (l : Nat) (c : PoolCfg), GoReady s g false 2 [objPool pool] ∧ s.phase = .ready ∧ pool < 64
      ∧ poolCfg? s pool = some c ∧ c.reserved = none ∧ c.partner = some l ∧ (getPool s pool).st = .stopped ∧ (getPartner s l).up
      = true) ∧
    (∃ (s : State) (g : Go) (pool : Nat) (l : Nat) (c : PoolCfg) (pc : PartnerCfg), GoReady s g false 3 [objPool pool, objPartner l]
      ∧ s.phase = .ready ∧ pool < 64 ∧ l ≤ 5 ∧ poolCfg? s pool = some c ∧ c.reserved = none ∧ Tab.get? s.cfg.partners l = some
      pc ∧ (getPool s pool).st = .stopped ∧ (getPartner s l).up = true) ∧
    (∃ (s : State) (g : Go) (pool : Nat) (c : PoolCfg), GoReady s g false 3 [objPool pool] ∧ s.phase = .ready ∧ pool < 64 ∧ poolCfg?
      s pool = some c ∧ c.reserved = none ∧ (getPool s pool).st = .stopped) := by
  refine ⟨?_, ?_, ?_, ?_, ?_, ?_, ?_, ?_, ?_, ?_, ?_, ?_, ?_, ?_, ?_⟩
  · exact ⟨up, go 64, port0 1, by unfold GoReady; decide +kernel⟩
  · exact ⟨{ up with cfg := { links := [(0, { p := port0 2, started := true })] }, links := [(0, { up := true, started := true })] }, go 3, 0, by unfold GoReady; decide +kernel⟩
  · exact ⟨portUp (port0 1), go 3, 0, by unfold GoReady; decide +kernel⟩
  · exact ⟨{ up with cfg := { links := [(0, { p := port0 1, started := true })] }, links := [(0, { up := true, started := true })] }, go 3, 0, by unfold GoReady; decide +kernel⟩
  · exact ⟨{ up with cfg := { links := [(0, { p := port0 1, started := true })] }, links := [(0, { up := false })] }, go 3, 0, by unfold GoReady; decide +kernel⟩
  · exact ⟨{ up with cfg := { links := [(0, { p := port0 1, started := true })] }, links := [(0, { up := true, started := true })] }, go 2, 0, by unfold GoReady; decide +kernel⟩
  · exact ⟨portUp (port0 1), go 24, 0, buf0, by unfold GoReady; decide +kernel⟩
  · exact ⟨portUp (port0 1), go 24, buf0, by unfold GoReady; decide +kernel⟩
  · exact ⟨{ up with cfg := { links := [(0, { p := port0 1, started := true })] }, links := [(0, { up := false })] }, go 6, 0, 1, 3, by unfold GoReady; decide +kernel⟩
  · exact ⟨{ up with cfg := { links := [(0, { p := port0 3, started := true })] }, links := [(0, { up := false })] }, go 16, 0, 2, true, 99, { p := port0 3, started := true }, by unfold GoReady; decide +kernel⟩
  · exact ⟨{ up with cfg := { partners := [(2, { port := 0, autoImport := true, identity := 99 })] } }, go 1, 2, { port := 0, autoImport := true, identity := 99 }, by unfold GoReady; decide +kernel⟩
  · exact ⟨paired {} { pool0 with reserved := some 2 } { st := .reserved }, go 2, 0, 2, [{ owner := 3, lease := 5, suspended := false, image := {} }], { owner := 3, lease := 5, suspended := false, image := {} }, by unfold GoReady; decide +kernel⟩
  · exact ⟨paired { up := true } ({ pool0 with partner := some 2 }) { st := .stopped }, go 2, 0, 2, { pool0 with partner := some 2 }, by unfold GoReady; decide +kernel⟩
  · exact ⟨paired { up := true } (pool0) { st := .stopped }, go 3, 0, 2, pool0, { port := 0, autoImport := true, identity := 99 }, by unfold GoReady; decide +kernel⟩
  · exact ⟨paired { up := true } ({ pool0 with partner := some 2 }) { st := .stopped }, go 3, 0, { pool0 with partner := some 2 }, by unfold GoReady; decide +kernel⟩

theorem witness_HostLinkRows :
    (∃ (s : State) (rate : Nat) (width : Nat), endpointUp s = true ∧ s.pcie.linkUp = false ∧ (width = 1 ∨ width = 2 ∨ width = 4 ∨
      width = 8 ∨ width = 16)) ∧
    (∃ (s : State) (rate : Nat) (width : Nat), endpointUp s = true ∧ s.pcie.linkUp = false ∧ (width = 1 ∨ width = 2 ∨ width = 4 ∨
      width = 8 ∨ width = 16)) ∧
    (∃ (s : State) (rate : Nat) (width : Nat), endpointUp s = true ∧ s.pcie.linkUp = false ∧ (width = 1 ∨ width = 2 ∨ width = 4 ∨
      width = 8 ∨ width = 16)) ∧
    (∃ (s : State) (rate : Nat) (width : Nat), endpointUp s = true ∧ s.pcie.linkUp = false ∧ (width = 1 ∨ width = 2 ∨ width = 4 ∨
      width = 8 ∨ width = 16)) ∧
    (∃ (s : State) (rate : Nat) (width : Nat), endpointUp s = true ∧ s.pcie.linkUp = false ∧ (width = 1 ∨ width = 2 ∨ width = 4 ∨
      width = 8 ∨ width = 16)) ∧
    (∃ (s : State) (rate : Nat), running s = true ∧ s.pcie.linkUp = true ∧ 0 < s.pcie.width) ∧
    (∃ (s : State) (rate : Nat) (width : Nat), running s = true ∧ s.pcie.linkUp = true ∧ 0 < width ∧ (rate < s.pcie.rate ∨ width <
      s.pcie.width)) ∧
    (∃ (s : State) (rate : Nat) (width : Nat), running s = true ∧ s.pcie.linkUp = true ∧ 0 < width ∧ (rate < s.pcie.rate ∨ width <
      s.pcie.width)) ∧
    (∃ (s : State) (fn : Nat) (d : DState), running s = true ∧ s.pcie.linkUp = true ∧ fnExists s fn = true ∧ (d = .d3hot ∨ d = .d1 ∧
      fn = 0) ∧ (getFunc s fn).d = .d0) ∧
    (∃ (s : State) (fn : Nat) (d : DState), running s = true ∧ s.pcie.linkUp = true ∧ fnExists s fn = true ∧ (d = .d3hot ∨ d = .d1 ∧
      fn = 0) ∧ (getFunc s fn).d = .d0) ∧
    (∃ (s : State) (fn : Nat), running s = true ∧ s.pcie.linkUp = true ∧ fnExists s fn = true ∧ (getFunc s fn).d ≠ .d0) ∧
    (∃ (s : State) (n : Nat), running s = true ∧ s.pcie.linkUp = true ∧ (getFunc s 0).d = .d0 ∧ 1 ≤ n ∧ n ≤ 63 ∧ s.pcie.numVfs ≤ n) ∧
    (∃ (s : State) (n : Nat), running s = true ∧ s.pcie.linkUp = true ∧ (getFunc s 0).d = .d0 ∧ n ≤ 63) ∧
    (∃ (s : State), running s = true ∧ s.pcie.linkUp = true) ∧
    (∃ (s : State) (fn : Nat), running s = true ∧ s.pcie.linkUp = true ∧ fnExists s fn = true ∧ fn ≠ 0) := by
  refine ⟨?_, ?_, ?_, ?_, ?_, ?_, ?_, ?_, ?_, ?_, ?_, ?_, ?_, ?_, ?_⟩
  · exact ⟨{ up with pcie := {} }, 5, 1, by decide +kernel⟩
  · exact ⟨{ up with pcie := {} }, 5, 2, by decide +kernel⟩
  · exact ⟨{ up with pcie := {} }, 5, 4, by decide +kernel⟩
  · exact ⟨{ up with pcie := {} }, 5, 8, by decide +kernel⟩
  · exact ⟨{ up with pcie := {} }, 5, 16, by decide +kernel⟩
  · exact ⟨up, 5, by decide +kernel⟩
  · exact ⟨{ up with pcie := { up.pcie with rate := 5 } }, 4, 8, by decide +kernel⟩
  · exact ⟨up, 0, 4, by decide +kernel⟩
  · exact ⟨up, 0, .d3hot, by decide +kernel⟩
  · exact ⟨up, 0, .d1, by decide +kernel⟩
  · exact ⟨{ up with pcie := { up.pcie with funcs := [(0, { d := .d3hot })] } }, 0, by decide +kernel⟩
  · exact ⟨up, 63, by decide +kernel⟩
  · exact ⟨{ up with pcie := { up.pcie with numVfs := 3 } }, 0, by decide +kernel⟩
  · exact ⟨up, by decide +kernel⟩
  · exact ⟨{ up with pcie := { up.pcie with numVfs := 3 } }, 3, by decide +kernel⟩

theorem witness_HostRequestRows :
    (∃ (s : State) (c : HostCpl), running s = true ∧ s.pcie.linkUp = true ∧ s.pcie.reqs.find? (fun r => r.tag == c.tag) = none ∧
      Tab.get? s.pcie.quarantine c.tag = none) ∧
    (∃ (s : State) (c : HostCpl) (fn : Nat) (due : Nat), running s = true ∧ s.pcie.linkUp = true ∧ s.pcie.reqs.find? (fun r => r.tag
      == c.tag) = none ∧ Tab.get? s.pcie.quarantine c.tag = some (fn, due)) ∧
    (∃ (s : State) (c : HostCpl) (r : HostReq), running s = true ∧ s.pcie.linkUp = true ∧ s.pcie.reqs.find? (fun r => r.tag ==
      c.tag) = some r ∧ c.status = .sc ∧ c.poisoned = false ∧ cplGood r c = true ∧ r.got.length + c.data.length < r.len) ∧
    (∃ (s : State) (c : HostCpl) (r : HostReq), running s = true ∧ s.pcie.linkUp = true ∧ s.pcie.reqs.find? (fun r => r.tag ==
      c.tag) = some r ∧ c.status = .sc ∧ c.poisoned = false ∧ cplGood r c = true ∧ r.got.length + c.data.length = r.len) ∧
    (∃ (s : State) (c : HostCpl) (r : HostReq), running s = true ∧ s.pcie.linkUp = true ∧ s.pcie.reqs.find? (fun r => r.tag ==
      c.tag) = some r ∧ c.status = .sc ∧ c.poisoned = false ∧ cplGood r c = false) ∧
    (∃ (s : State) (c : HostCpl) (r : HostReq), running s = true ∧ s.pcie.linkUp = true ∧ s.pcie.reqs.find? (fun r => r.tag ==
      c.tag) = some r ∧ c.status = .sc ∧ c.poisoned = true) ∧
    (∃ (s : State) (c : HostCpl) (r : HostReq), running s = true ∧ s.pcie.linkUp = true ∧ s.pcie.reqs.find? (fun r => r.tag ==
      c.tag) = some r ∧ c.status ≠ .sc) ∧
    (∃ (s : State) (tag : Nat) (r : HostReq), running s = true ∧ s.pcie.reqs.find? (fun r => r.tag == tag) = some r) ∧
    (∃ (s : State) (tag : Nat) (e : Nat × Nat), running s = true ∧ Tab.get? s.pcie.quarantine tag = some e) ∧
    (∃ (s : State) (tag : Nat) (e : Nat × Nat), running s = true ∧ Tab.get? s.pcie.quarantine tag = some e ∧ s.pcie.waitReqs = [] ∧
      s.pcie.waitWrites = [] ∧ s.live = []) ∧
    (∃ (s : State) (tr : Translation) (x : TrReq), running s = true ∧ s.pcie.linkUp = true ∧ s.pcie.trReqs.find? (fun x => x.id ==
      tr.req) = some x ∧ tr.status = .sc ∧ (if x.write then tr.writeOk else tr.readOk) = true) ∧
    (∃ (s : State) (tr : Translation) (x : TrReq), running s = true ∧ s.pcie.linkUp = true ∧ s.pcie.trReqs.find? (fun x => x.id ==
      tr.req) = some x ∧ (tr.status ≠ .sc ∨ (if x.write then tr.writeOk else tr.readOk) = false)) ∧
    (∃ (s : State) (tr : Translation) (x : TrReq), running s = true ∧ s.pcie.linkUp = true ∧ s.pcie.trReqs.find? (fun x => x.id ==
      tr.req) = some x ∧ (tr.status ≠ .sc ∨ (if x.write then tr.writeOk else tr.readOk) = false)) ∧
    (∃ (s : State) (fn : Nat) (itag : Nat) (pages : Nat) (page : BitVec 52), running s = true ∧ s.pcie.linkUp = true ∧ fnExists s fn
      = true ∧ (getFunc s fn).ats = false ∧ s.pcie.waitReqs = [] ∧ s.pcie.waitWrites = [] ∧ s.live = []) := by
  refine ⟨?_, ?_, ?_, ?_, ?_, ?_, ?_, ?_, ?_, ?_, ?_, ?_, ?_, ?_⟩
  · exact ⟨up, { tag := 3, status := .sc, poisoned := false, byteCount := 128, lowerAddr := 0, data := List.replicate 64 1 }, by decide +kernel⟩
  · exact ⟨{ up with pcie := { up.pcie with quarantine := [(3, 0, 5)] } }, { tag := 3, status := .sc, poisoned := false, byteCount := 128, lowerAddr := 0, data := List.replicate 64 1 }, 0, 5, by decide +kernel⟩
  · exact ⟨{ up with pcie := { up.pcie with reqs := [{ tag := 3, fn := 0, purpose := .data 4 0, addr := 0, len := 128 }] } }, { tag := 3, status := .sc, poisoned := false, byteCount := 128, lowerAddr := 0, data := List.replicate 64 1 }, { tag := 3, fn := 0, purpose := .data 4 0, addr := 0, len := 128 }, by decide +kernel⟩
  · exact ⟨{ up with pcie := { up.pcie with reqs := [{ tag := 3, fn := 0, purpose := .data 4 0, addr := 0, len := 128 }] } }, { tag := 3, status := .sc, poisoned := false, byteCount := 128, lowerAddr := 0, data := List.replicate 128 1 }, { tag := 3, fn := 0, purpose := .data 4 0, addr := 0, len := 128 }, by decide +kernel⟩
  · exact ⟨{ up with pcie := { up.pcie with reqs := [{ tag := 3, fn := 0, purpose := .data 4 0, addr := 0, len := 128 }] } }, { tag := 3, status := .sc, poisoned := false, byteCount := 128, lowerAddr := 0, data := List.replicate 65 1 }, { tag := 3, fn := 0, purpose := .data 4 0, addr := 0, len := 128 }, by decide +kernel⟩
  · exact ⟨{ up with pcie := { up.pcie with reqs := [{ tag := 3, fn := 0, purpose := .data 4 0, addr := 0, len := 128 }] } }, { tag := 3, status := .sc, poisoned := true, byteCount := 128, lowerAddr := 0, data := List.replicate 64 1 }, { tag := 3, fn := 0, purpose := .data 4 0, addr := 0, len := 128 }, by decide +kernel⟩
  · exact ⟨{ up with pcie := { up.pcie with reqs := [{ tag := 3, fn := 0, purpose := .data 4 0, addr := 0, len := 128 }] } }, { tag := 3, status := .ur, poisoned := false, byteCount := 128, lowerAddr := 0, data := List.replicate 0 1 }, { tag := 3, fn := 0, purpose := .data 4 0, addr := 0, len := 128 }, by decide +kernel⟩
  · exact ⟨{ up with pcie := { up.pcie with reqs := [{ tag := 3, fn := 0, purpose := .data 4 0, addr := 64, len := 2 }] } }, 3, { tag := 3, fn := 0, purpose := .data 4 0, addr := 64, len := 2 }, by decide +kernel⟩
  · exact ⟨{ up with pcie := { up.pcie with quarantine := [(3, 0, 5)] } }, 3, (0, 5), by decide +kernel⟩
  · exact ⟨{ up with pcie := { up.pcie with quarantine := [(3, 0, 5)] } }, 3, (0, 5), by decide +kernel⟩
  · exact ⟨{ up with pcie := { up.pcie with trReqs := [{ id := 6, fn := 0, page := 9, write := false }] } }, { req := 6, status := .sc, readOk := true, writeOk := false, page := 12 }, { id := 6, fn := 0, page := 9, write := false }, by decide +kernel⟩
  · exact ⟨{ up with pcie := { up.pcie with trReqs := [{ id := 6, fn := 0, page := 9, write := false }] } }, { req := 6, status := .ur, readOk := true, writeOk := false, page := 12 }, { id := 6, fn := 0, page := 9, write := false }, by decide +kernel⟩
  · exact ⟨{ up with pcie := { up.pcie with trReqs := [{ id := 6, fn := 0, page := 9, write := false }] } }, { req := 6, status := .sc, readOk := false, writeOk := false, page := 12 }, { id := 6, fn := 0, page := 9, write := false }, by decide +kernel⟩
  · exact ⟨{ up with pcie := { up.pcie with atc := [{ fn := 0, page := 9, target := 1, r := true, w := false }, { fn := 0, page := 11, target := 1, r := true, w := false }] } }, 0, 2, 2, 9, by decide +kernel⟩

theorem witness_WindowRows :
    (∃ (s : State) (w : WinTlp) (data : List (Option Byte)), winReached s w = true ∧ winRefuses s w true (enabledSpan w.offset
      data).1 (enabledSpan w.offset data).2 = true) ∧
    (∃ (s : State) (w : WinTlp) (b : Byte), winReached s w = true ∧ winRefuses s w true w.offset (w.offset + 1) = false ∧ winBase
      (getWindow s w.window).act ≤ w.offset) ∧
    (∃ (s : State) (w : WinTlp) (len : Nat), winReached s w = true ∧ winRefuses s w false w.offset (w.offset + len) = true) ∧
    (∃ (s : State) (w : WinTlp) (len : Nat), winReached s w = true ∧ winRefuses s w false w.offset (w.offset + len) = false) ∧
    (∃ (s : State) (fn : Nat) (w : Nat) (v : W32), winReach s fn w = true ∧ v.toNat % 2 = 1 ∧ commitGood s (getWindow s w).sh =
      true) ∧
    (∃ (s : State) (fn : Nat) (w : Nat) (v : W32), winReach s fn w = true ∧ v.toNat % 2 = 1 ∧ commitGood s (getWindow s w).sh =
      false) ∧
    (∃ (s : State) (fn : Nat) (w : Nat) (off : Nat) (v : W32), winReach s fn w = true ∧ (off = 0x00 ∨ off = 0x04 ∨ off = 0x08 ∨ off
      = 0x0C ∨ off = 0x10)) ∧
    (∃ (s : State) (fn : Nat) (w : Nat) (off : Nat) (v : W32), winReach s fn w = true ∧ (off = 0x00 ∨ off = 0x04 ∨ off = 0x08 ∨ off
      = 0x0C ∨ off = 0x10)) ∧
    (∃ (s : State) (fn : Nat) (w : Nat) (off : Nat) (v : W32), winReach s fn w = true ∧ (off = 0x00 ∨ off = 0x04 ∨ off = 0x08 ∨ off
      = 0x0C ∨ off = 0x10)) ∧
    (∃ (s : State) (fn : Nat) (w : Nat) (off : Nat) (v : W32), winReach s fn w = true ∧ (off = 0x00 ∨ off = 0x04 ∨ off = 0x08 ∨ off
      = 0x0C ∨ off = 0x10)) ∧
    (∃ (s : State) (fn : Nat) (w : Nat) (off : Nat) (v : W32), winReach s fn w = true ∧ (off = 0x00 ∨ off = 0x04 ∨ off = 0x08 ∨ off
      = 0x0C ∨ off = 0x10)) := by
  refine ⟨?_, ?_, ?_, ?_, ?_, ?_, ?_, ?_, ?_, ?_, ?_⟩
  · exact ⟨windowed, { tlp0 with offset := 4096 }, [some 1], by decide +kernel⟩
  · exact ⟨windowed, { tlp0 with offset := 4095 }, 7, by decide +kernel⟩
  · exact ⟨windowed, { tlp0 with offset := 4095 }, 2, by decide +kernel⟩
  · exact ⟨windowed, tlp0, 4096, by decide +kernel⟩
  · exact ⟨{ up with pcie := { up.pcie with windows := [(0, { sh := { base := 0, limit := 0, target := 0, ctl := 7 } })] } }, 0, 0, 1, by decide +kernel⟩
  · exact ⟨{ up with pcie := { up.pcie with windows := [(0, { sh := { base := 8192, limit := 4096, target := 0, ctl := 7 } })] } }, 0, 0, 1, by decide +kernel⟩
  · exact ⟨up, 0, 63, 0x00, 1, by decide +kernel⟩
  · exact ⟨up, 0, 63, 0x04, 1, by decide +kernel⟩
  · exact ⟨up, 0, 63, 0x08, 1, by decide +kernel⟩
  · exact ⟨up, 0, 63, 0x0C, 1, by decide +kernel⟩
  · exact ⟨up, 0, 63, 0x10, 1, by decide +kernel⟩

theorem witness_RegisterWriteRows :
    (∃ (s : State) (fn : Nat) (off : Nat) (width : Nat) (v : BitVec 64), running s = true ∧ fnExists s fn = true ∧ canDma s fn =
      true) ∧
    (∃ (s : State) (fn : Nat) (width : Nat) (f : CfgField) (v : BitVec 64), running s = true ∧ fnExists s fn = true ∧ s.pcie.linkUp
      = true ∧ s.pins.perstN = true ∧ tileUp s 0 = true) ∧
    (∃ (s : State) (fn : Nat) (k : Nat) (width : Nat) (v : BitVec 64), running s = true ∧ fnExists s fn = true ∧ canDma s fn = true) ∧
    (∃ (s : State) (fn : Nat) (off : Nat) (width : Nat) (v : BitVec 64), ¬(width = 4 ∧ off % 4 = 0) ∧ ¬(width = 8 ∧ off % 8 = 0)) ∧
    (∃ (s : State) (v : BitVec 64), running s = true ∧ canDma s 0 = true) ∧
    (∃ (s : State) (v : BitVec 64), running s = true ∧ canDma s 0 = true) ∧
    (∃ (s : State) (v : BitVec 64), running s = true ∧ canDma s 0 = true) ∧
    (∃ (s : State) (v : BitVec 64), running s = true ∧ canDma s 0 = true) ∧
    (∃ (s : State) (n : Nat) (v : BitVec 64), running s = true ∧ canDma s 0 = true ∧ n < s.part.sqs ∧ sqOwner s n = 0 ∧ tileUp s
      (sqTile s n) = true) ∧
    (∃ (s : State) (n : Nat) (v : BitVec 64), running s = true ∧ canDma s 0 = true ∧ n < s.part.sqs ∧ sqOwner s n = 0 ∧ tileUp s
      (sqTile s n) = true ∧ (getSq s n).active = false ∧ (getSq s n).draining = false) := by
  refine ⟨?_, ?_, ?_, ?_, ?_, ?_, ?_, ?_, ?_, ?_⟩
  · exact ⟨up, 0, 0x208, 4, 50, by decide +kernel⟩
  · exact ⟨up, 0, 2, .maxPayload, 0x20, by decide +kernel⟩
  · exact ⟨up, 0, 7, 4, 1, by decide +kernel⟩
  · exact ⟨up, 0, 0x20A, 4, 50, by decide +kernel⟩
  · exact ⟨up, 0, by decide +kernel⟩
  · exact ⟨up, 10000, by decide +kernel⟩
  · exact ⟨up, 10001, by decide +kernel⟩
  · exact ⟨up, 0x4001, by decide +kernel⟩
  · exact ⟨up, 3, 0x1F3F, by decide +kernel⟩
  · exact ⟨up, 3, 0x12345, by decide +kernel⟩

theorem witness_RingEntryRows :
    (∃ (s : State) (fn : Nat) (sq : Nat), sqReach s fn sq = true ∧ (getSq s sq).scanning = false ∧ mayFetch s sq = true) ∧
    (∃ (s : State) (fn : Nat) (sq : Nat), sqReach s fn sq = true ∧ (getSq s sq).active = true ∧ (getSq s sq).scanning = true) ∧
    (∃ (s : State) (u : State) (tile : Nat), serving s = true ∧ tileUp s tile = true ∧ arbPass s tile = some u) ∧
    (∃ (s : State) (u : State) (tile : Nat), serving s = true ∧ tileUp s tile = true ∧ arbPass s tile = none ∧ arbPass
      (refreshCredits s tile) tile = some u) ∧
    (∃ (s : State) (tile : Nat) (n : Nat), serving s = true ∧ tileUp s tile = true ∧ n ∈ sqsOn s tile ∧ sqReady s n = true ∧ (getSq
      s n).credit ≠ 0) ∧
    (∃ (s : State) (id : Nat) (l : Live) (op : BlockOp) (opc : Nat) (c : Instr), (op = .read ∧ opc = 0x01 ∧ c = .ringRead id ∨ op =
      .write ∧ opc = 0x02 ∧ c = .ringWrite id ∨ op = .flush ∧ opc = 0x03 ∧ c = .ringFlush id ∨ op = .zeroes ∧ opc = 0x04 ∧ c =
      .ringWriteZeroes id ∨ op = .dealloc ∧ opc = 0x05 ∧ c = .ringDeallocate id) ∧ getLive? s id = some l ∧ startable s l opc =
      true) ∧
    (∃ (s : State) (id : Nat) (l : Live) (op : BlockOp) (opc : Nat) (c : Instr), (op = .read ∧ opc = 0x01 ∧ c = .ringRead id ∨ op =
      .write ∧ opc = 0x02 ∧ c = .ringWrite id ∨ op = .flush ∧ opc = 0x03 ∧ c = .ringFlush id ∨ op = .zeroes ∧ opc = 0x04 ∧ c =
      .ringWriteZeroes id ∨ op = .dealloc ∧ opc = 0x05 ∧ c = .ringDeallocate id) ∧ getLive? s id = some l ∧ startable s l opc =
      true) ∧
    (∃ (s : State) (id : Nat) (l : Live) (op : BlockOp) (opc : Nat) (c : Instr), (op = .read ∧ opc = 0x01 ∧ c = .ringRead id ∨ op =
      .write ∧ opc = 0x02 ∧ c = .ringWrite id ∨ op = .flush ∧ opc = 0x03 ∧ c = .ringFlush id ∨ op = .zeroes ∧ opc = 0x04 ∧ c =
      .ringWriteZeroes id ∨ op = .dealloc ∧ opc = 0x05 ∧ c = .ringDeallocate id) ∧ getLive? s id = some l ∧ startable s l opc =
      true) ∧
    (∃ (s : State) (id : Nat) (l : Live) (op : BlockOp) (opc : Nat) (c : Instr), (op = .read ∧ opc = 0x01 ∧ c = .ringRead id ∨ op =
      .write ∧ opc = 0x02 ∧ c = .ringWrite id ∨ op = .flush ∧ opc = 0x03 ∧ c = .ringFlush id ∨ op = .zeroes ∧ opc = 0x04 ∧ c =
      .ringWriteZeroes id ∨ op = .dealloc ∧ opc = 0x05 ∧ c = .ringDeallocate id) ∧ getLive? s id = some l ∧ startable s l opc =
      true) ∧
    (∃ (s : State) (id : Nat) (l : Live) (op : BlockOp) (opc : Nat) (c : Instr), (op = .read ∧ opc = 0x01 ∧ c = .ringRead id ∨ op =
      .write ∧ opc = 0x02 ∧ c = .ringWrite id ∨ op = .flush ∧ opc = 0x03 ∧ c = .ringFlush id ∨ op = .zeroes ∧ opc = 0x04 ∧ c =
      .ringWriteZeroes id ∨ op = .dealloc ∧ opc = 0x05 ∧ c = .ringDeallocate id) ∧ getLive? s id = some l ∧ startable s l opc =
      true) ∧
    (∃ (s : State) (id : Nat) (l : Live) (opc : Nat) (c : Instr), (opc = 0x10 ∧ c = .pqCompute id ∨ opc = 0x11 ∧ c = .reconstruct id
      ∨ opc = 0x12 ∧ c = .copy id) ∧ getLive? s id = some l ∧ startable s l opc = true) ∧
    (∃ (s : State) (id : Nat) (l : Live) (opc : Nat) (c : Instr), (opc = 0x10 ∧ c = .pqCompute id ∨ opc = 0x11 ∧ c = .reconstruct id
      ∨ opc = 0x12 ∧ c = .copy id) ∧ getLive? s id = some l ∧ startable s l opc = true) ∧
    (∃ (s : State) (id : Nat) (l : Live) (opc : Nat) (c : Instr), (opc = 0x10 ∧ c = .pqCompute id ∨ opc = 0x11 ∧ c = .reconstruct id
      ∨ opc = 0x12 ∧ c = .copy id) ∧ getLive? s id = some l ∧ startable s l opc = true) ∧
    (∃ (s : State) (id : Nat) (l : Live), getLive? s id = some l ∧ startable s l 0x3F = true) := by
  refine ⟨?_, ?_, ?_, ?_, ?_, ?_, ?_, ?_, ?_, ?_, ?_, ?_, ?_, ?_⟩
  · exact ⟨ringed { active := true, en := true } {}, 0, 0, by decide +kernel⟩
  · exact ⟨ringed { active := true, en := true, scanning := true } {}, 0, 0, by decide +kernel⟩
  · exact ⟨ringed { active := true, en := true, credit := 1, fetched := [{ len := 1, opc := 0x3F, cpl := true, ord := false, tag := 1, bytes := [] }] } { active := true, en := true }, (arbPass (ringed { active := true, en := true, credit := 1, fetched := [{ len := 1, opc := 0x3F, cpl := true, ord := false, tag := 1, bytes := [] }] } { active := true, en := true }) 0).getD up, 0, by decide +kernel⟩
  · exact ⟨ringed { active := true, en := true, weight := 1, fetched := [{ len := 1, opc := 0x3F, cpl := true, ord := false, tag := 1, bytes := [] }] } { active := true, en := true }, (arbPass (refreshCredits (ringed { active := true, en := true, weight := 1, fetched := [{ len := 1, opc := 0x3F, cpl := true, ord := false, tag := 1, bytes := [] }] } { active := true, en := true }) 0) 0).getD up, 0, by decide +kernel⟩
  · exact ⟨ringed { active := true, en := true, credit := 1, fetched := [{ len := 1, opc := 0x3F, cpl := true, ord := false, tag := 1, bytes := [] }] } { active := true, en := true }, 0, 0, by decide +kernel⟩
  · exact ⟨{ served with live := [{ id := 4, sq := 0, fn := 0, tag := 1, opc := 0x01, cpl := true, ord := false, index := 0, bytes := [] }] }, 4, { id := 4, sq := 0, fn := 0, tag := 1, opc := 0x01, cpl := true, ord := false, index := 0, bytes := [] }, .read, 0x01, .ringRead 4, by decide +kernel⟩
  · exact ⟨{ served with live := [{ id := 4, sq := 0, fn := 0, tag := 1, opc := 0x02, cpl := true, ord := false, index := 0, bytes := [] }] }, 4, { id := 4, sq := 0, fn := 0, tag := 1, opc := 0x02, cpl := true, ord := false, index := 0, bytes := [] }, .write, 0x02, .ringWrite 4, by decide +kernel⟩
  · exact ⟨{ served with live := [{ id := 4, sq := 0, fn := 0, tag := 1, opc := 0x03, cpl := true, ord := false, index := 0, bytes := [] }] }, 4, { id := 4, sq := 0, fn := 0, tag := 1, opc := 0x03, cpl := true, ord := false, index := 0, bytes := [] }, .flush, 0x03, .ringFlush 4, by decide +kernel⟩
  · exact ⟨{ served with live := [{ id := 4, sq := 0, fn := 0, tag := 1, opc := 0x04, cpl := true, ord := false, index := 0, bytes := [] }] }, 4, { id := 4, sq := 0, fn := 0, tag := 1, opc := 0x04, cpl := true, ord := false, index := 0, bytes := [] }, .zeroes, 0x04, .ringWriteZeroes 4, by decide +kernel⟩
  · exact ⟨{ served with live := [{ id := 4, sq := 0, fn := 0, tag := 1, opc := 0x05, cpl := true, ord := false, index := 0, bytes := [] }] }, 4, { id := 4, sq := 0, fn := 0, tag := 1, opc := 0x05, cpl := true, ord := false, index := 0, bytes := [] }, .dealloc, 0x05, .ringDeallocate 4, by decide +kernel⟩
  · exact ⟨{ served with live := [{ id := 4, sq := 0, fn := 0, tag := 1, opc := 0x10, cpl := true, ord := false, index := 0, bytes := [] }] }, 4, { id := 4, sq := 0, fn := 0, tag := 1, opc := 0x10, cpl := true, ord := false, index := 0, bytes := [] }, 0x10, Instr.pqCompute 4, by decide +kernel⟩
  · exact ⟨{ served with live := [{ id := 4, sq := 0, fn := 0, tag := 1, opc := 0x11, cpl := true, ord := false, index := 0, bytes := [] }] }, 4, { id := 4, sq := 0, fn := 0, tag := 1, opc := 0x11, cpl := true, ord := false, index := 0, bytes := [] }, 0x11, Instr.reconstruct 4, by decide +kernel⟩
  · exact ⟨{ served with live := [{ id := 4, sq := 0, fn := 0, tag := 1, opc := 0x12, cpl := true, ord := false, index := 0, bytes := [] }] }, 4, { id := 4, sq := 0, fn := 0, tag := 1, opc := 0x12, cpl := true, ord := false, index := 0, bytes := [] }, 0x12, Instr.copy 4, by decide +kernel⟩
  · exact ⟨{ served with live := [{ id := 4, sq := 0, fn := 0, tag := 1, opc := 0x3F, cpl := true, ord := false, index := 0, bytes := [] }] }, 4, { id := 4, sq := 0, fn := 0, tag := 1, opc := 0x3F, cpl := true, ord := false, index := 0, bytes := [] }, by decide +kernel⟩

theorem witness_RingControlRows :
    (∃ (s : State) (fn : Nat) (cq : Nat) (v : W32), cqReach s fn cq = true ∧ (getCq s cq).active = true ∧ headGood (getCq s cq)
      (v.toNat % 2 ^ 16) (v.getLsbD 16) = false) ∧
    (∃ (s : State) (fn : Nat) (cq : Nat) (v : W32), cqReach s fn cq = true ∧ (getCq s cq).active = true ∧ headGood (getCq s cq)
      (v.toNat % 2 ^ 16) (v.getLsbD 16) = true ∧ (getCq s cq).waiting = [] ∧ (getCq s cq).backpressure = false) ∧
    (∃ (s : State) (cq : Nat), running s = true ∧ tileUp s (cqTile s cq) = true ∧ (getCq s cq).active = true ∧ (getCq s cq).ien =
      true ∧ (getCq s cq).timer = true ∧ (getCq s cq).aggTime ≠ 0 ∧ 0 < (getCq s cq).sinceMsg) ∧
    (∃ (s : State) (fn : Nat) (sq : Nat) (v : W32), sqReach s fn sq = true ∧ v.getLsbD 0 = false ∧ (getSq s sq).en = true) ∧
    (∃ (s : State) (sq : Nat), running s = true ∧ tileUp s (sqTile s sq) = true ∧ (getSq s sq).draining = true ∧ sqLive s sq = [] ∧
      (∀ c, sqCq s sq = some c → (getCq s c).waiting = [])) ∧
    (∃ (s : State) (fn : Nat) (sq : Nat) (c : Nat) (v : W32), sqReach s fn sq = true ∧ v.getLsbD 0 = true ∧ (getSq s sq).en = false
      ∧ (getSq s sq).draining = false ∧ (getSq s sq).base ≠ 0 ∧ (getSq s sq).headword ≠ 0 ∧ sqCq s sq = some c ∧ c < s.part.cqs
      ∧ cqOwner s c = sqOwner s sq ∧ tileOfCq c = tileOfSq sq ∧ (getSq s sq).posHead < 2 ^ (getSq s sq).size ∧ (getCq s
      c).active = true) ∧
    (∃ (s : State) (fn : Nat) (sq : Nat) (v : W32), sqReach s fn sq = true ∧ v.getLsbD 0 = true ∧ (getSq s sq).en = false ∧ (getSq s
      sq).draining = false ∧ (getSq s sq).base = 0) ∧
    (∃ (s : State) (fn : Nat) (cq : Nat) (v : W32), cqReach s fn cq = true ∧ v.getLsbD 0 = true ∧ (getCq s cq).en = false ∧ (getCq s
      cq).base ≠ 0) ∧
    (∃ (s : State) (fn : Nat) (cq : Nat) (v : W32), cqReach s fn cq = true ∧ v.getLsbD 0 = true ∧ (getCq s cq).en = false ∧ (getCq s
      cq).base = 0) ∧
    (∃ (s : State) (fn : Nat) (cq : Nat) (v : W32), cqReach s fn cq = true ∧ v.getLsbD 0 = false ∧ (getCq s cq).en = true ∧ (∀ k ∈
      boundSqs s cq, (getSq s k).active = false ∧ (getSq s k).draining = false)) ∧
    (∃ (s : State) (fn : Nat) (cq : Nat) (k : Nat) (v : W32), cqReach s fn cq = true ∧ v.getLsbD 0 = false ∧ (getCq s cq).en = true
      ∧ k ∈ boundSqs s cq ∧ (getSq s k).active = true) := by
  refine ⟨?_, ?_, ?_, ?_, ?_, ?_, ?_, ?_, ?_, ?_, ?_⟩
  · exact ⟨ringed {} { active := true }, 0, 0, 1, by decide +kernel⟩
  · exact ⟨ringed {} { active := true, tail := 1 }, 0, 0, 1, by decide +kernel⟩
  · exact ⟨ringed {} { active := true, ien := true, timer := true, aggTime := 1, sinceMsg := 1 }, 0, by decide +kernel⟩
  · exact ⟨ringed { active := true, en := true } {}, 0, 0, 0, by decide +kernel⟩
  · exact ⟨ringed { draining := true } {}, 0, by decide +kernel⟩
  · exact ⟨ringed { base := 4096, headword := 64 } { active := true }, 0, 0, 0, 1, by decide +kernel⟩
  · exact ⟨up, 0, 0, 1, by decide +kernel⟩
  · exact ⟨ringed {} { base := 4096 }, 0, 0, 1, by decide +kernel⟩
  · exact ⟨up, 0, 0, 1, by decide +kernel⟩
  · exact ⟨ringed {} { en := true, active := true }, 0, 0, 0, by decide +kernel⟩
  · exact ⟨ringed { active := true, en := true } { en := true, active := true }, 0, 0, 0, 0, by decide +kernel⟩

theorem witness_MailboxRows :
    (∃ (s : State) (mb : Nat) (v : W32), mbxReachable s mb = true ∧ (getMbx s mb).busy = true ∧ v.getLsbD 0 = true ∧ v.getLsbD 1 =
      false) ∧
    (∃ (s : State) (mb : Nat) (vol : Nat) (v : W32), mbxReachable s mb = true ∧ (getMbx s mb).busy = true ∧ v.getLsbD 1 = true ∧
      (getMbx s mb).orphan = false ∧ (getMbx s mb).running = some (.volumeStop vol) ∧ (getVol s vol).st = .stopping) ∧
    (∃ (s : State) (mb : Nat) (v : W32), mbxReachable s mb = true ∧ (getMbx s mb).busy = true ∧ v.getLsbD 1 = true ∧ (getMbx s
      mb).orphan = false ∧ (getMbx s mb).running = some .power) ∧
    (∃ (s : State) (mb : Nat) (v : W32), mbxReachable s mb = true ∧ (getMbx s mb).busy = true ∧ v.getLsbD 1 = true ∧ (getMbx s
      mb).orphan = false ∧ (getMbx s mb).running = some .waiting ∧ (getMbx s mb).objs.contains (objCancel mb) = true) ∧
    (∃ (s : State) (mb : Nat) (v : W32) (st : Status), mbxReachable s mb = true ∧ (getMbx s mb).busy = true ∧ v.getLsbD 1 = true ∧
      v.getLsbD 0 = false ∧ (getMbx s mb).running = some (.config st)) ∧
    (∃ (s : State) (mb : Nat) (st : Status), fwUp s = true ∧ (getMbx s mb).running = some (.config st) ∧ (getMbx s mb).orphan =
      false) ∧
    (∃ (s : State) (mb : Nat) (vol : Nat), fwUp s = true ∧ (getMbx s mb).running = some (.volumeStopped vol) ∧ (getMbx s mb).orphan
      = false) ∧
    (∃ (s : State) (mb : Nat) (pool : Nat), fwUp s = true ∧ (getMbx s mb).running = some (.poolCreate pool) ∧ (getMbx s mb).orphan =
      false ∧ s.mcmds = []) ∧
    (∃ (s : State) (g : Go), mbxReachable s g.mb = true ∧ (getMbx s g.mb).busy = true ∧ (getMbx s g.mb).running ≠ some .waiting) ∧
    (∃ (s : State) (g : Go), mbxReachable s g.mb = true ∧ (getMbx s g.mb).busy = false ∧ fwUp s = false) ∧
    (∃ (s : State) (g : Go) (floor : Nat), mbxReachable s g.mb = true ∧ (getMbx s g.mb).busy = false ∧ fwUp s = true ∧ g.mb ≠ 0) ∧
    (∃ (s : State) (g : Go) (o : Nat), mbxReachable s g.mb = true ∧ (getMbx s g.mb).busy = false ∧ fwUp s = true ∧ s.hk.closing =
      false ∧ g.hdrReserved = some o ∧ o < 16) ∧
    (∃ (s : State) (g : Go), mbxReachable s g.mb = true ∧ (getMbx s g.mb).busy = false ∧ fwUp s = true ∧ s.hk.closing = false ∧
      g.hdrReserved = none ∧ g.paramLen ≠ 0) ∧
    (∃ (s : State) (g : Go), GoReady s g true 0 []) := by
  refine ⟨?_, ?_, ?_, ?_, ?_, ?_, ?_, ?_, ?_, ?_, ?_, ?_, ?_, ?_⟩
  · exact ⟨boxed (up) 0 { busy := true, cmdId := 1 }, 0, 1, by decide +kernel⟩
  · exact ⟨boxed ({ served with vols := [(0, { st := .stopping, draining := true })] }) 0 { busy := true, running := some (.volumeStop 0) }, 0, 0, 2, by decide +kernel⟩
  · exact ⟨boxed ({ up with hk := { psPending := some (.ps1, 0) } }) 0 { busy := true, running := some .power }, 0, 2, by decide +kernel⟩
  · exact ⟨boxed served 0 { busy := true, running := some .waiting, objs := [objVol 0, objCancel 0] }, 0, 2, by decide +kernel⟩
  · exact ⟨boxed (up) 0 { busy := true, running := some (.config 0) }, 0, 2, 0, by decide +kernel⟩
  · exact ⟨boxed (up) 0 { busy := true, running := some (.config 3) }, 0, 3, by decide +kernel⟩
  · exact ⟨boxed served 0 { busy := true, running := some (.volumeStopped 0) }, 0, 0, by decide +kernel⟩
  · exact ⟨boxed ({ linked with pools := [(0, { st := .initialising })] }) 0 { busy := true, running := some (.poolCreate 0) }, 0, 0, by decide +kernel⟩
  · exact ⟨boxed (up) 0 { busy := true, running := some (.config 0) }, go 0, by decide +kernel⟩
  · exact ⟨{ up with phase := .boot }, go 0, by decide +kernel⟩
  · exact ⟨{ up with pcie := { up.pcie with numVfs := 2 } }, { go 1 with mb := 2 }, 5, by decide +kernel⟩
  · exact ⟨up, { go 0 with hdrReserved := some 15 }, 15, by decide +kernel⟩
  · exact ⟨up, go 3, by decide +kernel⟩
  · exact ⟨up, go 0, by unfold GoReady; decide +kernel⟩

theorem witness_AssignRows :
    (∃ (s : State) (g : Go) (vf : Nat) (kind : Nat) (first : Nat) (last : Nat), GoReady s g false 8 [] ∧ kind < 3 ∧ first ≤ last ∧ 1
      ≤ vf ∧ vf ≤ s.pcie.numVfs ∧ last < resourceEnd s kind ∧ (∀ n, first ≤ n → n ≤ last → resourceOwner s kind n = 0 ∧
      resourceBusy s kind n = false) ∧ (kind = 2 → windowsStopped s vf = true) ∧ vfHolds s kind vf + (last + 1 - first) ≤
      vfLimit s kind) ∧
    (∃ (s : State) (g : Go) (vf : Nat) (first : Nat) (last : Nat), GoReady s g false 8 [] ∧ first ≤ last ∧ 1 ≤ vf ∧ vf ≤
      s.pcie.numVfs ∧ last < s.part.volumes ∧ vfHolds s 3 vf < 16) ∧
    (∃ (s : State) (g : Go) (vf : Nat) (kind : Nat) (first : Nat) (last : Nat), GoReady s g false 8 [] ∧ kind < 3 ∧ first ≤ last ∧ 1
      ≤ vf ∧ vf ≤ s.pcie.numVfs ∧ last < resourceEnd s kind ∧ (∀ n, first ≤ n → n ≤ last → resourceOwner s kind n = vf ∧
      resourceBusy s kind n = false) ∧ (kind = 2 → windowsStopped s vf = true)) ∧
    (∃ (s : State) (g : Go) (vf : Nat) (first : Nat) (last : Nat) (v : Nat), GoReady s g false 8 [] ∧ first ≤ last ∧ 1 ≤ vf ∧ vf ≤
      s.pcie.numVfs ∧ last < s.part.volumes ∧ 1 ≤ vf) := by
  refine ⟨?_, ?_, ?_, ?_⟩
  · exact ⟨{ up with pcie := { up.pcie with numVfs := 3 } }, go 8, 3, 0, 4, 6, by unfold GoReady; decide +kernel, by decide +kernel, by decide +kernel, by decide +kernel, by decide +kernel, by decide +kernel, by intro n h1 h2; obtain h | h | h := (by omega : n = 4 ∨ n = 5 ∨ n = 6) <;> subst h <;> decide +kernel, by decide +kernel⟩
  · exact ⟨{ up with pcie := { up.pcie with numVfs := 3 } }, go 8, 3, 4, 6, by unfold GoReady; decide +kernel⟩
  · exact ⟨{ up with pcie := { up.pcie with numVfs := 3, sqOwner := [(4, 3), (5, 3)] } }, go 8, 3, 0, 4, 5, by unfold GoReady; decide +kernel⟩
  · exact ⟨{ up with pcie := { up.pcie with numVfs := 3, volRanges := [(3, [(0, 10)])] } }, go 8, 3, 4, 5, 4, by unfold GoReady; decide +kernel⟩

theorem witness_PoolCommandRows :
    (∃ (s : State) (g : Go) (p : PoolParams) (found : List MemberIdent), GoReady s g false (16 + 2 * p.n + 2 * p.spares.length)
      [objPool p.pool] ∧ s.phase = .ready ∧ p.pool < 64 ∧ 4 ≤ p.k ∧ p.k ≤ 28 ∧ (p.n = p.k + 2 ∨ p.s ≤ 2) ∧ p.k + 2 ≤ p.n ∧ p.n ≤
      1024 ∧ p.spares.length ≤ 4 ∧ (p.mirrorGiven = true → p.mirror0 < p.n ∧ p.mirror1 < p.n ∧ groupAt s p.members p.mirror0 ≠
      groupAt s p.members p.mirror1) ∧ poolCfg? s p.pool = none ∧ (memberErrors s p.pool (p.members ++ p.spares) 16 []
      found).all (fun e => !e.2) = true ∧ (otherGroup s p.members).isSome = true ∧ p.members.length = p.n) ∧
    (∃ (s : State) (g : Go) (p : PoolParams) (found : List MemberIdent), GoReady s g false (16 + 2 * p.n + 2 * p.spares.length)
      [objPool p.pool] ∧ s.phase = .ready ∧ p.pool < 64 ∧ 4 ≤ p.k ∧ p.k ≤ 28 ∧ (p.n = p.k + 2 ∨ p.s ≤ 2) ∧ p.k + 2 ≤ p.n ∧ p.n ≤
      1024 ∧ p.spares.length ≤ 4 ∧ (p.mirrorGiven = true → p.mirror0 < p.n ∧ p.mirror1 < p.n ∧ groupAt s p.members p.mirror0 ≠
      groupAt s p.members p.mirror1) ∧ poolCfg? s p.pool = none ∧ (memberErrors s p.pool (p.members ++ p.spares) 16 []
      found).all (fun e => !e.2) = true ∧ (otherGroup s p.members).isSome = true ∧ p.members.length = p.n) ∧
    (∃ (s : State) (g : Go) (pool : Nat) (c : PoolCfg), GoReady s g false 2 [objPool pool] ∧ PoolReady s pool c ∧ (getPool s
      pool).st = .stopped ∧ volsOfPool s pool = []) ∧
    (∃ (s : State) (g : Go) (pool : Nat) (c : PoolCfg), GoReady s g false 2 [objPool pool] ∧ PoolReady s pool c ∧ (getPool s
      pool).st = .stopped ∧ (getPool s pool).disowned = false) ∧
    (∃ (s : State) (g : Go) (pool : Nat) (c : PoolCfg), GoReady s g false 2 [objPool pool] ∧ PoolReady s pool c ∧ (getPool s
      pool).st = .running ∧ (∀ v ∈ volsOfPool s pool, (getVol s v).st = .stopped)) ∧
    (∃ (s : State) (g : Go) (pool : Nat) (v : Nat) (c : PoolCfg), GoReady s g false 2 [objPool pool] ∧ PoolReady s pool c ∧ v ∈
      volsOfPool s pool ∧ (getVol s v).st = .running) ∧
    (∃ (s : State) (g : Go) (pool : Nat), GoReady s g false 2 [objPool pool] ∧ s.phase = .ready ∧ pool < 64) ∧
    (∃ (s : State) (g : Go) (pool : Nat) (c : PoolCfg) (found : List MemberIdent), GoReady s g false 3 [objPool pool] ∧ PoolReady s
      pool c ∧ (getPool s pool).st = .stopped ∧ (c.spares.filter (fun m => (getMember s m).st == .replacing)).length ≤ 4) ∧
    (∃ (s : State) (g : Go) (pool : Nat) (m : Nat) (c : PoolCfg) (found : List MemberIdent), GoReady s g false 6 [objPool pool] ∧
      PoolReady s pool c ∧ (getPool s pool).st = .stopped ∧ c.spares = [] ∧ memberErrors s pool [m] 4 [] found = [(4, false)]) ∧
    (∃ (s : State) (g : Go) (pool : Nat) (us : Nat) (days : Nat) (c : PoolCfg), GoReady s g false 6 [objPool pool] ∧ PoolReady s
      pool c ∧ 100 ≤ us ∧ us ≤ 5000 ∧ days ≤ 365 ∧ (getPool s pool).st = .stopped) ∧
    (∃ (s : State) (g : Go) (floor : Nat), GoReady s g false 1 [] ∧ 2 ≤ floor ∧ floor ≤ 50) ∧
    (∃ (s : State) (g : Go) (pool : Nat) (buf : SegDesc) (c : PoolCfg), GoReady s g false 24 [objPool pool] ∧ PoolReady s pool c ∧
      badBuf buf = false) ∧
    (∃ (s : State) (g : Go) (pool : Nat) (c : PoolCfg), GoReady s g false 3 [objPool pool] ∧ PoolReady s pool c) ∧
    (∃ (s : State) (g : Go) (pool : Nat) (c : PoolCfg), GoReady s g false 3 [objPool pool] ∧ PoolReady s pool c) ∧
    (∃ (s : State) (g : Go) (pool : Nat) (first : Nat) (buf : SegDesc) (c : PoolCfg), GoReady s g false 24 [objPool pool] ∧
      PoolReady s pool c ∧ badBuf buf = false) := by
  refine ⟨?_, ?_, ?_, ?_, ?_, ?_, ?_, ?_, ?_, ?_, ?_, ?_, ?_, ?_, ?_⟩
  · exact ⟨{ up with cfg := { members := spares } }, go 28, { pool := 0, k := 4, s := 0, n := 6, seed := 0, seedGiven := false, mirrorGiven := true, mirror0 := 0, mirror1 := 1, members := [6, 7, 8, 9, 10, 11], spares := [] }, [ident0 6, ident0 7, ident0 8, ident0 9, ident0 10, ident0 11], by unfold GoReady; decide +kernel⟩
  · exact ⟨{ up with cfg := { members := (12, member0 12 1) :: spares } }, go 30, { pool := 0, k := 4, s := 2, n := 7, seed := 0, seedGiven := false, mirrorGiven := false, mirror0 := 0, mirror1 := 1, members := [6, 7, 8, 9, 10, 11, 12], spares := [] }, [ident0 6, ident0 7, ident0 8, ident0 9, ident0 10, ident0 11, ident0 12], by unfold GoReady; decide +kernel⟩
  · exact ⟨{ stopped with cfg := { stopped.cfg with vols := [] } }, go 2, 0, { pool0 with running := false }, by unfold GoReady PoolReady; decide +kernel⟩
  · exact ⟨stopped, go 2, 0, { pool0 with running := false }, by unfold GoReady PoolReady; decide +kernel⟩
  · exact ⟨{ served with vols := [(0, { st := .stopped })] }, go 2, 0, pool0, by unfold GoReady PoolReady; decide +kernel⟩
  · exact ⟨served, go 2, 0, 0, pool0, by unfold GoReady PoolReady; decide +kernel⟩
  · exact ⟨up, go 2, 63, by unfold GoReady; decide +kernel⟩
  · exact ⟨stopped, go 3, 0, { pool0 with running := false }, [], by unfold GoReady PoolReady; decide +kernel⟩
  · exact ⟨{ stopped with cfg := { stopped.cfg with members := spares } }, go 6, 0, 6, { pool0 with running := false }, [ident0 6], by unfold GoReady PoolReady; decide +kernel⟩
  · exact ⟨stopped, go 6, 0, 5000, 0, { pool0 with running := false }, by unfold GoReady PoolReady; decide +kernel⟩
  · exact ⟨up, go 1, 50, by unfold GoReady; decide +kernel⟩
  · exact ⟨served, go 24, 0, buf0, pool0, by unfold GoReady PoolReady; decide +kernel⟩
  · exact ⟨served, go 3, 0, pool0, by unfold GoReady PoolReady; decide +kernel⟩
  · exact ⟨served, go 3, 0, pool0, by unfold GoReady PoolReady; decide +kernel⟩
  · exact ⟨{ served with pools := [(0, { st := .running, lst := [{ row := 3, strip := 1, cause := 2, epoch := 1 }] })] }, go 24, 0, 0, buf0, pool0, by unfold GoReady PoolReady; decide +kernel⟩

theorem witness_MemberCommandRows :
    (∃ (s : State) (g : Go) (p : MemberParams), GoReady s g false 255 [] ∧ p.group ≤ 255 ∧ (p.family = 4 ∨ p.family = 6) ∧
      p.nqn.length ≤ 223 ∧ p.member < s.part.members ∧ poolOfMember s p.member = none) ∧
    (∃ (s : State) (g : Go) (p : MemberParams), GoReady s g false 255 [] ∧ p.group ≤ 255 ∧ (p.family = 4 ∨ p.family = 6) ∧
      p.nqn.length ≤ 223 ∧ p.member < s.part.members ∧ poolOfMember s p.member = none) ∧
    (∃ (s : State) (g : Go) (p : MemberParams) (pool : Nat), GoReady s g false 255 [] ∧ p.group ≤ 255 ∧ (p.family = 4 ∨ p.family =
      6) ∧ p.nqn.length ≤ 223 ∧ p.member < s.part.members ∧ poolOfMember s p.member = some pool) ∧
    (∃ (s : State) (g : Go) (p : MemberParams) (pool : Nat), GoReady s g false 255 [] ∧ p.group ≤ 255 ∧ (p.family = 4 ∨ p.family =
      6) ∧ p.nqn.length ≤ 223 ∧ p.member < s.part.members ∧ poolOfMember s p.member = some pool) ∧
    (∃ (s : State) (g : Go) (m : Nat), GoReady s g false 2 [] ∧ m < s.part.members) ∧
    (∃ (s : State) (g : Go) (m : Nat) (pool : Nat) (c : PoolCfg), GoReady s g false 2 [] ∧ defined s m = true ∧ poolOfMember s m =
      some pool ∧ poolCfg? s pool = some c ∧ c.reserved = none ∧ (getPool s pool).st = .running) ∧
    (∃ (s : State) (g : Go) (pool : Nat) (ix : Nat) (m : Nat) (c : PoolCfg) (found : MemberIdent), GoReady s g false 6 [objPool
      pool] ∧ PoolReady s pool c ∧ defined s m = true ∧ (getPool s pool).st = .running ∧ isFailedIx (getPool s pool).failList ix
      = true ∧ (inPool s m = false ∨ barred s pool m = true) ∧ fitMember [found] m = true ∧ c.slots ≤ slotsOf found.capacity ∧
      (c.peridot = true → namedHome s pool ix = false) ∧ (c.peridot = false → (getPool s pool).copy = none) ∧ c.partner = none) ∧
    (∃ (s : State) (g : Go) (pool : Nat) (ix : Nat) (m : Nat) (c : PoolCfg) (found : MemberIdent), GoReady s g false 6 [objPool
      pool] ∧ PoolReady s pool c ∧ defined s m = true ∧ (getPool s pool).st = .running ∧ isFailedIx (getPool s pool).failList ix
      = true ∧ (inPool s m = false ∨ barred s pool m = true) ∧ fitMember [found] m = true ∧ c.slots ≤ slotsOf found.capacity ∧
      (c.peridot = true → namedHome s pool ix = false) ∧ (c.peridot = false → (getPool s pool).copy = none) ∧ c.partner = none) := by
  refine ⟨?_, ?_, ?_, ?_, ?_, ?_, ?_, ?_⟩
  · exact ⟨up, go 255, { member0 6 1 with tcpPort := 0 }, by unfold GoReady; decide +kernel⟩
  · exact ⟨up, go 255, { member0 6 255 with family := 6 }, by unfold GoReady; decide +kernel⟩
  · exact ⟨served, go 255, member0 3 1, 0, by unfold GoReady; decide +kernel⟩
  · exact ⟨served, go 255, { member0 3 1 with family := 6 }, 0, by unfold GoReady; decide +kernel⟩
  · exact ⟨served, go 2, 3, by unfold GoReady; decide +kernel⟩
  · exact ⟨{ served with cfg := { served.cfg with members := [(3, member0 3 1)] } }, go 2, 3, 0, pool0, by unfold GoReady; decide +kernel⟩
  · exact ⟨{ served with cfg := { served.cfg with members := spares }, pools := [(0, { st := .running, failList := [{ index := 2 }] })] }, go 6, 0, 2, 6, pool0, ident0 6, by unfold GoReady PoolReady; decide +kernel⟩
  · exact ⟨{ served with cfg := { served.cfg with members := (2, member0 2 0) :: spares }, pools := [(0, { st := .running, failList := [{ index := 2 }] })], members := [(2, { st := .failed, failedIn := some 0 })] }, go 6, 0, 2, 2, pool0, ident0 2, by unfold GoReady PoolReady; decide +kernel⟩

theorem witness_VolumeCommandRows :
    (∃ (s : State) (g : Go) (p : VolParams) (c : PoolCfg), GoReady s g false 32 [objVol p.vol, objPool p.pool] ∧ s.phase = .ready ∧
      p.pool < 64 ∧ p.home < 8 ∧ tileUp s p.home = true ∧ p.attr.toNat ≤ 7 ∧ (p.attr.getLsbD 0 = true → sealsOn s p.home < 2048)
      ∧ p.policy ≤ 3 ∧ 1 ≤ p.extents ∧ p.extents ≤ 2 ^ 20 ∧ badBuf p.buf = false ∧ p.vol < s.part.volumes ∧ volCfg? s p.vol =
      none ∧ poolCfg? s p.pool = some c ∧ c.reserved = none ∧ c.partner = none ∧ (getPool s p.pool).st = .running ∧ badExtents s
      p.pool p.vol p.extents p.buf.segLen.toNat p.list = false) ∧
    (∃ (s : State) (g : Go) (p : VolParams) (c : PoolCfg) (h : Nat), GoReady s g false 32 [objVol p.vol, objPool p.pool] ∧ s.phase =
      .ready ∧ p.pool < 64 ∧ p.home = 0xFF ∧ chooseHome s (p.attr.getLsbD 0) = some h ∧ p.attr.toNat ≤ 7 ∧ (p.attr.getLsbD 0 =
      true → sealsOn s h < 2048) ∧ p.policy ≤ 3 ∧ 1 ≤ p.extents ∧ p.extents ≤ 2 ^ 20 ∧ badBuf p.buf = false ∧ p.vol <
      s.part.volumes ∧ volCfg? s p.vol = none ∧ poolCfg? s p.pool = some c ∧ c.reserved = none ∧ c.partner = none ∧ (getPool s
      p.pool).st = .running ∧ badExtents s p.pool p.vol p.extents p.buf.segLen.toNat p.list = false) ∧
    (∃ (s : State) (g : Go) (vol : Nat) (c : VolCfg), GoReady s g false 2 [objVol vol] ∧ VolReady s g vol c ∧ (getVol s vol).st =
      .stopped) ∧
    (∃ (s : State) (g : Go) (vol : Nat) (c : VolCfg), GoReady s g false 2 [objVol vol] ∧ s.phase = .ready ∧ volExists s g.mb vol =
      true ∧ volCfg? s vol = some c ∧ (getVol s vol).st = .stopped ∧ keyless s vol = false ∧ (getPool s c.pool).st = .running) ∧
    (∃ (s : State) (g : Go) (vol : Nat), GoReady s g false 2 [objVol vol] ∧ volExists s g.mb vol = true ∧ keyless s vol = true) ∧
    (∃ (s : State) (g : Go) (vol : Nat), GoReady s g false 2 [objVol vol, objCancel g.mb] ∧ s.phase = .ready ∧ volExists s g.mb vol
      = true ∧ ((getVol s vol).st = .running ∨ (getVol s vol).st = .stopping)) ∧
    (∃ (s : State) (g : Go) (vol : Nat), GoReady s g false 2 [objVol vol, objCancel g.mb] ∧ s.phase = .ready ∧ volExists s g.mb vol
      = true ∧ ((getVol s vol).st = .running ∨ (getVol s vol).st = .stopping)) ∧
    (∃ (s : State) (g : Go) (vol : Nat), GoReady s g false 2 [objVol vol, objCancel g.mb] ∧ s.phase = .ready ∧ volExists s g.mb vol
      = true ∧ (getVol s vol).st = .stopped) ∧
    (∃ (s : State) (g : Go) (vol : Nat), GoReady s g false 2 [objVol vol, objCancel g.mb] ∧ s.phase = .ready ∧ volExists s g.mb vol
      = true ∧ (getVol s vol).st = .offline) ∧
    (∃ (s : State) (mb : Nat) (vol : Nat), serving s = true ∧ (getMbx s mb).running = some (.volumeStop vol) ∧ ((getVol s vol).st =
      .offline ∨ (acceptedOf s vol = false ∧ dirtyVol s vol = false ∧ anyIntent s (· == vol) = false ∧ s.destages.any (fun d =>
      d.vol == vol) = false))) ∧
    (∃ (s : State) (mb : Nat) (vol : Nat), serving s = true ∧ (getMbx s mb).running = some (.volumeStop vol) ∧ ((getVol s vol).st =
      .offline ∨ (acceptedOf s vol = false ∧ dirtyVol s vol = false ∧ anyIntent s (· == vol) = false ∧ s.destages.any (fun d =>
      d.vol == vol) = false))) ∧
    (∃ (s : State) (g : Go) (vol : Nat) (mask : Nat) (home : Nat) (policy : Nat) (h' : Nat) (p' : Nat) (attr : BitVec 8) (a' :
      BitVec 8) (c : VolCfg), GoReady s g false 6 [objVol vol] ∧ VolReady s g vol c ∧ (getVol s vol).st = .stopped ∧ mask ≤ 7 ∧
      (mask % 2 = 1 → home < 8 ∧ tileUp s home = true) ∧ (mask / 2 % 2 = 1 → attr.toNat ≤ 7) ∧ (mask / 4 % 2 = 1 → policy ≤ 3) ∧
      h' = (if mask % 2 = 1 then home else c.home) ∧ a' = (if mask / 2 % 2 = 1 then attr else c.attr) ∧ p' = (if mask / 4 % 2 =
      1 then policy else c.policy) ∧ (a'.getLsbD 0 = true → (h' = c.home ∧ c.attr.getLsbD 0 = true) ∨ sealsOn s h' < 2048)) ∧
    (∃ (s : State) (g : Go) (vol : Nat) (mask : Nat) (home : Nat) (policy : Nat) (h' : Nat) (p' : Nat) (attr : BitVec 8) (a' :
      BitVec 8) (c : VolCfg), GoReady s g false 6 [objVol vol] ∧ VolReady s g vol c ∧ (getVol s vol).st = .stopped ∧ mask ≤ 7 ∧
      (mask % 2 = 1 → home < 8 ∧ tileUp s home = true) ∧ (mask / 2 % 2 = 1 → attr.toNat ≤ 7) ∧ (mask / 4 % 2 = 1 → policy ≤ 3) ∧
      h' = (if mask % 2 = 1 then home else c.home) ∧ a' = (if mask / 2 % 2 = 1 then attr else c.attr) ∧ p' = (if mask / 4 % 2 =
      1 then policy else c.policy) ∧ (a'.getLsbD 0 = true → (h' = c.home ∧ c.attr.getLsbD 0 = true) ∨ sealsOn s h' < 2048)) ∧
    (∃ (s : State) (g : Go) (vol : Nat) (c : VolCfg), GoReady s g true 2 [objVol vol] ∧ s.phase = .ready ∧ volExists s g.mb vol =
      true ∧ volCfg? s vol = some c) ∧
    (∃ (s : State) (g : Go) (vol : Nat), GoReady s g true 2 [objVol vol] ∧ s.phase = .ready ∧ vol < s.part.volumes ∧ fnMayVol s g.mb
      vol = true ∧ volCfg? s vol = none) ∧
    (∃ (s : State) (g : Go) (vol : Nat) (n : Nat) (buf : SegDesc) (l : List Nat) (c : VolCfg), GoReady s g false 24 [objVol vol] ∧
      VolReady s g vol c ∧ (getVol s vol).st = .stopped ∧ 1 ≤ n ∧ n ≤ 2 ^ 20 ∧ badBuf buf = false ∧ badExtents s c.pool vol n
      buf.segLen.toNat l = false) := by
  refine ⟨?_, ?_, ?_, ?_, ?_, ?_, ?_, ?_, ?_, ?_, ?_, ?_, ?_, ?_, ?_, ?_⟩
  · exact ⟨served, go 32, { vol := 1, pool := 0, home := 7, attr := 1, policy := 1, extents := 1, buf := buf0, list := [3] }, pool0, by unfold GoReady; decide +kernel⟩
  · exact ⟨served, go 32, { vol := 1, pool := 0, home := 0xFF, attr := 1, policy := 1, extents := 1, buf := buf0, list := [3] }, pool0, (chooseHome served true).getD 9, by unfold GoReady; decide +kernel⟩
  · exact ⟨stopped, go 2, 0, { vol0 with running := false }, by unfold GoReady VolReady; decide +kernel⟩
  · exact ⟨{ served with vols := [(0, { st := .stopped })] }, go 2, 0, vol0, by unfold GoReady; decide +kernel⟩
  · exact ⟨{ stopped with cfg := { stopped.cfg with vols := [(0, { vol0 with attr := 4 })] } }, go 2, 0, by unfold GoReady; decide +kernel⟩
  · exact ⟨served, go 2, 0, by unfold GoReady; decide +kernel⟩
  · exact ⟨{ served with vols := [(0, { st := .stopping, draining := true })] }, go 2, 0, by unfold GoReady; decide +kernel⟩
  · exact ⟨stopped, go 2, 0, by unfold GoReady; decide +kernel⟩
  · exact ⟨{ served with vols := [(0, { st := .offline })] }, go 2, 0, by unfold GoReady; decide +kernel⟩
  · exact ⟨boxed { served with vols := [(0, { st := .offline, draining := true })] } 0 { busy := true, running := some (.volumeStop 0) }, 0, 0, by decide +kernel⟩
  · exact ⟨boxed { served with vols := [(0, { st := .stopping, draining := true })] } 0 { busy := true, running := some (.volumeStop 0) }, 0, 0, by decide +kernel⟩
  · exact ⟨stopped, go 6, 0, 7, 7, 2, 7, 2, 1, 1, vol0S, by unfold GoReady VolReady; decide +kernel⟩
  · exact ⟨{ stopped with cfg := { stopped.cfg with vols := [(0, { vol0S with attr := 1 })] } }, go 6, 0, 4, 7, 3, 0, 3, 0, 1, { vol0S with attr := 1 }, by unfold GoReady VolReady; decide +kernel⟩
  · exact ⟨served, go 2, 0, vol0, by unfold GoReady; decide +kernel⟩
  · exact ⟨served, go 2, 5, by unfold GoReady; decide +kernel⟩
  · exact ⟨stopped, go 24, 0, 1, buf0, [4], { vol0 with running := false }, by unfold GoReady VolReady; decide +kernel⟩

theorem witness_JournalCommandRows :
    (∃ (s : State) (g : Go) (tile : Nat) (buf : SegDesc), GoReady s g false 24 [] ∧ badBuf buf = false ∧ tile < s.part.tiles) ∧
    (∃ (s : State) (g : Go) (pool : Nat) (buf : SegDesc) (c : PoolCfg), GoReady s g false 24 [objPool pool] ∧ PoolReady s pool c ∧
      badBuf buf = false) ∧
    (∃ (s : State) (g : Go) (pool : Nat) (i : Nat) (j : Nat) (c : PoolCfg), GoReady s g false 6 [objPool pool] ∧ PoolReady s pool c
      ∧ (getPool s pool).st = .stopped ∧ i < c.n ∧ j < c.n ∧ groupAt s c.members i ≠ groupAt s c.members j ∧ c.partner = none) ∧
    (∃ (s : State) (g : Go) (pool : Nat) (i : Nat) (j : Nat) (c : PoolCfg), GoReady s g false 6 [objPool pool] ∧ PoolReady s pool c
      ∧ (getPool s pool).st = .stopped ∧ i < c.n ∧ j < c.n ∧ groupAt s c.members i = groupAt s c.members j) ∧
    (∃ (s : State) (g : Go) (vol : Nat), GoReady s g true 4 [objVol vol, objCancel g.mb] ∧ s.phase = .ready ∧ volExists s g.mb vol =
      true) ∧
    (∃ (s : State) (g : Go) (pool : Nat) (c : PoolCfg), GoReady s g false 4 [objPool pool, objCancel g.mb] ∧ PoolReady s pool c) ∧
    (∃ (s : State) (mb : Nat) (scope : Nat) (ident : Nat), serving s = true ∧ (getMbx s mb).running = some (.drain scope ident) ∧
      anyIntent s (fun v => (drainVols s scope ident).contains v) = false) ∧
    (∃ (s : State) (mb : Nat) (vol : Nat), serving s = true ∧ (getMbx s mb).running = some (.drain 0 vol) ∧ (getMbx s mb).orphan =
      false ∧ anyIntent s (fun v => [vol].contains v) = false) := by
  refine ⟨?_, ?_, ?_, ?_, ?_, ?_, ?_, ?_⟩
  · exact ⟨up, go 24, 7, buf0, by unfold GoReady; decide +kernel⟩
  · exact ⟨served, go 24, 0, buf0, pool0, by unfold GoReady PoolReady; decide +kernel⟩
  · exact ⟨{ stopped with cfg := { stopped.cfg with members := [(3, member0 3 1)] } }, go 6, 0, 0, 3, { pool0 with running := false }, by unfold GoReady PoolReady; decide +kernel⟩
  · exact ⟨stopped, go 6, 0, 0, 3, { pool0 with running := false }, by unfold GoReady PoolReady; decide +kernel⟩
  · exact ⟨served, go 4, 0, by unfold GoReady; decide +kernel⟩
  · exact ⟨served, go 4, 0, pool0, by unfold GoReady PoolReady; decide +kernel⟩
  · exact ⟨boxed { served with vols := [(0, { st := .running, draining := true })] } 0 { busy := true, running := some (.drain 0 0) }, 0, 0, 0, by decide +kernel⟩
  · exact ⟨boxed ({ served with vols := [(0, { st := .running, draining := true })] }) 0 { busy := true, running := some (.drain 0 0) }, 0, 0, by decide +kernel⟩

theorem witness_SelftestRows :
    (∃ (s : State) (g : Go) (pool : Nat), GoReady s g false 4 [] ∧ testActive (getTest s 1 0) = false) ∧
    (∃ (s : State) (g : Go) (pool : Nat), GoReady s g false 4 [] ∧ testActive (getTest s 1 0) = true) ∧
    (∃ (s : State) (g : Go) (pool : Nat) (c : PoolCfg), GoReady s g false 4 [objPool pool] ∧ PoolReady s pool c ∧ testActive
      (getTest s 2 pool) = false ∧ extendedTests s < 4) ∧
    (∃ (s : State) (pool : Nat), serving s = true ∧ (getTest s 1 0).st = 1) ∧
    (∃ (s : State) (pool : Nat), serving s = true ∧ (getTest s 2 pool).st = 1 ∧ (poolCfg s pool).poolRows ≤ (getTest s 2 pool).row) ∧
    (∃ (s : State) (g : Go) (pool : Nat), GoReady s g false 4 []) ∧
    (∃ (s : State) (g : Go) (pool : Nat) (c : PoolCfg), GoReady s g false 4 [objPool pool] ∧ PoolReady s pool c) ∧
    (∃ (s : State) (g : Go) (pool : Nat), GoReady s g false 4 [] ∧ testActive (getTest s 1 0) = true) ∧
    (∃ (s : State) (g : Go) (pool : Nat) (c : PoolCfg), GoReady s g false 4 [objPool pool] ∧ PoolReady s pool c) ∧
    (∃ (s : State) (g : Go) (pool : Nat) (c : PoolCfg), GoReady s g false 4 [objPool pool] ∧ PoolReady s pool c ∧ testActive
      (getTest s 2 pool) = true ∧ (getTest s 2 pool).fetch = none) := by
  refine ⟨?_, ?_, ?_, ?_, ?_, ?_, ?_, ?_, ?_, ?_⟩
  · exact ⟨up, go 4, 0, by unfold GoReady; decide +kernel⟩
  · exact ⟨{ served with tests := [((1, 0), { st := 1 })] }, go 4, 0, by unfold GoReady; decide +kernel⟩
  · exact ⟨served, go 4, 0, pool0, by unfold GoReady PoolReady; decide +kernel⟩
  · exact ⟨{ served with tests := [((1, 0), { st := 1 })] }, 0, by decide +kernel⟩
  · exact ⟨{ served with tests := [((2, 0), { st := 1, row := 8192 })] }, 0, by decide +kernel⟩
  · exact ⟨{ served with tests := [((1, 0), { st := 1 })] }, go 4, 0, by unfold GoReady; decide +kernel⟩
  · exact ⟨{ served with tests := [((2, 0), { st := 1 })] }, go 4, 0, pool0, by unfold GoReady PoolReady; decide +kernel⟩
  · exact ⟨{ served with tests := [((1, 0), { st := 1 })] }, go 4, 0, by unfold GoReady; decide +kernel⟩
  · exact ⟨served, go 4, 0, pool0, by unfold GoReady PoolReady; decide +kernel⟩
  · exact ⟨{ served with tests := [((2, 0), { st := 1 })] }, go 4, 0, pool0, by unfold GoReady PoolReady; decide +kernel⟩

theorem witness_JetCommandRows :
    (∃ (s : State) (g : Go), GoReady s g false 0 []) ∧
    (∃ (s : State) (g : Go), GoReady s g false 0 []) ∧
    (∃ (s : State) (v : W32), running s = true ∧ s.jet.token = some v) ∧
    (∃ (s : State) (g : Go) (v : W32), GoReady s g false 4 [] ∧ s.jet.token = some v) ∧
    (∃ (s : State) (g : Go) (v : W32), GoReady s g false 4 [] ∧ s.jet.token ≠ some v) ∧
    (∃ (s : State) (mb : Nat), running s = true ∧ (getMbx s mb).running = some .jetClear ∧ (getMbx s mb).orphan = false ∧
      s.jet.pinned = [] ∧ s.jet.buffer = [] ∧ s.jet.overflow = []) := by
  refine ⟨?_, ?_, ?_, ?_, ?_, ?_⟩
  · exact ⟨up, go 0, by unfold GoReady; decide +kernel⟩
  · exact ⟨up, go 0, by unfold GoReady; decide +kernel⟩
  · exact ⟨{ up with jet := { token := some 3 } }, 3, by decide +kernel⟩
  · exact ⟨{ up with jet := { token := some 3 } }, go 4, 3, by unfold GoReady; decide +kernel⟩
  · exact ⟨up, go 4, 3, by unfold GoReady; decide +kernel⟩
  · exact ⟨boxed { up with jet := { recording := false } } 0 { busy := true, running := some .jetClear, data := [1] }, 0, by decide +kernel⟩

theorem witness_FirmwareRows :
    (∃ (s : State) (g : Go), GoReady s g false 0 []) ∧
    (∃ (s : State) (g : Go) (off : Nat) (len : Nat) (buf : SegDesc) (data : List Byte), GoReady s g false 24 [] ∧ off % 4096 = 0 ∧
      len % 4096 = 0 ∧ off < 32 * 2 ^ 20 ∧ len ≤ 4 * 2 ^ 20 ∧ off + len ≤ 32 * 2 ^ 20 ∧ badBuf buf = false ∧ len ≤
      buf.segLen.toNat ∧ s.flash.active = 0) ∧
    (∃ (s : State) (g : Go), GoReady s g false 1 [] ∧ imageSlotGood s (1 - s.flash.active) = true) ∧
    (∃ (s : State) (g : Go), GoReady s g false 1 [] ∧ imageSlotGood s (1 - s.flash.active) = false) ∧
    (∃ (s : State) (g : Go), GoReady s g false 1 []) ∧
    (∃ (s : State) (g : Go), GoReady s g false 1 []) := by
  refine ⟨?_, ?_, ?_, ?_, ?_, ?_⟩
  · exact ⟨up, go 0, by unfold GoReady; decide +kernel⟩
  · exact ⟨up, go 24, 4096, 4096, buf0, [1, 2], by unfold GoReady; decide +kernel⟩
  · exact ⟨{ up with flash := { active := 1 } }, go 1, by unfold GoReady; decide +kernel⟩
  · exact ⟨up, go 1, by unfold GoReady; decide +kernel⟩
  · exact ⟨up, go 1, by unfold GoReady; decide +kernel⟩
  · exact ⟨up, go 1, by unfold GoReady; decide +kernel⟩

theorem witness_KeyRows :
    (∃ (s : State) (g : Go) (buf : SegDesc), GoReady s g false 16 [] ∧ badBuf buf = false) ∧
    (∃ (s : State) (g : Go) (buf : SegDesc), GoReady s g false 16 [] ∧ badBuf buf = false) ∧
    (∃ (s : State) (g : Go) (hp : List Byte) (w : List Byte), GoReady s g false 136 [] ∧ s.cfg.vols.any (fun e => e.2.key.isSome) =
      false) ∧
    (∃ (s : State) (g : Go) (hp : List Byte) (w : List Byte), GoReady s g false 136 [] ∧ s.cfg.vols.any (fun e => e.2.key.isSome) =
      true) ∧
    (∃ (s : State) (g : Go) (vol : Nat) (w : List Byte) (c : VolCfg), GoReady s g false 80 [objVol vol] ∧ VolReady s g vol c ∧
      (getVol s vol).st = .stopped ∧ c.attr.getLsbD 2 = true) ∧
    (∃ (s : State) (g : Go) (vol : Nat) (c : VolCfg), GoReady s g false 2 [objVol vol] ∧ VolReady s g vol c ∧ (getVol s vol).st =
      .stopped) := by
  refine ⟨?_, ?_, ?_, ?_, ?_, ?_⟩
  · exact ⟨up, go 16, buf0, by unfold GoReady; decide +kernel⟩
  · exact ⟨up, go 16, buf0, by unfold GoReady; decide +kernel⟩
  · exact ⟨up, go 136, [], [], by unfold GoReady; decide +kernel⟩
  · exact ⟨{ up with cfg := { vols := [(0, { vol0 with key := some 1 })] } }, go 136, [], [], by unfold GoReady; decide +kernel⟩
  · exact ⟨{ stopped with cfg := { stopped.cfg with vols := [(0, { vol0 with attr := 4 })] } }, go 80, 0, [], { vol0 with attr := 4 }, by unfold GoReady VolReady; decide +kernel⟩
  · exact ⟨stopped, go 2, 0, { vol0 with running := false }, by unfold GoReady VolReady; decide +kernel⟩

theorem witness_PowerRows :
    (∃ (s : State) (g : Go) (st : Nat), GoReady s g false 1 [objCancel g.mb] ∧ st ≤ 2 ∧ s.hk.psPending = none ∧ psOf st = s.hk.ps) ∧
    (∃ (s : State) (g : Go) (st : Nat), GoReady s g false 1 [objCancel g.mb] ∧ 1 ≤ st ∧ st ≤ 2 ∧ s.hk.psPending = none ∧ psOf st ≠
      s.hk.ps) ∧
    (∃ (s : State) (g : Go), GoReady s g false 1 [objCancel g.mb] ∧ s.hk.psPending = none ∧ s.hk.ps ≠ .ps0) ∧
    (∃ (s : State) (g : Go), GoReady s g false 0 []) ∧
    (∃ (s : State) (g : Go) (e : Nat), GoReady s g false 1 [] ∧ e ≤ 1) ∧
    (∃ (s : State) (g : Go) (w : Nat) (th : Nat) (cr : Nat) (ms : Nat), GoReady s g false 6 [] ∧ 60 ≤ w ∧ w ≤ 105 ∧ w < th ∧ th ≤
      110 ∧ th < cr ∧ cr ≤ 115 ∧ ms ≤ 1000) ∧
    (∃ (s : State) (g : Go) (w : Nat) (th : Nat) (cr : Nat) (ms : Nat), GoReady s g false 6 [] ∧ (w < 60 ∨ 105 < w)) ∧
    (∃ (s : State) (g : Go) (w : Nat) (th : Nat) (cr : Nat) (ms : Nat), GoReady s g false 6 [] ∧ (w < 60 ∨ 105 < w)) := by
  refine ⟨?_, ?_, ?_, ?_, ?_, ?_, ?_, ?_⟩
  · exact ⟨up, go 1, 0, by unfold GoReady; decide +kernel⟩
  · exact ⟨up, go 1, 2, by unfold GoReady; decide +kernel⟩
  · exact ⟨{ up with hk := { ps := .ps1 } }, go 1, by unfold GoReady; decide +kernel⟩
  · exact ⟨up, go 0, by unfold GoReady; decide +kernel⟩
  · exact ⟨up, go 1, 1, by unfold GoReady; decide +kernel⟩
  · exact ⟨up, go 6, 105, 110, 115, 1000, by unfold GoReady; decide +kernel⟩
  · exact ⟨up, go 6, 59, 110, 115, 1000, by unfold GoReady; decide +kernel⟩
  · exact ⟨up, go 6, 106, 110, 115, 1000, by unfold GoReady; decide +kernel⟩

/-! ### Well-formedness -/

def args0 : MaintArgs := { force := false, discard := false, vol := 1, first := 1, count := 1, reservedZero := true }
def head0 : PoolHeader := { owner := 1, lease := 1, suspended := false, image := {} }
def desc0 : PoolDesc := { k := 4, s := 1, n := 6, seed := 1, mirror0 := 0, mirror1 := 1, members := [], vols := [] }
def rec0 : Rec := { kind := .intent, epoch := 1, vol := 1, row := 1, seq := 1 }
def cpl0 : HostCpl := { tag := 1, status := .sc, poisoned := false, byteCount := 1, lowerAddr := 0, data := [] }
def pcreate0 : PoolParams :=
  { pool := 1, k := 4, s := 1, n := 6, seed := 1, seedGiven := true, mirrorGiven := false, mirror0 := 0, mirror1 := 1, members := [1], spares := [] }
def vcreate0 : VolParams := { vol := 1, pool := 1, home := 255, attr := 0, policy := 0, extents := 1, buf := buf0, list := [1] }
def epoch0 : EpochParams := { role := 1, guard := 4, period := 2, periodValid := true, dlyAdj := 0, sealTimeoutMs := 1 }

/-! An ill-formed term for each check of `Instr.wf`, refused. -/

theorem test_ill_formed_refused_0 :
    ([.deviceStart [8],
      .refclkLoss (.sd 4),
      .firmwareUp [(64, head0)],
      .routeSwitch 8 1,
      .routeSwitch 1 8,
      .meshHeartbeat 8,
      .recordCommit 1 (2 ^ 64),
      .destageStart (2 ^ 14) 1,
      .destageStart 1 (2 ^ 40),
      .mirrorRecopyComplete 64 1,
      .memberCommandCompletion 1 .success [(0, 0)],
      .memberCommandCompletion 1 .success [(2, 1), (1, 1)],
      .memberReachTimeout 1024,
      .scrubRow 64 0,
      .scrubRow 1 (2 ^ 40),
      .lineFillComplete 1 72,
      .evictionComplete 1 64,
      .lineRetirement 1 1 4 1,
      .lineRetirement 1 1 1 (2 ^ 14),
      .zeroLine (.mailbox { go 0 with mb := 64 }) args0,
      .zeroLine (.ring 1) { args0 with vol := 65536 },
      .zeroLine (.ring 1) { args0 with first := 2 ^ 64 },
      .zeroLine (.ring 1) { args0 with count := 2 ^ 32 },
      .connect { hdr0 0x01 32 with port := 256 } { tenantConn := 1, maxData := 1, qdepth := 1, tenantId := 1 },
      .sbtPacketDiscard 256 .checksum,
      .indexReuse 1 (2 ^ 13),
      .xferRdy 1 (2 ^ 32) 1,
      .xferRdy 1 1 (2 ^ 32),
      .fecErrorSecond 1 (2 ^ 64),
      .pfcFrame 1 1 (2 ^ 16),
      .memberQueueSetup 1 1 true (.identify 65536 1 4 true true 1),
      .memberQueueSetup 1 1 true (.identify 1 65536 4 true true 1),
      .memberQueueSetup 1 1 true (.identify 1 1 (2 ^ 32) true true 1),
      .memberQueueSetup 1 1 true (.icResp true true (2 ^ 32)),
      .memberQueueSetup 1 1 true (.connect true 65536),
      .edge edge0.sync [],
      .ack { hdr0 0x30 0 with bytes := [] },
      .nack { phdr (2, []) 0 with bytes := [] },
      .extentZeroingComplete 1 (2 ^ 32),
      .hello { phdr (1, []) 0 with port := 256 },
      .poolOffer (phdr (1, []) 0) (2 ^ 16) desc0,
      .poolOffer (phdr (1, []) 0) 1 { desc0 with k := 256 },
      .poolOffer (phdr (1, []) 0) 1 { desc0 with s := 256 },
      .poolOffer (phdr (1, []) 0) 1 { desc0 with n := 65536 },
      .poolOffer (phdr (1, []) 0) 1 { desc0 with mirror0 := 65536 },
      .poolOffer (phdr (1, []) 0) 1 { desc0 with mirror1 := 65536 },
      .poolOffer (phdr (1, []) 0) 1 { desc0 with members := [member0 65536 0] }] : List Instr).all (fun i => !i.wf) = true := by
  decide +kernel
theorem test_ill_formed_refused_1 :
    ([.poolOffer (phdr (1, []) 0) 1 { desc0 with vols := [(16384, [], 0, 0, [])] },
      .poolOffer (phdr (1, []) 0) 1 { desc0 with vols := [(0, [], 0, 0, [{ firstRow := 0, rows := 1, policy := 4, valid := true }])] },
      .poolReply (phdr (1, []) 0) 1 (2 ^ 8),
      .record (phdr (1, []) 0) 1 (2 ^ 32) 1 true rec0,
      .record (phdr (1, []) 0) 1 1 8 true rec0,
      .record (phdr (1, []) 0) 1 1 1 true { rec0 with vol := 16384 },
      .record (phdr (1, []) 0) 1 1 1 true { rec0 with row := 2 ^ 40 },
      .record (phdr (1, []) 0) 1 1 1 true { rec0 with generation := 65536 },
      .record (phdr (1, []) 0) 1 1 1 true { rec0 with seq := 2 ^ 64 },
      .record (phdr (1, []) 0) 1 1 1 true { rec0 with ref := 2 ^ 64 },
      .record (phdr (1, []) 0) 1 1 1 true { rec0 with payloadBlocks := 121 },
      .record (phdr (1, []) 0) 1 1 1 true { rec0 with payload := [(0, 0)] },
      .release (phdr (1, []) 0) 1 [{ head0 with image := { state := 256 } }],
      .release (phdr (1, []) 0) 1 [{ head0 with image := { gen := 2 ^ 32 } }],
      .release (phdr (1, []) 0) 1 [{ head0 with image := { cursor := 2 ^ 40 } }],
      .release (phdr (1, []) 0) 1 [{ head0 with image := { baseCursor := 2 ^ 40 } }],
      .release (phdr (1, []) 0) 1 [{ head0 with image := { critCursor := 2 ^ 40 } }],
      .release (phdr (1, []) 0) 1 [{ head0 with image := { copyCursor := 2 ^ 40 } }],
      .release (phdr (1, []) 0) 1 [{ head0 with image := { scrubCursor := 2 ^ 40 } }],
      .release (phdr (1, []) 0) 1 [{ head0 with image := { failList := List.replicate 9 (0, none) } }],
      .release (phdr (1, []) 0) 1 [{ head0 with image := { failList := [(1024, none)] } }],
      .release (phdr (1, []) 0) 1 [{ head0 with image := { lst := [(2 ^ 40, 0, 0, 0)] } }],
      .release (phdr (1, []) 0) 1 [{ head0 with image := { lst := [(0, 32, 0, 0)] } }],
      .release (phdr (1, []) 0) 1 [{ head0 with image := { lst := [(0, 0, 16, 0)] } }],
      .partnerResendTimer 8,
      .leaseRenewal 1 4 1,
      .pcieLinkUp 3 16,
      .pcieLinkUp 64 3,
      .pcieLinkDown 3 16,
      .pcieLinkDown 64 3,
      .dStateEntry 64 .d0,
      .vfEnable true (2 ^ 16),
      .hostCompletion { cpl0 with tag := 16384 },
      .hostCompletion { cpl0 with byteCount := 4097 },
      .hostCompletion { cpl0 with lowerAddr := 128 },
      .completionTimeout (2 ^ 14),
      .invalidationRequest 1 32 1 1,
      .windowWrite { tlp0 with window := 64 } [],
      .windowWrite tlp0 (List.replicate 4097 none),
      .windowRead tlp0 4097,
      .winCommit 1 64 1,
      .windowDirectWrite 1 1 64 1] : List Instr).all (fun i => !i.wf) = true := by
  decide +kernel
theorem test_ill_formed_refused_2 :
    ([.windowDirectWrite 1 1 2 1,
      .sqDb 1 2048,
      .cqHeadDb 1 512 1,
      .mailboxCancel 64 1,
      .devInfo { go 0 with mb := 64 },
      .devInfo { go 0 with paramLen := 65536 },
      .devInfo { go 0 with hdrReserved := some 7 },
      .devInfo { go 0 with fieldReserved := some 65536 },
      .funcAssign (go 0) (2 ^ 8) 1 0 1 1,
      .funcAssign (go 0) 1 (2 ^ 8) 0 1 1,
      .funcAssign (go 0) 1 1 1 1 1,
      .funcAssign (go 0) 1 1 0 (2 ^ 16) 1,
      .funcAssign (go 0) 1 1 0 1 (2 ^ 16),
      .withdraw (go 0) 1 1 0 1 1,
      .portConfig (go 0) { port0 1 with port := 65536 },
      .portConfig (go 0) { port0 1 with role := 256 },
      .portConfig (go 0) { port0 1 with mode := 256 },
      .portConfig (go 0) { port0 1 with flags := 256 },
      .portConfig (go 0) { port0 1 with pcp := 256 },
      .portConfig (go 0) { port0 1 with vlan := 65536 },
      .portConfig (go 0) { port0 1 with mtu := 65536 },
      .portConfig (go 0) { port0 1 with xoff := 65536 },
      .portConfig (go 0) { port0 1 with prefix4 := 256 },
      .portConfig (go 0) { port0 1 with prefix6 := 256 },
      .portStop (go 0) (2 ^ 16),
      .portTest (go 0) 1 (2 ^ 8) 1,
      .portTest (go 0) 1 1 (2 ^ 16),
      .sbtConfig (go 0) (2 ^ 16) 1 1,
      .sbtConfig (go 0) 1 (2 ^ 16) 1,
      .sbtConfig (go 0) 1 1 (2 ^ 32),
      .sbtTenantSet (go 0) (2 ^ 16) 1 [],
      .sbtTenantSet (go 0) 1 1 [(65536, 0)],
      .sbtTenantSet (go 0) 1 1 [(0, 65536)],
      .sbtTenantSet (go 0) 1 1 (List.replicate 256 (0, 0)),
      .sbtConnList (go 0) (2 ^ 8) buf0,
      .sbtThrottle (go 0) (2 ^ 8) 1 1 1 1,
      .sbtThrottle (go 0) 1 (2 ^ 16) 1 1 1,
      .sbtThrottle (go 0) 1 1 1 (2 ^ 32) 1,
      .sbtThrottle (go 0) 1 1 1 1 (2 ^ 16),
      .poolCreate (go 0) { pcreate0 with pool := 65536 } []] : List Instr).all (fun i => !i.wf) = true := by
  decide +kernel
theorem test_ill_formed_refused_3 :
    ([.poolCreate (go 0) { pcreate0 with k := 256 } [],
      .poolCreate (go 0) { pcreate0 with s := 256 } [],
      .poolCreate (go 0) { pcreate0 with n := 65536 } [],
      .poolCreate (go 0) { pcreate0 with mirror0 := 65536 } [],
      .poolCreate (go 0) { pcreate0 with mirror1 := 65536 } [],
      .poolCreate (go 0) { pcreate0 with members := [65536] } [],
      .poolCreate (go 0) { pcreate0 with spares := List.replicate 256 0 } [],
      .poolCreate (go 0) { pcreate0 with spares := [65536] } [],
      .poolCreate (go 0) pcreate0 [ident0 65536],
      .hotspareSet (go 0) 1 [65536] [],
      .hotspareSet (go 0) 1 (List.replicate 256 0) [],
      .hotspareSet (go 0) 1 [] [ident0 65536],
      .poolDegradedConfig (go 0) 1 (2 ^ 16) 1,
      .poolDegradedConfig (go 0) 1 1 (2 ^ 16),
      .rebuildConfig (go 0) (2 ^ 8),
      .lstRead (go 0) 1 (2 ^ 32) buf0,
      .volumeCreate (go 0) { vcreate0 with vol := 65536 },
      .volumeCreate (go 0) { vcreate0 with pool := 65536 },
      .volumeCreate (go 0) { vcreate0 with home := 256 },
      .volumeCreate (go 0) { vcreate0 with policy := 256 },
      .volumeCreate (go 0) { vcreate0 with extents := 2 ^ 32 },
      .volumeCreate (go 0) { vcreate0 with list := [2 ^ 32] },
      .volumeDelete (go 0) (2 ^ 16),
      .volumeSet (go 0) 1 (2 ^ 8) 1 1 1,
      .volumeSet (go 0) 1 1 (2 ^ 8) 1 1,
      .volumeSet (go 0) 1 1 1 1 (2 ^ 8),
      .volumeSetExtents (go 0) 1 (2 ^ 32) buf0 [],
      .volumeSetExtents (go 0) 1 1 buf0 [2 ^ 32],
      .memberDefine (go 0) { member0 1 1 with member := 65536 },
      .memberDefine (go 0) { member0 1 1 with group := 256 },
      .memberDefine (go 0) { member0 1 1 with family := 256 },
      .memberDefine (go 0) { member0 1 1 with tcpPort := 65536 },
      .memberDefine (go 0) { member0 1 1 with nqn := List.replicate 224 0 },
      .memberStatus (go 0) (2 ^ 16),
      .memberReplace (go 0) 1 1 1 (ident0 65536),
      .partnerConfig (go 0) 1 (2 ^ 8) true 1,
      .epochConfig (go 0) { epoch0 with role := 256 },
      .epochConfig (go 0) { epoch0 with guard := 256 },
      .epochConfig (go 0) { epoch0 with period := 256 },
      .epochConfig (go 0) { epoch0 with dlyAdj := -32769 }] : List Instr).all (fun i => !i.wf) = true := by
  decide +kernel
theorem test_ill_formed_refused_4 :
    ([.epochConfig (go 0) { epoch0 with dlyAdj := 32768 },
      .epochConfig (go 0) { epoch0 with sealTimeoutMs := 2 ^ 32 },
      .epochSeal (go 0) (2 ^ 8) 1,
      .journalStatus (go 0) 1 (2 ^ 16) buf0,
      .journalMirrorSet (go 0) 1 (2 ^ 16) 1,
      .journalMirrorSet (go 0) 1 1 (2 ^ 16),
      .cacheConfig (go 0) 1 1 (2 ^ 8) 1,
      .cacheConfig (go 0) 1 1 1 (2 ^ 16),
      .cacheRatSet (go 0) 1 1 [{ firstRow := 2 ^ 40, rows := 1, policy := 0, valid := true }],
      .cacheRatSet (go 0) 1 1 [{ firstRow := 0, rows := 2 ^ 40, policy := 0, valid := true }],
      .selftestComplete 1 1 [(8, 0)] [] [],
      .selftestComplete 1 1 [(0, 64)] [] [],
      .selftestComplete 1 1 [] [8] [],
      .selftestComplete 1 1 [] [] [(8, 0)],
      .fwDownload (go 0) 1 1 buf0 [1, 2],
      .kekLoad (go 0) [] (List.replicate 40 0),
      .kekLoad (go 0) (List.replicate 96 0) [],
      .keyLoad (go 0) 1 [],
      .powerStateSet (go 0) (2 ^ 8),
      .powerD3cold (go 0) (2 ^ 8),
      .thermalConfig (go 0) (2 ^ 8) 1 1 1,
      .thermalConfig (go 0) 1 (2 ^ 8) 1 1,
      .thermalConfig (go 0) 1 1 (2 ^ 8) 1,
      .thermalConfig (go 0) 1 1 1 (2 ^ 16),
      .correlationWindowClose 16 1,
      .tripComparator 1 8,
      .registerWrite 1 (.bar0 (2 ^ 24)) 4 1,
      .registerWrite 1 (.vector 2048) 4 1,
      .registerWrite 1 (.bar0 1) 2 1,
      .registerWrite 1 (.bar0 1) 4 0x100000000,
      .coreWatchdog 1 4,
      .meshLinkLoss 8 1,
      .meshLinkLoss 1 8,
      .portTestComplete 1 (List.replicate 5 (0, 0))] : List Instr).all (fun i => !i.wf) = true := by
  decide +kernel

/-- Commands that exec answers with a next state: what the frame statements assume. -/
def answers (s : State) (i : Instr) : Bool :=
  match exec i s with
  | .next _ => true
  | _ => false

/-! One well-formed command of each constructor, which exec answers with a next state: the premise of the frame statements
(FrameMailbox, FrameDevice, FrameTransport, FrameData) met for every command. -/

theorem witness_Frames_0 :
    ([.deviceStart [],
      .refclkLoss .pcie,
      .firmwareUp [],
      .homeTileAcceptance 1,
      .routeSwitch 1 1,
      .meshHeartbeat 1,
      .heartbeatTimeout 1,
      .rangeLockGrant 1,
      .recordCommit 1 1,
      .ackHoldRelease 1,
      .partnerConfirmTimeout 1 1,
      .relocation 1,
      .journalSpaceWaitEnd 1 1,
      .mramCommitFailure 1,
      .destageStart 1 1,
      .destageComplete 1,
      .mirrorRecopyComplete 1 1,
      .readDeadline 1,
      .edge edge0.sync edge0.body,
      .invalidFrame edge0.sync edge0.body,
      .announce edge0.sync (seal0 1 { sealEpoch := 0, accepted := 0, finished := 0, withdrawn := 0 }).body,
      .poll edge0.sync (seal0 1 { sealEpoch := 0, accepted := 0, finished := 0, withdrawn := 0 }).body,
      .done edge0.sync (seal0 1 { sealEpoch := 0, accepted := 0, finished := 0, withdrawn := 0 }).body,
      .failed edge0.sync (seal0 1 { sealEpoch := 0, accepted := 0, finished := 0, withdrawn := 0 }).body,
      .holdover edge0.sync (ctl0 5 kHoldover (holdoverArgs 1)).body,
      .trainCount (ctl0 5 kTrain (trainArgs 1 0 0)),
      .trainResult 0 false (ctl0 5 kTrain (trainArgs 2 1 1)).body,
      .epochNowRead true true,
      .memberCommandCompletion 1 .success [],
      .memberCommandTimeout 1,
      .memberReachTimeout 1,
      .smartLogPoll 1 1,
      .rebuildCommandIssue 1,
      .rebuildRowComplete 1,
      .cursorMetadataWrite 1,
      .rowInterlockGrant 1 1,
      .copybackRowComplete 1,
      .scrubRow 1 0,
      .lineFillComplete 1 1,
      .lineAllocation 1 1] : List Instr).all (fun i => i.wf && answers up i) = true := by
  decide +kernel
theorem witness_Frames_1 :
    ([.evictionComplete 1 1,
      .evmodeSwitch 1,
      .directorySweep 1,
      .lineRetirement 1 1 1 1,
      .zeroLine (.ring 1) args0,
      .invalKey (.ring 1) args0,
      .invalRange (.ring 1) args0,
      .cleanKey (.ring 1) args0,
      .cleanRange (.ring 1) args0,
      .lock (.ring 1) args0,
      .unlock (.ring 1) args0,
      .invalAll (.ring 1) args0,
      .enDirectClear 1,
      .enSet 1,
      .lfsrSeedLoad 1,
      .evmodeChange 1,
      .connect (hdr0 0x01 32) { tenantConn := 1, maxData := 1, qdepth := 1, tenantId := 1 },
      .close (hdr0 0x30 0) 1,
      .read (hdr0 0x30 0) cap0,
      .write (hdr0 0x30 0) cap0,
      .flush (hdr0 0x30 0) cap0,
      .writeZeroes (hdr0 0x30 0) cap0,
      .deallocate (hdr0 0x30 0) cap0,
      .verify (hdr0 0x30 0) cap0,
      .dataOut (hdr0 0x30 0) 1 1 1 [],
      .abort (hdr0 0x30 0) 1,
      .errlogReq (hdr0 0x30 0) 1 1,
      .resume (hdr0 0x30 0) 1 1,
      .ack (hdr0 0x30 0),
      .sbtPacketDiscard 1 .checksum,
      .unknownConnectionPacket (hdr0 0x30 0) true,
      .delayedAck 1,
      .retransmitTimeout 1 1,
      .connectionLoss 1,
      .creditProbe 1,
      .refusalRetentionExpiry 1 1 1 1,
      .indexReuse 1 1,
      .xferRdy 1 1 1,
      .commandCompletion 1,
      .linkUp 1] : List Instr).all (fun i => i.wf && answers up i) = true := by
  decide +kernel
theorem witness_Frames_2 :
    ([.linkDown 1,
      .fecErrorSecond 1 1,
      .pfcFrame 1 1 1,
      .pfcRepeat 1 1,
      .neighbourResolve 1 1,
      .memberQueueSetup 1 1 true .tcp,
      .keepAlive 1,
      .memberQueueBreak 1 1 true .reset,
      .memberReconnectAttempt 1 1 true,
      .memberReissue 1,
      .poolInitComplete 1,
      .extentZeroingComplete 1 1,
      .hello (phdr (1, []) 0),
      .nack (phdr (1, []) 0),
      .poolOffer (phdr (1, []) 0) 1 desc0,
      .poolReply (phdr (1, []) 0) 1 1,
      .poolWithdraw (phdr (1, []) 0) 1,
      .record (phdr (1, []) 0) 1 1 1 true rec0,
      .confirm (phdr (1, []) 0) 1 1 1,
      .release (phdr (1, []) 0) 1 [head0],
      .releaseAck (phdr (1, []) 0) 1 1,
      .partnerResendTimer 1,
      .helloSend 1,
      .partnerLinkTimeout 1,
      .leaseRenewal 1 1 1,
      .leaseLoss 1,
      .autoImport 1 [head0],
      .importCheck 1 [head0],
      .pcieLinkUp 64 16,
      .pcieLinkDown 64 16,
      .dStateEntry 1 .d0,
      .d0Return 1,
      .vfEnable true 1,
      .functionLevelReset 1,
      .hostCompletion cpl0,
      .completionTimeout 1,
      .tagQuarantineEnd 1,
      .translationCompletion { req := 1, status := .sc, readOk := true, writeOk := true, page := 1 },
      .invalidationRequest 1 1 1 1,
      .windowWrite tlp0 []] : List Instr).all (fun i => i.wf && answers up i) = true := by
  decide +kernel
theorem witness_Frames_3 :
    ([.windowRead tlp0 1,
      .winCommit 1 1 1,
      .windowDirectWrite 1 1 4 1,
      .sqDb 1 1,
      .sqDispatch 1,
      .ringRead 1,
      .ringWrite 1,
      .ringFlush 1,
      .ringWriteZeroes 1,
      .ringDeallocate 1,
      .pqCompute 1,
      .reconstruct 1,
      .copy 1,
      .skip 1,
      .cqHeadDb 1 1 1,
      .cqAggTimer 1,
      .sqDisable 1 1 1,
      .sqDrainComplete 1,
      .sqEnable 1 1 1,
      .cqEnable 1 1 1,
      .cqDisable 1 1 1,
      .mailboxCancel 1 1,
      .overrun 1 1,
      .configStored 1,
      .devInfo (go 0),
      .funcAssign (go 0) 1 1 0 1 1,
      .withdraw (go 0) 1 1 1 1 1,
      .portConfig (go 0) (port0 1),
      .portStop (go 0) 1,
      .portStart (go 0) 1,
      .portStatus (go 0) 1,
      .portStats (go 0) 1 buf0,
      .portTest (go 0) 1 1 1,
      .sbtConfig (go 0) 1 1 1,
      .sbtTenantSet (go 0) 1 1 [],
      .sbtTenantRemove (go 0) 1 1 [],
      .sbtConnList (go 0) 1 buf0,
      .sbtConnClose (go 0) 1,
      .sbtThrottle (go 0) 1 1 1 1 1,
      .sbtStats (go 0) 1 1 buf0] : List Instr).all (fun i => i.wf && answers up i) = true := by
  decide +kernel
theorem witness_Frames_4 :
    ([.poolCreate (go 0) pcreate0 [],
      .poolDelete (go 0) 1,
      .poolStart (go 0) 1,
      .poolStop (go 0) 1,
      .poolStatus (go 0) 1,
      .hotspareSet (go 0) 1 [] [],
      .poolDegradedConfig (go 0) 1 1 1,
      .rebuildConfig (go 0) 1,
      .rebuildStatus (go 0) 1 buf0,
      .scrubStart (go 0) 1,
      .scrubPause (go 0) 1,
      .scrubResume (go 0) 1,
      .lstRead (go 0) 1 1 buf0,
      .volumeCreate (go 0) vcreate0,
      .volumeDelete (go 0) 1,
      .volumeStart (go 0) 1,
      .volumeStop (go 0) 1,
      .volumeStopComplete 1,
      .volumeSet (go 0) 1 1 1 1 1,
      .volumeStatus (go 0) 1,
      .volumeSetExtents (go 0) 1 1 buf0 [],
      .memberDefine (go 0) (member0 1 1),
      .memberStatus (go 0) 1,
      .memberFail (go 0) 1,
      .memberReplace (go 0) 1 1 1 (ident0 1),
      .partnerConfig (go 0) 1 1 true 1,
      .partnerStatus (go 0) 1,
      .poolImport (go 0) 1 [head0],
      .poolRelease (go 0) 1,
      .epochConfig (go 0) epoch0,
      .epochTrain (go 0),
      .epochSeal (go 0) 1 1,
      .sealFailRequest (go 0) 1 1,
      .epochSealStatus (go 0),
      .epochCmapRead (go 0) 1 buf0,
      .epochStats (go 0),
      .journalStatus (go 0) 1 1 buf0,
      .journalMirrorSet (go 0) 1 1 1,
      .journalPartner (go 0) 1 1,
      .journalPartnerClear (go 0) 1 1] : List Instr).all (fun i => i.wf && answers up i) = true := by
  decide +kernel
theorem witness_Frames_5 :
    ([.journalDrain (go 0) 1 1,
      .journalDrainComplete 1,
      .cacheDisable (go 0),
      .cacheDisableQuiesced 1,
      .cacheEnable (go 0),
      .cacheConfig (go 0) 1 1 1 1,
      .cacheRatSet (go 0) 1 1 [],
      .cacheRatGet (go 0) 1,
      .cacheStats (go 0) 1 buf0,
      .shortSelftest (go 0) 1 1,
      .extendedSelftest (go 0) 1 1,
      .selftestComplete 1 1 [] [] [],
      .selftestStatus (go 0) 1 1,
      .selftestAbort (go 0) 1 1,
      .jetStatus (go 0),
      .jetToken (go 0),
      .jetClear (go 0) 1,
      .jetClearDone 1,
      .fwInfo (go 0),
      .fwDownload (go 0) 1 1 buf0 [],
      .fwVerifyPending (go 0) 1,
      .fwClearPending (go 0) 1,
      .fwConfirm (go 0) 1,
      .secPubkey (go 0) buf0,
      .kekLoad (go 0) (List.replicate 96 0) (List.replicate 40 0),
      .keyLoad (go 0) 1 (List.replicate 72 0),
      .keyDestroy (go 0) 1,
      .secMeasure (go 0) buf0,
      .powerStateSet (go 0) 1,
      .powerStatus (go 0),
      .powerD3cold (go 0) 1,
      .thermalConfig (go 0) 1 1 1 1,
      .faultAck 1,
      .f2TimerExpiry 1,
      .f3Contained 1,
      .f3ContainmentTimeout 1,
      .correlationWindowClose 1 1,
      .aliveKick 1,
      .jetDataRead 1,
      .jetCursorWrite 1] : List Instr).all (fun i => i.wf && answers up i) = true := by
  decide +kernel
theorem witness_Frames_6 :
    ([.channelConversion 1 1,
      .roundEnd 1,
      .tripComparator 1 1,
      .registerWrite 1 (.bar0 1) 4 1,
      .extest [],
      .samplePreload [],
      .frzSelect 1,
      .frzShift [],
      .frzMemaddr 1,
      .coreWatchdog 1 1,
      .auxTempPoll 1,
      .smbusBlockRead 1,
      .meshLinkLoss 1 1,
      .refclkReturn .pcie,
      .echoRequest ⟨{}, 1⟩ 1 1 [],
      .neighbourDiscovery ⟨{}, 1⟩ (.answer 1 1),
      .portTestComplete 1 [],
      .selftestCommandIssue 1 1,
      .pwrOkLoss,
      .sysResetNAssert,
      .perstNAssert,
      .perstNRelease,
      .freezeNLow,
      .replayComplete,
      .epochEdge,
      .missLimit,
      .unsynchronised,
      .holdoverSend,
      .rephase,
      .trainTimeout,
      .sealMapsStored,
      .sealTimeout,
      .sealLocalEnd,
      .powerStateEntry,
      .jetTokenExpiry,
      .aliveToggle,
      .hostWatchdog,
      .jetSuppressionWindow,
      .idcode,
      .clamp] : List Instr).all (fun i => i.wf && answers up i) = true := by
  decide +kernel
theorem witness_Frames_7 :
    ([.highz,
      .frzStatus,
      .frzMemdata,
      .frzInfo,
      .shutdownClose,
      .ps2Wake,
      .ps2Idle,
      .testLogicReset] : List Instr).all (fun i => i.wf && answers up i) = true := by
  decide +kernel

end Sys2Proof.Tests
end

section
/-! PROOFS. Laws that the rows of this family share: tables, the end of a command, host memory, connections and mailboxes. -/

namespace Sys2Proof

/-! ### A table entry erased -/

@[simp] theorem Tab.get?_erase_self {α : Type} (t : Tab α) (k : Nat) : Tab.get? (Tab.erase t k) k = none := by
  induction t with
  | nil => rfl
  | cons e r ih =>
    obtain ⟨j, w⟩ := e
    by_cases h : j = k
    · simpa [Tab.erase, h] using ih
    · simpa [Tab.erase, Tab.get?, h] using ih

theorem Tab.get?_erase_ne {α : Type} (t : Tab α) (k j : Nat) (h : j ≠ k) : Tab.get? (Tab.erase t k) j = Tab.get? t j := by
  induction t with
  | nil => rfl
  | cons e r ih =>
    obtain ⟨i, w⟩ := e
    by_cases hk : i = k
    · have hj : i ≠ j := fun e => h (e.symm.trans hk)
      simpa [Tab.erase, Tab.get?, hk, hj, Ne.symm h] using ih
    · by_cases hj : i = j
      · simp [Tab.erase, Tab.get?, hj, h]
      · simpa [Tab.erase, Tab.get?, hk, hj] using ih

namespace Machine

/-! ### What the end of a command leaves of the functions and of the fault queue -/

/-- `t` differs from `s` in no function but in its levels last seen and the messages it holds. -/
def SameFuncs (s t : State) : Prop :=
  ∀ fn, ∃ hi held, getFunc t fn = { getFunc s fn with high := hi, heldMsgs := held }

theorem SameFuncs.refl (s : State) : SameFuncs s s := fun _ => ⟨_, _, rfl⟩

theorem SameFuncs.trans {s t u : State} (h : SameFuncs s t) (k : SameFuncs t u) : SameFuncs s u := fun fn => by
  obtain ⟨_, _, h⟩ := h fn
  obtain ⟨_, _, k⟩ := k fn
  exact ⟨_, _, by rw [k, h]⟩

theorem SameFuncs.foldl {α : Type} (f : State → α → State) (hf : ∀ s a, SameFuncs s (f s a)) (r : List α) (s : State) :
    SameFuncs s (r.foldl f s) := by
  induction r generalizing s with
  | nil => exact .refl s
  | cons a r ih => exact (hf s a).trans (ih (f s a))

/-- A change of one function's levels and held messages. -/
theorem setFunc_sameFuncs (s : State) (fn : Nat) (hi held : List Nat) :
    SameFuncs s (setFunc s fn { getFunc s fn with high := hi, heldMsgs := held }) := fun k => by
  by_cases h : k = fn
  · subst h; exact ⟨hi, held, getFunc_setFunc_self _ _ _⟩
  · exact ⟨_, _, getFunc_setFunc_ne _ _ _ _ h⟩

theorem sendMsg_sameFuncs (s : State) (fn v : Nat) : SameFuncs s (sendMsg s fn v) := by
  unfold sendMsg
  split
  · exact .refl s
  · exact setFunc_sameFuncs s fn _ _

theorem irqFn_sameFuncs (s : State) (fn : Nat) : SameFuncs s (irqFn s fn) := by
  unfold irqFn
  dsimp only
  split
  · exact .refl s
  · exact (setFunc_sameFuncs s fn _ _).trans (.foldl _ (fun t v => sendMsg_sameFuncs t fn v) _ _)

/-- The end of a command leaves every function as it is, but for its levels last seen and the messages it holds (R403). -/
theorem settled_sameFuncs (s : State) : SameFuncs s (settled s) :=
  SameFuncs.trans (fun _ => ⟨_, _, rfl⟩ : SameFuncs s (settleF2 s)) (.foldl irqFn irqFn_sameFuncs _ _)

@[simp] theorem getFunc_settled_intMask (s : State) (fn : Nat) : (getFunc (settled s) fn).intMask = (getFunc s fn).intMask := by
  obtain ⟨_, _, h⟩ := settled_sameFuncs s fn; rw [h]

/-- Comparing the interrupt levels leaves Jade as it is. -/
theorem irqUpdate_jade (s : State) : (irqUpdate s).jade = s.jade := by
  obtain ⟨fs, o, h⟩ := irqFns_frame (List.range (s.pcie.numVfs + 1)) s
  rw [irqUpdate, h]

/-- The end of a command keeps the number of entries of the fault queue (R502). -/
@[simp] theorem settled_queue_length (s : State) : (settled s).jade.queue.length = s.jade.queue.length := by
  simp [settled, irqUpdate_jade, settleF2]

@[simp] theorem getSq_settled (s : State) (n : Nat) : getSq (settled s) n = getSq s n := by simp [getSq]

/-- An interrupt message sent again changes what is emitted, or the messages a function holds (R403). -/
theorem resend_frame (s : State) (fn c : Nat) :
    ∃ fs o, resend s fn c = { s with pcie := { s.pcie with funcs := fs }, out := s.out ++ o } := by
  unfold resend
  dsimp only
  split
  · exact sendMsg_frame s fn _
  · exact ⟨s.pcie.funcs, [], by simp⟩

@[simp] theorem resend_jade (s : State) (fn c : Nat) : (resend s fn c).jade = s.jade := by
  obtain ⟨fs, o, h⟩ := resend_frame s fn c; rw [h]

@[simp] theorem resend_moon (s : State) (fn c : Nat) : (resend s fn c).moon = s.moon := by
  obtain ⟨fs, o, h⟩ := resend_frame s fn c; rw [h]

/-! ### Writes of host memory (R408, R415, R477) -/

theorem modPcie_Frame (s : State) (f : Pcie → Pcie) : Frame [.pcie] s (modPcie s f) := by
  constructor <;> first | exact List.prefix_rfl | (intros; rfl) | (intro h; exact absurd List.mem_cons_self h)

theorem askPage_Frame (s : State) (fn page : Nat) (write : Bool) : Frame [.pcie] s (askPage s fn page write) := by
  unfold askPage
  split
  · exact .refl _ s
  · exact (modPcie_Frame s _).trans ((emit_Frame _ _).mono (by simp))

theorem atcTouch_Frame (s : State) (fn addr : Nat) : Frame [.pcie] s (atcTouch s fn addr) := by
  unfold atcTouch
  split
  · exact modPcie_Frame s _
  · exact .refl _ s

/-- A fold that carries a flag beside the state keeps a frame that each of its steps keeps. -/
theorem Frame.foldl_fst {α β : Type} {l : List Piece} (f : State × β → α → State × β) (hf : ∀ p a, Frame l p.1 (f p a).1)
    (r : List α) (p : State × β) : Frame l p.1 (r.foldl f p).1 := by
  induction r generalizing p with
  | nil => exact .refl l p.1
  | cons a r ih => exact (hf p a).trans (ih (f p a))

theorem tryWrites_Frame (s : State) (fn : Nat) : Frame [.pcie] s (tryWrites s fn) := by
  refine Frame.foldl_fst _ (fun p w => ?_) s.pcie.waitWrites (s, false)
  dsimp only
  split
  · exact .refl _ p.1
  · split
    · exact .refl _ p.1
    · split
      · exact ((modPcie_Frame p.1 _).trans (atcTouch_Frame _ _ _)).trans ((emit_Frame _ _).mono (by simp))
      · exact askPage_Frame _ _ _ _

/-- A write of host memory changes the requester's tables and what is emitted. -/
theorem hostWrite_Frame (s : State) (fn addr len : Nat) (data : Mem) (entry : Option Nat) :
    Frame [.pcie] s (hostWrite s fn addr len data entry) :=
  (modPcie_Frame s _).trans (tryWrites_Frame _ fn)

theorem writeBuf_Frame (s : State) (fn : Nat) (b : SegDesc) (data : List Byte) : Frame [.pcie] s (writeBuf s fn b data) := by
  unfold writeBuf
  dsimp only
  split
  · exact .refl _ s
  · exact hostWrite_Frame _ _ _ _ _ _

end Machine
end Sys2Proof
end

section
/-! PROOFS. The SBT commands of the mailbox: connections under sending and closing, then one equation per command. -/

namespace Sys2Proof.Machine

/-! ### Connections under sending (R303, R305) -/

/-- Looking up by a key that a change keeps finds the changed element. -/
theorem find?_map_of_key {α β : Type} [BEq β] (key : α → β) (f : α → α) (hf : ∀ c, key (f c) = key c) (j : β) (l : List α) :
    (l.map f).find? (fun c => key c == j) = (l.find? (fun c => key c == j)).map f := by
  simp [List.find?_map, hf]

/-- Reading a connection after a change of connections that keeps their identifiers. -/
theorem getConn?_modConn (s : State) (i j : W32) (f : Conn → Conn) (hf : ∀ c, connIdOf (f c) = connIdOf c) :
    getConn? (modConn s i f) j = (getConn? s j).map (fun c => if connIdOf c = i then f c else c) :=
  find?_map_of_key connIdOf _ (fun c => by split; exacts [hf c, rfl]) j s.sbt.conns

theorem connIdOf_of_getConn? {s : State} {id : W32} {k : Conn} (h : getConn? s id = some k) : connIdOf k = id := by
  simpa using List.find?_some h

/-- A change of one connection read back. -/
theorem getConn?_modConn_self {s : State} {id : W32} {k : Conn} {f : Conn → Conn} (hk : getConn? s id = some k)
    (hf : ∀ c, connIdOf (f c) = connIdOf c) : getConn? (modConn s id f) id = some (f k) := by
  rw [getConn?_modConn s id id f hf, hk]
  simp [connIdOf_of_getConn? hk]

/-- Every connection of `s` stands in `t`, changed in what sending changes alone: its packets sent, the next number and the
count of packets it has not yet acknowledged. -/
def SentOn (s t : State) : Prop :=
  ∀ id k, getConn? s id = some k → ∃ tx n u, getConn? t id = some { k with tx := tx, txNext := n, unacked := u }

theorem SentOn.refl (s : State) : SentOn s s := fun _ _ h => ⟨_, _, _, h⟩

theorem SentOn.trans {s t u : State} (h : SentOn s t) (k : SentOn t u) : SentOn s u := fun id c hc => by
  obtain ⟨_, _, _, h⟩ := h id c hc
  obtain ⟨_, _, _, k⟩ := k id _ h
  exact ⟨_, _, _, k⟩

theorem SentOn.foldl {α : Type} (f : State → α → State) (hf : ∀ s a, SentOn s (f s a)) (r : List α) (s : State) :
    SentOn s (r.foldl f s) := by
  induction r generalizing s with
  | nil => exact .refl s
  | cons a r ih => exact (hf s a).trans (ih (f s a))

/-- A change of connections in the fields that sending changes. -/
theorem modConn_sentOn (s : State) (i : W32) (f : Conn → Conn)
    (hf : ∀ c, ∃ tx n u, f c = { c with tx := tx, txNext := n, unacked := u }) : SentOn s (modConn s i f) := fun id k hk => by
  have hid : ∀ c, connIdOf (f c) = connIdOf c := fun c => by obtain ⟨_, _, _, h⟩ := hf c; rw [h]; rfl
  rw [getConn?_modConn s i id f hid, hk]
  by_cases h : connIdOf k = i
  · obtain ⟨tx, n, u, e⟩ := hf k
    exact ⟨tx, n, u, by simp [h, e]⟩
  · exact ⟨k.tx, k.txNext, k.unacked, by simp [h]⟩

theorem emitPkt_sentOn (s : State) (c : Conn) (seq : W32) (b : TxBody) : SentOn s (emitPkt s c seq false b) :=
  SentOn.trans (fun _ _ h => ⟨_, _, _, h⟩ : SentOn s (emit s (connOut s c seq false b)))
    (modConn_sentOn _ _ _ (fun c => ⟨c.tx, c.txNext, 0, rfl⟩))

theorem pumpConn_sentOn (s : State) (id : W32) : SentOn s (pumpConn s id) := by
  unfold pumpConn
  split
  · exact .refl s
  · refine .foldl _ (fun t p => ?_) _ s
    split
    · exact .refl t
    · exact (emitPkt_sentOn _ _ _ _).trans (modConn_sentOn _ _ _ (fun c => ⟨_, c.txNext, c.unacked, rfl⟩))

/-- A packet sent in order leaves every connection as it is, but for what sending changes (R303). -/
theorem sbtSend_sentOn (s : State) (id : W32) (b : TxBody) : SentOn s (sbtSend s id b) :=
  (modConn_sentOn s id _ (fun c => ⟨_, _, c.unacked, rfl⟩)).trans (pumpConn_sentOn _ id)

/-! ### CLOSE of the device (R315, R317) -/

theorem endCmds_of_no_cmds (s : State) (id : W32) (h : s.cmds = []) : endCmds s id = s := by simp [endCmds, h]

theorem sweepMute_of_no_cmds (s : State) (h : s.cmds = []) : sweepMute s = s := by simp [sweepMute, h]

/-- A CLOSE sent on a connection of a device with no command: the connection is CLOSING. -/
theorem closeConn_closing {s : State} {id : W32} {k : Conn} (r : Nat) (hk : getConn? s id = some k) (hs : k.closeSent = false)
    (hc : s.cmds = []) : ∃ k', getConn? (closeConn s id r) id = some k' ∧ k'.st = .closing ∧ k'.closeSent = true := by
  have hm : getConn? (modConn s id (fun c => { c with st := .closing, closeSent := true })) id =
      some { k with st := .closing, closeSent := true } :=
    getConn?_modConn_self hk (fun _ => rfl)
  obtain ⟨tx, n, u, h⟩ := sbtSend_sentOn _ id (.close r) id _ hm
  have hclose : closeConn s id r = sbtSend (modConn s id (fun c => { c with st := .closing, closeSent := true })) id (.close r) := by
    simp [closeConn, hk, hs, endCmds_of_no_cmds, sweepMute_of_no_cmds, hc]
  exact ⟨_, hclose ▸ h, rfl, rfl⟩

/-! ### Endings of a mailbox command (R470, R474, R478) -/

/-- GO on a free mailbox whose command names well-formed fields and fails a check of its objects: the first failing check's answer. -/
theorem mbxRun_fails {s : State} {g : Go} {vf : Bool} {len : Nat} {objs : List (Nat × Nat)} (refused : Bool)
    (fields : List (Nat × Bool)) (checks : List Check) (effect : State → State) {c : Check}
    (h : GoReady s g vf len objs) (hr : refused = false) (hf : fields.all (fun f => !f.2) = true)
    (hc : firstFailing checks = some c) :
    mbxRun s g vf refused len fields checks objs effect =
      done (mbxFinish (mbxTake s g objs (some .waiting)) g.mb c.status c.detail []) := by
  obtain ⟨hfw, hre, hb, hcl, hm, hh, hfr, hl, hbl⟩ := h
  have hlow : fields.filter (fun x => x.2) = [] := by simpa [List.filter_eq_nil_iff] using hf
  have hgate : (g.mb != 0 && !vf) = false := by rcases hm with h | h <;> simp [h]
  simp [mbxRun, hre, hb, hr, gateChecks, formChecks, fieldCheck, hfr, lowestField, hlow, firstFailing, hfw, hcl, hh, hl, hbl, hc, hgate]

/-- The answer that a failed check leaves in LAST_STATUS. -/
@[simp] theorem lastStatus_mbxFinish_mbxTake (s : State) (g : Go) (objs : List (Nat × Nat)) (r : Option Running) (st : Status)
    (d : Nat) (data : List Byte) : (getMbx (mbxFinish (mbxTake s g objs r) g.mb st d data) g.mb).lastStatus = st := by
  simp [mbxFinish]

/-- A command that changes the configuration to `c` runs on until that has been stored (R474). -/
theorem mbxStore_runs (s : State) (g : Go) (objs : List (Nat × Nat)) (c : Cfg) (data : List Byte) :
    Runs (settled (mbxStore { mbxTake s g objs none with cfg := c } g.mb data)) g (.config 0) data := by
  have hm := mbxTake_getMbx s g objs none
  exact (mbxPark_runs { mbxTake s g objs none with cfg := c } g (.config 0) data (congrArg Mailbox.busy hm) (congrArg Mailbox.cmdId hm)).settled

/-- A command that writes bulk data and completes: its answer, and SBT as it was (R477). -/
theorem mbxOk_writeBuf (s : State) (g : Go) (objs : List (Nat × Nat)) (b : SegDesc) (bulk data : List Byte) :
    (settled (mbxOk (writeBuf (mbxTake s g objs none) g.mb b bulk) g.mb data)).sbt = s.sbt ∧
      Answered (settled (mbxOk (writeBuf (mbxTake s g objs none) g.mb b bulk) g.mb data)) g data := by
  have hw := writeBuf_Frame (mbxTake s g objs none) g.mb b bulk
  have hg : getMbx (writeBuf (mbxTake s g objs none) g.mb b bulk) g.mb = getMbx (mbxTake s g objs none) g.mb := by
    simp [getMbx, hw.mbx (by simp)]
  refine ⟨?_, (mbxOk_answered _ _ _ (by simp [hg]) (by simp [hg])).settled⟩
  simp [mbxOk, hw.sbt (by simp)]

/-! ### The commands (R313, R345, R349, Table 7-18) -/

/-- SBT_CONFIG with values in range, the UDP port kept or no connection open. -/
theorem exec_sbtConfig {s : State} {g : Go} {udp credit ms : Nat} (h : GoReady s g false 8 []) (hu : udp ≠ 0) (hc1 : 1 ≤ credit)
    (hc2 : credit ≤ 1024) (hm1 : 10 ≤ ms) (hm2 : ms ≤ 10000) (ho : udp = s.cfg.udpPort ∨ s.sbt.conns = []) :
    exec (.sbtConfig g udp credit ms) s = .next (settled (mbxStore { mbxTake s g [] none with
      cfg := { s.cfg with udpPort := udp, credit := credit, lossMs := ms } } g.mb [])) := by
  have hopen : (udp != s.cfg.udpPort && anyOpen s) = false := by rcases ho with h | h <;> simp [anyOpen, h]
  show execSbtConfig g udp credit ms s = _
  unfold execSbtConfig
  rw [mbxRun_clear _ _ _ _ h rfl]
  · simp [done_eq]
  · simp [hu, Nat.ne_of_gt hc1, hc2, hm1, hm2]
  · simp [needStopped, hopen]

/-- The fields of SBT_TENANT_SET in range. -/
theorem tenantChecks_clear {i : Nat} {r : List (Nat × Nat)} (hi : i < 4096) (hr : r.length ≤ 16) (ho : ∀ x ∈ r, x.1 ≤ x.2) :
    (tenantChecks i r).all (fun f => !f.2) = true := by
  simp only [tenantChecks, List.all_append, List.all_map, Bool.and_eq_true, List.all_eq_true, List.mem_range]
  refine ⟨by simp [hi, hr], fun j hj => ?_⟩
  simp [hj, ho _ (List.getElem_mem hj)]

section Tenant

variable {s : State} {g : Go} {i : Nat} {r : List (Nat × Nat)}
  (h : GoReady s g false (24 + 4 * r.length) []) (hi : i < 4096) (hr : r.length ≤ 16) (ho : ∀ x ∈ r, x.1 ≤ x.2)

include h hi hr ho

theorem exec_sbtTenantSet (id : BitVec 128) (hv : ∀ x ∈ r, x.2 < s.part.volumes) :
    exec (.sbtTenantSet g i id r) s = .next (settled (mbxStore { mbxTake s g [] none with
      cfg := { s.cfg with tenants := Tab.set s.cfg.tenants i { tenantId := id, ranges := r } } } g.mb [])) := by
  show execSbtTenantSet g i id r s = _
  unfold execSbtTenantSet
  rw [mbxRun_clear _ _ _ _ h rfl (tenantChecks_clear hi hr ho)]
  · simp [done_eq]
  · simpa [tenantVols, needVol] using fun a b hx => hv (a, b) hx

theorem exec_sbtTenantRemove (id : BitVec 128) (hv : ∀ x ∈ r, x.2 < s.part.volumes) :
    exec (.sbtTenantRemove g i id r) s = .next (settled (mbxStore { mbxTake s g [] none with
      cfg := { s.cfg with tenants := Tab.erase s.cfg.tenants i } } g.mb [])) := by
  show execSbtTenantRemove g i id r s = _
  unfold execSbtTenantRemove
  rw [mbxRun_clear _ _ _ _ h rfl (tenantChecks_clear hi hr ho)]
  · simp [done_eq]
  · simpa [tenantVols, needVol] using fun a b hx => hv (a, b) hx

/-- A range beyond the part's volumes is refused with 0x0003 (R6). -/
theorem exec_sbtTenantSet_beyond (id : BitVec 128) (hv : ∃ x ∈ r, s.part.volumes ≤ x.2) :
    exec (.sbtTenantSet g i id r) s = .next (settled (mbxFinish (mbxTake s g [] (some .waiting)) g.mb 0x0003 0 [])) := by
  have hall : r.all (fun x => decide (x.2 < s.part.volumes)) = false := by
    obtain ⟨x, hx, hle⟩ := hv
    exact List.all_eq_false.2 ⟨x, hx, by simpa using hle⟩
  show execSbtTenantSet g i id r s = _
  unfold execSbtTenantSet
  rw [mbxRun_fails (c := needVol false) _ _ _ _ h rfl (tenantChecks_clear hi hr ho)]
  · rfl
  · simp [tenantVols, hall, firstFailing, needVol]

end Tenant

/-- Taking a command changes no connection's record. -/
theorem connRecord_mbxTake (s : State) (g : Go) (objs : List (Nat × Nat)) (r : Option Running) :
    connRecord (mbxTake s g objs r) = connRecord s := by
  funext c
  simp [connRecord, owedCmds, heldCmds, connCmds]

/-- The connections that SBT_CONN_LIST names: a tile's, or all of them (Table 7-18). -/
def tileConns (s : State) (tile : Nat) : List Conn := s.sbt.conns.filter (fun c => tile == 0xFF || c.tile == tile)

theorem exec_sbtConnList {s : State} {g : Go} {tile : Nat} {buf : SegDesc} (h : GoReady s g false 24 []) (hb : badBuf buf = false)
    (ht : tile = 0xFF ∨ tile < s.part.tiles) :
    exec (.sbtConnList g tile buf) s = .next (settled (mbxOk (writeBuf (mbxTake s g [] none) g.mb buf
        ((tileConns s tile).flatMap (connRecord s))) g.mb
      (leBytes 4 (tileConns s tile).length ++
        bytesField ((tileConns s tile).flatMap (connRecord s))))) := by
  show execSbtConnList g tile buf s = _
  unfold execSbtConnList
  rw [mbxRun_clear _ _ _ _ h rfl]
  · simp [done_eq, connRecord_mbxTake, tileConns]
  · simp [hb]
  · simpa [need] using ht

theorem exec_sbtConnClose {s : State} {g : Go} {conn : W32} (h : GoReady s g false 4 []) (hk : (getConn? s conn).isSome = true) :
    exec (.sbtConnClose g conn) s = .next (settled (mbxOk (closeConn (mbxTake s g [] none) conn 2) g.mb [])) := by
  show execSbtConnClose g conn s = _
  unfold execSbtConnClose
  rw [mbxRun_clear _ _ _ _ h rfl]
  · rfl
  · rfl
  · simp [need, hk]

/-- SBT_THROTTLE whose SCOPE names something that exists. -/
theorem exec_sbtThrottle {s : State} {g : Go} {scope target grace : Nat} {ident : W32} (dur : Nat) (h : GoReady s g false 14 [])
    (ht1 : 1 ≤ target) (ht2 : target ≤ 256) (hg : grace ≤ 1000000)
    (hn : scope = 0 ∧ (getConn? s ident).isSome = true ∨ scope = 1 ∧ (Tab.get? s.cfg.tenants ident.toNat).isSome = true ∨
      scope = 2 ∧ (Tab.get? s.cfg.links ident.toNat).isSome = true) :
    exec (.sbtThrottle g scope target ident grace dur) s = .next (settled (mbxOk ((scopeConns (mbxTake s g [] none) scope ident).foldl
      (fun u c => hostSlow u c target grace dur) (mbxTake s g [] none)) g.mb [])) := by
  show execSbtThrottle g scope target ident grace dur s = _
  unfold execSbtThrottle
  rw [mbxRun_clear _ _ _ _ h rfl]
  · rfl
  · have hs : scope ≤ 2 := by omega
    simp [hs, Nat.ne_of_gt ht1, ht2, hg]
  · obtain ⟨rfl, hn⟩ | ⟨rfl, hn⟩ | ⟨rfl, hn⟩ := hn <;> simp [need, hn]

/-- Taking a command changes no count. -/
theorem statCounts_mbxTake (s : State) (g : Go) (objs : List (Nat × Nat)) (r : Option Running) :
    statCounts (mbxTake s g objs r) = statCounts s := by
  funext scope ident
  simp [statCounts, getConn?]

theorem exec_sbtStats {s : State} {g : Go} {scope : Nat} {ident : W32} {buf : SegDesc} (h : GoReady s g false 24 [])
    (hb : badBuf buf = false) (hs : scope ≤ 2) (h1 : scope = 1 → ident.toNat < s.part.tiles)
    (h2 : scope = 2 → (getConn? s ident).isSome = true) :
    exec (.sbtStats g scope ident buf) s = .next (settled (mbxOk (writeBuf (mbxTake s g [] none) g.mb buf
      (countBytes (statCounts s scope ident))) g.mb (bytesField (countBytes (statCounts s scope ident))))) := by
  show execSbtStats g scope ident buf s = _
  unfold execSbtStats
  rw [mbxRun_clear _ _ _ _ h rfl]
  · simp [done_eq, statCounts_mbxTake]
  · simp [hb, hs]
  · match scope, hs, h1, h2 with
    | 0, _, _, _ => rfl
    | 1, _, h1, _ => simpa [need] using h1 rfl
    | 2, _, _, h2 => simpa [need] using h2 rfl

/-- Settles O30: each command by its equation, its answer by the mailbox's endings. -/
theorem sbtCommandRows : Obligations.SbtCommandRows := by
  refine ⟨?config, ?set, ?beyond, ?remove, ?list, ?close, ?closing, ?throttle, ?throttleScope, ?stats⟩
  case config =>
    intro s g udp credit ms h hu hc1 hc2 hm1 hm2 ho
    exact ⟨_, exec_sbtConfig h hu hc1 hc2 hm1 hm2 ho, settled_cfg _, mbxStore_runs _ _ _ _ _⟩
  case set =>
    intro s g i id r h hi hr ho hv
    refine ⟨_, exec_sbtTenantSet h hi hr ho id hv, ?_, fun j hj => ?_, mbxStore_runs _ _ _ _ _⟩ <;> rw [settled_cfg]
    · exact Tab.get?_set_self _ _ _
    · exact Tab.get?_set_ne _ _ _ _ hj
  case beyond =>
    intro s g i id r h hi hr ho hv
    exact ⟨_, exec_sbtTenantSet_beyond h hi hr ho id hv, by simp, by simp⟩
  case remove =>
    intro s g i id r h hi hr ho hv
    refine ⟨_, exec_sbtTenantRemove h hi hr ho id hv, ?_, fun j hj => ?_, mbxStore_runs _ _ _ _ _⟩ <;> rw [settled_cfg]
    · exact Tab.get?_erase_self _ _
    · exact Tab.get?_erase_ne _ _ _ hj
  case list =>
    intro s g tile buf h hb ht
    exact ⟨_, exec_sbtConnList h hb ht, mbxOk_writeBuf _ _ _ _ _ _⟩
  case close =>
    intro s g conn k h hk
    exact exec_sbtConnClose h (by simp [hk])
  case closing =>
    intro s id k r hk hs hc
    exact closeConn_closing r hk hs hc
  case throttle =>
    intro s g conn k target grace dur h hk ht1 ht2 hg
    exact exec_sbtThrottle dur h ht1 ht2 hg (.inl ⟨rfl, by simp [hk]⟩)
  case throttleScope =>
    intro s g scope ident target grace dur h ht1 ht2 hg hn
    exact exec_sbtThrottle dur h ht1 ht2 hg (.inr hn)
  case stats =>
    intro s g scope ident buf h hb hs h1 h2
    exact ⟨_, exec_sbtStats h hb hs h1 h2, mbxOk_writeBuf _ _ _ _ _ _⟩

end Sys2Proof.Machine
end

section
/-! PROOFS. REGISTER_WRITE: where an aligned write of PF0's BAR 0 leads, and what the registers it reaches hold after it. -/

namespace Sys2Proof.Machine

/-! ### The three places of a write (R10, Table 9-17) -/

section Places

variable {s : State} {fn : Nat} (width : Nat) (v : BitVec 64) (hr : running s = true)

include hr

theorem exec_registerWrite_bar0 (off : Nat) (hf : fnExists s fn = true) (hd : canDma s fn = true) :
    exec (.registerWrite fn (.bar0 off) width v) s = .next (settled (writeReg s fn off width v)) := by
  show execRegisterWrite fn (.bar0 off) width v s = _
  simp [execRegisterWrite, hr, hf, hd, done_eq]

theorem exec_registerWrite_config (f : CfgField) (hf : fnExists s fn = true) (hl : s.pcie.linkUp = true) (hp : s.pins.perstN = true)
    (ht : tileUp s 0 = true) :
    exec (.registerWrite fn (.config f) width v) s = .next (settled (writeCfg s fn f v.toNat)) := by
  show execRegisterWrite fn (.config f) width v s = _
  simp [execRegisterWrite, hr, hf, hl, hp, ht, done_eq]

theorem exec_registerWrite_vector (k : Nat) (hf : fnExists s fn = true) (hd : canDma s fn = true) :
    exec (.registerWrite fn (.vector k) width v) s = .next (settled (writeVector s fn k v.toNat)) := by
  show execRegisterWrite fn (.vector k) width v s = _
  simp [execRegisterWrite, hr, hf, hd, done_eq]

/-- A write of PF0's BAR 0: PF0 always exists. -/
theorem exec_registerWrite_pf0 (off : Nat) (hd : canDma s 0 = true) :
    exec (.registerWrite 0 (.bar0 off) width v) s = .next (settled (writeReg s 0 off width v)) :=
  exec_registerWrite_bar0 width v hr off (by simp [fnExists]) hd

end Places

/-! ### Where an offset of PF0's BAR 0 leads (Table 9-4, R15, R16) -/

/-- A write that is not of an aligned word or pair of words is discarded. -/
theorem writeReg_misaligned (s : State) (fn off : Nat) {width : Nat} (v : BitVec 64) (h4 : ¬(width = 4 ∧ off % 4 = 0))
    (h8 : ¬(width = 8 ∧ off % 8 = 0)) : writeReg s fn off width v = s := by
  simp [writeReg, h4, h8]

/-- A word of the device register block that is no half of CACHE_STATUS. -/
theorem writeReg_block (s : State) {off : Nat} (v : BitVec 64) (h : off < 0x10000) (ha : off % 4 = 0) (h0 : off ≠ 0x488)
    (h1 : off ≠ 0x48C) : writeReg s 0 off 4 v = writeBlock s off (v.setWidth 32) := by
  have hl : locate s 0 off = some (.block off) := by simp [locate, locPf, h]
  have hw : wide (.block off) = false := by simp [wide, h0]
  have hu : upperHalf (.block off) = false := by
    simp only [upperHalf, lower, wide, Bool.and_eq_false_imp, decide_eq_true_eq, beq_eq_false_iff_ne]
    omega
  simp [writeReg, ha, hl, writeWord, hw, hu, write32]

/-- The registers of a submission queue of PF0 lie 64 bytes apart from 0x200000. -/
theorem locate_sq {s : State} {n o : Nat} (hn : n < s.part.sqs) (ho : sqOwner s n = 0) (hb : o < 64) :
    locate s 0 (0x200000 + 64 * n + o) = some (.sq n o) := by
  have hs : s.part.sqs ≤ 2048 := by cases s.part <;> decide
  have hq : (0x200000 + 64 * n + o - 0x200000) / 64 = n := by omega
  have hm : (0x200000 + 64 * n + o) % 64 = o := by omega
  simp only [locate, if_true, locPf, hq, hm]
  rw [if_neg (by omega), if_neg (by omega), if_neg (by omega), if_neg (by omega), if_neg (by omega), if_pos (by omega),
    if_pos ⟨hn, ho⟩]

/-- Dropping a lower half that is held leaves every submission queue as it is. -/
@[simp] theorem getSq_dropHalf (s : State) (l : Loc) (k : Nat) : getSq (dropHalf s l) k = getSq s k := rfl

section Queue

variable {s : State} {n : Nat} (v : BitVec 64) (hn : n < s.part.sqs) (ho : sqOwner s n = 0) (ht : tileUp s (sqTile s n) = true)

include hn ho ht

/-- A 32-bit register of a submission queue. -/
theorem writeReg_sq32 {o : Nat} (hb : o < 64) (ha : o % 4 = 0) (h16 : 0x10 ≤ o) :
    writeReg s 0 (0x200000 + 64 * n + o) 4 v = writeSq32 s n o (v.setWidth 32).toNat := by
  have hw : wide (.sq n o) = false := by
    simp only [wide, Bool.or_eq_false_iff, beq_eq_false_iff_ne]
    omega
  have hu : upperHalf (.sq n o) = false := by
    simp only [upperHalf, lower, wide, Bool.and_eq_false_imp, decide_eq_true_eq, Bool.or_eq_false_iff, beq_eq_false_iff_ne]
    omega
  have hal : (0x200000 + 64 * n + o) % 4 = 0 := by omega
  simp [writeReg, hal, locate_sq hn ho hb, writeWord, hw, hu, write32, ht]

/-- SQ_BASE written whole: a lower half held for it is dropped (log entry 118). -/
theorem writeReg_sqBase :
    writeReg s 0 (0x200000 + 64 * n) 8 v = writeSq64 (dropHalf s (.sq n 0)) n 0 v := by
  have hl : locate s 0 (0x200000 + 64 * n) = some (.sq n 0) := locate_sq (o := 0) hn ho (by decide)
  have hal : (0x200000 + 64 * n) % 8 = 0 := by omega
  have ht' : tileUp (dropHalf s (.sq n 0)) (sqTile (dropHalf s (.sq n 0)) n) = true := ht
  simp [writeReg, hal, hl, wide, write64, ht']

end Queue

/-! ### Bits of a written word -/

theorem bit_eq_testBit (x i : Nat) : bit x i = x.testBit i := by
  rw [bit, Nat.testBit_eq_decide_div_mod_eq]

/-- A bit of the low word of a number. -/
theorem bit_mod_word (x : Nat) {i : Nat} (h : i < 32) : bit (x % 2 ^ 32) i = bit x i := by
  rw [bit_eq_testBit, Nat.testBit_mod_two_pow, decide_eq_true h, Bool.true_and, bit_eq_testBit]

/-- A field of the low word of a number. -/
theorem bits_mod_word (x : Nat) {hi lo : Nat} (h : hi < 32) (hl : lo ≤ hi) : bits (x % 2 ^ 32) hi lo = bits x hi lo := by
  refine Nat.eq_of_testBit_eq fun i => ?_
  simp only [bits, Nat.testBit_mod_two_pow, Nat.testBit_div_two_pow]
  by_cases hi' : i < hi - lo + 1
  · have : i + lo < 32 := by omega
    simp [hi', this]
  · simp [hi']

/-- A bit of the word that a 64-bit operand gives a 32-bit register. -/
theorem bit_lowWord (v : BitVec 64) {i : Nat} (h : i < 32) : bit (v.setWidth 32).toNat i = v.getLsbD i := by
  rw [BitVec.toNat_setWidth, bit_mod_word _ h, bit_eq_testBit, BitVec.testBit_toNat]

/-- A field of such a word. -/
theorem bits_lowWord (v : BitVec 64) {hi lo : Nat} (h : hi < 32) (hl : lo ≤ hi) :
    bits (v.setWidth 32).toNat hi lo = v.toNat / 2 ^ lo % 2 ^ (hi - lo + 1) := by
  rw [BitVec.toNat_setWidth, bits_mod_word _ h hl, bits]

/-- Settles O39: each write by the register it reaches, and what that register's write does. -/
theorem registerWriteRows : Obligations.RegisterWriteRows := by
  refine ⟨?bar0, ?config, ?vector, ?misaligned, ?escMs, ?faultStatus, ?epochStatus, ?intMask, ?weight, ?base⟩
  case bar0 =>
    intro s fn off width v hr hf hd
    exact exec_registerWrite_bar0 width v hr off hf hd
  case config =>
    intro s fn width f v hr hf hl hp ht
    exact exec_registerWrite_config width v hr f hf hl hp ht
  case vector =>
    intro s fn k width v hr hf hd
    exact exec_registerWrite_vector width v hr k hf hd
  case misaligned =>
    intro s fn off width v h4 h8
    exact writeReg_misaligned s fn off v h4 h8
  case escMs =>
    intro s v hr hd
    refine ⟨_, exec_registerWrite_pf0 4 v hr _ hd, ?_⟩
    obtain ⟨q, hq⟩ := settled_jade (writeReg s 0 0x208 4 v)
    rw [hq, writeReg_block s v (by decide) rfl (by decide) (by decide)]
    have hms : bits (v.setWidth 32).toNat 13 0 = v.toNat % 2 ^ 14 := by
      rw [bits_lowWord v (by decide) (by decide), pow_zero, Nat.div_one]
    simp only [writeBlock, hms]
    exact apply_ite (fun t : State => t.jade.escMs) _ _ _
  case faultStatus =>
    intro s v hr hd
    refine ⟨_, exec_registerWrite_pf0 4 v hr _ hd, ?_⟩
    obtain ⟨q, hq⟩ := settled_jade (writeReg s 0 0x200 4 v)
    rw [settled_queue_length, hq, writeReg_block s v (by decide) rfl (by decide) (by decide)]
    simp (disch := decide) [writeBlock, writeFaultStatus, bit_lowWord, -BitVec.toNat_setWidth]
  case epochStatus =>
    intro s v hr hd
    refine ⟨_, exec_registerWrite_pf0 4 v hr _ hd, ?_⟩
    rw [settled_moon, writeReg_block s v (by decide) rfl (by decide) (by decide)]
    simp (disch := decide) [writeBlock, writeEpochStatus, modMoon, bit_lowWord, -BitVec.toNat_setWidth]
  case intMask =>
    intro s v hr hd
    refine ⟨_, exec_registerWrite_pf0 4 v hr _ hd, ?_⟩
    rw [getFunc_settled_intMask, writeReg_block s v (by decide) rfl (by decide) (by decide)]
    have hm : BitVec.ofNat 7 (v.setWidth 32).toNat = v.setWidth 7 := by
      rw [BitVec.ofNat_toNat, BitVec.setWidth_setWidth_of_le _ (by decide)]
    simp [writeBlock, writeLocal, hm, -BitVec.toNat_setWidth]
  case weight =>
    intro s n v hr hd hn ho ht
    refine ⟨_, exec_registerWrite_pf0 4 v hr _ hd, ?_⟩
    rw [getSq_settled, writeReg_sq32 v hn ho ht (by decide) rfl (by decide)]
    simp (disch := decide) [writeSq32, bits_lowWord, -BitVec.toNat_setWidth]
  case base =>
    intro s n v hr hd hn ho ht ha hdr
    refine ⟨_, exec_registerWrite_pf0 8 v hr _ hd, ?_⟩
    rw [getSq_settled, writeReg_sqBase v hn ho ht]
    simp [writeSq64, ha, hdr]

end Sys2Proof.Machine
end

section
/-! PROOFS. What the commands on PERST_N and the reference clocks keep while they end work and raise faults: the inputs themselves, the
phase, the shutdown in progress, and a host link that is down. -/

namespace Sys2Proof.Machine

/-! ### States that agree on the inputs -/

/-- The inputs PERST_N and the reference clocks, the phase, and what the orderly shutdown has set. -/
structure Inputs where
  perstN : Bool
  pcieRefclk : Bool
  sdRefclk : List Bool
  phase : Phase
  closing : Bool
  toD3cold : Bool

def inputsOf (s : State) : Inputs :=
  ⟨s.pins.perstN, s.pins.pcieRefclk, s.pins.sdRefclk, s.phase, s.hk.closing, s.hk.toD3cold⟩

/-- `t` has the inputs, the phase and the shutdown of `s`, and a host link that is down in `s` is down in `t`. -/
def Steady (s t : State) : Prop := inputsOf t = inputsOf s ∧ (s.pcie.linkUp = false → t.pcie.linkUp = false)

namespace Steady

variable {s t u : State}

theorem perstN (h : Steady s t) : t.pins.perstN = s.pins.perstN := congrArg Inputs.perstN h.1
theorem pcieRefclk (h : Steady s t) : t.pins.pcieRefclk = s.pins.pcieRefclk := congrArg Inputs.pcieRefclk h.1
theorem sdRefclk (h : Steady s t) : t.pins.sdRefclk = s.pins.sdRefclk := congrArg Inputs.sdRefclk h.1
theorem phase (h : Steady s t) : t.phase = s.phase := congrArg Inputs.phase h.1
theorem closing (h : Steady s t) : t.hk.closing = s.hk.closing := congrArg Inputs.closing h.1
theorem toD3cold (h : Steady s t) : t.hk.toD3cold = s.hk.toD3cold := congrArg Inputs.toD3cold h.1
theorem linkDown (h : Steady s t) (hs : s.pcie.linkUp = false) : t.pcie.linkUp = false := h.2 hs

theorem refl (s : State) : Steady s s := ⟨rfl, id⟩

theorem trans (h : Steady s t) (k : Steady t u) : Steady s u := ⟨k.1.trans h.1, fun hs => k.2 (h.2 hs)⟩

/-- The same, the later change given first. -/
theorem after (k : Steady t u) (h : Steady s t) : Steady s u := h.trans k

theorem foldl {α : Type} (f : State → α → State) (hf : ∀ s a, Steady s (f s a)) (r : List α) (s : State) :
    Steady s (r.foldl f s) := by
  induction r generalizing s with
  | nil => exact .refl s
  | cons a r ih => exact (hf s a).trans (ih (f s a))

theorem ite {p : Prop} [Decidable p] (h : Steady s t) (k : Steady s u) : Steady s (if p then t else u) := by
  split
  exacts [h, k]

/-- A change that keeps the parts of the state concerned. -/
theorem of_frame {l : List Piece} (h : Frame l s t) (hl : ∀ p ∈ l, p ≠ .pins ∧ p ≠ .phase ∧ p ≠ .hk ∧ p ≠ .pcie) :
    Steady s t := by
  have hpins := h.pins (fun m => (hl _ m).1 rfl)
  have hphase := h.phase (fun m => (hl _ m).2.1 rfl)
  have hhk := h.hk (fun m => (hl _ m).2.2.1 rfl)
  have hpcie := h.pcie (fun m => (hl _ m).2.2.2 rfl)
  exact ⟨by simp only [inputsOf, hpins, hphase, hhk], fun hs => by rw [hpcie]; exact hs⟩

end Steady

theorem settled_steady (s : State) : Steady s (settled s) := .of_frame (Frame.settled (.refl [] s)) (by simp)

/-! ### Raising a fault (R501, R504-R512) -/

theorem enterF4_steady (s : State) (c : Nat) : Steady s (enterF4 s c) := by
  unfold enterF4
  split
  · exact .refl s
  · exact ⟨rfl, fun _ => rfl⟩

theorem recordFault_steady (s : State) (a : FaultArg) (corr : Bool) : Steady s (recordFault s a corr) := by
  unfold recordFault
  split <;> exact ⟨rfl, id⟩

theorem makeEntry_steady (s : State) (code src : BitVec 16) (cls dk di : Nat) (corr acted : Bool) :
    Steady s (makeEntry s code src cls dk di corr acted) := by
  unfold makeEntry
  dsimp only
  split
  · exact (enterF4_steady _ _).after (.ite ⟨rfl, id⟩ (.refl s))
  · refine .ite ((enterF4_steady _ _).after (.ite ⟨rfl, id⟩ (.refl s))) ?_
    split <;> exact ⟨rfl, id⟩

theorem placeEvent_steady (s : State) (dk di : Nat) (code src : BitVec 16) (cls : Nat) (corr acted : Bool) :
    Steady s (placeEvent s dk di code src cls corr acted) := by
  unfold placeEvent
  refine .ite (enterF4_steady s _) (.ite (.refl s) ?_)
  split
  · exact makeEntry_steady s _ _ _ _ _ _ _
  · split
    · exact makeEntry_steady s _ _ _ _ _ _ _
    · exact .ite (.ite (enterF4_steady s _) ⟨rfl, id⟩) ⟨rfl, id⟩

theorem joinWindow_steady (s : State) (w : CorrWin) (a : FaultArg) : Steady s (joinWindow s w a) := by
  unfold joinWindow
  dsimp only
  split
  · split <;> exact ⟨rfl, id⟩
  · have hr := recordFault_steady s a true
    generalize recordFault s a true = u at hr ⊢
    refine (placeEvent_steady _ _ _ _ _ _ _ _).after (hr.trans ?_)
    split <;> exact ⟨rfl, id⟩

theorem raise_steady (s : State) (a : FaultArg) : Steady s (raise s a) := by
  unfold raise
  split
  · exact recordFault_steady _ _ _
  · split
    · exact recordFault_steady _ _ _
    · split
      · exact (recordFault_steady s a false).trans (enterF4_steady _ _)
      · split
        · exact joinWindow_steady _ _ _
        · exact ((recordFault_steady s a false).trans ⟨rfl, id⟩).trans (placeEvent_steady _ _ _ _ _ _ _ _)

theorem wakeEvent_steady (s : State) : Steady s (wakeEvent s) := by
  unfold wakeEvent
  split
  · exact ⟨rfl, id⟩
  · split
    · exact .refl s
    · exact .ite ⟨rfl, id⟩ ⟨rfl, id⟩

theorem fault_steady (s : State) (a : FaultArg) : Steady s (fault s a) := by
  unfold fault
  exact .ite ((raise_steady s a).trans (wakeEvent_steady _)) (raise_steady s a)

theorem fault0_steady (s : State) (code : BitVec 16) (cls : Nat) (src : BitVec 16) : Steady s (fault0 s code cls src) :=
  fault_steady s _

/-! ### The journal (R164-R172, R180) -/

theorem sendAwaited_steady (s : State) (l t seq : Nat) (r : Rec) : Steady s (sendAwaited s l t seq r) := by
  unfold sendAwaited sendRecord
  exact Steady.trans ⟨rfl, id⟩ (.foldl _ (fun u i => .of_frame (partnerSend_Frame u _ _) (by simp)) _ _)

theorem pushCtl_steady (s : State) (t : Nat) (r : Rec) : Steady s (pushCtl s t r) := by
  unfold pushCtl
  dsimp only
  split
  · exact ⟨rfl, id⟩
  · exact (sendAwaited_steady _ _ _ _ _).after ⟨rfl, id⟩

theorem newSetReady_steady (s : State) (t : Nat) : Steady s (newSetReady s t) := ⟨rfl, id⟩

theorem drainCtl_steady (s : State) (t : Nat) : Steady s (drainCtl s t) := by
  unfold drainCtl
  refine .ite (.refl s) ((newSetReady_steady _ t).after (.foldl _ (fun u r => ?_) _ s))
  exact .ite ((pushCtl_steady _ _ _).after ⟨rfl, id⟩) (.refl u)

theorem reindex_steady (s : State) (t : Nat) : Steady s (reindex s t) := by
  unfold reindex
  exact .ite (.refl s) ⟨rfl, id⟩

theorem retireRec_steady (s : State) (t seq : Nat) : Steady s (retireRec s t seq) := by
  unfold retireRec
  split
  · exact .refl s
  · refine .ite (.refl s) ?_
    have h (x : RingRec) : Steady s (drainCtl (reindex (modAmber s t (fun a => a.retire x)) t) t) :=
      (drainCtl_steady _ t).after ((reindex_steady _ t).after ⟨rfl, id⟩)
    dsimp only
    split
    · exact h _
    · exact (sendAwaited_steady _ _ _ _ _).after (h _)

theorem retireIntent_steady (s : State) (t seq : Nat) : Steady s (retireIntent s t seq) := by
  unfold retireIntent
  split
  · exact .refl s
  · exact .ite ((retireRec_steady s t seq).trans ⟨rfl, id⟩) (retireRec_steady s t seq)

/-! ### A command ended (R97, R155, R334, R464) -/

theorem removeCmd_steady (s : State) (c : Cmd) : Steady s (removeCmd s c) := ⟨rfl, id⟩

theorem markRow_steady (s : State) (vol row : Nat) : Steady s (markRow s vol row) := by
  unfold markRow
  exact .ite ⟨rfl, id⟩ (.refl s)

theorem stampWrite_steady (s : State) (c : Cmd) : Steady s (stampWrite s c) := by
  unfold stampWrite
  refine .foldl _ (fun u p => ?_) _ s
  dsimp only
  split
  · exact (markRow_steady u _ _).trans ⟨rfl, id⟩
  · exact markRow_steady u _ _

theorem settleCmd_steady (s : State) (id' : Nat) : Steady s (settleCmd s id') := by
  unfold settleCmd
  split
  · exact .refl s
  · next c _ =>
    have hw : Steady s (if isWriteOp c.op then stampWrite s c else s) := .ite (stampWrite_steady s c) (.refl s)
    refine .ite (.refl s) (.ite (hw.trans ⟨rfl, id⟩) (.ite (hw.trans (removeCmd_steady _ c)) ?_))
    exact .ite ⟨rfl, id⟩ (.ite ⟨rfl, id⟩ ((stampWrite_steady s c).trans ⟨rfl, id⟩))

theorem endFetches_steady (s : State) (l : List Nat) : Steady s (l.foldl endFetch s) := .foldl endFetch (fun _ _ => ⟨rfl, id⟩) l s

theorem modPart_steady (s : State) (c i : Nat) (f : RowPart → RowPart) : Steady s (modPart s c i f) := ⟨rfl, id⟩

theorem dropPart_steady (s : State) (c : Cmd) (i : Nat) (p : RowPart) : Steady s (dropPart s c i p) := by
  unfold dropPart
  refine .ite (.refl s) ((modPart_steady _ _ _ _).after ?_)
  split
  · exact (retireIntent_steady _ _ _).after (endFetches_steady s _)
  · exact endFetches_steady s _

theorem endStarted_steady (s : State) (c : Cmd) (answer : Bool) : Steady s (endStarted s c answer) := by
  have hgone : ∀ u, Steady s u → Steady s (if answer then
      modCmd u c.id (fun c => { c with mute := true, abortWaiting := true, phase := .finished }) else removeCmd u c) :=
    fun u h => .ite (h.trans ⟨rfl, id⟩) (h.trans (removeCmd_steady u c))
  unfold endStarted
  dsimp only
  split
  · refine .ite (Steady.trans ?_ (settleCmd_steady _ _)) (hgone _ (endFetches_steady s _))
    refine .ite (Steady.trans ⟨rfl, id⟩ (.foldl _ (fun u i => ?_) _ _)) ⟨rfl, id⟩
    split
    · exact dropPart_steady _ _ _ _
    · exact .refl u
  · exact hgone _ (stampWrite_steady s c)
  · exact hgone _ (.refl s)

theorem endLive_steady (s : State) (l : Live) : Steady s (endLive s l) := by
  unfold endLive
  extract_lets voided ended
  have hv : Steady s voided := ⟨rfl, id⟩
  have he : Steady voided ended := by
    simp only [ended]
    split
    · exact .refl _
    · next c _ =>
      have early : Steady voided (if isWriteOp c.op && fetchedAll c then modCmd voided c.id (fun c => { c with mute := true })
          else removeCmd voided c) := .ite ⟨rfl, id⟩ (removeCmd_steady _ c)
      split
      · exact early
      · exact early
      · exact early
      · exact endStarted_steady _ _ _
  exact (hv.trans he).trans ⟨rfl, id⟩

/-! ### Function state gone (R11, R56, R473, Table 1-7) -/

theorem mbxFinish_steady (s : State) (mb : Nat) (st : Status) (d : Nat) (data : List Byte) : Steady s (mbxFinish s mb st d data) :=
  .of_frame (mbxFinish_Frame s mb st d data) (by simp)

theorem endDrain_steady (s : State) (vols : List Nat) : Steady s (endDrain s vols) := by
  unfold endDrain
  refine .foldl _ (fun _ _ => ?_) vols s
  exact ⟨rfl, id⟩

theorem cancelRunning_steady (s : State) (mb : Nat) : Steady s (cancelRunning s mb) := by
  unfold cancelRunning
  dsimp only
  split
  · exact .ite (mbxFinish_steady _ _ _ _ _) (.refl s)
  · exact (mbxFinish_steady _ _ _ _ _).after ⟨rfl, id⟩
  · exact (mbxFinish_steady _ _ _ _ _).after ⟨rfl, id⟩
  · exact (endDrain_steady s _).trans (mbxFinish_steady _ _ _ _ _)
  · exact (mbxFinish_steady _ _ _ _ _).after ⟨rfl, id⟩
  · exact .refl s

theorem setMbx_steady (s : State) (n : Nat) (x : Mailbox) : Steady s (setMbx s n x) := ⟨rfl, id⟩

theorem resetMbx_steady (s : State) (n : Nat) : Steady s (resetMbx s n) := by
  have hc : Steady s (setMbx (cancelRunning s n) n {}) := (cancelRunning_steady s n).trans (setMbx_steady _ n {})
  unfold resetMbx
  dsimp only
  refine .ite ⟨rfl, id⟩ ?_
  generalize (getMbx s n).running = r
  obtain _ | r := r
  · exact setMbx_steady s n _
  · cases r
    case config => exact ⟨rfl, id⟩
    case volumeStop | volumeStopped | drain | power => exact hc
    all_goals exact setMbx_steady s n _

theorem resetFunction_steady (s : State) (fn : Nat) : Steady s (resetFunction s fn) := by
  unfold resetFunction
  dsimp only
  have he := Steady.foldl endLive endLive_steady (s.live.filter (fun l => l.fn == fn)) s
  generalize (s.live.filter (fun l => l.fn == fn)).foldl endLive s = u at he ⊢
  have hv := Steady.foldl (fun s n => voidReqs s (ofSq n)) (fun _ _ => ⟨rfl, id⟩)
    ((Tab.keys u.sqs).filter (fun n => sqOwner u n == fn)) u
  generalize ((Tab.keys u.sqs).filter (fun n => sqOwner u n == fn)).foldl (fun s n => voidReqs s (ofSq n)) u = v at hv ⊢
  exact (resetMbx_steady _ fn).after ((he.trans hv).trans ⟨rfl, id⟩)

theorem resetAllFunctions_steady (s : State) : Steady s (resetAllFunctions s) := by
  unfold resetAllFunctions
  have hf := Steady.foldl resetFunction resetFunction_steady (List.range (s.pcie.numVfs + 1)) s
  have hm := hf.trans (.foldl resetMbx resetMbx_steady (List.range 64) _)
  dsimp only
  generalize (List.range 64).foldl resetMbx _ = u at hm ⊢
  exact hm.trans ⟨rfl, id⟩

end Sys2Proof.Machine
end

section
/-! PROOFS. PERST_N and the reference clocks: the orderly shutdown begun, links taken down, a device started, then one equation per
command and case. -/

namespace Sys2Proof.Machine

/-! ### Member commands, fetches and destages -/

theorem issueM_steady (s : State) (pool member tile : Nat) (op : NvmeOp) (off len : Nat) (data : Mem) (purpose : Purpose) (pipe : Pipe)
    (cls : Nat) : Steady s (issueM s pool member tile op off len data purpose pipe cls) :=
  .of_frame (issue_Frame s _) (by simp)

theorem lstStore_steady (s : State) (pool first last : Nat) (purpose : Purpose) : Steady s (lstStore s pool first last purpose) :=
  .of_frame (metaWrite_Frame s _ _ _ _ _ _) (by simp)

theorem lstEnter_steady (s : State) (pool row : Nat) (strips : List Nat) (cause : Nat) : Steady s (lstEnter s pool row strips cause) := by
  unfold lstEnter
  dsimp only
  refine .ite (.refl s) (.ite ((fault0_steady _ _ _ _).after ⟨rfl, id⟩) ?_)
  exact (fault0_steady _ _ _ _).after ((lstStore_steady _ _ _ _ _).after ⟨rfl, id⟩)

theorem loseUnsynced_steady (s : State) (pool row : Nat) : Steady s (loseUnsynced s pool row) := by
  unfold loseUnsynced
  exact .ite (lstEnter_steady s _ _ _ _) (.refl s)

theorem readStrips_steady (s : State) (f : Nat) (ps : List Nat) : Steady s (readStrips s f ps) := by
  unfold readStrips
  split
  · exact .refl s
  · refine .foldl _ (fun u j => ?_) ps s
    refine .ite (.refl u) (.ite ⟨rfl, id⟩ ?_)
    split
    · exact .foldl _ (fun v r => issueM_steady v _ _ _ _ _ _ _ _ _ _) _ u
    · exact .refl u

theorem readForRecovery_steady (s : State) (f : Nat) : Steady s (readForRecovery s f) := by
  unfold readForRecovery
  split
  · exact .refl s
  · exact .ite (.refl s) (readStrips_steady s f _)

theorem parallelReads_steady (s : State) (f : Nat) : Steady s (parallelReads s f) := by
  unfold parallelReads
  split
  · exact .refl s
  · exact .ite (readStrips_steady s f _) (.refl s)

theorem beginFetch_steady (s : State) (x : Fetch) : Steady s (beginFetch s x) := by
  unfold beginFetch
  refine (parallelReads_steady _ _).after ((readForRecovery_steady _ _).after ((readStrips_steady _ _ _).after ?_))
  exact ⟨rfl, id⟩

theorem destageWrite_steady (s : State) (d : Destage) (pos : Nat) (op : NvmeOp) (b n : Nat) (data : Mem) :
    Steady s (destageWrite s d pos op b n data) := by
  unfold destageWrite
  refine .foldl _ (fun u m => ?_) _ s
  exact (issueM_steady u d.pool m d.tile op _ _ data _ d.pipe d.cls).trans ⟨rfl, id⟩

theorem stripWrites_steady (s : State) (d : Destage) (zero : BitVec 128) (j : Nat) : Steady s (stripWrites s d zero j) := by
  unfold stripWrites
  refine .ite (destageWrite_steady s d j _ _ _ _) ?_
  exact (Steady.foldl _ (fun u r => destageWrite_steady u d j _ _ _ _) _ s).trans
    (.foldl _ (fun u r => destageWrite_steady u d j _ _ _ _) _ _)

theorem parityWrites_steady (s : State) (d : Destage) (cols : BitVec 4) : Steady s (parityWrites s d cols) := by
  unfold parityWrites
  exact .foldl _ (fun u x => .foldl _ (fun v r => destageWrite_steady v d _ _ _ _ _) _ u) _ s

theorem issueDestage_steady (s : State) (did : Nat) (got : List (Nat × Mem)) : Steady s (issueDestage s did got) := by
  unfold issueDestage
  split
  · exact .refl s
  · refine (parityWrites_steady _ _ _).after (Steady.after (.foldl _ (fun u j => stripWrites_steady u _ _ j) _ _) ?_)
    split
    · exact Steady.after (.foldl _ (fun u j => destageWrite_steady u _ j _ _ _ _) _ _) ⟨rfl, id⟩
    · exact Steady.after (.foldl _ (fun u j => destageWrite_steady u _ j _ _ _ _) _ _) ⟨rfl, id⟩

theorem modDestage_steady (s : State) (i : Nat) (f : Destage → Destage) : Steady s (modDestage s i f) := ⟨rfl, id⟩

theorem launchDestage_steady (s : State) (d : Destage) (want : List Nat) (bad : List (Nat × BitVec 4)) :
    Steady s (launchDestage s d want bad) := by
  unfold launchDestage
  refine .ite ((issueDestage_steady _ _ _).after ⟨rfl, id⟩) ?_
  refine (beginFetch_steady _ _).after ((modDestage_steady _ _ _).after ?_)
  exact .ite ((loseUnsynced_steady _ _ _).after ⟨rfl, id⟩) ⟨rfl, id⟩

theorem startSalvage_steady (s : State) (pool row : Nat) (bad : List (Nat × BitVec 4)) (own : Bool) (pipe : Pipe) (cls : Nat) :
    Steady s (startSalvage s pool row bad own pipe cls) := by
  unfold startSalvage
  exact .ite ⟨rfl, id⟩ (launchDestage_steady s _ _ _)

theorem startSalvages_steady (s : State) (pool : Nat) : Steady s (startSalvages s pool) := by
  unfold startSalvages
  refine .foldl _ (fun u e => .ite (.refl u) ?_) _ s
  exact (startSalvage_steady _ _ _ _ _ _ _).after ⟨rfl, id⟩

/-! ### The orderly shutdown begun (Table 13-6) -/

theorem releaseRow_steady (s : State) (pool row : Nat) : Steady s (releaseRow s pool row) := by
  unfold releaseRow
  exact .ite (.refl s) ((startSalvages_steady _ _).after ⟨rfl, id⟩)

theorem abortTest_steady (s : State) (kind pool : Nat) : Steady s (abortTest s kind pool) := by
  unfold abortTest dropTestRow
  refine .ite ?_ (.refl s)
  split
  · exact (releaseRow_steady _ _ _).after ⟨rfl, id⟩
  · exact ⟨rfl, id⟩

theorem abortTests_steady (l : List ((Nat × Nat) × Test)) (s : State) : Steady s (l.foldl (fun s e => abortTest s e.1.1 e.1.2) s) :=
  .foldl (fun s (e : (Nat × Nat) × Test) => abortTest s e.1.1 e.1.2) (fun u e => abortTest_steady u e.1.1 e.1.2) l s

theorem dropPsEntry_steady (s : State) : Steady s (dropPsEntry s) := by
  unfold dropPsEntry
  split
  · exact (mbxFinish_steady _ _ _ _ _).after ⟨rfl, id⟩
  · exact .refl s

/-- The state in which the orderly shutdown has begun. -/
def shutdownBegun (s : State) : State := { s with hk := { s.hk with closing := true } }

/-- Work that the shutdown's beginning stops leaves the rest of the inputs as it is. -/
theorem beginClose_steady (s : State) : Steady (shutdownBegun s) (beginClose s) := by
  unfold beginClose
  exact (abortTests_steady _ _).after (dropPsEntry_steady _)

/-! ### A network link down (R355) -/

theorem partnerDown_steady (s : State) (l : Nat) : Steady s (partnerDown s l) := by
  unfold partnerDown
  exact .ite ((fault0_steady _ _ _ _).after ⟨rfl, id⟩) (.refl s)

theorem reissue_steady (s : State) (m : MCmd) : Steady s (reissue s m) := by
  unfold reissue
  exact .ite (Steady.after (.of_frame (sendM_Frame _ m) (by simp)) ⟨rfl, id⟩)
    (Steady.after (.of_frame (holdM_Frame _ m) (by simp)) ⟨rfl, id⟩)

theorem breakQueue_steady (s : State) (m tile : Nat) (admin : Bool) : Steady s (breakQueue s m tile admin) := by
  unfold breakQueue
  exact Steady.after (.foldl reissue reissue_steady _ _) ⟨rfl, id⟩

theorem dropDependents_steady (s : State) (port : Nat) : Steady s (dropDependents s port) := by
  unfold dropDependents
  split
  · refine .foldl _ (fun u e => .foldl _ (fun v q => ?_) _ u) _ s
    exact .ite (breakQueue_steady v _ _ _) ⟨rfl, id⟩
  · split
    · exact partnerDown_steady s _
    · exact .refl s
  · exact .refl s

theorem downLink_steady (s : State) (port : Nat) : Steady s (downLink s port) := by
  unfold downLink
  exact .ite ((dropDependents_steady _ _).after ⟨rfl, id⟩) (.refl s)

/-! ### The device start (R573) -/

theorem jetInfos_phase_cfg {α : Type} (c r : BitVec 16) (d : α → List Byte) (l : List α) (s : State) :
    (l.foldl (fun s e => jetInfo s c r (d e)) s).phase = s.phase ∧ (l.foldl (fun s e => jetInfo s c r (d e)) s).cfg = s.cfg := by
  induction l generalizing s with
  | nil => exact ⟨rfl, rfl⟩
  | cons e l ih => exact ih (jetInfo s c r (d e))

theorem startJet_phase_cfg (s : State) : (startJet s).phase = s.phase ∧ (startJet s).cfg = s.cfg := by
  have hl := jetInfos_phase_cfg 0x8006 (srcJade 0) (fun e : Nat × Nat => leBytes 2 e.1 ++ leBytes 4 e.2) s.jet.overflow
  unfold startJet
  dsimp only
  split <;> exact hl _

theorem bootLoad_phase_cfg (s : State) : (bootLoad s).phase = s.phase ∧ (bootLoad s).cfg = s.cfg := by
  unfold bootLoad
  dsimp only
  repeat' split
  all_goals exact ⟨rfl, rfl⟩

@[simp] theorem enterF4_f4 (s : State) (c : Nat) : (enterF4 s c).jade.f4 = true := by
  unfold enterF4
  split
  · assumption
  · rfl

/-- A start leaves the device booting with the configuration it had, or in F4 where T0 fails its self-test (R50, R573). -/
theorem startDevice_boot_or_f4 (s : State) (failed : List Nat) :
    (startDevice s failed).phase = .boot ∧ (startDevice s failed).cfg = s.cfg ∨ (startDevice s failed).jade.f4 = true := by
  by_cases h0 : failed.contains 0 = true
  · exact .inr (by simp only [startDevice, h0, if_true, enterF4_f4])
  · refine .inl ?_
    simp only [startDevice, h0, bootLoad_phase_cfg, apply_ite State.phase, apply_ite State.cfg, jetInfo_phase, jetInfo_cfg, fault0_phase,
      fault0_cfg, startJet_phase_cfg, ite_self, Bool.false_eq_true, if_false, and_self]

/-! ### The commands, an equation for each case -/

/-- A running device as PERST_N's fall leaves its pins and host link (R55). -/
def linkReset (s : State) : State :=
  { s with pins := { s.pins with perstN := false }, pcie := { s.pcie with linkUp := false, rate := 0, width := 0 } }

/-- The requests, quarantined tags and the error log dropped with the link. -/
def dropReqs (s : State) : State := modPcie s (fun p => { p with reqs := [], quarantine := [], aer := [] })

theorem dropReqs_steady (s : State) : Steady s (dropReqs s) := ⟨rfl, id⟩

/-- The state of `linkReset`, the orderly shutdown ending in D3cold (R429). -/
def linkClosing (s : State) : State := { linkReset s with hk := { s.hk with toD3cold := true } }

/-- A running device as the loss of REFCLK_PCIE leaves its pins and host link (R569). -/
def refclkLost (s : State) : State :=
  { s with pins := { s.pins with pcieRefclk := false }, pcie := { s.pcie with linkUp := false, rate := 0, width := 0 } }

/-- SD_REFCLK pair `j` present or lost. -/
def setSdRefclk (s : State) (j : Nat) (present : Bool) : State :=
  { s with pins := { s.pins with sdRefclk := s.pins.sdRefclk.set j present } }

section Asserted

variable {s : State} (hp : s.pins.perstN = true)

include hp

theorem exec_perstNAssert_stopped (hr : running s = false) : exec .perstNAssert s =
    .next (settled { s with pins := { s.pins with perstN := false }, pcie := { s.pcie with linkUp := false } }) := by
  show execPerstNAssert s = _
  simp [execPerstNAssert, hp, hr, done_eq]

theorem exec_perstNAssert_reset (hr : running s = true) (hd : ((getFunc s 0).d = .d3hot && s.cfg.d3coldEn && fwUp s) = false) :
    exec .perstNAssert s =
      .next (settled (dropReqs (resetAllFunctions (linkReset s)))) := by
  have hd' : ((getFunc s 0).d == .d3hot && s.cfg.d3coldEn && fwUp s) = false := hd
  show execPerstNAssert s = _
  simp only [execPerstNAssert, hp, hr, hd', Bool.not_true, Bool.false_eq_true, if_false, done_eq, linkReset, dropReqs]

theorem exec_perstNAssert_d3cold (hr : running s = true) (hd : (getFunc s 0).d = .d3hot) (he : s.cfg.d3coldEn = true)
    (hf : fwUp s = true) : exec .perstNAssert s =
      .next (settled (beginClose (linkClosing s))) := by
  show execPerstNAssert s = _
  simp [execPerstNAssert, hp, hr, hd, he, hf, done_eq, linkClosing, linkReset]

end Asserted

section Released

variable {s : State} (hp : s.pins.perstN = false)

include hp

theorem exec_perstNRelease (hc : s.phase ≠ .d3cold) :
    exec .perstNRelease s = .next (settled { s with pins := { s.pins with perstN := true } }) := by
  show execPerstNRelease s = _
  simp [execPerstNRelease, hp, hc, done_eq]

/-- From D3cold the device starts (R571); the tiles that fail their self-test are free. -/
theorem exec_perstNRelease_d3cold (hc : s.phase = .d3cold) : ∃ failed, exec .perstNRelease s =
    .next (settled (startDevice (afterReset { s with pins := { s.pins with perstN := true } } .held) failed)) := by
  refine ⟨freeFailures { s with pins := { s.pins with perstN := true } }, ?_⟩
  show execPerstNRelease s = _
  simp [execPerstNRelease, hp, hc, done_eq]

end Released

section Lost

variable {s : State}

theorem exec_refclkLoss_pcie_up (hr : running s = true) (hc : s.pins.pcieRefclk = true) (hl : s.pcie.linkUp = true) :
    exec (.refclkLoss .pcie) s = .next (settled (fault0 (refclkLost s) 0x5008 1 (srcHost 0))) := by
  have hr' : running { s with pins := { s.pins with pcieRefclk := false } } = true := hr
  show execRefclkLoss .pcie s = _
  simp [execRefclkLoss, hc, hr', hl, done_eq, modPcie, refclkLost]

theorem exec_refclkLoss_pcie_down (hc : s.pins.pcieRefclk = true) (hl : (running s && s.pcie.linkUp) = false) :
    exec (.refclkLoss .pcie) s = .next (settled { s with pins := { s.pins with pcieRefclk := false } }) := by
  have hl' : (running { s with pins := { s.pins with pcieRefclk := false } } && s.pcie.linkUp) = false := hl
  show execRefclkLoss .pcie s = _
  simp only [execRefclkLoss, hc, hl', Bool.not_true, Bool.false_eq_true, if_false, done_eq]

variable {j : Nat} (hj : j < s.part.tiles / 2) (hc : s.pins.sdRefclk.getD j false = true)

include hj hc

/-- SD_REFCLK pair `j` of a running device lost: the links of its two tiles go down (R569). -/
theorem exec_refclkLoss_sd_running (hr : running s = true) : exec (.refclkLoss (.sd j)) s =
    .next (settled ((List.range' (64 * j) 64).foldl downLink (setSdRefclk s j false))) := by
  have hr' : running (setSdRefclk s j false) = true := hr
  show execRefclkLoss (.sd j) s = _
  unfold setSdRefclk at hr' ⊢
  simp only [execRefclkLoss, hj, hc, hr', decide_true, Bool.and_self, if_true, done_eq]

theorem exec_refclkLoss_sd_stopped (hr : running s = false) : exec (.refclkLoss (.sd j)) s =
    .next (settled (setSdRefclk s j false)) := by
  have hr' : running (setSdRefclk s j false) = false := hr
  show execRefclkLoss (.sd j) s = _
  unfold setSdRefclk at hr' ⊢
  simp only [execRefclkLoss, hj, hc, hr', decide_true, Bool.and_self, if_true, Bool.false_eq_true, if_false, done_eq]

end Lost

theorem exec_refclkReturn_sd {s : State} {j : Nat} (hj : j < s.part.tiles / 2) : exec (.refclkReturn (.sd j)) s =
    .next (settled (setSdRefclk s j true)) := by
  show execRefclkReturn (.sd j) s = _
  simp only [execRefclkReturn, hj, if_true, done_eq, setSdRefclk]

/-- The host link as the end of a command leaves it. -/
theorem settled_host (s : State) : (settled s).pcie.linkUp = s.pcie.linkUp ∧ (settled s).pcie.numVfs = s.pcie.numVfs ∧
    (settled s).pcie.reqs = s.pcie.reqs := by
  obtain ⟨fs, h⟩ := settled_pcie s
  rw [h]
  exact ⟨rfl, rfl, rfl⟩

/-- Settles O11: each command by its equation; what it does besides keeps the inputs, the phase and a host link that is down. -/
theorem pinRows : Obligations.PinRows := by
  refine ⟨?reset, ?toD3cold, ?stopped, ?release, ?start, ?pcieUp, ?pcieDown, ?sdStopped, ?sdRunning, ?sdReturn, ?pcieReturn⟩
  case reset =>
    intro s hp hr hd
    have hk := ((resetAllFunctions_steady (linkReset s)).trans (dropReqs_steady _)).trans (settled_steady _)
    obtain ⟨-, hv, hq⟩ := settled_host (dropReqs (resetAllFunctions (linkReset s)))
    exact ⟨_, exec_perstNAssert_reset hp hr hd, hk.perstN, hk.linkDown rfl, hv, hq, hk.phase⟩
  case toD3cold =>
    intro s hp hr hd he hf
    have hk := (beginClose_steady (linkClosing s)).trans (settled_steady _)
    exact ⟨_, exec_perstNAssert_d3cold hp hr hd he hf, hk.perstN, hk.linkDown rfl, hk.closing, hk.toD3cold⟩
  case stopped =>
    intro s hp hr
    have hk := settled_steady { s with pins := { s.pins with perstN := false }, pcie := { s.pcie with linkUp := false } }
    exact ⟨_, exec_perstNAssert_stopped hp hr, hk.perstN, hk.linkDown rfl⟩
  case release =>
    intro s hp hc
    exact ⟨_, exec_perstNRelease hp hc, settled_pins _, settled_phase _⟩
  case start =>
    intro s hp hc
    obtain ⟨failed, h⟩ := exec_perstNRelease_d3cold hp hc
    refine ⟨_, h, ?_⟩
    obtain ⟨q, hq⟩ := settled_jade (startDevice (afterReset { s with pins := { s.pins with perstN := true } } .held) failed)
    rw [settled_phase, settled_cfg, hq]
    exact startDevice_boot_or_f4 _ failed
  case pcieUp =>
    intro s hr hc hl
    have hk := (fault0_steady (refclkLost s) 0x5008 1 (srcHost 0)).trans (settled_steady _)
    exact ⟨_, exec_refclkLoss_pcie_up hr hc hl, hk.pcieRefclk, hk.linkDown rfl⟩
  case pcieDown =>
    intro s hc hl
    exact ⟨_, exec_refclkLoss_pcie_down hc hl, settled_pins _, (settled_host _).1⟩
  case sdStopped =>
    intro s j hr hj hc
    exact ⟨_, exec_refclkLoss_sd_stopped hj hc hr, settled_pins _⟩
  case sdRunning =>
    intro s j hr hj hc
    have hk := (Steady.foldl downLink downLink_steady (List.range' (64 * j) 64)
      (setSdRefclk s j false)).trans (settled_steady _)
    exact ⟨_, exec_refclkLoss_sd_running hj hc hr, hk.sdRefclk⟩
  case sdReturn =>
    intro s j hj
    exact ⟨_, exec_refclkReturn_sd hj, settled_pins _⟩
  case pcieReturn =>
    intro s
    exact ⟨_, rfl, settled_pins _⟩

end Sys2Proof.Machine
end

section
/-! PROOFS. The home path: commands looked up after a change, acceptance and the stamp, messages between tiles, then one equation per
command. -/

namespace Sys2Proof.Machine

/-! ### A command looked up -/

theorem cmd_id_of_getCmd? {s : State} {i : Nat} {c : Cmd} (h : getCmd? s i = some c) : c.id = i := by
  simpa using List.find?_some h

@[simp] theorem getCmd?_settled (s : State) (i : Nat) : getCmd? (settled s) i = getCmd? s i := by simp [getCmd?]

@[simp] theorem getTile_settled (s : State) (t : Nat) : getTile (settled s) t = getTile s t := by simp [getTile]

/-- A change of one command read back. -/
theorem getCmd?_modCmd_self {s : State} {i : Nat} {c : Cmd} (f : Cmd → Cmd) (h : getCmd? s i = some c) (hf : ∀ x, (f x).id = x.id) :
    getCmd? (modCmd s i f) i = some (f c) := by
  have hm := find?_map_of_key Cmd.id (fun x => if x.id = i then f x else x) (fun x => by split; exacts [hf x, rfl]) i s.cmds
  have hc : s.cmds.find? (fun x => x.id == i) = some c := h
  rw [hc, Option.map_some, if_pos (cmd_id_of_getCmd? h)] at hm
  exact hm

/-- The progress of FLUSHes leaves every other command as it is (R337). -/
theorem getCmd?_flushProgress {s : State} {i : Nat} {c : Cmd} (h : getCmd? s i = some c) (ho : c.op ≠ .flush) :
    getCmd? (flushProgress s) i = some c := by
  have hm := find?_map_of_key Cmd.id (fun x => if x.op = .flush ∧ x.phase = .locked ∧ x.waitCmds.isEmpty ∧
    x.waitRecs.all (fun r => recRetired s r.1 r.2) then { x with phase := .finished, status := 0 } else x)
    (fun x => by split <;> rfl) i s.cmds
  have hc : s.cmds.find? (fun x => x.id == i) = some c := h
  rw [hc, Option.map_some, if_neg (fun hx => ho hx.1)] at hm
  exact hm

@[simp] theorem flushProgress_tiles (s : State) : (flushProgress s).tiles = s.tiles := rfl

/-! ### Acceptance (R24, R28, R29) -/

/-- A write taken past the cache is noted in CACHE_STATUS and in Jet (R285). -/
theorem noteStale_eq (s : State) (c : Cmd) : ∃ ca jt, noteStale s c = { s with cache := ca, jet := jt } := by
  unfold noteStale
  split
  · exact ⟨s.cache, s.jet, rfl⟩
  · split
    · exact ⟨_, s.jet, rfl⟩
    · exact ⟨_, _, rfl⟩

theorem acceptCmd_refused {s : State} {c : Cmd} (h : homeStatus s { c with home := homeTile s c.vol } ≠ 0) :
    acceptCmd s c = modCmd s c.id (fun x =>
      { x with phase := .finished, status := homeStatus s { c with home := homeTile s c.vol }, home := homeTile s c.vol }) :=
  if_pos h

/-- A command as its home tile takes it: stamp, order and row parts. -/
def acceptedCmd (s : State) (c : Cmd) (x : Cmd) : Cmd :=
  { x with phase := .accepted, epoch := s.moon.epoch, order := (getTile s (homeTile s c.vol)).nextOrder, home := homeTile s c.vol,
           parts := makeParts s c.vol c.lba c.len, waitCmds := [], waitRecs := [] }

theorem acceptCmd_accepted {s : State} {c : Cmd} (h : homeStatus s { c with home := homeTile s c.vol } = 0) (ho : c.op ≠ .flush) :
    ∃ ca jt, acceptCmd s c = modCmd (setTile { s with cache := ca, jet := jt } (homeTile s c.vol)
      { getTile s (homeTile s c.vol) with nextOrder := (getTile s (homeTile s c.vol)).nextOrder + 1 }) c.id (acceptedCmd s c) := by
  obtain ⟨ca, jt, hn⟩ := noteStale_eq s { c with home := homeTile s c.vol }
  refine ⟨ca, jt, ?_⟩
  unfold acceptCmd
  dsimp only
  rw [if_neg (not_not.2 h), hn]
  simp only [ho, if_false]
  rfl

theorem exec_homeTileAcceptance {s : State} {i : Nat} {c : Cmd} (hs : serving s = true) (hc : getCmd? s i = some c)
    (hp : c.phase = .forwarded) (ha : arrivedHome s c = true)
    (hu : (getVol s c.vol).st = .offline ∨ tileUp s (homeTile s c.vol) = true) :
    exec (.homeTileAcceptance i) s = .next (settled (flushProgress (acceptCmd s c))) := by
  show execHomeTileAcceptance i s = _
  simp [execHomeTileAcceptance, hs, hc, hp, ha, hu, done_eq]

theorem exec_homeTileAcceptance_underWay {s : State} {i : Nat} {c : Cmd} (hc : getCmd? s i = some c) (ha : arrivedHome s c = false) :
    exec (.homeTileAcceptance i) s = .next s := by
  show execHomeTileAcceptance i s = _
  simp [execHomeTileAcceptance, hc, ha]

/-! ### Locks and waits for journal space (R31, R153, R154, R171) -/

theorem getCmd?_enterLock {s : State} {c : Cmd} (h : getCmd? s c.id = some c) :
    getCmd? (enterLock s c) c.id = some { c with phase := .locked } :=
  getCmd?_modCmd_self (s := modTile s c.home _) (fun c => { c with phase := .locked }) h (fun _ => rfl)

theorem lock_mem_enterLock (s : State) (c : Cmd) :
    { holder := .cmd c.id, vol := c.vol, lba := c.lba, len := c.len, write := isWriteOp c.op } ∈
      (getTile (enterLock s c) c.home).locks := by
  have h : getTile (enterLock s c) c.home = { getTile s c.home with locks := (getTile s c.home).locks ++
      [{ holder := .cmd c.id, vol := c.vol, lba := c.lba, len := c.len, write := isWriteOp c.op }] } :=
    getTile_setTile_self s c.home _
  simp [h]

section Grant

variable {s : State} {i : Nat} {c : Cmd} (hs : serving s = true) (hc : getCmd? s i = some c) (hu : tileUp s c.home = true)

include hs hc hu

theorem exec_rangeLockGrant (hp : c.phase = .accepted) (hl : lockFree s c = true) : exec (.rangeLockGrant i) s =
    .next (settled (if isReadOp c.op then prefetch (eachPart (enterLock s c) c.id c.parts.length serveRead) c (missedRows s c)
      else eachPart (enterLock s c) c.id c.parts.length beginWrite)) := by
  show execRangeLockGrant i s = _
  simp only [execRangeLockGrant, hc, hs, hu, hp, hl, beq_self_eq_true, Bool.and_self, Bool.not_true, Bool.false_eq_true, if_false, done_eq]
  split <;> rfl

theorem exec_journalSpaceWaitEnd {part : Nat} {p : RowPart} (hpt : c.parts[part]? = some p) (hp : c.phase = .locked)
    (hw : p.waiting = true) (ho : isWriteOp c.op = true) :
    exec (.journalSpaceWaitEnd i part) s = .next (settled (advancePart s c part)) := by
  show execJournalSpaceWaitEnd i part s = _
  simp [execJournalSpaceWaitEnd, hc, hpt, hs, hu, hp, hw, ho, done_eq]

end Grant

/-! ### The stamp of a write (R97) -/

theorem markRow_Frame (s : State) (vol row : Nat) : Frame [.vols] s (markRow s vol row) := by
  unfold markRow
  dsimp only
  split
  · exact setVol_Frame s vol _
  · exact .refl _ s

theorem stampWrite_Frame (s : State) (c : Cmd) : Frame [.tiles, .vols] s (stampWrite s c) := by
  unfold stampWrite
  refine .foldl _ (fun u p => ?_) _ s
  have hm : Frame [.tiles, .vols] u (markRow u c.vol p.row) := (markRow_Frame u c.vol p.row).mono (by simp)
  dsimp only
  split
  · exact hm.trans ((setTile_Frame _ _ _).mono (by simp))
  · exact hm

/-- A write acknowledged with the epoch that began at the edge. -/
def releasedCmd (s : State) (c : Cmd) : Cmd :=
  { c with phase := .finished, status := 0, stampEpoch := s.moon.epoch, stampOffset := nowOffset s }

theorem exec_ackHoldRelease {s : State} {i : Nat} {c : Cmd} (hf : fwUp s = true) (hc : getCmd? s i = some c) (hp : c.phase = .held)
    (he : c.stampEpoch ≤ s.moon.epoch) :
    exec (.ackHoldRelease i) s = .next (settled (modCmd (stampWrite s c) i (releasedCmd s))) := by
  show execAckHoldRelease i s = _
  simp only [execAckHoldRelease, hf, hc, hp, he, beq_self_eq_true, decide_true, Bool.and_self, if_true, done_eq]
  rfl

theorem getCmd?_stampWrite (s : State) (c : Cmd) (i : Nat) : getCmd? (stampWrite s c) i = getCmd? s i := by
  simp only [getCmd?, (stampWrite_Frame s c).cmds (by simp)]

/-! ### Messages between tiles (R24, R39) -/

theorem forwardCmd_held {s : State} {c : Cmd} (h : s.mesh.switching.contains (c.rx, homeTile s c.vol) = true) :
    (forwardCmd s c).out = s.out := by
  have hc : (decide (homeTile s c.vol = c.rx) || s.mesh.switching.contains (c.rx, homeTile s c.vol)) = true := by
    rw [h, Bool.or_true]
  unfold forwardCmd
  exact (congrArg State.out (if_pos hc)).trans (modCmd_out s c.id _)

/-- What a command has emitted stays emitted as it ends. -/
theorem mem_settled_out {s : State} {o : Output} (h : o ∈ s.out) : o ∈ (settled s).out := by
  obtain ⟨r, hr⟩ := settled_out s
  rw [hr]
  exact List.mem_append_left r h

theorem sendForward_Frame (s : State) (c : Cmd) : Frame [.nextId, .cmds] s (sendForward s c) := by
  constructor
  case out => exact List.prefix_append _ _
  all_goals intros; simp_all [sendForward]

/-- Every command of a list that is sent has its message emitted. -/
theorem forward_mem_sendForwards {l : List Cmd} (s : State) {c : Cmd} (h : c ∈ l) :
    .forward c.rx (homeTile s c.vol) c.id ∈ (l.foldl sendForward s).out := by
  induction l generalizing s with
  | nil => cases h
  | cons a l ih =>
    obtain rfl | h := List.mem_cons.1 h
    · refine (Frame.foldl sendForward sendForward_Frame l (sendForward s c)).out.subset ?_
      exact List.mem_append_right _ List.mem_cons_self
    · exact ih (sendForward s a) h

theorem sendWaiting_mesh (s : State) (src dst : Nat) : (sendWaiting s src dst).mesh = s.mesh :=
  (Frame.foldl sendForward sendForward_Frame _ s).mesh (by simp)

/-- What waited for the route between two tiles is sent. -/
theorem forward_mem_sendWaiting (s : State) {src dst : Nat} {c : Cmd} (hc : c ∈ s.cmds) (hp : c.phase = .forwarded) (hr : c.rx = src)
    (hh : homeTile s c.vol = dst) (hf : c.fwd = none) (hne : src ≠ dst) : .forward src dst c.id ∈ (sendWaiting s src dst).out := by
  have h := forward_mem_sendForwards (l := s.cmds.filter (fun c =>
    c.phase == .forwarded && c.rx == src && homeTile s c.vol == dst && c.fwd.isNone && src != dst)) s (c := c)
    (List.mem_filter.2 ⟨hc, by simp [hp, hr, hh, hf, hne]⟩)
  rwa [hr, hh] at h

/-- The new route between two tiles is in use. -/
def routeSwitched (s : State) (src dst : Nat) : State :=
  { s with mesh := { s.mesh with switching := s.mesh.switching.filter (· != (src, dst)) } }

theorem exec_routeSwitch {s : State} {src dst : Nat} (hr : running s = true) (hs : s.mesh.switching.contains (src, dst) = true)
    (hu : s.cmds.any (underWay s src dst) = false) :
    exec (.routeSwitch src dst) s = .next (settled (sendWaiting (routeSwitched s src dst) src dst)) := by
  show execRouteSwitch src dst s = _
  simp only [execRouteSwitch, hr, hs, hu, Bool.not_false, Bool.and_self, if_true, done_eq, routeSwitched]

theorem exec_routeSwitch_underWay {s : State} {src dst : Nat} (hu : s.cmds.any (underWay s src dst) = true) :
    exec (.routeSwitch src dst) s = .next s := by
  show execRouteSwitch src dst s = _
  simp only [execRouteSwitch, hu, Bool.not_true, Bool.and_false, Bool.false_eq_true, if_false]

/-- The tiles a heartbeat goes to. -/
def heartbeatTiles (s : State) (tile : Nat) : List Nat :=
  (List.range s.part.tiles).filter (fun b => adjacent s.part tile b && tileUp s b && !linkLost s tile b)

theorem exec_meshHeartbeat {s : State} {tile : Nat} (hr : running s = true) (hu : tileUp s tile = true)
    (hd : heartbeatTiles s tile ≠ []) : exec (.meshHeartbeat tile) s = .next (settled (emits
      (setTile s tile { getTile s tile with lastBeat := s.clock }) ((heartbeatTiles s tile).map (fun b => .heartbeat tile b)))) := by
  have hd' : (heartbeatTiles s tile).isEmpty = false := List.isEmpty_eq_false_iff.2 hd
  unfold heartbeatTiles at hd' ⊢
  show execMeshHeartbeat tile s = _
  simp only [execMeshHeartbeat, hr, hu, hd', Bool.and_self, Bool.not_true, Bool.false_eq_true, if_false, done_eq, modTile_eq]

theorem exec_heartbeatTimeout {s : State} {tile : Nat} (hr : running s = true) (hu : tileUp s tile = true)
    (ho : (upTiles s).any (· != tile) = true) : exec (.heartbeatTimeout tile) s =
      .next (settled (declareLost (drawn s) tile { code := lossCode s, cls := 3, src := srcMesh tile })) := by
  show execHeartbeatTimeout tile s = _
  simp only [execHeartbeatTimeout, hr, hu, ho, Bool.and_self, if_true, done_eq]

/-- Changed routes leave the lost links as they are. -/
theorem reroute_lostLinks (old s : State) : (reroute old s).mesh.lostLinks = s.mesh.lostLinks := by
  unfold reroute
  dsimp only
  split
  · obtain ⟨_, _, _, _, _, _, _, _, _, _, _, _, _, _, _, _, _, _, _, _, _, _, h⟩ := enterF4_faultFrame _ _
    rw [h]
    rfl
  · rfl

theorem exec_meshLinkLoss {s : State} {a b : Nat} (hr : running s = true) (ha : adjacent s.part a b = true)
    (hl : linkLost s a b = false) : exec (.meshLinkLoss a b) s =
      .next (settled (reroute s { s with mesh := { s.mesh with lostLinks := s.mesh.lostLinks ++ [(min a b, max a b)] } })) := by
  show execMeshLinkLoss a b s = _
  simp only [execMeshLinkLoss, hr, ha, hl, Bool.not_false, Bool.and_self, if_true, done_eq]

/-- Settles O18: each command by its equation; the command, lock or message concerned read back. -/
theorem homePathRows : Obligations.HomePathRows := by
  refine ⟨?accept, ?acceptance, ?refuse, ?underWay, ?held, ?grantRead, ?grantWrite, ?lock, ?release, ?space, ?switch, ?busy, ?heartbeat,
    ?timeout, ?linkLoss⟩
  case accept =>
    intro s i c hs hc hp ho ha hu h0
    obtain ⟨ca, jt, he⟩ := acceptCmd_accepted h0 ho
    have hi := cmd_id_of_getCmd? hc
    subst hi
    refine ⟨_, acceptedCmd s c c, exec_homeTileAcceptance hs hc hp ha (.inr hu), ?_, rfl, rfl, rfl, rfl, rfl, ?_⟩
    · rw [getCmd?_settled]
      refine getCmd?_flushProgress ?_ ho
      rw [he]
      exact getCmd?_modCmd_self _ hc (fun _ => rfl)
    · rw [getTile_settled, he]
      exact congrArg Tile.nextOrder (getTile_setTile_self _ _ _)
  case acceptance =>
    intro s i c hs hc hp ha hu
    exact exec_homeTileAcceptance hs hc hp ha hu
  case refuse =>
    intro s i c hs hc hp ho ha hu h0
    have hi := cmd_id_of_getCmd? hc
    subst hi
    have hm := getCmd?_modCmd_self (fun x => { x with
      phase := .finished, status := homeStatus s { c with home := homeTile s c.vol }, home := homeTile s c.vol }) hc (fun _ => rfl)
    rw [← acceptCmd_refused h0] at hm
    exact ⟨_, _, exec_homeTileAcceptance hs hc hp ha hu, (getCmd?_settled _ _).trans (getCmd?_flushProgress hm ho), rfl, rfl⟩
  case underWay =>
    intro s i c hc ha
    exact exec_homeTileAcceptance_underWay hc ha
  case held =>
    intro s c h
    exact forwardCmd_held h
  case grantRead =>
    intro s i c hs hc hu hp hl ho
    rw [exec_rangeLockGrant hs hc hu hp hl, if_pos ho]
  case grantWrite =>
    intro s i c hs hc hu hp hl ho
    rw [exec_rangeLockGrant hs hc hu hp hl, if_neg (by simp [ho])]
  case lock =>
    intro s c h
    exact ⟨_, getCmd?_enterLock h, rfl, lock_mem_enterLock s c⟩
  case release =>
    intro s i c hf hc hp he
    refine ⟨_, releasedCmd s c, exec_ackHoldRelease hf hc hp he, ?_, rfl, rfl, rfl, rfl⟩
    rw [getCmd?_settled]
    exact getCmd?_modCmd_self _ ((getCmd?_stampWrite s c i).trans hc) (fun _ => rfl)
  case space =>
    intro s i part c p hs hc hpt hu hp hw ho
    exact exec_journalSpaceWaitEnd hs hc hu hpt hp hw ho
  case switch =>
    intro s src dst hr hs hu
    have hm := sendWaiting_mesh (routeSwitched s src dst) src dst
    refine ⟨_, exec_routeSwitch hr hs hu, ?_, ?_, fun c hc hp hrx hh hf hne => ?_⟩
    · rw [settled_mesh, hm]
      simp [routeSwitched]
    · rw [settled_mesh, hm]
      rfl
    · exact mem_settled_out (forward_mem_sendWaiting (routeSwitched s src dst) hc hp hrx hh hf hne)
  case busy =>
    intro s src dst hu
    exact exec_routeSwitch_underWay hu
  case heartbeat =>
    intro s tile b hr hu hb hn ha hl
    have hm : b ∈ heartbeatTiles s tile := by simp [heartbeatTiles, hn, ha, hb, hl]
    refine ⟨_, exec_meshHeartbeat hr hu (List.ne_nil_of_mem hm), ?_, ?_⟩
    · exact mem_settled_out (List.mem_append_right _ (List.mem_map_of_mem hm))
    · rw [getTile_settled]
      exact congrArg Tile.lastBeat (getTile_setTile_self s tile _)
  case timeout =>
    intro s tile hr hu ho
    exact exec_heartbeatTimeout hr hu ho
  case linkLoss =>
    intro s a b hr ha hl
    refine ⟨_, exec_meshLinkLoss hr ha hl, ?_⟩
    simp [linkLost, reroute_lostLinks]

end Sys2Proof.Machine
end

section
/-! PROOFS. Laws of Moonstone that the rows of this family share: what a fault keeps, what leaves EPOCH_OUT, frames taken at EPOCH_IN, and
the end of a seal. -/

namespace Sys2Proof.Machine

/-! ### What every fault keeps (R501, R504-R512) -/

/-- A relation between states that the steps of raising a fault keep: entries of Jade and Jet, F4, and the wake event. -/
structure FaultClosed (R : State → State → Prop) : Prop where
  refl : ∀ s, R s s
  trans : ∀ {s t u}, R s t → R t u → R s u
  noted : ∀ s j e, R s { s with jade := j, jet := e }
  f4 : ∀ s c, R s (enterF4 s c)
  wake : ∀ s, R s (wakeEvent s)

namespace FaultClosed

variable {R : State → State → Prop} (h : FaultClosed R)

include h

/-- An entry of Jade alone. -/
theorem jade (s : State) (j : Jade) : R s { s with jade := j } := h.noted s j s.jet

theorem recordFault (s : State) (a : FaultArg) (corr : Bool) : R s (recordFault s a corr) := by
  unfold Machine.recordFault
  split <;> exact h.noted s _ _

theorem makeEntry (s : State) (code src : BitVec 16) (cls dk di : Nat) (corr acted : Bool) :
    R s (makeEntry s code src cls dk di corr acted) := by
  unfold Machine.makeEntry
  extract_lets full _ t
  have ht : R s t := by
    simp only [t]
    split
    exacts [h.noted s _ _, h.refl s]
  split
  · exact h.trans ht (h.f4 _ _)
  · split
    · exact h.trans ht (h.f4 _ _)
    · exact h.trans ht (h.jade _ _)

theorem placeEvent (s : State) (dk di : Nat) (code src : BitVec 16) (cls : Nat) (corr acted : Bool) :
    R s (placeEvent s dk di code src cls corr acted) := by
  unfold Machine.placeEvent
  split
  · exact h.f4 s _
  · split
    · exact h.refl s
    · split
      · exact h.makeEntry s _ _ _ _ _ _ _
      · split
        · exact h.makeEntry s _ _ _ _ _ _ _
        · split
          · split
            exacts [h.f4 s _, h.jade s _]
          · exact h.jade s _

theorem joinWindow (s : State) (w : CorrWin) (a : FaultArg) : R s (joinWindow s w a) := by
  unfold Machine.joinWindow
  dsimp only
  split
  · split <;> exact h.jade s _
  · refine h.trans (h.recordFault s a true) ?_
    generalize Machine.recordFault s a true = u
    refine h.trans ?_ (h.placeEvent _ _ _ _ _ _ _ _)
    split
    exacts [h.jade u _, h.noted u _ _]

theorem raise (s : State) (a : FaultArg) : R s (raise s a) := by
  unfold Machine.raise
  split
  · exact h.recordFault s _ _
  · split
    · exact h.recordFault s _ _
    · split
      · exact h.trans (h.recordFault s a false) (h.f4 _ _)
      · split
        · exact h.joinWindow s _ _
        · exact h.trans (h.trans (h.recordFault s a false) (h.jade _ _)) (h.placeEvent _ _ _ _ _ _ _ _)

theorem fault (s : State) (a : FaultArg) : R s (fault s a) := by
  unfold Machine.fault
  dsimp only
  split
  exacts [h.trans (h.raise s a) (h.wake _), h.raise s a]

end FaultClosed

/-- `t` has emitted what `s` has, and is not trained where `s` is not. -/
def Onward (s t : State) : Prop := s.out <+: t.out ∧ (s.moon.trained = false → t.moon.trained = false)

theorem wakeEvent_onward (s : State) : Onward s (wakeEvent s) := by
  unfold wakeEvent
  split
  · exact ⟨List.prefix_rfl, id⟩
  · split
    · exact ⟨List.prefix_rfl, id⟩
    · dsimp only
      split
      exacts [⟨List.prefix_append _ _, id⟩, ⟨List.prefix_rfl, id⟩]

theorem enterF4_onward (s : State) (c : Nat) : Onward s (enterF4 s c) := by
  unfold enterF4
  split
  exacts [⟨List.prefix_rfl, id⟩, ⟨List.prefix_rfl, fun _ => rfl⟩]

theorem onward_faultClosed : FaultClosed Onward where
  refl _ := ⟨List.prefix_rfl, id⟩
  trans h k := ⟨h.1.trans k.1, k.2 ∘ h.2⟩
  noted _ _ _ := ⟨List.prefix_rfl, id⟩
  f4 := enterF4_onward
  wake := wakeEvent_onward

/-- What has been emitted stays when a fault is raised. -/
theorem fault_out (s : State) (a : FaultArg) : s.out <+: (fault s a).out := (onward_faultClosed.fault s a).1

/-- No fault trains a device. -/
theorem fault_untrained {s : State} (h : s.moon.trained = false) (a : FaultArg) : (fault s a).moon.trained = false :=
  (onward_faultClosed.fault s a).2 h

theorem fault0_out (s : State) (code : BitVec 16) (cls : Nat) (src : BitVec 16) : s.out <+: (fault0 s code cls src).out :=
  fault_out s _

/-- A fault changes of Moonstone whether it is trained (R512). -/
theorem fault0_moon (s : State) (code : BitVec 16) (cls : Nat) (src : BitVec 16) :
    ∃ tr, (fault0 s code cls src).moon = { s.moon with trained := tr } := fault_moon s _

@[simp] theorem getMbx_fault0 (s : State) (code : BitVec 16) (cls : Nat) (src : BitVec 16) (n : Nat) :
    getMbx (fault0 s code cls src) n = getMbx s n := by simp [getMbx]

/-! ### What is emitted (R75, R77, R78) -/

/-- What an intermediate state has just emitted is the first thing emitted, whatever follows it. -/
theorem Emits.of_prefix {s u t : State} {o : Output} (h : u.out <+: t.out) (k : u.out = s.out ++ [o]) : Emits s t o := by
  obtain ⟨l, h⟩ := h
  exact ⟨l, by simp [← h, k]⟩

theorem Emits.settled {s u t : State} {o : Output} (h : u.out <+: t.out) (k : u.out = s.out ++ [o]) : Emits s (settled t) o :=
  .of_prefix (h.trans (Frame.settled (.refl [] t)).out) k

/-- The end of a command sends no frame: what it emits are messages to the host (R403). -/
theorem sendMsg_moonOut (s : State) (fn v : Nat) : moonOut (sendMsg s fn v) = moonOut s := by
  unfold sendMsg
  split
  · simp [moonOut, emit]
  · rfl

theorem irqFn_moonOut (s : State) (fn : Nat) : moonOut (irqFn s fn) = moonOut s := by
  unfold irqFn
  dsimp only
  split
  · rfl
  · exact List.foldlRecOn (motive := fun t => moonOut t = moonOut s) _ _ rfl (fun t ht v _ => (sendMsg_moonOut t fn v).trans ht)

@[simp] theorem settled_moonOut (s : State) : moonOut (settled s) = moonOut s :=
  List.foldlRecOn (motive := fun t => moonOut t = moonOut s) _ _ rfl (fun t ht fn _ => (irqFn_moonOut t fn).trans ht)

/-! ### Frames at EPOCH_IN (R75, R76, R112, R114) -/

/-- The state in which a device that retimes acts on a valid frame: its clock stands at the frame's instant, and the input is heard. -/
def heardAt (s : State) (f : MoonFrame) : State := heardFrame (atInstant s f.at_)

@[simp] theorem forwardFrame_moon (s : State) (f : MoonFrame) (edits : List (Nat × Nat × Nat)) :
    (forwardFrame s f edits).moon = s.moon := rfl

section Arrival

variable {s : State} {f : MoonFrame} (act : State → State)

theorem frameValid_of_frameIs {k : Nat} {p : Option Nat} (h : frameIs f k p = true) : frameValid f = true := by
  simp only [frameIs, Bool.and_eq_true] at h
  exact h.1.1

/-- A valid frame that reaches a device which retimes is acted on (R75). -/
theorem onFrame_taken (h : FrameIn s f) (hv : frameValid f = true) : onFrame f act s = .next (settled (act (heardAt s f))) := by
  obtain ⟨hr, hb, ha⟩ := h
  have ht : retimes s = true := by simp [retimes, hr, hb]
  simp only [onFrame, Nat.not_lt.2 ha, hb, ht, hv, Bool.not_true, Bool.false_eq_true, if_false, done_eq, heardAt]

/-- A frame that is not valid is refused (R76). -/
theorem onFrame_refused (h : FrameIn s f) (hv : frameValid f = false) :
    onFrame f act s = .next (settled (refuseFrame (atInstant s f.at_) f)) := by
  obtain ⟨hr, hb, ha⟩ := h
  have ht : retimes s = true := by simp [retimes, hr, hb]
  simp only [onFrame, Nat.not_lt.2 ha, hb, ht, hv, Bool.not_true, Bool.not_false, Bool.false_eq_true, if_false, if_true, done_eq]

/-- Through a closed bypass a frame leaves as it came (R112). -/
theorem onFrame_bypassed (hb : s.pins.bypassClosed = true) (ha : s.pins.bypassAt ≤ f.at_) :
    onFrame f act s = .next (settled (emit (atInstant s f.at_) (.moon f.at_ f.timed f.body))) := by
  simp only [onFrame, Nat.not_lt.2 ha, hb, if_true, if_false, done_eq]

/-- A frame crossing as the bypass changed is lost (R114). -/
theorem onFrame_crossing (ha : f.at_ < s.pins.bypassAt) : onFrame f act s = .next (settled (atInstant s f.at_)) := by
  simp only [onFrame, ha, if_true, done_eq]

/-- What a row does with a frame that is not valid is the same in every row (R76). -/
theorem onFrame_invalid_congr (act' : State → State) (hv : frameValid f = false) : onFrame f act s = onFrame f act' s := by
  simp only [onFrame, hv, Bool.not_false, if_true]

/-- A row for valid frames of one command and phase, brought one of them. -/
theorem onFrame_of_frameIs {k : Nat} {p : Option Nat} (hk : frameIs f k p = true) :
    (if frameValid f && !frameIs f k p then .next s else onFrame f act s) = onFrame f act s := by simp [hk]

/-- The same row, brought a frame that is not valid. -/
theorem onFrame_of_invalid {k : Nat} {p : Option Nat} (hv : frameValid f = false) :
    (if frameValid f && !frameIs f k p then .next s else onFrame f act s) = onFrame f act s := by simp [hv]

/-- A row for valid frames of one command and phase acts on them. -/
theorem onFrame_row {k : Nat} {p : Option Nat} (h : FrameIn s f) (hk : frameIs f k p = true) :
    (if frameValid f && !frameIs f k p then .next s else onFrame f act s) = .next (settled (act (heardAt s f))) :=
  (onFrame_of_frameIs act hk).trans (onFrame_taken act h (frameValid_of_frameIs hk))

end Arrival

end Sys2Proof.Machine
end

section
/-! PROOFS. Frames at EPOCH_IN: one equation per row, what a device does with an EDGE frame, then the state each frame leaves. -/

namespace Sys2Proof.Machine

section Rows

variable {s : State} {f : MoonFrame}

/-- Every row that takes a frame brings it to EPOCH_IN. -/
theorem exec_frameRow {c : Instr} (h : FrameRow c f) : ∃ act, exec c s = onFrame f act s := by
  obtain ⟨rfl, h⟩ | ⟨rfl, h⟩ | ⟨rfl, h⟩ | ⟨rfl, h⟩ | ⟨rfl, h⟩ | ⟨rfl, h⟩ | ⟨rfl, h⟩ | ⟨rfl, h⟩ | ⟨rfl, h⟩ := h
  pick_goal 9
  · exact ⟨_, if_neg (by simpa using h)⟩
  all_goals exact ⟨_, onFrame_of_frameIs _ h⟩

theorem exec_edge (h : FrameIn s f) (hk : frameIs f kEdge none = true) :
    exec (.edge f.sync f.body) s = .next (settled (onEdge f (heardAt s f))) := onFrame_row _ h hk

theorem exec_holdover (h : FrameIn s f) (hk : frameIs f kHoldover none = true) :
    exec (.holdover f.sync f.body) s = .next (settled (onHoldover f (heardAt s f))) := onFrame_row _ h hk

theorem frameKnown_of_invalid (hv : frameValid f = false) : frameKnown f = false := by simp [frameKnown, hv]

theorem exec_invalidFrame (hk : frameKnown f = false) : exec (.invalidFrame f.sync f.body) s =
    onFrame f (fun s => if ownFrame s f false then s else forwardFrame s f []) s := if_neg (by simpa using hk)

/-- Every row answers a frame that is not valid as INVALID_FRAME does (R76). -/
theorem exec_of_invalid {c : Instr} (hv : frameValid f = false) (hc : c ∈ [.edge f.sync f.body, .announce f.sync f.body,
    .poll f.sync f.body, .done f.sync f.body, .failed f.sync f.body, .holdover f.sync f.body, .trainCount f,
    .trainResult f.at_ f.timed f.body]) : exec c s = exec (.invalidFrame f.sync f.body) s := by
  have hrow : ∃ act, exec c s = onFrame f act s := by
    simp only [List.mem_cons, List.not_mem_nil, or_false] at hc
    obtain rfl | rfl | rfl | rfl | rfl | rfl | rfl | rfl := hc <;> exact ⟨_, onFrame_of_invalid _ hv⟩
  obtain ⟨act, hact⟩ := hrow
  rw [hact, exec_invalidFrame (frameKnown_of_invalid hv)]
  exact onFrame_invalid_congr _ _ hv

/-! ### EDGE frames (R80, R84, R86-R91) -/

theorem isMaster_of_isMember (h : isMember s = true) : isMaster s = false := by
  simp only [isMember, Bool.and_eq_true, beq_iff_eq] at h
  simp [isMaster, h.1]

theorem onEdge_own (hm : isMaster s = true) (ho : frameOrigin f = 0) (hc : s.moon.edgesOut.contains (frameNumber f) = true) :
    onEdge f s = modMoon s (fun m => { m with edgesOut := m.edgesOut.filter (· != frameNumber f) }) := by
  unfold onEdge
  rw [if_pos hm, if_pos ⟨ho, hc⟩]

/-- Another device's EDGE frame at the master (R80). -/
theorem onEdge_conflict (hm : isMaster s = true) (hc : frameOrigin f ≠ 0 ∨ s.moon.edgesOut.contains (frameNumber f) = false) :
    onEdge f s = fault0 (modMoon s (fun m => { m with masterConflict := true })) 0x6001 2 srcMoon := by
  have hn : ¬(frameOrigin f = 0 ∧ s.moon.edgesOut.contains (frameNumber f) = true) := by
    rintro ⟨ho, hin⟩
    obtain h | h := hc
    · exact h ho
    · exact absurd (h.symm.trans hin) (by decide)
  unfold onEdge
  rw [if_pos hm, if_neg hn]

theorem onEdge_passed (hm : isMaster s = false) (ht : (isMember s && s.moon.trained) = false) :
    onEdge f s = forwardFrame s f [] := by
  have hj : (isMember (forwardFrame s f []) && (forwardFrame s f []).moon.trained) = false := ht
  unfold onEdge
  rw [if_neg (by simp [hm])]
  exact if_neg (Bool.eq_false_iff.1 hj)

theorem onEdge_judged (hm : isMember s = true) (ht : s.moon.trained = true) : onEdge f s = judgeEdge (forwardFrame s f []) f := by
  have hj : (isMember (forwardFrame s f []) && (forwardFrame s f []).moon.trained) = true := Bool.and_eq_true_iff.2 ⟨hm, ht⟩
  unfold onEdge
  rw [if_neg (by simp [isMaster_of_isMember hm])]
  exact if_pos hj

/-- A frame inside the window whose epoch is not behind, at a MEMBER that counts on from no break (R86-R88). -/
theorem judgeEdge_accepted (hw : inWindow (frameOffset s.moon f) = true) (ho : frameOrigin f = 0) (hb : s.moon.behind = false)
    (he : frameEpoch s.moon f ≤ frameNumber f) : judgeEdge s f = acceptEdge s f (frameOffset s.moon f) := by
  simp [judgeEdge, hw, ho, hb, BitVec.not_lt.2 he]

theorem judgeEdge_behind (hw : inWindow (frameOffset s.moon f) = true) (he : frameNumber f < frameEpoch s.moon f) :
    judgeEdge s f = behindFrame s := by
  simp [judgeEdge, hw, he]

theorem judgeEdge_stray (hw : inWindow (frameOffset s.moon f) = false) : judgeEdge s f = strayFrame s (frameOffset s.moon f) := by
  simp [judgeEdge, hw]

theorem acceptEdge_moon (e : Int) : (acceptEdge s f e).moon = acceptMoon s.moon f e := by
  unfold acceptEdge
  dsimp only
  split <;> rfl

theorem acceptEdge_out (e : Int) : (acceptEdge s f e).out = s.out := by
  unfold acceptEdge
  dsimp only
  split <;> rfl

/-- The offsets seen outside the window begin with the latest (R91). -/
theorem strayFrame_head (x : Int) : (strayFrame s x).moon.strays.head? = some x := by
  simp only [strayFrame, modMoon]
  split <;> rfl

/-! ### Frames not acted on (R75, R76) -/

/-- A frame that is not valid, forwarded: it counts where its CRC fails, and as a false mark or the end of a run (R91). -/
theorem refuseFrame_forwarded (hm : (isMaster s && frameOrigin f == 0) = false) :
    ∃ strays marks, refuseFrame s f = forwardFrame (modMoon s (fun m =>
      { m with nCrcFails := if frameCrcGood f then m.nCrcFails else m.nCrcFails + 1, strays := strays, nFalseMarks := marks })) f [] :=
  ⟨_, _, if_neg (by simpa [isMaster] using hm)⟩

/-! ### HOLDOVER frames (R75, R95) -/

theorem onHoldover_own (ho : ownFrame s f true = true) : onHoldover f s = s := if_pos ho

/-- The first device past a break names it (R95). -/
theorem onHoldover_break (ho : ownFrame s f true = false) (hp : framePhase f = 2) :
    onHoldover f s = jetInfo (modMoon (forwardFrame s f []) (fun m => { m with breakPos := frameOrigin f, breakSeen := true }))
      0x6008 srcMoon [] := by
  simp only [onHoldover, ho, hp, Bool.false_eq_true, if_false, if_true]

theorem onHoldover_passed (ho : ownFrame s f true = false) (hp : framePhase f ≠ 2) : onHoldover f s = forwardFrame s f [] := by
  simp only [onHoldover, ho, hp, Bool.false_eq_true, if_false]

end Rows

/-- Settles O13: each row by its equation, and the frame or the Moonstone block it leaves read back. -/
theorem moonFrameRows : Obligations.MoonFrameRows := by
  refine ⟨?own, ?conflict, ?passed, ?accepted, ?behind, ?stray, ?refused, ?unknown, ?invalid, ?holdover, ?reason, ?ownHoldover, ?bypassed,
    ?crossing⟩
  case own =>
    intro s f h hk hm ho hc
    rw [exec_edge h hk, onEdge_own (s := heardAt s f) hm ho hc]
    exact ⟨_, rfl, settled_moonOut _, settled_moon _⟩
  case conflict =>
    intro s f h hk hm hc
    rw [exec_edge h hk, onEdge_conflict (s := heardAt s f) hm hc]
    obtain ⟨tr, hf⟩ := fault0_moon (modMoon (heardAt s f) (fun m => { m with masterConflict := true })) 0x6001 2 srcMoon
    refine ⟨_, rfl, ?_⟩
    rw [settled_moon, hf]
    exact ⟨rfl, rfl, rfl⟩
  case passed =>
    intro s f h hk hm ht
    rw [exec_edge h hk, onEdge_passed (s := heardAt s f) hm ht]
    exact ⟨_, rfl, settled_moon _, settled_clock _, .settled List.prefix_rfl rfl⟩
  case accepted =>
    intro s f h hk hm ht hw ho hb he
    rw [exec_edge h hk, onEdge_judged (s := heardAt s f) hm ht, judgeEdge_accepted (s := forwardFrame (heardAt s f) f []) hw ho hb he]
    refine ⟨_, rfl, ?_⟩
    rw [settled_moon, acceptEdge_moon]
    exact ⟨rfl, rfl, rfl, rfl, rfl, rfl, rfl, rfl, rfl, .settled List.prefix_rfl (acceptEdge_out _)⟩
  case behind =>
    intro s f h hk hm ht hw he
    rw [exec_edge h hk, onEdge_judged (s := heardAt s f) hm ht, judgeEdge_behind (s := forwardFrame (heardAt s f) f []) hw he]
    obtain ⟨tr, hf⟩ := fault0_moon (modMoon (forwardFrame (heardAt s f) f [])
      (fun m => { applyDelay m with epochBehind := true, behind := true, strays := [] })) 0x6007 1 srcMoon
    refine ⟨_, rfl, ?_⟩
    rw [settled_moon, behindFrame, hf]
    exact ⟨rfl, rfl, rfl, rfl, .settled (fault0_out _ _ _ _) rfl⟩
  case stray =>
    intro s f h hk hm ht hw
    rw [exec_edge h hk, onEdge_judged (s := heardAt s f) hm ht, judgeEdge_stray (s := forwardFrame (heardAt s f) f []) hw]
    refine ⟨_, rfl, ?_⟩
    rw [settled_moon]
    exact ⟨rfl, rfl, rfl, strayFrame_head _, .settled List.prefix_rfl rfl⟩
  case refused =>
    intro s f h hv hm
    obtain ⟨strays, marks, hf⟩ := refuseFrame_forwarded (s := atInstant s f.at_) hm
    rw [exec_invalidFrame (frameKnown_of_invalid hv), onFrame_refused _ h hv, hf]
    refine ⟨_, rfl, ?_⟩
    rw [settled_moon]
    exact ⟨rfl, rfl, rfl, rfl, rfl, .settled List.prefix_rfl rfl⟩
  case unknown =>
    intro s f h hv hk ho
    have hn : ownFrame (heardAt s f) f false = false := ho
    rw [exec_invalidFrame hk, onFrame_taken _ h hv, hn]
    exact ⟨_, rfl, settled_moon _, .settled List.prefix_rfl rfl⟩
  case invalid =>
    intro s f c hv hc
    exact exec_of_invalid hv hc
  case holdover =>
    intro s f h hk ho hp
    rw [exec_holdover h hk, onHoldover_break (s := heardAt s f) ho hp]
    refine ⟨_, rfl, ?_⟩
    rw [settled_moon]
    exact ⟨rfl, rfl, .settled List.prefix_rfl rfl⟩
  case reason =>
    intro s f h hk ho hp
    rw [exec_holdover h hk, onHoldover_passed (s := heardAt s f) ho hp]
    exact ⟨_, rfl, settled_moon _, .settled List.prefix_rfl rfl⟩
  case ownHoldover =>
    intro s f h hk ho
    rw [exec_holdover h hk, onHoldover_own (s := heardAt s f) ho]
    exact ⟨_, rfl, settled_moon _, settled_moonOut _⟩
  case bypassed =>
    intro s f c hc hb ha
    obtain ⟨act, hact⟩ := exec_frameRow (s := s) hc
    rw [hact, onFrame_bypassed act hb ha]
    exact ⟨_, rfl, settled_moon _, .settled List.prefix_rfl rfl⟩
  case crossing =>
    intro s f c hc ha
    obtain ⟨act, hact⟩ := exec_frameRow (s := s) hc
    rw [hact, onFrame_crossing act ha]
    exact ⟨_, rfl, settled_moon _, settled_moonOut _⟩

end Sys2Proof.Machine
end

section
/-! PROOFS. Moonstone's own timers: misses, holdover and re-phase, one equation per row and case. -/

namespace Sys2Proof.Machine

/-! ### A control frame sent (R78) -/

@[simp] theorem sendCtl_moon (s : State) (command : Nat) (origin : BitVec 10) (args : List Byte) :
    (sendCtl s command origin args).moon = { s.moon with lineFree := ctlInstant s + 2560 } := rfl

/-! ### The rows (R92, R94, R95) -/

section Timers

variable {s : State}

theorem exec_missLimit (hf : fwUp s = true) (hm : isMember s = true) (ht : s.moon.trained = true) (h16 : s.moon.misses = 16) :
    exec .missLimit s = .next (settled (fault0 s 0x6004 2 srcMoon)) := by
  show execMissLimit s = _
  simp [execMissLimit, hf, hm, ht, h16, done_eq]

theorem exec_unsynchronised (hf : fwUp s = true) (hm : isMember s = true) (ht : s.moon.trained = true) (hu : s.moon.unsynced = false)
    (h0 : 0 < s.moon.misses) :
    exec .unsynchronised s = .next (settled (fault0 (modMoon s (fun m => { m with unsynced := true })) 0x6005 1 srcMoon)) := by
  show execUnsynchronised s = _
  simp [execUnsynchronised, hf, hm, ht, hu, h0, done_eq]

theorem exec_holdoverSend (hr : retimes s = true) (hm : isMember s = true) (h4 : 4 ≤ s.moon.silent) (hs : s.moon.holdoverSent = false) :
    exec .holdoverSend s = .next (settled (sendCtl (modMoon s (fun m => { m with holdoverSent := true })) kHoldover
      (BitVec.ofNat 10 s.moon.position) (holdoverArgs 2))) := by
  show execHoldoverSend s = _
  simp [execHoldoverSend, hr, hm, h4, hs, done_eq]

variable {x y z : Int} {l : List Int} (hf : fwUp s = true) (hs : s.moon.strays = x :: y :: z :: l)

include hf hs

/-- Three frames in a row at one offset that the device's own drift explains: its edge moves (R92). -/
theorem exec_rephase_drift (hd : ownDrift s x = true) :
    exec .rephase s = .next (settled (modMoon s (fun m => { m with edgeShift := m.edgeShift + x, strays := [] }))) := by
  show execRephase s = _
  simp [execRephase, hs, hf, hd, done_eq]

/-- An offset that its drift does not explain: D changes (R92). -/
theorem exec_rephase_delay (hd : ownDrift s x = false) :
    exec .rephase s = .next (settled (jetInfo (modMoon s (fun m =>
      { m with dShift := m.dShift + x, rephased := true, nRephases := m.nRephases + 1, strays := [] })) 0x6003 srcMoon [])) := by
  show execRephase s = _
  simp [execRephase, hs, hf, hd, done_eq]

end Timers

theorem ownDrift_iff {s : State} (x : Int) {a : Nat} (h : s.moon.lastAccepted = some a) :
    ownDrift s x = true ↔ x.natAbs * 1000000 ≤ 64 * 1000000 + 2 * (s.clock - a) := by
  simp [ownDrift, h]

/-- Settles O14: each row by its equation, and the Moonstone block it leaves read back. -/
theorem moonTimerRows : Obligations.MoonTimerRows := by
  refine ⟨?missLimit, ?unsynchronised, ?holdover, ?drift, ?delay, ?bound⟩
  case missLimit =>
    intro s hf hm ht h16
    exact exec_missLimit hf hm ht h16
  case unsynchronised =>
    intro s hf hm ht hu h0
    obtain ⟨tr, h⟩ := fault0_moon (modMoon s (fun m => { m with unsynced := true })) 0x6005 1 srcMoon
    exact ⟨_, exec_unsynchronised hf hm ht hu h0, by rw [settled_moon, h]; rfl⟩
  case holdover =>
    intro s hr hm h4 hs
    refine ⟨_, exec_holdoverSend hr hm h4 hs, ?_⟩
    rw [settled_moon, sendCtl_moon]
    exact ⟨rfl, rfl, .settled List.prefix_rfl rfl⟩
  case drift =>
    intro s x y z l hf hs hd
    refine ⟨_, exec_rephase_drift hf hs hd, ?_⟩
    rw [settled_moon]
    exact ⟨rfl, rfl, rfl, rfl⟩
  case delay =>
    intro s x y z l hf hs hd
    refine ⟨_, exec_rephase_delay hf hs hd, ?_⟩
    rw [settled_moon]
    exact ⟨rfl, rfl, rfl, rfl, rfl⟩
  case bound =>
    intro s x a h
    exact ownDrift_iff x h

end Sys2Proof.Machine
end

section
/-! PROOFS. Training: what each device does with the COUNT and RESULT frames, one equation per row, then the state each leaves. -/

namespace Sys2Proof.Machine

section Rows

variable {s : State} {f : MoonFrame}

theorem exec_trainCount (h : FrameIn s f) (hk : frameIs f kTrain (some 1) = true) :
    exec (.trainCount f) s = .next (settled (onTrainCount f (heardAt s f))) := onFrame_row _ h hk

theorem exec_trainResult (h : FrameIn s f) (hk : frameIs f kTrain (some 2) = true) :
    exec (.trainResult f.at_ f.timed f.body) s = .next (settled (onTrainResult f (heardAt s f))) := onFrame_row _ h hk

/-! ### The COUNT frame (R81, R82) -/

theorem onTrainCount_counted (ho : ownFrame s f false = false) : onTrainCount f s = trainCounted s f := by
  simp [onTrainCount, ho]

theorem onTrainCount_returned {t0 mb : Nat} (ho : ownFrame s f false = true) (ht : s.moon.train.sentAt = some t0)
    (hm : s.moon.train.mb = some mb) : onTrainCount f s = trainReturned s f t0 mb := by
  simp [onTrainCount, ho, ht, hm]

/-- COUNT below its greatest value overflows in no hop (Table 2-3). -/
theorem hop_noOverflow (ho : frameOvf f = false) (hc : frameCount f ≠ 1023) : (hop f).2 = false := by
  rw [hop, if_neg hc]
  exact ho

/-- A device that the count reaches whole takes its position. -/
theorem trainCounted_whole (h : (hop f).2 = false) : (trainCounted s f).moon =
    { s.moon with
      train := { s.moon.train with seen := some ((frameCount f).toNat + 1) }, position := (frameCount f).toNat + 1 } := by
  simp [trainCounted, modMoon, h]

/-- A count that has overflowed gives no position (R82). -/
theorem trainCounted_overflow (h : (hop f).2 = true) : (trainCounted s f).moon =
    { s.moon with train := { s.moon.train with seen := none } } := by
  simp [trainCounted, modMoon, h]

/-- The master's Moonstone block once its COUNT frame, sent at `t0`, has come back whole (R81). -/
def masterTrained (m : Moon) (f : MoonFrame) (t0 : Nat) : Moon :=
  { m with
    train := {}, loop := f.at_ - t0, trained := true, behind := false, position := 0, hops := 0
    adopt := if m.epoch < frameNumber f + 1 then some (frameNumber f + 1) else m.adopt }

/-- The COUNT frame back whole: RESULT leaves and EPOCH_TRAIN completes (R81). -/
theorem trainReturned_whole (t0 mb : Nat) (h : frameOvf f = false) : ∃ data, trainReturned s f t0 mb =
    mbxOk (jetInfo (sendCtl (modMoon s (masterTrained · f t0)) kTrain 0 (trainArgs 2 (f.at_ - t0) ((frameCount f).toNat + 1)))
      0x6009 srcMoon []) mb data :=
  ⟨_, if_neg (by simp [h])⟩

/-- A training that the master gives up (R82). -/
def masterGivesUp (s : State) (mb : Nat) : State :=
  mbxFinish (fault0 (modMoon s (fun m => { m with train := {} })) 0x600A 1 srcMoon) mb 0x0043 0 []

theorem trainReturned_overflow (t0 mb : Nat) (h : frameOvf f = true) : trainReturned s f t0 mb = masterGivesUp s mb := if_pos h

/-- The mailbox of a command that ends while it is not an orphan (R470). -/
theorem mbxFinish_ended {mb : Nat} (st : Status) (d : Nat) (data : List Byte) (ho : (getMbx s mb).orphan = false) :
    (getMbx (mbxFinish s mb st d data) mb).busy = false ∧ (getMbx (mbxFinish s mb st d data) mb).lastStatus = st := by
  simp [mbxFinish, ho]

theorem masterGivesUp_moon (s : State) (mb : Nat) : ∃ tr, (masterGivesUp s mb).moon = { s.moon with train := {}, trained := tr } := by
  obtain ⟨tr, h⟩ := fault0_moon (modMoon s (fun m => { m with train := {} })) 0x600A 1 srcMoon
  exact ⟨tr, by rw [masterGivesUp, mbxFinish_moon, h]; rfl⟩

theorem masterGivesUp_ended {mb : Nat} (ho : (getMbx s mb).orphan = false) :
    (getMbx (masterGivesUp s mb) mb).busy = false ∧ (getMbx (masterGivesUp s mb) mb).lastStatus = 0x0043 :=
  mbxFinish_ended _ _ _ (by rw [getMbx_fault0]; exact ho)

/-! ### The RESULT frame (R81, R82) -/

theorem onTrainResult_own (ho : ownFrame s f false = true) : onTrainResult f s = s := if_pos ho

/-- A device that the count reached takes its share of the delay (R81). -/
theorem onTrainResult_trained {p : Nat} (ho : ownFrame s f false = false) (hs : s.moon.train.seen = some p) (hp : p < frameDevices f)
    (hv : frameOvf f = false) : onTrainResult f s = jetInfo (modMoon (forwardFrame s f []) (fun m =>
      { m with trained := true, behind := false, hops := p - 1
               delayNext := some ((roundShare p (frameLoop f) (frameDevices f) : Int) + s.moon.dlyAdj), loop := frameLoop f
               train := { m.train with seen := none } })) 0x6009 srcMoon [] := by
  simp [onTrainResult, ho, hs, hp, hv]

/-- A result that does not hold for this device, or that it has no count for (R82). -/
theorem onTrainResult_failed (ho : ownFrame s f false = false)
    (hs : s.moon.train.seen = none ∨ ∃ p, s.moon.train.seen = some p ∧ (frameDevices f ≤ p ∨ frameOvf f = true)) :
    onTrainResult f s = trainFailed (forwardFrame s f []) := by
  obtain hs | ⟨p, hs, hp⟩ := hs
  · simp [onTrainResult, ho, hs]
  · have hn : ¬(p < frameDevices f ∧ frameOvf f = false) := by
      rintro ⟨hlt, hv⟩
      obtain hp | hp := hp
      · omega
      · exact absurd (hv.symm.trans hp) (by decide)
    simp [onTrainResult, ho, hs, hn]

theorem trainFailed_untrained (s : State) : (trainFailed s).moon.trained = false := fault_untrained rfl _

theorem trainFailed_delayNext (s : State) : (trainFailed s).moon.delayNext = s.moon.delayNext := by
  obtain ⟨tr, h⟩ := fault0_moon (modMoon s (fun m => { m with trained := false, train := { m.train with seen := none } })) 0x600A 1 srcMoon
  rw [trainFailed, h]
  rfl

/-! ### Expiry and EPOCH_TRAIN (R81, R82) -/

theorem exec_trainTimeout {t0 mb : Nat} (hf : fwUp s = true) (ht : s.moon.train.sentAt = some t0) (hm : s.moon.train.mb = some mb) :
    exec .trainTimeout s = .next (settled (masterGivesUp s mb)) := by
  show execTrainTimeout s = _
  simp [execTrainTimeout, hf, ht, hm, done_eq, masterGivesUp]

end Rows

/-- Taking a command moves no control frame. -/
@[simp] theorem ctlInstant_mbxTake (s : State) (g : Go) (objs : List (Nat × Nat)) (r : Option Running) :
    ctlInstant (mbxTake s g objs r) = ctlInstant s := by
  simp [ctlInstant]

/-- The state in which EPOCH_TRAIN has sent its COUNT frame. -/
def trainSent (s : State) (mb : Nat) : State :=
  sendCtl (modMoon s (fun m => { m with train := { sentAt := some (ctlInstant s), mb := some mb } })) kTrain 0 (trainArgs 1 0 0)

theorem trainSent_moon (s : State) (mb : Nat) : (trainSent s mb).moon =
    { s.moon with train := { sentAt := some (ctlInstant s), mb := some mb }, lineFree := ctlInstant s + 2560 } := rfl

theorem getMbx_trainSent (s : State) (mb n : Nat) : getMbx (trainSent s mb) n = getMbx s n := rfl

theorem trainSent_out (s : State) (mb : Nat) : (trainSent s mb).out =
    s.out ++ [.moon (ctlInstant s) false (frameBody false s.moon.epoch 0 false 0 kTrain (trainArgs 1 0 0))] := rfl

theorem exec_epochTrain {s : State} {g : Go} (h : GoReady s g false 0 []) (hm : isMaster s = true) (hs : s.moon.sealActive = false)
    (ht : s.moon.train.sentAt = none) :
    exec (.epochTrain g) s = .next (settled (mbxPark (trainSent (mbxTake s g [] none) g.mb) g.mb .train [])) := by
  show execEpochTrain g s = _
  unfold execEpochTrain
  rw [mbxRun_clear _ _ _ _ h (by simp [hm])]
  · rfl
  · rfl
  · simp [needFree, hs, ht]

/-- The delay share is the product over N rounded to the nearest (R81). -/
theorem roundShare_nearest (p l : Nat) {n : Nat} (hn : 0 < n) :
    2 * (roundShare p l n * n) ≤ 2 * (p * l) + n ∧ 2 * (p * l) < 2 * (roundShare p l n * n) + n := by
  have hle := Nat.div_mul_le_self (2 * p * l + n) (2 * n)
  have hlt : 2 * p * l + n < (2 * p * l + n) / (2 * n) * (2 * n) + 2 * n := Nat.lt_div_mul_add (by omega)
  have hr : roundShare p l n = (2 * p * l + n) / (2 * n) := if_neg (by omega)
  rw [← hr, Nat.mul_left_comm, Nat.mul_assoc 2 p l] at hle hlt
  omega

/-- Settles O15: each row by its equation, and the Moonstone block, the mailbox and the frame it leaves read back. -/
theorem moonTrainRows : Obligations.MoonTrainRows := by
  refine ⟨?counted, ?overflow, ?returned, ?returnedOverflow, ?result, ?resultFails, ?resultUnknown, ?ownResult, ?timeout, ?train, ?share⟩
  case counted =>
    intro s f h hk ho hv hc
    have hh := hop_noOverflow hv hc
    rw [exec_trainCount h hk, onTrainCount_counted (s := heardAt s f) ho]
    refine ⟨_, rfl, ?_⟩
    rw [settled_moon, trainCounted_whole hh]
    exact ⟨rfl, rfl, .settled List.prefix_rfl rfl⟩
  case overflow =>
    intro s f h hk ho hh
    rw [exec_trainCount h hk, onTrainCount_counted (s := heardAt s f) ho]
    refine ⟨_, rfl, ?_⟩
    rw [settled_moon, trainCounted_overflow hh]
    exact ⟨rfl, rfl⟩
  case returned =>
    intro s f t0 mb h hk ho ht hm hv horph
    obtain ⟨data, hd⟩ := trainReturned_whole (s := heardAt s f) t0 mb hv
    rw [exec_trainCount h hk, onTrainCount_returned (s := heardAt s f) ho ht hm, hd]
    obtain ⟨hb, hst⟩ := mbxFinish_ended (s := jetInfo (sendCtl (modMoon (heardAt s f) (masterTrained · f t0)) kTrain 0
      (trainArgs 2 (f.at_ - t0) ((frameCount f).toNat + 1))) 0x6009 srcMoon []) (mb := mb) 0 0 data horph
    refine ⟨_, rfl, ?_⟩
    rw [settled_moon, getMbx_settled, mbxOk, mbxFinish_moon]
    exact ⟨rfl, rfl, rfl, rfl, hb, hst, .settled (mbxFinish_Frame _ _ _ _ _).out rfl⟩
  case returnedOverflow =>
    intro s f t0 mb h hk ho ht hm hv horph
    rw [exec_trainCount h hk, onTrainCount_returned (s := heardAt s f) ho ht hm, trainReturned_overflow t0 mb hv]
    obtain ⟨tr, hg⟩ := masterGivesUp_moon (heardAt s f) mb
    obtain ⟨hb, hst⟩ := masterGivesUp_ended (s := heardAt s f) horph
    refine ⟨_, rfl, ?_⟩
    rw [settled_moon, getMbx_settled, hg]
    exact ⟨rfl, rfl, hb, hst⟩
  case result =>
    intro s f p h hk ho hs hp hv
    rw [exec_trainResult h hk, onTrainResult_trained (s := heardAt s f) ho hs hp hv]
    refine ⟨_, rfl, ?_⟩
    rw [settled_moon]
    exact ⟨rfl, rfl, rfl, rfl, rfl, .settled List.prefix_rfl rfl⟩
  case resultFails =>
    intro s f p h hk ho hs hp
    rw [exec_trainResult h hk, onTrainResult_failed (s := heardAt s f) ho (.inr ⟨p, hs, hp⟩)]
    refine ⟨_, rfl, ?_⟩
    rw [settled_moon]
    exact ⟨trainFailed_untrained _, trainFailed_delayNext _⟩
  case resultUnknown =>
    intro s f h hk ho hs
    rw [exec_trainResult h hk, onTrainResult_failed (s := heardAt s f) ho (.inl hs)]
    refine ⟨_, rfl, ?_⟩
    rw [settled_moon]
    exact ⟨trainFailed_untrained _, trainFailed_delayNext _⟩
  case ownResult =>
    intro s f h hk ho
    rw [exec_trainResult h hk, onTrainResult_own (s := heardAt s f) ho]
    exact ⟨_, rfl, settled_moon _, settled_moonOut _⟩
  case timeout =>
    intro s t0 mb hf ht hm horph
    obtain ⟨tr, hg⟩ := masterGivesUp_moon s mb
    refine ⟨_, exec_trainTimeout hf ht hm, ?_⟩
    rw [settled_moon, getMbx_settled, hg]
    exact ⟨rfl, masterGivesUp_ended horph⟩
  case train =>
    intro s g h hm hs ht
    have hg := mbxTake_getMbx s g [] none
    have hrun := mbxPark_runs (trainSent (mbxTake s g [] none) g.mb) g .train [] (by rw [getMbx_trainSent, hg]) (by rw [getMbx_trainSent, hg])
    refine ⟨_, exec_epochTrain h hm hs ht, ?_, hrun.settled, .settled List.prefix_rfl ?_⟩
    · simp [trainSent_moon]
    · simp [trainSent_out]
  case share =>
    intro p l n hn
    exact roundShare_nearest p l hn

end Sys2Proof.Machine
end

section
/-! PROOFS. Seals: the end of a seal with what it leaves as it is, what each device does with a SEAL frame, one equation per row, then
the state each leaves. -/

namespace Sys2Proof.Machine

/-! ### What a fault and a record of a seal may change -/

theorem fault_Frame (s : State) (a : FaultArg) :
    Frame [.pins, .moon, .links, .partners, .pcie, .jade, .jet] s (fault s a) := by
  have ho := fault_out s a
  obtain ⟨_, _, _, _, _, _, _, _, _, _, _, _, _, _, _, _, _, _, _, _, _, _, h⟩ := fault_faultFrame s a
  rw [h] at ho ⊢
  constructor <;> first | exact ho | (intros; rfl) | (intro hn; simp at hn)

theorem jetInfo_Frame (s : State) (code src : BitVec 16) (data : List Byte) : Frame [.jet] s (jetInfo s code src data) := by
  constructor <;> first | exact List.prefix_rfl | (intros; rfl) | (intro h; simp at h)

theorem mapVols_Frame (s : State) (f : Vol → Vol) : Frame [.vols] s (mapVols s f) := by
  constructor <;> first | exact List.prefix_rfl | (intros; rfl) | (intro h; simp at h)

theorem sendCtl_Frame (s : State) (command : Nat) (origin : BitVec 10) (args : List Byte) :
    Frame [.moon] s (sendCtl s command origin args) :=
  (modMoon_Frame s _).trans ((emit_Frame _ _).mono (by simp))

theorem sendAwaited_Frame (s : State) (l t seq : Nat) (r : Rec) : Frame [.partners] s (sendAwaited s l t seq r) :=
  (setPartner_Frame s l _).trans (.foldl _ (fun u _ => partnerSend_Frame u _ _) _ _)

theorem pushCtl_Frame (s : State) (t : Nat) (r : Rec) : Frame [.tiles, .partners] s (pushCtl s t r) := by
  unfold pushCtl
  dsimp only
  split
  · exact (setTile_Frame s t _).mono (by simp)
  · exact ((setTile_Frame s t _).mono (by simp)).trans ((sendAwaited_Frame _ _ _ _ _).mono (by simp))

theorem appendCtl_Frame (s : State) (t : Nat) (kind : RecKind) (epoch : BitVec 48) (ref : Nat) (aux : BitVec 32) :
    Frame [.tiles, .partners] s (appendCtl s t kind epoch ref aux) := by
  unfold appendCtl
  dsimp only
  split
  exacts [pushCtl_Frame s t _, (setTile_Frame s t _).mono (by simp)]

theorem sealRecord_Frame (s : State) (phase : Nat) : Frame [.tiles, .partners] s (sealRecord s phase) :=
  .foldl _ (fun u _ => appendCtl_Frame u _ _ _ _ _) _ s

/-! ### The end of a seal (R108, R119) -/

/-- The Moonstone block once a seal has ended. -/
def moonSealOver (m : Moon) (ok : Bool) : Moon :=
  { m with sealActive := false, sealDone := m.sealDone || ok, sealFailed := m.sealFailed || !ok
           sealSt := { m.sealSt with phase := if ok then 3 else 4, takesPart := false, frozen := false, stored := false } }

/-- The state in which a seal has ended, its end not yet reported. -/
def sealOver (s : State) (ok : Bool) : State :=
  modMoon (mapVols (if s.moon.sealSt.frozen then sealRecord s (if ok then 3 else 4) else s) (if ok then keepVol else thawVol))
    (moonSealOver · ok)

theorem endSeal_eq (s : State) (ok marked : Bool) : endSeal s ok marked =
    if ok then jetInfo (sealOver s ok) 0x600B srcMoon []
    else fault (sealOver s ok) { code := 0x600C, cls := 1, src := srcMoon, marked := marked } := rfl

theorem sealOver_moon (s : State) (ok : Bool) : (sealOver s ok).moon = moonSealOver s.moon ok := by
  unfold sealOver
  split
  · simp only [modMoon, mapVols, (sealRecord_Frame s _).moon (by simp)]
  · rfl

theorem sealOver_Frame (s : State) (ok : Bool) : Frame [.tiles, .partners, .vols, .moon] s (sealOver s ok) := by
  unfold sealOver
  refine Frame.trans ?_ (((mapVols_Frame _ _).mono (by simp)).trans ((modMoon_Frame _ _).mono (by simp)))
  split
  exacts [(sealRecord_Frame s _).mono (by simp), .refl _ s]

theorem endSeal_moon (s : State) (ok marked : Bool) :
    ∃ tr, (endSeal s ok marked).moon = { moonSealOver s.moon ok with trained := tr } := by
  rw [endSeal_eq]
  split
  · exact ⟨s.moon.trained, by rw [jetInfo_moon, sealOver_moon]; rfl⟩
  · obtain ⟨tr, h⟩ := fault_moon (sealOver s ok) { code := 0x600C, cls := 1, src := srcMoon, marked := marked }
    exact ⟨tr, by rw [h, sealOver_moon]⟩

theorem endSeal_Frame (s : State) (ok marked : Bool) :
    Frame [.tiles, .vols, .pins, .moon, .links, .partners, .pcie, .jade, .jet] s (endSeal s ok marked) := by
  rw [endSeal_eq]
  refine Frame.trans ((sealOver_Frame s ok).mono (by simp)) ?_
  split
  exacts [(jetInfo_Frame _ _ _ _).mono (by simp), (fault_Frame _ _).mono (by simp)]

/-- The master's own end of a seal leaves Moonstone as `endSeal` does, with DONE or FAILED sent. -/
theorem masterEnds_moon (s : State) (ok : Bool) :
    ∃ tr lf, (masterEnds s ok).moon = { moonSealOver s.moon ok with trained := tr, lineFree := lf } := by
  obtain ⟨tr, h⟩ := endSeal_moon (sendCtl s kSeal 0 (sealArgs (if ok then 3 else 4)
    { sealEpoch := s.moon.sealSt.es, accepted := BitVec.ofNat 16 s.moon.sealSt.accepted
      finished := BitVec.ofNat 16 s.moon.sealSt.finished, withdrawn := BitVec.ofNat 16 s.moon.sealSt.withdrawn })) ok false
  exact ⟨tr, _, h⟩

theorem masterEnds_mbx (s : State) (ok : Bool) : (masterEnds s ok).mbx = s.mbx := (endSeal_Frame _ _ _).mbx (by simp)

/-! ### SEAL frames (R105-R108) -/

section Frames

variable {s : State} {f : MoonFrame}

theorem exec_announce (h : FrameIn s f) (hk : frameIs f kSeal (some 1) = true) :
    exec (.announce f.sync f.body) s = .next (settled (onAnnounce f (heardAt s f))) := onFrame_row _ h hk

theorem exec_poll (h : FrameIn s f) (hk : frameIs f kSeal (some 2) = true) :
    exec (.poll f.sync f.body) s = .next (settled (onPoll f (heardAt s f))) := onFrame_row _ h hk

theorem exec_done (h : FrameIn s f) (hk : frameIs f kSeal (some 3) = true) :
    exec (.done f.sync f.body) s = .next (settled (onSealEnd f true (heardAt s f))) := onFrame_row _ h hk

theorem exec_failed (h : FrameIn s f) (hk : frameIs f kSeal (some 4) = true) :
    exec (.failed f.sync f.body) s = .next (settled (onSealEnd f false (heardAt s f))) := onFrame_row _ h hk

/-- DONE and FAILED end the seal alike, but for what they say of it. -/
theorem exec_sealEnd {c : Instr} (h : FrameIn s f) (hc : (c = .done f.sync f.body ∧ frameIs f kSeal (some 3) = true) ∨
    (c = .failed f.sync f.body ∧ frameIs f kSeal (some 4) = true)) : ∃ ok, exec c s = .next (settled (onSealEnd f ok (heardAt s f))) := by
  obtain ⟨rfl, hk⟩ | ⟨rfl, hk⟩ := hc
  exacts [⟨true, exec_done h hk⟩, ⟨false, exec_failed h hk⟩]

theorem onAnnounce_joined (ho : ownFrame s f false = false) : onAnnounce f s = forwardFrame (joinSeal s (frameSeal f)) f
    [(22, 2, (countSeal (canSeal s) (frameSeal f)).accepted.toNat), (26, 2, (countSeal (canSeal s) (frameSeal f)).withdrawn.toNat)] := by
  simp [onAnnounce, ho]

theorem onAnnounce_returned (ho : ownFrame s f false = true) (ha : s.moon.sealActive = true)
    (he : s.moon.sealSt.es = (frameSeal f).sealEpoch) : onAnnounce f s = modMoon s (fun m => { m with sealSt := { m.sealSt with
      accepted := (frameSeal f).accepted.toNat, withdrawn := (frameSeal f).withdrawn.toNat, announceCount := some (frameCount f) } }) := by
  simp [onAnnounce, ho, ha, he]

/-- The number of devices that have finished, as this device sends a POLL on (R107). -/
def countFinished (s : State) (f : MoonFrame) : BitVec 16 :=
  if hasFinished s (frameSeal f) = true then (frameSeal f).finished + 1 else (frameSeal f).finished

theorem onPoll_counted (ho : ownFrame s f false = false) (ha : s.moon.sealActive = true) : onPoll f s =
    forwardFrame (modMoon s (fun m => { m with sealSt := { m.sealSt with phase := 2, finished := (countFinished s f).toNat } })) f
      [(24, 2, (countFinished s f).toNat)] := by
  simp [onPoll, ho, ha, modMoon, countFinished]

/-- The count of finished devices that a POLL back at the master brings (R108). -/
def pollNoted (s : State) (f : MoonFrame) : State :=
  modMoon s (fun m => { m with sealSt := { m.sealSt with finished := (frameSeal f).finished.toNat } })

section Returned

variable (ho : ownFrame s f false = true) (ha : s.moon.sealActive = true) (he : s.moon.sealSt.es = (frameSeal f).sealEpoch)

include ho ha he

/-- A POLL of another COUNT than the ANNOUNCE: the ring has changed, and the seal fails (R108). -/
theorem onPoll_ringChanged (hc : s.moon.sealSt.announceCount ≠ some (frameCount f)) :
    onPoll f s = masterEnds (pollNoted s f) false := by
  simp [onPoll, pollReturned, ho, ha, he, modMoon, pollNoted, hc]

/-- Every device that accepted has finished (R108). -/
theorem onPoll_allFinished (hc : s.moon.sealSt.announceCount = some (frameCount f))
    (hf : (frameSeal f).finished = (frameSeal f).accepted) : onPoll f s = masterEnds (pollNoted s f) true := by
  simp [onPoll, pollReturned, ho, ha, he, modMoon, pollNoted, hc, hf]

theorem onPoll_someUnfinished (hc : s.moon.sealSt.announceCount = some (frameCount f))
    (hf : (frameSeal f).finished ≠ (frameSeal f).accepted) : onPoll f s = pollNoted s f := by
  simp [onPoll, pollReturned, ho, ha, he, modMoon, pollNoted, hc, hf]

end Returned

theorem onSealEnd_own (ok : Bool) (ho : ownFrame s f false = true) : onSealEnd f ok s = s := if_pos ho

theorem onSealEnd_passed (ok : Bool) (ho : ownFrame s f false = false) (ha : s.moon.sealActive = false) :
    onSealEnd f ok s = forwardFrame s f [] := by
  simp [onSealEnd, ho, ha]

/-- The counts that DONE or FAILED brings (R108). -/
def sealNoted (s : State) (f : MoonFrame) : State :=
  modMoon s (fun m => { m with sealSt := { m.sealSt with
    accepted := (frameSeal f).accepted.toNat, finished := (frameSeal f).finished.toNat, withdrawn := (frameSeal f).withdrawn.toNat } })

theorem onSealEnd_ended (ok : Bool) (ho : ownFrame s f false = false) (ha : s.moon.sealActive = true) :
    onSealEnd f ok s = endSeal (sealNoted (forwardFrame s f []) f) ok := by
  simp [onSealEnd, ho, ha, sealNoted]

end Frames

/-! ### The device's own rows (R107-R109) -/

section Local

variable {s : State} (hf : fwUp s = true) (ha : s.moon.sealActive = true)

theorem exec_sealMapsStored (hs : serving s = true) (ha : s.moon.sealActive = true) (ht : s.moon.sealSt.takesPart = true)
    (hz : s.moon.sealSt.frozen = true) (hst : s.moon.sealSt.stored = false) (hm : mapsOut s = false)
    (hd : sealDrained s s.moon.sealSt.es = true) : exec .sealMapsStored s =
      .next (settled (modMoon s (fun m => { m with sealSt := { m.sealSt with stored := true } }))) := by
  show execSealMapsStored s = _
  simp [execSealMapsStored, hs, ha, ht, hz, hst, hm, hd, done_eq]

include hf ha

theorem exec_sealTimeout (hm : isMaster s = true) : exec .sealTimeout s = .next (settled (masterEnds s false)) := by
  show execSealTimeout s = _
  simp [execSealTimeout, hf, hm, ha, done_eq]

/-- A device that takes part ends the seal itself (R109). -/
theorem exec_sealLocalEnd_part (ht : s.moon.sealSt.takesPart = true) :
    exec .sealLocalEnd s = .next (settled (endSeal s false)) := by
  show execSealLocalEnd s = _
  simp [execSealLocalEnd, hf, ha, ht, done_eq]

theorem exec_sealLocalEnd_apart (ht : s.moon.sealSt.takesPart = false) :
    exec .sealLocalEnd s = .next (settled (modMoon s (fun m => { m with sealActive := false }))) := by
  show execSealLocalEnd s = _
  simp [execSealLocalEnd, hf, ha, ht, done_eq]

end Local

/-! ### EPOCH_SEAL (R105, R108) -/

/-- Taking a command leaves the earliest E_s as it is. -/
@[simp] theorem earliestSeal_mbxTake (s : State) (g : Go) (objs : List (Nat × Nat)) (r : Option Running) :
    earliestSeal (mbxTake s g objs r) = earliestSeal s := by
  simp [earliestSeal, nextPeriodNs, nextCode, storedPeriod, isMaster]

/-- The state in which EPOCH_SEAL has begun a seal of epoch `e`, its ANNOUNCE sent. -/
def sealBegun (s : State) (e : Nat) : State :=
  sendCtl (joinSeal s { sealEpoch := BitVec.ofNat 48 e, accepted := 0, finished := 0, withdrawn := 0 }) kSeal 0
    (sealArgs 1 (countSeal (canSeal s) { sealEpoch := BitVec.ofNat 48 e, accepted := 0, finished := 0, withdrawn := 0 }))

theorem getMbx_sealBegun (s : State) (e n : Nat) : getMbx (sealBegun s e) n = getMbx s n := rfl

section Command

variable {s : State} {g : Go} (h : GoReady s g false 16 []) (hm : isMaster s = true)

include h hm

/-- EPOCH_SEAL that leaves the epoch to the device. -/
theorem exec_epochSeal_earliest (ha : s.moon.sealActive = false) : exec (.epochSeal g 0 0) s =
    .next (settled (mbxOk (sealBegun (mbxTake s g [] none) (earliestSeal s)) g.mb (leBytes 8 (earliestSeal s)))) := by
  show execEpochSeal g 0 0 s = _
  unfold execEpochSeal
  rw [mbxRun_clear _ _ _ _ h (by simp [hm])]
  · simp [done_eq, sealBegun]
  · rfl
  · simp [needFree, ha]

theorem exec_epochSeal_early {es : BitVec 64} (h0 : es ≠ 0) (hlt : es.toNat < 2 ^ 48) (he : sealLateEnough s es.toNat = false) :
    exec (.epochSeal g 0 es) s = .next (settled (mbxFinish (mbxTake s g [] (some .waiting)) g.mb 0x0002 8 [])) := by
  have hn : (es != 0#64) = true := bne_iff_ne.2 h0
  show execEpochSeal g 0 es s = _
  unfold execEpochSeal
  rw [mbxRun_fails (c := { fails := true, status := 0x0002, detail := 8 }) _ _ _ _ h (by simp [hm])]
  · rfl
  · simpa using hlt
  · simp [firstFailing, hn, he]

theorem exec_sealFailRequest {es : BitVec 64} (ha : s.moon.sealActive = true) (hlt : es.toNat < 2 ^ 48) :
    exec (.sealFailRequest g 1 es) s = .next (settled (mbxOk (masterEnds (mbxTake s g [] none) false) g.mb
      (leBytes 8 s.moon.sealSt.es.toNat))) := by
  show execSealFailRequest g 1 es s = _
  unfold execSealFailRequest
  rw [mbxRun_clear _ _ _ _ h (by simp [hm])]
  · simp [done_eq]
  · simpa using hlt
  · simp [needRunning, ha]

end Command

/-- Settles O16: each row by its equation, and the Moonstone block, the mailbox and the frame it leaves read back. -/
theorem moonSealRows : Obligations.MoonSealRows := by
  refine ⟨?announce, ?announceReturned, ?poll, ?pollDone, ?pollWaits, ?pollFails, ?done, ?failed, ?ownEnd, ?noSeal, ?stored, ?timeout,
    ?localEnd, ?begin, ?early, ?request⟩
  case announce =>
    intro s f h hk ho
    rw [exec_announce h hk, onAnnounce_joined (s := heardAt s f) ho]
    refine ⟨_, rfl, ?_⟩
    rw [settled_moon]
    exact ⟨rfl, rfl, rfl, rfl, .settled List.prefix_rfl rfl⟩
  case announceReturned =>
    intro s f h hk ho ha he
    rw [exec_announce h hk, onAnnounce_returned (s := heardAt s f) ho ha he]
    exact ⟨_, rfl, settled_moonOut _, settled_moon _⟩
  case poll =>
    intro s f h hk ho ha
    rw [exec_poll h hk, onPoll_counted (s := heardAt s f) ho ha]
    refine ⟨_, rfl, ?_⟩
    rw [settled_moon]
    exact ⟨rfl, .settled List.prefix_rfl rfl⟩
  case pollDone =>
    intro s f h hk ho ha he hc hf
    rw [exec_poll h hk, onPoll_allFinished (s := heardAt s f) ho ha he hc hf]
    obtain ⟨tr, lf, hm⟩ := masterEnds_moon (pollNoted (heardAt s f) f) true
    refine ⟨_, rfl, ?_⟩
    rw [settled_moon, hm]
    exact ⟨rfl, Bool.or_true _, Bool.or_false _, rfl, rfl⟩
  case pollWaits =>
    intro s f h hk ho ha he hc hf
    rw [exec_poll h hk, onPoll_someUnfinished (s := heardAt s f) ho ha he hc hf]
    refine ⟨_, rfl, ?_⟩
    rw [settled_moon]
    exact ⟨ha, rfl⟩
  case pollFails =>
    intro s f h hk ho ha he hc
    rw [exec_poll h hk, onPoll_ringChanged (s := heardAt s f) ho ha he hc]
    obtain ⟨tr, lf, hm⟩ := masterEnds_moon (pollNoted (heardAt s f) f) false
    refine ⟨_, rfl, ?_⟩
    rw [settled_moon, hm]
    exact ⟨rfl, Bool.or_true _, rfl⟩
  case done =>
    intro s f h hk ho ha
    rw [exec_done h hk, onSealEnd_ended (s := heardAt s f) true ho ha]
    obtain ⟨tr, hm⟩ := endSeal_moon (sealNoted (forwardFrame (heardAt s f) f []) f) true false
    refine ⟨_, rfl, ?_⟩
    rw [settled_moon, hm]
    exact ⟨rfl, Bool.or_true _, rfl, rfl, Bool.or_false _, .settled (endSeal_Frame _ _ _).out rfl⟩
  case failed =>
    intro s f h hk ho ha
    rw [exec_failed h hk, onSealEnd_ended (s := heardAt s f) false ho ha]
    obtain ⟨tr, hm⟩ := endSeal_moon (sealNoted (forwardFrame (heardAt s f) f []) f) false false
    refine ⟨_, rfl, ?_⟩
    rw [settled_moon, hm]
    exact ⟨rfl, Bool.or_true _, rfl, Bool.or_false _⟩
  case ownEnd =>
    intro s f c h hc ho
    obtain ⟨ok, hx⟩ := exec_sealEnd h hc
    rw [hx, onSealEnd_own (s := heardAt s f) ok ho]
    exact ⟨_, rfl, settled_moon _, settled_moonOut _⟩
  case noSeal =>
    intro s f c h hc ho ha
    obtain ⟨ok, hx⟩ := exec_sealEnd h hc
    rw [hx, onSealEnd_passed (s := heardAt s f) ok ho ha]
    exact ⟨_, rfl, settled_moon _, .settled List.prefix_rfl rfl⟩
  case stored =>
    intro s hs ha ht hz hst hm hd
    exact ⟨_, exec_sealMapsStored hs ha ht hz hst hm hd, by rw [settled_moon]; rfl⟩
  case timeout =>
    intro s hf hm ha
    obtain ⟨tr, lf, hmoon⟩ := masterEnds_moon s false
    refine ⟨_, exec_sealTimeout hf ha hm, ?_⟩
    rw [settled_moon, hmoon]
    exact ⟨rfl, Bool.or_true _⟩
  case localEnd =>
    intro s hf ha
    cases ht : s.moon.sealSt.takesPart
    case true =>
      obtain ⟨tr, hm⟩ := endSeal_moon s false false
      refine ⟨_, exec_sealLocalEnd_part hf ha ht, ?_⟩
      rw [settled_moon, hm]
      exact ⟨rfl, Bool.or_false _, rfl⟩
    case false =>
      refine ⟨_, exec_sealLocalEnd_apart hf ha ht, ?_⟩
      rw [settled_moon]
      exact ⟨rfl, rfl, (Bool.or_false _).symm⟩
  case begin =>
    intro s g h hm ha
    refine ⟨_, exec_epochSeal_earliest h hm ha, ?_, ?_, Answered.settled (mbxOk_answered _ _ _ ?_ ?_)⟩
    · rw [settled_moon, mbxOk, mbxFinish_moon]
      rfl
    · rw [settled_moon, mbxOk, mbxFinish_moon]
      rfl
    · rw [getMbx_sealBegun, mbxTake_getMbx]
    · rw [getMbx_sealBegun, mbxTake_getMbx]
  case early =>
    intro s g es h hm h0 hlt he
    refine ⟨_, exec_epochSeal_early h hm h0 hlt he, ?_⟩
    simp [mbxFinish]
  case request =>
    intro s g es h hm ha hlt
    obtain ⟨tr, lf, hmoon⟩ := masterEnds_moon (mbxTake s g [] none) false
    have hg : getMbx (masterEnds (mbxTake s g [] none) false) g.mb = getMbx (mbxTake s g [] none) g.mb := by
      rw [getMbx, masterEnds_mbx]
      rfl
    refine ⟨_, exec_sealFailRequest h hm ha hlt, ?_, ?_, Answered.settled (mbxOk_answered _ _ _ ?_ ?_)⟩
    · rw [settled_moon, mbxOk, mbxFinish_moon, hmoon]
      rfl
    · rw [settled_moon, mbxOk, mbxFinish_moon, hmoon]
      exact Bool.or_true _
    · rw [hg, mbxTake_getMbx]
    · rw [hg, mbxTake_getMbx]

end Sys2Proof.Machine
end

section
/-! PROOFS. The epoch registers, commands and the local edge: one equation per row and case, then the state each leaves. -/

namespace Sys2Proof.Machine

/-! ### EPOCH_NOW (R116) -/

section Registers

variable {s : State} (hr : running s = true) (hd : canDma s 0 = true)

include hr hd

theorem exec_epochNowRead_wide (upper : Bool) :
    exec (.epochNowRead true upper) s = .next (settled (emit s (.readData (BitVec.ofNat 64 (epochNow s))))) := by
  show execEpochNowRead true upper s = _
  simp [execEpochNowRead, hr, hd, done_eq]

/-- A read of the lower half latches the upper one. -/
theorem exec_epochNowRead_lower : exec (.epochNowRead false false) s =
    .next (settled (emit (modMoon s (fun m => { m with latch := some (BitVec.ofNat 32 (wordOf (epochNow s) 1)) }))
      (.readData (BitVec.ofNat 64 (wordOf (epochNow s) 0))))) := by
  show execEpochNowRead false false s = _
  simp [execEpochNowRead, hr, hd, done_eq]

/-- A read of the upper half takes the latch (log entry 105). -/
theorem exec_epochNowRead_upper {v : W32} (hl : s.moon.latch = some v) : exec (.epochNowRead false true) s =
    .next (settled (emit (modMoon s (fun m => { m with latch := none })) (.readData (v.setWidth 64)))) := by
  show execEpochNowRead false true s = _
  simp [execEpochNowRead, hr, hd, hl, done_eq]

end Registers

/-! ### Commands that answer at once (R470, R477) -/

/-- GO on a free mailbox for a command that the device's role refuses: 0x0101. -/
theorem mbxRun_refused {s : State} {g : Go} {vf : Bool} {len : Nat} {objs : List (Nat × Nat)} (fields : List (Nat × Bool))
    (checks : List Check) (effect : State → State) (h : GoReady s g vf len objs) :
    mbxRun s g vf true len fields checks objs effect =
      .next (settled (mbxFinish (mbxTake s g objs (some .waiting)) g.mb 0x0101 0 [])) := by
  obtain ⟨hfw, hre, hb, hcl, hm, hh, hfr, hl, hbl⟩ := h
  have hgate : (g.mb != 0 && !vf) = false := by rcases hm with h | h <;> simp [h]
  simp [mbxRun, hre, hb, gateChecks, firstFailing, hfw, hcl, hbl, hgate, done_eq]

theorem mbxOk_mbxTake_answered (s : State) (g : Go) (objs : List (Nat × Nat)) (data : List Byte) :
    Answered (settled (mbxOk (mbxTake s g objs none) g.mb data)) g data :=
  (mbxOk_answered _ _ _ (by simp) (by simp)).settled

theorem mbxOk_mbxTake_moon (s : State) (g : Go) (objs : List (Nat × Nat)) (data : List Byte) :
    (settled (mbxOk (mbxTake s g objs none) g.mb data)).moon = s.moon := by
  simp [mbxOk]

section Commands

variable {s : State} {g : Go}

theorem exec_epochSealStatus (h : GoReady s g false 0 []) : exec (.epochSealStatus g) s =
    .next (settled (mbxOk (mbxTake s g [] none) g.mb (leBytes 2 s.moon.sealSt.phase ++ leBytes 2 s.moon.sealSt.accepted ++
      leBytes 2 s.moon.sealSt.finished ++ leBytes 2 s.moon.sealSt.withdrawn ++ leBytes 8 s.moon.sealSt.es.toNat))) := by
  show execEpochSealStatus g s = _
  unfold execEpochSealStatus
  rw [mbxRun_clear _ _ _ _ h rfl rfl rfl]
  simp [done_eq]

theorem exec_epochStats (h : GoReady s g false 0 []) : exec (.epochStats g) s =
    .next (settled (mbxOk (mbxTake s g [] none) g.mb
      ([s.moon.nMisses, s.moon.nHoldovers, s.moon.nRephases, s.moon.nFalseMarks, s.moon.nCrcFails].flatMap (leBytes 4)))) := by
  show execEpochStats g s = _
  unfold execEpochStats
  rw [mbxRun_clear _ _ _ _ h rfl rfl rfl]
  simp [done_eq]

theorem writeBufMem_Frame (s : State) (fn : Nat) (b : SegDesc) (len : Nat) (data : Mem) : Frame [.pcie] s (writeBufMem s fn b len data) := by
  unfold writeBufMem
  dsimp only
  split
  · exact .refl _ s
  · exact hostWrite_Frame _ _ _ _ _ _

/-- The map that EPOCH_CMAP_READ gives of a volume: without a frozen one, FULL with clear bits (log entry 21). -/
def cmapOf (s : State) (vol : Nat) : FrozenMap := (getVol s vol).frozen.getD { bits := [], full := true }

/-- The rows of the volume's pool. -/
def cmapRows (s : State) (vol : Nat) : Nat := (poolCfg s (volCfg s vol).pool).poolRows

/-- The response data of EPOCH_CMAP_READ: g, FULL and the length of the map (R111). -/
def cmapHeader (s : State) (vol : Nat) : List Byte :=
  leBytes 1 (mapShift (cmapRows s vol)) ++ leBytes 1 (cmapOf s vol).full.toNat ++ leBytes 2 0 ++ leBytes 4 (mapLen (cmapRows s vol))

theorem cmapHeader_length (s : State) (vol : Nat) : (cmapHeader s vol).length = 8 := by
  simp [cmapHeader, leBytes]

theorem exec_epochCmapRead {vol : Nat} {buf : SegDesc} (h : GoReady s g false 24 [objVol vol]) (hb : badBuf buf = false)
    (hp : s.phase = .ready) (hv : vol < s.part.volumes) (hm : fnMayVol s g.mb vol = true) (hc : (volCfg? s vol).isSome = true)
    (hr : volReserved s vol = false) : exec (.epochCmapRead g vol buf) s =
      .next (settled (mbxOk (writeBufMem (mbxTake s g [objVol vol] none) g.mb buf (mapLen (cmapRows s vol))
        (mapBytes (cmapOf s vol).bits)) g.mb (cmapHeader s vol))) := by
  show execEpochCmapRead g vol buf s = _
  unfold execEpochCmapRead
  rw [mbxRun_clear _ _ _ _ h rfl]
  · simp [done_eq, cmapHeader, cmapOf, cmapRows, poolCfg, poolCfg?, volCfg, volCfg?, getVol]
  · simp [hb]
  · simp [volObj, needVol, needReplay, hp, hv, hm, hc, hr]

/-! ### EPOCH_CONFIG (R118, Table 2-13) -/

/-- A master that is to be one no longer says so in a HOLDOVER frame (R118). -/
def masterLeaves (s : State) (role : Nat) : State :=
  if isMaster s ∧ role ≠ 1 then sendCtl s kHoldover 0 (holdoverArgs 1) else s

/-- The state in which EPOCH_CONFIG has taken effect. -/
def epochConfigured (s : State) (p : EpochParams) : State :=
  modMoon { masterLeaves s p.role with cfg := { (masterLeaves s p.role).cfg with
      epochRole := p.role, epochGuard := p.guard, dlyAdj := p.dlyAdj, sealTimeoutMs := p.sealTimeoutMs
      epochPeriod := if p.periodValid then p.period else (masterLeaves s p.role).cfg.epochPeriod } } (fun m =>
    { m with role := p.role, guardNext := if p.guard = m.guard then none else some p.guard, dlyAdj := p.dlyAdj
             sealTimeoutMs := p.sealTimeoutMs, contained := false
             periodSet := if p.periodValid then some p.period else m.periodSet })

theorem masterLeaves_Frame (s : State) (role : Nat) : Frame [.moon] s (masterLeaves s role) := by
  unfold masterLeaves
  split
  exacts [sendCtl_Frame s _ _ _, .refl _ s]

theorem masterLeaves_moon (s : State) (role : Nat) : ∃ lf, (masterLeaves s role).moon = { s.moon with lineFree := lf } := by
  unfold masterLeaves
  split
  exacts [⟨_, rfl⟩, ⟨_, rfl⟩]

theorem epochConfigured_moon (s : State) (p : EpochParams) : ∃ lf, (epochConfigured s p).moon =
    { s.moon with
      lineFree := lf, role := p.role, guardNext := if p.guard = s.moon.guard then none else some p.guard, dlyAdj := p.dlyAdj
      sealTimeoutMs := p.sealTimeoutMs, contained := false
      periodSet := if p.periodValid then some p.period else s.moon.periodSet } := by
  obtain ⟨lf, h⟩ := masterLeaves_moon s p.role
  exact ⟨lf, by simp only [epochConfigured, modMoon, h]⟩

theorem getMbx_epochConfigured (s : State) (p : EpochParams) (n : Nat) : getMbx (epochConfigured s p) n = getMbx s n := by
  have h : (epochConfigured s p).mbx = s.mbx := (masterLeaves_Frame s p.role).mbx (by simp)
  rw [getMbx, h, getMbx]

theorem exec_epochConfig {p : EpochParams} (h : GoReady s g false 12 []) (hm : (p.periodValid && !isMaster s) = false)
    (hro : p.role ≤ 2) (hg1 : 4 ≤ p.guard) (hg2 : p.guard ≤ 16) (hpe : p.period ≤ 6) (hd1 : -1000 ≤ p.dlyAdj) (hd2 : p.dlyAdj ≤ 1000)
    (ht1 : 100 ≤ p.sealTimeoutMs) (ht2 : p.sealTimeoutMs ≤ 60000) (ha : s.moon.sealActive = false) :
    exec (.epochConfig g p) s = .next (settled (mbxStore (epochConfigured (mbxTake s g [] none) p) g.mb [])) := by
  show execEpochConfig g p s = _
  unfold execEpochConfig
  rw [mbxRun_clear _ _ _ _ h hm]
  · rfl
  · simp [hro, hg1, hg2, hpe, hd1, hd2, ht1, ht2]
  · simp [needFree, ha]

/-- A PERIOD given to a device that is not the master. -/
theorem exec_epochConfig_refused {p : EpochParams} (h : GoReady s g false 12 []) (hp : p.periodValid = true) (hm : isMaster s = false) :
    exec (.epochConfig g p) s = .next (settled (mbxFinish (mbxTake s g [] (some .waiting)) g.mb 0x0101 0 [])) := by
  have hr : (p.periodValid && !isMaster s) = true := by simp [hp, hm]
  show execEpochConfig g p s = _
  unfold execEpochConfig
  rw [hr]
  exact mbxRun_refused _ _ _ h

end Commands

/-! ### The local edge (R66, R68, R69) -/

theorem writeStore_Frame (s : State) (t : Nat) : Frame [.tiles] s (writeStore s t) := setTile_Frame s t _

theorem storeEpoch_Frame (s : State) (was : BitVec 48) : Frame [.tiles] s (storeEpoch s was) := by
  unfold storeEpoch
  split
  exacts [.refl _ s, .foldl writeStore writeStore_Frame _ s]

/-- Before firmware is up the epoch alone advances. -/
theorem exec_epochEdge_early {s : State} (hr : running s = true) (hf : fwUp s = false) :
    exec .epochEdge s = .next (settled (storeEpoch (advanceEpoch s) s.moon.epoch)) := by
  show execEpochEdge s = _
  simp [execEpochEdge, hr, hf, done_eq]

theorem exec_epochEdge {s : State} (hr : running s = true) (hf : fwUp s = true) :
    exec .epochEdge s = .next (settled (relaunchAll (edgeWork s))) := by
  show execEpochEdge s = _
  simp [execEpochEdge, hr, hf, done_eq]

/-- Settles O17: each row by its equation, and the Moonstone block, the mailbox and the word it leaves read back. -/
theorem moonCommandRows : Obligations.MoonCommandRows := by
  refine ⟨?wide, ?lower, ?upper, ?config, ?refused, ?status, ?cmap, ?stats, ?early, ?edge, ?advance⟩
  case wide =>
    intro s hr hd
    exact ⟨_, exec_epochNowRead_wide hr hd false, .settled List.prefix_rfl rfl, settled_moon _⟩
  case lower =>
    intro s hr hd
    exact ⟨_, exec_epochNowRead_lower hr hd, .settled List.prefix_rfl rfl, by rw [settled_moon]; rfl⟩
  case upper =>
    intro s v hr hd hl
    exact ⟨_, exec_epochNowRead_upper hr hd hl, .settled List.prefix_rfl rfl, by rw [settled_moon]; rfl⟩
  case config =>
    intro s g p h hm hro hg1 hg2 hpe hd1 hd2 ht1 ht2 ha
    obtain ⟨lf, hl⟩ := epochConfigured_moon (mbxTake s g [] none) p
    have hg := (getMbx_epochConfigured (mbxTake s g [] none) p g.mb).trans (mbxTake_getMbx s g [] none)
    refine ⟨_, exec_epochConfig h hm hro hg1 hg2 hpe hd1 hd2 ht1 ht2 ha, ?_⟩
    rw [settled_moon, settled_cfg, mbxStore, mbxPark_moon, mbxPark_cfg, hl, mbxTake_moon]
    exact ⟨rfl, rfl, rfl, rfl, rfl, rfl, rfl, (mbxPark_runs _ _ _ _ (congrArg Mailbox.busy hg) (congrArg Mailbox.cmdId hg)).settled⟩
  case refused =>
    intro s g p h hp hm
    refine ⟨_, exec_epochConfig_refused h hp hm, ?_⟩
    simp [mbxFinish]
  case status =>
    intro s g h
    exact ⟨_, exec_epochSealStatus h, mbxOk_mbxTake_moon _ _ _ _, mbxOk_mbxTake_answered _ _ _ _⟩
  case cmap =>
    intro s g vol buf h hb hp hv hm hc hr
    refine ⟨_, exec_epochCmapRead h hb hp hv hm hc hr, ?_⟩
    have hw := writeBufMem_Frame (mbxTake s g [objVol vol] none) g.mb buf (mapLen (cmapRows s vol)) (mapBytes (cmapOf s vol).bits)
    generalize writeBufMem (mbxTake s g [objVol vol] none) g.mb buf _ _ = u at hw ⊢
    have hg : getMbx u g.mb = getMbx (mbxTake s g [objVol vol] none) g.mb := by
      rw [getMbx, hw.mbx (by simp), getMbx]
    simp [mbxOk, mbxFinish, hg, hw.vols (by simp), cmapHeader_length]
  case stats =>
    intro s g h
    exact ⟨_, exec_epochStats h, mbxOk_mbxTake_moon _ _ _ _, mbxOk_mbxTake_answered _ _ _ _⟩
  case early =>
    intro s hr hf
    have hs := storeEpoch_Frame (advanceEpoch s) s.moon.epoch
    refine ⟨_, exec_epochEdge_early hr hf, ?_⟩
    rw [settled_moon, settled_clock, hs.moon (by simp), hs.clock (by simp)]
    exact ⟨rfl, rfl, rfl⟩
  case edge =>
    intro s hr hf
    exact exec_epochEdge hr hf
  case advance =>
    intro s
    exact ⟨rfl, rfl, rfl, rfl⟩

end Sys2Proof.Machine
end

section
/-! PROOFS. Losing power, SYS_RESET_N and FREEZE_N: one equation per row, then what each leaves and what survives. -/

namespace Sys2Proof.Machine

/-! ### Jade after a reset (Table 1-7) -/

theorem keepJade_f4 (s : State) : (keepJade s).f4 = false := by
  unfold keepJade
  split <;> rfl

theorem keepJade_frozen (s : State) : (keepJade s).frozen = false := by
  unfold keepJade
  split <;> rfl

/-- The end of a command leaves F4 and the freeze as they are. -/
theorem settled_f4_frozen (s : State) : (settled s).jade.f4 = s.jade.f4 ∧ (settled s).jade.frozen = s.jade.frozen := by
  obtain ⟨q, h⟩ := settled_jade s
  rw [h]
  exact ⟨rfl, rfl⟩

/-! ### The rows (R112, R514, R525, R566, R570) -/

/-- The device without power (R566). -/
def powerLost (s : State) : State :=
  { afterReset s .off with pins := { (afterReset s .off).pins with pwrOk := false } }

/-- The device held in reset (R570). -/
def heldInReset (s : State) : State :=
  { afterReset s .held with pins := { (afterReset s .held).pins with sysResetN := false } }

/-- The device with its clocks stopped (R525). -/
def frozenDevice (s : State) : State :=
  { s with
    jade := { s.jade with frozen := true, aliveRunning := false }
    pins := { bypassPins s true with alive := false, faultN := false }
    moon := { s.moon with trained := false }
    links := s.links.map (fun (e : Nat × Link) => (e.1, { e.2 with up := false }))
    partners := s.partners.map (fun (e : Nat × Partner) => (e.1, { e.2 with up := false }))
    pcie := { s.pcie with linkUp := false }
    tiles := s.tiles.map (fun (e : Nat × Tile) => (e.1, { e.2 with clocksStopped := true })) }

section Loss

variable {s : State}

theorem exec_pwrOkLoss (h : s.phase ≠ .off) : exec .pwrOkLoss s = .next (settled (powerLost s)) := by
  show execPwrOkLoss s = _
  unfold execPwrOkLoss
  split
  · contradiction
  · rfl

theorem exec_sysResetNAssert (h : s.phase ≠ .off) (hf : s.jade.f4 = false) :
    exec .sysResetNAssert s = .next (settled (heldInReset s)) := by
  show execSysResetNAssert s = _
  simp [execSysResetNAssert, h, hf, done_eq, heldInReset]

theorem exec_sysResetNAssert_f4 (hf : s.jade.f4 = true) : exec .sysResetNAssert s = .next s := by
  show execSysResetNAssert s = _
  simp [execSysResetNAssert, hf]

theorem exec_freezeNLow (h : powered s = true) : exec .freezeNLow s = .next (settled (frozenDevice s)) := by
  show execFreezeNLow s = _
  simp [execFreezeNLow, h, done_eq, frozenDevice]

end Loss

theorem frozenDevice_links (s : State) : ∀ e ∈ (frozenDevice s).links, e.2.up = false :=
  List.forall_mem_map.2 fun _ _ => rfl

theorem frozenDevice_tiles (s : State) : ∀ e ∈ (frozenDevice s).tiles, e.2.clocksStopped = true :=
  List.forall_mem_map.2 fun _ _ => rfl

/-- Settles O9: each row by its equation, and what the end of the command leaves of the state it gives. -/
theorem powerLossRows : Obligations.PowerLossRows := by
  refine ⟨?power, ?reset, ?resetF4, ?freeze⟩
  case power =>
    intro s h
    refine ⟨_, exec_pwrOkLoss h, ?_⟩
    obtain ⟨hf4, hfr⟩ := settled_f4_frozen (powerLost s)
    rw [hf4, hfr, settled_phase, settled_pins, settled_cfg, settled_flash, settled_jet, settled_cmds, settled_live, settled_sbt,
      settled_sqs, settled_cqs, settled_mbx]
    exact ⟨rfl, rfl, rfl, rfl, rfl, keepJade_f4 s, keepJade_frozen s, rfl, rfl, rfl, rfl, rfl, rfl, rfl, rfl, rfl, rfl⟩
  case reset =>
    intro s h hf
    refine ⟨_, exec_sysResetNAssert h hf, ?_⟩
    rw [(settled_f4_frozen _).2, settled_phase, settled_pins, settled_cfg, settled_flash, settled_jet, settled_cmds, settled_mbx]
    exact ⟨rfl, rfl, rfl, rfl, keepJade_frozen s, rfl, rfl, rfl, rfl, rfl, rfl⟩
  case resetF4 =>
    intro s _ hf
    exact exec_sysResetNAssert_f4 hf
  case freeze =>
    intro s h
    refine ⟨_, exec_freezeNLow h, ?_⟩
    rw [(settled_f4_frozen _).2, (settled_host _).1, settled_pins, settled_moon, settled_links, settled_tiles, settled_cmds,
      settled_mcmds]
    exact ⟨rfl, rfl, rfl, rfl, rfl, rfl, frozenDevice_links s, frozenDevice_tiles s, rfl, rfl⟩

end Sys2Proof.Machine
end

section
/-! PROOFS. The field GF(2^8) of R131: the laws of multiplication from the linearity of doubling, and the powers of g. -/

namespace Sys2Proof

/-! ### Multiplication (R131) -/

theorem gfDouble_eq (a : Byte) : gfDouble a = (a <<< 1) ^^^ (if a.getLsbD 7 then 0x1D#8 else 0) := by
  unfold gfDouble; split <;> simp

theorem ite_xor_zero (p q : Bool) (a : Byte) :
    (if (p ^^ q) then a else 0) = (if p then a else 0) ^^^ (if q then a else 0) := by
  cases p <;> cases q <;> simp

theorem gfDouble_xor (a b : Byte) : gfDouble (a ^^^ b) = gfDouble a ^^^ gfDouble b := by
  rw [gfDouble_eq, gfDouble_eq, gfDouble_eq, BitVec.getLsbD_xor, ite_xor_zero, BitVec.shiftLeft_xor_distrib]
  ac_rfl

/-- The sums of `n` terms by shift and add are linear in the second factor. -/
theorem gfMulAux_xor (n : Nat) (a b c : Byte) : gfMulAux n a (b ^^^ c) = gfMulAux n a b ^^^ gfMulAux n a c := by
  induction n generalizing a b c with
  | zero => simp [gfMulAux]
  | succ n ih =>
    rw [gfMulAux, gfMulAux, gfMulAux, BitVec.getLsbD_xor, ite_xor_zero, BitVec.ushiftRight_xor_distrib, ih]
    ac_rfl

theorem xor_gfMulAux (n : Nat) (a b c : Byte) : gfMulAux n (a ^^^ b) c = gfMulAux n a c ^^^ gfMulAux n b c := by
  induction n generalizing a b c with
  | zero => simp [gfMulAux]
  | succ n ih =>
    have hif : (if c.getLsbD 0 then a ^^^ b else 0) = (if c.getLsbD 0 then a else 0) ^^^ (if c.getLsbD 0 then b else 0) := by
      split <;> simp
    rw [gfMulAux, gfMulAux, gfMulAux, gfDouble_xor, hif, ih]
    ac_rfl

theorem gfMulAux_gfDouble (n : Nat) (a b : Byte) : gfMulAux n (gfDouble a) b = gfDouble (gfMulAux n a b) := by
  induction n generalizing a b with
  | zero => simp [gfMulAux, gfDouble]
  | succ n ih =>
    rw [gfMulAux, gfMulAux, ih, gfDouble_xor]
    congr 1
    split <;> rfl

theorem gfMul_xor (a b c : Byte) : gfMul a (b ^^^ c) = gfMul a b ^^^ gfMul a c := gfMulAux_xor 8 a b c

theorem xor_gfMul (a b c : Byte) : gfMul (a ^^^ b) c = gfMul a c ^^^ gfMul b c := xor_gfMulAux 8 a b c

theorem gfDouble_gfMul (a b : Byte) : gfMul (gfDouble a) b = gfDouble (gfMul a b) := gfMulAux_gfDouble 8 a b

@[simp] theorem gfMul_zero (a : Byte) : gfMul a 0#8 = 0#8 := by
  rw [← BitVec.xor_self (x := 0#8), gfMul_xor, BitVec.xor_self, BitVec.xor_self]

@[simp] theorem zero_gfMul (a : Byte) : gfMul 0#8 a = 0#8 := by
  rw [← BitVec.xor_self (x := 0#8), xor_gfMul, BitVec.xor_self, BitVec.xor_self]

@[simp] theorem gfMul_one (a : Byte) : gfMul a 1#8 = a := by simp [gfMul, gfMulAux]

@[simp] theorem one_gfMul (a : Byte) : gfMul 1#8 a = a := by
  revert a
  decide +kernel

/-- Every byte is a sum of doublings of 1. -/
theorem byte_induction {p : Byte → Prop} (zero : p 0#8) (one : p 1#8) (double : ∀ a, p a → p (gfDouble a))
    (xor : ∀ a b, p a → p b → p (a ^^^ b)) (a : Byte) : p a := by
  have sum (n : Nat) (b c : Byte) (hb : p b) : p (gfMulAux n b c) := by
    induction n generalizing b c with
    | zero => exact zero
    | succ n ih =>
      refine xor _ _ ?_ (ih _ _ (double b hb))
      split
      · exact hb
      · exact zero
  exact one_gfMul a ▸ sum 8 1 a one

theorem gfMul_gfDouble (a b : Byte) : gfMul a (gfDouble b) = gfDouble (gfMul a b) := by
  induction a using byte_induction with
  | zero => rw [zero_gfMul, zero_gfMul]; rfl
  | one => rw [one_gfMul, one_gfMul]
  | double a ih => rw [gfDouble_gfMul, gfDouble_gfMul, ih]
  | xor a c iha ihc => rw [xor_gfMul, xor_gfMul, iha, ihc, gfDouble_xor]

theorem gfMul_comm (a b : Byte) : gfMul a b = gfMul b a := by
  induction a using byte_induction with
  | zero => rw [zero_gfMul, gfMul_zero]
  | one => rw [one_gfMul, gfMul_one]
  | double a ih => rw [gfDouble_gfMul, gfMul_gfDouble, ih]
  | xor a c iha ihc => rw [xor_gfMul, gfMul_xor, iha, ihc]

theorem gfMul_assoc (a b c : Byte) : gfMul (gfMul a b) c = gfMul a (gfMul b c) := by
  induction a using byte_induction with
  | zero => rw [zero_gfMul, zero_gfMul, zero_gfMul]
  | one => rw [one_gfMul, one_gfMul]
  | double a ih => rw [gfDouble_gfMul, gfDouble_gfMul, gfDouble_gfMul, ih]
  | xor a d iha ihd => rw [xor_gfMul, xor_gfMul, xor_gfMul, iha, ihd]

/-! ### Powers of g -/

theorem gfPow_eq_iterate (i : Nat) : gfPow i = gfDouble^[i] 1 := by
  induction i with
  | zero => rfl
  | succ i ih => rw [gfPow, ih, Function.iterate_succ_apply']

theorem gfMul_gfPow (i j : Nat) : gfMul (gfPow i) (gfPow j) = gfPow (i + j) := by
  induction i with
  | zero => rw [Nat.zero_add]; exact one_gfMul _
  | succ i ih => rw [gfPow, gfDouble_gfMul, ih, Nat.succ_add, gfPow]

/-- The powers of g repeat after 255 and after no less: 255 = 3 · 5 · 17, and g to the 85, 51 and 15 is not 1. -/
theorem minimalPeriod_gfDouble : Function.minimalPeriod gfDouble 1 = 255 := by
  have hper (n : Nat) : Function.minimalPeriod gfDouble 1 ∣ n ↔ gfPow n = 1 := by
    rw [gfPow_eq_iterate]; exact Function.isPeriodicPt_iff_minimalPeriod_dvd.symm
  have h255 : Function.minimalPeriod gfDouble 1 ∈ Nat.divisors 255 :=
    Nat.mem_divisors.2 ⟨(hper 255).2 (by decide +kernel), by decide⟩
  have hprop (n : Nat) (hn : gfPow n ≠ 1) : ¬ Function.minimalPeriod gfDouble 1 ∣ n := fun h => hn ((hper n).1 h)
  have h85 := hprop 85 (by decide +kernel)
  have h51 := hprop 51 (by decide +kernel)
  have h15 := hprop 15 (by decide +kernel)
  generalize Function.minimalPeriod gfDouble 1 = m at h255 h85 h51 h15
  have hall : ∀ m ∈ Nat.divisors 255, m ∣ 85 ∨ m ∣ 51 ∨ m ∣ 15 ∨ m = 255 := by decide +kernel
  have := hall m h255
  tauto

theorem gfPow_eq_one_iff (i : Nat) : gfPow i = 1 ↔ i % 255 = 0 := by
  rw [← Nat.dvd_iff_mod_eq_zero, ← minimalPeriod_gfDouble, gfPow_eq_iterate]
  exact Function.isPeriodicPt_iff_minimalPeriod_dvd

theorem gfPow_injOn : Set.InjOn gfPow (Set.Iio 255) := by
  have h := Function.iterate_injOn_Iio_minimalPeriod (f := gfDouble) (x := 1)
  rw [minimalPeriod_gfDouble] at h
  exact h.congr fun i _ => (gfPow_eq_iterate i).symm

theorem gfPow_ne_zero (i : Nat) : gfPow i ≠ 0#8 := fun h => by
  have hone : gfPow (i + 254 * i) = 1 := (gfPow_eq_one_iff _).2 (by omega)
  rw [← gfMul_gfPow, h, zero_gfMul] at hone
  exact absurd hone (by decide)

/-- The 255 powers of g are distinct and not zero, so they are the non-zero bytes. -/
theorem exists_gfPow_of_ne_zero {a : Byte} (ha : a ≠ 0#8) : ∃ i, a = gfPow i := by
  have hsub : (Finset.range 255).image gfPow ⊆ Finset.univ.erase 0#8 := by
    intro b hb
    obtain ⟨i, -, rfl⟩ := Finset.mem_image.1 hb
    exact Finset.mem_erase.2 ⟨gfPow_ne_zero i, Finset.mem_univ _⟩
  have hcard : ((Finset.range 255).image gfPow).card = 255 := by
    rw [Finset.card_image_of_injOn, Finset.card_range]
    simpa using gfPow_injOn
  have huniv : (Finset.univ.erase 0#8).card = 255 := by
    rw [Finset.card_erase_of_mem (Finset.mem_univ _), Finset.card_univ, Fintype.card_congr BitVec.equivFin.toEquiv, Fintype.card_fin]
    rfl
  have heq := Finset.eq_of_subset_of_card_le hsub (by rw [hcard, huniv])
  have hmem : a ∈ (Finset.range 255).image gfPow := heq ▸ Finset.mem_erase.2 ⟨ha, Finset.mem_univ a⟩
  obtain ⟨i, -, hi⟩ := Finset.mem_image.1 hmem
  exact ⟨i, hi.symm⟩

theorem gfNpow_gfPow (i n : Nat) : gfNpow (gfPow i) n = gfPow (i * n) := by
  induction n with
  | zero => rfl
  | succ n ih => rw [gfNpow, ih, gfMul_gfPow, Nat.mul_succ, Nat.add_comm]

theorem gfMul_gfInv {a : Byte} (ha : a ≠ 0#8) : gfMul a (gfInv a) = 1#8 := by
  obtain ⟨i, rfl⟩ := exists_gfPow_of_ne_zero ha
  rw [gfInv, gfNpow_gfPow, gfMul_gfPow]
  exact (gfPow_eq_one_iff _).2 (by omega)

/-- Multiplying by an element and then by its inverse. -/
theorem gfInv_gfMul_cancel {a : Byte} (ha : a ≠ 0#8) (b : Byte) : gfMul (gfInv a) (gfMul a b) = b := by
  rw [← gfMul_assoc, gfMul_comm (gfInv a), gfMul_gfInv ha, one_gfMul]

theorem gfMul_ne_zero {a b : Byte} (ha : a ≠ 0#8) (hb : b ≠ 0#8) : gfMul a b ≠ 0#8 := fun h =>
  hb (by rw [← gfInv_gfMul_cancel ha b, h, gfMul_zero])

/-- Settles O53: the field laws from the linearity of the doubling, and the values by evaluation. -/
theorem galoisField : Obligations.GaloisField := by
  refine ⟨gfMul_xor, gfMul_comm, gfMul_assoc, gfMul_one, fun a => ?_, fun a => gfMul_gfInv, gfMul_gfPow, gfPow_eq_one_iff, ?_⟩
  · calc gfMul a 2 = gfDouble (gfMul a 1#8) := gfMul_gfDouble a 1
      _ = gfDouble a := by rw [gfMul_one]
  · decide +kernel

end Sys2Proof
end

section
/-! PROOFS. The bytes of P and Q (R132), from the bytes of a sum and of a multiple of sparse bytes. -/

namespace Sys2Proof

/-! ### Bytes of a sum and of a multiple -/

theorem Mem.get_nil (o : Nat) : Mem.get [] o = 0#8 := rfl

theorem Mem.get_cons (e : Nat × Byte) (m : Mem) (o : Nat) : Mem.get (e :: m) o = if e.1 = o then e.2 else Mem.get m o := by
  show (if e.1 = o then some e.2 else Tab.get? m o).getD 0 = _
  split <;> rfl

theorem Mem.wf_cons {e : Nat × Byte} {m : Mem} (h : Mem.wf (e :: m) = true) :
    (∀ x ∈ m, e.1 < x.1) ∧ e.2 ≠ 0#8 ∧ Mem.wf m = true := by
  simp only [Mem.wf, Tab.wf, Bool.and_eq_true, decide_eq_true_eq, List.pairwise_cons, List.all_cons, bne_iff_ne] at h ⊢
  obtain ⟨⟨hlt, hp⟩, hne, hall⟩ := h
  exact ⟨hlt, hne, hp, hall⟩

theorem Mem.get_eq_zero {m : Mem} {o : Nat} (h : ∀ e ∈ m, e.1 ≠ o) : Mem.get m o = 0#8 := by
  induction m with
  | nil => rfl
  | cons e m ih =>
    rw [Mem.get_cons, if_neg (h e List.mem_cons_self), ih fun x hx => h x (List.mem_cons_of_mem _ hx)]

theorem Mem.get_xor {m₁ m₂ : Mem} (h₁ : Mem.wf m₁ = true) (h₂ : Mem.wf m₂ = true) (o : Nat) :
    Mem.get (Mem.xor m₁ m₂) o = Mem.get m₁ o ^^^ Mem.get m₂ o := by
  induction m₂ generalizing m₁ with
  | nil => simp [Mem.xor, Mem.get_nil]
  | cons e m₂ ih =>
    obtain ⟨hlt, -, hm⟩ := Mem.wf_cons h₂
    show Mem.get (Mem.xor (Mem.set m₁ e.1 (Mem.get m₁ e.1 ^^^ e.2)) m₂) o = _
    rw [ih (Mem.wf_set _ _ h₁) hm, Mem.get_cons]
    by_cases ho : e.1 = o
    · subst ho
      rw [Mem.get_set_self _ _ _ h₁, Mem.get_eq_zero fun x hx => Nat.ne_of_gt (hlt x hx), if_pos rfl, BitVec.xor_zero]
    · rw [Mem.get_set_ne _ _ _ _ (Ne.symm ho), if_neg ho]

theorem Mem.get_scale (c : Byte) {m : Mem} (h : Mem.wf m = true) (o : Nat) : Mem.get (Mem.scale c m) o = gfMul c (Mem.get m o) := by
  unfold Mem.scale
  split
  case isTrue hc => rw [hc]; exact (zero_gfMul _).symm
  case isFalse hc =>
    induction m with
    | nil => exact (gfMul_zero c).symm
    | cons e m ih =>
      obtain ⟨-, hne, hm⟩ := Mem.wf_cons h
      rw [List.map_cons, List.filter_cons_of_pos (by simpa using gfMul_ne_zero hc hne), Mem.get_cons, Mem.get_cons, ih hm]
      split <;> rfl

/-! ### P and Q byte by byte (R132) -/

theorem foldl_xor_init (a : Byte) (l : List Byte) : l.foldl (· ^^^ ·) a = a ^^^ l.foldl (· ^^^ ·) 0 := by
  simpa using List.foldl_assoc (op := fun x y : Byte => x ^^^ y) (l := l) (a₁ := a) (a₂ := 0#8)

theorem wf_foldl_xor (ds : List Mem) {m : Mem} (h : Mem.wf m = true) : Mem.wf (ds.foldl Mem.xor m) = true := by
  induction ds generalizing m with
  | nil => exact h
  | cons d ds ih => exact ih (Mem.wf_xor _ _ h)

theorem wf_parityP (ds : List Mem) : Mem.wf (parityP ds) = true := wf_foldl_xor ds rfl

theorem wf_parityQFrom {i : Nat} {ds : List Mem} (h : ∀ d ∈ ds, d.wf = true) : Mem.wf (parityQFrom i ds) = true := by
  cases ds with
  | nil => rfl
  | cons d ds => exact Mem.wf_xor _ _ (Mem.wf_scale _ _ (h d List.mem_cons_self))

theorem get_foldl_xor {ds : List Mem} (hds : ∀ d ∈ ds, d.wf = true) {m : Mem} (hm : m.wf = true) (o : Nat) :
    Mem.get (ds.foldl Mem.xor m) o = (ds.map (fun d => Mem.get d o)).foldl (· ^^^ ·) (Mem.get m o) := by
  induction ds generalizing m with
  | nil => rfl
  | cons d ds ih =>
    obtain ⟨hd, hds⟩ := List.forall_mem_cons.1 hds
    rw [List.foldl_cons, ih hds (Mem.wf_xor _ _ hm), Mem.get_xor hm hd]
    rfl

theorem get_parityP {ds : List Mem} (hds : ∀ d ∈ ds, d.wf = true) (o : Nat) :
    Mem.get (parityP ds) o = (ds.map (fun d => Mem.get d o)).foldl (· ^^^ ·) 0 := get_foldl_xor hds rfl o

theorem get_parityQFrom_cons {i : Nat} {d : Mem} {ds : List Mem} (hd : d.wf = true) (hds : ∀ d ∈ ds, d.wf = true) (o : Nat) :
    Mem.get (parityQFrom i (d :: ds)) o = gfMul (gfPow i) (Mem.get d o) ^^^ Mem.get (parityQFrom (i + 1) ds) o := by
  rw [parityQFrom, Mem.get_xor (Mem.wf_scale _ _ hd) (wf_parityQFrom hds), Mem.get_scale _ hd]

theorem get_parityQFrom {i : Nat} {ds : List Mem} (hds : ∀ d ∈ ds, d.wf = true) (o : Nat) :
    Mem.get (parityQFrom i ds) o =
      ((List.range ds.length).map (fun j => gfMul (gfPow (i + j)) (Mem.get (ds.getD j []) o))).foldl (· ^^^ ·) 0 := by
  induction ds generalizing i with
  | nil => rfl
  | cons d ds ih =>
    obtain ⟨hd, hds⟩ := List.forall_mem_cons.1 hds
    rw [get_parityQFrom_cons hd hds, ih hds, List.length_cons, List.range_succ_eq_map, List.map_cons, List.foldl_cons,
      foldl_xor_init (0 ^^^ _), List.map_map]
    simp [Function.comp_def, Nat.add_assoc, Nat.add_comm 1]

/-- Settles O54, by induction on the list of data strips. -/
theorem parityBytes : Obligations.ParityBytes := by
  intro ds o hwf
  have hds := List.all_eq_true.1 hwf
  have hQ := get_parityQFrom (i := 0) hds o
  simp only [Nat.zero_add] at hQ
  exact ⟨get_parityP hds o, hQ⟩

end Sys2Proof
end

section
/-! PROOFS. Recovery of erased strips (R132-R134): the strips of Table 3-3 byte by byte, then each of its rows. -/

namespace Sys2Proof

/-! ### Parity of a row with one strip changed -/

theorem xor_cancel_left (a b : Byte) : a ^^^ (a ^^^ b) = b := by rw [← BitVec.xor_assoc, BitVec.xor_self, BitVec.zero_xor]

theorem xor_telescope (a b c : Byte) : a ^^^ b ^^^ (b ^^^ c) = a ^^^ c := by rw [BitVec.xor_assoc, xor_cancel_left]

theorem foldl_xor_set (l : List Byte) (a b : Byte) {x : Nat} (hx : x < l.length) :
    (l.set x b).foldl (· ^^^ ·) a = l.foldl (· ^^^ ·) a ^^^ (l[x] ^^^ b) := by
  induction l generalizing a x with
  | nil => exact absurd hx (Nat.not_lt_zero x)
  | cons c l ih =>
    cases x with
    | zero =>
      rw [List.set_cons_zero, List.foldl_cons, List.foldl_cons, foldl_xor_init (a ^^^ b), foldl_xor_init (a ^^^ c),
        List.getElem_cons_zero, ← xor_telescope a c b]
      ac_rfl
    | succ x => exact ih _ (Nat.lt_of_succ_lt_succ hx)

theorem forall_wf_set {ds : List Mem} {d : Mem} (hds : ∀ d ∈ ds, d.wf = true) (hd : d.wf = true) (x : Nat) :
    ∀ e ∈ ds.set x d, e.wf = true := fun _ he => (List.mem_or_eq_of_mem_set he).elim (hds _) (fun h => h ▸ hd)

theorem get_parityP_set {ds : List Mem} {d : Mem} (hds : ∀ d ∈ ds, d.wf = true) (hd : d.wf = true) {x : Nat}
    (hx : x < ds.length) (o : Nat) :
    Mem.get (parityP (ds.set x d)) o = Mem.get (parityP ds) o ^^^ (Mem.get ds[x] o ^^^ Mem.get d o) := by
  rw [get_parityP (forall_wf_set hds hd x), get_parityP hds, List.map_set, foldl_xor_set _ _ _ (by simpa using hx), List.getElem_map]

theorem get_parityQFrom_set {ds : List Mem} {d : Mem} (hds : ∀ d ∈ ds, d.wf = true) (hd : d.wf = true) {i x : Nat}
    (hx : x < ds.length) (o : Nat) : Mem.get (parityQFrom i (ds.set x d)) o =
      Mem.get (parityQFrom i ds) o ^^^ gfMul (gfPow (i + x)) (Mem.get ds[x] o ^^^ Mem.get d o) := by
  induction ds generalizing i x with
  | nil => exact absurd hx (Nat.not_lt_zero x)
  | cons e ds ih =>
    obtain ⟨he, hds⟩ := List.forall_mem_cons.1 hds
    cases x with
    | zero =>
      simp only [List.set_cons_zero, List.getElem_cons_zero, Nat.add_zero, get_parityQFrom_cons hd hds, get_parityQFrom_cons he hds,
        gfMul_xor]
      rw [BitVec.xor_comm (gfMul _ (Mem.get d o)), ← xor_telescope _ (gfMul (gfPow i) (Mem.get e o))]
      ac_rfl
    | succ x =>
      have h := ih hds (i := i + 1) (Nat.lt_of_succ_lt_succ hx)
      rw [List.set_cons_succ, get_parityQFrom_cons he (forall_wf_set hds hd x), get_parityQFrom_cons he hds, h, BitVec.xor_assoc]
      simp only [List.getElem_cons_succ, Nat.add_assoc, Nat.add_comm 1]

theorem get_parityQ_set {ds : List Mem} {d : Mem} (hds : ∀ d ∈ ds, d.wf = true) (hd : d.wf = true) {x : Nat} (hx : x < ds.length)
    (o : Nat) : Mem.get (parityQ (ds.set x d)) o =
      Mem.get (parityQ ds) o ^^^ gfMul (gfPow x) (Mem.get ds[x] o ^^^ Mem.get d o) := by
  have h := get_parityQFrom_set hds hd (i := 0) hx o
  rwa [Nat.zero_add] at h

theorem wf_parityQ {ds : List Mem} (h : ∀ d ∈ ds, d.wf = true) : Mem.wf (parityQ ds) = true := wf_parityQFrom h

/-! ### The strips of Table 3-3 -/

section Formulas

variable {ds : List Mem} (hds : ∀ d ∈ ds, d.wf = true)

include hds

/-- A data strip from P: P_x is D_x. -/
theorem get_data_of_P {x : Nat} (hx : x < ds.length) (o : Nat) :
    Mem.get (Mem.xor (parityP ds) (parityP (ds.set x []))) o = Mem.get ds[x] o := by
  rw [Mem.get_xor (wf_parityP _) (wf_parityP _), get_parityP_set hds rfl hx, Mem.get_nil, BitVec.xor_zero, xor_cancel_left]

/-- A data strip from Q: Q_x is g^x · D_x. -/
theorem get_data_of_Q {x : Nat} (hx : x < ds.length) (o : Nat) :
    Mem.get (Mem.scale (gfInv (gfPow x)) (Mem.xor (parityQ ds) (parityQ (ds.set x [])))) o = Mem.get ds[x] o := by
  have hQ : (parityQ (ds.set x [])).wf = true := wf_parityQ (forall_wf_set hds rfl x)
  have hq : Mem.get (Mem.xor (parityQ ds) (parityQ (ds.set x []))) o = gfMul (gfPow x) (Mem.get ds[x] o) := by
    rw [Mem.get_xor (wf_parityQ hds) hQ, get_parityQ_set hds rfl hx, Mem.get_nil, BitVec.xor_zero, xor_cancel_left]
  rw [Mem.get_scale _ (Mem.wf_xor _ _ (wf_parityQ hds)), hq, gfInv_gfMul_cancel (gfPow_ne_zero x)]

/-- Pxy, the sum of the two erased data strips. -/
theorem get_Pxy {x y : Nat} (hxy : x < y) (hy : y < ds.length) (o : Nat) :
    Mem.get (Mem.xor (parityP ds) (parityP ((ds.set x []).set y []))) o = Mem.get ds[x] o ^^^ Mem.get ds[y] o := by
  rw [Mem.get_xor (wf_parityP _) (wf_parityP _), get_parityP_set (forall_wf_set hds rfl x) rfl (by simpa using hy),
    get_parityP_set hds rfl (hxy.trans hy), Mem.get_nil, List.getElem_set_ne (Nat.ne_of_lt hxy), BitVec.xor_zero, BitVec.xor_zero,
    BitVec.xor_assoc, xor_cancel_left]

/-- Qxy, the sum of the two erased data strips with their coefficients. -/
theorem get_Qxy {x y : Nat} (hxy : x < y) (hy : y < ds.length) (o : Nat) :
    Mem.get (Mem.xor (parityQ ds) (parityQ ((ds.set x []).set y []))) o =
      gfMul (gfPow x) (Mem.get ds[x] o) ^^^ gfMul (gfPow y) (Mem.get ds[y] o) := by
  have hset := forall_wf_set hds (d := []) rfl x
  rw [Mem.get_xor (wf_parityQ hds) (wf_parityQ (forall_wf_set hset rfl y)), get_parityQ_set hset rfl (by simpa using hy),
    get_parityQ_set hds rfl (hxy.trans hy), Mem.get_nil, List.getElem_set_ne (Nat.ne_of_lt hxy), BitVec.xor_zero, BitVec.xor_zero,
    BitVec.xor_assoc, xor_cancel_left]

end Formulas

/-- Two powers of g below its order differ. -/
theorem gfPow_xor_ne_zero {x y : Nat} (hxy : x < y) (hy : y < 255) : gfPow x ^^^ gfPow y ≠ 0#8 := fun h =>
  Nat.ne_of_lt hxy (gfPow_injOn (hxy.trans hy) hy (BitVec.xor_eq_zero_iff.1 h))

/-- The first of two erased data strips: Qxy ⊕ g^y · Pxy is (g^x ⊕ g^y) · D_x. -/
theorem get_data_of_Pxy_Qxy {p q : Mem} (hp : p.wf = true) (hq : q.wf = true) {x y o : Nat} {a b : Byte} (hxy : x < y) (hy : y < 255)
    (hP : Mem.get p o = a ^^^ b) (hQ : Mem.get q o = gfMul (gfPow x) a ^^^ gfMul (gfPow y) b) :
    Mem.get (Mem.scale (gfInv (gfPow x ^^^ gfPow y)) (Mem.xor q (Mem.scale (gfPow y) p))) o = a := by
  have hsum : gfMul (gfPow x) a ^^^ gfMul (gfPow y) b ^^^ (gfMul (gfPow y) a ^^^ gfMul (gfPow y) b) =
      gfMul (gfPow x ^^^ gfPow y) a := by
    rw [xor_gfMul, BitVec.xor_comm (gfMul (gfPow y) a), xor_telescope]
  rw [Mem.get_scale _ (Mem.wf_xor _ _ hq), Mem.get_xor hq (Mem.wf_scale _ _ hp), Mem.get_scale _ hp, hP, hQ, gfMul_xor (gfPow y),
    hsum, gfInv_gfMul_cancel (gfPow_xor_ne_zero hxy hy)]

/-! ### What recovery reads and gives (R132, R134) -/

/-- The strips of a row by R132: its data strips, P and Q. -/
def rowStrips (ds : List Mem) : List Mem := ds ++ [parityP ds, parityQ ds]

theorem rowStrips_data {ds : List Mem} {j : Nat} (h : j < ds.length) : (rowStrips ds).getD j [] = ds[j] := by
  rw [rowStrips, List.getD_append _ _ _ _ h, List.getD_eq_getElem _ _ h]

theorem rowStrips_P (ds : List Mem) : (rowStrips ds).getD ds.length [] = parityP ds := by
  simp [rowStrips]

theorem rowStrips_Q (ds : List Mem) : (rowStrips ds).getD (ds.length + 1) [] = parityQ ds := by
  simp [rowStrips]

/-- The strips obtained agree with the row at every position but those of `erased`. -/
def Obtained (ds : List Mem) (got : List (Nat × Mem)) (erased : List Nat) : Prop :=
  ∀ j < ds.length + 2, j ∉ erased → stripOf got j = (rowStrips ds).getD j []

/-- Every byte of every strip is the row's. -/
def Recovered (ds : List Mem) (got : List (Nat × Mem)) : Prop :=
  ∀ j < ds.length + 2, ∀ o, Mem.get (stripOf got j) o = Mem.get ((rowStrips ds).getD j []) o

theorem Obtained.data {ds : List Mem} {got : List (Nat × Mem)} {erased : List Nat} (h : Obtained ds got erased) {j : Nat}
    (hj : j < ds.length) (hn : j ∉ erased) : stripOf got j = ds[j] := (h j (by omega) hn).trans (rowStrips_data hj)

/-- A data strip other than the first erased one, when no other data strip is erased. -/
theorem Obtained.data_of_cons {ds : List Mem} {got : List (Nat × Mem)} {x : Nat} {erased : List Nat} (h : Obtained ds got (x :: erased))
    (he : ∀ j ∈ erased, ds.length ≤ j) {j : Nat} (hj : j < ds.length) (hx : j ≠ x) : stripOf got j = ds[j] :=
  h.data hj fun hm => (List.mem_cons.1 hm).elim hx fun hm => absurd (he j hm) (by omega)

theorem Obtained.P {ds : List Mem} {got : List (Nat × Mem)} {erased : List Nat} (h : Obtained ds got erased)
    (hn : ds.length ∉ erased) : stripOf got ds.length = parityP ds := (h _ (by omega) hn).trans (rowStrips_P ds)

theorem Obtained.Q {ds : List Mem} {got : List (Nat × Mem)} {erased : List Nat} (h : Obtained ds got erased)
    (hn : ds.length + 1 ∉ erased) : stripOf got (ds.length + 1) = parityQ ds := (h _ (by omega) hn).trans (rowStrips_Q ds)

@[simp] theorem stripOf_set_self (got : List (Nat × Mem)) (x : Nat) (d : Mem) : stripOf (Tab.set got x d) x = d :=
  Tab.getD_set_self got x d []

theorem stripOf_set_ne (got : List (Nat × Mem)) {x j : Nat} (d : Mem) (h : j ≠ x) : stripOf (Tab.set got x d) j = stripOf got j :=
  Tab.getD_set_ne got x j d [] h

/-- The data strips are those of a list that holds zero content where `skip` says and the strips obtained elsewhere. -/
theorem dataStrips_eq {k : Nat} {got : List (Nat × Mem)} {skip : List Nat} {l : List Mem} (hl : l.length = k)
    (h : ∀ i (hi : i < l.length), (if i ∈ skip then [] else stripOf got i) = l[i]) : dataStrips k got skip = l := by
  refine List.ext_getElem (by simp [dataStrips, hl]) fun i _ hi => ?_
  simpa [dataStrips] using h i hi

section Sources

variable {ds : List Mem} {got : List (Nat × Mem)}

theorem dataStrips_none {erased : List Nat} (h : Obtained ds got erased) (he : ∀ j ∈ erased, ds.length ≤ j) :
    dataStrips ds.length got [] = ds :=
  dataStrips_eq rfl fun i hi => by simpa using h.data hi fun hm => absurd (he i hm) (by omega)

theorem dataStrips_one {x : Nat} {erased : List Nat} (h : Obtained ds got (x :: erased)) (he : ∀ j ∈ erased, ds.length ≤ j) :
    dataStrips ds.length got [x] = ds.set x [] :=
  dataStrips_eq (by simp) fun i hi => by
    have hi : i < ds.length := by simpa using hi
    by_cases hx : i = x
    · simp [hx]
    · rw [List.getElem_set_ne (Ne.symm hx), if_neg (by simpa using hx), h.data_of_cons he hi hx]

theorem dataStrips_set {x : Nat} {erased : List Nat} (h : Obtained ds got (x :: erased)) (he : ∀ j ∈ erased, ds.length ≤ j)
    (d : Mem) : dataStrips ds.length (Tab.set got x d) [] = ds.set x d :=
  dataStrips_eq (by simp) fun i hi => by
    have hi : i < ds.length := by simpa using hi
    rw [if_neg List.not_mem_nil]
    by_cases hx : i = x
    · simp [hx]
    · rw [stripOf_set_ne _ _ hx, List.getElem_set_ne (Ne.symm hx), h.data_of_cons he hi hx]

theorem dataStrips_two {x y : Nat} (h : Obtained ds got [x, y]) : dataStrips ds.length got [x, y] = (ds.set x []).set y [] :=
  dataStrips_eq (by simp) fun i hi => by
    have hi : i < ds.length := by simpa using hi
    by_cases hm : i ∈ [x, y]
    · rw [if_pos hm]
      grind
    · obtain ⟨hx, hy⟩ : i ≠ x ∧ i ≠ y := by simpa using hm
      rw [if_neg hm, List.getElem_set_ne (Ne.symm hy), List.getElem_set_ne (Ne.symm hx)]
      exact h.data hi hm

end Sources

/-- A whole row as recovery gives it: data strips with the parity made of them. -/
def wholeRow (ds : List Mem) : List (Nat × Mem) := (List.range ds.length).zip ds ++ [(ds.length, parityP ds), (ds.length + 1, parityQ ds)]

/-- A list numbered from `i` on holds its element `j` under number `i + j`. -/
theorem stripOf_zip_range' (l : List Mem) (i j : Nat) : stripOf ((List.range' i l.length).zip l) (i + j) = l.getD j [] := by
  induction l generalizing i j with
  | nil => rfl
  | cons d l ih =>
    have hcons : stripOf ((List.range' i (d :: l).length).zip (d :: l)) (i + j) =
        if i = i + j then d else stripOf ((List.range' (i + 1) l.length).zip l) (i + j) := by
      show (if i = i + j then some d else Tab.get? _ _).getD [] = _
      split <;> rfl
    rw [hcons]
    cases j with
    | zero => exact if_pos rfl
    | succ j => rw [if_neg (by omega), List.getD_cons_succ, ← ih (i + 1) j, Nat.add_right_comm i 1 j, Nat.add_assoc]

theorem stripOf_wholeRow (ds : List Mem) (j : Nat) : stripOf (wholeRow ds) j = (rowStrips ds).getD j [] := by
  have hzip : wholeRow ds = (List.range' 0 (rowStrips ds).length).zip (rowStrips ds) := by
    rw [rowStrips, List.length_append, List.range'_append_1.symm, List.zip_append (by simp), ← List.range_eq_range']
    simp [wholeRow, List.range']
  rw [hzip]
  simpa using stripOf_zip_range' (rowStrips ds) 0 j

/-! ### The rows of Table 3-3 -/

section Table

variable {ds : List Mem} {got : List (Nat × Mem)}

/-- The strip at `x` set to one with the row's bytes. -/
theorem recovered_set {x : Nat} {d : Mem} (h : Obtained ds got [x])
    (hd : ∀ o, Mem.get d o = Mem.get ((rowStrips ds).getD x []) o) : Recovered ds (Tab.set got x d) := by
  intro j hj o
  by_cases hx : j = x
  · rw [hx, stripOf_set_self, hd]
  · rw [stripOf_set_ne _ _ hx, h j hj (by simpa using hx)]

/-- The strips at `x` and `y` set to ones with the row's bytes. -/
theorem recovered_set_set {x y : Nat} {dx dy : Mem} (h : Obtained ds got [x, y])
    (hdx : ∀ o, Mem.get dx o = Mem.get ((rowStrips ds).getD x []) o)
    (hdy : ∀ o, Mem.get dy o = Mem.get ((rowStrips ds).getD y []) o) : Recovered ds (Tab.set (Tab.set got x dx) y dy) := by
  intro j hj o
  by_cases hy : j = y
  · rw [hy, stripOf_set_self, hdy]
  · rw [stripOf_set_ne _ _ hy]
    by_cases hx : j = x
    · rw [hx, stripOf_set_self, hdx]
    · rw [stripOf_set_ne _ _ hx, h j hj (by simp [hx, hy])]

/-- A whole row made of data strips of which one was recovered byte by byte. -/
theorem recovered_wholeRow_set (hds : ∀ d ∈ ds, d.wf = true) {x : Nat} (hx : x < ds.length) {d : Mem} (hwf : d.wf = true)
    (hd : ∀ o, Mem.get d o = Mem.get ds[x] o) : Recovered ds (wholeRow (ds.set x d)) := by
  intro j hj o
  have hlen : (ds.set x d).length = ds.length := List.length_set
  rw [stripOf_wholeRow]
  rcases Nat.lt_trichotomy j ds.length with hlt | rfl | hgt
  · rw [rowStrips_data (hlen ▸ hlt), rowStrips_data hlt, List.getElem_set]
    split
    case isTrue h => subst h; exact hd o
    case isFalse => rfl
  · have hP := rowStrips_P (ds.set x d)
    rw [hlen] at hP
    rw [hP, rowStrips_P, get_parityP_set hds hwf hx, hd, BitVec.xor_self, BitVec.xor_zero]
  · obtain rfl : j = ds.length + 1 := by omega
    have hQ := rowStrips_Q (ds.set x d)
    rw [hlen] at hQ
    rw [hQ, rowStrips_Q, get_parityQ_set hds hwf hx, hd, BitVec.xor_self]
    simp

variable (hds : ∀ d ∈ ds, d.wf = true)

include hds

/-- One data strip, from P. -/
theorem recovered_data {x : Nat} (hx : x < ds.length) (h : Obtained ds got [x]) : Recovered ds (recover ds.length got [x]) := by
  have hrec : recover ds.length got [x] = Tab.set got x (Mem.xor (parityP ds) (parityP (ds.set x []))) := by
    rw [recover, if_pos hx, h.P (by simp; omega), dataStrips_one h (by simp)]
  rw [hrec]
  exact recovered_set h fun o => by rw [get_data_of_P hds hx, rowStrips_data hx]

omit hds in
theorem recovered_P (h : Obtained ds got [ds.length]) : Recovered ds (recover ds.length got [ds.length]) := by
  have hrec : recover ds.length got [ds.length] = Tab.set got ds.length (parityP ds) := by
    rw [recover, if_neg (Nat.lt_irrefl _), if_pos rfl, dataStrips_none h (by simp)]
  rw [hrec]
  exact recovered_set h fun o => by rw [rowStrips_P]

omit hds in
theorem recovered_Q (h : Obtained ds got [ds.length + 1]) : Recovered ds (recover ds.length got [ds.length + 1]) := by
  have hrec : recover ds.length got [ds.length + 1] = Tab.set got (ds.length + 1) (parityQ ds) := by
    rw [recover, if_neg (by omega), if_neg (by omega), dataStrips_none h (by simp)]
  rw [hrec]
  exact recovered_set h fun o => by rw [rowStrips_Q]

/-- Two data strips, from P and Q. -/
theorem recovered_data_data {x y : Nat} (hxy : x < y) (hy : y < ds.length) (hk : ds.length ≤ 28) (h : Obtained ds got [x, y]) :
    Recovered ds (recover ds.length got [x, y]) := by
  have hset := forall_wf_set (forall_wf_set hds (d := []) rfl x) (d := []) rfl y
  have hP := Mem.wf_xor (parityP ds) (parityP ((ds.set x []).set y [])) (wf_parityP ds)
  have hQ := Mem.wf_xor (parityQ ds) (parityQ ((ds.set x []).set y [])) (wf_parityQ hds)
  have hdx (o : Nat) := get_data_of_Pxy_Qxy hP hQ hxy (by omega) (get_Pxy hds hxy hy o) (get_Qxy hds hxy hy o)
  rw [recover, h.P (by simp; omega), h.Q (by simp; omega), dataStrips_two h, if_pos hy]
  refine recovered_set_set h (fun o => ?_) fun o => ?_
  · rw [hdx, rowStrips_data]
  · rw [Mem.get_xor hP (Mem.wf_scale _ _ (Mem.wf_xor _ _ hQ)), hdx, get_Pxy hds hxy hy, rowStrips_data hy, BitVec.xor_comm, xor_cancel_left]

/-- One data strip and P: the data strip from Q, then P anew. -/
theorem recovered_data_P {x : Nat} (hx : x < ds.length) (h : Obtained ds got [x, ds.length]) :
    Recovered ds (recover ds.length got [x, ds.length]) := by
  have hwf := Mem.wf_scale (gfInv (gfPow x)) _ (Mem.wf_xor (parityQ ds) (parityQ (ds.set x [])) (wf_parityQ hds))
  have hrec : recover ds.length got [x, ds.length] =
      wholeRow (ds.set x (Mem.scale (gfInv (gfPow x)) (Mem.xor (parityQ ds) (parityQ (ds.set x []))))) := by
    rw [recover, if_neg (Nat.lt_irrefl _), if_pos hx, if_pos rfl, h.Q (by simp; omega), dataStrips_one h (by simp)]
    dsimp only
    rw [dataStrips_set h (by simp), wholeRow, List.length_set]
  rw [hrec]
  exact recovered_wholeRow_set hds hx hwf (get_data_of_Q hds hx)

/-- One data strip and Q: the data strip from P, then Q anew. -/
theorem recovered_data_Q {x : Nat} (hx : x < ds.length) (h : Obtained ds got [x, ds.length + 1]) :
    Recovered ds (recover ds.length got [x, ds.length + 1]) := by
  have hwf := Mem.wf_xor (parityP ds) (parityP (ds.set x [])) (wf_parityP ds)
  have hrec : recover ds.length got [x, ds.length + 1] = wholeRow (ds.set x (Mem.xor (parityP ds) (parityP (ds.set x [])))) := by
    rw [recover, if_neg (by omega), if_pos hx, if_neg (by omega), h.P (by simp; omega), dataStrips_one h (by simp)]
    dsimp only
    rw [dataStrips_set h (by simp), wholeRow, List.length_set]
  rw [hrec]
  exact recovered_wholeRow_set hds hx hwf (get_data_of_P hds hx)

omit hds in
theorem recovered_P_Q (h : Obtained ds got [ds.length, ds.length + 1]) :
    Recovered ds (recover ds.length got [ds.length, ds.length + 1]) := by
  have hrec : recover ds.length got [ds.length, ds.length + 1] = wholeRow ds := by
    rw [recover, if_neg (by omega), if_neg (by omega), dataStrips_none h (by simp)]
    rfl
  rw [hrec]
  exact fun j _ o => by rw [stripOf_wholeRow]

end Table

/-- Settles O55, by the rows of Table 3-3. -/
theorem recoverErased : Obligations.RecoverErased := by
  intro ds got erased _ hk hwf _ hlen hsorted hlt hgot
  have hds := List.all_eq_true.1 hwf
  show Recovered ds (recover ds.length got erased)
  match erased, hlen with
  | [], _ => exact fun j hj o => congrArg (Mem.get · o) (hgot j hj (by simp))
  | [x], _ =>
    have hx : x < ds.length + 2 := hlt x (by simp)
    rcases (by omega : x < ds.length ∨ x = ds.length ∨ x = ds.length + 1) with hx | rfl | rfl
    · exact recovered_data hds hx hgot
    · exact recovered_P hgot
    · exact recovered_Q hgot
  | [x, y], _ =>
    have hxy : x < y := by simpa using hsorted
    have hy : y < ds.length + 2 := hlt y (by simp)
    rcases (by omega : y < ds.length ∨ x < ds.length ∧ y = ds.length ∨ x < ds.length ∧ y = ds.length + 1 ∨
      x = ds.length ∧ y = ds.length + 1) with hy | ⟨hx, rfl⟩ | ⟨hx, rfl⟩ | ⟨rfl, rfl⟩
    · exact recovered_data_data hds hxy hy hk hgot
    · exact recovered_data_P hds hx hgot
    · exact recovered_data_Q hds hx hgot
    · exact recovered_P_Q hgot
end Sys2Proof
end

section
/-! PROOFS. The Peridot layout (R136): where P, Q and the data strips of a row lie. -/

namespace Sys2Proof.Machine

/-- Of `w` numbers in a row, exactly one has residue `t`. -/
theorem length_filter_add_mod {w t : Nat} (v : Nat) (ht : t < w) :
    ((List.range w).filter (fun x => (v + x) % w == t)).length = 1 := by
  have hv : v % w < w := Nat.mod_lt _ (by omega)
  obtain ⟨x₀, hx₀, hx₀t⟩ : ∃ x₀ < w, (v % w + x₀ = t ∨ v % w + x₀ = t + w) := by
    by_cases h : v % w ≤ t
    · exact ⟨t - v % w, by omega, by omega⟩
    · exact ⟨t + w - v % w, by omega, by omega⟩
  have hiff (x : Nat) (hx : x ∈ List.range w) : ((v + x) % w == t) = (x == x₀) := by
    have hx : x < w := List.mem_range.1 hx
    rw [Bool.eq_iff_iff, beq_iff_eq, beq_iff_eq, Nat.add_mod_eq_ite, Nat.mod_eq_of_lt hx]
    split <;> omega
  rw [List.filter_congr hiff, List.filter_beq, List.length_replicate]
  exact List.count_eq_one_of_mem List.nodup_range (List.mem_range.2 hx₀)

section Peridot

variable {c : PoolCfg} (h : c.n = c.w)

include h

theorem poolIndex_P (v : Nat) : poolIndex c v c.k = c.w - 1 - v % c.w := by
  simp [poolIndex, PoolCfg.peridot, h]

theorem poolIndex_Q (v : Nat) : poolIndex c v (c.k + 1) = (c.w - 1 - v % c.w + 1) % c.w := by
  simp [poolIndex, PoolCfg.peridot, h]

theorem poolIndex_data (v : Nat) {i : Nat} (hi : i < c.k) : poolIndex c v i = (c.w - 1 - v % c.w + 2 + i) % c.w := by
  have hne : i ≠ c.k + 1 := by omega
  simp [poolIndex, PoolCfg.peridot, h, Nat.ne_of_lt hi, hne]

/-- P lies on pool index `m` in the rows of one residue. -/
theorem poolIndex_P_beq (v : Nat) {m : Nat} (hm : m < c.w) : (poolIndex c v c.k == m) = (v % c.w == c.w - 1 - m) := by
  have hv : v % c.w < c.w := Nat.mod_lt _ (by omega)
  rw [poolIndex_P h, Bool.eq_iff_iff, beq_iff_eq, beq_iff_eq]
  omega

/-- Q lies on pool index `m` in the rows of one residue. -/
theorem poolIndex_Q_beq (v : Nat) {m : Nat} (hm : m < c.w) : (poolIndex c v (c.k + 1) == m) = (v % c.w == (c.w - m) % c.w) := by
  have hv : v % c.w < c.w := Nat.mod_lt _ (by omega)
  have hq : c.w - 1 - v % c.w + 1 = c.w - v % c.w := by omega
  have hsub (a : Nat) (ha : a < c.w) : (c.w - a) % c.w = if a = 0 then 0 else c.w - a := by
    split
    case isTrue h0 => rw [h0, Nat.sub_zero, Nat.mod_self]
    case isFalse h0 => exact Nat.mod_eq_of_lt (by omega)
  rw [poolIndex_Q h, hq, hsub _ hv, hsub _ hm, Bool.eq_iff_iff, beq_iff_eq, beq_iff_eq]
  split <;> split <;> omega

end Peridot

/-- Settles O56: over w consecutive rows the residue that puts P, or Q, on a pool index comes once. -/
theorem peridotPlaces : Obligations.PeridotPlaces := by
  intro c h
  refine ⟨poolIndex_P h, poolIndex_Q h, fun v i hi => poolIndex_data h v hi, fun v m hm => ⟨?_, ?_⟩⟩
  · simp only [poolIndex_P_beq h _ hm]
    exact length_filter_add_mod v (by omega)
  · simp only [poolIndex_Q_beq h _ hm]
    exact length_filter_add_mod v (Nat.mod_lt _ (by omega))

end Sys2Proof.Machine
end

section
/-! PROOFS. Laws that the pool commands share: checks, mailbox endings, pools read back, and the metadata written to members. -/

namespace Sys2Proof.Machine

/-! ### What a command's checks and endings say -/

theorem fieldsBad_clear {l : List (Nat × Bool)} (h : l.all (fun f => !f.2) = true) : (fieldsBad l).fails = false := by
  have hl : l.filter (fun x => x.2) = [] := by simpa [List.filter_eq_nil_iff] using h
  simp [fieldsBad, lowestField, hl]

/-- A command parked for `r` on a state that differs from the one with the command taken in no mailbox. -/
theorem mbxPark_runs_of_mbx {s u : State} {g : Go} {objs : List (Nat × Nat)} (r : Running) (data : List Byte)
    (hu : u.mbx = (mbxTake s g objs none).mbx) : Runs (settled (mbxPark u g.mb r data)) g r data := by
  have hm : getMbx u g.mb = getMbx (mbxTake s g objs none) g.mb := by simp only [getMbx, hu]
  exact (mbxPark_runs u g r data (by simp [hm]) (by simp [hm])).settled

/-- Success on a state that differs from the one with the command taken in no mailbox. -/
theorem mbxOk_answered_of_mbx {s u : State} {g : Go} {objs : List (Nat × Nat)} (data : List Byte)
    (hu : u.mbx = (mbxTake s g objs none).mbx) : Answered (settled (mbxOk u g.mb data)) g data := by
  have hm : getMbx u g.mb = getMbx (mbxTake s g objs none) g.mb := by simp only [getMbx, hu]
  exact (mbxOk_answered u g data (by simp [hm]) (by simp [hm])).settled

/-! ### Pools and their configuration read back -/

theorem poolCfg?_settled (s : State) (pool : Nat) : poolCfg? (settled s) pool = poolCfg? s pool := by simp [poolCfg?]

theorem getPool_settled (s : State) (pool : Nat) : getPool (settled s) pool = getPool s pool := by simp [getPool]

theorem poolCfg?_mbxPark (s : State) (mb : Nat) (r : Running) (data : List Byte) (pool : Nat) :
    poolCfg? (mbxPark s mb r data) pool = poolCfg? s pool := rfl

theorem getPool_mbxPark (s : State) (mb : Nat) (r : Running) (data : List Byte) (pool : Nat) :
    getPool (mbxPark s mb r data) pool = getPool s pool := rfl

/-- A command that waits for its configuration to be stored has changed it already. -/
theorem poolCfg_mbxStore (s : State) (mb : Nat) (data : List Byte) (pool : Nat) :
    poolCfg (settled (mbxStore s mb data)) pool = poolCfg s pool := by
  rw [poolCfg, poolCfg?_settled, mbxStore, poolCfg?_mbxPark, poolCfg]

theorem getMember_mbxStore (s : State) (mb : Nat) (data : List Byte) (m : Nat) :
    getMember (settled (mbxStore s mb data)) m = getMember s m := by
  simp [getMember, mbxStore]

@[simp] theorem poolCfg?_mbxTake (s : State) (g : Go) (objs : List (Nat × Nat)) (r : Option Running) (pool : Nat) :
    poolCfg? (mbxTake s g objs r) pool = poolCfg? s pool := by simp [poolCfg?]

@[simp] theorem poolCfg_mbxTake (s : State) (g : Go) (objs : List (Nat × Nat)) (r : Option Running) (pool : Nat) :
    poolCfg (mbxTake s g objs r) pool = poolCfg s pool := by simp [poolCfg]

@[simp] theorem getPool_mbxTake (s : State) (g : Go) (objs : List (Nat × Nat)) (r : Option Running) (pool : Nat) :
    getPool (mbxTake s g objs r) pool = getPool s pool := by simp [getPool]

@[simp] theorem volsOfPool_mbxTake (s : State) (g : Go) (objs : List (Nat × Nat)) (r : Option Running) (pool : Nat) :
    volsOfPool (mbxTake s g objs r) pool = volsOfPool s pool := by simp [volsOfPool]

@[simp] theorem poolCfg?_setPoolCfg_self (s : State) (pool : Nat) (c : PoolCfg) : poolCfg? (setPoolCfg s pool c) pool = some c :=
  Tab.get?_set_self _ _ _

/-! ### Pool metadata written (R247) -/

theorem writeHeader_Frame (s : State) (pool : Nat) (ms : List Nat) :
    Frame [.pools, .nextId, .mcmds, .budget] s (writeHeader s pool ms) := metaWrite_Frame _ _ _ _ _ _ _

theorem writeTable_Frame (s : State) (pool : Nat) (ms : List Nat) :
    Frame [.pools, .nextId, .mcmds, .budget] s (writeTable s pool ms) := metaWrite_Frame _ _ _ _ _ _ _

/-- Writing a pool's metadata changes nothing of the pools but the generation of that pool. -/
theorem metaWrite_pools (s : State) (pool : Nat) (ms : List Nat) (off len : Nat) (data : Mem) (purpose : Purpose) :
    (metaWrite s pool ms off len data purpose).pools =
      (setPool s pool { getPool s pool with metaGen := (getPool s pool).metaGen + 1 }).pools := by
  unfold metaWrite
  exact (Frame.foldl _ (fun t m => issue_Frame t _) ms _).pools (by simp)

theorem getPool_metaWrite_st (s : State) (pool : Nat) (ms : List Nat) (off len : Nat) (data : Mem) (purpose : Purpose) :
    (getPool (metaWrite s pool ms off len data purpose) pool).st = (getPool s pool).st := by
  rw [getPool, metaWrite_pools, setPool, Tab.getD_set_self]

@[simp] theorem getPool_writeHeader_st (s : State) (pool : Nat) (ms : List Nat) :
    (getPool (writeHeader s pool ms) pool).st = (getPool s pool).st := getPool_metaWrite_st _ _ _ _ _ _ _

@[simp] theorem getPool_writeTable_st (s : State) (pool : Nat) (ms : List Nat) :
    (getPool (writeTable s pool ms) pool).st = (getPool s pool).st := getPool_metaWrite_st _ _ _ _ _ _ _

end Sys2Proof.Machine
end

section
/-! PROOFS. The pool group of mailbox commands (Tables 11-8 and 11-10): one equation per command, then what each leaves. -/

namespace Sys2Proof.Machine

/-! ### POOL_CREATE (R150, R486) -/

theorem exec_poolCreate {s : State} {g : Go} {p : PoolParams} {found : List MemberIdent}
    (h : GoReady s g false (16 + 2 * p.n + 2 * p.spares.length) [objPool p.pool]) (hph : s.phase = .ready) (hpool : p.pool < 64)
    (hk : 4 ≤ p.k ∧ p.k ≤ 28) (hs : p.n = p.k + 2 ∨ p.s ≤ 2) (hn : p.k + 2 ≤ p.n ∧ p.n ≤ 1024) (hsp : p.spares.length ≤ 4)
    (hmir : p.mirrorGiven = true → p.mirror0 < p.n ∧ p.mirror1 < p.n ∧ groupAt s p.members p.mirror0 ≠ groupAt s p.members p.mirror1)
    (hnone : poolCfg? s p.pool = none)
    (herr : (memberErrors s p.pool (p.members ++ p.spares) 16 [] found).all (fun e => !e.2) = true)
    (hgroup : (otherGroup s p.members).isSome = true) (hlen : p.members.length = p.n) :
    exec (.poolCreate g p found) s =
      .next (settled (mbxPark (makePool (mbxTake s g [objPool p.pool] none) p found) g.mb (.poolCreate p.pool) [])) := by
  obtain ⟨hk4, hk28⟩ := hk
  obtain ⟨hnk, hn1024⟩ := hn
  show execPoolCreate g p found s = _
  unfold execPoolCreate
  rw [mbxRun_clear _ _ _ _ h rfl]
  · rfl
  · have hcols : (p.n != p.k + 2 && decide (2 < p.s)) = false := by
      rcases hs with h | h
      · simp [h]
      · simp [Nat.not_lt.2 h]
    have hm : (p.mirrorGiven && decide (p.n ≤ p.mirror0)) = false ∧ (p.mirrorGiven && decide (p.n ≤ p.mirror1)) = false := by
      cases hg : p.mirrorGiven
      · simp
      · obtain ⟨h0, h1, -⟩ := hmir hg
        simp [h0, h1]
    simp [hcols, hm, hk4, hk28, hnk, hn1024, hsp, Nat.lt_succ_iff.1 hpool]
  · have hshare : (p.mirrorGiven && groupAt s p.members p.mirror0 == groupAt s p.members p.mirror1) = false := by
      cases hg : p.mirrorGiven
      · rfl
      · simpa using (hmir hg).2.2
    have hfirst := fieldsBad_clear (l := [(0, (poolCfg? s p.pool).isSome), (12, p.mirrorGiven && groupAt s p.members p.mirror0 ==
      groupAt s p.members p.mirror1)] ++ memberErrors s p.pool (p.members ++ p.spares) 16 [] found)
      (by rw [List.all_append, herr, hnone, hshare]; rfl)
    have hsecond := fieldsBad_clear (l := [(16, (otherGroup s p.members).isNone || p.members.length != p.n)])
      (by simp [hlen, hgroup])
    simp only [List.all_cons, hfirst, hsecond, needReplay, hph]
    rfl

/-- Taking members into service changes the members alone. -/
theorem takeMembers_Frame (found : List MemberIdent) (st : MemberState) (ms : List Nat) (s : State) :
    Frame [.members] s (ms.foldl (takeMember found st) s) :=
  .foldl _ (fun t m => setMember_Frame t m _) ms s

/-- The configuration that POOL_CREATE stores, and the state the pool begins in. -/
theorem makePool_poolCfg? (s : State) (p : PoolParams) (found : List MemberIdent) :
    ∃ c, poolCfg? (makePool s p found) p.pool = some c ∧ c.k = p.k ∧ c.n = p.n ∧ c.s = spareCols p.k p.s p.n ∧ c.members = p.members ∧
      c.spares = p.spares ∧ c.seed = (if !decide (p.n ≠ p.k + 2) then 0 else if p.seedGiven then p.seed else
        (Config.random32 s.freeIx).setWidth 16) := by
  refine ⟨?c, ?stored, ?fields⟩
  case stored =>
    simp only [poolCfg?, makePool]
    rw [(writeHeader_Frame _ _ _).cfg (by simp), (writeTable_Frame _ _ _).cfg (by simp)]
    exact Tab.get?_set_self _ _ _
  case fields => exact ⟨rfl, rfl, rfl, rfl, rfl, rfl⟩

theorem makePool_st (s : State) (p : PoolParams) (found : List MemberIdent) :
    (getPool (makePool s p found) p.pool).st = .initialising := by
  simp [makePool]

/-! ### Commands that name a pool -/

theorem PoolReady.poolCfg_eq {s : State} {pool : Nat} {c : PoolCfg} (h : PoolReady s pool c) : poolCfg s pool = c := by
  obtain ⟨-, -, hc, -⟩ := h
  simp [poolCfg, hc]

/-- The checks of the object pass for a pool that a command may name. -/
theorem PoolReady.poolObj_clear {s : State} {pool : Nat} {c : PoolCfg} (h : PoolReady s pool c) (off : Nat) :
    (poolObj s pool off).all (fun c => !c.fails) = true := by
  have hcfg := h.poolCfg_eq
  obtain ⟨hph, -, hc, hres⟩ := h
  simp [poolObj, need, needReplay, poolReserved, hcfg, hph, hc, hres]

theorem PoolReady.stoppedFields_clear {s : State} {pool off : Nat} {c : PoolCfg} {stopped : Bool} {l : List (Nat × Bool)}
    (h : PoolReady s pool c) (hs : stopped = true) (hl : (fieldsBad l).fails = false) :
    (poolObj s pool off ++ [needStopped stopped, fieldsBad l]).all (fun c => !c.fails) = true := by
  rw [List.all_append, h.poolObj_clear]
  simp [needStopped, hs, hl]

theorem PoolReady.number_clear {s : State} {pool : Nat} {c : PoolCfg} (h : PoolReady s pool c) : decide (63 < pool) = false := by
  obtain ⟨-, hlt, -, -⟩ := h
  exact decide_eq_false (by omega)

/-- What POOL_DELETE writes: zero over the pool header of each member and hot spare (R487). -/
def headersZeroed (s : State) (pool t gen : Nat) (ms : List Nat) : State :=
  ms.foldl (fun s m =>
    issue s { id := 0, member := m, pool := pool, tile := t, op := .write, off := 0, len := 4096, units := metaUnits gen 4096 []
              purpose := .metadata pool, pipe := .host }) s

/-- The partner of a mirrored pool told of its deletion. -/
def partnerTold (s : State) (pool : Nat) : State :=
  match (poolCfg s pool).partner with
  | some l => partnerSend s l (.withdraw pool)
  | none => s

theorem partnerTold_Frame (s : State) (pool : Nat) : Frame [.partners] s (partnerTold s pool) := by
  unfold partnerTold
  split
  · exact partnerSend_Frame _ _ _
  · exact .refl _ s

theorem headersZeroed_Frame (s : State) (pool t gen : Nat) (ms : List Nat) :
    Frame [.nextId, .mcmds, .budget] s (headersZeroed s pool t gen ms) := .foldl _ (fun t _ => issue_Frame t _) ms s

/-- The pool as POOL_DELETE leaves it. -/
def poolDropped (s : State) (pool : Nat) : State :=
  headersZeroed (removePool (partnerTold s pool) pool) pool (getPool s pool).tile ((getPool (partnerTold s pool) pool).metaGen + 1)
    ((poolCfg s pool).members ++ (poolCfg s pool).spares)

theorem removePool_mbx (s : State) (pool : Nat) : (removePool s pool).mbx = s.mbx :=
  (Frame.foldl _ (fun t v => setTile_Frame t _ _) (volsOfPool s pool) s).mbx (by simp)

theorem poolDropped_mbx (s : State) (pool : Nat) : (poolDropped s pool).mbx = s.mbx := by
  rw [poolDropped, (headersZeroed_Frame _ _ _ _ _).mbx (by simp), removePool_mbx, (partnerTold_Frame _ _).mbx (by simp)]

theorem poolCfg?_poolDropped (s : State) (pool : Nat) : poolCfg? (poolDropped s pool) pool = none := by
  rw [poolDropped, poolCfg?, (headersZeroed_Frame _ _ _ _ _).cfg (by simp)]
  exact Tab.get?_erase_self _ _

theorem getPool_poolDropped (s : State) (pool : Nat) : (getPool (poolDropped s pool) pool).st = .absent := by
  rw [poolDropped, getPool, (headersZeroed_Frame _ _ _ _ _).pools (by simp), removePool, Tab.getD, Tab.get?_erase_self]
  rfl

/-- HOTSPARE_SET: the hot spares of a pool that serve as homes stay listed (R219, log entry 60). -/
def sparesKept (s : State) (c : PoolCfg) : List Nat := c.spares.filter (fun m => (getMember s m).st == .replacing)

/-- The hot spares a pool lists as HOTSPARE_SET finds them. -/
def sparesHeld (s : State) (c : PoolCfg) : List Nat := sparesKept s c ++ c.spares.filter (fun m => (getMember s m).st == .spare)

/-- The members that HOTSPARE_SET lists beyond those kept. -/
def sparesMore (s : State) (c : PoolCfg) (ms : List Nat) : List Nat := ms.filter (fun m => !(sparesKept s c).contains m)

/-- A pool's list of hot spares stored, those new to it taken into service and given the pool's header and member table. -/
def sparesSet (s : State) (pool : Nat) (c : PoolCfg) (l new : List Nat) (found : List MemberIdent) : State :=
  writeTable (writeHeader (setPoolCfg (new.foldl (takeMember found .spare) s) pool { c with spares := l }) pool new) pool new

theorem sparesSet_mbx (s : State) (pool : Nat) (c : PoolCfg) (l new : List Nat) (found : List MemberIdent) :
    (sparesSet s pool c l new found).mbx = s.mbx := by
  rw [sparesSet, (writeTable_Frame _ _ _).mbx (by simp), (writeHeader_Frame _ _ _).mbx (by simp), setPoolCfg_mbx,
    (takeMembers_Frame _ _ _ _).mbx (by simp)]

theorem poolCfg_sparesSet (s : State) (pool : Nat) (c : PoolCfg) (l new : List Nat) (found : List MemberIdent) :
    (poolCfg (sparesSet s pool c l new found) pool).spares = l := by
  rw [poolCfg, poolCfg?, sparesSet, (writeTable_Frame _ _ _).cfg (by simp), (writeHeader_Frame _ _ _).cfg (by simp)]
  exact congrArg (fun o => (Option.getD o noPool).spares) (Tab.get?_set_self _ _ _)

theorem sparesSet_members (s : State) (pool : Nat) (c : PoolCfg) (l new : List Nat) (found : List MemberIdent) :
    (sparesSet s pool c l new found).members = (new.foldl (takeMember found .spare) s).members := by
  rw [sparesSet, (writeTable_Frame _ _ _).members (by simp), (writeHeader_Frame _ _ _).members (by simp), setPoolCfg_members]

/-- What the status commands read stands in the state with the command taken. -/
theorem poolStatusBytes_mbxTake (s : State) (g : Go) (objs : List (Nat × Nat)) (r : Option Running) (pool : Nat) :
    poolStatusBytes (mbxTake s g objs r) pool = poolStatusBytes s pool := by
  simp [poolStatusBytes, initPercent, dataLen, heldExtents]

theorem rebuildStatusBytes_mbxTake (s : State) (g : Go) (objs : List (Nat × Nat)) (r : Option Running) (pool : Nat) :
    rebuildStatusBytes (mbxTake s g objs r) pool = rebuildStatusBytes s pool := by
  have hbroken : isBroken (mbxTake s g objs r) pool = isBroken s pool := by funext row; simp [isBroken]
  simp [rebuildStatusBytes, hbroken]

section Commands

variable {s : State} {g : Go} {pool : Nat} {c : PoolCfg}

theorem exec_poolStatus (h : GoReady s g false 2 [objPool pool]) (hph : s.phase = .ready) (hlt : pool < 64) :
    exec (.poolStatus g pool) s = .next (settled (mbxOk (mbxTake s g [objPool pool] none) g.mb (poolStatusBytes s pool))) := by
  show execPoolStatus g pool s = _
  unfold execPoolStatus
  rw [mbxRun_clear _ _ _ _ h rfl]
  · simp [done_eq, poolStatusBytes_mbxTake]
  · simpa using Nat.lt_succ_iff.1 hlt
  · simp [needReplay, hph]

theorem exec_rebuildConfig {floor : Nat} (h : GoReady s g false 1 []) (h2 : 2 ≤ floor) (h50 : floor ≤ 50) :
    exec (.rebuildConfig g floor) s =
      .next (settled (mbxStore { mbxTake s g [] none with cfg := { s.cfg with floorPct := floor } } g.mb [])) := by
  show execRebuildConfig g floor s = _
  unfold execRebuildConfig
  rw [mbxRun_clear _ _ _ _ h rfl]
  · simp [done_eq]
  · simp [h50, Nat.lt_of_lt_of_le one_lt_two h2]
  · rfl

variable (hp : PoolReady s pool c)

include hp

theorem exec_poolDelete (h : GoReady s g false 2 [objPool pool]) (hst : (getPool s pool).st = .stopped) (hv : volsOfPool s pool = []) :
    exec (.poolDelete g pool) s = .next (settled (mbxStore (poolDropped (mbxTake s g [objPool pool] none) pool) g.mb [])) := by
  show execPoolDelete g pool s = _
  unfold execPoolDelete
  rw [mbxRun_clear _ _ _ _ h rfl]
  · rfl
  · simp [hp.number_clear]
  · simp [List.all_append, hp.poolObj_clear, needStopped, needFree, hst, hv]

theorem exec_poolStart (h : GoReady s g false 2 [objPool pool]) (hst : (getPool s pool).st = .stopped)
    (hd : (getPool s pool).disowned = false) :
    exec (.poolStart g pool) s = .next (settled (mbxStore (setRunning (mbxTake s g [objPool pool] none) pool true) g.mb [])) := by
  show execPoolStart g pool s = _
  unfold execPoolStart
  rw [mbxRun_clear _ _ _ _ h rfl]
  · simp [done_eq, hst]
  · simp [hp.number_clear]
  · simp [List.all_append, hp.poolObj_clear, refuse, needStopped, needFree, hst, hd]

theorem exec_poolStop (h : GoReady s g false 2 [objPool pool]) (hst : (getPool s pool).st = .running)
    (hv : ∀ v ∈ volsOfPool s pool, (getVol s v).st = .stopped) :
    exec (.poolStop g pool) s = .next (settled (mbxStore (setRunning (mbxTake s g [objPool pool] none) pool false) g.mb [])) := by
  show execPoolStop g pool s = _
  unfold execPoolStop
  rw [mbxRun_clear _ _ _ _ h rfl]
  · simp [done_eq, hst]
  · simp [hp.number_clear]
  · simpa [List.all_append, hp.poolObj_clear, needStopped] using hv

/-- A pool with a volume that runs is not stopped. -/
theorem exec_poolStop_running {v : Nat} (h : GoReady s g false 2 [objPool pool]) (hv : v ∈ volsOfPool s pool)
    (hr : (getVol s v).st = .running) : exec (.poolStop g pool) s =
      .next (settled (mbxFinish (mbxTake s g [objPool pool] (some .waiting)) g.mb 0x0100 0 [])) := by
  have hall : (volsOfPool s pool).all (fun v => (getVol s v).st == .stopped) = false := List.all_eq_false.2 ⟨v, hv, by simp [hr]⟩
  have hobj := hp.poolObj_clear 0
  show execPoolStop g pool s = _
  unfold execPoolStop
  rw [mbxRun_fails (c := needStopped false) _ _ _ _ h rfl]
  · rfl
  · simp [hp.number_clear]
  · simp only [poolObj, List.all_cons, List.all_nil, Bool.and_eq_true, Bool.not_eq_true', and_true] at hobj
    obtain ⟨hneed, hreplay⟩ := hobj
    simp [poolObj, firstFailing, hneed, hreplay, hall, needStopped]

theorem exec_hotspareSet {ms : List Nat} {found : List MemberIdent}
    (h : GoReady s g false (if ms.isEmpty then 3 else 4 + 2 * ms.length) [objPool pool]) (hst : (getPool s pool).st = .stopped)
    (hms : ms.length ≤ 4) (hl : (sparesKept s c).length + (sparesMore s c ms).length ≤ 4)
    (herr : (memberErrors s pool ms 4 (sparesHeld s c) found).all (fun e => !e.2) = true) :
    exec (.hotspareSet g pool ms found) s = .next (settled (mbxStore (sparesSet (mbxTake s g [objPool pool] none) pool c
      (sparesKept s c ++ sparesMore s c ms) (ms.filter (fun m => !(sparesHeld s c).contains m)) found) g.mb [])) := by
  have hfields := fieldsBad_clear (l := (2, decide (4 < (sparesKept s c).length + (sparesMore s c ms).length)) ::
    memberErrors s pool ms 4 (sparesHeld s c) found) (by rw [List.all_cons, herr]; simpa using hl)
  have hc := hp.poolCfg_eq
  subst hc
  show execHotspareSet g pool ms found s = _
  unfold execHotspareSet
  rw [mbxRun_clear _ _ _ _ h rfl]
  · rfl
  · simp [hp.number_clear, hms]
  · exact hp.stoppedFields_clear (by simp [hst]) hfields

theorem exec_poolDegradedConfig {us days : Nat} (h : GoReady s g false 6 [objPool pool]) (hus : 100 ≤ us ∧ us ≤ 5000) (hdays : days ≤ 365)
    (hst : (getPool s pool).st = .stopped) : exec (.poolDegradedConfig g pool us days) s =
      .next (settled (mbxStore (setPoolCfg (mbxTake s g [objPool pool] none) pool { c with deadlineUs := us, scrubDays := days }) g.mb [])) := by
  show execPoolDegradedConfig g pool us days s = _
  unfold execPoolDegradedConfig
  rw [mbxRun_clear _ _ _ _ h rfl]
  · simp [done_eq, hp.poolCfg_eq]
  · simp [hp.number_clear, hus, hdays]
  · simp [List.all_append, hp.poolObj_clear, needStopped, hst]

theorem exec_rebuildStatus {buf : SegDesc} (h : GoReady s g false 24 [objPool pool]) (hb : badBuf buf = false) :
    exec (.rebuildStatus g pool buf) s = .next (settled (mbxOk (writeBuf (mbxTake s g [objPool pool] none) g.mb buf
      (rebuildStatusBytes s pool)) g.mb (bytesField (rebuildStatusBytes s pool)))) := by
  show execRebuildStatus g pool buf s = _
  unfold execRebuildStatus
  rw [mbxRun_clear _ _ _ _ h rfl _ (hp.poolObj_clear 0)]
  · simp [done_eq, rebuildStatusBytes_mbxTake]
  · simp [hp.number_clear, hb]

theorem scrubControl_eq (f : State → State) (h : GoReady s g false 3 [objPool pool]) :
    scrubControl s g pool f = .next (settled (mbxOk (f (mbxTake s g [objPool pool] none)) g.mb [])) := by
  unfold scrubControl
  rw [mbxRun_clear _ _ _ _ h rfl _ (hp.poolObj_clear 0)]
  · rfl
  · simp [hp.number_clear]

theorem exec_scrubStart (h : GoReady s g false 3 [objPool pool]) :
    exec (.scrubStart g pool) s = .next (settled (mbxOk (restartScrub (mbxTake s g [objPool pool] none) pool) g.mb [])) :=
  scrubControl_eq hp (fun s => restartScrub s pool) h

theorem exec_scrubPause (h : GoReady s g false 3 [objPool pool]) : exec (.scrubPause g pool) s =
    .next (settled (mbxOk (setPool (mbxTake s g [objPool pool] none) pool { getPool s pool with scrubPaused := true }) g.mb [])) := by
  show scrubControl s g pool (fun s => modPool s pool (fun p => { p with scrubPaused := true })) = _
  rw [scrubControl_eq hp _ h, modPool_eq, getPool_mbxTake]

theorem exec_scrubResume (h : GoReady s g false 3 [objPool pool]) : exec (.scrubResume g pool) s =
    .next (settled (mbxOk (setPool (mbxTake s g [objPool pool] none) pool { getPool s pool with scrubPaused := false }) g.mb [])) := by
  show scrubControl s g pool (fun s => modPool s pool (fun p => { p with scrubPaused := false })) = _
  rw [scrubControl_eq hp _ h, modPool_eq, getPool_mbxTake]

theorem exec_lstRead {first : Nat} {buf : SegDesc} (h : GoReady s g false 24 [objPool pool]) (hb : badBuf buf = false) :
    exec (.lstRead g pool first buf) s = .next (settled (mbxOk (writeBuf (mbxTake s g [objPool pool] none) g.mb buf
        (((getPool s pool).lst.drop first).flatMap (lstBytes pool))) g.mb
      (leBytes 4 ((getPool s pool).lst.drop first).length ++ bytesField (((getPool s pool).lst.drop first).flatMap (lstBytes pool))))) := by
  show execLstRead g pool first buf s = _
  unfold execLstRead
  rw [mbxRun_clear _ _ _ _ h rfl _ (hp.poolObj_clear 0)]
  · simp [done_eq]
  · simp [hp.number_clear, hb]

end Commands

/-! ### What the commands leave -/

theorem poolCfg?_setRunning (s : State) (pool : Nat) (on : Bool) :
    poolCfg? (setRunning s pool on) pool = some { poolCfg s pool with running := on } := poolCfg?_setPoolCfg_self _ _ _

theorem getPool_setRunning_st (s : State) (pool : Nat) (on : Bool) :
    (getPool (setRunning s pool on) pool).st = if on then .running else .stopped := by simp [setRunning, getPool, setPool]

/-- A command that starts or stops a pool: its state, its configuration, and what it waits for. -/
theorem setRunning_stored {s : State} {g : Go} {pool : Nat} {c : PoolCfg} (hp : PoolReady s pool c) (on : Bool) :
    (getPool (settled (mbxStore (setRunning (mbxTake s g [objPool pool] none) pool on) g.mb [])) pool).st =
        (if on then .running else .stopped) ∧
      poolCfg? (settled (mbxStore (setRunning (mbxTake s g [objPool pool] none) pool on) g.mb [])) pool =
        some { c with running := on } ∧
      Runs (settled (mbxStore (setRunning (mbxTake s g [objPool pool] none) pool on) g.mb [])) g (.config 0) [] := by
  rw [getPool_settled, poolCfg?_settled, mbxStore, getPool_mbxPark, poolCfg?_mbxPark, getPool_setRunning_st, poolCfg?_setRunning,
    poolCfg_mbxTake, hp.poolCfg_eq]
  exact ⟨rfl, rfl, mbxPark_runs_of_mbx _ _ rfl⟩

/-- A command that writes bulk data and completes changes no pool. -/
theorem mbxOk_writeBuf_pools (s : State) (g : Go) (objs : List (Nat × Nat)) (b : SegDesc) (bulk data : List Byte) :
    (settled (mbxOk (writeBuf (mbxTake s g objs none) g.mb b bulk) g.mb data)).pools = s.pools := by
  simp [mbxOk, (writeBuf_Frame (mbxTake s g objs none) g.mb b bulk).pools]

/-- A change of a pool by a command that completes at once. -/
theorem getPool_mbxOk_setPool (s : State) (g : Go) (objs : List (Nat × Nat)) (pool : Nat) (x : Pool) (data : List Byte) :
    getPool (settled (mbxOk (setPool (mbxTake s g objs none) pool x) g.mb data)) pool = x := by
  simp [getPool, mbxOk, setPool]

/-- A scrub pass begun while no row is in progress (R245). -/
theorem restartScrub_idle {s : State} {pool : Nat} (h : (getPool s pool).scrubWork = none) :
    restartScrub s pool = setPool s pool { getPool s pool with
      scrubbing := true, scrubPaused := false, scrubCursor := 0, skipIntent := 0, skipMissing := 0, skipBroken := 0, scrubWork := none
      gen := (getPool s pool).gen + 1 } := by
  simp [restartScrub, updPool, h]

/-- Settles O44: each command by its equation, what it stores read back, its answer by the mailbox's endings. -/
theorem poolCommandRows : Obligations.PoolCommandRows := by
  refine ⟨?create, ?made, ?delete, ?start, ?stop, ?stopRefused, ?status, ?sparesNone, ?sparesOne, ?degraded, ?floor, ?rebuild, ?scrub,
    ?scrubControl, ?lst⟩
  case create =>
    intro s g p found h hph hpool hk4 hk28 hs hkn hn hsp hmir hnone herr hgroup hlen
    exact exec_poolCreate h hph hpool ⟨hk4, hk28⟩ hs ⟨hkn, hn⟩ hsp hmir hnone herr hgroup hlen
  case made =>
    intro s p found
    obtain ⟨c, hc, hk, hn, hcols, hm, hsp, hseed⟩ := makePool_poolCfg? s p found
    refine ⟨c, hc, hk, hn, hcols, hm, hsp, fun he => ?_, fun hne hg => ?_, makePool_st s p found⟩
    · simp [hseed, he]
    · simp [hseed, hne, hg]
  case delete =>
    intro s g pool c h hp hst hv
    refine ⟨_, exec_poolDelete hp h hst hv, ?_, ?_, mbxPark_runs_of_mbx _ _ (poolDropped_mbx _ _)⟩
    · rw [poolCfg?_settled, mbxStore, poolCfg?_mbxPark, poolCfg?_poolDropped]
    · rw [getPool_settled, mbxStore, getPool_mbxPark, getPool_poolDropped]
  case start =>
    intro s g pool c h hp hst hd
    exact ⟨_, exec_poolStart hp h hst hd, setRunning_stored hp true⟩
  case stop =>
    intro s g pool c h hp hst hv
    exact ⟨_, exec_poolStop hp h hst hv, setRunning_stored hp false⟩
  case stopRefused =>
    intro s g pool v c h hp hv hr
    exact ⟨_, exec_poolStop_running hp h hv hr, by simp, by simp, by simp⟩
  case status =>
    intro s g pool h hph hlt
    exact ⟨_, exec_poolStatus h hph hlt, by simp [mbxOk], by simp [mbxOk], mbxOk_answered_of_mbx _ rfl⟩
  case sparesNone =>
    intro s g pool c found h hp hst hl
    have hkept : (sparesKept s c).length + (sparesMore s c []).length ≤ 4 := hl
    refine ⟨_, exec_hotspareSet hp (ms := []) h hst (Nat.zero_le 4) hkept rfl, mbxPark_runs_of_mbx _ _ (sparesSet_mbx _ _ _ _ _ _), ?_⟩
    rw [poolCfg_mbxStore, poolCfg_sparesSet]
    exact List.append_nil _
  case sparesOne =>
    intro s g pool m c found h hp hst hsp herr
    have hkept : sparesKept s c = [] := by simp [sparesKept, hsp]
    have hheld : sparesHeld s c = [] := by simp [sparesHeld, hkept, hsp]
    have hmore : sparesMore s c [m] = [m] := by simp [sparesMore, hkept]
    have hexec := exec_hotspareSet hp (ms := [m]) (found := found) h hst (by simp) (by simp [hkept, hmore]) (by simp [hheld, herr])
    rw [hkept, hmore, hheld] at hexec
    refine ⟨_, hexec, mbxPark_runs_of_mbx _ _ (sparesSet_mbx _ _ _ _ _ _), ?_, ?_⟩
    · rw [poolCfg_mbxStore, poolCfg_sparesSet]
      rfl
    · rw [getMember_mbxStore, getMember, sparesSet_members]
      exact congrArg Member.st (getMember_setMember_self _ _ _)
  case degraded =>
    intro s g pool us days c h hp hus1 hus2 hdays hst
    refine ⟨_, exec_poolDegradedConfig hp h ⟨hus1, hus2⟩ hdays hst, ?_, by simp [mbxStore], mbxPark_runs_of_mbx _ _ rfl⟩
    rw [poolCfg?_settled, mbxStore, poolCfg?_mbxPark, poolCfg?_setPoolCfg_self]
  case floor =>
    intro s g floor h h2 h50
    exact ⟨_, exec_rebuildConfig h h2 h50, settled_cfg _, mbxStore_runs _ _ _ _ _⟩
  case rebuild =>
    intro s g pool buf c h hp hb
    exact ⟨_, exec_rebuildStatus hp h hb, mbxOk_writeBuf_pools _ _ _ _ _ _, (mbxOk_writeBuf _ _ _ _ _ _).2⟩
  case scrub =>
    intro s g pool c h hp
    exact exec_scrubStart hp h
  case scrubControl =>
    intro s g pool c h hp
    refine ⟨fun hidle => ?_, ?_, ?_⟩
    · refine ⟨_, exec_scrubStart hp h, ?_⟩
      rw [restartScrub_idle (by simpa using hidle), getPool_mbxOk_setPool]
      exact ⟨mbxOk_answered_of_mbx _ rfl, rfl, rfl, rfl, rfl⟩
    · exact ⟨_, exec_scrubPause hp h, mbxOk_answered_of_mbx _ rfl, getPool_mbxOk_setPool _ _ _ _ _ _⟩
    · exact ⟨_, exec_scrubResume hp h, mbxOk_answered_of_mbx _ rfl, getPool_mbxOk_setPool _ _ _ _ _ _⟩
  case lst =>
    intro s g pool first buf c h hp hb
    exact ⟨_, exec_lstRead hp h hb, mbxOk_writeBuf_pools _ _ _ _ _ _, (mbxOk_writeBuf _ _ _ _ _ _).2⟩

end Sys2Proof.Machine
end

section
/-! PROOFS. The journal group of mailbox commands (R177, R201): one equation per command, then what each leaves. -/

namespace Sys2Proof.Machine

/-! ### Volumes of a drain -/

theorem getVol_settled (s : State) (v : Nat) : getVol (settled s) v = getVol s v := by simp [getVol]

@[simp] theorem drainVols_mbxTake (s : State) (g : Go) (objs : List (Nat × Nat)) (r : Option Running) (scope ident : Nat) :
    drainVols (mbxTake s g objs r) scope ident = drainVols s scope ident := by simp [drainVols]

/-- The volumes of a JOURNAL_DRAIN marked: their rows are destaged at priority (R189). -/
def drainBegun (s : State) (vols : List Nat) : State := vols.foldl (fun s v => modVol s v (fun x => { x with draining := true })) s

theorem drainBegun_Frame (s : State) (vols : List Nat) : Frame [.vols] s (drainBegun s vols) :=
  .foldl _ (fun t v => setVol_Frame t v _) vols s

theorem draining_drainBegun_of_draining {v : Nat} (vols : List Nat) {s : State} (h : (getVol s v).draining = true) :
    (getVol (drainBegun s vols) v).draining = true := by
  induction vols generalizing s with
  | nil => exact h
  | cons a l ih =>
    refine ih ?_
    by_cases hv : v = a
    · subst hv; simp
    · simpa [getVol_setVol_ne _ _ _ _ hv] using h

/-- Every volume of a drain is draining. -/
theorem draining_drainBegun {v : Nat} {vols : List Nat} (s : State) (h : v ∈ vols) :
    (getVol (drainBegun s vols) v).draining = true := by
  induction vols generalizing s with
  | nil => cases h
  | cons a l ih =>
    obtain rfl | h := List.mem_cons.1 h
    · exact draining_drainBegun_of_draining l (by simp)
    · exact ih _ h

/-! ### The commands -/

/-- A command on an existing volume of the mailbox's function passes the checks of its object. -/
theorem volObj_clear {s : State} {fn vol : Nat} (hph : s.phase = .ready) (hv : volExists s fn vol = true) (off : Nat) :
    (volObj s fn vol off).all (fun c => !c.fails) = true := by
  simp only [volExists, Bool.and_eq_true, decide_eq_true_eq, Bool.not_eq_true'] at hv
  obtain ⟨⟨⟨hlt, hcfg⟩, hfn⟩, hres⟩ := hv
  simp [volObj, needVol, needReplay, hlt, hcfg, hfn, hres, hph]

theorem length_leBytes (n v : Nat) : (leBytes n v).length = n := by
  induction n generalizing v with
  | zero => rfl
  | succ n ih => simp [leBytes, ih]

theorem length_countBytes (l : List Nat) : (countBytes l).length = 8 * l.length := by
  simp [countBytes, List.length_flatMap, length_leBytes, Nat.mul_comm]

theorem length_journalPool (s : State) (pool : Nat) : (journalPool s pool).length = s.part.tiles + 4 := by simp [journalPool]

/-- A command that a VF may not issue comes from PF0's mailbox. -/
theorem GoReady.mayIssue {s : State} {g : Go} {vf : Bool} {len : Nat} {objs : List (Nat × Nat)} (h : GoReady s g vf len objs) :
    g.mb = 0 ∨ vf = true := by
  obtain ⟨-, -, -, -, hmay, -⟩ := h
  exact hmay

/-- Readiness for a command that a VF may issue as well. -/
theorem GoReady.allowVf {s : State} {g : Go} {vf : Bool} {len : Nat} {objs : List (Nat × Nat)} (h : GoReady s g vf len objs) :
    GoReady s g true len objs := by
  obtain ⟨hfw, hreach, hbusy, hclosing, -, hrest⟩ := h
  exact ⟨hfw, hreach, hbusy, hclosing, .inr rfl, hrest⟩

theorem PoolReady.number_lt {s : State} {pool : Nat} {c : PoolCfg} (h : PoolReady s pool c) : pool < 64 := by
  obtain ⟨-, hlt, -, -⟩ := h
  exact hlt

section Commands

variable {s : State} {g : Go}

theorem exec_journalStatus_tile {tile : Nat} {buf : SegDesc} (h : GoReady s g false 24 []) (hb : badBuf buf = false)
    (ht : tile < s.part.tiles) : exec (.journalStatus g 0 tile buf) s =
      .next (settled (mbxOk (writeBuf (mbxTake s g [] none) g.mb buf (countBytes (journalTile (getTile s tile).amber))) g.mb
        (leBytes 4 40))) := by
  show execJournalStatus g 0 tile buf s = _
  unfold execJournalStatus
  rw [if_pos rfl, if_pos rfl, mbxRun_clear _ _ _ _ h rfl]
  · simp [done_eq, bytesField, length_countBytes, journalTile, getTile]
  · simp [hb]
  · simp [need, ht]

/-- A drain of a volume, or of the volumes of a pool. -/
theorem exec_journalDrain {vf : Bool} {scope ident : Nat}
    (h : GoReady s g vf 4 [if scope = 0 then objVol ident else objPool ident, objCancel g.mb])
    (hvf : vf = true → scope = 0) (hs : scope ≤ 1) (hi : scope = 1 → ident < 64)
    (hc : (if scope = 0 then volObj s g.mb ident 2 else poolObj s ident 2).all (fun c => !c.fails) = true) :
    exec (.journalDrain g scope ident) s = .next (settled (mbxPark (drainBegun
      (mbxTake s g [if scope = 0 then objVol ident else objPool ident, objCancel g.mb] none) (drainVols s scope ident)) g.mb
      (.drain scope ident) [])) := by
  have hmay : (g.mb != 0 && scope != 0) = false := by
    rcases h.mayIssue with hmb | hv
    · simp [hmb]
    · simp [hvf hv]
  show execJournalDrain g scope ident s = _
  unfold execJournalDrain
  rw [mbxRun_clear _ _ _ _ h.allowVf hmay _ hc]
  · simp only [done_eq, drainVols_mbxTake, drainBegun]
  · simpa [hs] using imp_iff_not_or.1 (fun h1 => Nat.le_of_lt_succ (hi h1))

theorem exec_journalDrainComplete {mb scope ident : Nat} (hs : serving s = true) (hm : (getMbx s mb).running = some (.drain scope ident))
    (hi : anyIntent s (fun v => (drainVols s scope ident).contains v) = false) :
    exec (.journalDrainComplete mb) s = .next (settled (mbxOk (endDrain s (drainVols s scope ident)) mb [])) := by
  show execJournalDrainComplete mb s = _
  simp only [execJournalDrainComplete, hm, hs, hi, Bool.not_false, Bool.and_self, if_true, done_eq]

variable {pool : Nat} {c : PoolCfg} (hp : PoolReady s pool c)

include hp

theorem exec_journalStatus_pool {buf : SegDesc} (h : GoReady s g false 24 [objPool pool]) (hb : badBuf buf = false) :
    exec (.journalStatus g 1 pool buf) s = .next (settled (mbxOk (writeBuf (mbxTake s g [objPool pool] none) g.mb buf
      (countBytes (journalPool (mbxTake s g [objPool pool] none) pool))) g.mb (leBytes 4 (8 * s.part.tiles + 32)))) := by
  show execJournalStatus g 1 pool buf s = _
  unfold execJournalStatus
  rw [if_neg one_ne_zero, if_neg one_ne_zero, mbxRun_clear _ _ _ _ h rfl _ (hp.poolObj_clear 2)]
  · simp [done_eq, bytesField, length_countBytes, length_journalPool, Nat.mul_add]
  · simp [hp.number_clear, hb]

theorem exec_journalMirrorSet {i j : Nat} (h : GoReady s g false 6 [objPool pool]) (hst : (getPool s pool).st = .stopped) (hi : i < c.n)
    (hj : j < c.n) (hg : groupAt s c.members i ≠ groupAt s c.members j) (hn : c.partner = none) :
    exec (.journalMirrorSet g pool i j) s = .next (settled (mbxStore (applyChange (mbxTake s g [objPool pool] none)
      (.pool pool { c with mirror0 := i, mirror1 := j })) g.mb [])) := by
  have hfields := fieldsBad_clear (l := [(2, decide (c.n ≤ i)), (4, decide (c.n ≤ j) || groupAt s c.members i == groupAt s c.members j)])
    (by simp [hi, hj, hg])
  have hc := hp.poolCfg_eq
  show execJournalMirrorSet g pool i j s = _
  unfold execJournalMirrorSet
  rw [mbxRun_clear _ _ _ _ h rfl]
  · simp [done_eq, changePool, hc, hn]
  · simp [hp.number_clear]
  · rw [List.all_append, hp.poolObj_clear]
    simp [needStopped, needPartner, hst, hc, hn, hfields]

/-- Two mirror members of one failure group are refused (R177). -/
theorem exec_journalMirrorSet_sameGroup {i j : Nat} (h : GoReady s g false 6 [objPool pool]) (hst : (getPool s pool).st = .stopped)
    (hi : i < c.n) (hg : groupAt s c.members i = groupAt s c.members j) :
    exec (.journalMirrorSet g pool i j) s =
      .next (settled (mbxFinish (mbxTake s g [objPool pool] (some .waiting)) g.mb 0x0002 4 [])) := by
  have hc := hp.poolCfg_eq
  have hobj := hp.poolObj_clear 0
  simp only [poolObj, List.all_cons, List.all_nil, Bool.and_eq_true, Bool.not_eq_true', and_true] at hobj
  obtain ⟨hneed, hreplay⟩ := hobj
  show execJournalMirrorSet g pool i j s = _
  unfold execJournalMirrorSet
  rw [mbxRun_fails (c := { fails := true, status := 0x0002, detail := 4 }) _ _ _ _ h rfl]
  · rfl
  · simp [hp.number_clear]
  · simp [poolObj, firstFailing, hneed, hreplay, needStopped, hst, hc, fieldsBad, lowestField, hg, hi]

end Commands

/-- A change of a pool without a partner stores its configuration. -/
theorem poolCfg?_applyChange_pool {s : State} {pool : Nat} (c : PoolCfg) (h : (poolCfg s pool).partner = none) :
    poolCfg? (applyChange s (.pool pool c)) pool = some c := by
  simp only [applyChange, h]
  split <;> exact Tab.get?_set_self _ _ _

theorem applyChange_pool_mbx {s : State} {pool : Nat} (c : PoolCfg) (h : (poolCfg s pool).partner = none) :
    (applyChange s (.pool pool c)).mbx = s.mbx := by
  simp only [applyChange, h]
  split <;> rfl

/-- The end of a drain of one volume. -/
theorem draining_endDrain (s : State) (vol : Nat) : (getVol (endDrain s [vol]) vol).draining = ((getVol s vol).st == .stopping) := by
  simp [endDrain]

/-- Settles O47: each command by its equation, what it stores read back, its answer by the mailbox's endings. -/
theorem journalCommandRows : Obligations.JournalCommandRows := by
  refine ⟨?tile, ?pool, ?mirrorSet, ?sameGroup, ?drainVol, ?drainPool, ?complete, ?completeVol⟩
  case tile =>
    intro s g tile buf h hb ht
    refine ⟨_, exec_journalStatus_tile h hb ht, ?_, (mbxOk_writeBuf _ _ _ _ _ _).2⟩
    simp [mbxOk, (writeBuf_Frame _ _ _ _).tiles]
  case pool =>
    intro s g pool buf c h hp hb
    exact ⟨_, exec_journalStatus_pool hp h hb, mbxOk_writeBuf_pools _ _ _ _ _ _, (mbxOk_writeBuf _ _ _ _ _ _).2⟩
  case mirrorSet =>
    intro s g pool i j c h hp hst hi hj hg hn
    have hpn : (poolCfg (mbxTake s g [objPool pool] none) pool).partner = none := by rw [poolCfg_mbxTake, hp.poolCfg_eq, hn]
    refine ⟨_, exec_journalMirrorSet hp h hst hi hj hg hn, mbxPark_runs_of_mbx _ _ (applyChange_pool_mbx _ hpn), ?_⟩
    rw [poolCfg?_settled, mbxStore, poolCfg?_mbxPark, poolCfg?_applyChange_pool _ hpn]
  case sameGroup =>
    intro s g pool i j c h hp hst hi _ hg
    exact ⟨_, exec_journalMirrorSet_sameGroup hp h hst hi hg, by simp, by simp, by simp⟩
  case drainVol =>
    intro s g vol h hph hv
    refine ⟨_, exec_journalDrain (vf := true) (scope := 0) h (fun _ => rfl) zero_le_one (by simp) (volObj_clear hph hv 2), ?_, ?_, ?_⟩
    · exact mbxPark_runs_of_mbx _ _ ((drainBegun_Frame _ _).mbx (by simp))
    · rw [getVol_settled]
      exact draining_drainBegun _ List.mem_cons_self
    · rw [settled_tiles, mbxPark_tiles, (drainBegun_Frame _ _).tiles (by simp), mbxTake_tiles]
  case drainPool =>
    intro s g pool c h hp
    refine ⟨_, exec_journalDrain (vf := false) (scope := 1) h (by simp) le_rfl (fun _ => hp.number_lt) (hp.poolObj_clear 2), ?_, ?_,
      fun v hv => ?_⟩
    · exact mbxPark_runs_of_mbx _ _ ((drainBegun_Frame _ _).mbx (by simp))
    · rw [settled_tiles, mbxPark_tiles, (drainBegun_Frame _ _).tiles (by simp), mbxTake_tiles]
    · rw [getVol_settled]
      exact draining_drainBegun _ hv
  case complete =>
    intro s mb scope ident hs hm hi
    exact exec_journalDrainComplete hs hm hi
  case completeVol =>
    intro s mb vol hs hm ho hi
    have horphan : (getMbx (endDrain s [vol]) mb).orphan = false := ho
    refine ⟨_, exec_journalDrainComplete hs hm hi, ?_, ?_, ?_⟩
    · simp [drainVols, mbxOk, mbxFinish, horphan]
    · simp [drainVols, mbxOk, mbxFinish, horphan]
    · rw [getVol_settled, mbxOk, getVol, mbxFinish_vols]
      exact (draining_endDrain s vol).trans (Bool.beq_eq_decide_eq _ _)

end Sys2Proof.Machine
end

section
/-! PROOFS. What the device answers to offers, mirrored records, replies and release acknowledgments (R181, R184, R381, R382, R386). -/

namespace Sys2Proof.Machine

/-! ### Offers (R381, Table 8-5) -/

/-- The state in which an offer is judged: an earlier reservation for the same link and pool freed. -/
def offerBase (s : State) (l pool : Nat) : State := if (poolCfg s pool).reserved == some l then dropReserved s pool else s

theorem offerBase_eq (s : State) (l pool : Nat) :
    offerBase s l pool = if (poolCfg s pool).reserved = some l then dropReserved s pool else s := by simp [offerBase]

/-- RESULT of an offer, in the order of its reasons. -/
theorem offerResult_eq (s : State) (l pool : Nat) (d : PoolDesc) : offerResult s l pool d =
    if (poolCfg? (offerBase s l pool) pool).isSome then 1
    else if d.vols.any (fun v => (volCfg? (offerBase s l pool) v.1).isSome || decide (s.part.volumes ≤ v.1)) then 2
    else if (freeMembers (offerBase s l pool)).length < d.n then 3
    else if !descGood s d then 4
    else 0 := rfl

/-- An accepted offer has found members for all of its positions. -/
theorem length_freeMembers_of_offerResult {s : State} {l pool : Nat} {d : PoolDesc} (h : offerResult s l pool d = 0) :
    d.n ≤ (freeMembers (offerBase s l pool)).length := by
  by_contra hlt
  rw [offerResult_eq] at h
  split_ifs at h
  omega

theorem offerResult_existing {s : State} {l pool : Nat} {d : PoolDesc} (hp : (poolCfg? s pool).isSome = true)
    (hr : (poolCfg s pool).reserved ≠ some l) : offerResult s l pool d = 1 := by
  rw [offerResult_eq, offerBase_eq, if_neg hr, if_pos hp]

/-- The pool as the reservation of an offer leaves it. -/
theorem reservePool_poolCfg? (s : State) (l pool : Nat) (d : PoolDesc) : poolCfg? (reservePool s l pool d) pool =
    some { k := d.k, s := d.s, n := d.n, seed := d.seed, members := (freeMembers (offerBase s l pool)).take d.n, spares := [],
           mirror0 := d.mirror0, mirror1 := d.mirror1, slots := 0, reserved := some l } := by
  simp only [poolCfg?, reservePool, (storeCfg_Frame _).cfg (by simp), setPool_cfg, Tab.get?_set_self, offerBase_eq]

theorem reservePool_st (s : State) (l pool : Nat) (d : PoolDesc) : (getPool (reservePool s l pool d) pool).st = .reserved := by
  simp only [getPool, reservePool, (storeCfg_Frame _).pools (by simp), setPool, Tab.getD_set_self]

theorem offerTaken_accepted {s : State} {l pool : Nat} {d : PoolDesc} (h : offerResult s l pool d = 0) :
    offerTaken s l pool d = partnerSend (reservePool s l pool d) l (.reply pool 0) := by
  simp only [offerTaken, h, if_true]

theorem offerTaken_refused {s : State} {l pool : Nat} {d : PoolDesc} (h : offerResult s l pool d ≠ 0) :
    offerTaken s l pool d = partnerSend s l (.reply pool (offerResult s l pool d)) := by
  simp only [offerTaken, h, if_false]

/-- A frame sent to a partner changes no pool. -/
theorem poolCfg?_partnerSend (s : State) (l : Nat) (b : PartnerBody) (pool : Nat) :
    poolCfg? (partnerSend s l b) pool = poolCfg? s pool := by
  simp only [poolCfg?, (partnerSend_Frame s l b).cfg (by simp)]

theorem getPool_partnerSend (s : State) (l : Nat) (b : PartnerBody) (pool : Nat) :
    getPool (partnerSend s l b) pool = getPool s pool := by
  simp only [getPool, (partnerSend_Frame s l b).pools (by simp)]

/-! ### Records of a reserved pool (R181, R184, R382) -/

section Records

variable {s : State} {l q o : Nat} {r : Rec}

theorem storePartner_other (h : (poolCfg s (recPool s r)).reserved ≠ some l) : storePartner s l q o r = s := if_pos h

variable (h : (poolCfg s (recPool s r)).reserved = some l)

include h

/-- Above 75 % occupancy a DATA record is refused (R184). -/
theorem storePartner_data_high {t : Nat} {i : RingRec} (hk : r.kind = .data) (hf : findPartner s l o r.ref = some (t, i))
    (hh : (getTile s t).amber.high = true) : storePartner s l q o r = partnerSend s l (.confirm q o 1) := by
  simp [storePartner, h, hk, hf, hh]

theorem storePartner_intent {t : Nat} (hk : r.kind = .intent) (ht : mirrorTile s o = some t) : storePartner s l q o r =
    modAmber s t (fun a => a.append
      { r := { r with partner := true, aux := BitVec.ofNat 32 l }, off := 0, origin := some (l, o, q) }) := by
  simp [storePartner, h, hk, ht]

end Records

/-! ### Replies and release acknowledgments (R381, R386) -/

theorem getMbx_setPartner (s : State) (l : Nat) (x : Partner) (mb : Nat) : getMbx (setPartner s l x) mb = getMbx s mb := rfl

/-- A refused offer: the command that made it ends, and nothing else changes. -/
theorem replyTaken_refused {s : State} {l pool result mb : Nat}
    (ho : (getPartner s l).offers.find? (fun o => o.1 == pool) = some (pool, mb))
    (hm : (getMbx s mb).running = some (.partnerOffer pool)) (hr : result ≠ 0) : replyTaken s l pool result =
      mbxFinish (setMbx (setPartner s l { getPartner s l with offers := (getPartner s l).offers.erase (pool, mb) }) mb
        { getMbx s mb with change := none }) mb 0x0101 0 [] := by
  simp [replyTaken, ho, hr, getMbx_setPartner, hm]

theorem releaseEnd_removed {s : State} {l pool mb : Nat}
    (ho : (getPartner s l).releases.find? (fun o => o.1 == pool) = some (pool, mb))
    (hm : (getMbx s mb).running = some (.release pool)) : releaseEnd s l pool 0 =
      mbxStore (removePool (setPartner s l { getPartner s l with releases := (getPartner s l).releases.erase (pool, mb) }) pool) mb [] := by
  simp [releaseEnd, ho, hm, getMbx_setPartner]

/-- A command of a mailbox that is no orphan ends with a status. -/
theorem getMbx_mbxFinish {s : State} {mb : Nat} (st : Status) (d : Nat) (data : List Byte) (h : (getMbx s mb).orphan = false) :
    (getMbx (mbxFinish s mb st d data) mb).lastStatus = st ∧ (getMbx (mbxFinish s mb st d data) mb).busy = false := by
  simp [mbxFinish, h]

theorem poolCfg?_removePool (s : State) (pool : Nat) : poolCfg? (removePool s pool) pool = none := Tab.get?_erase_self _ _

/-- Settles O33: each operation by its equation, the pool, record and mailbox concerned read back. -/
theorem partnerAnswers : Obligations.PartnerAnswers := by
  refine ⟨?refused, ?accepted, ?existing, ?dataHigh, ?intent, ?other, ?reply, ?release⟩
  case refused =>
    intro s l pool d h
    exact offerTaken_refused h
  case accepted =>
    intro s l pool d h
    rw [offerTaken_accepted h, poolCfg?_partnerSend, getPool_partnerSend]
    exact ⟨_, reservePool_poolCfg? s l pool d, rfl, rfl, rfl, rfl, rfl,
      List.length_take_of_le (length_freeMembers_of_offerResult h), reservePool_st s l pool d⟩
  case existing =>
    intro s l pool d hp hr
    exact offerResult_existing hp hr
  case dataHigh =>
    intro s l q o t r i h hk hf hh
    exact storePartner_data_high h hk hf hh
  case intent =>
    intro s l q o t r h hk ht
    exact ⟨_, storePartner_intent h hk ht, rfl, hk, rfl, rfl, rfl, rfl⟩
  case other =>
    intro s l q o r h
    exact storePartner_other h
  case reply =>
    intro s l pool result mb ho hm horphan hr
    obtain ⟨hst, hbusy⟩ := getMbx_mbxFinish (s := setMbx (setPartner s l { getPartner s l with
      offers := (getPartner s l).offers.erase (pool, mb) }) mb { getMbx s mb with change := none }) (mb := mb) 0x0101 0 []
      (by simpa using horphan)
    rw [replyTaken_refused ho hm hr]
    exact ⟨hst, hbusy, by simp⟩
  case release =>
    intro s l pool mb ho hm
    rw [releaseEnd_removed ho hm]
    exact ⟨poolCfg?_removePool _ _, by simp [mbxStore, mbxPark]⟩

end Sys2Proof.Machine
end

section
/-! PROOFS. What the work of rows and rings may change (R185-R200, R230-R238): member commands, fetches, destages, replay. -/

namespace Sys2Proof

/-- A table whose entries are changed by their numbers, read back. -/
theorem Tab.get?_map {α β : Type} (t : Tab α) (f : Nat → α → β) (k : Nat) :
    Tab.get? (t.map (fun e => (e.1, f e.1 e.2))) k = (Tab.get? t k).map (f k) := by
  induction t with
  | nil => rfl
  | cons e r ih =>
    obtain ⟨j, w⟩ := e
    by_cases h : j = k
    · simp [Tab.get?, h]
    · simpa [Tab.get?, h] using ih

namespace Machine

theorem Frame.after {l : List Piece} {s t u : State} (k : Frame l t u) (h : Frame l s t) : Frame l s u := h.trans k

theorem Frame.ite {l : List Piece} {s t u : State} {p : Prop} [Decidable p] (h : Frame l s t) (k : Frame l s u) :
    Frame l s (if p then t else u) := by
  split
  exacts [h, k]

/-- The parts that the work of rows and rings may change, with the faults it raises. -/
def workPieces : List Piece :=
  [.nextId, .tiles, .mcmds, .fetches, .destages, .replays, .budget, .pools, .vols, .pins, .moon, .links, .partners, .pcie, .jade, .jet]

/-- `t` differs from `s` in what work of rows and rings may change. -/
abbrev WorkFrame (s t : State) : Prop := Frame workPieces s t

/-- A change of the parts of rows and rings. -/
theorem workFrame_update (s : State) (n : Nat) (ti : Tab Tile) (mc : List MCmd) (fe : List Fetch) (de : List Destage) (re : List ReplayRow)
    (po : Tab Pool) (vo : Tab Vol) (pi : Pins) (ja : Jade) :
    WorkFrame s { s with nextId := n, tiles := ti, mcmds := mc, fetches := fe, destages := de, replays := re, pools := po, vols := vo
                         pins := pi, jade := ja } := by
  constructor
  case out => exact List.prefix_rfl
  case nextId | tiles | mcmds | fetches | destages | replays | pools | vols | pins | jade =>
    intro h
    simp [workPieces] at h
  all_goals intros; rfl

theorem WorkFrame.of_frame {l : List Piece} {s t : State} (h : Frame l s t) (hl : l ⊆ workPieces := by decide) : WorkFrame s t := h.mono hl

/-! ### Member commands, fetches and destages -/

theorem fault0_workFrame (s : State) (code : BitVec 16) (cls : Nat) (src : BitVec 16) : WorkFrame s (fault0 s code cls src) :=
  .of_frame (fault_Frame s _)

theorem setPool_workFrame (s : State) (p : Nat) (x : Pool) : WorkFrame s (setPool s p x) := .of_frame (setPool_Frame s p x)

theorem setTile_workFrame (s : State) (k : Nat) (x : Tile) : WorkFrame s (setTile s k x) := .of_frame (setTile_Frame s k x)

theorem issueM_workFrame (s : State) (pool member tile : Nat) (op : NvmeOp) (off len : Nat) (data : Mem) (purpose : Purpose) (pipe : Pipe)
    (cls : Nat) : WorkFrame s (issueM s pool member tile op off len data purpose pipe cls) := .of_frame (issue_Frame s _)

theorem lstEnter_workFrame (s : State) (pool row : Nat) (strips : List Nat) (cause : Nat) :
    WorkFrame s (lstEnter s pool row strips cause) := by
  unfold lstEnter lstStore
  dsimp only
  refine .ite (.refl _ s) (.ite ((fault0_workFrame _ _ _ _).after (setPool_workFrame _ _ _)) ?_)
  exact (fault0_workFrame _ _ _ _).after ((WorkFrame.of_frame (metaWrite_Frame _ _ _ _ _ _ _)).after (setPool_workFrame _ _ _))

theorem loseUnsynced_workFrame (s : State) (pool row : Nat) : WorkFrame s (loseUnsynced s pool row) := by
  unfold loseUnsynced
  exact .ite (lstEnter_workFrame s _ _ _ _) (.refl _ s)

theorem modFetch_workFrame (s : State) (f : Nat) (g : Fetch → Fetch) : WorkFrame s (modFetch s f g) :=
  workFrame_update s _ _ _ _ _ _ _ _ _ _

theorem modDestage_workFrame (s : State) (d : Nat) (g : Destage → Destage) : WorkFrame s (modDestage s d g) :=
  workFrame_update s _ _ _ _ _ _ _ _ _ _

theorem readStrips_workFrame (s : State) (f : Nat) (ps : List Nat) : WorkFrame s (readStrips s f ps) := by
  unfold readStrips
  split
  · exact .refl _ s
  · refine .foldl _ (fun u j => ?_) ps s
    refine .ite (.refl _ u) (.ite (modFetch_workFrame u f _) ?_)
    split
    · exact .foldl _ (fun v r => issueM_workFrame v _ _ _ _ _ _ _ _ _ _) _ u
    · exact .refl _ u

theorem readForRecovery_workFrame (s : State) (f : Nat) : WorkFrame s (readForRecovery s f) := by
  unfold readForRecovery
  split
  · exact .refl _ s
  · exact .ite (.refl _ s) (readStrips_workFrame s f _)

theorem parallelReads_workFrame (s : State) (f : Nat) : WorkFrame s (parallelReads s f) := by
  unfold parallelReads
  split
  · exact .refl _ s
  · exact .ite (readStrips_workFrame s f _) (.refl _ s)

theorem beginFetch_workFrame (s : State) (x : Fetch) : WorkFrame s (beginFetch s x) := by
  unfold beginFetch
  refine (parallelReads_workFrame _ _).after ((readForRecovery_workFrame _ _).after ((readStrips_workFrame _ _ _).after ?_))
  exact workFrame_update s _ _ _ _ _ _ _ _ _ _

theorem destageWrite_workFrame (s : State) (d : Destage) (pos : Nat) (op : NvmeOp) (b n : Nat) (data : Mem) :
    WorkFrame s (destageWrite s d pos op b n data) := by
  unfold destageWrite
  exact .foldl _ (fun u m => (modDestage_workFrame _ _ _).after (issueM_workFrame u _ _ _ _ _ _ _ _ _ _)) _ s

theorem stripWrites_workFrame (s : State) (d : Destage) (zero : BitVec 128) (j : Nat) : WorkFrame s (stripWrites s d zero j) := by
  unfold stripWrites
  refine .ite (destageWrite_workFrame s d j _ _ _ _) ?_
  exact Frame.after (.foldl _ (fun u r => destageWrite_workFrame u d j _ _ _ _) _ _)
    (.foldl _ (fun u r => destageWrite_workFrame u d j _ _ _ _) _ s)

theorem parityWrites_workFrame (s : State) (d : Destage) (cols : BitVec 4) : WorkFrame s (parityWrites s d cols) := by
  unfold parityWrites
  exact .foldl _ (fun u x => .foldl _ (fun v r => destageWrite_workFrame v d _ _ _ _ _) _ u) _ s

theorem issueDestage_workFrame (s : State) (did : Nat) (got : List (Nat × Mem)) : WorkFrame s (issueDestage s did got) := by
  unfold issueDestage
  split
  · exact .refl _ s
  · have hmark (d : Destage) : WorkFrame s (modDestage s did (fun _ => d)) := modDestage_workFrame s did _
    refine (parityWrites_workFrame _ _ _).after (Frame.after (.foldl _ (fun u j => stripWrites_workFrame u _ _ j) _ _) ?_)
    refine .ite (Frame.after (.foldl _ (fun u j => destageWrite_workFrame u _ j _ _ _ _) _ _) ?_)
      (Frame.after (.foldl _ (fun u j => destageWrite_workFrame u _ j _ _ _ _) _ _) (hmark _))
    exact (setTile_workFrame _ _ _).after (hmark _)

theorem launchDestage_workFrame (s : State) (d : Destage) (want : List Nat) (bad : List (Nat × BitVec 4)) :
    WorkFrame s (launchDestage s d want bad) := by
  have hin : WorkFrame s (bump { s with destages := s.destages ++ [d] }) := workFrame_update s _ _ _ _ _ _ _ _ _ _
  unfold launchDestage
  refine .ite ((issueDestage_workFrame _ _ _).after hin) ?_
  refine (beginFetch_workFrame _ _).after ((modDestage_workFrame _ _ _).after ?_)
  exact .ite ((loseUnsynced_workFrame _ _ _).after hin) hin

theorem startSalvages_workFrame (s : State) (pool : Nat) : WorkFrame s (startSalvages s pool) := by
  unfold startSalvages startSalvage
  refine .foldl _ (fun u e => .ite (.refl _ u) ?_) _ s
  exact .ite ((setPool_workFrame _ _ _).after (setPool_workFrame u _ _))
    ((launchDestage_workFrame _ _ _ _).after (setPool_workFrame u _ _))

/-! ### Replay (R195-R199) -/

theorem startResync_workFrame (s : State) (d : Destage) : WorkFrame s (startResync s d) := launchDestage_workFrame s _ _ _

theorem finishReplayRow_workFrame (s : State) (x : ReplayRow) : WorkFrame s (finishReplayRow s x) := by
  have hout : WorkFrame s { s with replays := s.replays.filter (fun y => !(y.vol == x.vol && y.row == x.row)) } :=
    workFrame_update s _ _ _ _ _ _ _ _ _ _
  unfold finishReplayRow
  dsimp only
  exact .ite ((lstEnter_workFrame _ _ _ _ _).after hout) ((startResync_workFrame _ _).after ((lstEnter_workFrame _ _ _ _ _).after hout))

theorem beginReplayRow_workFrame (s : State) (x : ReplayRow) : WorkFrame s (beginReplayRow s x) := by
  unfold beginReplayRow
  dsimp only
  split
  · exact finishReplayRow_workFrame s x
  · refine .ite (finishReplayRow_workFrame s x) (Frame.after (.foldl _ (fun u e => ?_) _ _) (workFrame_update s _ _ _ _ _ _ _ _ _ _))
    exact issueM_workFrame u _ _ _ _ _ _ _ _ _ _

theorem replayRings_workFrame (s : State) (rings : List Nat) (p : RingRec → Bool) : WorkFrame s (replayRings s rings p) :=
  .foldl _ (fun u _ => beginReplayRow_workFrame u _) _ s

theorem modTiles_Frame (s : State) (f : Nat → Tile → Tile) : Frame [.tiles] s (modTiles s f) :=
  .foldl _ (fun u t => setTile_Frame u t _) _ s

theorem reindex_Frame (s : State) (t : Nat) : Frame [.tiles] s (reindex s t) := by
  unfold reindex
  exact .ite (.refl _ s) (setTile_Frame s _ _)

end Machine
end Sys2Proof
end

section
/-! PROOFS. The start of the device, firmware up and the end of replay (R195, R471, R474, R573): one equation per row, then the phase, the
configuration and the tiles each leaves. -/

namespace Sys2Proof.Machine

/-! ### DEVICE_START (R50, R573) -/

theorem bootLoad_tiles (s : State) : (bootLoad s).tiles = s.tiles := by
  unfold bootLoad
  dsimp only
  repeat' split
  all_goals rfl

theorem startDevice_f4 (s : State) {failed : List Nat} (h : failed.contains 0 = true) : (startDevice s failed).jade.f4 = true := by
  simp only [startDevice, h, if_true, enterF4_f4]

section Started

variable (s : State) {failed : List Nat} (h : failed.contains 0 = false)

include h

theorem startDevice_phase_cfg : (startDevice s failed).phase = .boot ∧ (startDevice s failed).cfg = s.cfg := by
  simp only [startDevice, h, bootLoad_phase_cfg, apply_ite State.phase, apply_ite State.cfg, jetInfo_phase, jetInfo_cfg, fault0_phase,
    fault0_cfg, startJet_phase_cfg, ite_self, Bool.false_eq_true, if_false, and_self]

/-- A tile after the power-up self-tests: in service where it has passed. -/
def testedTile (s : State) (failed : List Nat) (k : Nat) (x : Tile) : Tile :=
  { x with inService := !failed.contains k, lastBeat := s.clock, tier := { x.tier with lfsr := lfsrAdvance k 0xACE1 } }

theorem startDevice_tiles :
    (startDevice s failed).tiles = s.tiles.map (fun (e : Nat × Tile) => (e.1, testedTile s failed e.1 e.2)) := by
  simp only [startDevice, h, bootLoad_tiles, apply_ite State.tiles, jetInfo_tiles, fault0_tiles, ite_self, Bool.false_eq_true, if_false,
    List.map_map]
  rfl

theorem inService_startDevice {k : Nat} {x : Tile} (hx : Tab.get? (startDevice s failed).tiles k = some x) :
    x.inService = !failed.contains k := by
  rw [startDevice_tiles s h, Tab.get?_map] at hx
  obtain ⟨y, -, rfl⟩ := Option.map_eq_some_iff.1 hx
  rfl

end Started

theorem exec_deviceStart {s : State} (failed : List Nat) (hp : s.phase = .off ∨ s.phase = .held) (hc : tooHot s = false) :
    exec (.deviceStart failed) s =
      .next (settled (startDevice { s with pins := { s.pins with pwrOk := true, sysResetN := true } } failed)) := by
  have hwait : ((s.phase == .off || s.phase == .held) && !tooHot s) = true := by rcases hp with h | h <;> simp [h, hc]
  show execDeviceStart failed s = _
  simp only [execDeviceStart, hwait, if_true, done_eq]

/-! ### FIRMWARE_UP (R471, R475, R577) -/

/-- The configuration that a start applies (R475). -/
def cfgAtStart (s : State) : Cfg :=
  match bestCopy s.flash with
  | some c => c.2
  | none => {}

/-- Applying the stored configuration: it stands, and pools and the phase are as before. -/
theorem applyConfig_kept (s : State) :
    (applyConfig s).cfg = cfgAtStart s ∧ (applyConfig s).phase = s.phase ∧ (applyConfig s).pools = s.pools := by
  unfold applyConfig cfgAtStart
  cases bestCopy s.flash
  case none =>
    dsimp only
    split <;> simp
  case some => exact ⟨rfl, rfl, rfl⟩

/-- `t` has the configuration of `s` but for the pools in it. -/
def PoolsOnly (s t : State) : Prop := ∃ ps, t.cfg = { s.cfg with pools := ps }

theorem PoolsOnly.refl (s : State) : PoolsOnly s s := ⟨s.cfg.pools, rfl⟩

theorem PoolsOnly.trans {s t u : State} (h : PoolsOnly s t) (k : PoolsOnly t u) : PoolsOnly s u := by
  obtain ⟨_, h⟩ := h
  obtain ⟨ps, k⟩ := k
  exact ⟨ps, by rw [k, h]⟩

theorem PoolsOnly.foldl {α : Type} (f : State → α → State) (hf : ∀ s a, PoolsOnly s (f s a)) (r : List α) (s : State) :
    PoolsOnly s (r.foldl f s) := by
  induction r generalizing s with
  | nil => exact .refl s
  | cons a r ih => exact (hf s a).trans (ih (f s a))

/-- A pool of the start: its rebuild tile and initialisation, and the mirror set that its journal state holds (R190, R193). -/
def layPool (s : State) (p : Nat) : State :=
  journalMirror (modPool s p (fun x =>
    { x with tile := rebuildTile s p, initWork := if x.init then (poolCfg s p).members.map (fun m => (m, 0)) else [] })) p

theorem journalMirror_Frame (s : State) (p : Nat) : Frame [.cfg] s (journalMirror s p) := by
  unfold journalMirror
  split
  · exact setPoolCfg_Frame s p _
  · exact .refl _ s

theorem layPool_Frame (s : State) (p : Nat) : Frame [.pools, .cfg] s (layPool s p) :=
  ((setPool_Frame s p _).mono (by simp)).trans ((journalMirror_Frame _ p).mono (by simp))

theorem layPool_poolsOnly (s : State) (p : Nat) : PoolsOnly s (layPool s p) := by
  unfold layPool journalMirror
  split <;> exact ⟨_, rfl⟩

/-- The run-time state that the applied configuration gives: pools, volumes, members, ports, thresholds, and the role of Moonstone. -/
def laidState (s : State) : State :=
  { s with
    pools := s.cfg.pools.map (fun (e : Nat × PoolCfg) => (e.1, (Tab.get? s.pools e.1).getD {}))
    vols := s.cfg.vols.map (fun (e : Nat × VolCfg) => (e.1, { (Tab.get? s.vols e.1).getD {} with home := homeAtStart s e.2 }))
    members := s.cfg.members.map (fun (e : Nat × MemberParams) => (e.1, (Tab.get? s.members e.1).getD {}))
    links := s.cfg.links.map (fun (e : Nat × LinkCfg) => (e.1, { started := e.2.started }))
    hk := { s.hk with tWarn := s.cfg.warn, tThrottle := s.cfg.throttle, tCritical := s.cfg.critical, graceMs := s.cfg.graceMs }
    moon := { s.moon with
      role := s.cfg.epochRole, guard := s.cfg.epochGuard, period := s.cfg.epochPeriod, dlyAdj := s.cfg.dlyAdj
      sealTimeoutMs := s.cfg.sealTimeoutMs } }

/-- The tiles laid under a configuration `c`. -/
def layTiles (s : State) (c : Cfg) : State :=
  modTiles s (fun t x => { x with
    tier := { x.tier with zGib := Tab.getD c.zGib t 3 }
    amber := { x.amber with adopted := !tileUp s t && tileUp s (buddy t) } })

theorem layConfig_eq (s : State) : layConfig s = (Tab.keys s.cfg.vols).foldl
    (fun s v => modVol s v (fun x => { x with noMap := beyondMaps s v }))
    ((Tab.keys s.cfg.pools).foldl layPool (layTiles (laidState s) s.cfg)) := rfl

theorem layTiles_Frame (s : State) (c : Cfg) : Frame [.tiles] s (layTiles s c) := modTiles_Frame s _

theorem layConfig_Frame (s : State) : Frame [.tiles, .pools, .cfg, .vols] (laidState s) (layConfig s) := by
  rw [layConfig_eq]
  refine Frame.after (.foldl _ (fun u v => (setVol_Frame u v _).mono (by simp)) _ _) ?_
  refine Frame.after (.foldl _ (fun u p => (layPool_Frame u p).mono (by simp)) _ _) ?_
  exact (layTiles_Frame _ _).mono (by simp)

/-- The fold over the volumes leaves the configuration that the fold over the pools gives. -/
theorem layConfig_cfg (s : State) :
    (layConfig s).cfg = ((Tab.keys s.cfg.pools).foldl layPool (layTiles (laidState s) s.cfg)).cfg := by
  rw [layConfig_eq]
  exact (Frame.foldl _ (fun u v => setVol_Frame u v _) _ _).cfg (by simp)

theorem layConfig_poolsOnly (s : State) : PoolsOnly s (layConfig s) := by
  obtain ⟨ps, h⟩ := PoolsOnly.foldl layPool layPool_poolsOnly (Tab.keys s.cfg.pools) (layTiles (laidState s) s.cfg)
  exact ⟨ps, by rw [layConfig_cfg, h, (layTiles_Frame _ _).cfg (by simp)]; rfl⟩

/-- No pool's journal state holds a mirror set. -/
def NoMirrorSet (s : State) : Prop := ∀ p, (getPool s p).mirrorSet = none

/-- A pool without a mirror set in its journal state keeps its configuration. -/
theorem layPool_noMirrorSet {s : State} (h : NoMirrorSet s) (p : Nat) : NoMirrorSet (layPool s p) ∧ (layPool s p).cfg = s.cfg := by
  have hset : layPool s p = modPool s p (fun x =>
      { x with tile := rebuildTile s p, initWork := if x.init then (poolCfg s p).members.map (fun m => (m, 0)) else [] }) := by
    simp [layPool, journalMirror, h p]
  refine ⟨fun q => ?_, by rw [hset]; rfl⟩
  rw [hset, modPool_eq]
  by_cases hq : q = p
  · subst hq
    simpa using h q
  · rw [getPool_setPool_ne _ _ _ _ hq]
    exact h q

theorem foldl_layPool_cfg {s : State} (h : NoMirrorSet s) (l : List Nat) : (l.foldl layPool s).cfg = s.cfg := by
  induction l generalizing s with
  | nil => rfl
  | cons p l ih =>
    obtain ⟨hn, hc⟩ := layPool_noMirrorSet h p
    exact (ih hn).trans hc

theorem noMirrorSet_laidState {s : State} (h : NoMirrorSet s) : NoMirrorSet (laidState s) := fun p => by
  have hp : ((Tab.get? s.pools p).getD { st := .absent }).mirrorSet = none := h p
  have hmap := Tab.get?_map s.cfg.pools (fun k (_ : PoolCfg) => (Tab.get? s.pools k).getD {}) p
  simp only [getPool, Tab.getD, laidState, hmap]
  cases Tab.get? s.cfg.pools p
  case none => rfl
  case some =>
    cases hx : Tab.get? s.pools p
    case none => rfl
    case some => simpa [hx] using hp

theorem layConfig_cfg_of_noMirrorSet {s : State} (h : NoMirrorSet s) : (layConfig s).cfg = s.cfg := by
  have hn : NoMirrorSet (layTiles (laidState s) s.cfg) := fun p => by
    rw [getPool, (layTiles_Frame _ _).pools (by simp)]
    exact noMirrorSet_laidState h p
  rw [layConfig_cfg, foldl_layPool_cfg hn, (layTiles_Frame _ _).cfg (by simp)]
  rfl

theorem disown_workFrame (s : State) (pool : Nat) : WorkFrame s (disown s pool) := by
  unfold disown
  exact (WorkFrame.of_frame (fault_Frame _ _)).after ((WorkFrame.of_frame (modTiles_Frame _ _)).after (setPool_workFrame s pool _))

theorem checkOwners_workFrame (s : State) (headers : List (Nat × PoolHeader)) : WorkFrame s (checkOwners s headers) := by
  unfold checkOwners
  refine .foldl _ (fun u p => ?_) _ s
  dsimp only
  split
  · exact .ite (.ite (setPool_workFrame u p _) (disown_workFrame u p)) (.refl _ u)
  · exact .refl _ u

theorem trimSegments_workFrame (s : State) : WorkFrame s (trimSegments s) := workFrame_update s _ _ _ _ _ _ _ _ _ _

theorem walkRings_workFrame (s : State) : WorkFrame s (walkRings s) := .foldl _ (fun u t => setTile_workFrame u t _) _ s

/-- The device with its configuration laid, ALIVE and its bypass open. -/
def firmwareAlive (s : State) : State :=
  { layConfig (applyConfig { s with phase := .replay }) with
    pins := { bypassPins (layConfig (applyConfig { s with phase := .replay })) false with alive := true }
    jade := { (layConfig (applyConfig { s with phase := .replay })).jade with aliveRunning := true } }

/-- Replay begun over the rings as their walk finds them. -/
def replayBegun (s : State) (headers : List (Nat × PoolHeader)) : State :=
  replayRings (walkRings (trimSegments (checkOwners s headers))) (readableRings (walkRings (trimSegments (checkOwners s headers))))
    (toReplay (walkRings (trimSegments (checkOwners s headers))))

theorem replayBegun_workFrame (s : State) (headers : List (Nat × PoolHeader)) : WorkFrame s (replayBegun s headers) :=
  (replayRings_workFrame _ _ _).after ((walkRings_workFrame _).after ((trimSegments_workFrame _).after (checkOwners_workFrame s headers)))

theorem firmwareAlive_workFrame (s : State) : WorkFrame (layConfig (applyConfig { s with phase := .replay })) (firmwareAlive s) :=
  workFrame_update _ _ _ _ _ _ _ _ _ _ _

theorem exec_firmwareUp {s : State} (headers : List (Nat × PoolHeader)) (hr : running s = true) (hp : s.phase = .boot)
    (ht : tileUp s 0 = true) (hb : s.sec.bootFailed = false) :
    exec (.firmwareUp headers) s = .next (settled (replayBegun (firmwareAlive s) headers)) := by
  show execFirmwareUp headers s = _
  unfold execFirmwareUp
  rw [if_neg (by simp [hr, hp, ht, hb])]
  rfl

/-! ### REPLAY_COMPLETE (R195, R474) -/

theorem poolAtStart_workFrame (s : State) (p : Nat) : WorkFrame s (poolAtStart s p) := by
  unfold poolAtStart recopySegment
  dsimp only
  refine (startSalvages_workFrame _ _).after ?_
  split
  · refine Frame.after (.foldl _ (fun u t => .foldl _ (fun v r => issueM_workFrame v _ _ _ _ _ _ _ _ _ _) _ u) _ _) ?_
    exact (setPool_workFrame _ _ _).after (setPool_workFrame s p _)
  · exact setPool_workFrame s p _

/-- Pools, volumes and rings in service once replay has ended. -/
def backInService (s : State) : State :=
  let s := modTiles s (fun t x => if tileUp s t then { x with amber := restartRing s t x.amber } else x)
  let s := (readableRings s).foldl reindex s
  let s := (Tab.keys s.cfg.pools).foldl poolAtStart s
  let s := (Tab.keys s.cfg.vols).foldl volAtStart s
  jetInfo s 0x2009 (srcAmber 0) []

theorem backInService_workFrame (s : State) : WorkFrame s (backInService s) := by
  unfold backInService
  refine Frame.after (WorkFrame.of_frame (jetInfo_Frame _ _ _ _)) ?_
  refine Frame.after (.foldl _ (fun u v => WorkFrame.of_frame (setVol_Frame u v _)) _ _) ?_
  refine Frame.after (.foldl _ poolAtStart_workFrame _ _) ?_
  refine Frame.after (.foldl _ (fun u t => WorkFrame.of_frame (reindex_Frame u t)) _ _) ?_
  exact WorkFrame.of_frame (modTiles_Frame s _)

theorem exec_replayComplete {s : State} (hr : running s = true) (hp : s.phase = .replay) (hd : replayed s = true) :
    exec .replayComplete s = .next (settled (backInService { s with phase := .ready })) := by
  show execReplayComplete s = _
  unfold execReplayComplete
  rw [if_neg (by simp [hr, hp, hd])]
  rfl

/-- Settles O10: each row by its equation; what it does besides keeps the phase, the configuration and housekeeping. -/
theorem startRows : Obligations.StartRows := by
  refine ⟨?start, ?selftest, ?firmware, ?replay⟩
  case start =>
    intro s failed hp hc h0
    obtain ⟨hboot, hcfg⟩ := startDevice_phase_cfg { s with pins := { s.pins with pwrOk := true, sysResetN := true } } h0
    refine ⟨_, exec_deviceStart failed hp hc, by rw [settled_phase, hboot], by rw [settled_cfg, hcfg], fun k x hx => ?_⟩
    rw [settled_tiles] at hx
    exact inService_startDevice _ h0 hx
  case selftest =>
    intro s failed hp hc h0
    exact ⟨_, exec_deviceStart failed hp hc, (settled_f4_frozen _).1.trans (startDevice_f4 _ h0)⟩
  case firmware =>
    intro s headers hr hp ht hb
    refine ⟨_, exec_firmwareUp headers hr hp ht hb, ?_⟩
    have hk := (replayBegun_workFrame (firmwareAlive s) headers).after (firmwareAlive_workFrame s)
    obtain ⟨hcfg, hphase, hpools⟩ := applyConfig_kept { s with phase := .replay }
    have hlaid := layConfig_Frame (applyConfig { s with phase := .replay })
    obtain ⟨ps, hps⟩ := layConfig_poolsOnly (applyConfig { s with phase := .replay })
    rw [settled_phase, settled_cfg, settled_hk, hk.phase (by decide), hk.cfg (by decide), hk.hk (by decide), hlaid.phase (by decide),
      hlaid.hk (by decide)]
    refine ⟨hphase, ?_, fun hnone => ?_, ?_, ?_, ?_⟩
    · rw [hps, hcfg]
      rfl
    · rw [layConfig_cfg_of_noMirrorSet (fun p => ?_), hcfg]
      · rfl
      · rw [getPool, hpools]
        exact hnone p
    all_goals rw [hps]; rfl
  case replay =>
    intro s hr hp hd
    have hk := backInService_workFrame { s with phase := .ready }
    refine ⟨_, exec_replayComplete hr hp hd, ?_, ?_⟩
    · rw [settled_phase, hk.phase (by decide)]
    · rw [settled_cfg, hk.cfg (by decide)]

end Sys2Proof.Machine
end

section
/-! PROOFS. The journal's own rows (R167, R170, R182, R187-R190, R194): records of a ring read back, what ring work leaves of a ring's
failure and relocation count, then one equation per row. -/

namespace Sys2Proof.Machine

/-! ### Records of a ring read back (R166) -/

/-- A record adjusted by its SEQUENCE, which the adjustment keeps. -/
theorem find?_adjust {a : Amber} {seq : Nat} {r : RingRec} {f : RingRec → RingRec} (h : a.find? seq = some r)
    (hf : ∀ x, (f x).r.seq = x.r.seq) : (a.adjust seq f).find? seq = some (f r) := by
  have hm := find?_map_of_key (fun x : RingRec => x.r.seq) (fun x => if x.r.seq = seq then f x else x)
    (fun x => by split; exacts [hf x, rfl]) seq a.recs
  have hr : a.recs.find? (fun x => x.r.seq == seq) = some r := h
  have hseq : r.r.seq = seq := by simpa using List.find?_some hr
  rw [hr, Option.map_some, if_pos hseq] at hm
  exact hm

/-- Bringing a buddy's index up to date leaves every ring's records (R38). -/
theorem getTile_reindex_recs (s : State) (t k : Nat) : (getTile (reindex s t) k).amber.recs = (getTile s k).amber.recs := by
  unfold reindex
  split
  · rfl
  · rw [modAmber_eq]
    by_cases hk : k = buddy t
    · subst hk; rw [getTile_setTile_self]
    · rw [getTile_setTile_ne _ _ _ _ hk]

/-- A record once it is written to the copies its ring has (R167). -/
theorem find?_commitRec {s : State} {tile seq : Nat} {r : RingRec} (h : (getTile s tile).amber.find? seq = some r) :
    (getTile (commitRec s tile seq) tile).amber.find? seq = some { written s tile r with committed := !r.partnerWait } := by
  have hadj := find?_adjust h (f := fun r => { written s tile r with committed := !r.partnerWait }) (fun _ => rfl)
  rw [Amber.find?, commitRec, getTile_reindex_recs, modAmber_eq, getTile_setTile_self]
  exact hadj

theorem find?_waiveConfirm {s : State} {tile seq : Nat} {r : RingRec} (h : (getTile s tile).amber.find? seq = some r) :
    (getTile (waiveConfirm s tile seq) tile).amber.find? seq =
      some { r with partnerWait := false, committed := !r.open_ && (r.own || r.mirror) } := by
  have htile : getTile (waiveConfirm s tile seq) tile = getTile (partnerGiven s tile seq) tile := rfl
  rw [htile, partnerGiven, modAmber_eq, getTile_setTile_self]
  exact find?_adjust h (fun _ => rfl)

/-! ### A ring's failure and its count of relocations -/

/-- Two rings agree in their failure (R194) and in their count of relocations. -/
def SameMarks (a b : Amber) : Prop := b.failed = a.failed ∧ b.relocations = a.relocations

/-- Every tile's ring agrees in its failure and in its count of relocations. -/
def MarksKept (s t : State) : Prop := ∀ k, SameMarks (getTile s k).amber (getTile t k).amber

theorem advance_sameMarks (a : Amber) : SameMarks a a.advance := by
  unfold Amber.advance
  split
  · dsimp only
    split <;> exact ⟨rfl, rfl⟩
  · exact ⟨rfl, rfl⟩

namespace MarksKept

theorem of_tiles {s t : State} (h : t.tiles = s.tiles) : MarksKept s t := fun k => by
  rw [getTile, getTile, h]
  exact ⟨rfl, rfl⟩

theorem of_frame {l : List Piece} {s t : State} (h : Frame l s t) (hl : .tiles ∉ l := by decide) : MarksKept s t := of_tiles (h.tiles hl)

theorem refl (s : State) : MarksKept s s := of_tiles rfl

theorem trans {s t u : State} (h : MarksKept s t) (k : MarksKept t u) : MarksKept s u := fun i => by
  obtain ⟨hf, hr⟩ := h i
  obtain ⟨kf, kr⟩ := k i
  exact ⟨kf.trans hf, kr.trans hr⟩

theorem after {s t u : State} (k : MarksKept t u) (h : MarksKept s t) : MarksKept s u := h.trans k

theorem ite {s t u : State} {p : Prop} [Decidable p] (h : MarksKept s t) (k : MarksKept s u) : MarksKept s (if p then t else u) := by
  split
  exacts [h, k]

theorem foldl {α : Type} (f : State → α → State) (hf : ∀ s a, MarksKept s (f s a)) (r : List α) (s : State) :
    MarksKept s (r.foldl f s) := by
  induction r generalizing s with
  | nil => exact .refl s
  | cons a r ih => exact (hf s a).trans (ih (f s a))

/-- A tile changed in what leaves the marks of its ring. -/
theorem setTile {s : State} {t : Nat} {x : Tile} (h : SameMarks (getTile s t).amber x.amber) : MarksKept s (setTile s t x) := fun k => by
  by_cases hk : k = t
  · subst hk; rwa [getTile_setTile_self]
  · rw [getTile_setTile_ne _ _ _ _ hk]; exact ⟨rfl, rfl⟩

theorem modAmber (s : State) (t : Nat) {f : Amber → Amber} (h : ∀ a, SameMarks a (f a)) : MarksKept s (modAmber s t f) := setTile (h _)

end MarksKept

theorem sendAwaited_marks (s : State) (l t seq : Nat) (r : Rec) : MarksKept s (sendAwaited s l t seq r) :=
  .of_frame (sendAwaited_Frame s _ _ _ _)

theorem reindex_marks (s : State) (t : Nat) : MarksKept s (reindex s t) := by
  unfold reindex
  exact .ite (.refl s) (.modAmber s _ (fun _ => ⟨rfl, rfl⟩))

theorem pushCtl_marks (s : State) (t : Nat) (r : Rec) : MarksKept s (pushCtl s t r) := by
  have happ (x : RingRec) : MarksKept s (modAmber s t (fun a => (a.append x).advance)) :=
    .modAmber s t (fun a => advance_sameMarks (a.append x))
  unfold pushCtl
  dsimp only
  split
  · exact happ _
  · exact (sendAwaited_marks _ _ _ _ _).after (happ _)

theorem drainCtl_marks (s : State) (t : Nat) : MarksKept s (drainCtl s t) := by
  unfold drainCtl newSetReady
  refine .ite (.refl s) (MarksKept.after (.of_tiles rfl) (.foldl _ (fun u r => ?_) _ s))
  exact .ite ((pushCtl_marks _ _ _).after (.modAmber u t (fun _ => ⟨rfl, rfl⟩))) (.refl u)

theorem retire_sameMarks (a : Amber) (x : RingRec) : SameMarks a (a.retire x) := advance_sameMarks _

theorem retireRec_marks (s : State) (t seq : Nat) : MarksKept s (retireRec s t seq) := by
  have hret (x : RingRec) : MarksKept s (drainCtl (reindex (modAmber s t (fun a => a.retire x)) t) t) :=
    (drainCtl_marks _ t).after ((reindex_marks _ t).after (.modAmber s t (fun a => retire_sameMarks a x)))
  unfold retireRec
  split
  · exact .refl s
  · refine .ite (.refl s) ?_
    dsimp only
    split
    · exact hret _
    · exact (sendAwaited_marks _ _ _ _ _).after (hret _)

theorem copyRec_marks (s : State) (t : Nat) (x : RingRec) (ref : Nat) : MarksKept s (copyRec s t x ref) := by
  unfold copyRec
  dsimp only
  split
  · exact .modAmber s t (fun _ => ⟨rfl, rfl⟩)
  · exact (sendAwaited_marks _ _ _ _ _).after (.modAmber s t (fun _ => ⟨rfl, rfl⟩))

theorem renameSeq_marks (s : State) (t old new : Nat) : MarksKept s (renameSeq s t old new) := fun k => by
  have hmap := Tab.get?_map s.tiles (fun _ (x : Tile) => { x with locks := x.locks.map (fun (l : Lock) =>
    if l.holder = Holder.adopted t old then { l with holder := Holder.adopted t new } else l) }) k
  simp only [getTile, Tab.getD, renameSeq, hmap]
  cases Tab.get? s.tiles k <;> exact ⟨rfl, rfl⟩

/-! ### RECORD_COMMIT (R167, R181) and PARTNER_CONFIRM_TIMEOUT (R182) -/

/-- A committed record of a partner confirmed to it (R181). -/
def confirmOrigin (s : State) (origin : Option (Nat × Nat × Nat)) : State :=
  match origin with
  | some (l, t, q) => partnerSend s l (.confirm q t 0)
  | none => s

theorem exec_recordCommit {s : State} {tile seq : Nat} {r : RingRec} (hr : running s = true) (hs : ringServed s tile = true)
    (hf : (getTile s tile).amber.find? seq = some r) (hc : r.committed = false) (ha : (getTile s tile).amber.failed = false)
    (hop : r.open_ = false) (hown : r.own = false) (hmir : r.mirror = false) : exec (.recordCommit tile seq) s =
      .next (settled (startData (ackRecord (confirmOrigin (commitRec s tile seq) r.origin) tile seq))) := by
  show execRecordCommit tile seq s = _
  unfold execRecordCommit
  rw [hf]
  dsimp only
  rw [if_neg (by simp [hr, hs, hc, ha, hop, hown, hmir])]
  rfl

theorem exec_partnerConfirmTimeout {s : State} {tile seq : Nat} {r : RingRec} (hfw : fwUp s = true) (hs : ringServed s tile = true)
    (hf : (getTile s tile).amber.find? seq = some r) (hw : r.partnerWait = true) : exec (.partnerConfirmTimeout tile seq) s =
      .next (settled (startData (ackRecord (suspendPool (waiveConfirm s tile seq) (recPool s r.r) false) tile seq))) := by
  show execPartnerConfirmTimeout tile seq s = _
  simp only [execPartnerConfirmTimeout, hf, hfw, hs, hw, Bool.and_self, Bool.not_true, Bool.false_eq_true, if_false, done_eq]

/-! ### RELOCATION (R170) -/

/-- The DATA record of an INTENT that relocation copies with it. -/
def relocatedData (a : Amber) (x : RingRec) : Option RingRec :=
  a.recs.find? (fun r => r.r.kind == .data && r.r.ref == x.r.seq && !r.retired && !r.open_)

/-- The head INTENT `x` copied with its DATA, the original retired and its handles renamed (log entry 133). -/
def relocated (s : State) (tile : Nat) (x : RingRec) : State :=
  let n := (getTile s tile).amber.nextSeq
  let data? := relocatedData (getTile s tile).amber x
  let s := modAmber s tile (fun a => { a with recs := a.recs.map (fun r =>
    if r.open_ ∧ r.r.ref = x.r.seq then { r with r := { r.r with ref := n } } else r) })
  let s := copyRec s tile x x.r.ref
  let s := match data? with
    | some y => copyRec s tile y n
    | none => s
  let s := renameSeq (retireRec s tile x.r.seq) tile x.r.seq n
  match data? with
  | some y => renameSeq s tile y.r.seq (n + 1)
  | none => s

theorem relocated_marks (s : State) (tile : Nat) (x : RingRec) : MarksKept s (relocated s tile x) := by
  have hmove (n : Nat) : MarksKept s (copyRec (modAmber s tile (fun a => { a with recs := a.recs.map (fun r =>
      if r.open_ ∧ r.r.ref = x.r.seq then { r with r := { r.r with ref := n } } else r) })) tile x x.r.ref) :=
    (copyRec_marks _ _ _ _).after (.modAmber s tile (fun _ => ⟨rfl, rfl⟩))
  have hretire (u : State) (n : Nat) : MarksKept u (renameSeq (retireRec u tile x.r.seq) tile x.r.seq n) :=
    (renameSeq_marks _ _ _ _).after (retireRec_marks u tile _)
  unfold relocated
  dsimp only
  cases relocatedData (getTile s tile).amber x
  case none => exact (hretire _ _).after (hmove _)
  case some y => exact (renameSeq_marks _ _ _ _).after ((hretire _ _).after ((copyRec_marks _ _ _ _).after (hmove _)))

theorem exec_relocation {s : State} {tile : Nat} {x : RingRec} {l : List RingRec} (hr : running s = true)
    (hs : ringServed s tile = true) (hl : (getTile s tile).amber.live = x :: l) (hh : (getTile s tile).amber.high = true)
    (hf : (getTile s tile).amber.failed = false) (hk : x.r.kind = .intent) (hc : x.committed = true)
    (hrep : s.replays.any (fun y => y.intents.contains (tile, x.r.seq)) = false) : exec (.relocation tile) s =
      .next (settled (modAmber (relocated s tile x) tile (fun a => { a with relocations := a.relocations + 1 }))) := by
  show execRelocation tile s = _
  unfold execRelocation
  dsimp only
  rw [hl]
  dsimp only
  rw [if_neg (by simp only [hr, hs, hh, hf, hk, hc, hrep, beq_self_eq_true, Bool.and_self, Bool.not_true, Bool.or_self, Bool.false_eq_true,
    not_false_eq_true])]
  rfl

/-! ### MRAM_COMMIT_FAILURE (R194) -/

theorem stampWrite_marks (s : State) (c : Cmd) : MarksKept s (stampWrite s c) := by
  unfold stampWrite
  refine .foldl _ (fun u p => ?_) _ s
  have hrow : MarksKept u (markRow u c.vol p.row) := .of_frame (markRow_Frame u _ _)
  dsimp only
  split
  · exact hrow.trans (.modAmber _ _ (fun _ => ⟨rfl, rfl⟩))
  · exact hrow

theorem removeCmd_marks (s : State) (c : Cmd) : MarksKept s (removeCmd s c) :=
  (MarksKept.setTile ⟨rfl, rfl⟩ : MarksKept s (unlockCmd (dropCmd s c.id) c)).trans (.of_tiles rfl)

theorem settleCmd_marks (s : State) (i : Nat) : MarksKept s (settleCmd s i) := by
  unfold settleCmd
  split
  · exact .refl s
  · next c _ =>
    have hw : MarksKept s (if isWriteOp c.op then stampWrite s c else s) := .ite (stampWrite_marks s c) (.refl s)
    refine .ite (.refl s) (.ite (hw.trans (.of_tiles rfl)) (.ite (hw.trans (removeCmd_marks _ c)) ?_))
    exact .ite (.of_tiles rfl) (.ite (.of_tiles rfl) ((stampWrite_marks s c).trans (.of_tiles rfl)))

/-- A command of a tile that cannot commit: its writes end with 0x0044. -/
def commitLost (tile : Nat) (c : Cmd) : Cmd :=
  if c.home = tile ∧ c.phase = .locked ∧ isWriteOp c.op then
    { c with parts := c.parts.map (fun p => if p.acked then p else { p with acked := true, status := 0x0044 }) }
  else if c.home = tile ∧ c.phase = .locked ∧ c.op = .flush then { c with phase := .finished, status := 0x0044 }
  else c

/-- A tile whose half of MRAM has failed, with its commands' writes ended. -/
def mramLost (s : State) (tile : Nat) : State :=
  { modAmber s tile (fun a => { a with failed := true }) with cmds := s.cmds.map (commitLost tile) }

/-- The commands of a tile that have reached their points. -/
def settleCmds (s : State) (tile : Nat) : State := s.cmds.foldl (fun s c => if c.home = tile then settleCmd s c.id else s) s

theorem settleCmds_marks (s : State) (tile : Nat) : MarksKept s (settleCmds s tile) := by
  unfold settleCmds
  exact .foldl _ (fun u (c : Cmd) => .ite (settleCmd_marks u c.id) (.refl u)) _ s

theorem settleCmds_of_no_cmds {s : State} (tile : Nat) (h : s.cmds = []) : settleCmds s tile = s := by simp [settleCmds, h]

theorem mramFailed_mramLost (s : State) (tile : Nat) : mramFailed (mramLost s tile) tile = true := by
  have htile : getTile (mramLost s tile) tile = getTile (modAmber s tile (fun a => { a with failed := true })) tile := rfl
  rw [mramFailed, htile, modAmber_eq, getTile_setTile_self]

theorem exec_mramCommitFailure {s : State} {tile : Nat} (hr : running s = true) (hu : tileUp s tile = true)
    (hf : mramFailed s tile = false) :
    exec (.mramCommitFailure tile) s = .next (settled (fault0 (settleCmds (mramLost s tile) tile) 0x2007 2 (srcAmber tile))) := by
  show execMramCommitFailure tile s = _
  unfold execMramCommitFailure
  rw [if_neg (by simp [hr, hu, hf])]
  rfl

/-- A tile whose MRAM has failed stays so while its commands end. -/
theorem mramFailed_mramCommitFailure (s : State) (tile : Nat) :
    mramFailed (settled (fault0 (settleCmds (mramLost s tile) tile) 0x2007 2 (srcAmber tile))) tile = true := by
  obtain ⟨hfailed, -⟩ := settleCmds_marks (mramLost s tile) tile tile
  have htile : getTile (settled (fault0 (settleCmds (mramLost s tile) tile) 0x2007 2 (srcAmber tile))) tile =
      getTile (settleCmds (mramLost s tile) tile) tile := by simp [getTile]
  rw [mramFailed, htile, hfailed]
  exact mramFailed_mramLost s tile

/-! ### Destages (R185-R189) -/

section Destages

variable {s : State} {vol row : Nat}

/-- A row that is not destaged, whole, free and with dirty blocks can begin a destage (R185, R187). -/
theorem startDestage_begins {t : Nat} {src : CRow} (hd : destaging s vol row = false) (hst : (getPool s (volCfg s vol).pool).st ≠ .offline)
    (hb : isBroken s (volCfg s vol).pool row = false) (hi : (getPool s (volCfg s vol).pool).interlocks.contains row = false)
    (hm : recoveringMask (getTile s t).tier vol row = 0) (hsrc : destageSource (getTile s t).tier vol row = some src)
    (hdata : (destageData s t vol row src).1 ≠ 0) : ∃ u, startDestage s t vol row = some u := by
  have hgate : (destaging s vol row || (getPool s (volCfg s vol).pool).st == .offline || isBroken s (volCfg s vol).pool row ||
      (getPool s (volCfg s vol).pool).interlocks.contains row || recoveringMask (getTile s t).tier vol row != 0) = false := by
    simp only [hd, hb, hi, hm, beq_false_of_ne hst, bne_self_eq_false, Bool.or_self]
  unfold startDestage
  dsimp only
  rw [if_neg (by rw [hgate]; exact Bool.false_ne_true), hsrc]
  dsimp only
  rw [if_neg hdata]
  split <;> exact ⟨_, rfl⟩

theorem exec_destageStart {u : State} (hs : serving s = true) (hu : tileUp s (homeTile s vol) = true) (hc : s.hk.closing = false)
    (hv : (volCfg? s vol).isSome = true)
    (ha : s.cache.en = true ∨ askedFor s (homeTile s vol) vol (poolRowOf (volCfg s vol) row) = true)
    (ho : urgentRow s (homeTile s vol) vol (poolRowOf (volCfg s vol) row) = true ∨ urgentReady s (homeTile s vol) = false)
    (hd : startDestage s (homeTile s vol) vol (poolRowOf (volCfg s vol) row) = some u) :
    exec (.destageStart vol row) s = .next (settled u) := by
  have hnone : (volCfg? s vol).isNone = false := by rw [← Option.not_isSome, hv]; rfl
  have hasked : (s.cache.en || askedFor s (homeTile s vol) vol (poolRowOf (volCfg s vol) row)) = true := by
    rcases ha with h | h <;> simp [h]
  have hfirst : (!urgentRow s (homeTile s vol) vol (poolRowOf (volCfg s vol) row) && urgentReady s (homeTile s vol)) = false := by
    rcases ho with h | h <;> simp [h]
  show execDestageStart vol row s = _
  simp only [execDestageStart, hs, hu, hc, hnone, hasked, hfirst, hd, Bool.and_self, Bool.not_true, Bool.or_self, Bool.false_eq_true,
    if_false, done_eq]

/-- While an urgent row of the tile could be destaged, no other row is (R189). -/
theorem exec_destageStart_later (hn : urgentRow s (homeTile s vol) vol (poolRowOf (volCfg s vol) row) = false)
    (hu : urgentReady s (homeTile s vol) = true) : exec (.destageStart vol row) s = .next s := by
  show execDestageStart vol row s = _
  simp only [execDestageStart, hn, hu, Bool.not_false, Bool.and_self, Bool.or_true, if_true]

end Destages

theorem exec_destageComplete {s : State} {d : Nat} {x : Destage} (hr : running s = true) (hd : getDestage? s d = some x)
    (hi : x.issued = true) (hw : x.writes = []) :
    exec (.destageComplete d) s = .next (settled (maintProgress (endDestage s x))) := by
  show execDestageComplete d s = _
  simp [execDestageComplete, hd, hr, hi, hw, done_eq]

/-! ### MIRROR_RECOPY_COMPLETE (R190) -/

theorem mirrorMove_Frame (s : State) (t pool old new phase : Nat) : Frame [.tiles, .partners] s (mirrorMove s t pool old new phase) :=
  appendCtl_Frame s t _ _ _ _

/-- A member command that re-copies the segment of a tile. -/
def recopies (pool tile : Nat) (m : MCmd) : Bool :=
  match m.purpose with
  | .recopyRead q u _ _ => q == pool && u == tile
  | .recopyWrite q u _ => q == pool && u == tile
  | _ => false

theorem any_recopies_eq_false {s : State} {pool tile : Nat}
    (h : ∀ m ∈ s.mcmds, ∀ a b, m.purpose ≠ .recopyRead pool tile a b ∧ m.purpose ≠ .recopyWrite pool tile a) :
    s.mcmds.any (recopies pool tile) = false := by
  refine List.any_eq_false.2 fun m hm hcopy => ?_
  unfold recopies at hcopy
  split at hcopy
  · next q u a b hp =>
    obtain ⟨rfl, rfl⟩ : q = pool ∧ u = tile := by simpa using hcopy
    exact (h m hm a b).1 hp
  · next q u a hp =>
    obtain ⟨rfl, rfl⟩ : q = pool ∧ u = tile := by simpa using hcopy
    exact (h m hm a 0).2 hp
  · exact Bool.false_ne_true hcopy

/-- The mirror member that a pool's re-copy fills. -/
def mirrorFilled (s : State) (pool : Nat) : Nat := mirrorAt (poolCfg s pool) ((getPool s pool).mirrorLost.headD 0)

/-- A tile's segment re-copied: its MIRROR_MOVE of phase 2 is written, and the pool no longer waits for it. -/
def segmentRecopied (s : State) (pool tile : Nat) : State :=
  setPool (mirrorMove s (hostOf s tile) pool (getPool s pool).mirrorOld (mirrorFilled s pool) 2) pool
    { getPool s pool with recopying := (getPool s pool).recopying.filter (· != tile) }

/-- The last segment re-copied: the new mirror member is usable. -/
def recopyEnded (s : State) (pool tile : Nat) : State :=
  jetInfo (setPool (segmentRecopied s pool tile) pool { getPool s pool with
    recopying := (getPool s pool).recopying.filter (· != tile), mirrorUsable := true, mirrorLost := [] }) 0x2004 (srcPool pool)
    (leBytes 2 (mirrorFilled s pool))

theorem getPool_segmentRecopied (s : State) (pool tile : Nat) : getPool (segmentRecopied s pool tile) pool =
    { getPool s pool with recopying := (getPool s pool).recopying.filter (· != tile) } := getPool_setPool_self _ _ _

theorem getPool_recopyEnded (s : State) (pool tile : Nat) : getPool (recopyEnded s pool tile) pool = { getPool s pool with
    recopying := (getPool s pool).recopying.filter (· != tile), mirrorUsable := true, mirrorLost := [] } := getPool_setPool_self _ _ _

section Recopied

variable {s : State} {pool tile : Nat} (hs : serving s = true) (hu : tileUp s (hostOf s tile) = true)
  (ht : (getPool s pool).recopying.contains tile = true) (hl : (getPool s pool).mirrorLost.length = 1)
  (hc : s.mcmds.any (recopies pool tile) = false) (hw : moveWaits s (hostOf s tile) pool = false)
  (hfit : (getTile s (hostOf s tile)).amber.fits 64 = true)

include hs hu ht hl hc hw hfit

theorem exec_mirrorRecopyComplete : exec (.mirrorRecopyComplete pool tile) s =
    .next (settled (if ((getPool s pool).recopying.filter (· != tile)).isEmpty then recopyEnded s pool tile
      else segmentRecopied s pool tile)) := by
  have hgate : (!(serving s && tileUp s (hostOf s tile) && (getPool s pool).recopying.contains tile &&
      (getPool s pool).mirrorLost.length == 1) || s.mcmds.any (recopies pool tile) || moveWaits s (hostOf s tile) pool ||
      !(getTile s (hostOf s tile)).amber.fits 64) = false := by
    simp only [hs, hu, ht, hl, hc, hw, hfit, beq_self_eq_true, Bool.and_self, Bool.not_true, Bool.or_self]
  have hpool (new : Nat) : getPool (mirrorMove s (hostOf s tile) pool (getPool s pool).mirrorOld new 2) pool = getPool s pool := by
    rw [getPool, (mirrorMove_Frame _ _ _ _ _ _).pools (by simp), getPool]
  show execMirrorRecopyComplete pool tile s = _
  unfold execMirrorRecopyComplete
  refine (if_neg (Bool.eq_false_iff.1 hgate)).trans ?_
  simp only [modPool_eq, hpool, getPool_setPool_self, done_eq]
  split <;> rfl

end Recopied

/-- Settles O19: each row by its equation, the record, ring or pool concerned read back. -/
theorem journalRows : Obligations.JournalRows := by
  refine ⟨?commit, ?commitPartner, ?timeout, ?relocation, ?mram, ?mramIdle, ?destage, ?begins, ?destageReady, ?later, ?complete, ?lastTile,
    ?tile⟩
  case commit =>
    intro s tile seq r hr hs hf hc ha hop hown hmir ho
    refine ⟨?_, _, find?_commitRec hf, by simp [written, hown], by simp [written, hmir], rfl⟩
    rw [exec_recordCommit hr hs hf hc ha hop hown hmir, ho]
    rfl
  case commitPartner =>
    intro s tile seq l t q r hr hs hf hc ha hop hown hmir ho
    rw [exec_recordCommit hr hs hf hc ha hop hown hmir, ho]
    rfl
  case timeout =>
    intro s tile seq r hfw hs hf hw
    exact ⟨exec_partnerConfirmTimeout hfw hs hf hw, _, find?_waiveConfirm hf, rfl, rfl⟩
  case relocation =>
    intro s tile x l hr hs hl hh hf hk hc hrep
    obtain ⟨-, hcount⟩ := relocated_marks s tile x tile
    refine ⟨_, exec_relocation hr hs hl hh hf hk hc hrep, ?_⟩
    rw [getTile_settled, modAmber_eq, getTile_setTile_self]
    exact congrArg (· + 1) hcount
  case mram =>
    intro s tile hr hu hf
    exact ⟨_, exec_mramCommitFailure hr hu hf, mramFailed_mramCommitFailure s tile⟩
  case mramIdle =>
    intro s tile hr hu hf hc
    refine ⟨_, exec_mramCommitFailure hr hu hf, mramFailed_mramCommitFailure s tile, ?_⟩
    have hnone : (mramLost s tile).cmds = [] := by simp [mramLost, hc]
    rw [settled_cmds, fault0_cmds, settleCmds_of_no_cmds tile hnone, hnone]
  case destage =>
    intro s u vol row hs hu hc hv ha ho hd
    exact exec_destageStart hs hu hc hv ha ho hd
  case begins =>
    intro s t vol row src hd hst hb hi hm hsrc hdata
    exact startDestage_begins hd hst hb hi hm hsrc hdata
  case destageReady =>
    intro s vol row src hs hu hc hv he ho hd hst hb hi hm hsrc hdata
    obtain ⟨u, hbegun⟩ := startDestage_begins hd hst hb hi hm hsrc hdata
    exact ⟨u, hbegun, exec_destageStart hs hu hc hv (.inl he) (.inr ho) hbegun⟩
  case later =>
    intro s vol row hn hu
    exact exec_destageStart_later hn hu
  case complete =>
    intro s d x hr hd hi hw
    exact exec_destageComplete hr hd hi hw
  case lastTile =>
    intro s pool tile hs hu ht hl hm hw hfit
    have hlast : (getPool s pool).recopying.filter (· != tile) = [] := by simp [ht]
    refine ⟨_, exec_mirrorRecopyComplete hs hu (by simp [ht]) hl (any_recopies_eq_false (by simp [hm])) hw hfit, ?_⟩
    rw [hlast, getPool_settled, List.isEmpty_nil, if_pos rfl, getPool_recopyEnded]
    exact ⟨hlast, rfl, rfl⟩
  case tile =>
    intro s pool tile hs hu ht hmore hl hm hw hfit
    refine ⟨_, exec_mirrorRecopyComplete hs hu ht hl (any_recopies_eq_false hm) hw hfit, ?_⟩
    rw [getPool_settled, if_neg (by rwa [List.isEmpty_iff]), getPool_segmentRecopied]
    exact ⟨rfl, rfl⟩

end Sys2Proof.Machine
end

section
/-! PROOFS. The member group of mailbox commands (R204, R219, R242, R250, R365): one equation per command, then what each leaves. -/

namespace Sys2Proof.Machine

/-! ### The commands -/

/-- A member's definition as it is stored: TCP_PORT 0 means 4420 (log entry 61). -/
def portGiven (p : MemberParams) : MemberParams := if p.tcpPort = 0 then { p with tcpPort := 4420 } else p

theorem portGiven_member (p : MemberParams) : (portGiven p).member = p.member := by
  unfold portGiven
  split <;> rfl

/-- A definition stored, and what was known of the member at run time forgotten (R365). -/
def memberDefined (s : State) (p : MemberParams) : State :=
  { s with cfg := { s.cfg with members := Tab.set s.cfg.members p.member p }, members := Tab.erase s.members p.member }

/-- Parameter ranges of MEMBER_DEFINE (R365). -/
theorem memberFields_clear {p : MemberParams} (hg : p.group ≤ 255) (hf : p.family = 4 ∨ p.family = 6) (hn : p.nqn.length ≤ 223) :
    [(2, decide (255 < p.group)), (3, p.family != 4 && p.family != 6), (12, decide (223 < p.nqn.length))].all
      (fun f : Nat × Bool => !f.2) = true := by
  rcases hf with h | h <;> simp [h, hg, hn]

theorem poolOfMember_mbxTake (s : State) (g : Go) (objs : List (Nat × Nat)) (r : Option Running) (m : Nat) :
    poolOfMember (mbxTake s g objs r) m = poolOfMember s m := by
  unfold poolOfMember
  rw [mbxTake_cfg, mbxTake_pools]

@[simp] theorem memberCode_mbxTake (s : State) (g : Go) (objs : List (Nat × Nat)) (r : Option Running) (m : Nat) :
    memberCode (mbxTake s g objs r) m = memberCode s m := by
  simp [memberCode, poolOfMember_mbxTake, getMember]

section Commands

variable {s : State} {g : Go}

theorem exec_memberDefine {p : MemberParams} (h : GoReady s g false 255 []) (hg : p.group ≤ 255) (hf : p.family = 4 ∨ p.family = 6)
    (hn : p.nqn.length ≤ 223) (hm : p.member < s.part.members) (ho : poolOfMember s p.member = none) :
    exec (.memberDefine g p) s = .next (settled (mbxStore (memberDefined (mbxTake s g [] none) (portGiven p)) g.mb [])) := by
  show execMemberDefine g p s = _
  unfold execMemberDefine
  rw [mbxRun_clear _ _ _ _ h rfl (memberFields_clear hg hf hn)]
  · rfl
  · simp [need, needStopped, hm, ho]

/-- A member of a pool cannot be defined anew (R365, log entry 61). -/
theorem exec_memberDefine_pooled {p : MemberParams} {pool : Nat} (h : GoReady s g false 255 []) (hg : p.group ≤ 255)
    (hf : p.family = 4 ∨ p.family = 6) (hn : p.nqn.length ≤ 223) (hm : p.member < s.part.members)
    (ho : poolOfMember s p.member = some pool) : exec (.memberDefine g p) s =
      .next (settled (mbxFinish (mbxTake s g [] (some .waiting)) g.mb 0x0100 0 [])) := by
  show execMemberDefine g p s = _
  unfold execMemberDefine
  rw [mbxRun_fails (c := needStopped false) _ _ _ _ h rfl (memberFields_clear hg hf hn)]
  · rfl
  · simp [firstFailing, need, needStopped, hm, ho]

theorem exec_memberStatus {m : Nat} (h : GoReady s g false 2 []) (hm : m < s.part.members) : exec (.memberStatus g m) s =
    .next (settled (mbxOk (mbxTake s g [] none) g.mb (leBytes 1 (memberCode s m) ++ leBytes 3 (groupOf s m) ++
      leBytes 4 (getMember s m).timeouts ++ leBytes 4 (getMember s m).deadlines ++ leBytes 4 (getMember s m).repairs ++
      leBytes 8 (getMember s m).declared.toNat))) := by
  show execMemberStatus g m s = _
  unfold execMemberStatus
  rw [mbxRun_clear _ _ _ _ h rfl rfl]
  · simp [done_eq, groupOf, getMember]
  · simp [need, hm]

theorem exec_memberFail {m pool : Nat} {c : PoolCfg} (h : GoReady s g false 2 []) (hd : defined s m = true)
    (ho : poolOfMember s m = some pool) (hc : poolCfg? s pool = some c) (hr : c.reserved = none)
    (hst : (getPool s pool).st = .running) :
    exec (.memberFail g m) s = .next (settled (mbxOk (declareFailed (mbxTake s g [] none) m) g.mb [])) := by
  show execMemberFail g m s = _
  unfold execMemberFail
  rw [mbxRun_clear _ _ _ _ h rfl rfl]
  · rfl
  · simp [need, needRunning, poolReserved, poolCfg, hd, ho, hc, hr, hst]

/-- MEMBER_REPLACE for a failed index of an unmirrored pool: the member is free or barred from this pool alone, and fits; its Peridot home
is not one the host named, and no copyback runs (R219, R242). -/
theorem exec_memberReplace {pool ix m : Nat} {c : PoolCfg} {found : MemberIdent} (hp : PoolReady s pool c)
    (h : GoReady s g false 6 [objPool pool]) (hd : defined s m = true) (hst : (getPool s pool).st = .running)
    (hix : isFailedIx (getPool s pool).failList ix = true) (ho : inPool s m = false ∨ barred s pool m = true)
    (hfit : fitMember [found] m = true) (hslots : c.slots ≤ slotsOf found.capacity)
    (hfree : (if c.peridot then namedHome s pool ix else (getPool s pool).copy.isSome) = false) (hpart : c.partner = none) :
    exec (.memberReplace g pool ix m found) s = .next (settled (mbxStore (applyChange
      (takeMember [found] .replacing (mbxTake s g [objPool pool] none) m) (.replace pool ix m)) g.mb [])) := by
  have hcfg := hp.poolCfg_eq
  have hout : (inPool s m && !barred s pool m) = false := by rcases ho with h | h <;> simp [h]
  have hfields : (fieldsBad [(2, !isFailedIx (getPool s pool).failList ix),
      (4, (inPool s m && !barred s pool m) || !fitMember [found] m || decide (slotsOf found.capacity < c.slots))]).fails = false :=
    fieldsBad_clear (by simp [hix, hout, hfit, hslots])
  have htaken : (poolCfg (takeMember [found] .replacing (mbxTake s g [objPool pool] none) m) pool).partner = none := by
    have : poolCfg (takeMember [found] .replacing (mbxTake s g [objPool pool] none) m) pool = poolCfg s pool := by
      simp [takeMember, poolCfg, poolCfg?]
    rw [this, hcfg, hpart]
  have hlt := hp.number_clear
  obtain ⟨hph, -, hc, hres⟩ := hp
  show execMemberReplace g pool ix m found s = _
  unfold execMemberReplace
  rw [mbxRun_clear _ _ _ _ h rfl]
  · simp only [done_eq, changePool, htaken]
  · simp [hlt]
  · rw [hcfg]
    simp [need, needReplay, needRunning, needFree, needPartner, poolReserved, hcfg, hc, hres, hd, hph, hst, hfields, hfree, hpart]

end Commands

/-- Settles O45: each command by its equation, what it stores read back, its answer by the mailbox's endings. -/
theorem memberCommandRows : Obligations.MemberCommandRows := by
  refine ⟨?define, ?pooled, ?status, ?fail, ?replace⟩
  case define =>
    intro s g p h hg hf hn hm ho
    refine ⟨_, exec_memberDefine h hg hf hn hm ho, mbxPark_runs_of_mbx _ _ rfl, ?_, ?_, fun m hne => ?_⟩
    · simp [mbxStore, memberDefined, portGiven_member]
    · change _ = some (portGiven p)
      simp [mbxStore, memberDefined, portGiven_member, Tab.get?_set_self]
    · simp [mbxStore, memberDefined, portGiven_member, Tab.get?_set_ne _ _ _ _ hne]
  case pooled =>
    intro s g p pool h hg hf hn hm ho
    exact ⟨_, exec_memberDefine_pooled h hg hf hn hm ho, by simp, by simp, by simp⟩
  case status =>
    intro s g m h hm
    exact ⟨_, exec_memberStatus h hm, by simp [mbxOk], mbxOk_answered_of_mbx _ rfl⟩
  case fail =>
    intro s g m pool c h hd ho hc hr hst
    exact exec_memberFail h hd ho hc hr hst
  case replace =>
    intro s g pool ix m c found h hp hd hst hix ho hfit hslots hper hspin hpart
    refine exec_memberReplace hp h hd hst hix ho hfit hslots ?_ hpart
    split
    · exact hper ‹_›
    · simp [hspin (Bool.eq_false_iff.2 ‹_›)]

end Sys2Proof.Machine
end

section
/-! PROOFS. Completions, timeouts, deadlines and the queues of members (R204-R211, R365-R377): what each operation leaves of a member and
its queues, then one equation per row and case. -/

namespace Sys2Proof.Machine

/-! ### Members and queues read back -/

@[simp] theorem getMember_settled (s : State) (m : Nat) : getMember (settled s) m = getMember s m := by simp [getMember]

@[simp] theorem getMember_jetInfo (s : State) (code src : BitVec 16) (data : List Byte) (m : Nat) :
    getMember (jetInfo s code src data) m = getMember s m := rfl

@[simp] theorem getMember_fault0 (s : State) (code : BitVec 16) (cls : Nat) (src : BitVec 16) (m : Nat) :
    getMember (fault0 s code cls src) m = getMember s m := by simp [getMember]

@[simp] theorem getMember_emit (s : State) (o : Output) (m : Nat) : getMember (emit s o) m = getMember s m := rfl

@[simp] theorem getMember_emits (s : State) (os : List Output) (m : Nat) : getMember (emits s os) m = getMember s m := rfl

@[simp] theorem getMember_modMCmd (s : State) (i : Nat) (f : MCmd → MCmd) (m : Nat) : getMember (modMCmd s i f) m = getMember s m := rfl

@[simp] theorem getQueue?_settled (s : State) (m tile : Nat) (admin : Bool) :
    getQueue? (settled s) m tile admin = getQueue? s m tile admin := by simp [getQueue?]

@[simp] theorem getQueue?_fault0 (s : State) (code : BitVec 16) (cls : Nat) (src : BitVec 16) (m tile : Nat) (admin : Bool) :
    getQueue? (fault0 s code cls src) m tile admin = getQueue? s m tile admin := by simp [getQueue?]

/-- A member after a successful completion (R205, R212). -/
@[simp] theorem getMember_memberGood (s : State) (m : Nat) : getMember (memberGood s m) m = { getMember s m with
    strikes := 0, st := if (getMember s m).st = .lagging then .online else (getMember s m).st } := getMember_setMember_self _ _ _

/-- A member after one of its reads has passed the deadline (R211; LAGGING only from ONLINE, log entry 43). -/
theorem getMember_lateRead (s : State) (x : MCmd) : getMember (lateRead s x) x.member = { getMember s x.member with
    deadlines := (getMember s x.member).deadlines + 1
    st := if (getMember s x.member).st = .online then .lagging else (getMember s x.member).st } := by
  unfold lateRead
  dsimp only
  split
  · next h => simp [h]
  · next h => simp [h]

/-- A queue changed and looked up again. -/
theorem getQueue?_modQueue (s : State) (m tile : Nat) (admin : Bool) (f : Queue → Queue)
    (hf : ∀ q, isQueue tile admin (f q) = isQueue tile admin q) :
    getQueue? (modQueue s m tile admin f) m tile admin = (getQueue? s m tile admin).map f := by
  have hkey : (isQueue tile admin ∘ fun q => if isQueue tile admin q then f q else q) = isQueue tile admin := by
    funext q
    rw [Function.comp_apply]
    split
    exacts [hf q, rfl]
  rw [getQueue?, modQueue, modMember_eq, getMember_setMember_self, List.find?_map, hkey, getQueue?]
  cases hq : (getMember s m).queues.find? (isQueue tile admin) with
  | none => rfl
  | some q => simp [List.find?_some hq]

theorem getQueue?_dropQueue (s : State) (m tile : Nat) (admin : Bool) : getQueue? (dropQueue s m tile admin) m tile admin = none := by
  simp [getQueue?, dropQueue, List.find?_eq_none]

/-- A setup message is emitted on the queue's port. -/
theorem mem_sendSetup_out (s : State) (m tile : Nat) (admin : Bool) (port : Nat) {l : List SetupMsg} {x : SetupMsg} (h : x ∈ l) :
    .nvmeSetup m tile admin port x ∈ (sendSetup s m tile admin port l).out :=
  List.mem_append_right _ (List.mem_map_of_mem h)

/-! ### Commands at members (R205-R212, R377) -/

section Commands

variable {s : State} {m : Nat} {x : MCmd}

theorem exec_memberCommandCompletion (st : NvmeStatus) (data : Mem) (hr : running s = true) (hx : getMCmd? s m = some x)
    (ho : outstanding x = true) (hp : hasPath s x.member = true) : exec (.memberCommandCompletion m st data) s =
      .next (settled (maintProgress (relaunchMember (applyCompletion (readErrorLog s x.member st) x st data) x.member))) := by
  show execMemberCommandCompletion m st data s = _
  simp [execMemberCommandCompletion, hx, hr, ho, hp, done_eq]

/-- An error completion has the Error Information log read on the member's admin queue (Table 8-3). -/
theorem readErrorLog_of_error {st : NvmeStatus} (hs : st ≠ .success) (hd : st ≠ .dataDigest) (ha : adminUp s m = true) :
    readErrorLog s m st = emit s (.nvmeAdmin m 0x02 0x01) := by
  simp [readErrorLog, hs, hd, ha]

theorem exec_memberCommandTimeout (hr : running s = true) (hx : getMCmd? s m = some x) (ho : outstanding x = true)
    (hl : (x.op != .read && x.reissued && x.late) = false) :
    exec (.memberCommandTimeout m) s = .next (settled (maintProgress (timedOut s x))) := by
  show execMemberCommandTimeout m s = _
  simp only [execMemberCommandTimeout, hx, hr, ho, hl, Bool.not_false, Bool.and_self, if_true, done_eq]

section Deadline

variable (hr : running s = true) (hx : getMCmd? s m = some x) (hop : x.op = .read) (hpipe : x.pipe = .host) (ho : outstanding x = true)
  (hl : x.late = false)

include hr hx hop hpipe ho hl

theorem exec_readDeadline_fetch {f pos : Nat} (hp : x.purpose = .fetch f pos) :
    exec (.readDeadline m) s = .next (settled (strikeFetch (lateRead s x) f pos false 0)) := by
  show execReadDeadline m s = _
  simp [execReadDeadline, hx, hr, hop, hpipe, ho, hl, hp, done_eq]

theorem exec_readDeadline_other (hp : ∀ f pos, x.purpose ≠ .fetch f pos) :
    exec (.readDeadline m) s = .next (settled (lateRead s x)) := by
  show execReadDeadline m s = _
  simp [execReadDeadline, hx, hr, hop, hpipe, ho, hl, done_eq]

end Deadline

theorem exec_memberReissue (hr : running s = true) (hx : getMCmd? s m = some x) (hw : x.retrying = true) :
    exec (.memberReissue m) s = .next (settled (relaunch s x)) := by
  show execMemberReissue m s = _
  simp [execMemberReissue, hx, hr, hw, done_eq]

end Commands

/-! ### A member's reach and its admin queue (R205, R206, R367) -/

section Members

variable {s : State} {member : Nat}

theorem exec_memberReachTimeout (hs : serving s = true) (hp : (poolOfMember s member).isSome = true) (hn : hasPath s member = false)
    (hf : memberFailed s member = false) :
    exec (.memberReachTimeout member) s = .next (settled (maintProgress (declareFailed s member))) := by
  show execMemberReachTimeout member s = _
  simp only [execMemberReachTimeout, hs, hp, hn, hf, Bool.not_false, Bool.and_self, if_true, done_eq]

theorem exec_smartLogPoll (w : Byte) (hs : serving s = true) (ha : adminUp s member = true) : exec (.smartLogPoll member w) s =
    .next (settled (if w.getLsbD 3 then
        maintProgress (declareFailed (memberGood (emit s (.nvmeAdmin member 0x02 0x02)) member) member)
      else memberGood (emit s (.nvmeAdmin member 0x02 0x02)) member)) := by
  show execSmartLogPoll member w s = _
  simp only [execSmartLogPoll, hs, ha, Bool.and_self, Bool.not_true, Bool.false_eq_true, if_false, done_eq]

/-- A Keep Alive sent: it counts as completed, which resets the strikes (log entry 137). -/
def keptAlive (s : State) (member : Nat) : State :=
  memberGood (emit (setMember s member { getMember s member with keepAlives := (getMember s member).keepAlives + 1 })
    (.nvmeAdmin member 0x18 0)) member

theorem exec_keepAlive (hr : running s = true) (ha : adminUp s member = true) :
    exec (.keepAlive member) s = .next (settled (keptAlive s member)) := by
  show execKeepAlive member s = _
  simp only [execKeepAlive, hr, ha, Bool.and_self, if_true, done_eq, modMember_eq, keptAlive]

end Members

/-! ### Queues (R366, R367, R374-R376) -/

section Queues

variable {s : State} {member tile : Nat} {admin : Bool}

theorem exec_memberQueueBreak {q : Queue} (why : BreakCause) (hr : running s = true) (hq : getQueue? s member tile admin = some q)
    (hc : q.connected = true) :
    exec (.memberQueueBreak member tile admin why) s = .next (settled (breakQueue s member tile admin)) := by
  show execMemberQueueBreak member tile admin why s = _
  simp [execMemberQueueBreak, hq, hr, hc, done_eq]

/-- A tile may have the queue: the admin queue on the pool's tile, an I/O queue once the member is identified and within the number granted
(R366). -/
def queuePlace (s : State) (member tile pool : Nat) (admin : Bool) : Bool :=
  if admin then tile == (getPool s pool).tile
  else (getMember s member).identified &&
    decide (((getMember s member).queues.filter (fun q => !q.admin && q.tile != tile)).length < min 8 (getMember s member).granted)

/-- A queue entered with its first messages sent (R367). -/
def queueOpened (s : State) (member tile : Nat) (admin : Bool) (p : Nat) : State :=
  sendSetup (setMember s member { getMember s member with
    queues := (getMember s member).queues ++ [{ tile := tile, admin := admin, step := 1, port := p }] }) member tile admin p
    (openMsgs s member p)

theorem getMember_queueOpened (s : State) (member tile : Nat) (admin : Bool) (p : Nat) :
    getMember (queueOpened s member tile admin p) member = { getMember s member with
      queues := (getMember s member).queues ++ [{ tile := tile, admin := admin, step := 1, port := p }] } :=
  getMember_setMember_self _ _ _

section Setup

variable {pool p : Nat} (hfw : fwUp s = true) (ht : tileUp s tile = true) (ho : poolOfMember s member = some pool)
  (hplace : queuePlace s member tile pool admin = true) (hf : memberFailed s member = false)
  (hu : (getMember s member).unusable = false) (hp : pathFor s tile pool = some p)

include hfw ht ho hplace hf hu hp

theorem exec_memberQueueSetup_open (hq : getQueue? s member tile admin = none) :
    exec (.memberQueueSetup member tile admin .tcp) s = .next (settled (queueOpened s member tile admin p)) := by
  show execMemberQueueSetup member tile admin .tcp s = _
  unfold queuePlace at hplace
  simp only [execMemberQueueSetup, ho, hfw, ht, hplace, hf, hu, hq, hp, Bool.and_self, Bool.not_true, Bool.or_self,
    Bool.false_eq_true, if_false, done_eq]
  rfl

theorem exec_memberQueueSetup_step {q : Queue} (st : QueueStep) (hq : getQueue? s member tile admin = some q) (hc : q.connected = false) :
    exec (.memberQueueSetup member tile admin st) s = .next (settled (setupStep s member tile pool admin q st)) := by
  show execMemberQueueSetup member tile admin st s = _
  unfold queuePlace at hplace
  simp only [execMemberQueueSetup, ho, hfw, ht, hplace, hf, hu, hq, hp, hc, Bool.and_self, Bool.not_true, Bool.or_self,
    Bool.false_eq_true, if_false, done_eq]

end Setup

/-- An ICResp without both digests: the member is unusable, and its queue is given up (R367). -/
theorem setupStep_icResp_refused {q : Queue} {h d : Bool} (pool n : Nat) (hq : q.step = 1) (hd : (h && d) = false) :
    setupStep s member tile pool admin q (.icResp h d n) =
      fault0 (dropQueue (setMember s member { getMember s member with unusable := true }) member tile admin) 0x1022 1
        (srcMember member) := by
  simp only [setupStep, hq, hd, ne_eq, not_true_eq_false, Bool.false_eq_true, if_false, modMember_eq]

/-- A broken I/O queue of a tile tried again on the next path; the attempt fails (R376). -/
def reconnectTried (s : State) (member tile p : Nat) : State :=
  modQueue (sendSetup s member tile false p (openMsgs s member p)) member tile false (fun q => { q with port := p })

theorem getQueue?_reconnectTried (s : State) (member tile p : Nat) : getQueue? (reconnectTried s member tile p) member tile false =
    (getQueue? s member tile false).map (fun q => { q with port := p }) := getQueue?_modQueue _ _ _ _ _ (fun _ => rfl)

theorem exec_memberReconnectAttempt_failed {pool p : Nat} {q : Queue} (hr : running s = true) (ht : tileUp s tile = true)
    (ho : poolOfMember s member = some pool) (hq : getQueue? s member tile false = some q) (hc : q.connected = false) (h0 : q.step = 0)
    (hf : memberFailed s member = false) (hp : nextPath s tile pool q.port = some p) :
    exec (.memberReconnectAttempt member tile false) s = .next (settled (reconnectTried s member tile p)) := by
  show execMemberReconnectAttempt member tile false s = _
  simp [execMemberReconnectAttempt, ho, hq, hc, h0, hr, ht, hf, hp, done_eq, reconnectTried]

end Queues

/-! ### Initialisation and zeroing (R372, R489) -/

theorem exec_poolInitComplete {s : State} {pool : Nat} (hfw : fwUp s = true) (hst : (getPool s pool).st = .initialising)
    (hi : (getPool s pool).init = true) (hw : (getPool s pool).initWork = [])
    (hm : s.mcmds.any (fun m => m.purpose == .initZero pool) = false) :
    exec (.poolInitComplete pool) s = .next (settled (setPool s pool { getPool s pool with st := .stopped, init := false })) := by
  show execPoolInitComplete pool s = _
  simp only [execPoolInitComplete, hfw, hst, hi, hw, hm, beq_self_eq_true, List.isEmpty_nil, Bool.not_false, Bool.and_self, if_true,
    done_eq, modPool_eq]

theorem exec_extentZeroingComplete {s : State} {pool x : Nat} (hfw : fwUp s = true) (hz : (getPool s pool).zeroing.contains x = true)
    (hn : extentStrips s pool ≤ Tab.getD (getPool s pool).zeroNext x 0)
    (hm : s.mcmds.any (fun m => m.purpose == .extentZero pool x) = false) :
    exec (.extentZeroingComplete pool x) s = .next (settled (setPool s pool { getPool s pool with
      zeroing := (getPool s pool).zeroing.filter (· != x), zeroNext := Tab.erase (getPool s pool).zeroNext x })) := by
  show execExtentZeroingComplete pool x s = _
  simp only [execExtentZeroingComplete, hfw, hz, hn, hm, decide_true, Bool.not_false, Bool.and_self, if_true, done_eq, modPool_eq]

/-- Settles O20: each row by its equation, the member, queue or pool concerned read back. -/
theorem memberRows : Obligations.MemberRows := by
  refine ⟨?completion, ?errorLog, ?timeout, ?deadline, ?deadlineFetch, ?reach, ?smart, ?smartFatal, ?keepAlive, ?broken, ?openAdmin,
    ?openIo, ?step, ?refused, ?reconnect, ?reissue, ?init, ?zeroing⟩
  case completion =>
    intro s m x st data hr hx ho hp
    exact exec_memberCommandCompletion st data hr hx ho hp
  case errorLog =>
    intro s m st hs hd ha
    exact congrArg State.out (readErrorLog_of_error hs hd ha)
  case timeout =>
    intro s m x hr hx ho hl
    exact exec_memberCommandTimeout hr hx ho hl
  case deadline =>
    intro s m x hr hx hop hpipe ho hl hp
    refine ⟨_, exec_readDeadline_other hr hx hop hpipe ho hl hp, ?_⟩
    rw [getMember_settled, getMember_lateRead]
    exact ⟨rfl, rfl⟩
  case deadlineFetch =>
    intro s m f pos x hr hx hop hpipe ho hl hp
    exact exec_readDeadline_fetch hr hx hop hpipe ho hl hp
  case reach =>
    intro s member hs hp hn hf
    exact exec_memberReachTimeout hs hp hn hf
  case smart =>
    intro s member w hs hw ha
    have hexec := exec_smartLogPoll w hs ha
    rw [hw] at hexec
    refine ⟨_, hexec, Emits.settled List.prefix_rfl rfl, ?_⟩
    rw [if_neg Bool.false_ne_true, getMember_settled, getMember_memberGood]
    exact ⟨rfl, rfl⟩
  case smartFatal =>
    intro s member w hs hw ha
    rw [exec_smartLogPoll w hs ha, hw]
    rfl
  case keepAlive =>
    intro s member hr ha
    exact ⟨_, exec_keepAlive hr ha, Emits.settled List.prefix_rfl rfl, by simp [keptAlive], by simp [keptAlive]⟩
  case broken =>
    intro s member tile admin why q hr hq hc
    exact exec_memberQueueBreak why hr hq hc
  case openAdmin =>
    intro s member tile pool p hfw ht ho hplace hf hu hq hp
    refine ⟨_, exec_memberQueueSetup_open hfw ht ho (by simp [queuePlace, hplace]) hf hu hp hq, ?_, fun x hx => ?_⟩
    · rw [getMember_settled, getMember_queueOpened]
    · exact mem_settled_out (mem_sendSetup_out _ _ _ _ _ hx)
  case openIo =>
    intro s member tile pool p hfw ht ho hid hroom hf hu hq hp
    refine ⟨_, exec_memberQueueSetup_open hfw ht ho (by simp [queuePlace, hid, hroom]) hf hu hp hq, ?_, fun x hx => ?_⟩
    · rw [getMember_settled, getMember_queueOpened]
    · exact mem_settled_out (mem_sendSetup_out _ _ _ _ _ hx)
  case step =>
    intro s member tile pool p q st hfw ht ho hplace hf hu hq hc hp
    exact exec_memberQueueSetup_step hfw ht ho (by simp [queuePlace, hplace]) hf hu hp st hq hc
  case refused =>
    intro s member tile pool p q h d n hfw ht ho hplace hf hu hq hc h1 hp hd
    refine ⟨_, exec_memberQueueSetup_step hfw ht ho (by simp [queuePlace, hplace]) hf hu hp _ hq hc, ?_, ?_⟩
    · simp [setupStep_icResp_refused pool n h1 hd, dropQueue]
    · simp [setupStep_icResp_refused pool n h1 hd, getQueue?_dropQueue]
  case reconnect =>
    intro s member tile pool p q hr ht ho hq hc h0 hf hp
    refine ⟨_, _, exec_memberReconnectAttempt_failed hr ht ho hq hc h0 hf hp, ?_, rfl, fun x hx => ?_⟩
    · rw [getQueue?_settled, getQueue?_reconnectTried, hq]
      rfl
    · exact mem_settled_out (mem_sendSetup_out _ _ _ _ _ hx)
  case reissue =>
    intro s m x hr hx hw
    exact exec_memberReissue hr hx hw
  case init =>
    intro s pool hfw hst hi hw hm
    refine ⟨_, exec_poolInitComplete hfw hst hi hw hm, ?_⟩
    rw [getPool_settled, getPool_setPool_self]
    exact ⟨rfl, rfl⟩
  case zeroing =>
    intro s pool x hfw hz hn hm
    refine ⟨_, exec_extentZeroingComplete hfw hz hn hm, ?_⟩
    rw [getPool_settled, getPool_setPool_self]
    simp

end Sys2Proof.Machine
end

section
/-! PROOFS. Rebuild, copyback, scrub and the extended self-test's rows (R224, R225, R229, R230, R243, R245, R246): row interlocks and
cursors read back, then one equation per row and case. -/

namespace Sys2Proof

/-- The second of two writes to one entry stands. -/
theorem Tab.set_set {α : Type} (t : Tab α) (k : Nat) (v w : α) : Tab.set (Tab.set t k v) k w = Tab.set t k w := by
  induction t with
  | nil => simp [Tab.set]
  | cons e r ih =>
    obtain ⟨j, u⟩ := e
    simp only [Tab.set]
    split_ifs with hlt heq
    · simp [Tab.set]
    · simp [Tab.set]
    · simp [Tab.set, hlt, heq, ih]

namespace Machine

theorem setPool_setPool (s : State) (pool : Nat) (x y : Pool) : setPool (setPool s pool x) pool y = setPool s pool y := by
  simp [setPool, Tab.set_set]

@[simp] theorem contains_addOnce (l : List Nat) (x : Nat) : (addOnce l x).contains x = true := by
  by_cases h : x ∈ l <;> simp [addOnce, h]

theorem contains_filter_ne (l : List Nat) (x : Nat) : (l.filter (· != x)).contains x = false := by simp

/-! ### Row interlocks (R225) -/

/-- Whether a row is busy depends of its pool on the work in progress and the repairs alone. -/
theorem rowBusy_setPool {s : State} {pool : Nat} {x : Pool} (row : Nat) (hw : x.work = (getPool s pool).work)
    (hc : x.copyWork = (getPool s pool).copyWork) (hs : x.scrubWork = (getPool s pool).scrubWork)
    (hr : x.repairs = (getPool s pool).repairs) : rowBusy (setPool s pool x) pool row = rowBusy s pool row := by
  simp [rowBusy, getTest, hw, hc, hs, hr]

theorem releaseRow_busy {s : State} {pool row : Nat} (h : rowBusy s pool row = true) : releaseRow s pool row = s := if_pos h

/-- A pool once a row's interlock is released. -/
def rowReleased (p : Pool) (row : Nat) : Pool :=
  { p with interlocks := p.interlocks.filter (· != row), interlockWait := p.interlockWait.filter (· != row) }

/-- A row released while no salvage of the pool waits. -/
theorem releaseRow_free {s : State} {pool row : Nat} (h : rowBusy s pool row = false) (hs : (getPool s pool).salvages = []) :
    releaseRow s pool row = setPool s pool (rowReleased (getPool s pool) row) := by
  simp [releaseRow, h, startSalvages, hs, rowReleased]

/-- While no salvage of the pool waits, releasing a row changes the pool's interlocks at most. -/
theorem releaseRow_interlocks {s : State} {pool : Nat} (row : Nat) (hs : (getPool s pool).salvages = []) :
    (∃ i w, getPool (releaseRow s pool row) pool = { getPool s pool with interlocks := i, interlockWait := w }) ∧
      (releaseRow s pool row).cfg = s.cfg := by
  cases hb : rowBusy s pool row with
  | true =>
    rw [releaseRow_busy hb]
    exact ⟨⟨_, _, rfl⟩, rfl⟩
  | false =>
    rw [releaseRow_free hb hs, getPool_setPool_self]
    exact ⟨⟨_, _, rfl⟩, rfl⟩

/-- An interlock granted: the row's work may begin. -/
def interlockGranted (p : Pool) (row : Nat) : Pool :=
  { p with interlockWait := p.interlockWait.filter (· != row), interlocks := addOnce p.interlocks row }

/-- Without a repair that waits, none is issued. -/
theorem issueRepairs_setPool {x : Pool} (s : State) (pool row : Nat) (h : x.repairs = []) :
    issueRepairs (setPool s pool x) pool row = setPool s pool x := by
  cases x
  subst h
  simp [issueRepairs, setPool_setPool]

section Grant

variable {s : State} {pool row : Nat} (hs : serving s = true) (hwait : (getPool s pool).interlockWait.contains row = true)
  (hd : destaging s (rowVol s pool row) row = false) (hw : (getPool s pool).work = none) (hc : (getPool s pool).copyWork = none)
  (hsc : (getPool s pool).scrubWork = none) (hr : (getPool s pool).repairs = [])

include hs hwait hd hw hc hsc hr

/-- A grant that no work waits for: the interlock is released at once unless the row is busy. -/
theorem exec_rowInterlockGrant_idle : exec (.rowInterlockGrant pool row) s =
    .next (settled (releaseRow (setPool s pool (interlockGranted (getPool s pool) row)) pool row)) := by
  have hgrant : issueRepairs (setPool s pool { getPool s pool with
      interlockWait := (getPool s pool).interlockWait.filter (· != row)
      interlocks := addOnce (getPool s pool).interlocks row }) pool row =
        setPool s pool (interlockGranted (getPool s pool) row) := issueRepairs_setPool s pool row hr
  show execRowInterlockGrant pool row s = _
  simp only [execRowInterlockGrant, hs, hwait, hd, Bool.not_false, Bool.and_self, Bool.not_true, Bool.false_eq_true, if_false,
    modPool_eq, hgrant]
  simp [workWaits, interlockGranted, hw, hc, hsc, done_eq]

theorem exec_rowInterlockGrant_busy (hb : rowBusy s pool row = true) : exec (.rowInterlockGrant pool row) s =
    .next (settled (setPool s pool (interlockGranted (getPool s pool) row))) := by
  rw [exec_rowInterlockGrant_idle hs hwait hd hw hc hsc hr, releaseRow_busy]
  exact (rowBusy_setPool (x := interlockGranted (getPool s pool) row) row rfl rfl rfl rfl).trans hb

theorem exec_rowInterlockGrant_released (hb : rowBusy s pool row = false) (hsalv : (getPool s pool).salvages = []) :
    exec (.rowInterlockGrant pool row) s = .next (settled (setPool s pool (rowReleased (interlockGranted (getPool s pool) row) row))) := by
  rw [exec_rowInterlockGrant_idle hs hwait hd hw hc hsc hr, releaseRow_free, getPool_setPool_self, setPool_setPool]
  · exact (rowBusy_setPool (x := interlockGranted (getPool s pool) row) row rfl rfl rfl rfl).trans hb
  · rw [getPool_setPool_self]
    exact hsalv

end Grant

/-- While a destage of the row runs, no interlock is granted (R225). -/
theorem exec_rowInterlockGrant_destaging {s : State} {pool row : Nat} (hd : destaging s (rowVol s pool row) row = true) :
    exec (.rowInterlockGrant pool row) s = .next s := by
  show execRowInterlockGrant pool row s = _
  simp [execRowInterlockGrant, hd]

/-! ### The rebuild pipeline (R228, R229) -/

section Pipeline

variable {s : State} {pool cls : Nat}

theorem exec_rebuildCommandIssue (hs : serving s = true) (hn : nextWork s = some (cls, pool)) :
    exec (.rebuildCommandIssue pool) s = .next (settled (sendNext (produce s pool cls) pool cls)) := by
  show execRebuildCommandIssue pool s = _
  simp [execRebuildCommandIssue, hn, hs, done_eq]

/-- A command that waits goes out before new work is taken up. -/
theorem produce_of_held {m : MCmd} (h : heldNext s pool cls = some m) : produce s pool cls = s := if_pos (by rw [h]; rfl)

theorem sendNext_of_held {m : MCmd} (h : heldNext s pool cls = some m) :
    sendNext s pool cls = chargeClass (sendTurn s m) pool cls (if m.charged = true then 0 else dataBytes m) := by
  rw [sendNext, h]

/-- Of its pool, issuing a waiting command changes the bytes charged alone. -/
theorem getPool_sendNext (s : State) (pool cls : Nat) :
    ∃ l, getPool (sendNext s pool cls) pool = { getPool s pool with charged := l } := by
  unfold sendNext
  split
  · next m _ =>
    have hsend : getPool (sendTurn s m) pool = getPool s pool := by
      rw [sendTurn, getPool, (sendM_Frame _ _).pools (by simp)]
      rfl
    rw [chargeClass, modPool_eq, getPool_setPool_self, hsend]
    exact ⟨_, rfl⟩
  · exact ⟨_, rfl⟩

/-- The critical sweep and the main pass share the pool's row in progress. -/
theorem setWork_of_lt_two (hc : cls < 2) (w : RowWork) : setWork s pool cls w = setPool s pool { getPool s pool with work := some w } := by
  unfold setWork
  rw [modPool_eq]
  split
  · omega
  · omega
  · rfl

/-- The row that the critical sweep or the main pass asks an interlock for. -/
theorem produce_takes_row (hh : heldNext s pool cls = none) (hr : classReady s pool cls = true) (hb : 0 < s.budget.r.getD 0 0)
    (hv : (volOfRow s pool (classCursor (getPool s pool) cls)).isSome = true) (hc : cls < 2) :
    produce s pool cls = setPool s pool { getPool s pool with
      work := some { row := classCursor (getPool s pool) cls }
      interlockWait := addOnce (getPool s pool).interlockWait (classCursor (getPool s pool) cls) } := by
  have hnone : (volOfRow s pool (classCursor (getPool s pool) cls)).isNone = false := by rw [← Option.not_isSome, hv]; rfl
  rw [produce, hh, hr, decide_eq_true hb]
  simp only [Option.isSome_none, Bool.false_eq_true, if_false, Bool.and_self, if_true, takeRow, hnone, setWork_of_lt_two hc, modPool_eq,
    getPool_setPool_self, setPool_setPool]

end Pipeline

/-! ### Rows and cursors (R224, R243, R247) -/

section Rows

variable {s : State} {pool : Nat}

theorem exec_rebuildRowComplete {w : RowWork} (hs : serving s = true) (hw : (getPool s pool).work = some w) (hi : w.issued = true)
    (hwr : w.writes = []) (hre : resyncing s pool w.row = false) :
    exec (.rebuildRowComplete pool) s = .next (settled (maintProgress (stageEnd (rowRebuilt s pool w.row) pool))) := by
  show execRebuildRowComplete pool s = _
  simp [execRebuildRowComplete, hw, hs, hi, hwr, hre, done_eq]

/-- A pool whose row of the critical sweep or the main pass is done: the stage's cursor moves (R224). -/
def cursorMoved (p : Pool) : Pool :=
  { (if p.pstate = 1 then { p with work := none, cursorsMoved := true, critCursor := p.critCursor + 1 }
      else { p with work := none, cursorsMoved := true, cursor := p.cursor + 1 }) with gen := p.gen + 1 }

theorem cursorMoved_sweep {p : Pool} (h : p.pstate = 1) : cursorMoved p =
    { p with work := none, cursorsMoved := true, critCursor := p.critCursor + 1, gen := p.gen + 1 } := by
  simp [cursorMoved, h]

theorem cursorMoved_pass {p : Pool} (h : p.pstate ≠ 1) : cursorMoved p =
    { p with work := none, cursorsMoved := true, cursor := p.cursor + 1, gen := p.gen + 1 } := by
  simp [cursorMoved, h]

theorem rowRebuilt_eq (s : State) (pool row : Nat) :
    rowRebuilt s pool row = releaseRow (setPool s pool (cursorMoved (getPool s pool))) pool row := rfl

theorem exec_cursorMetadataWrite (hs : serving s = true) (hm : (getPool s pool).cursorsMoved = true) :
    exec (.cursorMetadataWrite pool) s =
      .next (settled (metaWrite (modPool s pool (fun p => { p with cursorsMoved := false })) pool
        (liveMembers (modPool s pool (fun p => { p with cursorsMoved := false })) pool) 0x9000 4096
        (Mem.ofList (progressBytes (getPool s pool))) (.metadata pool))) := by
  show execCursorMetadataWrite pool s = _
  simp only [execCursorMetadataWrite, hs, hm, Bool.and_self, Bool.not_true, Bool.false_eq_true, if_false, done_eq]

/-- A row copied while no salvage of the pool waits: the copyback cursor stands one further. -/
theorem getPool_rowCopied (row : Nat) (h : (getPool s pool).salvages = []) :
    (getPool (rowCopied s pool row) pool).copyCursor = (getPool s pool).copyCursor + 1 ∧
      (getPool (rowCopied s pool row) pool).copyWork = none ∧ (rowCopied s pool row).cfg = s.cfg := by
  obtain ⟨⟨i, w, hp⟩, hcfg⟩ := releaseRow_interlocks (pool := pool) (s := updPool s pool (fun p =>
    { p with copyWork := none, copyCursor := p.copyCursor + 1, cursorsMoved := true })) row (by simpa [updPool] using h)
  rw [rowCopied, hp, hcfg]
  simp [updPool]

theorem exec_copybackRowComplete {ix m : Nat} {w : RowWork} (hs : serving s = true) (hw : (getPool s pool).copyWork = some w)
    (hc : (getPool s pool).copy = some (ix, m)) (hi : w.issued = true) (hwr : w.writes = []) (hre : resyncing s pool w.row = false)
    (hsalv : (getPool s pool).salvages = []) : exec (.copybackRowComplete pool) s =
      .next (settled (if (getPool s pool).copyCursor + 1 < (poolCfg s pool).poolRows then rowCopied s pool w.row
        else copybackEnd (rowCopied s pool w.row) pool ix m)) := by
  obtain ⟨hcur, -, hcfg⟩ := getPool_rowCopied w.row hsalv
  show execCopybackRowComplete pool s = _
  simp only [execCopybackRowComplete, hw, hc, hs, hi, hwr, hre, hcur, List.isEmpty_nil, Bool.and_self, Bool.not_true, Bool.or_self,
    Bool.false_eq_true, if_false, done_eq]
  rw [poolCfg, poolCfg?, hcfg]
  rfl

end Rows

/-! ### Scrub (R245, R246) -/

section Scrub

variable {s : State} {pool : Nat}

theorem exec_scrubRow_pass (hs : serving s = true) (ho : scrubOn s pool = true) (hw : (getPool s pool).scrubWork = none)
    (hk : skipRow s pool (getPool s pool).scrubCursor = true)
    (hd : destaging s (rowVol s pool (getPool s pool).scrubCursor) (getPool s pool).scrubCursor = false)
    (hi : (getPool s pool).interlocks.contains (getPool s pool).scrubCursor = false)
    (hu : unsynced s pool (getPool s pool).scrubCursor = false) :
    exec (.scrubRow pool (getPool s pool).scrubCursor) s = .next (settled (scrubPass s pool (getPool s pool).scrubCursor)) := by
  show execScrubRow pool (getPool s pool).scrubCursor s = _
  simp only [execScrubRow, hs, ho, hw, hk, hd, hi, hu, bne_self_eq_false, Bool.not_true, Bool.or_self, Bool.false_and, Bool.false_eq_true,
    if_false, done_eq]

theorem exec_scrubRow_judge {f : Nat} {w : RowWork} {x : Fetch} (hs : serving s = true) (hw : (getPool s pool).scrubWork = some w)
    (hf : w.fetch = some f) (hx : getFetch? s f = some x) (hr : fetchReady s x = true) :
    exec (.scrubRow pool (getPool s pool).scrubCursor) s = .next (settled (maintProgress (scrubJudge s pool x))) := by
  show execScrubRow pool (getPool s pool).scrubCursor s = _
  simp [execScrubRow, hs, hw, hf, hx, hr, done_eq]

/-- A row that scrub passes over, counted by kind (R245). -/
def skipCounted (s : State) (pool row : Nat) (p : Pool) : Pool :=
  if rowHasIntent s pool row then { p with skipIntent := p.skipIntent + 1 }
  else if isBroken s pool row then { p with skipBroken := p.skipBroken + 1 }
  else { p with skipMissing := p.skipMissing + 1 }

theorem skipCounted_skipIntent (s : State) (pool row : Nat) (p : Pool) :
    (skipCounted s pool row p).skipIntent = p.skipIntent + if rowHasIntent s pool row = true then 1 else 0 := by
  unfold skipCounted
  split
  · rfl
  · split <;> rfl

theorem skipCounted_scrubCursor (s : State) (pool row : Nat) (p : Pool) : (skipCounted s pool row p).scrubCursor = p.scrubCursor := by
  unfold skipCounted
  split
  · rfl
  · split <;> rfl

/-- A row passed over in a pool that needs no resynchronisation there. -/
theorem scrubPass_synced {row : Nat} (hu : unsynced s pool row = false) :
    scrubPass s pool row = scrubNext (setPool s pool (skipCounted s pool row (getPool s pool))) pool := by
  rw [scrubPass, hu]
  rfl

theorem scrubNext_eq (s : State) (pool : Nat) : ∃ x, scrubNext s pool = setPool s pool x ∧ x.cursorsMoved = true ∧
    x.skipIntent = (getPool s pool).skipIntent ∧
    x.scrubCursor = if (poolCfg s pool).poolRows ≤ (getPool s pool).scrubCursor + 1 then 0 else (getPool s pool).scrubCursor + 1 := by
  refine ⟨_, rfl, ?_⟩
  by_cases h : (poolCfg s pool).poolRows ≤ (getPool s pool).scrubCursor + 1 <;> simp [h]

end Scrub

/-! ### The extended self-test's reads (R230, R492) -/

section SelfTest

variable {s : State} {pool port : Nat} (hs : serving s = true) (hcl : s.hk.closing = false) (hst : (getTest s 2 pool).st = 1)
  (hrow : (getTest s 2 pool).row < (poolCfg s pool).poolRows) (hlink : (memberLinks s (tileOfPort port) pool).contains port = true)
  (hfree : s.mcmds.any (fun m => m.throttled && m.pipe != .verify && onPort s port m) = false) (hb : 0 < s.budget.v.getD 0 0)

include hs hcl hst hrow hlink hfree hb

/-- A port on which the test may read: the row in progress goes on, or the test's row is passed over or begun. -/
theorem exec_selftestCommandIssue : exec (.selftestCommandIssue pool port) s =
    if (getTest s 2 pool).fetch.isSome then done (sendVerify s pool port)
    else if destaging s (rowVol s pool (getTest s 2 pool).row) (getTest s 2 pool).row ||
        (getPool s pool).interlocks.contains (getTest s 2 pool).row then .next s
    else if skipRow s pool (getTest s 2 pool).row then done (testNext s pool (getTest s 2 pool))
    else done (sendVerify (beginTestRow s pool (getTest s 2 pool)) pool port) := by
  show execSelftestCommandIssue pool port s = _
  simp only [execSelftestCommandIssue, hs, hcl, hst, hrow, hlink, hfree, hb, beq_self_eq_true, decide_true, Bool.not_false, Bool.and_self,
    Bool.not_true, Bool.false_eq_true, if_false]

theorem exec_selftestCommandIssue_goesOn (hf : (getTest s 2 pool).fetch.isSome = true) :
    exec (.selftestCommandIssue pool port) s = .next (settled (sendVerify s pool port)) := by
  rw [exec_selftestCommandIssue hs hcl hst hrow hlink hfree hb, if_pos hf, done_eq]

theorem exec_selftestCommandIssue_next (hf : (getTest s 2 pool).fetch = none)
    (hd : destaging s (rowVol s pool (getTest s 2 pool).row) (getTest s 2 pool).row = false)
    (hi : (getPool s pool).interlocks.contains (getTest s 2 pool).row = false) : exec (.selftestCommandIssue pool port) s =
      .next (settled (if skipRow s pool (getTest s 2 pool).row = true then testNext s pool (getTest s 2 pool)
        else sendVerify (beginTestRow s pool (getTest s 2 pool)) pool port)) := by
  rw [exec_selftestCommandIssue hs hcl hst hrow hlink hfree hb, hf, hd, hi]
  simp only [Option.isSome_none, Bool.or_self, Bool.false_eq_true, if_false, done_eq]
  split <;> rfl

end SelfTest

/-- Settles O21: each row by its equation, the pool concerned read back. -/
theorem rebuildRows : Obligations.RebuildRows := by
  refine ⟨?issue, ?takes, ?held, ?grantBusy, ?grantFree, ?grantDestaging, ?rowDone, ?cursors, ?metadata, ?copied, ?copybackEnds, ?pass,
    ?judge, ?testRow, ?testGoesOn⟩
  case issue =>
    intro s pool cls hs hn
    exact exec_rebuildCommandIssue hs hn
  case takes =>
    intro s pool cls hs hn hh hr hb hv hc
    refine ⟨_, exec_rebuildCommandIssue hs hn, ?_⟩
    obtain ⟨l, hsent⟩ := getPool_sendNext (produce s pool cls) pool cls
    rw [getPool_settled, hsent, produce_takes_row hh hr hb hv hc, getPool_setPool_self]
    exact ⟨rfl, contains_addOnce _ _⟩
  case held =>
    intro s pool cls m hs hn hh
    rw [exec_rebuildCommandIssue hs hn, produce_of_held hh, sendNext_of_held hh]
  case grantBusy =>
    intro s pool row hs hwait hd hw hc hsc hr hb
    refine ⟨_, exec_rowInterlockGrant_busy hs hwait hd hw hc hsc hr hb, ?_⟩
    rw [getPool_settled, getPool_setPool_self]
    exact ⟨contains_addOnce _ _, contains_filter_ne _ _⟩
  case grantFree =>
    intro s pool row hs hwait hd hw hc hsc hr hb hsalv
    refine ⟨_, exec_rowInterlockGrant_released hs hwait hd hw hc hsc hr hb hsalv, ?_⟩
    rw [getPool_settled, getPool_setPool_self]
    exact ⟨contains_filter_ne _ _, contains_filter_ne _ _⟩
  case grantDestaging =>
    intro s pool row hd
    exact exec_rowInterlockGrant_destaging hd
  case rowDone =>
    intro s pool w hs hw hi hwr hre
    exact exec_rebuildRowComplete hs hw hi hwr hre
  case cursors =>
    intro s pool row hsalv
    obtain ⟨⟨i, l, hp⟩, -⟩ := releaseRow_interlocks (s := setPool s pool (cursorMoved (getPool s pool))) (pool := pool) row
      (by rw [getPool_setPool_self]; unfold cursorMoved; split <;> exact hsalv)
    rw [rowRebuilt_eq, hp, getPool_setPool_self]
    refine ⟨?_, fun h => ?_, fun h => ?_⟩
    · unfold cursorMoved
      split <;> rfl
    · rw [cursorMoved_sweep h]
      exact ⟨rfl, rfl⟩
    · rw [cursorMoved_pass h]
  case metadata =>
    intro s pool hs hm
    exact exec_cursorMetadataWrite hs hm
  case copied =>
    intro s pool ix m w hs hw hc hi hwr hre hsalv hlt
    refine ⟨_, exec_copybackRowComplete hs hw hc hi hwr hre hsalv, ?_⟩
    rw [if_pos hlt, getPool_settled, settled_cfg]
    exact getPool_rowCopied w.row hsalv
  case copybackEnds =>
    intro s pool ix m w hs hw hc hi hwr hre hsalv hle
    rw [exec_copybackRowComplete hs hw hc hi hwr hre hsalv, if_neg (Nat.not_lt.2 hle)]
  case pass =>
    intro s pool hs ho hw hk hd hi hu
    obtain ⟨x, hx, hmoved, hskip, hcur⟩ :=
      scrubNext_eq (setPool s pool (skipCounted s pool (getPool s pool).scrubCursor (getPool s pool))) pool
    refine ⟨_, exec_scrubRow_pass hs ho hw hk hd hi hu, ?_⟩
    rw [scrubPass_synced hu, hx, getPool_settled, getPool_setPool_self]
    rw [getPool_setPool_self, skipCounted_skipIntent] at hskip
    rw [getPool_setPool_self, skipCounted_scrubCursor] at hcur
    exact ⟨hmoved, by simp, by simp, hskip, hcur⟩
  case judge =>
    intro s pool f w x hs hw hf hx hr
    exact exec_scrubRow_judge hs hw hf hx hr
  case testRow =>
    intro s pool port hs hcl hst hrow hlink hfree hb hf hd hi
    exact exec_selftestCommandIssue_next hs hcl hst hrow hlink hfree hb hf hd hi
  case testGoesOn =>
    intro s pool port hs hcl hst hrow hlink hfree hb hf
    exact exec_selftestCommandIssue_goesOn hs hcl hst hrow hlink hfree hb hf

end Machine
end Sys2Proof
end

section
/-! PROOFS. The cache tier's own rows (R258, R261, R265-R267, R272, R273, R290-R292): one equation per row and case, then what each
leaves. -/

namespace Sys2Proof.Machine

/-! ### Fills (R258) -/

/-- With no operation under way none is carried on. -/
theorem maintProgress_of_no_maints {s : State} (h : s.maints = []) : maintProgress s = s := by rw [maintProgress, h, List.foldl_nil]

theorem getTile_of_tiles {s t : State} (h : t.tiles = s.tiles) (k : Nat) : getTile t k = getTile s k := by rw [getTile, h, getTile]

theorem getTile_modTier_self (s : State) (tile : Nat) (f : Tier → Tier) :
    (getTile (modTier s tile f) tile).tier = f (getTile s tile).tier := by simp

/-- Fetches that all exist are found by their identifiers, as many as these. -/
theorem length_filterMap_getFetch? {s : State} {l : List Nat} (h : ∀ f ∈ l, ∃ x, getFetch? s f = some x ∧ fetchReady s x = true) :
    (l.filterMap (getFetch? s)).length = l.length := by
  rw [List.length_filterMap_eq_countP, List.countP_eq_length]
  intro f hf
  obtain ⟨x, hx, -⟩ := h f hf
  rw [hx, Option.isSome_some]

theorem all_fetchReady_filterMap {s : State} {l : List Nat} (h : ∀ f ∈ l, ∃ x, getFetch? s f = some x ∧ fetchReady s x = true) :
    (l.filterMap (getFetch? s)).all (fetchReady s) = true := by
  rw [List.all_eq_true]
  intro y hy
  obtain ⟨f, hf, hfy⟩ := List.mem_filterMap.1 hy
  obtain ⟨x, hx, hr⟩ := h f hf
  rw [hx, Option.some_inj] at hfy
  exact hfy ▸ hr

section Fills

variable {s : State} {tile : Nat} (hr : running s = true) (hu : tileUp s tile = true)

include hr hu

theorem exec_lineFillComplete_line {line : Nat} {l : Line} (hl : Tab.get? (getTile s tile).tier.lines line = some l)
    (hst : l.st = .filling) (hf : ∀ f ∈ l.fetches, ∃ x, getFetch? s f = some x ∧ fetchReady s x = true) :
    exec (.lineFillComplete tile line) s =
      .next (settled (maintProgress (fillEnd s tile line l (l.fetches.filterMap (getFetch? s))))) := by
  show execLineFillComplete tile line s = _
  simp only [execLineFillComplete, hr, hu, hl, hst, length_filterMap_getFetch? hf, all_fetchReady_filterMap hf, Bool.and_self,
    Bool.not_true, Bool.false_eq_true, ne_eq, not_true_eq_false, and_self, if_false, if_true, done_eq]

/-- A side-buffer entry with no fetch of its own left fills, or is dropped when it has been killed (Table 6-4). -/
theorem exec_lineFillComplete_side {e : Nat} {x : SideEnt} (hl : Tab.get? (getTile s tile).tier.lines (64 + e) = none)
    (hx : Tab.get? (getTile s tile).tier.side e = some x) (hfill : x.filling = true) (hf : x.fetches = []) :
    exec (.lineFillComplete tile (64 + e)) s = .next (settled (maintProgress (modTier s tile (fun t =>
      if x.kill then { t with side := Tab.erase t.side e }
      else { t with side := Tab.set t.side e { x with filling := false } })))) := by
  have hlt : ¬64 + e < 64 := by omega
  show execLineFillComplete tile (64 + e) s = _
  simp only [execLineFillComplete, hr, hu, hl, Nat.add_sub_cancel_left, hx, hfill, hf, hlt, List.filterMap_nil, List.length_nil,
    List.all_nil, List.foldl_nil, Bool.and_self, Bool.not_true, Bool.false_eq_true, or_self, and_self, if_false, if_true, done_eq]

end Fills

/-! ### Lines for waiting parts (R261) -/

section Allocation

variable {s : State} {id part : Nat} {c : Cmd} {p : RowPart} (hs : serving s = true) (hc : getCmd? s id = some c)
  (hpt : c.parts[part]? = some p) (hu : tileUp s c.home = true) (hph : c.phase = .locked) (hw : p.waiting = true)
  (ha : lineAhead s c = false)

include hs hc hpt hu hph hw ha

theorem exec_lineAllocation : exec (.lineAllocation id part) s =
    if isReadOp c.op then done (serveRead s c part p) else if p.intent.isSome then done (takePart s c part p) else .next s := by
  show execLineAllocation id part s = _
  simp only [execLineAllocation, hs, hc, hpt, hu, hph, hw, ha, beq_self_eq_true, Bool.and_self, Bool.not_true, Bool.or_self,
    Bool.false_eq_true, if_false]

theorem exec_lineAllocation_read (hread : isReadOp c.op = true) :
    exec (.lineAllocation id part) s = .next (settled (serveRead s c part p)) := by
  rw [exec_lineAllocation hs hc hpt hu hph hw ha, if_pos hread, done_eq]

theorem exec_lineAllocation_write (hwrite : isReadOp c.op = false) (hi : p.intent.isSome = true) :
    exec (.lineAllocation id part) s = .next (settled (takePart s c part p)) := by
  rw [exec_lineAllocation hs hc hpt hu hph hw ha, if_neg (Bool.eq_false_iff.1 hwrite), if_pos hi, done_eq]

end Allocation

/-! ### Evictions (R265, R266, R272) -/

/-- A bucket with a free way and a store with a free slot take a row (R272). -/
theorem insertSlot_of_room {t : Tier} {c : CRow} (hw : (bucketSlots t c.vol c.row).length < 4) (hf : (freeStoreSlot t).isSome = true) :
    ∃ t', insertSlot t c = some t' := by
  obtain ⟨i, hi⟩ := Option.isSome_iff_exists.1 hf
  simp only [insertSlot, hw, if_true, hi]
  exact ⟨_, rfl⟩

section Evictions

variable {s : State} {tile e : Nat} (hs : serving s = true) (hu : tileUp s tile = true)

include hs hu

theorem exec_evictionComplete_buffer {c : CRow} {t' : Tier} (hc : Tab.get? (getTile s tile).tier.evb e = some c)
    (hi : insertSlot (getTile s tile).tier c = some t') : exec (.evictionComplete tile e) s =
      .next (settled (maintProgress (modTier s tile (fun _ => { t' with evb := Tab.erase t'.evb e })))) := by
  show execEvictionComplete tile e s = _
  simp only [execEvictionComplete, hs, hu, hc, hi, Bool.and_self, Bool.not_true, Bool.false_eq_true, if_false, done_eq]

theorem exec_evictionComplete_line {l : Line} {t' : Tier} (hn : Tab.get? (getTile s tile).tier.evb e = none)
    (hleave : (getTile s tile).tier.leaving.contains e = true) (hl : Tab.get? (getTile s tile).tier.lines e = some l)
    (hfill : l.st ≠ .filling) (hwr : l.st ≠ .writing) (hi : insertSlot (getTile s tile).tier l.c = some t') :
    exec (.evictionComplete tile e) s = .next (settled (maintProgress (modTier s tile (fun _ =>
      { t' with lines := Tab.erase t'.lines e, leaving := t'.leaving.filter (· != e) })))) := by
  show execEvictionComplete tile e s = _
  simp only [execEvictionComplete, hs, hu, hn, hleave, hl, hfill, hwr, hi, Bool.and_self, Bool.not_true, Bool.false_eq_true, or_self,
    if_false, done_eq]

/-- With no way to free in its bucket, the row waits and the oldest dirty way is destaged (R272). -/
theorem exec_evictionComplete_waits {c : CRow} {sl : Slot} (hen : s.cache.en = true) (hc : Tab.get? (getTile s tile).tier.evb e = some c)
    (hi : insertSlot (getTile s tile).tier c = none)
    (ho : oldestDirty (bucketSlots (getTile s tile).tier c.vol c.row) = some sl) (hst : sl.st = 2) :
    exec (.evictionComplete tile e) s = .next (settled ((startDestage s tile sl.c.vol sl.c.row).getD s)) := by
  show execEvictionComplete tile e s = _
  simp only [execEvictionComplete, hs, hu, hen, hc, hi, ho, hst, Bool.and_self, Bool.not_true, Bool.false_eq_true, and_self, if_false,
    if_true, done_eq]

end Evictions

/-! ### EVMODE_SWITCH and DIRECTORY_SWEEP (R267, R273) -/

theorem exec_evmodeSwitch {s : State} {tile : Nat} (hr : running s = true) (hu : tileUp s tile = true)
    (hw : (getTile s tile).tier.evmodeWait = true) (he : (getTile s tile).tier.evb = []) :
    exec (.evmodeSwitch tile) s = .next (settled (modTier s tile (fun t => { t with evmode := true, evmodeWait := false }))) := by
  show execEvmodeSwitch tile s = _
  simp only [execEvmodeSwitch, hr, hu, hw, he, List.isEmpty_nil, Bool.and_self, if_true, done_eq]

/-- The slots that a sweep frees: clean ways of AGE 3, until 1,024 slots are free (R273). -/
def sweptSlots (t : Tier) : List Nat :=
  ((t.store.filter (fun e => e.2.age == 3 && e.2.st == 1)).take (1024 - freeSlots t)).map Prod.fst

def sweptTier (t : Tier) : Tier := { t with store := t.store.filter (fun e => !(sweptSlots t).contains e.1) }

/-- With the cache disabled a sweep destages nothing (R284). -/
theorem exec_directorySweep_disabled {s : State} {tile : Nat} (hs : serving s = true) (hu : tileUp s tile = true)
    (hw : (getTile s tile).tier.sweeping = true) (hen : s.cache.en = false) : exec (.directorySweep tile) s =
      .next (settled (modTier s tile (fun t =>
        { sweptTier t with sweeping := decide (freeSlots (sweptTier t) < 1024) }))) := by
  have hcache : ∀ f, (modTier s tile f).cache.en = false := fun _ => hen
  show execDirectorySweep tile s = _
  simp only [execDirectorySweep, hs, hu, hw, hcache, Bool.and_self, Bool.not_true, Bool.true_or, Bool.or_self, Bool.and_false,
    Bool.false_eq_true, if_false, done_eq]
  rfl

/-! ### Line retirement (R290-R292) -/

/-- The tier with the line on its retirement list (Table 6-11). -/
def retiredTier (s : State) (line cause word : Nat) (t : Tier) : Tier :=
  { t with
    retired := t.retired ++ [{ line := line, cause := cause, ceCount := (Tab.getD t.ce line {}).count, epoch := s.moon.epoch,
                               offset := nowOffset s, word := word }]
    lockOrder := t.lockOrder.filter (· != line) }

/-- Fewer than 8 live lines are unlocked, and some line can be unlocked (R292). -/
def unlocksLines (t : Tier) : Bool := decide (freeOfLock t < 8) && !t.lockOrder.isEmpty

/-- The tier once the most recently locked lines have been unlocked, where that is due. -/
def unlockedTier (t : Tier) : Tier := if unlocksLines t then unlockSome 64 t else t

/-- The faults and the Jet record of a retirement that leaves the tile the tier `t` (R290-R292). -/
def retirementNoted (s : State) (tile line cause : Nat) (t : Tier) : State :=
  let s := if cause = 1 then fault s { code := 0x3001, cls := 1, src := srcAgate tile, data := leBytes 1 line }
    else if cause = 2 then fault s { code := 0x3002, cls := 1, src := srcAgate tile, data := leBytes 1 line } else s
  let s := if decide (liveLines t < 56) then fault s { code := 0x3004, cls := 2, src := srcAgate tile, data := leBytes 1 line } else s
  if unlocksLines t then jetInfo s 0x3006 (srcAgate tile) [] else s

/-- A line retired, `t` being the tile's tier once the line's row has left it. -/
def lineRetiredFrom (s : State) (tile line cause word : Nat) (t : Tier) : State :=
  let t := retiredTier s line cause word t
  let s := modTier s tile (fun _ => unlockedTier t)
  retirementNoted { s with cache := { s.cache with retiredSeen := true, lowLines := s.cache.lowLines || decide (liveLines t < 56) } }
    tile line cause t

/-- Whatever a retirement does with the row of its line, it ends with the line on the list. -/
theorem eq_lineRetiredFrom_of_retireLine {s u : State} {tile line cause word : Nat} (h : retireLine s tile line cause word = some u) :
    ∃ v t, u = lineRetiredFrom v tile line cause word t := by
  unfold retireLine at h
  extract_lets _ _ _ _ moved at h
  obtain ⟨-, h⟩ | ⟨-, h⟩ := ite_eq_iff.1 h
  · cases h
  cases hm : moved with
  | none => simp [hm] at h
  | some t =>
    rw [hm] at h
    exact ⟨_, _, (Option.some_inj.1 h).symm⟩

/-- A line without a row retired after its self-test has failed: none of its checks refuses. -/
theorem retireLine_invalid {s : State} {tile line : Nat} (word : Nat) (hr : running s = true) (hu : tileUp s tile = true) (hlt : line < 64)
    (hn : lineRetired (getTile s tile).tier line = false) (hl : Tab.get? (getTile s tile).tier.lines line = none) :
    retireLine s tile line 3 word = some (lineRetiredFrom s tile line 3 word (getTile s tile).tier) := by
  have hgate : (!(running s && tileUp s tile) || decide (64 ≤ line) || lineRetired (getTile s tile).tier line ||
      !decide (1 ≤ 3 ∧ 3 ≤ 3) || (3 == 1 && decide ((Tab.getD (getTile s tile).tier.ce line {}).count < 4)) ||
      (Option.any (fun l => l.st == .filling || l.st == .writing) (none : Option Line))) = false := by
    simp [hr, hu, hn, hlt]
  unfold retireLine
  extract_lets t row? _ _ moved
  have hrow : row? = none := hl
  have hm : moved = some t := by
    show (match Tab.get? (getTile s tile).tier.lines line with | none => _ | some l => _) = _
    rw [hl]
    rfl
  rw [hrow, hgate, if_neg Bool.false_ne_true, hm]
  rfl

theorem exec_lineRetirement {s u : State} {tile line cause word : Nat} (h : retireLine s tile line cause word = some u) :
    exec (.lineRetirement tile line cause word) s = .next (settled u) := by
  show execLineRetirement tile line cause word s = _
  simp only [execLineRetirement, h, done_eq]

theorem retirementNoted_cache (s : State) (tile line cause : Nat) (t : Tier) : (retirementNoted s tile line cause t).cache = s.cache := by
  simp only [retirementNoted, apply_ite State.cache, jetInfo, jetRec_cache, fault_cache, ite_self]

theorem retirementNoted_tiles (s : State) (tile line cause : Nat) (t : Tier) : (retirementNoted s tile line cause t).tiles = s.tiles := by
  simp only [retirementNoted, apply_ite State.tiles, jetInfo, jetRec_tiles, fault_tiles, ite_self]

theorem lineRetiredFrom_retiredSeen (s : State) (tile line cause word : Nat) (t : Tier) :
    (lineRetiredFrom s tile line cause word t).cache.retiredSeen = true := by
  rw [lineRetiredFrom, retirementNoted_cache]

/-- Unlocking lines leaves the retirement list as it is. -/
theorem unlockSome_retired (n : Nat) (t : Tier) : (unlockSome n t).retired = t.retired := by
  induction n generalizing t with
  | zero => rfl
  | succ n ih =>
    unfold unlockSome
    split
    · rfl
    · split
      · exact ih _
      · rfl

theorem unlockedTier_retired (t : Tier) : (unlockedTier t).retired = t.retired := by
  unfold unlockedTier
  split
  · exact unlockSome_retired 64 t
  · rfl

theorem lineRetired_lineRetiredFrom (s : State) (tile line cause word : Nat) (t : Tier) :
    lineRetired (getTile (lineRetiredFrom s tile line cause word t) tile).tier line = true := by
  have htile : getTile (lineRetiredFrom s tile line cause word t) tile =
      getTile (modTier s tile (fun _ => unlockedTier (retiredTier s line cause word t))) tile :=
    getTile_of_tiles (retirementNoted_tiles _ _ _ _ _) tile
  rw [lineRetired, htile, getTile_modTier_self, unlockedTier_retired]
  simp [retiredTier]

/-- Settles O22: each row by its equation, the tile concerned read back. -/
theorem tierRows : Obligations.TierRows := by
  refine ⟨?fill, ?read, ?write, ?buffer, ?room, ?leaves, ?waits, ?evmode, ?sweep, ?retired, ?invalid, ?side⟩
  case fill =>
    intro s tile line l hr hu hl hst hf
    exact exec_lineFillComplete_line hr hu hl hst hf
  case read =>
    intro s id part c p hs hc hpt hu hph hw ha hread
    exact exec_lineAllocation_read hs hc hpt hu hph hw ha hread
  case write =>
    intro s id part c p hs hc hpt hu hph hw ha hwrite hi
    exact exec_lineAllocation_write hs hc hpt hu hph hw ha hwrite hi
  case buffer =>
    intro s tile e c t' hs hu hc hi
    exact exec_evictionComplete_buffer hs hu hc hi
  case room =>
    intro s tile e c hs hu hc hw hf
    obtain ⟨t', hi⟩ := insertSlot_of_room hw hf
    exact ⟨t', hi, exec_evictionComplete_buffer hs hu hc hi⟩
  case leaves =>
    intro s tile e l t' hs hu hn hleave hl hfill hwr hi
    exact exec_evictionComplete_line hs hu hn hleave hl hfill hwr hi
  case waits =>
    intro s tile e c sl hs hu hen hc hi ho hst
    exact exec_evictionComplete_waits hs hu hen hc hi ho hst
  case evmode =>
    intro s tile hr hu hw he
    refine ⟨_, exec_evmodeSwitch hr hu hw he, ?_⟩
    rw [getTile_settled, getTile_modTier_self]
    exact ⟨rfl, rfl⟩
  case sweep =>
    intro s tile hs hu hw hen
    refine ⟨_, exec_directorySweep_disabled hs hu hw hen, ?_⟩
    rw [getTile_settled, getTile_modTier_self]
    rfl
  case retired =>
    intro s u tile line cause word h
    obtain ⟨v, t, rfl⟩ := eq_lineRetiredFrom_of_retireLine h
    exact ⟨exec_lineRetirement h, lineRetiredFrom_retiredSeen _ _ _ _ _ _⟩
  case invalid =>
    intro s tile line word hr hu hlt hn hl
    refine ⟨_, exec_lineRetirement (retireLine_invalid word hr hu hlt hn hl), ?_, ?_⟩
    · rw [settled_cache]
      exact lineRetiredFrom_retiredSeen _ _ _ _ _ _
    · rw [getTile_settled]
      exact lineRetired_lineRetiredFrom _ _ _ _ _ _
  case side =>
    intro s tile e x hr hu _ hl hx hfill hf hm
    refine ⟨_, exec_lineFillComplete_side hr hu hl hx hfill hf, ?_⟩
    rw [maintProgress_of_no_maints (by simpa using hm), getTile_settled, getTile_modTier_self]
    split
    · exact Tab.get?_erase_self _ _
    · exact Tab.get?_set_self _ _ _

end Sys2Proof.Machine
end

section
/-! PROOFS. Maintenance operations (R279-R283, R446): each instruction starts the operation of its code, from a ring entry or from a
mailbox. -/

namespace Sys2Proof.Machine

/-- The instruction `mk` spells the maintenance operation of code `op` (Table 6-8). -/
def MaintCode (op : Nat) (mk : MaintSrc → MaintArgs → Instr) : Prop :=
  op = 0 ∧ mk = .zeroLine ∨ op = 1 ∧ mk = .invalKey ∨ op = 2 ∧ mk = .invalRange ∨ op = 3 ∧ mk = .cleanKey ∨
    op = 4 ∧ mk = .cleanRange ∨ op = 5 ∧ mk = .lock ∨ op = 6 ∧ mk = .unlock ∨ op = 7 ∧ mk = .invalAll

theorem exec_of_maintCode {op : Nat} {mk : MaintSrc → MaintArgs → Instr} (h : MaintCode op mk) (src : MaintSrc) (a : MaintArgs)
    (s : State) : exec (mk src a) s = maintStart s src op a := by
  obtain ⟨rfl, rfl⟩ | ⟨rfl, rfl⟩ | ⟨rfl, rfl⟩ | ⟨rfl, rfl⟩ | ⟨rfl, rfl⟩ | ⟨rfl, rfl⟩ | ⟨rfl, rfl⟩ | ⟨rfl, rfl⟩ := h <;> rfl

/-- A dispatched CACHE_OP entry begins the operation that its bytes spell (R446). -/
theorem maintStart_ring {s : State} {op e : Nat} {a : MaintArgs} {l : Live} (hs : serving s = true) (hl : getLive? s e = some l)
    (hst : l.started = false) (ho : l.outcome = none) (hop : l.opc = 0x20) (hp : parseMaint l.bytes = (op, a)) :
    maintStart s (.ring e) op a = .next (settled (beginMaint (modLive s e (fun y => { y with started := true })) (.ring e) op a)) := by
  simp only [maintStart, hl, hs, hst, ho, hop, hp, Option.isSome_none, bne_self_eq_false, Bool.not_true, Bool.or_self,
    Bool.false_eq_true, if_false, done_eq]

/-- The objects that CACHE_MAINT names: its volume, none for INVAL_ALL. -/
def maintObjs (op : Nat) (a : MaintArgs) : List (Nat × Nat) := if op = 7 then [] else [objVol a.vol]

theorem maintFields_clear {op : Nat} {a : MaintArgs} {g : Go} (hf : maintFormBad op a = false) (h7 : op = 7 → g.mb = 0) :
    ((0, op == 7 && g.mb != 0) :: maintFields op a).all (fun f => !f.2) = true := by
  rw [maintFormBad, List.any_eq_false] at hf
  rw [List.all_cons, Bool.and_eq_true, List.all_eq_true]
  exact ⟨by simpa [or_iff_not_imp_left] using h7, fun f hm => by simpa using hf f hm⟩

theorem maintChecks_clear {s : State} {op : Nat} {a : MaintArgs} {g : Go} (hph : s.phase = .ready)
    (hv : op ≠ 7 → volExists s g.mb a.vol = true) (hb : maintBeyond s op a = false) :
    ((if op = 7 then [needReplay s] else volObj s g.mb a.vol 2) ++ [refuse (maintBeyond s op a) 0x0004]).all (fun c => !c.fails) =
      true := by
  rw [List.all_append, Bool.and_eq_true]
  refine ⟨?_, by simp [refuse, hb]⟩
  split
  · simp [needReplay, hph]
  · exact volObj_clear hph (hv ‹_›) 2

/-- CACHE_MAINT runs on with its operation until that ends (R283). -/
theorem maintStart_mailbox {s : State} {op : Nat} {a : MaintArgs} {g : Go} (h : GoReady s g true 16 (maintObjs op a))
    (hph : s.phase = .ready) (hf : maintFormBad op a = false) (h7 : op = 7 → g.mb = 0) (hv : op ≠ 7 → volExists s g.mb a.vol = true)
    (hb : maintBeyond s op a = false) : maintStart s (.mailbox g) op a =
      .next (settled (beginMaint (mbxPark (mbxTake s g (maintObjs op a) none) g.mb (.cacheMaint 0) []) (.mailbox g) op a)) :=
  mbxRun_clear false _ _ (fun s => beginMaint (mbxPark s g.mb (.cacheMaint 0) []) (.mailbox g) op a) h rfl
    (maintFields_clear hf h7) (maintChecks_clear hph hv hb)

/-- Settles O23: each instruction starts the operation of its code, which its source then begins. -/
theorem maintenanceRows : Obligations.MaintenanceRows := by
  refine ⟨?ring, ?mailbox⟩
  case ring =>
    intro s op mk a e l hmk hs hl hst ho hop hp
    rw [exec_of_maintCode hmk]
    exact maintStart_ring hs hl hst ho hop hp
  case mailbox =>
    intro s op mk a g hmk h hph hf h7 hv hb
    rw [exec_of_maintCode hmk]
    exact maintStart_mailbox h hph hf h7 hv hb

end Sys2Proof.Machine
end

section
/-! PROOFS. CACHE_CTL (R264, R267, R284, R286, R287): a write that is taken, field by field, and the tiles it changes. -/

namespace Sys2Proof.Machine

/-! ### Every tile changed -/

theorem getTile_foldl_modTile (f : Nat → Tile → Tile) {l : List Nat} (hl : l.Nodup) (s : State) (k : Nat) :
    getTile (l.foldl (fun s t => modTile s t (f t)) s) k = if k ∈ l then f k (getTile s k) else getTile s k := by
  induction l generalizing s with
  | nil => rfl
  | cons t r ih =>
    obtain ⟨ht, hr⟩ := List.nodup_cons.1 hl
    rw [List.foldl_cons, ih hr]
    by_cases hk : k = t
    · subst hk
      simp [ht]
    · simp [hk, getTile_setTile_ne]

/-- Every tile of the part is changed, by its number. -/
theorem getTile_modTiles (s : State) (f : Nat → Tile → Tile) {k : Nat} (hk : k < s.part.tiles) :
    getTile (modTiles s f) k = f k (getTile s k) := by
  rw [modTiles, getTile_foldl_modTile f List.nodup_range, if_pos (List.mem_range.2 hk)]

theorem modTiles_cache (s : State) (f : Nat → Tile → Tile) : (modTiles s f).cache = s.cache := (modTiles_Frame s f).cache (by simp)

/-! ### EVMODE and the LFSRs (R264, R267) -/

/-- EVMODE as a tile takes it: to 1 once its eviction buffer is empty, to 0 at once (R267). -/
def evmodeTaken (v : Bool) (t : Tier) : Tier :=
  if v then (if t.evb.isEmpty then { t with evmode := true } else { t with evmodeWait := true })
  else { t with evmode := false, evmodeWait := false }

theorem setEvmode_part (s : State) (v : Bool) : (setEvmode s v).part = s.part := by
  unfold setEvmode
  split
  · rfl
  · exact (modTiles_Frame _ _).part (by simp)

theorem setEvmode_cache (s : State) (v : Bool) : (setEvmode s v).cache = { s.cache with evmode := v } := by
  unfold setEvmode
  split
  · subst_vars; rfl
  · exact modTiles_cache _ _

theorem getTile_setEvmode {s : State} {v : Bool} (hv : v ≠ s.cache.evmode) {k : Nat} (hk : k < s.part.tiles) :
    getTile (setEvmode s v) k = { getTile s k with tier := evmodeTaken v (getTile s k).tier } := by
  rw [setEvmode, if_neg hv]
  exact getTile_modTiles _ _ hk

theorem loadLfsr_cache (s : State) : (loadLfsr s).cache = s.cache := modTiles_cache s _

theorem getTile_loadLfsr (s : State) {k : Nat} (hk : k < s.part.tiles) : getTile (loadLfsr s) k =
    { getTile s k with tier := { (getTile s k).tier with lfsr := lfsrAdvance k s.cache.seed } } := getTile_modTiles s _ hk

/-! ### A write of CACHE_CTL -/

/-- LFSR_SEED after a write: the reserved value zero leaves it as it is (R14). -/
def writtenSeed (c : CacheRegs) (v : W32) : BitVec 16 := if bits v.toNat 31 16 = 0 then c.seed else BitVec.ofNat 16 (bits v.toNat 31 16)

/-- The fields of CACHE_CTL but EVMODE written, a direct change of EN recorded (Table 6-16). -/
def ctlFieldsWritten (s : State) (v : W32) : State :=
  let u := if bit v.toNat 0 = s.cache.en then s else jetInfo s 0x3008 (srcAgate 0) (leBytes 1 (bit v.toNat 0).toNat)
  { u with cache := { u.cache with
      en := bit v.toNat 0, repl := bit v.toNat 1, pfa := bit v.toNat 3, pfb := bit v.toNat 4
      pfDepth := BitVec.ofNat 3 (bits v.toNat 10 8), seed := writtenSeed s.cache v
      staleLogged := if s.cache.en && !bit v.toNat 0 then false else s.cache.staleLogged } }

theorem ctlFieldsWritten_tiles (s : State) (v : W32) : (ctlFieldsWritten s v).tiles = s.tiles := by
  unfold ctlFieldsWritten
  dsimp only
  split <;> rfl

theorem ctlFieldsWritten_part (s : State) (v : W32) : (ctlFieldsWritten s v).part = s.part := by
  unfold ctlFieldsWritten
  dsimp only
  split <;> rfl

theorem ctlFieldsWritten_evmode (s : State) (v : W32) : (ctlFieldsWritten s v).cache.evmode = s.cache.evmode := by
  unfold ctlFieldsWritten
  dsimp only
  split <;> rfl

/-- While CACHE_DISABLE or CACHE_ENABLE runs a write is ignored (R287). -/
theorem writeCacheCtl_ignored {s : State} (v : W32) (h : (s.cache.disabling.isSome || s.cache.enabling.isSome) = true) :
    writeCacheCtl s v = { s with cache := { s.cache with writeIgnored := true } } := if_pos h

section Written

variable {s : State} (hd : s.cache.disabling = none) (he : s.cache.enabling = none) (v : W32)

include hd he

theorem writeCacheCtl_eq : writeCacheCtl s v =
    if writtenSeed s.cache v = s.cache.seed then setEvmode (ctlFieldsWritten s v) (bit v.toNat 2)
    else loadLfsr (setEvmode (ctlFieldsWritten s v) (bit v.toNat 2)) := by
  have hfree : ¬(s.cache.disabling.isSome || s.cache.enabling.isSome) = true := by simp [hd, he]
  exact if_neg hfree

theorem writeCacheCtl_cache : (writeCacheCtl s v).cache =
    { (ctlFieldsWritten s v).cache with evmode := bit v.toNat 2 } := by
  rw [writeCacheCtl_eq hd he]
  split
  · exact setEvmode_cache _ _
  · exact (loadLfsr_cache _).trans (setEvmode_cache _ _)

/-- A changed LFSR_SEED is loaded on every tile (R264). -/
theorem lfsr_writeCacheCtl (hs : writtenSeed s.cache v ≠ s.cache.seed) {k : Nat} (hk : k < s.part.tiles) :
    (getTile (writeCacheCtl s v) k).tier.lfsr = lfsrAdvance k (writtenSeed s.cache v) := by
  rw [writeCacheCtl_eq hd he, if_neg hs, getTile_loadLfsr _ (by rwa [setEvmode_part, ctlFieldsWritten_part]), setEvmode_cache]
  rfl

/-- A changed EVMODE is taken on every tile (R267). -/
theorem tier_writeCacheCtl (hv : bit v.toNat 2 ≠ s.cache.evmode) {k : Nat} (hk : k < s.part.tiles) :
    ∃ r, (getTile (writeCacheCtl s v) k).tier = { evmodeTaken (bit v.toNat 2) (getTile s k).tier with lfsr := r } := by
  have hset : getTile (setEvmode (ctlFieldsWritten s v) (bit v.toNat 2)) k =
      { getTile s k with tier := evmodeTaken (bit v.toNat 2) (getTile s k).tier } := by
    rw [getTile_setEvmode (by rwa [ctlFieldsWritten_evmode]) (by rwa [ctlFieldsWritten_part]), getTile_of_tiles (ctlFieldsWritten_tiles s v)]
  rw [writeCacheCtl_eq hd he]
  split
  · exact ⟨_, by rw [hset]⟩
  · exact ⟨_, by rw [getTile_loadLfsr _ (by rwa [setEvmode_part, ctlFieldsWritten_part]), hset]⟩

end Written

/-! ### The rows -/

section Rows

variable {s : State} {v : W32} (hr : running s = true) (hdma : canDma s 0 = true)

include hr hdma

theorem cacheCtlRow_eq : cacheCtlRow s v = .next (settled (writeCacheCtl s v)) := by
  rw [cacheCtlRow, hr, hdma, Bool.and_self, if_pos rfl, done_eq]

theorem exec_enDirectClear (h : bit v.toNat 0 = false) : exec (.enDirectClear v) s = .next (settled (writeCacheCtl s v)) :=
  (if_neg (Bool.eq_false_iff.1 h)).trans (cacheCtlRow_eq hr hdma)

theorem exec_enSet (h : bit v.toNat 0 = true) : exec (.enSet v) s = .next (settled (writeCacheCtl s v)) :=
  (if_pos h).trans (cacheCtlRow_eq hr hdma)

theorem exec_lfsrSeedLoad (h : bits v.toNat 31 16 ≠ s.cache.seed.toNat) :
    exec (.lfsrSeedLoad v) s = .next (settled (writeCacheCtl s v)) :=
  (if_neg h).trans (cacheCtlRow_eq hr hdma)

theorem exec_evmodeChange (h : bit v.toNat 2 ≠ s.cache.evmode) : exec (.evmodeChange v) s = .next (settled (writeCacheCtl s v)) :=
  (if_neg h).trans (cacheCtlRow_eq hr hdma)

end Rows

/-- A seed other than zero and than the one in force changes LFSR_SEED. -/
theorem writtenSeed_ne {c : CacheRegs} {v : W32} (hne : bits v.toNat 31 16 ≠ c.seed.toNat) (h0 : bits v.toNat 31 16 ≠ 0) :
    writtenSeed c v = BitVec.ofNat 16 (bits v.toNat 31 16) ∧ writtenSeed c v ≠ c.seed := by
  have hw : writtenSeed c v = BitVec.ofNat 16 (bits v.toNat 31 16) := if_neg h0
  refine ⟨hw, fun h => hne ?_⟩
  rw [← h, hw, BitVec.toNat_ofNat]
  exact (Nat.mod_eq_of_lt (Nat.mod_lt _ (by decide))).symm

/-- Settles O24: each row is a write of CACHE_CTL, its fields and the tiles read back. -/
theorem cacheCtlRows : Obligations.CacheCtlRows := by
  refine ⟨?clear, ?set, ?seed, ?evmodeOff, ?evmodeOn, ?ignored⟩
  case clear =>
    intro s v hr hdma hd he h0 _
    refine ⟨_, exec_enDirectClear hr hdma h0, ?_⟩
    rw [settled_cache, writeCacheCtl_cache hd he]
    exact ⟨h0, rfl, rfl, rfl, rfl, rfl⟩
  case set =>
    intro s v hr hdma hd he h1
    refine ⟨_, exec_enSet hr hdma h1, ?_⟩
    rw [settled_cache, writeCacheCtl_cache hd he]
    exact ⟨h1, rfl, rfl, rfl, rfl, rfl⟩
  case seed =>
    intro s v hr hdma hd he hne h0
    obtain ⟨hw, hch⟩ := writtenSeed_ne hne h0
    refine ⟨_, exec_lfsrSeedLoad hr hdma hne, ?_, fun k hk => ?_⟩
    · rw [settled_cache, writeCacheCtl_cache hd he]
      exact hw
    · rw [getTile_settled, lfsr_writeCacheCtl hd he v hch hk, hw]
  case evmodeOff =>
    intro s v hr hdma hd he hon hoff
    have hne : bit v.toNat 2 ≠ s.cache.evmode := by simp [hon, hoff]
    refine ⟨_, exec_evmodeChange hr hdma hne, ?_, fun k hk => ?_⟩
    · rw [settled_cache, writeCacheCtl_cache hd he]
      exact hoff
    · obtain ⟨r, ht⟩ := tier_writeCacheCtl hd he v hne hk
      rw [getTile_settled, ht, hoff]
      exact ⟨rfl, rfl⟩
  case evmodeOn =>
    intro s v hr hdma hd he hoff hon
    have hne : bit v.toNat 2 ≠ s.cache.evmode := by simp [hon, hoff]
    refine ⟨_, exec_evmodeChange hr hdma hne, ?_, fun k hk hb => ?_⟩
    · rw [settled_cache, writeCacheCtl_cache hd he]
      exact hon
    · obtain ⟨r, ht⟩ := tier_writeCacheCtl hd he v hne hk
      rw [getTile_settled, ht, hon, evmodeTaken, if_pos rfl, hb]
      rfl
  case ignored =>
    intro s v hr hdma hbusy h1
    refine ⟨_, exec_enSet hr hdma h1, ?_, ?_⟩
    · rw [settled_cache, writeCacheCtl_ignored v hbusy]
    · rw [settled_tiles, writeCacheCtl_ignored v hbusy]

end Sys2Proof.Machine
end

section
/-! PROOFS. The cache's mailbox commands (R270, R278, R287, R296, Table 11-8): one equation per command, then what each leaves. -/

namespace Sys2Proof.Machine

@[simp] theorem getTile_mbxTake (s : State) (g : Go) (objs : List (Nat × Nat)) (r : Option Running) (k : Nat) :
    getTile (mbxTake s g objs r) k = getTile s k := getTile_of_tiles (mbxTake_tiles s g objs r) k

@[simp] theorem volCfg_mbxTake (s : State) (g : Go) (objs : List (Nat × Nat)) (r : Option Running) (vol : Nat) :
    volCfg (mbxTake s g objs r) vol = volCfg s vol := by simp [volCfg, volCfg?]

/-! ### CACHE_DISABLE and CACHE_ENABLE (R287) -/

section Switch

variable {s : State} {g : Go} (h : GoReady s g false 0 []) (hd : s.cache.disabling = none) (he : s.cache.enabling = none)

include h hd he

theorem exec_cacheDisable : exec (.cacheDisable g) s = .next (settled (mbxPark { mbxTake s g [] none with
    cache := { s.cache with disabling := some g.mb } } g.mb .cacheDisable [])) := by
  show execCacheDisable g s = _
  unfold execCacheDisable
  rw [mbxRun_clear _ _ _ _ h rfl rfl (by simp [needFree, hd, he]), mbxTake_cache, done_eq]

theorem exec_cacheEnable_on (hen : s.cache.en = true) :
    exec (.cacheEnable g) s = .next (settled (mbxOk (mbxTake s g [] none) g.mb (leBytes 8 0))) := by
  show execCacheEnable g s = _
  unfold execCacheEnable
  rw [mbxRun_clear _ _ _ _ h rfl rfl (by simp [needFree, hd, he]), mbxTake_cache, if_pos hen, done_eq]

theorem exec_cacheEnable_off (hen : s.cache.en = false) : exec (.cacheEnable g) s = .next (settled (beginMaint
    (mbxPark { mbxTake s g [] none with cache := { s.cache with enabling := some g.mb } } g.mb (.cacheMaint 0) []) (.mailbox g) 7
    { force := true, discard := false, vol := 0, first := 0, count := 0, reservedZero := true })) := by
  show execCacheEnable g s = _
  unfold execCacheEnable
  rw [mbxRun_clear _ _ _ _ h rfl rfl (by simp [needFree, hd, he]), mbxTake_cache, if_neg (Bool.eq_false_iff.1 hen), done_eq]

end Switch

/-- The device once CACHE_DISABLE has come to its end: no row is left but those that fill (R287). -/
def cacheEmptied (s : State) : State :=
  let u := modTiles s (fun _ x => { x with tier := emptyTier x.tier })
  { u with cache := { u.cache with en := false, disabling := none, staleLogged := false } }

theorem cacheEmptied_mbx (s : State) : (cacheEmptied s).mbx = s.mbx := (modTiles_Frame s _).mbx (by simp)

theorem cacheEmptied_maints (s : State) : (cacheEmptied s).maints = s.maints := (modTiles_Frame s _).maints (by simp)

theorem getTile_cacheEmptied (s : State) {k : Nat} (hk : k < s.part.tiles) :
    getTile (cacheEmptied s) k = { getTile s k with tier := emptyTier (getTile s k).tier } := getTile_modTiles s _ hk

/-- The last step of CACHE_DISABLE answers its mailbox with the numbers of rows removed and killed. -/
theorem exec_cacheDisableQuiesced {s : State} {mb : Nat} (hs : serving s = true) (hd : s.cache.disabling = some mb)
    (hn : noDirty s = true) (hm : s.maints = []) :
    ∃ data, exec (.cacheDisableQuiesced mb) s = .next (settled (mbxOk (cacheEmptied s) mb data)) := by
  have hgate : ¬(!(serving s && s.cache.disabling == some mb && noDirty s)) = true := by simp [hs, hd, hn]
  have hidle : ∀ data, (mbxOk (cacheEmptied s) mb data).maints = [] := fun data => by
    rw [mbxOk, mbxFinish_maints, cacheEmptied_maints, hm]
  exact ⟨_, (if_neg hgate).trans (congrArg done (maintProgress_of_no_maints (hidle _)))⟩

/-! ### CACHE_CONFIG (R259, R270) -/

/-- The tiles that a command's TILE field names: one, or all of them (Table 11-8). -/
def tilesNamed (s : State) (tile : Nat) : List Nat := if tile = 0xFF then List.range s.part.tiles else [tile]

theorem mem_tilesNamed {s : State} {tile k : Nat} (hk : k < s.part.tiles) (ht : tile = k ∨ tile = 0xFF) : k ∈ tilesNamed s tile := by
  unfold tilesNamed
  split
  · exact List.mem_range.2 hk
  · exact List.mem_singleton.2 (ht.resolve_right ‹_›).symm

theorem lt_of_mem_tilesNamed {s : State} {tile k : Nat} (ht : tile < s.part.tiles ∨ tile = 0xFF) (h : k ∈ tilesNamed s tile) :
    k < s.part.tiles := by
  unfold tilesNamed at h
  split at h
  · exact List.mem_range.1 h
  · exact List.mem_singleton.1 h ▸ ht.resolve_right ‹_›

/-- One value stored under each of the numbers `l`. -/
def setEach {α : Type} (t : Tab α) (l : List Nat) (v : α) : Tab α := l.foldl (fun t k => Tab.set t k v) t

theorem get?_setEach {α : Type} (t : Tab α) (l : List Nat) (v : α) (k : Nat) :
    Tab.get? (setEach t l v) k = if k ∈ l then some v else Tab.get? t k := by
  induction l generalizing t with
  | nil => rfl
  | cons j r ih =>
    refine (ih (Tab.set t j v)).trans ?_
    by_cases hj : k = j
    · subst hj
      simp [Tab.get?_set_self]
    · simp [hj, Tab.get?_set_ne _ _ _ _ hj]

/-- The destage delay of tiles set (R259). -/
def delaysSet (s : State) (l : List Nat) (delay : Nat) : State :=
  l.foldl (fun s t => { s with cfg := { s.cfg with destageUs := Tab.set s.cfg.destageUs t delay } }) s

theorem delaysSet_eq (s : State) (l : List Nat) (delay : Nat) :
    delaysSet s l delay = { s with cfg := { s.cfg with destageUs := setEach s.cfg.destageUs l delay } } := by
  induction l generalizing s with
  | nil => rfl
  | cons t r ih => exact ih _

/-- The staging size of tiles set (R270). -/
def stagingSet (s : State) (l : List Nat) (z : Nat) : State :=
  l.foldl (fun s t => modTier { s with cfg := { s.cfg with zGib := Tab.set s.cfg.zGib t z } } t (fun x => { x with zGib := z })) s

theorem stagingSet_cfg (s : State) (l : List Nat) (z : Nat) : (stagingSet s l z).cfg = { s.cfg with zGib := setEach s.cfg.zGib l z } := by
  induction l generalizing s with
  | nil => rfl
  | cons t r ih => exact ih _

theorem stagingSet_mbx (s : State) (l : List Nat) (z : Nat) : (stagingSet s l z).mbx = s.mbx := by
  induction l generalizing s with
  | nil => rfl
  | cons t r ih => exact ih _

theorem zGib_stagingSet (s : State) (l : List Nat) (z k : Nat) :
    (getTile (stagingSet s l z) k).tier.zGib = if k ∈ l then z else (getTile s k).tier.zGib := by
  induction l generalizing s with
  | nil => rfl
  | cons t r ih =>
    refine (ih _).trans ?_
    by_cases ht : k = t
    · subst ht
      simp
    · simp [ht, getTile_setTile_ne _ _ _ _ ht]
      rfl

section Config

variable {s : State} {g : Go} {tile : Nat} (h : GoReady s g false 6 []) (ht : tile < s.part.tiles ∨ tile = 0xFF)

include h ht

theorem exec_cacheConfig_delay {delay : Nat} (hle : delay ≤ 1024) : exec (.cacheConfig g tile 1 0 delay) s =
    .next (settled (mbxStore (delaysSet (mbxTake s g [] none) (tilesNamed s tile) delay) g.mb [])) := by
  show execCacheConfig g tile 1 0 delay s = _
  unfold execCacheConfig
  rw [mbxRun_clear _ _ _ _ h rfl]
  · rfl
  · simp [bit, hle]
  · simpa [need, needStopped, bit] using ht.symm

theorem exec_cacheConfig_staging {z : Nat} (hz : z ≤ 8) (hen : s.cache.en = false)
    (hw : ∀ k, k < s.part.tiles → (getTile s k).tier.store = [] ∧ windowOn s k = false) : exec (.cacheConfig g tile 2 z 0) s =
      .next (settled (mbxStore (stagingSet (mbxTake s g [] none) (tilesNamed s tile) z) g.mb [])) := by
  have hfree : (tilesNamed s tile).any (fun t => (getTile s t).tier.zGib != z &&
      (s.cache.en || !(getTile s t).tier.store.isEmpty || windowOn s t)) = false := by
    rw [List.any_eq_false]
    intro k hk
    obtain ⟨hst, hwin⟩ := hw k (lt_of_mem_tilesNamed ht hk)
    simp [hen, hst, hwin]
  show execCacheConfig g tile 2 z 0 s = _
  unfold execCacheConfig
  rw [mbxRun_clear _ _ _ _ h rfl]
  · rfl
  · simp [bit, hz]
  · have hneed : (need (tile == 0xFF || decide (tile < s.part.tiles)) 0).fails = false := by
      simpa [need, or_iff_not_imp_left] using ht.symm
    have hstop : (needStopped (!(bit 2 1 && (tilesNamed s tile).any (fun t => (getTile s t).tier.zGib != z &&
        (s.cache.en || !(getTile s t).tier.store.isEmpty || windowOn s t))))).fails = false := by rw [hfree]; rfl
    simp only [List.all_cons, List.all_nil, hneed, Bool.not_false, Bool.true_and, Bool.and_true, Bool.not_eq_true']
    exact hstop

end Config

/-! ### The residency tables (R278) -/

/-- A volume's description changed in its policy and table only. -/
theorem applyVol_rat {s : State} {vol : Nat} {c : VolCfg} (policy : Nat) (l : List RatEntry) (hc : volCfg? s vol = some c) :
    applyVol s vol (some { c with policy := policy, rat := l }) = setVolCfg s vol { c with policy := policy, rat := l } := by
  simp [applyVol, hc]

theorem volCfg?_of_volExists {s : State} {fn vol : Nat} (h : volExists s fn vol = true) : volCfg? s vol = some (volCfg s vol) := by
  simp only [volExists, Bool.and_eq_true] at h
  obtain ⟨⟨⟨-, hcfg⟩, -⟩, -⟩ := h
  obtain ⟨c, hc⟩ := Option.isSome_iff_exists.1 hcfg
  rw [volCfg, hc, Option.getD_some]

theorem exec_cacheRatSet {s : State} {g : Go} {vol policy : Nat} {l : List RatEntry}
    (h : GoReady s g false (if l.isEmpty then 4 else 8 + 16 * l.length) [objVol vol]) (hph : s.phase = .ready)
    (hv : volExists s g.mb vol = true) (hst : (getVol s vol).st = .stopped) (hp : (poolCfg s (volCfg s vol).pool).partner = none)
    (h3 : policy ≤ 3) (h16 : l.length ≤ 16) (hr : ∀ e ∈ ratErrors l, e.2 = false) : exec (.cacheRatSet g vol policy l) s =
      .next (settled (mbxStore (setVolCfg (mbxTake s g [objVol vol] none) vol { volCfg s vol with policy := policy, rat := l }) g.mb [])) := by
  have hchange : changePool (mbxTake s g [objVol vol] none) g.mb (volCfg s vol).pool
      (.vol vol (some { volCfg s vol with policy := policy, rat := l })) [] =
      mbxStore (setVolCfg (mbxTake s g [objVol vol] none) vol { volCfg s vol with policy := policy, rat := l }) g.mb [] := by
    have hcfg : volCfg? (mbxTake s g [objVol vol] none) vol = some (volCfg s vol) := by
      rw [volCfg?, mbxTake_cfg]
      exact volCfg?_of_volExists hv
    simp only [changePool, poolCfg_mbxTake, hp, applyChange, applyVol_rat policy l hcfg]
  show execCacheRatSet g vol policy l s = _
  unfold execCacheRatSet
  rw [mbxRun_clear _ _ _ _ h rfl]
  · simp only [volCfg_mbxTake, hchange, done_eq]
  · rw [List.all_append, Bool.and_eq_true, List.all_eq_true (l := ratErrors l)]
    exact ⟨by simp [h3, h16], fun e he => by simp [hr e he]⟩
  · rw [List.all_append, stoppedVol, List.all_append, volObj_clear hph hv]
    simp [needStopped, needPartner, hst, hp]

theorem exec_cacheRatGet {s : State} {g : Go} {vol : Nat} (h : GoReady s g true 2 [objVol vol]) (hph : s.phase = .ready)
    (hv : volExists s g.mb vol = true) : exec (.cacheRatGet g vol) s = .next (settled (mbxOk (mbxTake s g [objVol vol] none) g.mb
      (leBytes 1 (volCfg s vol).policy ++ leBytes 1 (volCfg s vol).rat.length ++
        (if (volCfg s vol).rat.isEmpty then [] else leBytes 6 0 ++ (volCfg s vol).rat.flatMap ratBytes)))) := by
  show execCacheRatGet g vol s = _
  unfold execCacheRatGet
  rw [mbxRun_clear _ _ _ _ h rfl rfl (volObj_clear hph hv 0)]
  simp only [volCfg_mbxTake, done_eq]

theorem volCfg_setVolCfg_self (s : State) (vol : Nat) (c : VolCfg) : volCfg (setVolCfg s vol c) vol = c := by
  simp [volCfg, volCfg?, setVolCfg, Tab.get?_set_self]

/-! ### CACHE_STATS (R296) -/

/-- The counts of the tiles that CACHE_STATS names (Table 6-15). -/
def statsOf (s : State) (tile : Nat) : List Byte := countBytes ((tilesNamed s tile).flatMap (fun k => cacheCounts (getTile s k).tier))

theorem exec_cacheStats {s : State} {g : Go} {tile : Nat} {buf : SegDesc} (h : GoReady s g false 24 []) (hb : badBuf buf = false)
    (ht : tile < s.part.tiles ∨ tile = 0xFF) : exec (.cacheStats g tile buf) s =
      .next (settled (mbxOk (writeBuf (mbxTake s g [] none) g.mb buf (statsOf s tile)) g.mb (bytesField (statsOf s tile)))) := by
  have hstats : statsOf (mbxTake s g [] none) tile = statsOf s tile := by simp [statsOf, tilesNamed]
  rw [← hstats]
  show execCacheStats g tile buf s = _
  unfold execCacheStats
  rw [mbxRun_clear _ _ _ _ h rfl]
  · rfl
  · simp [hb]
  · simpa [need] using ht.symm

/-- Settles O25: each command by its equation, its answer by the mailbox's endings. -/
theorem cacheCommandRows : Obligations.CacheCommandRows := by
  refine ⟨?disable, ?quiesced, ?enabled, ?enable, ?delay, ?staging, ?ratSet, ?ratGet, ?stats⟩
  case disable =>
    intro s g h hd he
    exact ⟨_, exec_cacheDisable h hd he, settled_cache _, mbxPark_runs_of_mbx _ _ rfl⟩
  case quiesced =>
    intro s mb hs hd hn hm ho
    obtain ⟨data, hex⟩ := exec_cacheDisableQuiesced hs hd hn hm
    have hmb : getMbx (cacheEmptied s) mb = getMbx s mb := by rw [getMbx, cacheEmptied_mbx, getMbx]
    obtain ⟨hbusy, hlast⟩ := mbxFinish_ended 0 0 data (hmb ▸ ho)
    refine ⟨_, hex, ?_, ?_, ?_, ?_, fun k hk => ?_⟩
    · rw [settled_cache, mbxOk, mbxFinish_cache]
      rfl
    · rw [settled_cache, mbxOk, mbxFinish_cache]
      rfl
    · rw [getMbx_settled]
      exact hbusy
    · rw [getMbx_settled]
      exact hlast
    · rw [getTile_settled, mbxOk, getTile_of_tiles (mbxFinish_tiles _ _ _ _ _), getTile_cacheEmptied s hk]
  case enabled =>
    intro s g h hd he hen
    exact ⟨_, exec_cacheEnable_on h hd he hen, by simp [mbxOk], mbxOk_mbxTake_answered _ _ _ _⟩
  case enable =>
    intro s g h hd he hen
    exact exec_cacheEnable_off h hd he hen
  case delay =>
    intro s g tile delay h ht hle
    refine ⟨_, exec_cacheConfig_delay h ht hle, ?_, ?_, ?_, fun k hk hkt => ?_⟩
    all_goals rw [delaysSet_eq]
    · simp [mbxStore]
    · simp [mbxStore]
    · exact mbxStore_runs s g [] _ []
    · rw [settled_cfg]
      exact (get?_setEach _ _ _ k).trans (if_pos (mem_tilesNamed hk hkt))
  case staging =>
    intro s g tile z h ht hz hen hw
    refine ⟨_, exec_cacheConfig_staging h ht hz hen hw, ?_, mbxPark_runs_of_mbx _ _ (stagingSet_mbx _ _ _), fun k hk hkt => ?_⟩
    · rw [settled_cfg, mbxStore, mbxPark_cfg, stagingSet_cfg, mbxTake_cfg]
    · rw [getTile_settled, mbxStore, getTile_of_tiles (mbxPark_tiles _ _ _ _), zGib_stagingSet, if_pos (mem_tilesNamed hk hkt)]
  case ratSet =>
    intro s g vol policy l h hph hv hst hp h3 h16 hr
    refine ⟨_, exec_cacheRatSet h hph hv hst hp h3 h16 hr, mbxPark_runs_of_mbx _ _ (setVolCfg_mbx _ _ _), ?_⟩
    rw [volCfg, volCfg?, settled_cfg]
    exact volCfg_setVolCfg_self _ vol _
  case ratGet =>
    intro s g vol h hph hv
    exact ⟨_, exec_cacheRatGet h hph hv, by simp [mbxOk], mbxOk_mbxTake_answered _ _ _ _⟩
  case stats =>
    intro s g tile buf h hb ht
    refine ⟨_, exec_cacheStats h hb ht, ?_, ?_⟩
    · rw [settled_tiles, mbxOk, mbxFinish_tiles, (writeBuf_Frame _ _ _ _).tiles (by simp), mbxTake_tiles]
    · exact mbxOk_answered_of_mbx _ ((writeBuf_Frame _ _ _ _).mbx (by simp))

end Sys2Proof.Machine
end

section
/-! PROOFS. Serosh Block Transport as its rows share it: connections looked up, what counting and sending leave as they are. -/

namespace Sys2Proof.Machine

/-! ### Connections looked up -/

theorem find?_eq_none_of_any {α : Type} {l : List α} {p : α → Bool} (h : l.any p = false) : l.find? p = none := by
  simpa [List.find?_eq_none] using h

@[simp] theorem getConn?_settled (s : State) (id : W32) : getConn? (settled s) id = getConn? s id := by simp [getConn?]

theorem getConn?_isSome (s : State) (id : W32) : (getConn? s id).isSome = s.sbt.conns.any (fun c => connIdOf c == id) :=
  Bool.eq_iff_iff.2 (List.find?_isSome.trans List.any_eq_true.symm)

/-- A connection that leaves is found no more (R315). -/
theorem getConn?_freeConn_self (s : State) (c : Conn) : getConn? (freeConn s c) (connIdOf c) = none := by
  simp [getConn?, freeConn, List.find?_eq_none]

/-! ### Counting (R349) -/

theorem tallyConn_Frame (s : State) (id : W32) (kind : Nat) : Frame [.sbt] s (tallyConn s id kind) := by
  unfold tallyConn
  split
  · exact (modSbt_Frame s _).trans (modConn_Frame _ _ _)
  · exact .refl _ s

/-- A count at a connection leaves of it everything else as it is. -/
theorem getConn?_tallyConn_self {s : State} {id : W32} {k : Conn} (kind : Nat) (hk : getConn? s id = some k) :
    getConn? (tallyConn s id kind) id = some { k with counts := bumpCount k.counts kind } := by
  simp only [tallyConn, hk]
  exact getConn?_modConn_self (f := fun c => { c with counts := bumpCount c.counts kind }) hk (fun _ => rfl)

/-- A packet counted at its link, its tile and its connection changes nothing else. -/
theorem counted_eq (s : State) (h : SbtHdr) : ∃ f : Conn → Conn, (∀ c, ∃ n, f c = { c with counts := n }) ∧
    counted s h = { s with
      links := (countFrame s h.port).links
      sbt := { s.sbt with
        conns := s.sbt.conns.map f, counts := bumpCount s.sbt.counts (16 * tileOfPort h.port + kPackets) } } := by
  unfold counted
  dsimp only
  split
  · refine ⟨fun c => if connIdOf c = h.connId then { c with counts := bumpCount c.counts kPackets } else c, fun c => ?_, rfl⟩
    by_cases hc : connIdOf c = h.connId
    · exact ⟨_, if_pos hc⟩
    · exact ⟨c.counts, if_neg hc⟩
  · refine ⟨id, fun c => ⟨c.counts, rfl⟩, ?_⟩
    rw [List.map_id]
    rfl

theorem counted_Frame (s : State) (h : SbtHdr) : Frame [.sbt, .links] s (counted s h) := by
  obtain ⟨f, -, e⟩ := counted_eq s h
  rw [e]
  constructor <;> first | exact List.prefix_rfl | (intros; rfl) | (intro hn; simp at hn)

@[simp] theorem counted_counts (s : State) (h : SbtHdr) :
    (counted s h).sbt.counts = bumpCount s.sbt.counts (16 * tileOfPort h.port + kPackets) := by
  obtain ⟨f, -, e⟩ := counted_eq s h
  rw [e]

@[simp] theorem counted_out (s : State) (h : SbtHdr) : (counted s h).out = s.out := by
  obtain ⟨f, -, e⟩ := counted_eq s h
  rw [e]

@[simp] theorem counted_refusals (s : State) (h : SbtHdr) : (counted s h).sbt.refusals = s.sbt.refusals := by
  obtain ⟨f, -, e⟩ := counted_eq s h
  rw [e]

@[simp] theorem counted_cooling (s : State) (h : SbtHdr) : (counted s h).sbt.cooling = s.sbt.cooling := by
  obtain ⟨f, -, e⟩ := counted_eq s h
  rw [e]

/-- Counting a packet is seen in no property of connections that does not read their counts. -/
theorem any_conns_counted (s : State) (h : SbtHdr) (p : Conn → Bool) (hp : ∀ c n, p { c with counts := n } = p c) :
    (counted s h).sbt.conns.any p = s.sbt.conns.any p := by
  obtain ⟨f, hf, e⟩ := counted_eq s h
  have hpf : p ∘ f = p := by
    funext c
    obtain ⟨n, hn⟩ := hf c
    rw [Function.comp_apply, hn, hp]
  rw [e]
  simp only [List.any_map, hpf]

@[simp] theorem length_conns_counted (s : State) (h : SbtHdr) : (counted s h).sbt.conns.length = s.sbt.conns.length := by
  obtain ⟨f, -, e⟩ := counted_eq s h
  simp [e]

theorem getConn?_counted_isSome (s : State) (h : SbtHdr) (id : W32) :
    (getConn? (counted s h) id).isSome = (getConn? s id).isSome := by
  rw [getConn?_isSome, getConn?_isSome, any_conns_counted s h _ (fun _ _ => rfl)]

/-- One more of a kind counted, another kind read. -/
theorem getD_bumpCount_ne (t : Tab Nat) {i j : Nat} (h : i ≠ j) : Tab.getD (bumpCount t j) i 0 = Tab.getD t i 0 :=
  Tab.getD_set_ne _ _ _ _ _ h

@[simp] theorem getD_bumpCount_self (t : Tab Nat) (i : Nat) : Tab.getD (bumpCount t i) i 0 = Tab.getD t i 0 + 1 :=
  Tab.getD_set_self _ _ _ _

end Sys2Proof.Machine
end

section
/-! PROOFS. Packets of tenants as they arrive (R298, R301, R304, R332): what a link and the SBT receiver do with one, then one equation per
row. -/

namespace Sys2Proof.Machine

/-! ### At the receiver (R298, R301) -/

section Packet

variable {s : State} {h : SbtHdr} {type len : Nat}

theorem wellSent_iff : wellSent s h type len = true ↔
    tenantPort s h.port = true ∧ h.type = type ∧ strayPacket s h = none ∧ h.version = 1 ∧ h.length = len := by
  simp [wellSent, and_assoc]

/-- A well sent packet is counted and handed on. -/
theorem enterPkt_wellSent (any : Bool) (f : State → State) (hw : wellSent s h type len = true) :
    enterPkt s h type len any f = .next (settled (f (counted s h))) := by
  obtain ⟨hp, ht, hs, hv, hl⟩ := wellSent_iff.1 hw
  simp [enterPkt, hp, ht, hs, hv, hl, done_eq]

/-- A packet of a TYPE that judges no VERSION is handed on when its LENGTH is right. -/
theorem enterPkt_anyVersion (f : State → State) (hp : tenantPort s h.port = true) (ht : h.type = type) (hs : strayPacket s h = none)
    (hl : h.length = len) : enterPkt s h type len true f = .next (settled (f (counted s h))) := by
  simp [enterPkt, hp, ht, hs, hl, done_eq]

theorem enterPkt_stray (any : Bool) (f : State → State) {cause : Nat} (hp : tenantPort s h.port = true) (ht : h.type = type)
    (hs : strayPacket s h = some cause) : enterPkt s h type len any f = .next (settled (dropFrame s h.port cause)) := by
  simp [enterPkt, hp, ht, hs, done_eq]

theorem enterPkt_otherVersion (f : State → State) (hp : tenantPort s h.port = true) (ht : h.type = type) (hs : strayPacket s h = none)
    (hv : h.version ≠ 1) : enterPkt s h type len false f = .next (settled (discardPkt (counted s h) h.port 1)) := by
  simp [enterPkt, hp, ht, hs, hv, done_eq]

/-- A sequenced packet of another VERSION is discarded and counted. -/
theorem arriveSeq_otherVersion (b : RxBody) (hp : tenantPort s h.port = true) (ht : h.type = type) (hs : strayPacket s h = none)
    (hv : h.version ≠ 1) : arriveSeq s h type len b = .next (settled (discardPkt (counted s h) h.port 1)) := by
  rw [arriveSeq, arrive, enterPkt_otherVersion _ hp ht hs hv]

theorem enterPkt_otherLength (f : State → State) (hp : tenantPort s h.port = true) (ht : h.type = type) (hs : strayPacket s h = none)
    (hv : h.version = 1) (hl : h.length ≠ len) :
    enterPkt s h type len false f = .next (settled (discardPkt (counted s h) h.port 3)) := by
  simp [enterPkt, hp, ht, hs, hv, hl, done_eq]

variable (hw : wellSent s h type len = true) (hk : (getConn? s h.connId).isSome = true)

include hw hk

/-- A well sent packet of a known connection is counted and does what its row says. -/
theorem arrive_known (f : State → State) : arrive s h type len f = .next (settled (f (counted s h))) := by
  have hc : (getConn? (counted s h) h.connId).isSome = true := (getConn?_counted_isSome s h _).trans hk
  obtain ⟨k, hc⟩ := Option.isSome_iff_exists.1 hc
  rw [arrive, enterPkt_wellSent _ _ hw]
  simp [hc]

theorem arriveSeq_known (b : RxBody) :
    arriveSeq s h type len b = .next (settled (maintProgress (receive (counted s h) h.connId h b))) :=
  arrive_known hw hk _

end Packet

/-- A CMD of the row's own opcode, or of one that Table 7-8 does not name, is this row's (R324). -/
theorem arriveCmd_known {s : State} {h : SbtHdr} {o : BlockOp} {c : Capsule} (hw : wellSent s h 0x10 64 = true)
    (hk : (getConn? s h.connId).isSome = true) (ho : c.opcode.toNat = opcodeOf o ∨ c.opcode.toNat = 0 ∨ 6 < c.opcode.toNat) :
    arriveCmd s h o c = .next (settled (maintProgress (receive (counted s h) h.connId h (.cmd o c)))) := by
  rw [arriveCmd, if_neg (by omega), arriveSeq_known hw hk]

/-- A port that takes tenants' packets has a link. -/
theorem link_of_tenantPort {s : State} {port : Nat} (h : tenantPort s port = true) : (Tab.get? s.links port).isSome = true := by
  cases hl : Tab.get? s.links port with
  | none => simp [tenantPort, getLink, Tab.getD, hl] at h
  | some l => rfl

/-! ### The rows -/

theorem exec_ack (s : State) (h : SbtHdr) : exec (.ack h) s = arrive s h 0x30 0 (fun t => processAck t h.connId h) := rfl

/-- DATA_OUT whose digest fails is counted and does nothing else (R332). -/
theorem exec_dataOut_badDigest {s : State} {h : SbtHdr} {payload : List Byte} {dg : W32} (tag : BitVec 16) (off : W32)
    (hw : wellSent s h 0x12 (16 + payload.length) = true) (hk : (getConn? s h.connId).isSome = true) (hd : crc32c payload ≠ dg) :
    exec (.dataOut h tag off dg payload) s = .next (settled (tallyConn (counted s h) h.connId kDiscard)) := by
  show execDataOut h tag off dg payload s = _
  rw [execDataOut, if_pos hd, arrive_known hw hk]

theorem exec_dataOut {s : State} {h : SbtHdr} {payload : List Byte} {dg : W32} (tag : BitVec 16) (off : W32)
    (hw : wellSent s h 0x12 (16 + payload.length) = true) (hk : (getConn? s h.connId).isSome = true) (hd : crc32c payload = dg) :
    exec (.dataOut h tag off dg payload) s =
      .next (settled (maintProgress (receive (counted s h) h.connId h (.dataOut tag off dg payload)))) := by
  show execDataOut h tag off dg payload s = _
  rw [execDataOut, if_neg (not_not.2 hd), arriveSeq_known hw hk]

theorem exec_close {s : State} {h : SbtHdr} {r : Byte} (hw : wellSent s h 0x03 8 = true) (hk : (getConn? s h.connId).isSome = true)
    (hr : r ≠ 5) : exec (.close h r) s = .next (settled (maintProgress (receive (counted s h) h.connId h (.close r)))) := by
  show execClose h r s = _
  rw [execClose, if_neg hr, arriveSeq_known hw hk]

/-- A discarded packet is counted by its cause (R301). -/
theorem discardPkt_counts (s : State) (h : SbtHdr) (cause : Nat) :
    Tab.getD (discardPkt (counted s h) h.port cause).sbt.counts (16 * tileOfPort h.port + (kCause + cause)) 0 =
      Tab.getD s.sbt.counts (16 * tileOfPort h.port + (kCause + cause)) 0 + 1 := by
  simp only [discardPkt, tally_eq, modSbt_sbt, counted_counts, getD_bumpCount_self]
  rw [getD_bumpCount_ne _ (by simp only [kCause, kPackets]; omega)]

/-- Settles O26: each row by its equation at the receiver. -/
theorem sbtPacketRows : Obligations.SbtPacketRows := by
  refine ⟨?cmd, ?dataOut, ?badDigest, ?sequenced, ?ack, ?otherVersion, ?otherLength, ?stray⟩
  case cmd =>
    rintro s h c o mk (⟨rfl, rfl⟩ | ⟨rfl, rfl⟩ | ⟨rfl, rfl⟩ | ⟨rfl, rfl⟩ | ⟨rfl, rfl⟩ | ⟨rfl, rfl⟩) hw hk ho
    all_goals exact arriveCmd_known hw hk ho
  case dataOut =>
    intro s h tag off dg payload hw hk hd
    exact exec_dataOut tag off hw hk hd
  case badDigest =>
    intro s h tag off dg payload hw hk hd
    have hf : Frame [.sbt, .links] s (settled (tallyConn (counted s h) h.connId kDiscard)) :=
      ((counted_Frame s h).trans ((tallyConn_Frame _ _ _).mono (by simp))).settled
    have hex := exec_dataOut_badDigest tag off hw hk hd
    exact ⟨hex, _, hex, hf.cmds (by simp), hf.tiles (by simp)⟩
  case sequenced =>
    rintro s h c type len b hw hk
      (⟨tag, rfl, rfl, rfl, rfl⟩ | ⟨k, p, rfl, rfl, rfl, rfl⟩ | ⟨d, f, rfl, rfl, rfl, rfl⟩ | ⟨r, rfl, rfl, hr, rfl, rfl⟩)
    · exact arriveSeq_known hw hk (.abort tag)
    · exact arriveSeq_known hw hk (.errlogReq k p)
    · exact arriveSeq_known hw hk (.resume d f)
    · exact exec_close hw hk hr
  case ack =>
    intro s h hw hk
    rw [exec_ack, arrive_known hw hk]
  case otherVersion =>
    intro s h c hp hs hv hc
    have hex : exec c s = .next (settled (discardPkt (counted s h) h.port 1)) := by
      obtain ⟨rfl, ht⟩ | ⟨tag, rfl, ht⟩ | ⟨k, p, rfl, ht⟩ | ⟨d, f, rfl, ht⟩ := hc
      · rw [exec_ack, arrive, enterPkt_otherVersion _ hp ht hs hv]
      · exact arriveSeq_otherVersion (.abort tag) hp ht hs hv
      · exact arriveSeq_otherVersion (.errlogReq k p) hp ht hs hv
      · exact arriveSeq_otherVersion (.resume d f) hp ht hs hv
    refine ⟨hex, _, hex, ?_, ?_, ?_⟩ <;> simp only [settled_sbt, settled_cmds]
    · rfl
    · exact (counted_Frame s h).cmds (by simp)
    · exact discardPkt_counts s h 1
  case otherLength =>
    intro s h hp ht hs hv hl
    rw [exec_ack, arrive, enterPkt_otherLength _ hp ht hs hv hl]
  case stray =>
    intro s h cause hp ht hs
    have hex : exec (.ack h) s = .next (settled (dropFrame s h.port cause)) := by rw [exec_ack, arrive, enterPkt_stray _ _ hp ht hs]
    refine ⟨_, hex, ?_, ?_⟩
    · rw [settled_sbt, dropFrame_sbt]
    · simp only [getLink, settled_links]
      exact congrArg Link.discards (getLink_dropFrame s h.port cause (link_of_tenantPort hp))

end Sys2Proof.Machine
end

section
/-! PROOFS. What a delivered CMD answers (Table 7-9, R324, R327, R328), and what sending a sequenced packet leaves (R303, R305). -/

namespace Sys2Proof.Machine

/-! ### Sending leaves all but SBT as it is (R303, R305) -/

theorem emitPkt_Frame (s : State) (c : Conn) (seq : W32) (retx : Bool) (b : TxBody) : Frame [.sbt] s (emitPkt s c seq retx b) := by
  have hu : Frame [.sbt] s (modConn (emit s (connOut s c seq retx b)) (connIdOf c) (fun c => { c with unacked := 0 })) :=
    ((emit_Frame s _).mono (by simp)).trans (modConn_Frame _ _ _)
  unfold emitPkt
  dsimp only
  split
  · exact hu.trans (tallyConn_Frame _ _ _)
  · exact hu

theorem pumpConn_Frame (s : State) (id : W32) : Frame [.sbt] s (pumpConn s id) := by
  unfold pumpConn
  split
  · exact .refl _ s
  · refine .foldl _ (fun t p => ?_) _ s
    split
    · exact .refl _ t
    · exact (emitPkt_Frame _ _ _ _ _).trans (modConn_Frame _ _ _)

theorem sbtSend_Frame (s : State) (id : W32) (b : TxBody) : Frame [.sbt] s (sbtSend s id b) :=
  (modConn_Frame s id _).trans (pumpConn_Frame _ id)

/-! ### The packets of a connection as they are sent -/

/-- Lists of packets that differ in nothing but in which have been sent, and when. -/
def SentMarks (l m : List TxPkt) : Prop := m.map (fun p => (p.seq, p.body)) = l.map (fun p => (p.seq, p.body))

/-- Every connection of `s` stands in `t` with the packets it had, some of them sent since. -/
def PumpedOn (s t : State) : Prop :=
  ∀ id k, getConn? s id = some k → ∃ tx u, SentMarks k.tx tx ∧ getConn? t id = some { k with tx := tx, unacked := u }

theorem PumpedOn.refl (s : State) : PumpedOn s s := fun _ k h => ⟨k.tx, k.unacked, rfl, h⟩

theorem PumpedOn.trans {s t u : State} (h : PumpedOn s t) (g : PumpedOn t u) : PumpedOn s u := fun id k hk => by
  obtain ⟨_, _, hm, h⟩ := h id k hk
  obtain ⟨_, _, gm, g⟩ := g id _ h
  exact ⟨_, _, gm.trans hm, g⟩

theorem PumpedOn.foldl {α : Type} (f : State → α → State) (hf : ∀ s a, PumpedOn s (f s a)) (r : List α) (s : State) :
    PumpedOn s (r.foldl f s) := by
  induction r generalizing s with
  | nil => exact .refl s
  | cons a r ih => exact (hf s a).trans (ih (f s a))

/-- A change of a connection's packets in what sending marks. -/
theorem modConn_pumpedOn (s : State) (i : W32) (f : Conn → Conn)
    (hf : ∀ c, ∃ tx u, SentMarks c.tx tx ∧ f c = { c with tx := tx, unacked := u }) : PumpedOn s (modConn s i f) := fun id k hk => by
  have hid : ∀ c, connIdOf (f c) = connIdOf c := fun c => by obtain ⟨_, _, _, h⟩ := hf c; rw [h]; rfl
  rw [getConn?_modConn s i id f hid, hk]
  by_cases h : connIdOf k = i
  · obtain ⟨tx, u, hm, e⟩ := hf k
    exact ⟨tx, u, hm, by simp [h, e]⟩
  · exact ⟨k.tx, k.unacked, rfl, by simp [h]⟩

theorem emitPkt_pumpedOn (s : State) (c : Conn) (seq : W32) (b : TxBody) : PumpedOn s (emitPkt s c seq false b) :=
  PumpedOn.trans (fun _ k h => ⟨k.tx, k.unacked, rfl, h⟩ : PumpedOn s (emit s (connOut s c seq false b)))
    (modConn_pumpedOn _ _ _ (fun c => ⟨c.tx, 0, rfl, rfl⟩))

/-- A packet marked as sent at `now`. -/
theorem sentMarks_sent (l : List TxPkt) (seq : W32) (now : Nat) :
    SentMarks l (l.map (fun q => if q.seq = seq then { q with sent := true, sentAt := now } else q)) := by
  rw [SentMarks, List.map_map]
  refine List.map_congr_left (fun q _ => ?_)
  dsimp only [Function.comp_apply]
  split <;> rfl

theorem pumpConn_pumpedOn (s : State) (id : W32) : PumpedOn s (pumpConn s id) := by
  unfold pumpConn
  split
  · exact .refl s
  · refine .foldl _ (fun t p => ?_) _ s
    split
    · exact .refl t
    · exact (emitPkt_pumpedOn _ _ _ _).trans (modConn_pumpedOn _ _ _ (fun c => ⟨_, c.unacked, sentMarks_sent _ _ _, rfl⟩))

/-- A sequenced packet joins its connection's packets under the next number (R303). -/
theorem getConn?_sbtSend {s : State} {id : W32} {k : Conn} (b : TxBody) (hk : getConn? s id = some k) :
    ∃ tx u, SentMarks (k.tx ++ [{ seq := k.txNext, body := b }]) tx ∧
      getConn? (sbtSend s id b) id = some { k with tx := tx, txNext := k.txNext + 1, unacked := u } :=
  pumpConn_pumpedOn _ id id _ (getConn?_modConn_self
    (f := fun c => { c with tx := c.tx ++ [{ seq := c.txNext, body := b }], txNext := c.txNext + 1 }) hk (fun _ => rfl))

/-- A sequenced packet is the last of its connection's packets, one more than before. -/
theorem exists_sent_packet {s : State} {id : W32} {k : Conn} (b : TxBody) (hk : getConn? s id = some k) :
    ∃ k' p, getConn? (sbtSend s id b) id = some k' ∧ k'.txNext = k.txNext + 1 ∧ p ∈ k'.tx ∧ p.seq = k.txNext ∧ p.body = b ∧
      k'.tx.length = k.tx.length + 1 := by
  obtain ⟨tx, u, hm, h⟩ := getConn?_sbtSend b hk
  have hmem : (k.txNext, b) ∈ tx.map (fun p => (p.seq, p.body)) := by rw [hm]; simp
  have hlen : tx.length = k.tx.length + 1 := by simpa using congrArg List.length hm
  obtain ⟨p, hp, e⟩ := List.mem_map.1 hmem
  obtain ⟨hseq, hbody⟩ := Prod.mk.inj e
  exact ⟨_, p, h, rfl, hp, hseq, hbody, hlen⟩

/-! ### The checks of Table 7-9, in its order -/

section Checks

variable {s : State} {id : W32} {k : Conn} {c : Capsule}

theorem arrivalStatus_frozen (o : Option BlockOp) (hf : isFrozen k = true) : arrivalStatus s id k o c = 0x0080 := by
  simp [arrivalStatus, hf]

theorem arrivalStatus_overLimit (o : Option BlockOp) (hf : isFrozen k = false) (hl : k.limit ≤ (owedCmds s id).length) :
    arrivalStatus s id k o c = 0x0007 := by
  simp [arrivalStatus, hf, hl]

variable (hf : isFrozen k = false) (hl : (owedCmds s id).length < k.limit)

include hf hl

theorem arrivalStatus_noOpcode : arrivalStatus s id k none c = 0x0001 := by
  simp [arrivalStatus, hf, Nat.not_le.2 hl]

theorem arrivalStatus_badCapsule {o : BlockOp} (hb : badCapsule o c = true) : arrivalStatus s id k (some o) c = 0x0002 := by
  simp [arrivalStatus, hf, Nat.not_le.2 hl, hb]

variable {o : BlockOp} (hb : badCapsule o c = false)

include hb

theorem arrivalStatus_noVolume (hv : tenantVol s k c.volume.toNat = false) : arrivalStatus s id k (some o) c = 0x0003 := by
  simp [arrivalStatus, hf, Nat.not_le.2 hl, hb, hv]

theorem arrivalStatus_range (hv : tenantVol s k c.volume.toNat = true) :
    arrivalStatus s id k (some o) c = rangeStatus s c.volume.toNat c.lba.toNat c.length.toNat := by
  simp [arrivalStatus, hf, Nat.not_le.2 hl, hb, hv]

end Checks

theorem rangeStatus_beyond {s : State} {vol lba len : Nat}
    (h : volBlocks (poolCfg s (volCfg s vol).pool) (volCfg s vol) < lba + len) : rangeStatus s vol lba len = 0x0004 :=
  if_pos h

/-! ### A CMD delivered (R324, R327, R328) -/

/-- A command that fails a check is answered with the status and starts nothing. -/
theorem deliverCmd_refused {s : State} {id : W32} {k : Conn} {o : BlockOp} {c : Capsule} (ht : c.tag ≠ 0xFFFF)
    (hu : tagCmd? s id c.tag = none) (ha : k.aborted.contains c.tag = false) (ho : c.opcode.toNat = opcodeOf o)
    (hst : arrivalStatus s id k (some o) c ≠ 0) :
    deliverCmd s id k o c = sendStatus s id c.tag (arrivalStatus s id k (some o) c) := by
  have hfree : ((tagCmd? s id c.tag).isSome || k.aborted.contains c.tag) = false := by rw [hu, ha]; rfl
  rw [deliverCmd, if_neg ht, hfree, if_neg Bool.false_ne_true]
  simp only [if_pos ho]
  exact if_pos hst

theorem deliverCmd_tagInUse {s : State} {id : W32} {k : Conn} {c : Capsule} (o : BlockOp) (ht : c.tag ≠ 0xFFFF)
    (hu : (tagCmd? s id c.tag).isSome = true ∨ k.aborted.contains c.tag = true) : deliverCmd s id k o c = protocolError s id := by
  rw [deliverCmd, if_neg ht, if_pos (Bool.or_eq_true_iff.2 hu)]

/-- Settles O27: each check by its own lemma, in the table's order. -/
theorem sbtCommandChecks : Obligations.SbtCommandChecks := by
  refine ⟨?frozen, ?overLimit, ?noOpcode, ?badCapsule, ?noVolume, ?beyond, ?refused, ?tagInUse, ?sent⟩
  case frozen =>
    intro s id k o c hf
    exact arrivalStatus_frozen o hf
  case overLimit =>
    intro s id k o c hf hl
    exact arrivalStatus_overLimit o hf hl
  case noOpcode =>
    intro s id k c hf hl
    exact arrivalStatus_noOpcode hf hl
  case badCapsule =>
    intro s id k o c hf hl hb
    exact arrivalStatus_badCapsule hf hl hb
  case noVolume =>
    intro s id k o c hf hl hb hv
    exact arrivalStatus_noVolume hf hl hb hv
  case beyond =>
    intro s id k o c hf hl hb hv hr
    exact (arrivalStatus_range hf hl hb hv).trans (rangeStatus_beyond hr)
  case refused =>
    intro s id k o c ht hu ha ho hst
    exact deliverCmd_refused ht hu ha ho hst
  case tagInUse =>
    intro s id k o c ht hu
    exact deliverCmd_tagInUse o ht hu
  case sent =>
    intro s id k b hk
    obtain ⟨k', p, h, hn, hp, hseq, hbody, hlen⟩ := exists_sent_packet b hk
    exact ⟨k', p, h, hn, hp, hseq, hbody, hlen, (sbtSend_Frame s id b).cmds (by simp)⟩

end Sys2Proof.Machine
end

section
/-! PROOFS. CONNECT and what is kept of refusals and indexes (R312-R315), packets of unknown connections and discarded ones (R301, R323). -/

namespace Sys2Proof.Machine

/-! ### What sending emits and how many connections it leaves -/

theorem sbtOut_congr {s t : State} (hc : t.cfg = s.cfg) (hk : t.clock = s.clock) : sbtOut t = sbtOut s := by
  funext port dst addr udp connId seq ack ackValid ece retx sack tsecr b
  simp [sbtOut, linkCfg, nowUs, hc, hk]

/-- Nothing stored out of order, nothing to acknowledge selectively. -/
theorem sackBits_nothing_stored {c : Conn} (h : c.stored = []) : sackBits c = 0 := by
  simp [sackBits, h]

/-- The window of a new connection (R310). -/
theorem windowOf_of_cwnd {c : Conn} (h : c.cwnd = 16) : windowOf c = 16 := by
  rw [windowOf, h]
  decide

/-- A connection's only packet, not sent yet, leaves at once when the window lets it (R305). -/
theorem pumpConn_out_single {s : State} {id : W32} {c : Conn} {p : TxPkt} (hc : getConn? s id = some c) (htx : c.tx = [p])
    (hs : p.sent = false) (hw : (p.seq - c.txAcked).toNat < windowOf c) :
    (pumpConn s id).out = s.out ++ [connOut s c p.seq false p.body] := by
  have hf : [p].filter (fun p => !p.sent && decide ((p.seq - c.txAcked).toNat < windowOf c)) = [p] := by
    simp [hs, hw, -BitVec.toNat_sub]
  simp only [pumpConn, hc, htx, hf, List.foldl_cons, List.foldl_nil]
  rfl

/-- A packet sent on a connection with none unacknowledged is emitted at once. -/
theorem sbtSend_out_first {s : State} {id : W32} {k : Conn} (b : TxBody) (hk : getConn? s id = some k) (htx : k.tx = [])
    (hnext : k.txNext = k.txAcked) (hw : 0 < windowOf k) : (sbtSend s id b).out = s.out ++ [connOut s k k.txNext false b] := by
  have hq := getConn?_modConn_self
    (f := fun c => { c with tx := c.tx ++ [{ seq := c.txNext, body := b }], txNext := c.txNext + 1 }) hk (fun _ => rfl)
  rw [sbtSend, pumpConn_out_single (p := { seq := k.txNext, body := b }) hq (by rw [htx]; rfl) rfl]
  · rfl
  · show (k.txNext - k.txAcked).toNat < windowOf k
    simpa [hnext] using hw

@[simp] theorem length_conns_modConn (s : State) (id : W32) (f : Conn → Conn) :
    (modConn s id f).sbt.conns.length = s.sbt.conns.length := List.length_map _

theorem length_conns_pumpConn (s : State) (id : W32) : (pumpConn s id).sbt.conns.length = s.sbt.conns.length := by
  unfold pumpConn
  split
  · rfl
  · refine List.foldlRecOn (motive := fun t : State => t.sbt.conns.length = s.sbt.conns.length) _ _ rfl (fun t ht p _ => ?_)
    split
    · exact ht
    · simpa [emitPkt] using ht

theorem length_conns_sbtSend (s : State) (id : W32) (b : TxBody) : (sbtSend s id b).sbt.conns.length = s.sbt.conns.length := by
  rw [sbtSend, length_conns_pumpConn, length_conns_modConn]

/-! ### A connection opened (R312) -/

/-- The connection among the others, its generation noted. -/
def connAdded (s : State) (c : Conn) : State :=
  modSbt s (fun x =>
    { x with conns := x.conns ++ [c], gens := x.gens.filter (fun e => e.1 != (c.tile, c.index)) ++ [((c.tile, c.index), c.gen)] })

theorem openConn_eq {s : State} (c : Conn) (hr : s.hk.running = false) :
    openConn s c = sbtSend (connAdded s c) (connIdOf c) c.accept := by
  have hsend : (sbtSend (connAdded s c) (connIdOf c) c.accept).hk = s.hk := (sbtSend_Frame (connAdded s c) _ _).hk (by simp)
  have hrun : (sbtSend (connAdded s c) (connIdOf c) c.accept).hk.running = false := by rw [hsend, hr]
  unfold openConn
  dsimp only
  exact if_neg (by rw [← connAdded, hrun]; exact Bool.false_ne_true)

theorem getConn?_connAdded {s : State} {c : Conn} (h : s.sbt.conns.any (fun x => connIdOf x == connIdOf c) = false) :
    getConn? (connAdded s c) (connIdOf c) = some c := by
  have hn : s.sbt.conns.find? (fun x => connIdOf x == connIdOf c) = none := find?_eq_none_of_any h
  simp [getConn?, connAdded, hn]

/-- What opening a connection leaves: the connection as it was made but for its ACCEPT sent, one connection more, and the ACCEPT
emitted (R312, R314). -/
theorem openConn_opens {s : State} {c : Conn} (hr : s.hk.running = false)
    (h : s.sbt.conns.any (fun x => connIdOf x == connIdOf c) = false) (htx : c.tx = []) (hnext : c.txNext = c.txAcked)
    (hw : 0 < windowOf c) :
    (∃ tx n u, getConn? (openConn s c) (connIdOf c) = some { c with tx := tx, txNext := n, unacked := u }) ∧
      (openConn s c).sbt.conns.length = s.sbt.conns.length + 1 ∧
      (openConn s c).out = s.out ++ [connOut s c c.txNext false c.accept] := by
  have hk := getConn?_connAdded h
  rw [openConn_eq c hr]
  refine ⟨sbtSend_sentOn _ _ _ _ _ hk, ?_, ?_⟩
  · rw [length_conns_sbtSend]
    simp [connAdded]
  · exact sbtSend_out_first _ hk htx hnext hw

/-! ### What CONNECT answers (R312-R314) -/

/-- A CONNECT is the one with these addresses, connection and SEQ. -/
def sameConnect (h : SbtHdr) (b : ConnectBody) (addr : BitVec 128) (udp : BitVec 16) (t seq : W32) : Bool :=
  addr == h.addr && udp == h.udp && t == b.tenantConn && seq == h.seq

/-- The connection that a CONNECT opens on a tile's free index. -/
def connOpened (s : State) (h : SbtHdr) (b : ConnectBody) (tenant i : Nat) : Conn :=
  newConn s h b tenant i (connGen s (tileOfPort h.port) i) (Config.random32 s.freeIx)

/-- What is kept of a CONNECT refused (R314). -/
def refusalOf (s : State) (h : SbtHdr) (b : ConnectBody) : Refusal1 :=
  { addr := h.addr, udp := h.udp, tenantConn := b.tenantConn, seq := h.seq, result := connectResult s h b,
    isn := Config.random32 s.freeIx, epoch := s.moon.epoch }

/-- The refusal kept and counted. -/
def refusalKept (s : State) (h : SbtHdr) (b : ConnectBody) : State :=
  tally (modSbt (drawn s) (fun y => { y with refusals := y.refusals ++ [refusalOf s h b] })) (tileOfPort h.port) kRefused

section Connect

variable {s : State} {h : SbtHdr} {b : ConnectBody}

variable (hc : s.sbt.conns.any (fun c => sameConnect h b c.addr c.udp c.tenantConn c.connectSeq) = false)

include hc

/-- A CONNECT whose refusal is kept is refused alike, as a retransmission (R314). -/
theorem connectTaken_refusedBefore {r : Refusal1}
    (hr : s.sbt.refusals.find? (fun r => sameConnect h b r.addr r.udp r.tenantConn r.seq) = some r) :
    connectTaken s h b = emit s (refusalOut s h r true) := by
  have hn : s.sbt.conns.find? (fun c => sameConnect h b c.addr c.udp c.tenantConn c.connectSeq) = none :=
    find?_eq_none_of_any hc
  simp only [sameConnect] at hn hr
  simp only [connectTaken, hn, hr]

variable (hr : s.sbt.refusals.any (fun r => sameConnect h b r.addr r.udp r.tenantConn r.seq) = false)

include hr

theorem connectTaken_accepted {tenant i : Nat} (h0 : connectResult s h b = 0) (ht : tenantOf s b.tenantId = some tenant)
    (hi : freeIndex s (tileOfPort h.port) = some i) : connectTaken s h b = openConn (drawn s) (connOpened s h b tenant i) := by
  have hn : s.sbt.conns.find? (fun c => sameConnect h b c.addr c.udp c.tenantConn c.connectSeq) = none :=
    find?_eq_none_of_any hc
  have hm : s.sbt.refusals.find? (fun r => sameConnect h b r.addr r.udp r.tenantConn r.seq) = none :=
    find?_eq_none_of_any hr
  have h0 : connectResult (drawn s) h b = 0 := h0
  have ht : tenantOf (drawn s) b.tenantId = some tenant := ht
  have hi : freeIndex (drawn s) (tileOfPort h.port) = some i := hi
  simp only [sameConnect] at hn hm
  simp only [connectTaken, hn, hm, h0, ht, hi]
  rfl

theorem connectTaken_refused (h0 : connectResult s h b ≠ 0) :
    connectTaken s h b = emit (refusalKept s h b) (refusalOut s h (refusalOf s h b) false) := by
  have hn : s.sbt.conns.find? (fun c => sameConnect h b c.addr c.udp c.tenantConn c.connectSeq) = none :=
    find?_eq_none_of_any hc
  have hm : s.sbt.refusals.find? (fun r => sameConnect h b r.addr r.udp r.tenantConn r.seq) = none :=
    find?_eq_none_of_any hr
  simp only [sameConnect] at hn hm
  simp only [connectTaken, hn, hm]
  split
  · rename_i h1 _ _
    exact absurd h1 h0
  · rfl

end Connect

/-! ### Counting a CONNECT changes nothing that its answer depends on -/

theorem freeIndex_counted (s : State) (h : SbtHdr) : freeIndex (counted s h) = freeIndex s := by
  funext tile
  have hfree : indexFree (counted s h) tile = indexFree s tile := by
    funext i
    rw [indexFree, any_conns_counted s h _ (fun _ _ => rfl), counted_cooling, indexFree]
  rw [freeIndex, length_conns_counted, counted_cooling, hfree, freeIndex]

theorem tenantOf_counted (s : State) (h : SbtHdr) : tenantOf (counted s h) = tenantOf s := by
  funext id
  rw [tenantOf, (counted_Frame s h).cfg (by simp), tenantOf]

theorem serving_counted (s : State) (h : SbtHdr) : serving (counted s h) = serving s := by
  obtain ⟨f, -, e⟩ := counted_eq s h
  rw [e]
  rfl

theorem connectResult_counted (s : State) (h : SbtHdr) (b : ConnectBody) : connectResult (counted s h) h b = connectResult s h b := by
  simp only [connectResult, serving_counted, freeIndex_counted, tenantOf_counted, (counted_Frame s h).hk (by simp)]

theorem sbtOut_counted (s : State) (h : SbtHdr) : sbtOut (counted s h) = sbtOut s :=
  sbtOut_congr ((counted_Frame s h).cfg (by simp)) ((counted_Frame s h).clock (by simp))

theorem refusalOut_counted (s : State) (h : SbtHdr) (r : Refusal1) (retx : Bool) :
    refusalOut (counted s h) h r retx = refusalOut s h r retx := by
  rw [refusalOut, sbtOut_counted, refusalOut]

/-- The ACCEPT of the connection that a CONNECT opens (R312). -/
theorem connOut_connOpened (s : State) (h : SbtHdr) (b : ConnectBody) (tenant i : Nat) :
    connOut (counted s h) (connOpened (counted s h) h b tenant i) (connOpened (counted s h) h b tenant i).txNext false
        (connOpened (counted s h) h b tenant i).accept =
      sbtOut s h.port h.dst h.addr h.udp b.tenantConn (connOpened (counted s h) h b tenant i).acceptSeq (h.seq + 1) true h.ce false 0
        h.tsval (.accept 0 (connOpened (counted s h) h b tenant i).maxData (connOpened (counted s h) h b tenant i).limit
          (connIdOf (connOpened (counted s h) h b tenant i)) s.moon.epoch) := by
  rw [connOut, sackBits_nothing_stored rfl, sbtOut_counted, ← (counted_Frame s h).moon (by simp)]
  rfl

/-- A refusal is counted at its tile, besides the packet itself (R349). -/
theorem refusalKept_counts (s : State) (h : SbtHdr) (b : ConnectBody) :
    Tab.getD (refusalKept (counted s h) h b).sbt.counts (16 * tileOfPort h.port + kRefused) 0 =
      Tab.getD s.sbt.counts (16 * tileOfPort h.port + kRefused) 0 + 1 := by
  have hcounts : (refusalKept (counted s h) h b).sbt.counts =
      bumpCount (counted s h).sbt.counts (16 * tileOfPort h.port + kRefused) := rfl
  rw [hcounts, getD_bumpCount_self, counted_counts, getD_bumpCount_ne _ (by simp [kRefused, kPackets])]

/-! ### The rows -/

/-- A CONNECT as it arrives: counted, then answered. -/
theorem exec_connect {s : State} {h : SbtHdr} (b : ConnectBody) (hp : tenantPort s h.port = true) (ht : h.type = 0x01)
    (hs : strayPacket s h = none) (hl : h.length = 32) :
    exec (.connect h b) s = .next (settled (connectTaken (counted s h) h b)) := by
  show execConnect h b s = _
  rw [execConnect, enterPkt_anyVersion _ hp ht hs hl]

theorem exec_refusalRetentionExpiry {s : State} (addr : BitVec 128) (udp : BitVec 16) (tc seq : W32) (hr : running s = true) :
    exec (.refusalRetentionExpiry addr udp tc seq) s = .next (settled (modSbt s (fun b => { b with
      refusals := b.refusals.filter (fun r => !(r.addr == addr && r.udp == udp && r.tenantConn == tc && r.seq == seq)) }))) := by
  show execRefusalRetentionExpiry addr udp tc seq s = _
  rw [execRefusalRetentionExpiry, if_pos hr, done_eq]

theorem exec_indexReuse {s : State} (tile i : Nat) (hr : running s = true) :
    exec (.indexReuse tile i) s =
      .next (settled (modSbt s (fun b => { b with cooling := b.cooling.filter (· != (tile, i)) }))) := by
  show execIndexReuse tile i s = _
  rw [execIndexReuse, if_pos hr, done_eq]

theorem exec_sbtPacketDiscard {s : State} {port : Nat} (cause : DiscardCause) (hp : tenantPort s port = true) :
    exec (.sbtPacketDiscard port cause) s = .next (settled (discardPkt s port (causeCode cause))) := by
  show execSbtPacketDiscard port cause s = _
  rw [execSbtPacketDiscard, if_pos hp, done_eq]

theorem exec_unknownConnectionPacket {s : State} {h : SbtHdr} (isClose5 : Bool) (hw : wellSent s h h.type h.length = true)
    (hk : getConn? s h.connId = none) :
    exec (.unknownConnectionPacket h isClose5) s = .next (settled (unknownPacket (counted s h) h isClose5)) := by
  have hc : (getConn? (counted s h) h.connId).isNone = true := by
    rw [← Option.not_isSome, getConn?_counted_isSome, hk]
    rfl
  show execUnknownConnectionPacket h isClose5 s = _
  rw [execUnknownConnectionPacket, enterPkt_wellSent _ _ hw, if_pos hc]

/-- A packet of no connection is counted at its link and tile alone. -/
theorem counted_unknown {s : State} {h : SbtHdr} (hk : getConn? s h.connId = none) :
    counted s h = tally (countFrame s h.port) (tileOfPort h.port) kPackets := by
  have hn : getConn? (tally (countFrame s h.port) (tileOfPort h.port) kPackets) h.connId = none := hk
  simp only [counted, hn]

/-! ### A packet of an unknown connection (R323) -/

/-- The sender of a packet was answered by a CLOSE of REASON 5 within the last 1 ms. -/
def answeredLately (s : State) (h : SbtHdr) : Bool :=
  s.sbt.answered.any (fun e => e.1 == h.addr && e.2.1 == h.udp && decide (s.clock < e.2.2 + 10 ^ 6))

/-- The sender answered by a CLOSE of REASON 5, and the instant kept. -/
def unknownAnswered (s : State) (h : SbtHdr) : State :=
  let s := modSbt s (fun b =>
      { b with answered := b.answered.filter (fun e => !(e.1 == h.addr && e.2.1 == h.udp)) ++ [(h.addr, h.udp, s.clock)] })
  emit s (sbtOut s h.port h.dst h.addr h.udp h.connId 0 0 false false false 0 0 (.close 5))

/-- A packet of no connection is counted, with its rate at the port and the report of a high one (Table 7-19), and then answered unless it
closes with REASON 5 itself or its sender was answered lately. The comparison with a second of 10^9 ns is named before the definition is
unfolded at `s`: the kernel would compute it in unary. -/
theorem unknownPacket_eq (s : State) (h : SbtHdr) (isClose5 : Bool) : ∃ u rate jt,
    u = { s with sbt := { s.sbt with nUnknown := s.sbt.nUnknown + 1, unknownRate := rate }, jet := jt } ∧
    unknownPacket s h isClose5 = if isClose5 || answeredLately u h then u else unknownAnswered u h := by
  obtain ⟨f, hf⟩ : ∃ f, unknownPacket = f := ⟨_, rfl⟩
  obtain ⟨next, hnext⟩ : ∃ next : Nat → Nat → Nat → Nat × Nat,
      ∀ now t0 n, (if now < t0 + 10 ^ 9 then (t0, n + 1) else (now, 1)) = next now t0 n := ⟨_, fun _ _ _ => rfl⟩
  rw [hf]
  delta unknownPacket at hf
  simp -iota only [hnext] at hf
  subst hf
  beta_reduce
  extract_lets counted
  generalize Tab.getD _ _ _ = rate
  obtain ⟨t0, n⟩ := rate
  dsimp only
  generalize next _ t0 n = rate
  obtain ⟨t1, m⟩ := rate
  dsimp only
  by_cases hm : m = 1001
  · simp only [if_pos hm]
    exact ⟨_, _, _, rfl, rfl⟩
  · simp only [if_neg hm]
    exact ⟨_, _, s.jet, rfl, rfl⟩

/-- An identifier of a tile's index that no connection has in any generation. -/
theorem no_conn_of_generations {s : State} {h : SbtHdr} {tile i : Nat}
    (hid : ∀ c ∈ s.sbt.conns, ∀ g : BitVec 16, connIdOf c ≠ BitVec.ofNat 32 (field 29 tile + field 16 i + g.toNat))
    (g : BitVec 16) :
    (counted s h).sbt.conns.any (fun c => connIdOf c == BitVec.ofNat 32 (field 29 tile + field 16 i + g.toNat)) = false := by
  rw [any_conns_counted s h _ (fun _ _ => rfl)]
  simpa using fun c hc => hid c hc g

/-- Settles O28: each row by its equation, CONNECT by what it answers. -/
theorem connectRows : Obligations.ConnectRows := by
  refine ⟨?accepted, ?refused, ?refusedBefore, ?retention, ?reuse, ?discard, ?close5, ?unknown⟩
  case accepted =>
    intro s h b tenant i hp ht hs hl hc hr h0 htn hi hrun hid
    have hu := counted_Frame s h
    have htaken := connectTaken_accepted ((any_conns_counted s h _ (fun _ _ => rfl)).trans hc) (by rw [counted_refusals]; exact hr)
      ((connectResult_counted s h b).trans h0) ((congrFun (tenantOf_counted s h) _).trans htn)
      ((congrFun (freeIndex_counted s h) _).trans hi)
    have hrun : (drawn (counted s h)).hk.running = false := (congrArg Hk.running (hu.hk (by simp))).trans hrun
    obtain ⟨⟨tx, n, un, hk⟩, hlen, hout⟩ := openConn_opens (c := connOpened (counted s h) h b tenant i) hrun
      (no_conn_of_generations hid _) rfl rfl (by rw [windowOf_of_cwnd rfl]; decide)
    rw [← htaken] at hk hlen hout
    rw [← getConn?_settled] at hk
    refine ⟨_, { connOpened (counted s h) h b tenant i with tx := tx, txNext := n, unacked := un }, exec_connect b hp ht hs hl, hk,
      rfl, rfl, rfl, rfl, rfl, ?_, rfl, rfl, ?_, ?_⟩
    · exact congrArg (fun c : Cfg => min b.qdepth.toNat c.credit) (hu.cfg (by simp))
    · rw [settled_sbt, hlen]
      exact congrArg (· + 1) (length_conns_counted s h)
    · exact Emits.settled List.prefix_rfl
        (hout.trans (congrArg₂ (fun l o => l ++ [o]) (counted_out s h) (connOut_connOpened s h b tenant i)))
  case refused =>
    intro s h b hp ht hs hl hc hr h0
    have htaken := connectTaken_refused ((any_conns_counted s h _ (fun _ _ => rfl)).trans hc) (by rw [counted_refusals]; exact hr)
      ((connectResult_counted s h b).symm ▸ h0)
    have hex := exec_connect b hp ht hs hl
    rw [htaken, refusalOut_counted] at hex
    refine ⟨_, refusalOf (counted s h) h b, hex, ?_, ?_, rfl, rfl, rfl, rfl, connectResult_counted s h b, ?_, ?_, ?_⟩
    · rw [settled_sbt]
      rfl
    · rw [settled_sbt, ← counted_refusals s h]
      rfl
    · exact congrArg Moon.epoch ((counted_Frame s h).moon (by simp))
    · rw [settled_sbt]
      exact refusalKept_counts s h b
    · exact Emits.settled List.prefix_rfl (congrArg (· ++ _) (counted_out s h))
  case refusedBefore =>
    intro s h b r hp ht hs hl hc hr
    have htaken := connectTaken_refusedBefore ((any_conns_counted s h _ (fun _ _ => rfl)).trans hc)
      (by rw [counted_refusals]; exact hr)
    have hex := exec_connect b hp ht hs hl
    rw [htaken, refusalOut_counted] at hex
    refine ⟨_, hex, ?_, ?_, ?_⟩
    · rw [settled_sbt, ← counted_refusals s h]
      rfl
    · rw [settled_sbt]
      rfl
    · exact Emits.settled List.prefix_rfl (congrArg (· ++ _) (counted_out s h))
  case retention =>
    intro s addr udp tc seq hrun
    refine ⟨_, exec_refusalRetentionExpiry addr udp tc seq hrun, ?_, fun r => ?_⟩
    · rw [settled_sbt, modSbt_sbt]
    · simp only [settled_sbt, modSbt_sbt, List.mem_filter, Bool.not_eq_true', ← Bool.not_eq_true, Bool.and_eq_true, beq_iff_eq,
        and_assoc]
  case reuse =>
    intro s tile i hrun
    refine ⟨_, exec_indexReuse tile i hrun, ?_, ?_⟩ <;> simp
  case discard =>
    intro s port cause hp
    exact ⟨_, exec_sbtPacketDiscard cause hp, by rw [settled_sbt]; rfl⟩
  case close5 =>
    intro s h hw hk
    obtain ⟨u, rate, jt, rfl, hu⟩ := unknownPacket_eq (counted s h) h true
    refine ⟨_, exec_unknownConnectionPacket true hw hk, ?_, ?_, ?_⟩
    all_goals
      rw [settled_sbt, hu, counted_unknown hk]
      rfl
  case unknown =>
    intro s h hw hk ha
    obtain ⟨u, rate, jt, hu, he⟩ := unknownPacket_eq (counted s h) h false
    rw [counted_unknown hk] at hu he
    have ha : answeredLately u h = false := by rw [hu]; exact ha
    rw [ha, Bool.or_self, if_neg Bool.false_ne_true] at he
    have hex := exec_unknownConnectionPacket false hw hk
    rw [counted_unknown hk, he] at hex
    subst hu
    refine ⟨_, hex, ?_, ?_, ?_, Emits.settled List.prefix_rfl rfl⟩
    · rw [settled_sbt]
      rfl
    · rw [settled_sbt]
      rfl
    · simp [unknownAnswered]

end Sys2Proof.Machine
end

section
/-! PROOFS. Timers of a connection, grants, and a command's completion (R306, R308, R309, R330, R334, R348): one equation per row and case,
then what each leaves. -/

namespace Sys2Proof.Machine

/-! ### A packet emitted (R301) -/

@[simp] theorem tallyConn_out (s : State) (id : W32) (kind : Nat) : (tallyConn s id kind).out = s.out := by
  unfold tallyConn
  split <;> rfl

theorem emitPkt_out (s : State) (c : Conn) (seq : W32) (retx : Bool) (b : TxBody) :
    (emitPkt s c seq retx b).out = s.out ++ [connOut s c seq retx b] := by
  unfold emitPkt
  dsimp only
  split
  · rw [tallyConn_out]
    rfl
  · rfl

/-- A packet sent on a connection acknowledges what it has received (R306). -/
theorem getConn?_emitPkt_false {s : State} {id : W32} {c : Conn} (seq : W32) (b : TxBody) (hc : getConn? s id = some c) :
    getConn? (emitPkt s c seq false b) id = some { c with unacked := 0 } := by
  have he : getConn? (emit s (connOut s c seq false b)) id = some c := hc
  rw [← getConn?_modConn_self (f := fun c => { c with unacked := 0 }) he (fun _ => rfl), ← connIdOf_of_getConn? hc]
  rfl

/-- A packet sent again is counted besides. -/
theorem getConn?_emitPkt_true {s : State} {id : W32} {c : Conn} (seq : W32) (b : TxBody) (hc : getConn? s id = some c) :
    getConn? (emitPkt s c seq true b) id = some { c with unacked := 0, counts := bumpCount c.counts kRetx } := by
  have he : getConn? (emit s (connOut s c seq true b)) id = some c := hc
  rw [← getConn?_tallyConn_self kRetx (getConn?_modConn_self (f := fun c => { c with unacked := 0 }) he (fun _ => rfl)),
    ← connIdOf_of_getConn? hc]
  rfl

/-! ### The timers (R306, R308, R309) -/

theorem getConn?_of_upConn? {s : State} {id : W32} {c : Conn} (h : upConn? s id = some c) : getConn? s id = some c := by
  unfold upConn? at h
  split at h
  · split at h
    · rw [‹getConn? s id = _›, h]
    · simp at h
  · simp at h

/-- The connection once its retransmission timer has run out: the window small, the timeout doubled (R308, R310). -/
def connTimedOut (c : Conn) : Conn :=
  { c with cwnd := 2, rto := min 10000 (2 * c.rto), counts := bumpCount c.counts kTimeouts }

/-- The state in which a packet is sent again after a timeout. -/
def afterTimeout (s : State) (conn : W32) : State :=
  tallyConn (modConn s conn (fun c => { c with cwnd := 2, rto := min 10000 (2 * c.rto) })) conn kTimeouts

section Timers

variable {s : State} {conn : W32} {c : Conn} (hc : upConn? s conn = some c)

include hc

theorem exec_delayedAck (hu : 0 < c.unacked) : exec (.delayedAck conn) s = .next (settled (emitPkt s c c.txNext false .ack)) := by
  have hk := getConn?_of_upConn? hc
  show execDelayedAck conn s = _
  simp only [execDelayedAck, hc, if_pos hu, sendAck, hk, done_eq]

theorem getConn?_afterTimeout : getConn? (afterTimeout s conn) conn = some (connTimedOut c) :=
  getConn?_tallyConn_self kTimeouts
    (getConn?_modConn_self (f := fun c => { c with cwnd := 2, rto := min 10000 (2 * c.rto) }) (getConn?_of_upConn? hc) (fun _ => rfl))

theorem exec_retransmitTimeout {seq : W32} {p : TxPkt} (hp : c.tx.find? (fun p => p.seq == seq && p.sent) = some p) :
    exec (.retransmitTimeout conn seq) s = .next (settled (emitPkt (afterTimeout s conn) (connTimedOut c) p.seq true p.body)) := by
  have hk := getConn?_afterTimeout hc
  unfold afterTimeout at hk
  show execRetransmitTimeout conn seq s = _
  simp only [execRetransmitTimeout, hc, hp, resendPkt, hk, done_eq]
  rfl

/-- A connection with packets unacknowledged is lost (R309). -/
theorem exec_connectionLoss (ht : c.tx.any (·.sent) = true) (hs : c.st ≠ .closing) : exec (.connectionLoss conn) s =
    .next (settled (maintProgress (jetInfo (loseConn s c) 0x4001 (srcLink c.port) []))) := by
  show execConnectionLoss conn s = _
  simp [execConnectionLoss, hc, ht, hs, done_eq]

/-- A connection that waits for its CLOSE to be acknowledged leaves without a report (R315). -/
theorem exec_connectionLoss_closing (ht : c.tx.any (·.sent) = true) (hs : c.st = .closing) :
    exec (.connectionLoss conn) s = .next (settled (freeConn s c)) := by
  show execConnectionLoss conn s = _
  simp [execConnectionLoss, hc, ht, hs, done_eq]

theorem exec_creditProbe (hl : isLive c = true) :
    exec (.creditProbe conn) s = .next (settled (sbtSend s conn (.credit c.limit 2))) := by
  show execCreditProbe conn s = _
  simp only [execCreditProbe, hc, if_pos hl, done_eq]

end Timers

theorem getConn?_freeConn {s : State} {id : W32} {c : Conn} (t : State) (hc : getConn? s id = some c) :
    getConn? (freeConn t c) id = none := by
  rw [← connIdOf_of_getConn? hc]
  exact getConn?_freeConn_self t c

/-- A packet is sent again as it was sent: neither the timer nor the count shows in it (R301). -/
theorem connOut_afterTimeout (s : State) (conn : W32) (c : Conn) (seq : W32) (b : TxBody) :
    connOut (afterTimeout s conn) (connTimedOut c) seq true b = connOut s c seq true b := by
  have hf : Frame [.sbt] s (afterTimeout s conn) := (modConn_Frame s conn _).trans (tallyConn_Frame _ _ _)
  rw [connOut, sbtOut_congr (hf.cfg (by simp)) (hf.clock (by simp))]
  rfl

/-! ### Grants (R330) -/

/-- What a grant leaves: the grant noted at the command, its bytes taken from the allowance, XFER_RDY sent. -/
def grantSent (s : State) (id off len : Nat) (k : W32) (tag : BitVec 16) : State :=
  sbtSend (modConn (modCmd s id (fun c => { c with grants := c.grants ++ [(off, len)] })) k
    (fun x => { x with allowance := x.allowance.map (· - len) })) k (.xferRdy tag off len)

theorem exec_xferRdy {s : State} {id off len : Nat} {c : Cmd} {k : W32} {tag : BitVec 16} {x : Conn} (hf : fwUp s = true)
    (hc : getCmd? s id = some c) (hsrc : c.src = .sbt k tag) (hk : upConn? s k = some x) (hl : isLive x = true)
    (ha : ∀ a, x.allowance = some a → len ≤ a) (hop : c.op = .write) (hph : c.phase = .locked) (hm : c.mute = false)
    (h1 : 4096 ≤ len) (h2 : len ≤ 1048576) (ho : off % 4096 = 0) (hn : len % 4096 = 0) (he : off + len ≤ 4096 * c.len)
    (hi : intentsIn s c off len = true) : exec (.xferRdy id off len) s = .next (settled (grantSent s id off len k tag)) := by
  show execXferRdy id off len s = _
  cases hal : x.allowance with
  | none => simp [execXferRdy, hc, hsrc, hk, hf, hl, hop, hph, hm, h1, h2, ho, hn, he, hi, hal, done_eq, grantSent]
  | some a => simp [execXferRdy, hc, hsrc, hk, hf, hl, hop, hph, hm, h1, h2, ho, hn, he, hi, hal, ha a hal, done_eq, grantSent]

/-! ### Completion (R334) -/

section Completion

variable {s : State} {id : Nat} {c : Cmd} (hc : getCmd? s id = some c) (hf : fwUp s = true) (hph : c.phase = .finished)
  (hup : tileUp s c.rx = true)

include hc hf hph hup

theorem exec_commandCompletion_sbt {k : W32} {tag : BitVec 16} (hsrc : c.src = .sbt k tag) :
    exec (.commandCompletion id) s = .next (settled (maintProgress (completeSbt s k tag c))) := by
  show execCommandCompletion id s = _
  simp [execCommandCompletion, hc, hf, hph, hup, hsrc, done_eq]

theorem exec_commandCompletion_ring {e : Nat} (hsrc : c.src = .ring e) :
    exec (.commandCompletion id) s = .next (settled (maintProgress (completeRing s e c))) := by
  show execCommandCompletion id s = _
  simp [execCommandCompletion, hc, hf, hph, hup, hsrc, done_eq]

theorem exec_commandCompletion_maint {m : Nat} {x : Maint} (hsrc : c.src = .maint m) (hm : getMaint? (removeCmd s c) m = some x) :
    exec (.commandCompletion id) s = .next (settled (maintProgress (endMaint (removeCmd s c)
      { x with status := c.status, removed := if c.status = 0 then 1 else 0, todo := [] }))) := by
  show execCommandCompletion id s = _
  simp [execCommandCompletion, hc, hf, hph, hup, hsrc, hm, done_eq]

end Completion

/-- A ring entry without a command goes into its batch. -/
theorem exec_commandCompletion_entry {s : State} {id : Nat} {l : Live} (hc : getCmd? s id = none) (hl : getLive? s id = some l)
    (hf : fwUp s = true) (ho : l.outcome.isSome = true) :
    exec (.commandCompletion id) s = .next (settled (closeBatches s l.sq)) := by
  show execCommandCompletion id s = _
  simp [execCommandCompletion, hc, hl, hf, ho, done_eq]

/-! ### A power state entered (R348) -/

theorem exec_powerStateEntry {s : State} {p : Ps} {mb : Nat} (hp : s.hk.psPending = some (p, mb)) (hf : fwUp s = true)
    (hi : idleNow s = true) : exec .powerStateEntry s = .next (settled (mbxOk (enterPs s p) mb [])) := by
  show execPowerStateEntry s = _
  simp [execPowerStateEntry, hp, hf, hi, done_eq]

/-- Settles O29: each row by its equation. -/
theorem connTimerRows : Obligations.ConnTimerRows := by
  refine ⟨?delayedAck, ?retransmit, ?loss, ?closing, ?probe, ?grant, ?sbt, ?ring, ?maint, ?entry, ?power⟩
  case delayedAck =>
    intro s conn c hc hu
    have hk := getConn?_emitPkt_false c.txNext .ack (getConn?_of_upConn? hc)
    exact ⟨_, exec_delayedAck hc hu, Emits.settled List.prefix_rfl (emitPkt_out _ _ _ _ _), _, (getConn?_settled _ _).trans hk, rfl⟩
  case retransmit =>
    intro s conn seq c p hc hp
    have hk := getConn?_emitPkt_true p.seq p.body (getConn?_afterTimeout hc)
    have hout : (afterTimeout s conn).out = s.out := tallyConn_out _ _ _
    rw [← getConn?_settled] at hk
    refine ⟨_, { connTimedOut c with unacked := 0, counts := bumpCount (connTimedOut c).counts kRetx }, exec_retransmitTimeout hc hp, hk,
      rfl, rfl, rfl, Emits.settled List.prefix_rfl ?_⟩
    rw [emitPkt_out, hout, connOut_afterTimeout]
  case loss =>
    intro s conn c hc ht hs
    exact ⟨exec_connectionLoss hc ht hs, getConn?_freeConn _ (getConn?_of_upConn? hc)⟩
  case closing =>
    intro s conn c hc ht hs
    refine ⟨_, exec_connectionLoss_closing hc ht hs, (getConn?_settled _ _).trans (getConn?_freeConn s (getConn?_of_upConn? hc)), ?_⟩
    rw [settled_sbt]
    rfl
  case probe =>
    intro s conn c hc hl
    exact exec_creditProbe hc hl
  case grant =>
    intro s id off len c k tag x hf hc hsrc hk hl ha hop hph hm h1 h2 ho hn he hi
    refine ⟨_, exec_xferRdy hf hc hsrc hk hl ha hop hph hm h1 h2 ho hn he hi, ?_⟩
    have hcmds : (grantSent s id off len k tag).cmds = (modCmd s id (fun c => { c with grants := c.grants ++ [(off, len)] })).cmds :=
      (sbtSend_Frame _ _ _).cmds (by simp)
    rw [getCmd?_settled, getCmd?, hcmds]
    exact getCmd?_modCmd_self _ hc (fun _ => rfl)
  case sbt =>
    intro s id c k tag hc hf hph hup hsrc
    exact exec_commandCompletion_sbt hc hf hph hup hsrc
  case ring =>
    intro s id e c hc hf hph hup hsrc
    exact exec_commandCompletion_ring hc hf hph hup hsrc
  case maint =>
    intro s id m c x hc hf hph hup hsrc hm
    exact exec_commandCompletion_maint hc hf hph hup hsrc hm
  case entry =>
    intro s id l hc hl hf ho
    exact exec_commandCompletion_entry hc hl hf ho
  case power =>
    intro s p mb hp hf hi horph
    have hmb : getMbx (enterPs s p) mb = getMbx s mb := rfl
    obtain ⟨hbusy, hlast⟩ := mbxFinish_ended (s := enterPs s p) 0 0 [] (by rw [hmb, horph])
    refine ⟨_, exec_powerStateEntry hp hf hi, ?_, ?_, ?_, ?_⟩
    · simp [mbxOk, enterPs]
    · simp [mbxOk, enterPs]
    · rw [getMbx_settled]
      exact hbusy
    · rw [getMbx_settled]
      exact hlast

end Sys2Proof.Machine
end

section
/-! PROOFS. The power group of mailbox commands (R348, R429, R500, R534, R544-R546): one equation per command and case, then what each
leaves. -/

namespace Sys2Proof.Machine

/-- GO on a free mailbox for a command with a field out of range: 0x0002, with the field's offset (R478, R578). -/
theorem mbxRun_badField {s : State} {g : Go} {vf : Bool} {len : Nat} {objs : List (Nat × Nat)} (fields : List (Nat × Bool))
    (checks : List Check) (effect : State → State) {off : Nat} (h : GoReady s g vf len objs) (hf : lowestField fields = some off) :
    mbxRun s g vf false len fields checks objs effect =
      .next (settled (mbxFinish (mbxTake s g objs (some .waiting)) g.mb 0x0002 off [])) := by
  obtain ⟨hfw, hre, hb, hcl, hm, hh, hfr, hl, hbl⟩ := h
  have hgate : (g.mb != 0 && !vf) = false := by rcases hm with h | h <;> simp [h]
  simp [mbxRun, hre, hb, gateChecks, formChecks, fieldCheck, hfr, hf, firstFailing, hfw, hcl, hh, hl, hgate, done_eq]

/-- An error at offset 0 is the lowest there is. -/
theorem lowestField_zero (l : List (Nat × Bool)) : lowestField ((0, true) :: l) = some 0 := by
  have hmin : ∀ r : List Nat, (0 :: r).min? = some 0 := fun r => by
    rw [List.min?_cons]
    cases r.min? <;> simp
  simp [lowestField, hmin]

/-! ### The commands -/

section Commands

variable {s : State} {g : Go}

section PowerState

variable {st : Nat} (h : GoReady s g false 1 [objCancel g.mb]) (hst : st ≤ 2) (hp : s.hk.psPending = none)

include h hst hp

/-- The checks of POWER_STATE_SET pass: the state named is one, and no entry is pending. -/
theorem exec_powerStateSet : exec (.powerStateSet g st) s = .next (settled (
    if psOf st = s.hk.ps then mbxOk (mbxTake s g [objCancel g.mb] none) g.mb []
    else if st = 0 then mbxOk (enterPs (mbxTake s g [objCancel g.mb] none) .ps0) g.mb []
    else mbxPark { mbxTake s g [objCancel g.mb] none with hk := { s.hk with psPending := some (psOf st, g.mb) } } g.mb .power [])) := by
  show execPowerStateSet g st s = _
  unfold execPowerStateSet
  rw [mbxRun_clear _ _ _ _ h rfl]
  · simp only [done_eq, mbxTake_hk]
  · simpa using hst
  · simp [needFree, hp]

end PowerState

theorem exec_powerStatus (h : GoReady s g false 0 []) : exec (.powerStatus g) s = .next (settled (mbxOk (mbxTake s g [] none) g.mb
    (leBytes 1 (psCode s.hk.ps) ++ leBytes 1 s.hk.psPending.isSome.toNat ++ leBytes 1 s.cfg.d3coldEn.toNat))) := by
  show execPowerStatus g s = _
  unfold execPowerStatus
  rw [mbxRun_clear _ _ _ _ h rfl rfl rfl, done_eq, mbxTake_hk, mbxTake_cfg]

theorem exec_powerD3cold {e : Nat} (h : GoReady s g false 1 []) (he : e ≤ 1) : exec (.powerD3cold g e) s =
    .next (settled (mbxStore { mbxTake s g [] none with cfg := { s.cfg with d3coldEn := decide (e = 1) } } g.mb [])) := by
  show execPowerD3cold g e s = _
  unfold execPowerD3cold
  rw [mbxRun_clear _ _ _ _ h rfl (by simpa using he) rfl, done_eq, mbxTake_cfg]
  rfl

/-- Thresholds in range and in order (R534). -/
theorem exec_thermalConfig {w th cr ms : Nat} (h : GoReady s g false 6 []) (h1 : 60 ≤ w) (h2 : w ≤ 105) (h3 : w < th) (h4 : th ≤ 110)
    (h5 : th < cr) (h6 : cr ≤ 115) (h7 : ms ≤ 1000) : exec (.thermalConfig g w th cr ms) s =
      .next (settled (mbxStore { mbxTake s g [] none with
        cfg := { s.cfg with warn := w, throttle := th, critical := cr, graceMs := ms } } g.mb [])) := by
  show execThermalConfig g w th cr ms s = _
  unfold execThermalConfig
  rw [mbxRun_clear _ _ _ _ h rfl _ rfl, done_eq, mbxTake_cfg]
  simp [h1, h2, h3, h4, h5, h6, h7]

theorem exec_thermalConfig_badWarn {w : Nat} (th cr ms : Nat) (h : GoReady s g false 6 []) (hw : w < 60 ∨ 105 < w) :
    exec (.thermalConfig g w th cr ms) s = .next (settled (mbxFinish (mbxTake s g [] (some .waiting)) g.mb 0x0002 0 [])) := by
  show execThermalConfig g w th cr ms s = _
  unfold execThermalConfig
  rw [decide_eq_true hw, mbxRun_badField _ _ _ h (lowestField_zero _)]

end Commands

/-- Settles O52: each command by its equation, its answer by the mailbox's endings. -/
theorem powerRows : Obligations.PowerRows := by
  refine ⟨?inForce, ?entry, ?ps0, ?status, ?d3cold, ?thermal, ?badWarn⟩
  case inForce =>
    intro s g st h hst hp hps
    have hex := exec_powerStateSet h hst hp
    rw [if_pos hps] at hex
    exact ⟨_, hex, mbxOk_mbxTake_answered _ _ _ _, by simp [mbxOk]⟩
  case entry =>
    intro s g st h h1 hst hp hps
    have hex := exec_powerStateSet h hst hp
    rw [if_neg hps, if_neg (Nat.ne_of_gt h1)] at hex
    exact ⟨_, hex, mbxPark_runs_of_mbx _ _ rfl, by simp⟩
  case ps0 =>
    intro s g h hp hps
    have hex := exec_powerStateSet h (Nat.zero_le 2) hp
    have hps : psOf 0 ≠ s.hk.ps := Ne.symm hps
    rw [if_neg hps, if_pos rfl] at hex
    exact ⟨_, hex, mbxOk_answered_of_mbx _ rfl, by simp [mbxOk, enterPs]⟩
  case status =>
    intro s g h
    exact ⟨_, exec_powerStatus h, by simp [mbxOk], mbxOk_mbxTake_answered _ _ _ _⟩
  case d3cold =>
    intro s g e h he
    exact ⟨_, exec_powerD3cold h he, mbxStore_runs _ _ _ _ _, settled_cfg _⟩
  case thermal =>
    intro s g w th cr ms h h1 h2 h3 h4 h5 h6 h7
    refine ⟨_, exec_thermalConfig h h1 h2 h3 h4 h5 h6 h7, mbxStore_runs _ _ _ _ _, ?_, settled_cfg _⟩
    simp [mbxStore]
  case badWarn =>
    intro s g w th cr ms h hw
    refine ⟨_, exec_thermalConfig_badWarn th cr ms h hw, ?_, ?_, ?_⟩
    · simp
    · simp
    · simp [mbxFinish]

end Sys2Proof.Machine
end

section
/-! PROOFS. Links, flow control and neighbours (R353-R364): what a link's changes leave, then one equation per row. -/

namespace Sys2Proof.Machine

/-! ### Links read back -/

@[simp] theorem getLink_settled (s : State) (port : Nat) : getLink (settled s) port = getLink s port := by simp [getLink]

@[simp] theorem getLink_emit (s : State) (o : Output) (port : Nat) : getLink (emit s o) port = getLink s port := rfl

@[simp] theorem getLink_jetInfo (s : State) (code src : BitVec 16) (data : List Byte) (port : Nat) :
    getLink (jetInfo s code src data) port = getLink s port := rfl

/-- A port whose link is up has a link in the table. -/
theorem link_of_up {s : State} {port : Nat} (h : (getLink s port).up = true) : (Tab.get? s.links port).isSome = true := by
  cases hl : Tab.get? s.links port with
  | none => simp [getLink, Tab.getD, hl] at h
  | some l => rfl

theorem up_of_ethernetUp {s : State} {port : Nat} (h : ethernetUp s port = true) : (getLink s port).up = true := by
  simp only [ethernetUp, Bool.and_eq_true] at h
  exact h.1.2

theorem setLink_setLink (s : State) (port : Nat) (x y : Link) : setLink (setLink s port x) port y = setLink s port y := by
  simp [setLink, Tab.set_set]

/-! ### A link goes down (R355) -/

/-- The link itself once it is down, with the record of that (R355). -/
def linkDropped (s : State) (port : Nat) : State :=
  jetInfo (modLink s port (fun l => { l with up := false, trained := false, paused := false, xoff := false })) 0x4011 (srcLink port) []

theorem getLink_linkDropped (s : State) (port : Nat) :
    getLink (linkDropped s port) port = { getLink s port with up := false, trained := false, paused := false, xoff := false } := by
  simp [linkDropped]

/-- On a DISABLED or TENANT link nothing else depends. -/
theorem downLink_up {s : State} {port : Nat} (hu : (getLink s port).up = true) (hr : (linkCfg s port).p.role ≤ 1) :
    downLink s port = linkDropped s port := by
  have hdep : dropDependents (linkDropped s port) port = linkDropped s port := by
    have hrole : (linkCfg (linkDropped s port) port).p.role = (linkCfg s port).p.role := rfl
    unfold dropDependents
    split
    · omega
    · omega
    · rfl
  rw [downLink, if_pos hu]
  exact hdep

theorem downLink_down {s : State} {port : Nat} (h : (getLink s port).up = false) : downLink s port = s := by
  simp [downLink, h]

/-! ### Links and their frames -/

theorem exec_linkUp {s : State} {port : Nat} (hf : fwUp s = true) (hp : port < s.part.ports) (ht : tileUp s (tileOfPort port) = true)
    (hc : s.pins.sdRefclk.getD (tileOfPort port / 2) false = true) (hs : (getLink s port).started = true)
    (hu : (getLink s port).up = false) (hr : (linkCfg s port).p.role ≠ 0) :
    exec (.linkUp port) s =
      .next (settled (jetInfo (setLink s port { getLink s port with up := true, trained := true }) 0x4010 (srcLink port) [])) := by
  show execLinkUp port s = _
  simp [execLinkUp, hf, hp, ht, hc, hs, hu, hr, done_eq, -List.getD_eq_getElem?_getD]

theorem exec_linkDown {s : State} {port : Nat} (hr : running s = true) (hu : (getLink s port).up = true) :
    exec (.linkDown port) s = .next (settled (downLink s port)) := by
  show execLinkDown port s = _
  simp [execLinkDown, hr, hu, done_eq]

/-- FEC errors counted, and a fault raised beyond 100 of them in a second (R353). -/
theorem exec_fecErrorSecond {s : State} {port : Nat} (n : Nat) (hr : running s = true) (hu : (getLink s port).up = true) :
    exec (.fecErrorSecond port n) s = .next (settled (
      if 100 < n then fault0 (modLink s port (fun l => { l with nUncorrectable := l.nUncorrectable + n })) 0x4012 1 (srcLink port)
      else modLink s port (fun l => { l with nUncorrectable := l.nUncorrectable + n }))) := by
  show execFecErrorSecond port n s = _
  simp [execFecErrorSecond, hr, hu, done_eq]

section Ethernet

variable {s : State} {port : Nat} (he : ethernetUp s port = true)

include he

theorem exec_pfcFrame (classes : BitVec 8) (quanta : Nat) :
    exec (.pfcFrame port classes quanta) s = .next (settled (setLink s port { getLink s port with
      nPfcRx := (getLink s port).nPfcRx + 1
      paused := if lossless (linkCfg s port).p && classes.getLsbD (linkCfg s port).p.pcp then decide (0 < quanta)
        else (getLink s port).paused })) := by
  show execPfcFrame port classes quanta s = _
  simp [execPfcFrame, he, done_eq]

end Ethernet

/-- The occupancy of a link's ingress buffer, noted with whether it stands above XOFF (R362). -/
def ingressNoted (s : State) (port k : Nat) (high : Bool) : State :=
  setLink s port { getLink s port with ingressKib := k, xoff := high }

section Lossless

variable {s : State} {port k : Nat} (he : ethernetUp s port = true) (hl : lossless (linkCfg s port).p = true)
  (hk : k ≤ 2048 * lanesOf (linkCfg s port).p.mode)

include he hl hk

/-- At or above XOFF a lossless link sends a full pause (R362). -/
theorem exec_pfcRepeat_high (hx : (linkCfg s port).p.xoff * lanesOf (linkCfg s port).p.mode ≤ k) :
    exec (.pfcRepeat port k) s = .next (settled (sendPfc (ingressNoted s port k true) port 0xFFFF)) := by
  show execPfcRepeat port k s = _
  simp [execPfcRepeat, he, hl, hx, Nat.not_lt.2 hk, Nat.min_eq_left hk, done_eq, ingressNoted, setLink_setLink]

/-- 256 KiB a lane below XOFF the pause ends (R362). -/
theorem exec_pfcRepeat_low (hx : (getLink s port).xoff = true)
    (hlow : k < ((linkCfg s port).p.xoff - 256) * lanesOf (linkCfg s port).p.mode) :
    exec (.pfcRepeat port k) s = .next (settled (sendPfc (ingressNoted s port k false) port 0)) := by
  have hbelow : ¬ (linkCfg s port).p.xoff * lanesOf (linkCfg s port).p.mode ≤ k :=
    Nat.not_le.2 (Nat.lt_of_lt_of_le hlow (Nat.mul_le_mul_right _ (Nat.sub_le _ _)))
  show execPfcRepeat port k s = _
  simp [execPfcRepeat, he, hl, hx, hlow, hbelow, Nat.not_lt.2 hk, Nat.min_eq_left hk, done_eq, ingressNoted, setLink_setLink]

end Lossless

theorem getLink_sendPfc (s : State) (port quanta : Nat) :
    getLink (sendPfc s port quanta) port = { getLink s port with nPfcTx := (getLink s port).nPfcTx + 1 } := by
  simp [sendPfc]

/-- A pause frame is what PFC_REPEAT emits (R362). -/
theorem emits_sendPfc (s : State) (port k quanta : Nat) (high : Bool) :
    Emits s (settled (sendPfc (ingressNoted s port k high) port quanta)) (.pfc port quanta) :=
  Emits.settled List.prefix_rfl rfl

/-! ### Neighbours and echo (R356, R360, R361, R364) -/

theorem exec_neighbourResolve {s : State} {tile port : Nat} {a : BitVec 128} {mac : BitVec 48}
    (hn : (getTile s tile).neighbours.find? (fun e => e.2.1 == a) = some (port, a, mac)) (he : ethernetUp s port = true) :
    exec (.neighbourResolve tile a) s = .next (settled (emit s (neighbourOut s port a))) := by
  show execNeighbourResolve tile a s = _
  simp [execNeighbourResolve, hn, he, done_eq]

/-- A frame that an Ethernet link takes. -/
theorem takeEthernet_taken {s : State} {port : Nat} {c : Carriage} (f : State → State) (he : ethernetUp s port = true)
    (hb : badCarriage (linkCfg s port).p c = none) : takeEthernet s ⟨c, port⟩ f = .next (settled (f s)) := by
  simp [takeEthernet, he, hb, done_eq]

/-- A frame that an Ethernet link discards by the way it came (R361, R364). -/
theorem takeEthernet_discarded {s : State} {port : Nat} {c : Carriage} {cause : Nat} (f : State → State) (he : ethernetUp s port = true)
    (hb : badCarriage (linkCfg s port).p c = some cause) : takeEthernet s ⟨c, port⟩ f = .next (settled (dropFrame s port cause)) := by
  simp [takeEthernet, he, hb, done_eq]

section Taken

variable {s : State} {port : Nat} {c : Carriage} (he : ethernetUp s port = true) (hb : badCarriage (linkCfg s port).p c = none)

include he hb

theorem exec_neighbourDiscovery_request {target : BitVec 128} (sender : BitVec 128) (mac : BitVec 48)
    (ha : (linkAddrs s port).contains target = true) :
    exec (.neighbourDiscovery ⟨c, port⟩ (.request target sender mac)) s =
      .next (settled (emit (countFrame s port) (neighbourOut s port sender))) := by
  show execNeighbourDiscovery ⟨c, port⟩ (.request target sender mac) s = _
  unfold execNeighbourDiscovery
  rw [takeEthernet_taken _ he hb]
  dsimp only
  rw [if_pos ha]

theorem exec_neighbourDiscovery_answer (sender : BitVec 128) (mac : BitVec 48) :
    exec (.neighbourDiscovery ⟨c, port⟩ (.answer sender mac)) s =
      .next (settled (modTile (countFrame s port) (tileOfPort port) (fun t => learn t port sender mac))) := by
  show execNeighbourDiscovery ⟨c, port⟩ (.answer sender mac) s = _
  unfold execNeighbourDiscovery
  rw [takeEthernet_taken _ he hb]

theorem exec_echoRequest (src : BitVec 128) {dst : BitVec 128} (payload : List Byte) (ha : (linkAddrs s port).contains dst = true) :
    exec (.echoRequest ⟨c, port⟩ src dst payload) s =
      .next (settled (emit (countFrame s port) (.echoReply port (linkTag (linkCfg s port).p) dst src payload))) := by
  show execEchoRequest ⟨c, port⟩ src dst payload s = _
  unfold execEchoRequest
  rw [takeEthernet_taken _ he hb, if_pos ha]

end Taken

/-- A message or request that came in a way the link does not take. -/
theorem exec_discarded {s : State} {port cause : Nat} {c : Carriage} {m : NeighbourMsg} {src dst : BitVec 128} {payload : List Byte}
    {i : Instr} (he : ethernetUp s port = true) (hb : badCarriage (linkCfg s port).p c = some cause)
    (hi : i = .neighbourDiscovery ⟨c, port⟩ m ∨ i = .echoRequest ⟨c, port⟩ src dst payload) :
    exec i s = .next (settled (dropFrame s port cause)) := by
  obtain rfl | rfl := hi
  · show execNeighbourDiscovery ⟨c, port⟩ m s = _
    unfold execNeighbourDiscovery
    rw [takeEthernet_discarded _ he hb]
  · show execEchoRequest ⟨c, port⟩ src dst payload s = _
    unfold execEchoRequest
    rw [takeEthernet_discarded _ he hb]

/-- The last `n` of a list with an entry at its end: `n` at most, that entry among them. -/
theorem mem_lastOf_concat {α : Type} (l : List α) (x : α) {n : Nat} (h : 0 < n) :
    x ∈ (l ++ [x]).drop ((l ++ [x]).length - n) ∧ ((l ++ [x]).drop ((l ++ [x]).length - n)).length ≤ n := by
  constructor
  · rw [List.length_append, List.length_singleton, List.drop_append_of_le_length (by omega)]
    simp
  · rw [List.length_drop]
    omega

/-- A neighbour learnt stands in the table, which holds 4,096 at most (R360). -/
theorem mem_learn (t : Tile) (port : Nat) (a : BitVec 128) (mac : BitVec 48) :
    (port, a, mac) ∈ (learn t port a mac).neighbours ∧ (learn t port a mac).neighbours.length ≤ 4096 := by
  have h4096 : 0 < 4096 := by omega
  unfold learn
  dsimp only
  exact mem_lastOf_concat _ _ h4096

/-! ### The lane test (R389) -/

@[simp] theorem getMbx_setLink (s : State) (port : Nat) (x : Link) (mb : Nat) : getMbx (setLink s port x) mb = getMbx s mb := rfl

@[simp] theorem getLink_mbxFinish (s : State) (mb : Nat) (st : Status) (d : Nat) (data : List Byte) (port : Nat) :
    getLink (mbxFinish s mb st d data) port = getLink s port := by
  simp [getLink]

/-- Success on a mailbox whose command was not taken away. -/
theorem getMbx_mbxOk {s : State} {mb : Nat} (data : List Byte) (h : (getMbx s mb).orphan = false) :
    (getMbx (mbxOk s mb data) mb).busy = false ∧
      (getMbx (mbxOk s mb data) mb).resp = { status := 0, cmdId := (getMbx s mb).cmdId, detail := 0, data := data } := by
  simp [mbxOk, mbxFinish, h]

theorem exec_portTestComplete {s : State} {mb port : Nat} (counts : List (Nat × Nat)) (hr : running s = true)
    (hm : (getMbx s mb).running = some (.portTest port)) :
    exec (.portTestComplete mb counts) s =
      .next (settled (mbxOk (setLink s port { getLink s port with test := none }) mb (laneCounts counts))) := by
  show execPortTestComplete mb counts s = _
  simp [execPortTestComplete, hm, hr, done_eq]

/-- Settles O31: each row by its equation, the link, tile or mailbox concerned read back. -/
theorem portRows : Obligations.PortRows := by
  refine ⟨?linkUp, ?linkDown, ?fec, ?fecMany, ?pfc, ?pfcOther, ?pfcHigh, ?pfcLow, ?resolve, ?request, ?answer, ?echo, ?discard, ?test⟩
  case linkUp =>
    intro s port hf hp ht hc hs hu hr
    refine ⟨_, exec_linkUp hf hp ht hc hs hu hr, by simp, by simp, fun q hq => ?_⟩
    simp [getLink_setLink_ne _ _ _ _ hq]
  case linkDown =>
    intro s port hr hu hrole
    have hex := exec_linkDown hr hu
    rw [downLink_up hu hrole] at hex
    exact ⟨_, hex, by simp [getLink_linkDropped], by simp [linkDropped], by simp [linkDropped]⟩
  case fec =>
    intro s port n hr hu hn
    have hex := exec_fecErrorSecond n hr hu
    rw [if_neg (Nat.not_lt.2 hn)] at hex
    exact ⟨_, hex, by simp, by simp⟩
  case fecMany =>
    intro s port n hr hu hn
    exact (exec_fecErrorSecond n hr hu).trans (by rw [if_pos hn])
  case pfc =>
    intro s port q cl he hl hc
    exact ⟨_, exec_pfcFrame he cl q, by simp [hl, hc]⟩
  case pfcOther =>
    intro s port q cl he hc
    exact ⟨_, exec_pfcFrame he cl q, by simp [hc]⟩
  case pfcHigh =>
    intro s port k he hl hx hk
    refine ⟨_, exec_pfcRepeat_high he hl hk hx, ?_, ?_, emits_sendPfc s port k _ true⟩ <;> simp [getLink_sendPfc, ingressNoted]
  case pfcLow =>
    intro s port k he hl hx hlow hk
    refine ⟨_, exec_pfcRepeat_low he hl hk hx hlow, ?_, emits_sendPfc s port k _ false⟩
    simp [getLink_sendPfc, ingressNoted]
  case resolve =>
    intro s tile port a mac hn he
    exact ⟨_, exec_neighbourResolve hn he, by simp, Emits.settled List.prefix_rfl rfl⟩
  case request =>
    intro s port c target sender mac he hb ha
    exact ⟨_, exec_neighbourDiscovery_request he hb sender mac ha, by simp, Emits.settled List.prefix_rfl rfl⟩
  case answer =>
    intro s port c sender mac he hb
    refine ⟨_, exec_neighbourDiscovery_answer he hb sender mac, ?_⟩
    simpa using mem_learn (getTile (countFrame s port) (tileOfPort port)) port sender mac
  case echo =>
    intro s port c src dst payload he hb ha
    refine ⟨_, exec_echoRequest he hb src payload ha, by simp, ?_, Emits.settled List.prefix_rfl rfl⟩
    simp [getLink_countFrame s port (link_of_up (up_of_ethernetUp he))]
  case discard =>
    intro s port cause c m src dst payload i he hb hi
    refine ⟨_, exec_discarded he hb hi, by simp, ?_⟩
    simp [getLink_dropFrame s port cause (link_of_up (up_of_ethernetUp he))]
  case test =>
    intro s mb port counts hr hm ho
    obtain ⟨hbusy, hresp⟩ := getMbx_mbxOk (s := setLink s port { getLink s port with test := none }) (laneCounts counts) ho
    exact ⟨_, exec_portTestComplete counts hr hm, by simp [mbxOk], by simpa using hbusy, by simpa using hresp⟩

end Sys2Proof.Machine
end

section
/-! PROOFS. Frames of a partner link (R379-R386): what every frame meets, the order of LSEQ, then one equation per row. -/

namespace Sys2Proof.Machine

/-! ### Partner links read back -/

@[simp] theorem getPartner_settled (s : State) (l : Nat) : getPartner (settled s) l = getPartner s l := by simp [getPartner]

/-- `t` expects of every partner link the LSEQ that `s` expects. -/
def ExpectKept (s t : State) : Prop := ∀ l, (getPartner t l).expect = (getPartner s l).expect

namespace ExpectKept

variable {s t u : State}

theorem refl (s : State) : ExpectKept s s := fun _ => rfl

theorem trans (h : ExpectKept s t) (k : ExpectKept t u) : ExpectKept s u := fun l => (k l).trans (h l)

/-- `trans`, the later step first. -/
theorem after (k : ExpectKept t u) (h : ExpectKept s t) : ExpectKept s u := h.trans k

theorem foldl {α : Type} (f : State → α → State) (hf : ∀ s a, ExpectKept s (f s a)) (r : List α) (s : State) :
    ExpectKept s (r.foldl f s) := by
  induction r generalizing s with
  | nil => exact .refl s
  | cons a r ih => exact (hf s a).trans (ih (f s a))

theorem of_frame {l : List Piece} (h : Frame l s t) (hl : .partners ∉ l := by decide) : ExpectKept s t := fun k => by
  simp [getPartner, h.partners hl]

theorem modPartner (s : State) (l : Nat) {f : Partner → Partner} (hf : ∀ p, (f p).expect = p.expect) :
    ExpectKept s (modPartner s l f) := fun k => by
  by_cases hk : k = l
  · subst hk; simp [hf]
  · rw [modPartner_eq, getPartner_setPartner_ne _ _ _ _ hk]

end ExpectKept

theorem partnerSend_expect (s : State) (l : Nat) (b : PartnerBody) : ExpectKept s (partnerSend s l b) := fun k => by
  by_cases hk : k = l
  · subst hk; simp
  · rw [getPartner_partnerSend_ne _ _ _ _ hk]

theorem sendRecord_expect (s : State) (l tile : Nat) (r : Rec) : ExpectKept s (sendRecord s l tile r) :=
  .foldl _ (fun t _ => partnerSend_expect t l _) _ s

theorem resumeMirror_expect (s : State) (l pool : Nat) : ExpectKept s (resumeMirror s l pool) := by
  unfold resumeMirror
  refine .after (.of_frame (jetInfo_Frame _ _ _ _)) (.after (.of_frame (writeHeader_Frame _ _ _)) (.after (.of_frame (setPool_Frame _ _ _)) ?_))
  exact .foldl _ (fun t _ => .foldl _ (fun u _ => sendRecord_expect u l _ _) _ t) _ s

theorem partnerGood_expect (s : State) (l : Nat) : ExpectKept s (partnerGood s l) := by
  unfold partnerGood
  refine .after (.foldl _ (fun t _ => resumeMirror_expect t l _) _ _) ?_
  split
  · exact .refl s
  · exact .after (.of_frame (jetInfo_Frame _ _ _ _)) (.modPartner s l (fun _ => rfl))

/-- LACK taken changes of the link only the frames under way. -/
theorem getPartner_takeLack (s : State) (l : Nat) (lack : W32) :
    ∃ u, getPartner (takeLack s l lack) l = { getPartner s l with unacked := u } := by
  unfold takeLack
  dsimp only
  split <;> exact ⟨_, getPartner_setPartner_self _ _ _⟩

theorem takeLack_expect (s : State) (l : Nat) (lack : W32) : ExpectKept s (takeLack s l lack) := by
  unfold takeLack
  dsimp only
  split
  · exact .after (.of_frame (emits_Frame _ _)) (.modPartner s l (fun _ => rfl))
  · exact .modPartner s l (fun _ => rfl)

/-- A good frame leaves the LSEQ expected as it was, whatever it brings (R380). -/
theorem partnerMet_expect (s : State) (h : PartnerHdr) (l : Nat) : ExpectKept s (partnerMet s h l) :=
  (ExpectKept.of_frame (countFrame_Frame s h.port)).trans ((partnerGood_expect _ l).trans (takeLack_expect _ l h.lack))

/-! ### What every frame meets (R379, R380) -/

section Met

variable {s : State} {h : PartnerHdr} {l type : Nat} {body : List Byte}

theorem takeFrame_good (hin : PartnerIn s h l type body) : takeFrame s h type body = (partnerMet s h l, some l) := by
  obtain ⟨hr, ht, hl, hw, hty, hc, c, hp, hs⟩ := hin
  simp [takeFrame, hr, ht, hl, hw, hty, hc, hp, hs, partnerMet]

variable {c : PartnerCfg} (hl : linkAt s h.port = some l) (hp : Tab.get? s.cfg.partners l = some c) (hr : running s = true)
  (ht : tileUp s (tileOfPort h.port) = true) (hw : partnerWired s l = true) (hty : h.type = type)

include hl hp hr ht hw hty

theorem takeFrame_badCrc (hc : h.crcGood body = false) :
    takeFrame s h type body = (emit (countFrame s h.port) (partnerPlain (countFrame s h.port) l 2), none) := by
  simp [takeFrame, hr, ht, hl, hw, hty, hc, hp]

theorem takeFrame_stranger (hc : h.crcGood body = true) (hs : h.sender ≠ c.identity) :
    takeFrame s h type body = (partnerDown (countFrame s h.port) l, none) := by
  simp [takeFrame, hr, ht, hl, hw, hty, hc, hp, hs]

end Met

/-- The first good frame on a link over which no pool is mirrored: the link is up, and that is all (R380). -/
theorem partnerGood_first {s : State} {l : Nat} (hu : (getPartner s l).up = false) (hp : poolsOn s l = []) :
    partnerGood s l = jetInfo (modPartner s l (fun p => { p with up := true })) 0x2021 (srcPartner l) [] := by
  have hq : poolsOn (jetInfo (modPartner s l (fun p => { p with up := true })) 0x2021 (srcPartner l) []) l = [] := hp
  simp only [partnerGood, hu, Bool.false_eq_true, if_false, hq, List.filter_nil, List.foldl_nil]

theorem partnerMet_up {s : State} {h : PartnerHdr} {l : Nat} (hu : (getPartner s l).up = false) (hp : poolsOn s l = []) :
    (getPartner (partnerMet s h l) l).up = true := by
  obtain ⟨u, hlack⟩ := getPartner_takeLack (partnerGood (countFrame s h.port) l) l h.lack
  rw [partnerMet, hlack, partnerGood_first (s := countFrame s h.port) hu hp]
  exact congrArg Partner.up (getPartner_setPartner_self _ _ _)

/-! ### The order of LSEQ (R380) -/

/-- No number comes both before and after another. -/
theorem not_seqBefore_of_seqBefore {a b : W32} (h : seqBefore a b = true) : seqBefore b a = false := by
  simp only [seqBefore, Bool.and_eq_true, decide_eq_true_eq, bne_iff_ne] at h
  obtain ⟨hlt, hne⟩ := h
  have hge : ¬ (a - b).toNat < 2 ^ 31 := by bv_omega
  rw [seqBefore, decide_eq_false hge, Bool.false_and]

theorem ne_of_seqBefore {a b : W32} (h : seqBefore a b = true) : a ≠ b := by
  simp only [seqBefore, Bool.and_eq_true, bne_iff_ne] at h
  exact h.2

section Sequenced

variable {s : State} {h : PartnerHdr} {l : Nat} {b : PartnerBody} (f : State → Nat → State)
  (hin : PartnerIn s h l (partnerBytes b).1 (partnerBytes b).2)

include hin

theorem takeSeq_inTurn (hq : h.lseq = (getPartner s l).expect) : takeSeq s h b f = .next (settled (f (partnerTurn s h l) l)) := by
  have he := partnerMet_expect s h l l
  simp only [takeSeq, takeFrame_good hin, he]
  rw [if_pos hq]
  rfl

/-- A gap is answered by NACK. -/
theorem takeSeq_gap (hq : seqBefore (getPartner s l).expect h.lseq = true) :
    takeSeq s h b f = .next (settled (emit (partnerMet s h l) (partnerPlain (partnerMet s h l) l 2))) := by
  have he := partnerMet_expect s h l l
  simp only [takeSeq, takeFrame_good hin, he]
  rw [if_neg (ne_of_seqBefore hq).symm, if_pos hq]
  rfl

/-- A repetition is dropped. -/
theorem takeSeq_repeated (hq : seqBefore h.lseq (getPartner s l).expect = true) :
    takeSeq s h b f = .next (settled (partnerMet s h l)) := by
  have he := partnerMet_expect s h l l
  simp only [takeSeq, takeFrame_good hin, he]
  rw [if_neg (ne_of_seqBefore hq), if_neg (by simp [not_seqBefore_of_seqBefore hq])]
  rfl

end Sequenced

/-! ### The rows -/

section Rows

variable (s : State) (h : PartnerHdr)

theorem exec_hello : exec (.hello h) s = .next (settled (takeFrame s h 1 []).1) := rfl

theorem exec_poolOffer (pool : Nat) (d : PoolDesc) :
    exec (.poolOffer h pool d) s = takeSeq s h (.offer pool d) (fun s l => offerTaken s l pool d) := rfl

theorem exec_poolReply (pool r : Nat) :
    exec (.poolReply h pool r) s = takeSeq s h (.reply pool r) (fun s l => replyTaken s l pool r) := rfl

theorem exec_poolWithdraw (pool : Nat) :
    exec (.poolWithdraw h pool) s = takeSeq s h (.withdraw pool) (fun s l => withdrawTaken s l pool) := rfl

theorem exec_record (q fo o : Nat) (last : Bool) (r : Rec) :
    exec (.record h q fo o last r) s =
      takeSeq s h (.record q o fo last r) (fun s l => if last then storePartner s l q o r else s) := rfl

theorem exec_confirm (q o r : Nat) :
    exec (.confirm h q o r) s = takeSeq s h (.confirm q o r) (fun s l => confirmed s l o q r) := rfl

theorem exec_release (pool : Nat) (hds : List PoolHeader) :
    exec (.release h pool hds) s = takeSeq s h (.release pool) (fun s l => releaseTaken s l pool hds) := rfl

theorem exec_releaseAck (pool r : Nat) :
    exec (.releaseAck h pool r) s = takeSeq s h (.releaseAck pool r) (fun s l => releaseEnd s l pool r) := rfl

end Rows

/-- Each row of a sequenced frame takes it in LSEQ order (R380). -/
theorem exec_seqRow {c : Instr} {h : PartnerHdr} {b : PartnerBody} (hc : SeqRow c h b) (s : State) :
    ∃ f, exec c s = takeSeq s h b f := by
  rcases hc with ⟨pool, d, rfl, rfl⟩ | ⟨pool, r, rfl, rfl⟩ | ⟨pool, rfl, rfl⟩ | ⟨q, fo, o, last, r, rfl, rfl⟩ | ⟨q, o, r, rfl, rfl⟩ |
    ⟨pool, hds, rfl, rfl⟩ | ⟨pool, r, rfl, rfl⟩
  · exact ⟨_, exec_poolOffer s h pool d⟩
  · exact ⟨_, exec_poolReply s h pool r⟩
  · exact ⟨_, exec_poolWithdraw s h pool⟩
  · exact ⟨_, exec_record s h q fo o last r⟩
  · exact ⟨_, exec_confirm s h q o r⟩
  · exact ⟨_, exec_release s h pool hds⟩
  · exact ⟨_, exec_releaseAck s h pool r⟩

/-- HELLO brings nothing but what every good frame does. -/
theorem exec_hello_good {s : State} {h : PartnerHdr} {l : Nat} (hin : PartnerIn s h l 1 []) :
    exec (.hello h) s = .next (settled (partnerMet s h l)) := by
  rw [exec_hello, takeFrame_good hin]

theorem exec_nack {s : State} {h : PartnerHdr} {l : Nat} (hin : PartnerIn s h l 2 []) :
    exec (.nack h) s = .next (settled (resendFrom (partnerMet s h l) l h.lack)) := by
  show execNack h s = _
  simp only [execNack, takeFrame_good hin]
  rfl

/-- Settles O32: each row by its equation; the sequenced ones by what the order of LSEQ makes of them. -/
theorem partnerFrameRows : Obligations.PartnerFrameRows := by
  refine ⟨?hello, ?good, ?first, ?badCrc, ?stranger, ?nack, ?offer, ?reply, ?withdraw, ?record, ?fragment, ?confirm, ?release, ?releaseAck,
    ?gap, ?repeated⟩
  case hello => exact exec_hello
  case good => exact fun s h l hin => exec_hello_good hin
  case first =>
    intro s h l hin hu hp _
    exact ⟨_, exec_hello_good hin, by simp [partnerMet_up hu hp], by simp [partnerMet_expect s h l l]⟩
  case badCrc =>
    intro s h l c hl hp hr ht hw hty hc
    have hex := exec_hello s h
    rw [takeFrame_badCrc hl hp hr ht hw hty hc] at hex
    exact ⟨_, hex, by simp, Emits.settled List.prefix_rfl rfl⟩
  case stranger =>
    intro s h l c hl hp hr ht hw hty hc hs
    rw [exec_hello, takeFrame_stranger hl hp hr ht hw hty hc hs]
  case nack => exact fun s h l hin => exec_nack hin
  case offer => exact fun s h l pool d hin hq => (exec_poolOffer s h pool d).trans (takeSeq_inTurn _ hin hq)
  case reply => exact fun s h l pool r hin hq => (exec_poolReply s h pool r).trans (takeSeq_inTurn _ hin hq)
  case withdraw => exact fun s h l pool hin hq => (exec_poolWithdraw s h pool).trans (takeSeq_inTurn _ hin hq)
  case record => exact fun s h l q fo o r hin hq => (exec_record s h q fo o true r).trans (takeSeq_inTurn _ hin hq)
  case fragment => exact fun s h l q fo o r hin hq => (exec_record s h q fo o false r).trans (takeSeq_inTurn _ hin hq)
  case confirm => exact fun s h l q o r hin hq => (exec_confirm s h q o r).trans (takeSeq_inTurn _ hin hq)
  case release => exact fun s h l pool hds hin hq => (exec_release s h pool hds).trans (takeSeq_inTurn _ hin hq)
  case releaseAck => exact fun s h l pool r hin hq => (exec_releaseAck s h pool r).trans (takeSeq_inTurn _ hin hq)
  case gap =>
    intro s c h l b hc hin hq
    obtain ⟨f, hex⟩ := exec_seqRow hc s
    exact hex.trans (takeSeq_gap f hin hq)
  case repeated =>
    intro s c h l b hc hin hq
    obtain ⟨f, hex⟩ := exec_seqRow hc s
    exact hex.trans (takeSeq_repeated f hin hq)

end Sys2Proof.Machine
end

section
/-! PROOFS. Timers of a partner link, leases and imports (R380, R383-R386): one equation per row, then what each leaves. -/

namespace Sys2Proof.Machine

/-! ### Timers of a link (R380) -/

/-- What is sent again from the oldest frame under way: that frame first. -/
theorem resendFrom_oldest {s : State} {l : Nat} {f : W32 × PartnerBody} {r : List (W32 × PartnerBody)}
    (hu : (getPartner s l).unacked = f :: r) (hw : partnerWired s l = true) :
    ∃ os, resendFrom s l f.1 = emits s (partnerOut s l f :: os) := by
  have hself : seqBefore f.1 f.1 = false := by simp [seqBefore]
  exact ⟨((r.take 511).filter (fun x => !seqBefore x.1 f.1)).map (partnerOut s l), by simp [resendFrom, hw, hu, hself]⟩

theorem exec_partnerResendTimer {s : State} {l : Nat} {f : W32 × PartnerBody} {r : List (W32 × PartnerBody)}
    (hu : (getPartner s l).unacked = f :: r) (hr : running s = true) (hw : partnerWired s l = true) :
    exec (.partnerResendTimer l) s = .next (settled (resendFrom s l f.1)) := by
  show execPartnerResendTimer l s = _
  simp [execPartnerResendTimer, hu, hr, hw, done_eq]

theorem exec_helloSend {s : State} {l : Nat} (hr : running s = true) (hw : partnerWired s l = true) :
    exec (.helloSend l) s = .next (settled (emit s (partnerPlain s l 1))) := by
  show execHelloSend l s = _
  simp [execHelloSend, hr, hw, done_eq]

theorem exec_partnerLinkTimeout {s : State} {l : Nat} (hr : running s = true) (hu : (getPartner s l).up = true) :
    exec (.partnerLinkTimeout l) s =
      .next (settled (fault0 (modPartner s l (fun p => { p with up := false })) 0x2020 1 (srcPartner l))) := by
  show execPartnerLinkTimeout l s = _
  simp [execPartnerLinkTimeout, hr, hu, done_eq, partnerDown]

/-! ### Leases (R383, R384) -/

theorem getPool_fault (s : State) (a : FaultArg) (pool : Nat) : getPool (fault s a) pool = getPool s pool := by simp [getPool]

theorem getPool_mbxFinish (s : State) (mb : Nat) (st : Status) (d : Nat) (data : List Byte) (pool : Nat) :
    getPool (mbxFinish s mb st d data) pool = getPool s pool := by simp [getPool]

/-- The owner that a renewal found, and whether it counts as made (R383). -/
def ownerFound (s : State) (pool n : Nat) (o : BitVec 64) : State :=
  modPool s pool (fun p => { p with owner := o, leaseOk := decide (2 ≤ n) && o == Config.identity })

/-- A change of a pool that keeps its failed indices keeps its metadata members (R248). -/
theorem metaMembers_setPool {s : State} {pool : Nat} {x : Pool} (h : x.failList = (getPool s pool).failList) :
    metaMembers (setPool s pool x) pool = metaMembers s pool := by
  simp [metaMembers, liveIx, h, poolCfg, poolCfg?]

section Lease

variable {s : State} {pool : Nat} (hs : serving s = true) (hl : leased s pool = true)

include hs hl

theorem exec_leaseRenewal_own (n : Nat) {o : BitVec 64} (ho : o = Config.identity) :
    exec (.leaseRenewal pool n o) s = .next (settled (writeHeader (modPool (ownerFound s pool n o) pool
      (fun p => { p with lease := p.lease + 1 })) pool (metaMembers s pool))) := by
  have hm : metaMembers (ownerFound s pool n o) pool = metaMembers s pool := metaMembers_setPool rfl
  show execLeaseRenewal pool n o s = _
  rw [← hm]
  simp only [execLeaseRenewal, hs, hl, ho, if_true]
  rfl

theorem exec_leaseRenewal_other (n : Nat) {o : BitVec 64} (ho : o ≠ Config.identity) :
    exec (.leaseRenewal pool n o) s = .next (settled (ownerFound s pool n o)) := by
  show execLeaseRenewal pool n o s = _
  simp only [execLeaseRenewal, hs, hl, ho, if_false]
  rfl

theorem exec_leaseLoss (ho : (getPool s pool).leaseOk = false) :
    exec (.leaseLoss pool) s = .next (settled (fault (modPool (poolOffline s pool) pool (fun p =>
      { p with disowned := p.owner != Config.identity })) { code := 0x2024, cls := 3, src := srcPool pool, acted := true })) := by
  show execLeaseLoss pool s = _
  simp only [execLeaseLoss, hs, hl, ho]
  rfl

end Lease

/-- A pool's own state once it is offline. -/
def offlinePool (p : Pool) : Pool :=
  { p with st := .offline, work := none, copyWork := none, scrubWork := none, scrubbing := false, repairs := [], interlockWait := []
           recopying := if p.mirrorLost.length = 1 then [] else p.recopying }

/-- A pool and its volumes offline. -/
def volsOffline (s : State) (pool : Nat) : State :=
  (volsOfPool s pool).foldl (fun s v => modVol s v (fun x => { x with st := .offline })) (setPool s pool (offlinePool (getPool s pool)))

theorem volsOffline_Frame (s : State) (pool : Nat) :
    Frame [.vols] (setPool s pool (offlinePool (getPool s pool))) (volsOffline s pool) :=
  .foldl _ (fun t v => setVol_Frame t v _) _ _

/-- The rows a pool is working on. -/
def rowWorks (p : Pool) : List RowWork := p.work.toList ++ p.copyWork.toList ++ p.scrubWork.toList

/-- The reads for a list of rows given up. -/
def readsEnded (s : State) (ws : List RowWork) : State := (ws.filterMap (·.fetch)).foldl endFetch s

/-- The writes of an offline pool that were held back are dropped. -/
def heldDropped (s : State) (pool : Nat) : State := { s with mcmds := s.mcmds.filter (fun m => m.pool != pool || !heldWrite m) }

/-- The interlocks of a list of rows released. -/
def rowsFreed (s : State) (pool : Nat) (ws : List RowWork) : State := ws.foldl (fun s w => releaseRow s pool w.row) s

/-- The destages of a pool given up. -/
def destagesDropped (s : State) (pool : Nat) : State := (s.destages.filter (fun d => d.pool == pool)).foldl (fun s d => cancelDestage s d.id) s

/-- The commands of an offline pool ended. -/
def cmdsEnded (s : State) (pool : Nat) : State := (s.cmds.filter (fun c => (volCfg s c.vol).pool == pool)).foldl offlineCmd s

/-- What a pool's going offline does, step by step (R218, R384). -/
theorem poolOffline_eq (s : State) (pool : Nat) :
    poolOffline s pool = cmdsEnded (destagesDropped (rowsFreed (heldDropped (readsEnded (volsOffline s pool)
      (rowWorks (getPool s pool))) pool) pool (rowWorks (getPool s pool))) pool) pool := rfl

theorem destagesDropped_of_none {s : State} (pool : Nat) (h : s.destages = []) : destagesDropped s pool = s := by simp [destagesDropped, h]

theorem cmdsEnded_of_none {s : State} (pool : Nat) (h : s.cmds = []) : cmdsEnded s pool = s := by simp [cmdsEnded, h]

/-- A pool with no row worked on, no destage and no command goes offline: its own state (R384). -/
theorem getPool_poolOffline_idle {s : State} {pool : Nat} (hw : rowWorks (getPool s pool) = []) (hc : s.cmds = []) (hd : s.destages = []) :
    getPool (poolOffline s pool) pool = offlinePool (getPool s pool) := by
  have hdest : (heldDropped (volsOffline s pool) pool).destages = [] := ((volsOffline_Frame s pool).destages (by simp)).trans hd
  have hcmds : (heldDropped (volsOffline s pool) pool).cmds = [] := ((volsOffline_Frame s pool).cmds (by simp)).trans hc
  have hidle : poolOffline s pool = heldDropped (volsOffline s pool) pool := by
    rw [poolOffline_eq, hw]
    exact (congrArg (cmdsEnded · pool) (destagesDropped_of_none pool hdest)).trans (cmdsEnded_of_none pool hcmds)
  have hpools : (heldDropped (volsOffline s pool) pool).pools = (setPool s pool (offlinePool (getPool s pool))).pools :=
    (volsOffline_Frame s pool).pools (by simp)
  rw [hidle, getPool, hpools]
  exact getPool_setPool_self s pool _

/-! ### Imports (R385, R386) -/

/-- The newest of a list of headers, beside the best so far, is one of them. -/
def newer (best : Option PoolHeader) (h : PoolHeader) : Option PoolHeader :=
  match best with
  | some b => if b.gen < h.gen then some h else some b
  | none => some h

theorem newer_eq (best : Option PoolHeader) (h : PoolHeader) : newer best h = some h ∨ newer best h = best := by
  cases best with
  | none => exact .inl rfl
  | some b =>
    unfold newer
    dsimp only
    split
    · exact .inl rfl
    · exact .inr rfl

theorem crcGood_of_foldl_newer {hds : List PoolHeader} (hg : ∀ h ∈ hds, h.crcGood = true) {best : Option PoolHeader}
    (hb : ∀ h, best = some h → h.crcGood = true) {hd : PoolHeader} (hf : hds.foldl newer best = some hd) : hd.crcGood = true := by
  induction hds generalizing best with
  | nil => exact hb hd hf
  | cons x r ih =>
    refine ih (fun h hm => hg h (List.mem_cons_of_mem _ hm)) (fun h hh => ?_) hf
    rcases newer_eq best x with hx | hx
    · rw [hx, Option.some.injEq] at hh
      exact hh ▸ hg x List.mem_cons_self
    · exact hb h (hx ▸ hh)

/-- The newest header passes its CRC (R248). -/
theorem crcGood_of_newestHeader {hds : List PoolHeader} {hd : PoolHeader} (h : newestHeader hds = some hd) : hd.crcGood = true :=
  crcGood_of_foldl_newer (best := none) (fun _ hm => (List.mem_filter.1 hm).2) (by simp) h

theorem reserved_of_reservedDown {s : State} {pool l : Nat} (h : reservedDown s pool = some l) : (poolCfg s pool).reserved = some l := by
  unfold reservedDown at h
  split at h
  · next k hk =>
    split at h
    · cases h
    · rw [hk, h]
  · cases h

theorem exec_autoImport {s : State} {pool l : Nat} {c : PartnerCfg} {hds : List PoolHeader} {hd : PoolHeader} (hs : serving s = true)
    (hr : reservedDown s pool = some l) (hc : Tab.get? s.cfg.partners l = some c) (ha : c.autoImport = true)
    (hi : (getPool s pool).importHdr = none) (hn : newestHeader hds = some hd) :
    exec (.autoImport pool hds) s = .next (settled (setPool s pool { getPool s pool with importHdr := some hd, importMb := none })) := by
  show execAutoImport pool hds s = _
  simp [execAutoImport, hs, hr, hc, ha, hi, hn, done_eq]

/-- The header read again names the same owner and lease as before (R385). -/
def sameHolder (h0 hd : PoolHeader) : Bool := h0.crcGood && h0.owner == hd.owner && h0.lease == hd.lease

section Check

variable {s : State} {pool : Nat} {hds : List PoolHeader} {h0 hd : PoolHeader} (hs : serving s = true)
  (hi : (getPool s pool).importHdr = some h0) (hn : newestHeader hds = some hd)

include hs hi hn

/-- The check of an import that a link's loss began. -/
theorem exec_importCheck_auto (hm : (getPool s pool).importMb = none) (hr : (reservedDown s pool).isSome = true) :
    exec (.importCheck pool hds) s = .next (settled (
      if sameHolder h0 hd then importPool s pool hd else modPool s pool (fun p => { p with importHdr := some hd }))) := by
  obtain ⟨l, hl⟩ := Option.isSome_iff_exists.1 hr
  show execImportCheck pool hds s = _
  simp only [execImportCheck, hi, hs, reserved_of_reservedDown hl, hm, hl, hn, Option.getD_some, crcGood_of_newestHeader hn, Option.isSome_some,
    Option.isNone_some, Bool.and_true, Bool.not_true, Bool.false_eq_true, if_false, ← apply_ite done]
  rfl

/-- The check of a host's import finds another holder: the command fails (R385). -/
theorem exec_importCheck_changed {mb : Nat} (hm : (getPool s pool).importMb = some mb) (hr : (poolCfg s pool).reserved.isSome = true)
    (hh : sameHolder h0 hd = false) :
    exec (.importCheck pool hds) s = .next (settled (mbxFinish
      (modPool s pool (fun p => { p with importHdr := none, importMb := none })) mb 0x0102 0 [])) := by
  unfold sameHolder at hh
  show execImportCheck pool hds s = _
  simp only [execImportCheck, hi, hs, hr, hm, hn, Option.getD_some, crcGood_of_newestHeader hn, hh, Bool.and_true, Bool.not_true,
    Bool.false_eq_true, if_false]
  rfl

end Check

/-- Settles O34: each row by its equation, the pool or mailbox concerned read back. -/
theorem partnerTimerRows : Obligations.PartnerTimerRows := by
  refine ⟨?resend, ?hello, ?timeout, ?renewed, ?otherOwner, ?lost, ?lostIdle, ?auto, ?imported, ?leaseMoved, ?hostChanged⟩
  case resend =>
    intro s l f r hu hr hw
    obtain ⟨os, hos⟩ := resendFrom_oldest hu hw
    refine ⟨_, exec_partnerResendTimer hu hr hw, ?_, ?_⟩
    · simp [hos]
    · obtain ⟨o, ho⟩ := settled_out (resendFrom s l f.1)
      exact ⟨os ++ o, by rw [ho, hos]; simp [emits]⟩
  case hello =>
    intro s l hr hw
    exact ⟨_, exec_helloSend hr hw, by simp, Emits.settled List.prefix_rfl rfl⟩
  case timeout => exact fun s l hr hu => exec_partnerLinkTimeout hr hu
  case renewed => exact fun s pool n o hs hl ho => exec_leaseRenewal_own hs hl n ho
  case otherOwner =>
    intro s pool n o hs hl ho
    refine ⟨_, exec_leaseRenewal_other hs hl n ho, ?_, ?_, ?_⟩ <;> simp [ownerFound, getPool_settled, ho]
  case lost => exact fun s pool hs hl ho => exec_leaseLoss hs hl ho
  case lostIdle =>
    intro s pool hs hl ho hc hd hw hcw hsw
    have hoff := getPool_poolOffline_idle (s := s) (pool := pool) (by simp [rowWorks, hw, hcw, hsw]) hc hd
    refine ⟨_, exec_leaseLoss hs hl ho, ?_, ?_⟩ <;> simp [getPool_settled, getPool_fault, hoff, offlinePool]
  case auto =>
    intro s pool l c hds hd hs hr hc ha hi hn
    refine ⟨_, exec_autoImport hs hr hc ha hi hn, ?_, ?_, ?_⟩ <;> simp [getPool_settled]
  case imported =>
    intro s pool hds h0 hd hs hi hm hr hg hn ho hle
    have hex := exec_importCheck_auto hs hi hn hm hr
    rwa [if_pos (by simp [sameHolder, hg, ho, hle])] at hex
  case leaseMoved =>
    intro s pool hds h0 hd hs hi hm hr hn hle
    have hex := exec_importCheck_auto hs hi hn hm hr
    rw [if_neg (by simp [sameHolder, hle])] at hex
    refine ⟨_, hex, ?_, ?_⟩ <;> simp [getPool_settled]
  case hostChanged =>
    intro s pool mb hds h0 hd hs hi hm hr hn ho horph
    obtain ⟨hst, hbusy⟩ := getMbx_mbxFinish (s := modPool s pool (fun p => { p with importHdr := none, importMb := none })) (mb := mb)
      0x0102 0 [] horph
    refine ⟨_, exec_importCheck_changed hs hi hn hm hr (by simp [sameHolder, ho]), ?_, by simpa using hst, by simpa using hbusy, by simp⟩
    simp [getPool_settled, getPool_mbxFinish]

end Sys2Proof.Machine
end

section
/-! PROOFS. The port and partner commands of the mailbox (R357, R358, R378, R381, R385, R389): one equation per command, then what
each leaves. -/

namespace Sys2Proof.Machine

/-! ### What the commands read and change -/

@[simp] theorem getLink_mbxTake (s : State) (g : Go) (objs : List (Nat × Nat)) (r : Option Running) (port : Nat) :
    getLink (mbxTake s g objs r) port = getLink s port := by simp [getLink]

@[simp] theorem linkCfg_mbxTake (s : State) (g : Go) (objs : List (Nat × Nat)) (r : Option Running) (port : Nat) :
    linkCfg (mbxTake s g objs r) port = linkCfg s port := by simp [linkCfg]

@[simp] theorem getPartner_mbxTake (s : State) (g : Go) (objs : List (Nat × Nat)) (r : Option Running) (l : Nat) :
    getPartner (mbxTake s g objs r) l = getPartner s l := by simp [getPartner]

theorem getLink_mbxPark (s : State) (mb : Nat) (r : Running) (data : List Byte) (port : Nat) :
    getLink (mbxPark s mb r data) port = getLink s port := rfl

theorem getPartner_mbxPark (s : State) (mb : Nat) (r : Running) (data : List Byte) (l : Nat) :
    getPartner (mbxPark s mb r data) l = getPartner s l := rfl

theorem getLink_mbxStore (s : State) (mb : Nat) (data : List Byte) (port : Nat) : getLink (mbxStore s mb data) port = getLink s port := rfl

theorem mbxOk_mbxTake_links (s : State) (g : Go) (objs : List (Nat × Nat)) (data : List Byte) :
    (settled (mbxOk (mbxTake s g objs none) g.mb data)).links = s.links := by
  simp [mbxOk]

theorem mbxOk_mbxTake_partners (s : State) (g : Go) (objs : List (Nat × Nat)) (data : List Byte) :
    (settled (mbxOk (mbxTake s g objs none) g.mb data)).partners = s.partners := by
  simp [mbxOk]

/-- A port of the part that lies inside no other link passes its check. -/
theorem portNamed_clear {s : State} {port : Nat} (hp : port < s.part.ports) (ho : heldByOther s port port = false) :
    (portNamed s port).fails = false := by
  simp [portNamed, need, hp, ho]

theorem getLink_setStarted (s : State) (port : Nat) (on : Bool) :
    getLink (setStarted s port on) port = { getLink s port with started := on } :=
  getLink_setLink_self _ _ _

theorem linkCfg_setStarted (s : State) (port : Nat) (on : Bool) :
    linkCfg (setStarted s port on) port = { linkCfg s port with started := on } := by
  simp [setStarted, linkCfg, Tab.get?_set_self]

/-- An Ethernet link that goes down, or was down, changes no mailbox. -/
theorem downLink_ethernet {s : State} {port : Nat} (hr : (linkCfg s port).p.role ≤ 1) :
    (getLink (downLink s port) port).up = false ∧ (downLink s port).mbx = s.mbx := by
  cases hu : (getLink s port).up with
  | true =>
    rw [downLink_up hu hr, getLink_linkDropped]
    exact ⟨rfl, rfl⟩
  | false =>
    rw [downLink_down hu]
    exact ⟨hu, rfl⟩

/-- A contained partner link on a port works again (R357). -/
def partnerReleased (s : State) (port : Nat) : State :=
  match linkAt s port with
  | some l => modPartner s l (fun p => { p with stopped := false })
  | none => s

theorem partnerReleased_Frame (s : State) (port : Nat) : Frame [.partners] s (partnerReleased s port) := by
  unfold partnerReleased
  split
  · exact setPartner_Frame _ _ _
  · exact .refl _ _

/-! ### The port commands (R357, R358, R389) -/

theorem exec_portConfig {s : State} {g : Go} {p : PortParams} (h : GoReady s g false 64 [objLink p.port])
    (hf : (portFields p).all (fun f => !f.2) = true) (hc : (portChecks s p).all (fun c => !c.fails) = true)
    (hs : (getLink s p.port).started = false) (ht : (getLink s p.port).test = none) :
    exec (.portConfig g p) s = .next (settled (mbxStore { mbxTake s g [objLink p.port] none with
      cfg := { s.cfg with
        links := Tab.set (s.cfg.links.filter (fun e => e.1 == p.port || !(groupPorts p).contains e.1)) p.port
          { p := p, started := false } } } g.mb [])) := by
  show execPortConfig g p s = _
  unfold execPortConfig
  rw [mbxRun_clear _ _ _ _ h rfl hf]
  · simp [done_eq]
  · rw [List.all_append, hc]
    simp [needStopped, needFree, linkStopped, hs, ht]

theorem exec_portStop_other {s : State} {g : Go} {port : Nat} (h : GoReady s g false 3 [objLink port]) (hp : port < s.part.ports)
    (ho : heldByOther s port port = false) (hr : (linkCfg s port).p.role ≠ 1) :
    exec (.portStop g port) s =
      .next (settled (mbxStore (setStarted (downLink (mbxTake s g [objLink port] none) port) port false) g.mb [])) := by
  show execPortStop g port s = _
  unfold execPortStop
  rw [mbxRun_clear _ _ _ _ h rfl rfl (by simp [portNamed_clear hp ho])]
  simp only [linkCfg_mbxTake, if_neg hr, done_eq]

theorem exec_portStop_tenant {s : State} {g : Go} {port : Nat} (h : GoReady s g false 3 [objLink port]) (hp : port < s.part.ports)
    (ho : heldByOther s port port = false) (hr : (linkCfg s port).p.role = 1) :
    exec (.portStop g port) s = .next (settled (mbxStore (setStarted (downLink
      (((s.sbt.conns.filter (fun c => c.port == port)).map connIdOf).foldl (fun u id => closeConn u id 2) (mbxTake s g [objLink port] none))
      port) port false) g.mb [])) := by
  show execPortStop g port s = _
  unfold execPortStop
  rw [mbxRun_clear _ _ _ _ h rfl rfl (by simp [portNamed_clear hp ho])]
  simp only [linkCfg_mbxTake, if_pos hr, mbxTake_sbt, done_eq]

theorem exec_portStart {s : State} {g : Go} {port : Nat} (h : GoReady s g false 3 [objLink port]) (hp : port < s.part.ports)
    (ho : heldByOther s port port = false) (ht : (getLink s port).test = none) :
    exec (.portStart g port) s =
      .next (settled (mbxStore (setStarted (partnerReleased (mbxTake s g [objLink port] none) port) port true) g.mb [])) := by
  show execPortStart g port s = _
  unfold execPortStart
  rw [mbxRun_clear _ _ _ _ h rfl rfl (by simp [portNamed_clear hp ho, needFree, ht])]
  rfl

theorem exec_portStatus {s : State} {g : Go} {port : Nat} (h : GoReady s g false 2 []) (hp : port < s.part.ports)
    (ho : heldByOther s port port = false) :
    exec (.portStatus g port) s = .next (settled (mbxOk (mbxTake s g [] none) g.mb
      (leBytes 1 (if (getLink s port).started = false then 0 else if (getLink s port).up = true then 2 else 1) ++
        leBytes 1 (linkCfg s port).p.mode ++ leBytes 1 (getLink s port).trained.toNat ++ leBytes 1 0 ++
        leBytes 2 (getTile s (tileOfPort port)).neighbours.length ++ leBytes 2 0 ++ leBytes 8 Config.baseMac.toNat))) := by
  show execPortStatus g port s = _
  unfold execPortStatus
  rw [mbxRun_clear _ _ _ _ h rfl rfl (by simp [portNamed_clear hp ho])]
  simp only [done_eq, getLink_mbxTake, linkCfg_mbxTake, getTile_mbxTake, Bool.not_eq_true']

theorem length_linkCounts (fec : Nat) (l : Link) : (linkCounts fec l).length = 11 := by simp [linkCounts]

/-- The counts of a set of links, each added up (Table 8-7). -/
def countsSum (fec : Nat) (ls : List Link) : List Nat :=
  (List.range 11).map (fun i => (ls.map (fun l => (linkCounts fec l).getD i 0)).foldl (· + ·) 0)

theorem countsSum_singleton (fec : Nat) (l : Link) : countsSum fec [l] = linkCounts fec l := by
  refine List.ext_getElem (by simp [countsSum, length_linkCounts]) fun i _ hi => ?_
  simp [countsSum, List.getElem?_eq_getElem hi]

/-- The links that PORT_STATS counts: one, or all for 0xFFFF (Table 8-7). -/
def linksCounted (s : State) (port : Nat) : List Link := if port = 0xFFFF then s.links.map Prod.snd else [getLink s port]

theorem exec_portStats {s : State} {g : Go} {port : Nat} {buf : SegDesc} (h : GoReady s g false 24 []) (hb : badBuf buf = false)
    (hp : port ≠ 0xFFFF → port < s.part.ports ∧ heldByOther s port port = false) :
    exec (.portStats g port buf) s =
      .next (settled (mbxOk (writeBuf (drawn (mbxTake s g [] none)) g.mb buf
          (countBytes (countsSum (Config.fecCorrected s.freeIx).toNat (linksCounted s port)))) g.mb
        (bytesField (countBytes (countsSum (Config.fecCorrected s.freeIx).toNat (linksCounted s port)))))) := by
  show execPortStats g port buf s = _
  unfold execPortStats
  rw [mbxRun_clear _ _ _ _ h rfl (by simp [hb])]
  · simp only [done_eq, getLink_mbxTake, mbxTake_links, mbxTake_freeIx]
    rfl
  · split
    · rfl
    · next hne =>
      obtain ⟨hlt, ho⟩ := hp hne
      simp [portNamed_clear hlt ho]

/-- A command that draws a free value, writes bulk data and completes: its answer, and the links as they were. -/
theorem mbxOk_writeBuf_drawn (s : State) (g : Go) (b : SegDesc) (bulk data : List Byte) :
    (settled (mbxOk (writeBuf (drawn (mbxTake s g [] none)) g.mb b bulk) g.mb data)).links = s.links ∧
      Answered (settled (mbxOk (writeBuf (drawn (mbxTake s g [] none)) g.mb b bulk) g.mb data)) g data := by
  have hw := writeBuf_Frame (drawn (mbxTake s g [] none)) g.mb b bulk
  refine ⟨?_, mbxOk_answered_of_mbx _ (hw.mbx (by simp))⟩
  simp [mbxOk, hw.links (by simp)]

theorem exec_portTest {s : State} {g : Go} {port pat : Nat} (sec : Nat) (h : GoReady s g false 6 [objLink port]) (hp : port < s.part.ports)
    (ho : heldByOther s port port = false) (hpat : pat ≤ 1) (hs : (getLink s port).started = false) (ht : (getLink s port).test = none) :
    exec (.portTest g port pat sec) s =
      .next (settled (mbxPark (setLink (mbxTake s g [objLink port] none) port { getLink s port with test := some g.mb }) g.mb
        (.portTest port) [])) := by
  show execPortTest g port pat sec s = _
  unfold execPortTest
  rw [mbxRun_clear _ _ _ _ h rfl]
  · simp [done_eq]
  · simp [hpat]
  · simp [portNamed_clear hp ho, needStopped, needFree, linkStopped, hs, ht]

/-! ### The partner commands (R378, R389) -/

theorem exec_partnerConfig {s : State} {g : Go} {port link : Nat} {id : BitVec 64} {c : LinkCfg} (auto : Bool)
    (h : GoReady s g false 16 [objLink port, objPartner link]) (hl : link ≤ 5)
    (hid : s.cfg.partners.any (fun e => e.1 != link && e.2.identity == id) = false) (hc : Tab.get? s.cfg.links port = some c)
    (hr : c.p.role = 3) (hs : (getLink s port).started = false) :
    exec (.partnerConfig g port link auto id) s = .next (settled (mbxStore { mbxTake s g [objLink port, objPartner link] none with
      cfg := { s.cfg with
        partners := Tab.set (s.cfg.partners.filter (fun e => e.1 == link || e.2.port != port)) link
          { port := port, autoImport := auto, identity := id } } } g.mb [])) := by
  show execPartnerConfig g port link auto id s = _
  unfold execPartnerConfig
  rw [mbxRun_clear _ _ _ _ h rfl]
  · simp [done_eq]
  · simp only [List.all_cons, List.all_nil, hid]
    simp [hl]
  · simp [need, needStopped, linkStopped, hc, hr, hs]

theorem exec_partnerStatus {s : State} {g : Go} {link : Nat} {c : PartnerCfg} (h : GoReady s g false 1 []) (hl : link ≤ 5)
    (hc : Tab.get? s.cfg.partners link = some c) :
    exec (.partnerStatus g link) s = .next (settled (mbxOk (mbxTake s g [] none) g.mb
      (leBytes 8 (getPartner s link).up.toNat ++
        leBytes 8 ((s.cfg.pools.map (fun e => flag e.1 (e.2.partner == some link || e.2.reserved == some link))).foldl (· + ·) 0) ++
        leBytes 4 (getPartner s link).awaiting.length))) := by
  show execPartnerStatus g link s = _
  unfold execPartnerStatus
  rw [mbxRun_clear _ _ _ _ h rfl]
  · simp only [done_eq, getPartner_mbxTake, mbxTake_cfg]
  · simp [hl]
  · simp [need, hc]

/-! ### Pools of a partner (R381, R385) -/

theorem exec_poolImport {s : State} {g : Go} {pool l : Nat} {hds : List PoolHeader} {hd : PoolHeader} (h : GoReady s g false 2 [objPool pool])
    (hph : s.phase = .ready) (hlt : pool < 64) (hr : reservedDown s pool = some l) (hm : (getPool s pool).importMb = none)
    (hn : newestHeader hds = some hd) :
    exec (.poolImport g pool hds) s =
      .next (settled (mbxPark (setPool (mbxTake s g [objPool pool] none) pool
        { getPool s pool with importHdr := some hd, importMb := some g.mb }) g.mb (.importing pool) [])) := by
  show execPoolImport g pool hds s = _
  unfold execPoolImport
  rw [mbxRun_clear _ _ _ _ h rfl]
  · simp [done_eq, hn]
  · simp
    omega
  · simp [need, needReplay, needFree, refuse, poolReserved, reserved_of_reservedDown hr, hph, hr, hm]

section Pool
variable {s : State} {g : Go} {pool l : Nat} {c : PoolCfg} (hp : PoolReady s pool c)
include hp

/-- RELEASE sent to the partner of a link for the command of mailbox `mb` (R385). -/
def releaseSent (s : State) (pool l mb : Nat) : State :=
  modPartner (partnerSend s l (.release pool)) l (fun p => { p with releases := p.releases ++ [(pool, mb)] })

theorem exec_poolRelease (h : GoReady s g false 2 [objPool pool]) (hl : c.partner = some l) (hst : (getPool s pool).st = .stopped)
    (hu : (getPartner s l).up = true) :
    exec (.poolRelease g pool) s = .next (settled (mbxPark (releaseSent (mbxTake s g [objPool pool] none) pool l g.mb) g.mb
      (.release pool) [])) := by
  have hc := hp.poolCfg_eq
  show execPoolRelease g pool s = _
  unfold execPoolRelease
  rw [mbxRun_clear _ _ _ _ h rfl]
  · simp only [poolCfg_mbxTake, hc, hl, Option.getD_some, done_eq, releaseSent]
  · simp [hp.number_clear]
  · rw [List.all_append, hp.poolObj_clear]
    simp [need, needStopped, needPartner, hst, hc, hl, hu]

/-- A pool is this system's own before its description is offered (R381, R383). -/
def poolOwned (s : State) (pool : Nat) : State :=
  modPool s pool (fun p => { p with owner := Config.identity, leaseOk := true, suspended := false })

theorem exec_journalPartner {pc : PartnerCfg} (h : GoReady s g false 3 [objPool pool, objPartner l]) (hl : l ≤ 5)
    (hpc : Tab.get? s.cfg.partners l = some pc) (hst : (getPool s pool).st = .stopped) (hu : (getPartner s l).up = true) :
    exec (.journalPartner g pool l) s = .next (settled (sendOffer (poolOwned (mbxTake s g [objPool pool, objPartner l] none) pool) g.mb l
      pool (.pool pool { c with partner := some l }) [])) := by
  have hc : poolCfg (poolOwned (mbxTake s g [objPool pool, objPartner l] none) pool) pool = c :=
    (poolCfg_mbxTake s g [objPool pool, objPartner l] none pool).trans hp.poolCfg_eq
  show execJournalPartner g pool l s = _
  unfold execJournalPartner
  rw [mbxRun_clear _ _ _ _ h rfl]
  · rw [← hc]
    rfl
  · simp [hp.number_clear, hl]
  · rw [List.all_append, hp.poolObj_clear]
    simp [need, needStopped, needFree, hst, hpc, hu]

/-- The configuration of a pool without its partner, which is told by POOL_WITHDRAW (R381). -/
def partnerCleared (s : State) (pool : Nat) (c : PoolCfg) : State :=
  match c.partner with
  | some l => partnerSend (setPoolCfg s pool { c with partner := none }) l (.withdraw pool)
  | none => setPoolCfg s pool { c with partner := none }

omit hp in
theorem applyChange_partnerCleared (hc : poolCfg s pool = c) :
    applyChange s (.pool pool { c with partner := none }) = partnerCleared s pool c := by
  simp only [applyChange, partnerCleared, hc, bne_self_eq_false, Bool.or_self, Bool.false_eq_true, if_false]
  cases c.partner <;> rfl

theorem exec_journalPartnerClear (h : GoReady s g false 3 [objPool pool]) (hst : (getPool s pool).st = .stopped) :
    exec (.journalPartnerClear g pool 0xFF) s = .next (settled (mbxStore (modPool (partnerCleared (mbxTake s g [objPool pool] none) pool c)
      pool (fun p => { p with suspended := false })) g.mb [])) := by
  have hc := (poolCfg_mbxTake s g [objPool pool] none pool).trans hp.poolCfg_eq
  show execJournalPartnerClear g pool 0xFF s = _
  unfold execJournalPartnerClear
  rw [mbxRun_clear _ _ _ _ h rfl]
  · simp only [hc, applyChange_partnerCleared hc, done_eq]
  · simp [hp.number_clear]
  · rw [List.all_append, hp.poolObj_clear]
    simp [needStopped, hst]

end Pool

/-! ### What the partner commands leave -/

theorem mem_releases_releaseSent (s : State) (pool l mb : Nat) : (pool, mb) ∈ (getPartner (releaseSent s pool l mb) l).releases := by
  simp [releaseSent]

theorem releaseSent_cfg (s : State) (pool l mb : Nat) : (releaseSent s pool l mb).cfg = s.cfg := by simp [releaseSent]

theorem releaseSent_mbx (s : State) (pool l mb : Nat) : (releaseSent s pool l mb).mbx = s.mbx := by simp [releaseSent]

theorem mem_offers_sendOffer (s : State) (mb link pool : Nat) (ch : CfgChange) (data : List Byte) :
    (pool, mb) ∈ (getPartner (sendOffer s mb link pool ch data) link).offers := by
  simp [sendOffer, mbxPark, getPartner, setMbx, setPartner, Tab.getD_set_self]

theorem sendOffer_cfg (s : State) (mb link pool : Nat) (ch : CfgChange) (data : List Byte) :
    (sendOffer s mb link pool ch data).cfg = s.cfg := by
  simp [sendOffer]

/-- The command of an offer waits for POOL_REPLY (R381). -/
theorem sendOffer_runs {s u : State} {g : Go} {objs : List (Nat × Nat)} (link pool : Nat) (ch : CfgChange) (data : List Byte)
    (hu : u.mbx = (mbxTake s g objs none).mbx) : Runs (settled (sendOffer u g.mb link pool ch data)) g (.partnerOffer pool) data := by
  have hm : getMbx u g.mb = getMbx (mbxTake s g objs none) g.mb := by simp only [getMbx, hu]
  have hp (v : State) (x : Partner) : getMbx (setPartner v link x) g.mb = getMbx v g.mb := rfl
  have hs (v : State) (b : PartnerBody) : getMbx (partnerSend v link b) g.mb = getMbx v g.mb := by simp [getMbx]
  simp [Runs, sendOffer, mbxPark, hp, hs, hm]

theorem poolCfg_partnerCleared (s : State) (pool : Nat) (c : PoolCfg) :
    poolCfg (partnerCleared s pool c) pool = { c with partner := none } := by
  cases h : c.partner <;> simp [partnerCleared, poolCfg, poolCfg?, h, setPoolCfg, Tab.get?_set_self]

theorem partnerCleared_mbx (s : State) (pool : Nat) (c : PoolCfg) : (partnerCleared s pool c).mbx = s.mbx := by
  cases h : c.partner <;> simp [partnerCleared, h, setPoolCfg]

/-- Settles O35: each command by its equation, what it stores read back, its answer by the mailbox's endings. -/
theorem portCommandRows : Obligations.PortCommandRows := by
  unfold Obligations.PortCommandRows
  refine ⟨?config, ?stopOther, ?stopTenant, ?stopIdle, ?start, ?status, ?stats, ?statsAll, ?test, ?partner, ?partnerStatus, ?imported,
    ?release, ?offer, ?clear⟩
  case config =>
    intro s g p h hf hc hs ht
    exact ⟨_, exec_portConfig h hf hc hs ht, by simp [mbxStore, Tab.get?_set_self], by simp [mbxStore], mbxStore_runs _ _ _ _ _⟩
  case stopOther => exact fun s g port h hp ho hr => exec_portStop_other h hp ho hr
  case stopTenant => exact fun s g port h hp ho hr => exec_portStop_tenant h hp ho hr
  case stopIdle =>
    intro s g port h hp ho hr hn
    have hex := exec_portStop_tenant h hp ho hr
    simp only [hn, List.filter_nil, List.map_nil, List.foldl_nil] at hex
    obtain ⟨hup, hmbx⟩ := downLink_ethernet (s := mbxTake s g [objLink port] none) (port := port) (by simp [hr])
    refine ⟨_, hex, ?_, ?_, mbxPark_runs_of_mbx _ _ hmbx⟩ <;> simp [getLink_mbxStore, getLink_setStarted, hup]
  case start =>
    intro s g port h hp ho ht
    have hfr := partnerReleased_Frame (mbxTake s g [objLink port] none) port
    refine ⟨_, exec_portStart h hp ho ht, ?_, ?_, mbxPark_runs_of_mbx _ _ (hfr.mbx (by simp))⟩
    · simp [getLink_mbxStore, getLink_setStarted]
    · have hcfg (u : State) : linkCfg (settled (mbxStore u g.mb [])) port = linkCfg u port := by simp [linkCfg, mbxStore]
      simp [hcfg, linkCfg_setStarted]
  case status =>
    intro s g port h hp ho
    exact ⟨_, exec_portStatus h hp ho, mbxOk_mbxTake_links _ _ _ _, mbxOk_mbxTake_answered _ _ _ _⟩
  case stats =>
    intro s g port buf h hb hp hne ho
    have hex := exec_portStats h hb fun _ => ⟨hp, ho⟩
    rw [linksCounted, if_neg hne, countsSum_singleton] at hex
    exact ⟨_, hex, mbxOk_writeBuf_drawn _ _ _ _ _⟩
  case statsAll =>
    intro s g buf h hb
    obtain ⟨hlinks, hbusy, -, hst, -⟩ := mbxOk_writeBuf_drawn s g buf _ _
    exact ⟨_, exec_portStats h hb fun hne => absurd rfl hne, hlinks, hbusy, hst⟩
  case test =>
    intro s g port pat sec h hp ho hpat hs ht
    refine ⟨_, exec_portTest sec h hp ho hpat hs ht, ?_, mbxPark_runs_of_mbx _ _ rfl⟩
    rw [getLink_settled, getLink_mbxPark, getLink_setLink_self]
  case partner =>
    intro s g port link auto id c h hl hid hc hr hs
    exact ⟨_, exec_partnerConfig auto h hl hid hc hr hs, by simp [mbxStore, Tab.get?_set_self], by simp [mbxStore], mbxStore_runs _ _ _ _ _⟩
  case partnerStatus =>
    intro s g link c h hl hc
    exact ⟨_, exec_partnerStatus h hl hc, mbxOk_mbxTake_partners _ _ _ _, mbxOk_mbxTake_answered _ _ _ _⟩
  case imported =>
    intro s g pool l hds hd h hph hlt hr hm hn
    refine ⟨_, exec_poolImport h hph hlt hr hm hn, ?_, ?_, mbxPark_runs_of_mbx _ _ rfl⟩ <;>
      rw [getPool_settled, getPool_mbxPark, getPool_setPool_self]
  case release =>
    intro s g pool l c h hph hlt hc hres hl hst hu
    refine ⟨_, exec_poolRelease ⟨hph, hlt, hc, hres⟩ h hl hst hu, ?_, ?_, mbxPark_runs_of_mbx _ _ (releaseSent_mbx _ _ _ _)⟩
    · rw [getPartner_settled, getPartner_mbxPark]
      exact mem_releases_releaseSent _ _ _ _
    · simp [releaseSent_cfg]
  case offer =>
    intro s g pool l c pc h hph hlt hl hc hres hpc hst hu
    refine ⟨_, exec_journalPartner ⟨hph, hlt, hc, hres⟩ h hl hpc hst hu, ?_, ?_, sendOffer_runs _ _ _ _ rfl⟩
    · rw [getPartner_settled]
      exact mem_offers_sendOffer _ _ _ _ _ _
    · simp [sendOffer_cfg, poolOwned]
  case clear =>
    intro s g pool c h hph hlt hc hres hst
    refine ⟨_, exec_journalPartnerClear ⟨hph, hlt, hc, hres⟩ h hst, ?_, ?_, mbxPark_runs_of_mbx _ _ (partnerCleared_mbx _ _ _)⟩
    · rw [poolCfg_mbxStore]
      exact congrArg PoolCfg.partner (poolCfg_partnerCleared _ _ _)
    · rw [getPool_settled, mbxStore, getPool_mbxPark, modPool_eq, getPool_setPool_self]

end Sys2Proof.Machine
end

section
/-! PROOFS. What the end of a command establishes: the levels on record are those that stand, and the F2 timers are as the host's reach
leaves them (R403, R502). -/

namespace Sys2Proof.Machine

/-! ### Interrupt levels compared (R403) -/

/-- What comparing levels and sending messages leaves: every function but for its record of levels and messages, and everything else but
what is emitted. -/
def LevelFrame (s t : State) : Prop :=
  SameFuncs s t ∧ ∃ fs o, t = { s with pcie := { s.pcie with funcs := fs }, out := s.out ++ o }

theorem irqFn_levelFrame (s : State) (fn : Nat) : LevelFrame s (irqFn s fn) := ⟨irqFn_sameFuncs s fn, irqFn_frame s fn⟩

theorem irqUpdate_levelFrame (s : State) : LevelFrame s (irqUpdate s) :=
  ⟨.foldl irqFn irqFn_sameFuncs _ _, irqFns_frame _ _⟩

/-- The causes that stand do not depend on the record of levels (R402). -/
theorem LevelFrame.highVectors {s t : State} (h : LevelFrame s t) (fn : Nat) : highVectors t fn = highVectors s fn := by
  obtain ⟨hf, fs, o, rfl⟩ := h
  obtain ⟨hi, held, hk⟩ := hf fn
  have hc (c : Nat) : causeSet { s with pcie := { s.pcie with funcs := fs }, out := s.out ++ o } fn c = causeSet s fn c := by
    unfold causeSet
    split
    case h_6 => rw [hk]
    all_goals rfl
  simp only [Machine.highVectors, hc, hk]

theorem LevelFrame.hostAway {s t : State} (h : LevelFrame s t) : hostAway t = hostAway s := by
  obtain ⟨hf, fs, o, rfl⟩ := h
  obtain ⟨hi, held, hk⟩ := hf 0
  simp only [Machine.hostAway, hk]
  rfl

/-- A message leaves the recorded levels as they are. -/
theorem getFunc_sendMsg_high (s : State) (fn v k : Nat) : (getFunc (sendMsg s fn v) k).high = (getFunc s k).high := by
  unfold sendMsg
  split
  · rfl
  · by_cases h : k = fn
    · subst h; simp
    · rw [modFunc_eq, getFunc_setFunc_ne _ _ _ _ h]

theorem getFunc_sendMsgs_high (fn k : Nat) (l : List Nat) (s : State) :
    (getFunc (l.foldl (fun s v => sendMsg s fn v) s) k).high = (getFunc s k).high := by
  induction l generalizing s with
  | nil => rfl
  | cons v r ih => rw [List.foldl_cons, ih, getFunc_sendMsg_high]

/-- Comparing a function's levels records those that stand, for that function alone (R403). -/
theorem getFunc_irqFn_high (s : State) (fn k : Nat) :
    (getFunc (irqFn s fn) k).high = if k = fn then highVectors s fn else (getFunc s k).high := by
  unfold irqFn
  dsimp only
  split
  case isTrue h =>
    split
    next hk => rw [hk, h]
    next => rfl
  case isFalse =>
    rw [getFunc_sendMsgs_high]
    split
    next h => simp [h]
    next h => rw [modFunc_eq, getFunc_setFunc_ne _ _ _ _ h]

theorem getFunc_irqFns_high (l : List Nat) (s : State) (k : Nat) :
    (getFunc (l.foldl irqFn s) k).high = if k ∈ l then highVectors s k else (getFunc s k).high := by
  induction l generalizing s with
  | nil => rfl
  | cons fn r ih =>
    rw [List.foldl_cons, ih, (irqFn_levelFrame s fn).highVectors, getFunc_irqFn_high]
    by_cases h : k = fn <;> simp [h]

/-- Once the levels are compared, every function that exists has those on record that stand. -/
theorem getFunc_irqUpdate_high (s : State) {fn : Nat} (h : fn ≤ s.pcie.numVfs) :
    (getFunc (irqUpdate s) fn).high = highVectors (irqUpdate s) fn := by
  rw [(irqUpdate_levelFrame s).highVectors, irqUpdate, getFunc_irqFns_high, if_pos (List.mem_range.2 (Nat.lt_succ_of_le h))]

/-! ### F2 timers (R502) -/

theorem settleEnt_st (away : Bool) (now : Nat) (e : FaultEnt) :
    ((settleEnt away now e).st = 1 → away = false) ∧ ((settleEnt away now e).st = 2 → away = true) := by
  unfold settleEnt
  cases away with
  | true => by_cases h : e.st = 1 <;> simp [h]
  | false => by_cases h : e.st = 2 <;> simp [h]

/-- Every state is settled once a command has ended in it. -/
theorem settled_Settled (s : State) : Settled (settled s) := by
  have hl : LevelFrame (settleF2 s) (settled s) := irqUpdate_levelFrame _
  refine ⟨fun fn hfn => ?_, fun e he => ?_⟩
  · obtain ⟨fs, hp⟩ := settled_pcie s
    exact getFunc_irqUpdate_high (settleF2 s) (by rw [hp] at hfn; exact hfn)
  · rw [hl.hostAway]
    rw [settled, irqUpdate_jade] at he
    obtain ⟨e', -, rfl⟩ := List.mem_map.1 he
    exact settleEnt_st _ _ _

/-- Settles O2: PF0 alone exists, no cause of it stands unmasked, and the fault queue is empty. -/
theorem settledReset : Obligations.SettledReset := by
  refine ⟨fun fn h => ?_, fun e he => absurd he List.not_mem_nil⟩
  obtain rfl : fn = 0 := Nat.le_zero.1 h
  decide +kernel

end Sys2Proof.Machine
end

section
/-! PROOFS. Every command leaves the state as it is or ends it settled: what the shared forms of a row do, then one lemma per row with a
decision tree of its own, then the step. -/

namespace Sys2Proof.Machine

/-- A command that finds its conditions unmet leaves the state as it is; any other takes its effect and ends it with the levels compared and
the timers settled. -/
inductive Ends (s : State) : Result → Prop
  | stays : Ends s (.next s)
  | settles (u : State) : Ends s (done u)

theorem Ends.keeps_Settled {s t : State} {r : Result} (h : Ends s r) (hs : Settled s) (hr : r = .next t) : Settled t := by
  cases h with
  | stays => cases hr; exact hs
  | settles u => cases hr; exact settled_Settled u

theorem Ends.ite {s : State} {c : Prop} [Decidable c] {r q : Result} (hr : Ends s r) (hq : Ends s q) : Ends s (if c then r else q) := by
  split
  · exact hr
  · exact hq

theorem mbxRun_ends (s : State) (g : Go) (vf refused : Bool) (len : Nat) (fields : List (Nat × Bool)) (checks : List Check)
    (objs : List (Nat × Nat)) (effect : State → State) : Ends s (mbxRun s g vf refused len fields checks objs effect) := by
  unfold mbxRun
  dsimp only
  refine .ite .stays (.ite (.settles _) ?_)
  split
  · exact .settles _
  · refine .ite (.settles _) ?_
    split <;> exact .settles _

/-! ### Forms that rows share -/

theorem onFrame_ends (f : MoonFrame) (act : State → State) (s : State) : Ends s (onFrame f act s) := by
  unfold onFrame
  exact .ite (.settles _) (.ite (.settles _) (.ite .stays (.ite (.settles _) (.settles _))))

theorem cacheCtlRow_ends (s : State) (v : W32) : Ends s (cacheCtlRow s v) := .ite (.settles _) .stays

theorem doorbellRow_ends (s : State) (mb : Nat) (v : W32) : Ends s (doorbellRow s mb v) := .ite (.settles _) .stays

theorem maintStart_ends (s : State) (src : MaintSrc) (op : Nat) (a : MaintArgs) : Ends s (maintStart s src op a) := by
  unfold maintStart
  split
  · split
    · exact .stays
    · exact .ite .stays (.settles _)
  · exact mbxRun_ends ..

theorem enterPkt_ends (s : State) (h : SbtHdr) (type len : Nat) (any : Bool) (f : State → State) :
    Ends s (enterPkt s h type len any f) := by
  unfold enterPkt
  refine .ite .stays ?_
  split
  · exact .settles _
  · exact .ite (.settles _) (.ite (.settles _) (.settles _))

theorem arrive_ends (s : State) (h : SbtHdr) (type len : Nat) (f : State → State) : Ends s (arrive s h type len f) := enterPkt_ends ..

theorem arriveSeq_ends (s : State) (h : SbtHdr) (type len : Nat) (b : RxBody) : Ends s (arriveSeq s h type len b) := arrive_ends ..

theorem arriveCmd_ends (s : State) (h : SbtHdr) (o : BlockOp) (c : Capsule) : Ends s (arriveCmd s h o c) :=
  .ite .stays (arriveSeq_ends ..)

theorem startOffload_ends (s : State) (id opc : Nat) : Ends s (startOffload s id opc) := by
  unfold startOffload
  split
  · exact .stays
  · exact .ite (.settles _) .stays

theorem startBlock_ends (s : State) (id opc : Nat) (op : BlockOp) : Ends s (startBlock s id opc op) := by
  unfold startBlock
  split
  · exact .stays
  · exact .ite (.settles _) .stays

theorem takeSeq_ends (s : State) (h : PartnerHdr) (b : PartnerBody) (f : State → Nat → State) : Ends s (takeSeq s h b f) := by
  unfold takeSeq
  split
  · exact .settles _
  · exact .ite (.settles _) (.ite (.settles _) (.settles _))

theorem takeEthernet_ends (s : State) (a : Arrival) (f : State → State) : Ends s (takeEthernet s a f) := by
  unfold takeEthernet
  refine .ite .stays ?_
  split <;> exact .settles _

theorem scrubControl_ends (s : State) (g : Go) (pool : Nat) (f : State → State) : Ends s (scrubControl s g pool f) := mbxRun_ends ..

theorem frzScan_ends (s : State) (code : BitVec 8) (f : State → State) : Ends s (frzScan s code f) :=
  .ite .stays (.ite (.settles _) (.settles _))

/-! ### Moonstone (R82, R94) -/

theorem execRephase_ends (s : State) : Ends s (execRephase s) := by
  unfold execRephase
  split
  · exact .ite .stays (.ite (.settles _) (.settles _))
  · exact .stays

theorem execTrainTimeout_ends (s : State) : Ends s (execTrainTimeout s) := by
  unfold execTrainTimeout
  split
  · exact .ite (.settles _) .stays
  · exact .stays

/-! ### The home path (R24-R36, R153-R171) -/

theorem execHomeTileAcceptance_ends (id : Nat) (s : State) : Ends s (execHomeTileAcceptance id s) := by
  unfold execHomeTileAcceptance
  split
  · exact .stays
  · exact .ite (.settles _) .stays

theorem execRangeLockGrant_ends (id : Nat) (s : State) : Ends s (execRangeLockGrant id s) := by
  unfold execRangeLockGrant
  split
  · exact .stays
  · exact .ite .stays (.ite (.settles _) (.settles _))

theorem execJournalSpaceWaitEnd_ends (id part : Nat) (s : State) : Ends s (execJournalSpaceWaitEnd id part s) := by
  unfold execJournalSpaceWaitEnd
  split
  · exact .stays
  · split
    · exact .stays
    · exact .ite (.settles _) .stays

theorem execLineAllocation_ends (id part : Nat) (s : State) : Ends s (execLineAllocation id part s) := by
  unfold execLineAllocation
  split
  · exact .stays
  · split
    · exact .stays
    · exact .ite .stays (.ite (.settles _) (.ite (.settles _) .stays))

theorem execAckHoldRelease_ends (id : Nat) (s : State) : Ends s (execAckHoldRelease id s) := by
  unfold execAckHoldRelease
  split
  · exact .stays
  · exact .ite (.settles _) .stays

/-! ### Destage (R170, R185-R189) -/

theorem execDestageStart_ends (vol row : Nat) (s : State) : Ends s (execDestageStart vol row s) := by
  unfold execDestageStart
  dsimp only
  refine .ite .stays ?_
  split
  · exact .settles _
  · exact .stays

theorem execRelocation_ends (tile : Nat) (s : State) : Ends s (execRelocation tile s) := by
  unfold execRelocation
  dsimp only
  split
  · exact .ite .stays (.settles _)
  · exact .stays

/-! ### The cache tier (R273, R287, R291) -/

theorem execLineFillComplete_ends (tile line : Nat) (s : State) : Ends s (execLineFillComplete tile line s) := by
  unfold execLineFillComplete
  refine .ite .stays ?_
  dsimp only
  split
  · refine .ite .stays ?_
    split
    · exact .settles _
    · exact .stays
  · refine .ite .stays ?_
    split
    · exact .stays
    · exact .settles _
  · exact .stays

theorem execDestageComplete_ends (d : Nat) (s : State) : Ends s (execDestageComplete d s) := by
  unfold execDestageComplete
  split
  · exact .stays
  · exact .ite (.settles _) .stays

theorem execEvictionComplete_ends (tile entry : Nat) (s : State) : Ends s (execEvictionComplete tile entry s) := by
  unfold execEvictionComplete
  dsimp only
  refine .ite .stays ?_
  split
  · split
    · split
      · exact .ite (.settles _) .stays
      · exact .stays
    · exact .settles _
  · refine .ite .stays ?_
    split
    · split
      · exact .ite (.settles _) .stays
      · exact .stays
    · exact .settles _
  · exact .stays

theorem execLineRetirement_ends (tile line : Nat) (cause : Nat) (word : Nat) (s : State) :
    Ends s (execLineRetirement tile line cause word s) := by
  unfold execLineRetirement
  split
  · exact .settles _
  · exact .stays

/-! ### Rebuild, copyback and scrub (R224, R229, R245) -/

theorem execRebuildCommandIssue_ends (pool : Nat) (s : State) : Ends s (execRebuildCommandIssue pool s) := by
  unfold execRebuildCommandIssue
  split
  · exact .ite (.settles _) .stays
  · exact .stays

theorem execRebuildRowComplete_ends (pool : Nat) (s : State) : Ends s (execRebuildRowComplete pool s) := by
  unfold execRebuildRowComplete
  dsimp only
  split
  · exact .stays
  · exact .ite .stays (.settles _)

theorem execCopybackRowComplete_ends (pool : Nat) (s : State) : Ends s (execCopybackRowComplete pool s) := by
  unfold execCopybackRowComplete
  dsimp only
  split
  · exact .ite .stays (.settles _)
  · exact .stays

theorem execScrubRow_ends (pool row : Nat) (s : State) : Ends s (execScrubRow pool row s) := by
  unfold execScrubRow
  dsimp only
  refine .ite .stays ?_
  split
  · split
    · exact .ite (.settles _) .stays
    · exact .stays
  · exact .ite .stays (.settles _)

/-! ### Members (R204-R212, R365-R377) -/

theorem execMemberCommandCompletion_ends (m : Nat) (st : NvmeStatus) (data : Mem) (s : State) :
    Ends s (execMemberCommandCompletion m st data s) := by
  unfold execMemberCommandCompletion
  split
  · exact .stays
  · exact .ite .stays (.settles _)

theorem execMemberCommandTimeout_ends (m : Nat) (s : State) : Ends s (execMemberCommandTimeout m s) := by
  unfold execMemberCommandTimeout
  split
  · exact .stays
  · exact .ite (.settles _) .stays

theorem execReadDeadline_ends (m : Nat) (s : State) : Ends s (execReadDeadline m s) := by
  unfold execReadDeadline
  split
  · exact .stays
  · refine .ite .stays ?_
    split <;> exact .settles _

theorem execMemberReissue_ends (m : Nat) (s : State) : Ends s (execMemberReissue m s) := by
  unfold execMemberReissue
  split
  · exact .stays
  · exact .ite (.settles _) .stays

theorem execMemberQueueSetup_ends (member tile : Nat) (admin : Bool) (step : QueueStep) (s : State) :
    Ends s (execMemberQueueSetup member tile admin step s) := by
  unfold execMemberQueueSetup
  split
  · exact .stays
  · dsimp only
    refine .ite .stays ?_
    split
    · exact .settles _
    · exact .ite .stays (.settles _)
    · exact .stays

theorem execMemberQueueBreak_ends (member tile : Nat) (admin : Bool) (cause : BreakCause) (s : State) :
    Ends s (execMemberQueueBreak member tile admin cause s) := by
  unfold execMemberQueueBreak
  split
  · exact .ite (.settles _) .stays
  · exact .stays

theorem execMemberReconnectAttempt_ends (member tile : Nat) (ok : Bool) (s : State) :
    Ends s (execMemberReconnectAttempt member tile ok s) := by
  unfold execMemberReconnectAttempt
  dsimp only
  split
  · refine .ite .stays ?_
    split
    · exact .stays
    · exact .ite (.settles _) (.settles _)
  · exact .stays

/-! ### Serosh Block Transport (R305-R310, R330) -/

theorem execDelayedAck_ends (conn : W32) (s : State) : Ends s (execDelayedAck conn s) := by
  unfold execDelayedAck
  split
  · exact .ite (.settles _) .stays
  · exact .stays

theorem execRetransmitTimeout_ends (conn : W32) (seq : W32) (s : State) : Ends s (execRetransmitTimeout conn seq s) := by
  unfold execRetransmitTimeout
  split
  · exact .stays
  · split
    · exact .stays
    · exact .settles _

theorem execConnectionLoss_ends (conn : W32) (s : State) : Ends s (execConnectionLoss conn s) := by
  unfold execConnectionLoss
  split
  · exact .stays
  · exact .ite .stays (.ite (.settles _) (.settles _))

theorem execCreditProbe_ends (conn : W32) (s : State) : Ends s (execCreditProbe conn s) := by
  unfold execCreditProbe
  split
  · exact .ite (.settles _) .stays
  · exact .stays

theorem execXferRdy_ends (id : Nat) (offset length : Nat) (s : State) : Ends s (execXferRdy id offset length s) := by
  unfold execXferRdy
  split
  · exact .stays
  · split
    · split
      · exact .stays
      · exact .ite .stays (.settles _)
    · exact .stays

/-! ### Work rings and completions (R167, R334, R454) -/

theorem execSqDispatch_ends (tile : Nat) (s : State) : Ends s (execSqDispatch tile s) := by
  unfold execSqDispatch
  refine .ite .stays ?_
  split
  · exact .settles _
  · split
    · exact .settles _
    · exact .stays

theorem execSkip_ends (id : Nat) (s : State) : Ends s (execSkip id s) := by
  unfold execSkip
  split
  · exact .ite (.settles _) .stays
  · exact .stays

theorem execRecordCommit_ends (tile seq : Nat) (s : State) : Ends s (execRecordCommit tile seq s) := by
  unfold execRecordCommit
  split
  · exact .stays
  · exact .ite .stays (.settles _)

theorem execCommandCompletion_ends (id : Nat) (s : State) : Ends s (execCommandCompletion id s) := by
  unfold execCommandCompletion
  split
  · refine .ite .stays ?_
    split
    · exact .settles _
    · exact .settles _
    · dsimp only
      split <;> exact .settles _
  · split
    · exact .ite (.settles _) .stays
    · exact .stays

/-! ### The host endpoint (R409-R421) -/

theorem execHostCompletion_ends (c : HostCpl) (s : State) : Ends s (execHostCompletion c s) := by
  unfold execHostCompletion
  refine .ite .stays ?_
  split
  · split <;> exact .settles _
  · exact .ite (.settles _) (.ite (.settles _) (.ite (.settles _) (.ite (.settles _) (.settles _))))

theorem execCompletionTimeout_ends (tag : Nat) (s : State) : Ends s (execCompletionTimeout tag s) := by
  unfold execCompletionTimeout
  split
  · exact .ite (.settles _) .stays
  · exact .stays

theorem execTranslationCompletion_ends (t : Translation) (s : State) : Ends s (execTranslationCompletion t s) := by
  unfold execTranslationCompletion
  split
  · exact .stays
  · exact .ite .stays (.ite (.settles _) (.settles _))

theorem execWindowWrite_ends (t : WinTlp) (data : List (Option Byte)) (s : State) : Ends s (execWindowWrite t data s) := by
  unfold execWindowWrite
  refine .ite .stays ?_
  split
  exact .ite (.settles _) (.settles _)

/-! ### Partner links (R182, R380, R385) -/

theorem execNack_ends (h : PartnerHdr) (s : State) : Ends s (execNack h s) := by
  unfold execNack
  split <;> exact .settles _

theorem execPartnerResendTimer_ends (link : Nat) (s : State) : Ends s (execPartnerResendTimer link s) := by
  unfold execPartnerResendTimer
  split
  · exact .ite (.settles _) .stays
  · exact .stays

theorem execPartnerConfirmTimeout_ends (tile seq : Nat) (s : State) : Ends s (execPartnerConfirmTimeout tile seq s) := by
  unfold execPartnerConfirmTimeout
  split
  · exact .stays
  · exact .ite .stays (.settles _)

theorem execAutoImport_ends (pool : Nat) (hds : List PoolHeader) (s : State) : Ends s (execAutoImport pool hds s) := by
  unfold execAutoImport
  split
  · exact .ite (.settles _) .stays
  · exact .stays

theorem execImportCheck_ends (pool : Nat) (hds : List PoolHeader) (s : State) : Ends s (execImportCheck pool hds s) := by
  unfold execImportCheck
  dsimp only
  split
  · exact .stays
  · refine .ite .stays ?_
    split
    · exact .ite (.settles _) (.settles _)
    · exact .ite (.settles _) (.ite (.settles _) (.settles _))

/-! ### Network ports (R360, R389) -/

theorem execNeighbourResolve_ends (tile : Nat) (addr : BitVec 128) (s : State) : Ends s (execNeighbourResolve tile addr s) := by
  unfold execNeighbourResolve
  split
  · exact .ite (.settles _) .stays
  · exact .stays

theorem execPortTestComplete_ends (mb : Nat) (counts : List (Nat × Nat)) (s : State) : Ends s (execPortTestComplete mb counts s) := by
  unfold execPortTestComplete
  split
  · exact .ite (.settles _) .stays
  · exact .stays

/-! ### Mailbox commands that run on (R474, R480, R486) -/

theorem execVolumeStopComplete_ends (mb : Nat) (s : State) : Ends s (execVolumeStopComplete mb s) := by
  unfold execVolumeStopComplete
  split
  · exact .ite (.settles _) .stays
  · exact .stays

theorem execJournalDrainComplete_ends (mb : Nat) (s : State) : Ends s (execJournalDrainComplete mb s) := by
  unfold execJournalDrainComplete
  split
  · exact .ite (.settles _) .stays
  · exact .stays

theorem execConfigStored_ends (mb : Nat) (s : State) : Ends s (execConfigStored mb s) := by
  unfold execConfigStored
  dsimp only
  refine .ite .stays ?_
  split
  · exact .settles _
  · exact .settles _
  · exact .ite .stays (.settles _)
  · exact .stays

/-! ### Power states (R544) -/

theorem execPowerStateEntry_ends (s : State) : Ends s (execPowerStateEntry s) := by
  unfold execPowerStateEntry
  split
  · exact .ite (.settles _) .stays
  · exact .stays

/-! ### Fault containment (R502, R503, R510) -/

theorem execF2TimerExpiry_ends (slot : Nat) (s : State) : Ends s (execF2TimerExpiry slot s) := by
  unfold execF2TimerExpiry
  split
  · exact .stays
  · exact .ite .stays (.ite (.settles _) (.settles _))

theorem execF3Contained_ends (slot : Nat) (s : State) : Ends s (execF3Contained slot s) := by
  unfold execF3Contained
  split
  · exact .stays
  · exact .ite .stays (.ite (.settles _) (.settles _))

theorem execF3ContainmentTimeout_ends (slot : Nat) (s : State) : Ends s (execF3ContainmentTimeout slot s) := by
  unfold execF3ContainmentTimeout
  split
  · exact .stays
  · exact .ite (.settles _) .stays

/-! ### Register writes (R10) -/

theorem execRegisterWrite_ends (fn : Nat) (p : RegPlace) (width : Nat) (v : BitVec 64) (s : State) :
    Ends s (execRegisterWrite fn p width v s) := by
  unfold execRegisterWrite
  refine .ite .stays ?_
  split <;> exact .ite (.settles _) .stays

/-! ### Housekeeping (R530-R543) -/

theorem execAuxTempPoll_ends (v : BitVec 11) (s : State) : Ends s (execAuxTempPoll v s) := by
  unfold execAuxTempPoll
  split
  · exact .stays
  · exact .stays
  · exact .stays
  · exact .settles _

theorem execRoundEnd_ends (tile : Nat) (s : State) : Ends s (execRoundEnd tile s) := by
  unfold execRoundEnd
  exact .ite .stays (.ite (.settles _) (.ite (.settles _) (.ite (.settles _) (.settles _))))

/-! ### Power and reference clocks (R566, R569) -/

theorem execPwrOkLoss_ends (s : State) : Ends s (execPwrOkLoss s) := by
  unfold execPwrOkLoss
  split
  · exact .stays
  · exact .settles _

theorem execRefclkLoss_ends (c : RefClk) (s : State) : Ends s (execRefclkLoss c s) := by
  unfold execRefclkLoss
  split
  · exact .ite (.ite (.settles _) (.settles _)) .stays
  · exact .ite .stays (.ite (.settles _) (.settles _))

theorem execRefclkReturn_ends (c : RefClk) (s : State) : Ends s (execRefclkReturn c s) := by
  unfold execRefclkReturn
  split
  · exact .ite (.settles _) .stays
  · exact .settles _

/-! ### The step -/

/-- Every command leaves the state as it is, or ends it settled: by the form of its row. -/
theorem exec_ends (c : Instr) (s : State) : Ends s (exec c s) := by
  unfold exec
  cases c with
  -- commands of the mailbox alone
  | epochConfig | epochTrain | epochSeal | sealFailRequest | epochSealStatus | epochCmapRead | epochStats | cacheDisable | cacheEnable
  | cacheRatGet | cacheStats | sbtConfig | sbtTenantSet | sbtTenantRemove | sbtConnList | sbtConnClose | sbtThrottle | sbtStats
  | partnerConfig | partnerStatus | poolImport | poolRelease | journalPartner | journalPartnerClear | portConfig | portStop
  | portStart | portStatus | portStats | portTest | poolStatus | memberStatus | memberDefine | rebuildConfig | rebuildStatus | lstRead
  | volumeDelete | cacheRatSet | volumeStop | volumeStatus | journalStatus | journalDrain | devInfo | selftestStatus | selftestAbort
  | jetStatus | jetToken | jetClear | fwInfo | secPubkey | secMeasure | kekLoad | keyDestroy | powerStateSet | powerStatus
  | powerD3cold | thermalConfig =>
    exact mbxRun_ends ..
  | cacheConfig | poolCreate | poolDelete | poolStart | poolStop | memberFail | memberReplace | hotspareSet | poolDegradedConfig
  | volumeCreate | volumeSet | volumeSetExtents | volumeStart | journalMirrorSet | fwDownload | keyLoad =>
    dsimp only [execCacheConfig, execPoolCreate, execPoolDelete, execPoolStart, execPoolStop, execMemberFail, execMemberReplace,
      execHotspareSet, execPoolDegradedConfig, execVolumeCreate, execVolumeSet, execVolumeSetExtents, execVolumeStart,
      execJournalMirrorSet, execFwDownload, execKeyLoad]
    exact mbxRun_ends ..
  -- one condition: the effect where it is met
  | missLimit | unsynchronised | holdoverSend | sealTimeout | routeSwitch | memberReachTimeout | keepAlive | sbtPacketDiscard
  | refusalRetentionExpiry | indexReuse | sqDb | cqHeadDb | sqDisable | sqEnable | cqEnable | cqDisable | pcieLinkUp | dStateEntry
  | d0Return | tagQuarantineEnd | winCommit | windowDirectWrite | helloSend | partnerLinkTimeout | leaseLoss | linkDown
  | fecErrorSecond | jetTokenExpiry | meshLinkLoss | heartbeatTimeout | faultAck | correlationWindowClose | aliveToggle | coreWatchdog
  | hostWatchdog | aliveKick | jetDataRead | jetCursorWrite | tripComparator | ps2Wake | ps2Idle | testLogicReset | extest
  | samplePreload | idcode | clamp | highz | frzStatus | deviceStart =>
    exact .ite (.settles _) .stays
  | sealMapsStored | evmodeSwitch | poolInitComplete | extentZeroingComplete | cqAggTimer | sqDrainComplete | linkUp
  | channelConversion =>
    dsimp only [execSealMapsStored, execEvmodeSwitch, execPoolInitComplete, execExtentZeroingComplete, execCqAggTimer,
      execSqDrainComplete, execLinkUp, execChannelConversion]
    exact .ite (.settles _) .stays
  -- a few conditions in a row
  | meshHeartbeat => exact .ite .stays (.ite .stays (.settles _))
  | mramCommitFailure | cacheDisableQuiesced | rowInterlockGrant | smartLogPoll | pcieLinkDown | invalidationRequest
  | jetSuppressionWindow | sysResetNAssert | firmwareUp | replayComplete | vfEnable | functionLevelReset | freezeNLow =>
    exact .ite .stays (.settles _)
  | mirrorRecopyComplete =>
    dsimp only [execMirrorRecopyComplete]
    exact .ite .stays (.ite (.settles _) (.settles _))
  | epochNowRead | perstNAssert => exact .ite .stays (.ite (.settles _) (.ite (.settles _) (.settles _)))
  | directorySweep | cursorMetadataWrite | pfcFrame | jetClearDone =>
    dsimp only [execDirectorySweep, execCursorMetadataWrite, execPfcFrame, execJetClearDone]
    exact .ite .stays (.settles _)
  | pfcRepeat => exact .ite .stays (.ite (.settles _) (.ite (.settles _) (.ite (.settles _) (.ite (.settles _) (.settles _)))))
  | sealLocalEnd | windowRead | leaseRenewal | shutdownClose | perstNRelease | epochEdge =>
    exact .ite .stays (.ite (.settles _) (.settles _))
  | selftestComplete => exact .ite (.ite .stays (.settles _)) (.ite .stays (.settles _))
  | selftestCommandIssue =>
    dsimp only [execSelftestCommandIssue]
    exact .ite .stays (.ite (.settles _) (.ite .stays (.ite (.settles _) (.settles _))))
  -- a form that several rows share
  | edge | invalidFrame | holdover | trainResult | announce | poll | done | failed =>
    dsimp only [execEdge, execInvalidFrame, execHoldover, execTrainResult, execAnnounce, execPoll, execDone, execFailed]
    exact .ite .stays (onFrame_ends ..)
  | trainCount => exact .ite .stays (onFrame_ends ..)
  | zeroLine | invalKey | invalRange | cleanKey | cleanRange | lock | unlock | invalAll => exact maintStart_ends ..
  | enDirectClear | lfsrSeedLoad | evmodeChange => exact .ite .stays (cacheCtlRow_ends ..)
  | enSet => exact .ite (cacheCtlRow_ends ..) .stays
  | unknownConnectionPacket | connect => exact enterPkt_ends ..
  | close => exact .ite (enterPkt_ends ..) (arriveSeq_ends ..)
  | read | write | flush | writeZeroes | deallocate | verify => exact arriveCmd_ends ..
  | dataOut => exact .ite (arrive_ends ..) (arriveSeq_ends ..)
  | abort | errlogReq | resume => exact arriveSeq_ends ..
  | ack => exact arrive_ends ..
  | hello | smbusBlockRead => exact .settles _
  | poolOffer | poolReply | poolWithdraw | record | confirm | release | releaseAck => exact takeSeq_ends ..
  | ringRead | ringWrite | ringFlush | ringWriteZeroes | ringDeallocate => exact startBlock_ends ..
  | pqCompute | reconstruct | copy => exact startOffload_ends ..
  | mailboxCancel | overrun => exact .ite (doorbellRow_ends ..) .stays
  | funcAssign | withdraw =>
    dsimp only [execFuncAssign, execWithdraw]
    exact .ite .stays (mbxRun_ends ..)
  | shortSelftest | extendedSelftest | fwVerifyPending | fwClearPending | fwConfirm => exact .ite .stays (mbxRun_ends ..)
  | scrubStart | scrubPause | scrubResume => exact scrubControl_ends ..
  | frzSelect | frzShift | frzMemaddr | frzMemdata | frzInfo => exact frzScan_ends ..
  | neighbourDiscovery | echoRequest =>
    dsimp only [execNeighbourDiscovery, execEchoRequest]
    exact takeEthernet_ends ..
  -- rows with a decision tree of their own
  | rephase => exact execRephase_ends ..
  | trainTimeout => exact execTrainTimeout_ends ..
  | homeTileAcceptance => exact execHomeTileAcceptance_ends ..
  | rangeLockGrant => exact execRangeLockGrant_ends ..
  | journalSpaceWaitEnd => exact execJournalSpaceWaitEnd_ends ..
  | lineAllocation => exact execLineAllocation_ends ..
  | ackHoldRelease => exact execAckHoldRelease_ends ..
  | destageStart => exact execDestageStart_ends ..
  | relocation => exact execRelocation_ends ..
  | lineFillComplete => exact execLineFillComplete_ends ..
  | destageComplete => exact execDestageComplete_ends ..
  | evictionComplete => exact execEvictionComplete_ends ..
  | lineRetirement => exact execLineRetirement_ends ..
  | rebuildCommandIssue => exact execRebuildCommandIssue_ends ..
  | rebuildRowComplete => exact execRebuildRowComplete_ends ..
  | copybackRowComplete => exact execCopybackRowComplete_ends ..
  | scrubRow => exact execScrubRow_ends ..
  | memberCommandCompletion => exact execMemberCommandCompletion_ends ..
  | memberCommandTimeout => exact execMemberCommandTimeout_ends ..
  | readDeadline => exact execReadDeadline_ends ..
  | memberReissue => exact execMemberReissue_ends ..
  | memberQueueSetup => exact execMemberQueueSetup_ends ..
  | memberQueueBreak => exact execMemberQueueBreak_ends ..
  | memberReconnectAttempt => exact execMemberReconnectAttempt_ends ..
  | delayedAck => exact execDelayedAck_ends ..
  | retransmitTimeout => exact execRetransmitTimeout_ends ..
  | connectionLoss => exact execConnectionLoss_ends ..
  | creditProbe => exact execCreditProbe_ends ..
  | xferRdy => exact execXferRdy_ends ..
  | sqDispatch => exact execSqDispatch_ends ..
  | skip => exact execSkip_ends ..
  | recordCommit => exact execRecordCommit_ends ..
  | commandCompletion => exact execCommandCompletion_ends ..
  | hostCompletion => exact execHostCompletion_ends ..
  | completionTimeout => exact execCompletionTimeout_ends ..
  | translationCompletion => exact execTranslationCompletion_ends ..
  | windowWrite => exact execWindowWrite_ends ..
  | nack => exact execNack_ends ..
  | partnerResendTimer => exact execPartnerResendTimer_ends ..
  | partnerConfirmTimeout => exact execPartnerConfirmTimeout_ends ..
  | autoImport => exact execAutoImport_ends ..
  | importCheck => exact execImportCheck_ends ..
  | neighbourResolve => exact execNeighbourResolve_ends ..
  | portTestComplete => exact execPortTestComplete_ends ..
  | volumeStopComplete => exact execVolumeStopComplete_ends ..
  | journalDrainComplete => exact execJournalDrainComplete_ends ..
  | configStored => exact execConfigStored_ends ..
  | powerStateEntry => exact execPowerStateEntry_ends ..
  | f2TimerExpiry => exact execF2TimerExpiry_ends ..
  | f3Contained => exact execF3Contained_ends ..
  | f3ContainmentTimeout => exact execF3ContainmentTimeout_ends ..
  | registerWrite => exact execRegisterWrite_ends ..
  | auxTempPoll => exact execAuxTempPoll_ends ..
  | roundEnd => exact execRoundEnd_ends ..
  | pwrOkLoss => exact execPwrOkLoss_ends ..
  | refclkLoss => exact execRefclkLoss_ends ..
  | refclkReturn => exact execRefclkReturn_ends ..

/-- Neither the queue of commands nor the clock has a part in `Settled`. -/
theorem Settled.withPending {s : State} (h : Settled s) (l : List Instr) : Settled { s with pending := l } := h

theorem Settled.idle {s : State} (h : Settled s) : Settled (idle s) := h

/-- Settles O3: an empty queue and unmet conditions change nothing that `Settled` speaks of, and the end of every other command makes
any state settled. -/
theorem settledStep : Obligations.SettledStep := by
  intro s t hs ht
  unfold step at ht
  split at ht
  next =>
    cases ht
    exact hs.idle
  next c rest _ => exact (exec_ends c _).keeps_Settled (hs.withPending rest) ht

end Sys2Proof.Machine
end

section
/-! PROOFS. The PCIe link, D-states, VFs and function resets: an equation of `exec` per clause (R391, R395, R396, R398, R428). -/

namespace Sys2Proof.Machine

/-! ### What the end of a command leaves of the endpoint -/

/-- The end of a command changes the endpoint in its functions alone. -/
theorem settled_pcie_field {α : Type} (f : Pcie → α) (hf : ∀ p fs, f { p with funcs := fs } = f p) (s : State) :
    f (settled s).pcie = f s.pcie := by
  obtain ⟨fs, h⟩ := settled_pcie s
  rw [h, hf]

@[simp] theorem settled_pcie_numVfs (s : State) : (settled s).pcie.numVfs = s.pcie.numVfs := settled_pcie_field _ (fun _ _ => rfl) s
@[simp] theorem settled_pcie_sqOwner (s : State) : (settled s).pcie.sqOwner = s.pcie.sqOwner := settled_pcie_field _ (fun _ _ => rfl) s
@[simp] theorem settled_pcie_cqOwner (s : State) : (settled s).pcie.cqOwner = s.pcie.cqOwner := settled_pcie_field _ (fun _ _ => rfl) s
@[simp] theorem settled_pcie_winOwner (s : State) : (settled s).pcie.winOwner = s.pcie.winOwner := settled_pcie_field _ (fun _ _ => rfl) s
@[simp] theorem settled_pcie_volRanges (s : State) : (settled s).pcie.volRanges = s.pcie.volRanges :=
  settled_pcie_field _ (fun _ _ => rfl) s
@[simp] theorem settled_pcie_windows (s : State) : (settled s).pcie.windows = s.pcie.windows := settled_pcie_field _ (fun _ _ => rfl) s
@[simp] theorem settled_pcie_reqs (s : State) : (settled s).pcie.reqs = s.pcie.reqs := settled_pcie_field _ (fun _ _ => rfl) s
@[simp] theorem settled_pcie_quarantine (s : State) : (settled s).pcie.quarantine = s.pcie.quarantine :=
  settled_pcie_field _ (fun _ _ => rfl) s
@[simp] theorem settled_pcie_atc (s : State) : (settled s).pcie.atc = s.pcie.atc := settled_pcie_field _ (fun _ _ => rfl) s
@[simp] theorem settled_pcie_aer (s : State) : (settled s).pcie.aer = s.pcie.aer := settled_pcie_field _ (fun _ _ => rfl) s

@[simp] theorem getWindow_settled (s : State) (w : Nat) : getWindow (settled s) w = getWindow s w := by simp [getWindow]

@[simp] theorem getFunc_settled_d (s : State) (fn : Nat) : (getFunc (settled s) fn).d = (getFunc s fn).d := by
  obtain ⟨_, _, h⟩ := settled_sameFuncs s fn; rw [h]

section Link

variable {s : State}

/-! ### The link (R391) -/

theorem exec_pcieLinkUp {rate width : Nat} (he : endpointUp s = true) (hl : s.pcie.linkUp = false)
    (hw : width = 1 ∨ width = 2 ∨ width = 4 ∨ width = 8 ∨ width = 16) :
    exec (.pcieLinkUp rate width) s =
      .next (settled (wakeHost (modPcie s (fun p => { p with linkUp := true, rate := rate, width := width })))) := by
  show execPcieLinkUp rate width s = _
  have hw' : [1, 2, 4, 8, 16].contains width = true := by simpa using hw
  rw [execPcieLinkUp, he, hl, hw']
  rfl

theorem exec_pcieLinkDown (rate : Nat) (hr : running s = true) (hl : s.pcie.linkUp = true) (hw : 0 < s.pcie.width) :
    exec (.pcieLinkDown rate 0) s =
      .next (settled (fault0 (modPcie s (fun p => { p with linkUp := false, rate := 0, width := 0 })) 0x5008 1 (srcHost 0))) := by
  show execPcieLinkDown rate 0 s = _
  simp [execPcieLinkDown, hr, hl, hw, done_eq]

theorem exec_pcieLinkDown_retrain {rate width : Nat} (hr : running s = true) (hl : s.pcie.linkUp = true) (hw : 0 < width)
    (hlow : rate < s.pcie.rate ∨ width < s.pcie.width) :
    exec (.pcieLinkDown rate width) s =
      .next (settled (fault0 (modPcie s (fun p => { p with rate := rate, width := width })) 0x5008 1 (srcHost 0))) := by
  show execPcieLinkDown rate width s = _
  have hlow' : (decide (rate < s.pcie.rate) || decide (width < s.pcie.width)) = true := by simpa using hlow
  rw [execPcieLinkDown, hr, hl, hlow']
  simp [hw.ne', done_eq]

/-! ### D-states (R428, Table 9-17) -/

theorem exec_dStateEntry {fn : Nat} {d : DState} (hr : running s = true) (hl : s.pcie.linkUp = true) (hf : fnExists s fn = true)
    (hd : d = .d3hot ∨ d = .d1 ∧ fn = 0) (h0 : (getFunc s fn).d = .d0) :
    exec (.dStateEntry fn d) s = .next (settled (setFunc s fn { getFunc s fn with d := d })) := by
  show execDStateEntry fn d s = _
  have hm : mayEnter fn d = true := by
    rcases hd with rfl | ⟨rfl, rfl⟩ <;> rfl
  simp [execDStateEntry, hr, hl, hf, hm, h0, done_eq]

theorem exec_d0Return {fn : Nat} (hr : running s = true) (hl : s.pcie.linkUp = true) (hf : fnExists s fn = true)
    (h0 : (getFunc s fn).d ≠ .d0) :
    exec (.d0Return fn) s = .next (settled (wakeHost (modFunc s fn (fun f => { f with d := .d0 })))) := by
  show execD0Return fn s = _
  simp [execD0Return, hr, hl, hf, h0, done_eq]

/-! ### VFs and function resets (R395, R396, R398) -/

theorem exec_vfEnable {n : Nat} (hr : running s = true) (hl : s.pcie.linkUp = true) (h0 : (getFunc s 0).d = .d0) (h1 : 1 ≤ n)
    (h63 : n ≤ 63) (hv : s.pcie.numVfs ≤ n) :
    exec (.vfEnable true n) s = .next (settled (modPcie s (fun p => { p with numVfs := n }))) := by
  show execVfEnable true n s = _
  have hn : n ≠ 0 := by omega
  simp [execVfEnable, hr, hl, h0, hn, Nat.not_lt.2 h63, Nat.sub_eq_zero_of_le hv, done_eq]

theorem exec_vfEnable_clear {n : Nat} (hr : running s = true) (hl : s.pcie.linkUp = true) (h0 : (getFunc s 0).d = .d0) (h63 : n ≤ 63) :
    exec (.vfEnable false n) s =
      .next (settled (modPcie ((List.range' 1 s.pcie.numVfs).foldl removeVf s) (fun p => { p with numVfs := 0 }))) := by
  show execVfEnable false n s = _
  simp [execVfEnable, hr, hl, h0, Nat.not_lt.2 h63, done_eq]

theorem exec_functionLevelReset_pf0 (hr : running s = true) (hl : s.pcie.linkUp = true) :
    exec (.functionLevelReset 0) s = .next (settled (resetAllFunctions s)) := by
  show execFunctionLevelReset 0 s = _
  simp [execFunctionLevelReset, hr, hl, fnExists, done_eq]

theorem exec_functionLevelReset_vf {fn : Nat} (hr : running s = true) (hl : s.pcie.linkUp = true) (hf : fnExists s fn = true)
    (hn : fn ≠ 0) : exec (.functionLevelReset fn) s = .next (settled (resetFunction s fn)) := by
  show execFunctionLevelReset fn s = _
  simp [execFunctionLevelReset, hr, hl, hf, hn, done_eq]

end Link

/-- Settles O36, one clause for each equation above. -/
theorem hostLinkRows : Obligations.HostLinkRows := by
  refine ⟨?up, ?down, ?retrain, ?entry, ?d0, ?vfs, ?noVfs, ?resetAll, ?reset⟩
  case up => exact fun s rate width he hl hw => exec_pcieLinkUp he hl hw
  case down => exact fun s rate hr hl hw => exec_pcieLinkDown rate hr hl hw
  case retrain => exact fun s rate width hr hl hw hlow => exec_pcieLinkDown_retrain hr hl hw hlow
  case entry =>
    intro s fn d hr hl hf hd h0
    exact ⟨_, exec_dStateEntry hr hl hf hd h0, by simp, by simp, by simp⟩
  case d0 => exact fun s fn hr hl hf h0 => exec_d0Return hr hl hf h0
  case vfs =>
    intro s n hr hl h0 h1 h63 hv
    exact ⟨_, exec_vfEnable hr hl h0 h1 h63 hv, by simp [modPcie], by simp, by simp [modPcie]⟩
  case noVfs =>
    intro s n hr hl h0 h63
    exact ⟨_, exec_vfEnable_clear hr hl h0 h63, by simp [modPcie]⟩
  case resetAll =>
    intro s hr hl
    exact ⟨_, exec_functionLevelReset_pf0 hr hl, by simp [resetAllFunctions, modPcie], by simp [resetAllFunctions, modPcie],
      by simp [resetAllFunctions, modPcie], by simp [resetAllFunctions, modPcie], by simp [resetAllFunctions, modPcie]⟩
  case reset => exact fun s fn hr hl hf hn => exec_functionLevelReset_vf hr hl hf hn

end Sys2Proof.Machine
end

section
/-! PROOFS. Host requests: completions, time-outs, tags and translations (R409, R412-R414, R416, R417, R419). -/

namespace Sys2Proof.Machine

/-! ### Nothing that waits for the host (R412, R416) -/

/-- With no write, read or entry waiting, trying them again changes nothing. -/
theorem pumpHost_idle {s : State} (hr : s.pcie.waitReqs = []) (hw : s.pcie.waitWrites = []) (hl : s.live = []) : pumpHost s = s := by
  have ht (l : List Nat) : l.foldl tryWrites s = s := by
    induction l with
    | nil => rfl
    | cons fn l ih => rw [List.foldl_cons, show tryWrites s fn = s by simp [tryWrites, hw], ih]
  have hp : pumpDma s = s := by simp [pumpDma, ht, hr]
  rw [pumpHost, hp, flushEntries, hl]
  rfl

section Requests

variable {s : State} {c : HostCpl} (hr : running s = true) (hl : s.pcie.linkUp = true)
include hr hl

/-! ### Completions (R409, R413, R414) -/

theorem exec_hostCompletion_stray (hf : s.pcie.reqs.find? (fun r => r.tag == c.tag) = none)
    (hq : Tab.get? s.pcie.quarantine c.tag = none) : exec (.hostCompletion c) s = .next (settled (aer s 2)) := by
  show execHostCompletion c s = _
  simp [execHostCompletion, hr, hl, hf, hq, done_eq]

theorem exec_hostCompletion_late {fn due : Nat} (hf : s.pcie.reqs.find? (fun r => r.tag == c.tag) = none)
    (hq : Tab.get? s.pcie.quarantine c.tag = some (fn, due)) :
    exec (.hostCompletion c) s = .next (settled (jetInfo (modFunc (unexpected s fn) fn (fun f =>
      { f with lateDropped := BitVec.ofNat 16 (satInc f.lateDropped.toNat 0xFFFF) })) 0x5002 (srcHost fn) (leBytes 2 c.tag))) := by
  show execHostCompletion c s = _
  simp only [execHostCompletion, hr, hl, hf, hq, done_eq]
  rfl

variable {r : HostReq} (hf : s.pcie.reqs.find? (fun r => r.tag == c.tag) = some r)
include hf

theorem exec_hostCompletion_part (hs : c.status = .sc) (hp : c.poisoned = false) (hg : cplGood r c = true)
    (hlt : r.got.length + c.data.length < r.len) :
    exec (.hostCompletion c) s = .next (settled (modPcie s (fun p =>
      { p with reqs := p.reqs.map (fun x => if x.tag = r.tag then { r with got := r.got ++ c.data } else x) }))) := by
  show execHostCompletion c s = _
  simp [execHostCompletion, hr, hl, hf, hs, hp, hg, hlt, done_eq]

theorem exec_hostCompletion_last (hs : c.status = .sc) (hp : c.poisoned = false) (hg : cplGood r c = true)
    (hlen : r.got.length + c.data.length = r.len) :
    exec (.hostCompletion c) s = .next (settled (pumpHost (gotRead (dropReq s r) { r with got := r.got ++ c.data }))) := by
  show execHostCompletion c s = _
  simp [execHostCompletion, hr, hl, hf, hs, hp, hg, hlen, done_eq]

theorem exec_hostCompletion_mismatch (hs : c.status = .sc) (hp : c.poisoned = false) (hg : cplGood r c = false) :
    exec (.hostCompletion c) s = .next (settled (pumpHost (failReq (unexpected (dropReq s r) r.fn) r))) := by
  show execHostCompletion c s = _
  simp [execHostCompletion, hr, hl, hf, hs, hp, hg, done_eq]

theorem exec_hostCompletion_poisoned (hs : c.status = .sc) (hp : c.poisoned = true) :
    exec (.hostCompletion c) s = .next (settled (pumpHost (failReq (aer (reqStatus (dropReq s r) r.fn 3) 3) r))) := by
  show execHostCompletion c s = _
  simp [execHostCompletion, hr, hl, hf, hs, hp, done_eq]

theorem exec_hostCompletion_failed (hs : c.status ≠ .sc) :
    exec (.hostCompletion c) s = .next (settled (pumpHost (failReq (reqStatus (dropReq s r) r.fn 2) r))) := by
  show execHostCompletion c s = _
  simp [execHostCompletion, hr, hl, hf, hs, done_eq]

end Requests

section Tags

variable {s : State} {tag : Nat} (hr : running s = true)
include hr

/-! ### Time-outs and tags (R412) -/

theorem exec_completionTimeout {r : HostReq} (hf : s.pcie.reqs.find? (fun r => r.tag == tag) = some r) :
    exec (.completionTimeout tag) s = .next (settled (pumpHost (timeOutReq s r))) := by
  show execCompletionTimeout tag s = _
  simp [execCompletionTimeout, hr, hf, done_eq]

theorem exec_tagQuarantineEnd {e : Nat × Nat} (hq : Tab.get? s.pcie.quarantine tag = some e) :
    exec (.tagQuarantineEnd tag) s =
      .next (settled (pumpHost (modPcie s (fun p => { p with quarantine := Tab.erase p.quarantine tag })))) := by
  show execTagQuarantineEnd tag s = _
  simp [execTagQuarantineEnd, hr, hq, done_eq]

end Tags

/-- A change of the endpoint's tables leaves every function. -/
theorem getFunc_modPcie (s : State) (f : Pcie → Pcie) (fn : Nat) (h : ∀ p, (f p).funcs = p.funcs) :
    getFunc (modPcie s f) fn = getFunc s fn := by
  rw [getFunc, modPcie, h]
  rfl

section Translations

variable {s : State} (hr : running s = true) (hl : s.pcie.linkUp = true)
include hr hl

/-! ### Translations (R416, R417, R419) -/

section Completion
variable {tr : Translation} {x : TrReq} (hx : s.pcie.trReqs.find? (fun x => x.id == tr.req) = some x)
include hx

theorem exec_translationCompletion_granted (hs : tr.status = .sc) (hok : (if x.write then tr.writeOk else tr.readOk) = true) :
    exec (.translationCompletion tr) s = .next (settled (pumpHost (atcInsert
      (modPcie s (fun p => { p with trReqs := p.trReqs.filter (fun y => y.id != x.id) }))
      { fn := x.fn, page := BitVec.ofNat 52 x.page, target := tr.page, r := tr.readOk, w := tr.writeOk }))) := by
  show execTranslationCompletion tr s = _
  simp [execTranslationCompletion, hr, hl, hx, hs, hok, done_eq]

theorem exec_translationCompletion_refused (hno : tr.status ≠ .sc ∨ (if x.write then tr.writeOk else tr.readOk) = false) :
    exec (.translationCompletion tr) s = .next (settled (pumpHost (refuseTranslation
      (modPcie s (fun p => { p with trReqs := p.trReqs.filter (fun y => y.id != x.id) })) x))) := by
  show execTranslationCompletion tr s = _
  have hno' : (tr.status == .sc && (if x.write then tr.writeOk else tr.readOk)) = false := by
    rcases hno with h | h <;> simp [h]
  simp [execTranslationCompletion, hr, hl, hx, hno', done_eq]

end Completion

/-- The translations that an Invalidation Request leaves (R417). -/
def atcLeft (s : State) (fn : Nat) (page : BitVec 52) (pages : Nat) : List AtcEnt :=
  s.pcie.atc.filter (fun e => !(e.fn == fn && (decide (page.toNat ≤ e.page.toNat) && decide (e.page.toNat < page.toNat + pages))))

/-- An Invalidation Request for a function without ATS ends no read: its entries leave the cache, and the completion is sent. -/
theorem exec_invalidationRequest {fn : Nat} (itag pages : Nat) (page : BitVec 52) (hf : fnExists s fn = true)
    (ha : (getFunc s fn).ats = false) : exec (.invalidationRequest fn itag page pages) s =
      .next (settled (pumpHost (emit (modPcie s (fun p => { p with atc := atcLeft s fn page pages })) (.invalidated fn itag)))) := by
  show execInvalidationRequest fn itag page pages s = _
  unfold execInvalidationRequest
  rw [if_neg (by simp [hr, hl, hf])]
  dsimp only
  rw [getFunc_modPcie, if_neg (Bool.eq_false_iff.1 ha)]
  · rfl
  · exact fun _ => rfl

end Translations

/-- Settles O37: the clauses that name a next state are the equations above; the others read off what its parts hold. -/
theorem hostRequestRows : Obligations.HostRequestRows := by
  refine ⟨?stray, ?late, ?part, ?last, ?mismatch, ?poisoned, ?failed, ?timeout, ?tagEnd, ?tagFree, ?granted, ?refused, ?invalidated⟩
  case stray =>
    intro s c hr hl hf hq
    exact ⟨_, exec_hostCompletion_stray hr hl hf hq, by simp [aer, modPcie], by simp [aer, modPcie], by simp [aer]⟩
  case late =>
    intro s c fn due hr hl hf hq
    exact ⟨_, exec_hostCompletion_late hr hl hf hq, by simp [unexpected, aer, modPcie, reqStatus, setFunc],
      by simp [unexpected, aer, modPcie, reqStatus, setFunc], by simp [unexpected, aer, reqStatus],
      by simp [unexpected, aer, modPcie, reqStatus, setFunc]⟩
  case part =>
    intro s c r hr hl hf hs hp hg hlt
    refine ⟨_, exec_hostCompletion_part hr hl hf hs hp hg hlt, ?_, by simp⟩
    rw [settled_pcie_reqs]
    exact List.mem_map.2 ⟨r, List.mem_of_find?_eq_some hf, if_pos rfl⟩
  case last => exact fun s c r hr hl hf hs hp hg hlen => exec_hostCompletion_last hr hl hf hs hp hg hlen
  case mismatch => exact fun s c r hr hl hf hs hp hg => exec_hostCompletion_mismatch hr hl hf hs hp hg
  case poisoned => exact fun s c r hr hl hf hs hp => exec_hostCompletion_poisoned hr hl hf hs hp
  case failed => exact fun s c r hr hl hf hs => exec_hostCompletion_failed hr hl hf hs
  case timeout => exact fun s tag r hr hf => exec_completionTimeout hr hf
  case tagEnd => exact fun s tag e hr hq => exec_tagQuarantineEnd hr hq
  case tagFree =>
    intro s tag e hr hq hwr hww hlive
    refine ⟨_, exec_tagQuarantineEnd hr hq, ?_, ?_⟩ <;> rw [pumpHost_idle (by exact hwr) (by exact hww) (by exact hlive)]
    · simp [modPcie]
    · simp [modPcie]
  case granted => exact fun s tr x hr hl hx hs hok => exec_translationCompletion_granted hr hl hx hs hok
  case refused => exact fun s tr x hr hl hx hno => exec_translationCompletion_refused hr hl hx hno
  case invalidated =>
    intro s fn itag pages page hr hl hf ha hwr hww hlive
    refine ⟨_, exec_invalidationRequest hr hl itag pages page hf ha, ?_⟩
    rw [pumpHost_idle (by exact hwr) (by exact hww) (by exact hlive), settled_pcie_atc]
    refine ⟨.settled List.prefix_rfl rfl, fun e he => List.mem_of_mem_filter he, fun e he hin => ?_⟩
    have hout := List.of_mem_filter he
    simp [hin] at hout

end Sys2Proof.Machine
end

section
/-! PROOFS. Peer windows: accesses and window registers (R420-R426). -/

namespace Sys2Proof.Machine

/-! ### Accesses to a window (R420-R422) -/

section Access

variable {s : State} {w : WinTlp} (hw : winReached s w = true)
include hw

theorem exec_windowWrite_refused {data : List (Option Byte)}
    (h : winRefuses s w true (enabledSpan w.offset data).1 (enabledSpan w.offset data).2 = true) :
    exec (.windowWrite w data) s = .next (settled (winRefused s w true)) := by
  show execWindowWrite w data s = _
  simp [execWindowWrite, hw, h, done_eq]

theorem exec_windowWrite_byte {b : Byte} (h : winRefuses s w true w.offset (w.offset + 1) = false) :
    exec (.windowWrite w [some b]) s =
      .next (settled (modTier s (winTile (getWindow s w.window).act) (fun x => { x with
        staging := Mem.set x.staging (winOffset (getWindow s w.window).act + w.offset - winBase (getWindow s w.window).act) b }))) := by
  show execWindowWrite w [some b] s = _
  have hspan : enabledSpan w.offset [some b] = (w.offset, w.offset + 1) := by simp [enabledSpan, List.range_succ]
  simp [execWindowWrite, hw, hspan, h, pasteEnabled, done_eq]

theorem exec_windowRead_refused {len : Nat} (h : winRefuses s w false w.offset (w.offset + len) = true) :
    exec (.windowRead w len) s = .next (settled (emit (winRefused s w false) (.peerCompletion .ur []))) := by
  show execWindowRead w len s = _
  simp [execWindowRead, hw, h, done_eq]

theorem exec_windowRead_accepted {len : Nat} (h : winRefuses s w false w.offset (w.offset + len) = false) :
    exec (.windowRead w len) s =
      .next (settled (emit s (.peerCompletion .sc (Mem.bytes (getTile s (winTile (getWindow s w.window).act)).tier.staging
        (winOffset (getWindow s w.window).act + w.offset - winBase (getWindow s w.window).act) len)))) := by
  show execWindowRead w len s = _
  simp [execWindowRead, hw, h, done_eq]

end Access

/-- A refused access marks its window and counts, and leaves the mapping (R421). -/
theorem getWindow_winRefused (s : State) (w : WinTlp) (write : Bool) :
    getWindow (winRefused s w write) w.window =
      { getWindow s w.window with
        dropped := (getWindow s w.window).dropped || write, readRefused := (getWindow s w.window).readRefused || !write
        refused := satInc (getWindow s w.window).refused 255 } :=
  Tab.getD_set_self _ _ _ _

/-! ### Window registers (R424, R426) -/

section Registers

variable {s : State} {fn w : Nat} (v : W32) (hw : winReach s fn w = true)
include hw

theorem exec_winCommit (hv : v.toNat % 2 = 1) : exec (.winCommit fn w v) s = .next (settled (commitWindow s w)) := by
  show execWinCommit fn w v s = _
  simp [execWinCommit, hw, bit, hv, done_eq]

theorem exec_windowDirectWrite {off : Nat} (ho : off = 0x00 ∨ off = 0x04 ∨ off = 0x08 ∨ off = 0x0C ∨ off = 0x10) :
    exec (.windowDirectWrite fn w off v) s = .next (settled (directWindow s fn w)) := by
  show execWindowDirectWrite fn w off v s = _
  simp [execWindowDirectWrite, hw, ho, done_eq]

end Registers

/-- Settles O38: what each access and each register write leaves of the window, the staging area and the answer sent. -/
theorem windowRows : Obligations.WindowRows := by
  refine ⟨?dropped, ?stored, ?refused, ?read, ?commit, ?commitErr, ?direct⟩
  case dropped =>
    intro s w data hw h
    refine ⟨_, exec_windowWrite_refused hw h, ?_, ?_⟩
    · rw [settled_tiles]
      rfl
    · simp [getWindow_winRefused]
  case stored =>
    intro s w b hw h _
    exact ⟨_, exec_windowWrite_byte hw h, by rw [settled_pcie_windows]; rfl, by simp⟩
  case refused =>
    intro s w len hw h
    refine ⟨_, exec_windowRead_refused hw h, ?_, ?_, .settled List.prefix_rfl rfl⟩
    · rw [settled_tiles]
      rfl
    · rw [getWindow_settled]
      show (getWindow (winRefused s w false) w.window).readRefused = true
      simp [getWindow_winRefused]
  case read =>
    intro s w len hw h
    exact ⟨_, exec_windowRead_accepted hw h, by rw [settled_tiles]; rfl, by rw [settled_pcie_windows]; rfl,
      .settled List.prefix_rfl rfl⟩
  case commit =>
    intro s fn w v hw hv hg
    refine ⟨_, exec_winCommit v hw hv, ?_⟩
    rw [commitWindow, if_pos hg]
    exact ⟨by simp, by simp, fun k hk => by simp [getWindow_setWindow_ne _ _ _ _ hk]⟩
  case commitErr =>
    intro s fn w v hw hv hg
    refine ⟨_, exec_winCommit v hw hv, ?_⟩
    rw [commitWindow, if_neg (Bool.eq_false_iff.1 hg)]
    exact ⟨by simp, by simp⟩
  case direct =>
    intro s fn w off v hw ho
    refine ⟨_, exec_windowDirectWrite v hw ho, ?_⟩
    rw [getWindow_settled]
    exact Tab.getD_set_self _ _ _ _

end Sys2Proof.Machine
end

section
/-! PROOFS. FUNC_ASSIGN and its withdrawal: the tables of owners and ranges, then the commands (R396, R397, Table 11-7). -/

namespace Sys2Proof.Machine

/-! ### Owners and ranges set (R396) -/

/-- The holder of a resource after a list of them goes to a function; PF0 holds what has no entry. -/
theorem getD_ownTab (ns : List Nat) (t : Tab Nat) (vf n : Nat) :
    Tab.getD (ownTab t ns vf) n 0 = if n ∈ ns then vf else Tab.getD t n 0 := by
  induction ns generalizing t with
  | nil => rfl
  | cons m ns ih =>
    have hone : Tab.getD (if vf = 0 then Tab.erase t m else Tab.set t m vf) n 0 = if n = m then vf else Tab.getD t n 0 := by
      by_cases hv : vf = 0 <;> by_cases hn : n = m
      · subst hv hn; simp [Tab.getD]
      · simp [hv, hn, Tab.getD, Tab.get?_erase_ne _ _ _ hn]
      · subst hn; simp [hv]
      · simp [hv, hn, Tab.getD_set_ne _ _ _ _ _ hn]
    rw [ownTab, List.foldl_cons, ← ownTab, ih, hone]
    by_cases hm : n ∈ ns <;> simp [hm]

theorem mem_rangeOf {first last n : Nat} : n ∈ rangeOf first last ↔ first ≤ n ∧ n ≤ last := by
  rw [rangeOf, List.mem_range'_1]
  omega

theorem length_rangeOf (first last : Nat) : (rangeOf first last).length = last + 1 - first := by simp [rangeOf]

/-- None in a range of resources has a property that none from its first to its last has. -/
theorem any_rangeOf_eq_false {first last : Nat} {p : Nat → Bool} (h : ∀ n, first ≤ n → n ≤ last → p n = false) :
    (rangeOf first last).any p = false := by
  refine List.any_eq_false.2 fun n hmem => ?_
  obtain ⟨hfirst, hlast⟩ := mem_rangeOf.1 hmem
  simp [h n hfirst hlast]

theorem resourceOwner_setOwners {kind : Nat} (s : State) (ns : List Nat) (vf n : Nat) :
    resourceOwner (setOwners s kind ns vf) kind n = if n ∈ ns then vf else resourceOwner s kind n := by
  match kind with
  | 0 => exact getD_ownTab ns s.pcie.sqOwner vf n
  | 1 => exact getD_ownTab ns s.pcie.cqOwner vf n
  | _ + 2 => exact getD_ownTab ns s.pcie.winOwner vf n

/-- Who holds what is in the endpoint's tables alone. -/
theorem resourceOwner_congr {s t : State} (kind n : Nat) (h : t.pcie.sqOwner = s.pcie.sqOwner ∧ t.pcie.cqOwner = s.pcie.cqOwner ∧
    t.pcie.winOwner = s.pcie.winOwner) : resourceOwner t kind n = resourceOwner s kind n := by
  obtain ⟨hsq, hcq, hwin⟩ := h
  unfold resourceOwner sqOwner cqOwner winOwner
  rw [hsq, hcq, hwin]

@[simp] theorem resourceOwner_settled (s : State) (kind n : Nat) : resourceOwner (settled s) kind n = resourceOwner s kind n :=
  resourceOwner_congr kind n (by simp)

@[simp] theorem resourceOwner_mbxOk (s : State) (mb : Nat) (data : List Byte) (kind n : Nat) :
    resourceOwner (mbxOk s mb data) kind n = resourceOwner s kind n := resourceOwner_congr kind n (by simp [mbxOk])

@[simp] theorem resourceOwner_mbxTake (s : State) (g : Go) (objs : List (Nat × Nat)) (r : Option Running) (kind n : Nat) :
    resourceOwner (mbxTake s g objs r) kind n = resourceOwner s kind n := resourceOwner_congr kind n (by simp)

/-- Taking a range of volumes out of another leaves the volumes outside it. -/
theorem any_cutRange (first last v : Nat) (r : Nat × Nat) :
    (cutRange first last r).any (fun r => decide (r.1 ≤ v) && decide (v ≤ r.2)) = true ↔
      (r.1 ≤ v ∧ v ≤ r.2) ∧ (v < first ∨ last < v) := by
  unfold cutRange
  split <;> split <;> simp <;> omega

theorem any_flatMap_cutRange (first last v : Nat) (l : List (Nat × Nat)) :
    (l.flatMap (cutRange first last)).any (fun r => decide (r.1 ≤ v) && decide (v ≤ r.2)) = true ↔
      l.any (fun r => decide (r.1 ≤ v) && decide (v ≤ r.2)) = true ∧ (v < first ∨ last < v) := by
  induction l with
  | nil => simp
  | cons r l ih =>
    rw [List.flatMap_cons, List.any_append, Bool.or_eq_true, any_cutRange, ih, List.any_cons, Bool.or_eq_true, Bool.and_eq_true,
      decide_eq_true_eq, decide_eq_true_eq, or_and_right]

/-! ### FUNC_ASSIGN (R396, R397, Table 11-7) -/

/-- The fields KIND, OP and the range are in order. -/
theorem assignFields_clear {kind op first last : Nat} (hk : kind ≤ 3) (ho : op ≤ 1) (hfl : first ≤ last) :
    (assignFields kind op first last).all (fun f => !f.2) = true := by
  simp [assignFields]
  omega

/-- The check of windows is met by resources of another kind, and by windows that are all stopped (Table 11-7). -/
theorem windows_ok {s : State} {kind vf : Nat} (h : kind = 2 → windowsStopped s vf = true) :
    (kind != 2 || windowsStopped s vf) = true := by
  by_cases hk : kind = 2
  · simp [h hk]
  · simp [hk]

section Assign

variable {s : State} {g : Go} {vf kind first last : Nat} (h : GoReady s g false 8 []) (hfl : first ≤ last) (hv : 1 ≤ vf)
  (hn : vf ≤ s.pcie.numVfs)
include h hfl hv hn

theorem exec_funcAssign (hk : kind < 3) (hlast : last < resourceEnd s kind)
    (hfree : ∀ n, first ≤ n → n ≤ last → resourceOwner s kind n = 0 ∧ resourceBusy s kind n = false)
    (hwin : kind = 2 → windowsStopped s vf = true) (hlim : vfHolds s kind vf + (last + 1 - first) ≤ vfLimit s kind) :
    exec (.funcAssign g vf kind 0 first last) s =
      .next (settled (mbxOk (setOwners (mbxTake s g [] none) kind (rangeOf first last) vf) g.mb [])) := by
  have hk3 : kind ≠ 3 := by omega
  have hfresh : (rangeOf first last).filter (fun n => resourceOwner s kind n != vf) = rangeOf first last := by
    refine List.filter_eq_self.2 fun n hmem => ?_
    obtain ⟨h1, h2⟩ := mem_rangeOf.1 hmem
    have hne : vf ≠ 0 := by omega
    simp [(hfree n h1 h2).1, hne.symm]
  have howner : (rangeOf first last).any (fun n => resourceOwner s kind n != 0) = false :=
    any_rangeOf_eq_false fun n h1 h2 => by simp [(hfree n h1 h2).1]
  have hbusy : (rangeOf first last).any (resourceBusy s kind) = false :=
    any_rangeOf_eq_false fun n h1 h2 => (hfree n h1 h2).2
  show execFuncAssign g vf kind 0 first last s = _
  simp only [execFuncAssign, hk3, if_false, hfresh]
  rw [if_neg (by decide), mbxRun_clear _ _ _ _ h rfl (assignFields_clear (by omega) (by omega) hfl)]
  · rfl
  · simp [-List.any_eq_false, -Bool.not_eq_eq_eq_not, need, needStopped, hv, hn, beq_false_of_ne hk3, hlast, howner, hbusy,
      windows_ok hwin, length_rangeOf, not_lt.2 hlim]

theorem exec_funcAssign_volumes (hlast : last < s.part.volumes) (hlim : vfHolds s 3 vf < 16) :
    exec (.funcAssign g vf 3 0 first last) s =
      .next (settled (mbxOk (setRanges (mbxTake s g [] none) vf (Tab.getD s.pcie.volRanges vf [] ++ [(first, last)])) g.mb [])) := by
  show execFuncAssign g vf 3 0 first last s = _
  simp only [execFuncAssign, if_true]
  rw [if_neg (by decide), mbxRun_clear _ _ _ _ h rfl (assignFields_clear (by omega) (by omega) hfl)]
  · rw [mbxTake_pcie, done_eq]
  · simp [need, needStopped, hv, hn, hlast, vfLimit]
    omega

theorem exec_withdraw (hk : kind < 3) (hlast : last < resourceEnd s kind)
    (hheld : ∀ n, first ≤ n → n ≤ last → resourceOwner s kind n = vf ∧ resourceBusy s kind n = false)
    (hwin : kind = 2 → windowsStopped s vf = true) :
    exec (.withdraw g vf kind 1 first last) s =
      .next (settled (mbxOk (setOwners (mbxTake s g [] none) kind (rangeOf first last) 0) g.mb [])) := by
  have hk3 : kind ≠ 3 := by omega
  have howner : (rangeOf first last).any (fun n => resourceOwner s kind n != vf) = false :=
    any_rangeOf_eq_false fun n h1 h2 => by simp [(hheld n h1 h2).1]
  have hbusy : (rangeOf first last).any (resourceBusy s kind) = false :=
    any_rangeOf_eq_false fun n h1 h2 => (hheld n h1 h2).2
  show execWithdraw g vf kind 1 first last s = _
  simp only [execWithdraw, hk3, if_false]
  rw [if_neg (by decide), mbxRun_clear _ _ _ _ h rfl (assignFields_clear (by omega) (by omega) hfl)]
  · rfl
  · simp [-List.any_eq_false, -Bool.not_eq_eq_eq_not, need, needStopped, hv, hn, beq_false_of_ne hk3, hlast, howner, hbusy,
      windows_ok hwin]

theorem exec_withdraw_volumes (hlast : last < s.part.volumes) :
    exec (.withdraw g vf 3 1 first last) s =
      .next (settled (mbxOk (setRanges (mbxTake s g [] none) vf
        ((Tab.getD s.pcie.volRanges vf []).flatMap (cutRange first last))) g.mb [])) := by
  show execWithdraw g vf 3 1 first last s = _
  simp only [execWithdraw, if_true]
  rw [if_neg (by decide), mbxRun_clear _ _ _ _ h rfl (assignFields_clear (by omega) (by omega) hfl)]
  · rw [mbxTake_pcie, done_eq]
  · simp [need, needStopped, hv, hn, hlast]

end Assign

/-- The mailboxes are no part of the endpoint's tables of owners. -/
theorem setOwners_mbx (s : State) (kind : Nat) (ns : List Nat) (vf : Nat) : (setOwners s kind ns vf).mbx = s.mbx := by
  unfold setOwners
  split <;> rfl

/-- What FUNC_ASSIGN and its withdrawal leave of queues and windows: a successful answer, a new holder in the range and the old
one outside it (R396). -/
theorem setOwners_answered (s : State) (g : Go) (kind first last vf : Nat) :
    let t := settled (mbxOk (setOwners (mbxTake s g [] none) kind (rangeOf first last) vf) g.mb [])
    Answered t g [] ∧ (∀ n, first ≤ n → n ≤ last → resourceOwner t kind n = vf) ∧
      (∀ n, n < first ∨ last < n → resourceOwner t kind n = resourceOwner s kind n) := by
  refine ⟨mbxOk_answered_of_mbx [] (setOwners_mbx _ _ _ _), fun n h1 h2 => ?_, fun n hout => ?_⟩
  · simp [resourceOwner_setOwners, mem_rangeOf, h1, h2]
  · have hn : ¬ (first ≤ n ∧ n ≤ last) := by omega
    simp [resourceOwner_setOwners, mem_rangeOf, hn]

/-- What they leave of volumes: a successful answer and the VF's new ranges (R397). -/
theorem setRanges_answered (s : State) (g : Go) (vf : Nat) (l : List (Nat × Nat)) :
    let t := settled (mbxOk (setRanges (mbxTake s g [] none) vf l) g.mb [])
    Answered t g [] ∧ Tab.getD t.pcie.volRanges vf [] = l :=
  ⟨mbxOk_answered_of_mbx [] rfl, by simp [mbxOk, setRanges]⟩

/-- Settles O43: FUNC_ASSIGN and WITHDRAW, each for queues and windows and for volumes. -/
theorem assignRows : Obligations.AssignRows := by
  refine ⟨?give, ?giveVolumes, ?takeBack, ?takeBackVolumes⟩
  case give =>
    intro s g vf kind first last h hk hfl hv hn hlast hfree hwin hlim
    exact ⟨_, exec_funcAssign h hfl hv hn hk hlast hfree hwin hlim, setOwners_answered s g kind first last vf⟩
  case giveVolumes =>
    intro s g vf first last h hfl hv hn hlast hlim
    exact ⟨_, exec_funcAssign_volumes h hfl hv hn hlast hlim, setRanges_answered s g vf _⟩
  case takeBack =>
    intro s g vf kind first last h hk hfl hv hn hlast hheld hwin
    exact ⟨_, exec_withdraw h hfl hv hn hk hlast hheld hwin, setOwners_answered s g kind first last 0⟩
  case takeBackVolumes =>
    intro s g vf first last v h hfl hv hn hlast _
    obtain ⟨hans, hranges⟩ := setRanges_answered s g vf ((Tab.getD s.pcie.volRanges vf []).flatMap (cutRange first last))
    refine ⟨_, exec_withdraw_volumes h hfl hv hn hlast, hans, ?_⟩
    rw [hranges]
    exact any_flatMap_cutRange first last v _

end Sys2Proof.Machine
end

section
/-! PROOFS. Work rings (chapter 10): what the shared operations of the rings leave, the doorbells and dispatch of SQs, and the rows of
dispatched entries. -/

namespace Sys2Proof.Machine

/-! ### Reads of host memory (R408) -/

theorem tryRead_Frame (s : State) (r : HostReq) : Frame [.pcie] s (tryRead s r) := by
  unfold tryRead
  split
  · exact .refl _ s
  · split
    · exact ((modPcie_Frame s _).trans (atcTouch_Frame _ _ _)).trans ((emit_Frame _ _).mono (by simp))
    · exact askPage_Frame _ _ _ _
    · exact .refl _ s

/-- A read of host memory changes the requester's tables and what is emitted. -/
theorem hostRead_Frame (s : State) (fn : Nat) (p : ReqPurpose) (addr len : Nat) : Frame [.pcie] s (hostRead s fn p addr len) :=
  (modPcie_Frame s _).trans (.foldl tryRead tryRead_Frame _ _)

@[simp] theorem hostRead_live (s : State) (fn : Nat) (p : ReqPurpose) (addr len : Nat) : (hostRead s fn p addr len).live = s.live :=
  (hostRead_Frame s fn p addr len).live (by simp)

/-! ### Rings under the shared operations -/

theorem Frame.getSq {l : List Piece} {s t : State} (h : Frame l s t) (hl : .sqs ∉ l) (n : Nat) : getSq t n = getSq s n := by
  simp only [Machine.getSq, h.sqs hl]

theorem Frame.getCq {l : List Piece} {s t : State} (h : Frame l s t) (hl : .cqs ∉ l) (n : Nat) : getCq t n = getCq s n := by
  simp only [Machine.getCq, h.cqs hl]

@[simp] theorem getCq_settled (s : State) (n : Nat) : getCq (settled s) n = getCq s n := by simp [getCq]

@[simp] theorem getSq_hostRead (s : State) (fn : Nat) (p : ReqPurpose) (addr len n : Nat) :
    getSq (hostRead s fn p addr len) n = getSq s n := (hostRead_Frame s fn p addr len).getSq (by simp) n

@[simp] theorem getSq_hostWrite (s : State) (fn addr len : Nat) (data : Mem) (entry : Option Nat) (n : Nat) :
    getSq (hostWrite s fn addr len data entry) n = getSq s n := (hostWrite_Frame s fn addr len data entry).getSq (by simp) n

@[simp] theorem getCq_sendMsg (s : State) (fn v n : Nat) : getCq (sendMsg s fn v) n = getCq s n := by
  obtain ⟨fs, o, h⟩ := sendMsg_frame s fn v
  rw [h]; rfl

/-- A bit of a written word. -/
theorem bit_toNat {w : Nat} (v : BitVec w) (i : Nat) : bit v.toNat i = v.getLsbD i := by
  rw [bit_eq_testBit, BitVec.testBit_toNat]

/-! ### The scan and the published head (R448-R450) -/

theorem active_of_mayFetch {s : State} {n : Nat} (h : mayFetch s n = true) : (getSq s n).active = true := by
  simp only [mayFetch, Bool.and_eq_true] at h
  tauto

/-- A scan that may read on reads the header at the scan position. -/
theorem startScan_reads {s : State} {n : Nat} (hs : (getSq s n).scanning = false) (hf : mayFetch s n = true) :
    startScan s n = hostRead (setSq s n { getSq s n with scanning := true, again := false }) (sqOwner s n) (.header n)
      ((getSq s n).base.toNat + 64 * (getSq s n).scan) 64 := by
  simp [startScan, active_of_mayFetch hf, hs, hf, sqOwner]

/-- A scan under way is noted to go on once more. -/
theorem startScan_again {s : State} {n : Nat} (ha : (getSq s n).active = true) (hs : (getSq s n).scanning = true) :
    startScan s n = setSq s n { getSq s n with again := true } := by
  simp [startScan, ha, hs]

/-- A doorbell changes nothing of its SQ but whether the scan runs or is to go on. -/
theorem startScan_sq (s : State) (n : Nat) :
    ∃ sc ag, getSq (startScan s n) n = { getSq s n with scanning := sc, again := ag } := by
  unfold startScan
  dsimp only
  split
  · exact ⟨_, _, rfl⟩
  · split
    · exact ⟨_, true, getSq_setSq_self _ _ _⟩
    · split
      · exact ⟨_, true, getSq_setSq_self _ _ _⟩
      · exact ⟨true, false, by simp⟩

/-- Publication sets the published position to the dispatched head, and nothing else of the SQ (R450). -/
theorem publish_sq (s : State) (n : Nat) :
    getSq (publish s n) n = { getSq s n with pub := (getSq s n).head, pubWrap := (getSq s n).headWrap } := by
  simp [publish]

theorem exec_sqDb {s : State} {fn sq : Nat} (h : sqReach s fn sq = true) : exec (.sqDb fn sq) s = .next (settled (startScan s sq)) :=
  if_pos h

/-! ### The arbiter (R454) -/

/-- Going round a list from any place reaches each of its elements. -/
theorem exists_rotation_getD {ns : List Nat} {n : Nat} (h : n ∈ ns) (start : Nat) :
    ∃ i < ns.length, ns.getD ((start + i) % ns.length) 0 = n := by
  obtain ⟨k, hk, rfl⟩ := List.getElem_of_mem h
  have hr : start % ns.length < ns.length := Nat.mod_lt _ (by omega)
  suffices hi : ∃ i < ns.length, (start % ns.length + i) % ns.length = k by
    obtain ⟨i, hi, e⟩ := hi
    exact ⟨i, hi, by rw [← Nat.mod_add_mod, e, List.getD_eq_getElem _ _ hk]⟩
  by_cases hle : start % ns.length ≤ k
  · exact ⟨k - start % ns.length, by omega, by rw [Nat.add_sub_cancel' hle, Nat.mod_eq_of_lt hk]⟩
  · refine ⟨k + ns.length - start % ns.length, by omega, ?_⟩
    rw [Nat.add_sub_cancel' (by omega), Nat.add_mod_right, Nat.mod_eq_of_lt hk]

/-- A pass finds an SQ wherever one of the tile's is ready with credit. -/
theorem arbPass_of_ready {s : State} {tile n : Nat} (hn : n ∈ sqsOn s tile) (hr : sqReady s n = true) (hc : (getSq s n).credit ≠ 0) :
    ∃ u, arbPass s tile = some u := by
  obtain ⟨i, hi, hat⟩ := exists_rotation_getD hn (getTile s tile).arb.rr
  unfold arbPass
  dsimp only
  split
  next hnone =>
    refine absurd ?_ (List.find?_eq_none.1 hnone i (List.mem_range.2 hi))
    rw [hat, hr, Bool.true_and]
    exact bne_iff_ne.2 hc
  next => exact ⟨_, rfl⟩

section Dispatch

variable {s u : State} {tile : Nat} (hs : serving s = true) (ht : tileUp s tile = true)

include hs ht

theorem exec_sqDispatch (h : arbPass s tile = some u) : exec (.sqDispatch tile) s = .next (settled u) := by
  show execSqDispatch tile s = _
  simp [execSqDispatch, hs, ht, h, done_eq]

/-- Where no ready SQ has credit left, the pass is made with the credits reloaded. -/
theorem exec_sqDispatch_refreshed (h : arbPass s tile = none) (hr : arbPass (refreshCredits s tile) tile = some u) :
    exec (.sqDispatch tile) s = .next (settled u) := by
  show execSqDispatch tile s = _
  simp [execSqDispatch, hs, ht, h, hr, done_eq]

end Dispatch

/-! ### Dispatched entries (R442-R447) -/

/-- The instruction `c` is the row of the block entry `id` with opcode `opc`, which asks for `op` (Table 10-4). -/
def BlockCode (id : Nat) (op : BlockOp) (opc : Nat) (c : Instr) : Prop :=
  op = .read ∧ opc = 0x01 ∧ c = .ringRead id ∨ op = .write ∧ opc = 0x02 ∧ c = .ringWrite id ∨
    op = .flush ∧ opc = 0x03 ∧ c = .ringFlush id ∨ op = .zeroes ∧ opc = 0x04 ∧ c = .ringWriteZeroes id ∨
    op = .dealloc ∧ opc = 0x05 ∧ c = .ringDeallocate id

theorem exec_of_blockCode {id opc : Nat} {op : BlockOp} {c : Instr} (h : BlockCode id op opc c) (s : State) :
    exec c s = startBlock s id opc op := by
  obtain ⟨rfl, rfl, rfl⟩ | ⟨rfl, rfl, rfl⟩ | ⟨rfl, rfl, rfl⟩ | ⟨rfl, rfl, rfl⟩ | ⟨rfl, rfl, rfl⟩ := h <;> rfl

/-- The instruction `c` is the row of the offload entry `id` with opcode `opc` (Tables 10-5 to 10-7). -/
def OffloadCode (id opc : Nat) (c : Instr) : Prop :=
  opc = 0x10 ∧ c = .pqCompute id ∨ opc = 0x11 ∧ c = .reconstruct id ∨ opc = 0x12 ∧ c = .copy id

theorem exec_of_offloadCode {id opc : Nat} {c : Instr} (h : OffloadCode id opc c) (s : State) : exec c s = startOffload s id opc := by
  obtain ⟨rfl, rfl⟩ | ⟨rfl, rfl⟩ | ⟨rfl, rfl⟩ := h <;> rfl

theorem id_of_getLive? {s : State} {id : Nat} {l : Live} (h : getLive? s id = some l) : l.id = id := by
  simpa using List.find?_some h

@[simp] theorem getLive?_settled (s : State) (id : Nat) : getLive? (settled s) id = getLive? s id := by simp [getLive?]

/-- A change of one entry read back. -/
theorem getLive?_modLive_self {s : State} {id : Nat} {l : Live} {f : Live → Live} (h : getLive? s id = some l)
    (hf : ∀ l, (f l).id = l.id) : getLive? (modLive s id f) id = some (f l) := by
  have hmap := find?_map_of_key Live.id (fun l => if l.id = id then f l else l) (fun l => by split; exacts [hf l, rfl]) id s.live
  rw [getLive?] at h
  rw [getLive?, modLive, hmap, h]
  simp [id_of_getLive? h]

/-- A command that is forwarded stands among the commands, changed in its phase and its place in the order of sending alone. -/
theorem mem_forwardCmd_cmds {s : State} {c : Cmd} (h : c ∈ s.cmds) :
    ∃ o, { c with phase := .forwarded, fwd := o } ∈ (forwardCmd s c).cmds := by
  have hm : { c with phase := .forwarded, fwd := none } ∈
      (modCmd s c.id (fun c => { c with phase := .forwarded, fwd := none })).cmds := List.mem_map.2 ⟨c, h, if_pos rfl⟩
  unfold forwardCmd
  dsimp only
  split
  · exact ⟨none, hm⟩
  · exact ⟨some s.nextId, List.mem_map.2 ⟨_, hm, if_pos rfl⟩⟩

/-- Forwarding leaves the ring entries, and takes handles alone. -/
theorem forwardCmd_live_nextId (s : State) (c : Cmd) : (forwardCmd s c).live = s.live ∧ s.nextId ≤ (forwardCmd s c).nextId := by
  unfold forwardCmd
  dsimp only
  split
  · exact ⟨rfl, le_rfl⟩
  · exact ⟨rfl, Nat.le_succ _⟩

/-- The state with a command entered under the next handle. -/
def withCmd (s : State) (c : Cmd) : State := bump { s with cmds := s.cmds ++ [c] }

theorem enterBlock_eq (s : State) (l : Live) (op : BlockOp) : enterBlock s l op =
    modLive (forwardCmd (withCmd s (blockCmd s l op)) (blockCmd s l op)) l.id (fun y => { y with started := true }) := rfl

section Entry

variable {s : State} {id opc : Nat} {l : Live} (hl : getLive? s id = some l) (hst : startable s l opc = true)

include hl

/-- A block entry that starts: a fresh handle, its command on the way to the home tile, and the entry marked started. -/
theorem enterBlock_starts (op : BlockOp) : s.nextId < (enterBlock s l op).nextId ∧
    (∃ x ∈ (enterBlock s l op).cmds, x = { blockCmd s l op with phase := .forwarded, fwd := x.fwd }) ∧
    getLive? (enterBlock s l op) id = some { l with started := true } := by
  obtain rfl := id_of_getLive? hl
  have hin : blockCmd s l op ∈ (withCmd s (blockCmd s l op)).cmds := List.mem_append_right _ List.mem_cons_self
  obtain ⟨o, hcmd⟩ := mem_forwardCmd_cmds hin
  obtain ⟨hlive, hnext⟩ := forwardCmd_live_nextId (withCmd s (blockCmd s l op)) (blockCmd s l op)
  have hfound : getLive? (forwardCmd (withCmd s (blockCmd s l op)) (blockCmd s l op)) l.id = some l := by
    rw [getLive?, hlive]; exact hl
  rw [enterBlock_eq]
  exact ⟨hnext, ⟨_, hcmd, rfl⟩, getLive?_modLive_self hfound (fun _ => rfl)⟩

include hst

theorem startBlock_starts (op : BlockOp) : startBlock s id opc op = .next (settled (enterBlock s l op)) := by
  simp [startBlock, hl, hst, done_eq]

theorem startOffload_starts : startOffload s id opc = .next (settled (beginOffload s l)) := by
  simp [startOffload, hl, hst, done_eq]

end Entry

theorem exec_skip {s : State} {id : Nat} {l : Live} (hl : getLive? s id = some l) (hst : startable s l 0x3F = true) :
    exec (.skip id) s = .next (settled (finishEntry (modLive s id (fun y => { y with started := true })) id 0)) := by
  show execSkip id s = _
  simp [execSkip, hl, opcSkip, hst, done_eq]

/-- Settles O40: the doorbell by the scan it starts, dispatch by the arbiter's pass, each entry by what its row starts. -/
theorem ringEntryRows : Obligations.RingEntryRows := by
  refine ⟨?scan, ?again, ?pass, ?refreshed, ?ready, ?block, ?offload, ?skip⟩
  case scan =>
    intro s fn sq hr hs hf
    refine ⟨_, exec_sqDb hr, ?_⟩
    simp [startScan_reads hs hf]
  case again =>
    intro s fn sq hr ha hs
    refine ⟨_, exec_sqDb hr, ?_⟩
    rw [startScan_again ha hs, getSq_settled, getSq_setSq_self]
  case pass =>
    intro s u tile hs ht h
    exact exec_sqDispatch hs ht h
  case refreshed =>
    intro s u tile hs ht h hr
    exact exec_sqDispatch_refreshed hs ht h hr
  case ready =>
    intro s tile n hs ht hn hr hc
    obtain ⟨u, hu⟩ := arbPass_of_ready hn hr hc
    exact ⟨u, hu, exec_sqDispatch hs ht hu⟩
  case block =>
    intro s id l op opc c hc hl hst
    obtain ⟨hnext, hcmd, hlive⟩ := enterBlock_starts hl op
    have hstart := (exec_of_blockCode hc s).trans (startBlock_starts hl hst op)
    exact ⟨_, hstart, by simpa using hnext, by simpa using hcmd, _, (getLive?_settled _ _).trans hlive, rfl, rfl, rfl⟩
  case offload =>
    intro s id l opc c hc hl hst
    exact (exec_of_offloadCode hc s).trans (startOffload_starts hl hst)
  case skip =>
    intro s id l hl hst
    exact exec_skip hl hst

end Sys2Proof.Machine
end

section
/-! PROOFS. Completion rings, enabling and disabling (R459-R467, Tables 10-12 and 10-13): each register write by the branch it takes. -/

namespace Sys2Proof.Machine

/-! ### The head of a CQ and its messages (R459-R461) -/

section Head

variable {s : State} {fn cq : Nat} {v : W32}

theorem exec_cqHeadDb (h : cqReach s fn cq = true) : exec (.cqHeadDb fn cq v) s = .next (settled (cqHeadDb s cq v.toNat)) := if_pos h

theorem relieveCq_of_idle (hw : (getCq s cq).waiting = []) (hb : (getCq s cq).backpressure = false) : relieveCq s cq = s := by
  simp [relieveCq, hw, hb, drainCq]

/-- The index that a head doorbell carries. -/
theorem bits_headIndex (v : W32) : bits v.toNat 15 0 = v.toNat % 2 ^ 16 := by rw [bits, pow_zero, Nat.div_one]

variable (ha : (getCq s cq).active = true)

include ha

/-- A head beyond what is written is refused (R461). -/
theorem cqHeadDb_refused (hg : headGood (getCq s cq) (v.toNat % 2 ^ 16) (v.getLsbD 16) = false) :
    cqHeadDb s cq v.toNat = setCq s cq { getCq s cq with headErr := true } := by
  simp only [cqHeadDb, ha, bits_headIndex, bit_toNat, hg, Bool.not_true, Bool.not_false, Bool.false_eq_true, if_false, if_true, modCq_eq]

/-- A head within what is written is taken; with nothing waiting on-die nothing else follows. -/
theorem cqHeadDb_taken (hg : headGood (getCq s cq) (v.toNat % 2 ^ 16) (v.getLsbD 16) = true) (hw : (getCq s cq).waiting = [])
    (hb : (getCq s cq).backpressure = false) :
    cqHeadDb s cq v.toNat = setCq s cq { getCq s cq with
      head := v.toNat % 2 ^ 16, headWrap := v.getLsbD 16
      timer := if v.toNat % 2 ^ 16 = (getCq s cq).tail ∧ v.getLsbD 16 = (getCq s cq).tailWrap then (getCq s cq).timer
        else (getCq s cq).aggTime != 0 } := by
  simp only [cqHeadDb, ha, bits_headIndex, bit_toNat, hg, Bool.not_true, Bool.false_eq_true, if_false, modCq_eq]
  exact relieveCq_of_idle (by simp [hw]) (by simp [hb])

end Head

/-- The aggregation timer sends the CQ's message, and the count and the timer start again (R459). -/
theorem exec_cqAggTimer {s : State} {cq : Nat} (hr : running s = true) (ht : tileUp s (cqTile s cq) = true)
    (ha : (getCq s cq).active = true) (hi : (getCq s cq).ien = true) (htm : (getCq s cq).timer = true) (hg : (getCq s cq).aggTime ≠ 0)
    (hc : 0 < (getCq s cq).sinceMsg) : exec (.cqAggTimer cq) s = .next (settled (cqMessage s cq)) := by
  show execCqAggTimer cq s = _
  simp [execCqAggTimer, hr, ht, ha, hi, htm, hg, hc, done_eq]

theorem cqMessage_cq (s : State) (n : Nat) : getCq (cqMessage s n) n = { getCq s n with sinceMsg := 0, timer := false } := by
  simp [cqMessage]

/-! ### Enabling and disabling an SQ (R462, R466) -/

/-- A write with EN = 0 to an enabled SQ stops it. -/
theorem writeSqCtl_stops {s : State} {n v : Nat} (hv : bit v 0 = false) (he : (getSq s n).en = true) :
    writeSqCtl s n v = stopSq s n := by
  simp [writeSqCtl, hv, he]

/-- A write with EN = 1 to a disabled SQ enables it. -/
theorem writeSqCtl_enables {s : State} {n v : Nat} (hv : bit v 0 = true) (he : (getSq s n).en = false) :
    writeSqCtl s n v = enableSq s n := by
  simp [writeSqCtl, hv, he]

section SqControl

variable {s : State} {fn sq : Nat} {v : W32} (hr : sqReach s fn sq = true)

include hr

theorem exec_sqDisable (hv : v.getLsbD 0 = false) (he : (getSq s sq).en = true) :
    exec (.sqDisable fn sq v) s = .next (settled (stopSq s sq)) := by
  have hbit : bit v.toNat 0 = false := (bit_toNat v 0).trans hv
  show execSqDisable fn sq v s = _
  rw [execSqDisable, if_pos (by simp [hr, hbit, he]), writeSqCtl_stops hbit he, done_eq]

theorem exec_sqEnable (hv : v.getLsbD 0 = true) (he : (getSq s sq).en = false) :
    exec (.sqEnable fn sq v) s = .next (settled (enableSq s sq)) := by
  have hbit : bit v.toNat 0 = true := (bit_toNat v 0).trans hv
  show execSqEnable fn sq v s = _
  rw [execSqEnable, if_pos (by simp [hr, hbit, he]), writeSqCtl_enables hbit he, done_eq]

end SqControl

/-- Draining ends when no entry is live and no completion of the SQ waits (R462). -/
theorem exec_sqDrainComplete {s : State} {sq : Nat} (hr : running s = true) (ht : tileUp s (sqTile s sq) = true)
    (hd : (getSq s sq).draining = true) (hl : sqLive s sq = []) (hw : ∀ c, sqCq s sq = some c → (getCq s c).waiting = []) :
    exec (.sqDrainComplete sq) s = .next (settled (publish (setSq s sq { getSq s sq with
      posHead := (getSq s sq).head, posWrap := (getSq s sq).headWrap, draining := false }) sq)) := by
  have howed : (sqCq s sq).any (fun c => (getCq s c).waiting.any (fun e => e.sq == sq)) = false := by
    cases h : sqCq s sq with
    | none => rfl
    | some c => simp [hw c h]
  show execSqDrainComplete sq s = _
  simp [execSqDrainComplete, hr, ht, hd, hl, howed, done_eq]

/-- An SQ without a base is not enabled, with status 0x0002. -/
theorem enableSq_no_base {s : State} {n : Nat} (hd : (getSq s n).draining = false) (hb : (getSq s n).base = 0) :
    enableSq s n = setSq s n { getSq s n with cfgStatus := 0x0002 } := by
  simp [enableSq, hd, hb]

/-- The SQ as it stands when it is enabled: empty, at the position that software wrote (R466). -/
def enabledSq (q : Sq) : Sq :=
  { q with
    en := true, active := true, cfgStatus := 0, head := q.posHead, headWrap := q.posWrap, scan := q.posHead, scanWrap := q.posWrap
    pub := q.posHead, pubWrap := q.posWrap, fetched := [], scanning := false, again := false, closeAt := none }

/-- An SQ whose checks pass is enabled, and its scan starts. -/
theorem enableSq_clear {s : State} {n c : Nat} (hd : (getSq s n).draining = false) (hb : (getSq s n).base ≠ 0)
    (hh : (getSq s n).headword ≠ 0) (hq : sqCq s n = some c) (hc : c < s.part.cqs) (ho : cqOwner s c = sqOwner s n)
    (ht : tileOfCq c = tileOfSq n) (hp : (getSq s n).posHead < 2 ^ (getSq s n).size) (ha : (getCq s c).active = true) :
    enableSq s n = startScan (setSq s n (enabledSq (getSq s n))) n := by
  have hset : ¬ ((getSq s n).base = 0 ∨ (getSq s n).headword = 0) := not_or.2 ⟨hb, hh⟩
  have hbound : ¬ (s.part.cqs ≤ c ∨ cqOwner s c ≠ sqOwner s n ∨ tileOfCq c ≠ tileOfSq n) := by simp [hc, ho, ht]
  simp only [enableSq, hd, if_neg hset, hq, if_neg hbound, if_neg (Nat.not_le.2 hp), ha]
  rfl

/-! ### Enabling and disabling a CQ (R467) -/

section CqWrite

variable {s : State} {n v : Nat}

section Enable

variable (hv : bit v 0 = true) (he : (getCq s n).en = false)

include hv he

/-- A CQ with a base is enabled, empty at the start of its ring. -/
theorem writeCqCtl_enables (hb : (getCq s n).base ≠ 0) : writeCqCtl s n v = setCq s n { getCq s n with
    en := true, active := true, cfgStatus := 0, tail := 0, tailWrap := false, head := 0, headWrap := false, sinceMsg := 0
    timer := false } := by
  simp only [writeCqCtl, hv, he, if_neg hb, modCq_eq]
  rfl

/-- A CQ without a base is not enabled, with status 0x0002. -/
theorem writeCqCtl_no_base (hb : (getCq s n).base = 0) : writeCqCtl s n v = setCq s n { getCq s n with cfgStatus := 0x0002 } := by
  simp only [writeCqCtl, hv, he, if_pos hb, modCq_eq]
  rfl

end Enable

section Disable

variable (hv : bit v 0 = false) (he : (getCq s n).en = true)

include hv he

/-- A CQ whose SQs are all stopped is disabled, and what waits for it on-die is dropped. -/
theorem writeCqCtl_disables (hk : ∀ k ∈ boundSqs s n, (getSq s k).active = false ∧ (getSq s k).draining = false) :
    writeCqCtl s n v = setCq s n { getCq s n with
      en := false, active := false, cfgStatus := 0, backpressure := false, waiting := [], timer := false } := by
  have hidle : (boundSqs s n).any (fun k => (getSq s k).active || (getSq s k).draining) = false :=
    List.any_eq_false.2 fun k hm => by simp [hk k hm]
  simp only [writeCqCtl, hv, he, hidle, modCq_eq]
  rfl

/-- A CQ to which an active SQ is bound is not disabled, with status 0x0002. -/
theorem writeCqCtl_bound {k : Nat} (hm : k ∈ boundSqs s n) (hk : (getSq s k).active = true) :
    writeCqCtl s n v = setCq s n { getCq s n with writeIgnored := true, cfgStatus := 0x0002 } := by
  have hbusy : (boundSqs s n).any (fun k => (getSq s k).active || (getSq s k).draining) = true :=
    List.any_eq_true.2 ⟨k, hm, by simp [hk]⟩
  simp only [writeCqCtl, hv, he, hbusy, modCq_eq]
  rfl

end Disable

end CqWrite

section CqControl

variable {s : State} {fn cq : Nat} {v : W32} (hr : cqReach s fn cq = true)

include hr

/-- CQ_ENABLE is a write of CQ_CTL with EN = 1 to a disabled CQ. -/
theorem exec_cqEnable (hv : bit v.toNat 0 = true) (he : (getCq s cq).en = false) :
    exec (.cqEnable fn cq v) s = .next (settled (writeCqCtl s cq v.toNat)) :=
  if_pos (by simp [hr, hv, he])

/-- CQ_DISABLE is a write of CQ_CTL with EN = 0 to an enabled CQ. -/
theorem exec_cqDisable (hv : bit v.toNat 0 = false) (he : (getCq s cq).en = true) :
    exec (.cqDisable fn cq v) s = .next (settled (writeCqCtl s cq v.toNat)) :=
  if_pos (by simp [hr, hv, he])

end CqControl

/-- Settles O41: each row by its equation, and the ring it names read back. -/
theorem ringControlRows : Obligations.RingControlRows := by
  refine ⟨?headBad, ?head, ?timer, ?stop, ?drained, ?enable, ?enableNoBase, ?cqOn, ?cqNoBase, ?cqOff, ?cqBound⟩
  case headBad =>
    intro s fn cq v hr ha hg
    exact ⟨_, exec_cqHeadDb hr, by rw [cqHeadDb_refused ha hg, getCq_settled, getCq_setCq_self]⟩
  case head =>
    intro s fn cq v hr ha hg hw hb
    refine ⟨_, exec_cqHeadDb hr, ?_⟩
    rw [cqHeadDb_taken ha hg hw hb, getCq_settled, getCq_setCq_self]
    exact ⟨rfl, rfl, rfl⟩
  case timer =>
    intro s cq hr ht ha hi htm hg hc
    exact ⟨_, exec_cqAggTimer hr ht ha hi htm hg hc, by rw [getCq_settled, cqMessage_cq]⟩
  case stop =>
    intro s fn sq v hr hv he
    exact exec_sqDisable hr hv he
  case drained =>
    intro s sq hr ht hd hl hw
    exact ⟨_, exec_sqDrainComplete hr ht hd hl hw, by simp [publish_sq]⟩
  case enable =>
    intro s fn sq c v hr hv he hd hb hh hq hc ho ht hp ha
    refine ⟨_, exec_sqEnable hr hv he, ?_⟩
    obtain ⟨sc, ag, h⟩ := startScan_sq (setSq s sq (enabledSq (getSq s sq))) sq
    rw [enableSq_clear hd hb hh hq hc ho ht hp ha, getSq_settled, h, getSq_setSq_self]
    exact ⟨rfl, rfl, rfl, rfl, rfl, rfl⟩
  case enableNoBase =>
    intro s fn sq v hr hv he hd hb
    exact ⟨_, exec_sqEnable hr hv he, by rw [enableSq_no_base hd hb, getSq_settled, getSq_setSq_self]⟩
  case cqOn =>
    intro s fn cq v hr hv he hb
    rw [← bit_toNat] at hv
    exact ⟨_, exec_cqEnable hr hv he, by rw [writeCqCtl_enables hv he hb, getCq_settled, getCq_setCq_self]⟩
  case cqNoBase =>
    intro s fn cq v hr hv he hb
    rw [← bit_toNat] at hv
    exact ⟨_, exec_cqEnable hr hv he, by rw [writeCqCtl_no_base hv he hb, getCq_settled, getCq_setCq_self]⟩
  case cqOff =>
    intro s fn cq v hr hv he hk
    rw [← bit_toNat] at hv
    exact ⟨_, exec_cqDisable hr hv he, by simp [writeCqCtl_disables hv he hk]⟩
  case cqBound =>
    intro s fn cq k v hr hv he hm hk
    rw [← bit_toNat] at hv
    exact ⟨_, exec_cqDisable hr hv he, by rw [writeCqCtl_bound hv he hm hk, getCq_settled, getCq_setCq_self]⟩

end Sys2Proof.Machine
end

section
/-! PROOFS. The queue, the reset state and the JTAG port (R528, R529, Table 12-16): one equation per instruction, then what each leaves. -/

namespace Sys2Proof.Machine

/-- Settles O1: the step reads the front of the queue. -/
theorem stepRunsFront : Obligations.StepRunsFront := by
  intro s c rest h
  simp only [step, h]

/-- Settles O4: the values of the tables, read off the state at reset. -/
theorem resetValues : Obligations.ResetValues :=
  ⟨rfl, rfl, rfl, rfl, rfl, rfl, rfl, rfl, rfl, rfl, rfl, rfl, rfl, rfl, rfl, rfl, rfl, rfl⟩

/-! ### Public instructions -/

/-- The state with an instruction in the register. -/
def withIr (s : State) (code : BitVec 8) : State := { s with jtag := { s.jtag with ir := code } }

theorem scan_eq (s : State) (code : BitVec 8) (l : List Bool) : scan s code l = emit (withIr s code) (.tdo l) := rfl

@[simp] theorem scan_jtag (s : State) (code : BitVec 8) (l : List Bool) : (scan s code l).jtag = { s.jtag with ir := code } := rfl

/-- What a state emits after a scan starts with the bits of the scan. -/
theorem emits_scan {s t : State} {code : BitVec 8} {l : List Bool} (h : t.out = (scan s code l).out) : Emits s (settled t) (.tdo l) :=
  .settled (u := scan s code l) (by rw [h]) rfl

section Public

variable {s : State} (h : tapUp s = true)

include h

theorem exec_testLogicReset : exec .testLogicReset s = .next (settled (withIr s 0x02)) := if_pos h

theorem exec_idcode : exec .idcode s = .next (settled (scan s 0x02 (lsbFirst 32 (idcodeWord s.part)))) := if_pos h

theorem exec_clamp : exec .clamp s = .next (settled (scan s 0x03 [false])) := if_pos h

theorem exec_highz : exec .highz s = .next (settled (scan s 0x04 [false])) := if_pos h

theorem exec_extest (tdi : List Bool) : exec (.extest tdi) s = .next (settled (scanBoundary s 0x00 tdi)) := if_pos h

theorem exec_samplePreload (tdi : List Bool) : exec (.samplePreload tdi) s = .next (settled (scanBoundary s 0x01 tdi)) := if_pos h

theorem exec_frzStatus : exec .frzStatus s = .next (settled (scan s 0x80 (lsbFirst 32 (frzStatusWord s)))) := if_pos h

end Public

/-- The word of IDCODE as Table 9-2 adds it up. -/
theorem idcodeWord_eq (p : Part) : idcodeWord p = 1 + 2 * 0x5A3 + 4096 * (0x0E00 + p.tiles) + 2 ^ 28 * Config.stepping.toNat := by
  simp only [idcodeWord, field, deviceId]
  omega

/-- A boundary scan leaves the code and the new content, and shifts out as many bits as come in. -/
theorem scanBoundary_scans (s : State) (code : BitVec 8) (tdi : List Bool) :
    (settled (scanBoundary s code tdi)).jtag.ir = code ∧ (settled (scanBoundary s code tdi)).jtag.boundary = tdi ∧
      ∃ l : List Bool, l.length = tdi.length ∧ Emits s (settled (scanBoundary s code tdi)) (.tdo l) := by
  rw [settled_jtag]
  exact ⟨rfl, rfl, captured s tdi.length, by simp [captured], emits_scan rfl⟩

/-- Settles O5: each instruction by its equation, then the register and the bits of its scan. -/
theorem jtagPublic : Obligations.JtagPublic := by
  refine ⟨?reset, ?idcode, ?clamp, ?highz, ?extest, ?preload, ?status⟩
  case reset => exact fun s h => ⟨_, exec_testLogicReset h, by rw [settled_jtag]; rfl⟩
  case idcode =>
    intro s h
    rw [← idcodeWord_eq]
    exact ⟨_, exec_idcode h, by simp, emits_scan rfl⟩
  case clamp => exact fun s h => ⟨_, exec_clamp h, by simp, emits_scan rfl⟩
  case highz => exact fun s h => ⟨_, exec_highz h, by simp, emits_scan rfl⟩
  case extest => exact fun s tdi h => ⟨_, exec_extest h tdi, scanBoundary_scans s _ tdi⟩
  case preload => exact fun s tdi h => ⟨_, exec_samplePreload h tdi, scanBoundary_scans s _ tdi⟩
  case status => exact fun s h => ⟨_, exec_frzStatus h, by simp, emits_scan rfl⟩

/-! ### Freeze capture -/

/-- An instruction of freeze capture, in freeze. -/
theorem frzScan_frozen {s : State} (h : tapUp s = true) (hf : s.jade.frozen = true) (code : BitVec 8) (f : State → State) :
    frzScan s code f = .next (settled (f s)) := by
  simp [frzScan, h, hf, done_eq]

/-- An instruction of freeze capture, outside freeze: a 1-bit register that reads as zero. -/
theorem frzScan_running {s : State} (h : tapUp s = true) (hf : s.jade.frozen = false) (code : BitVec 8) (f : State → State) :
    frzScan s code f = .next (settled (scan s code [false])) := by
  simp [frzScan, h, hf, done_eq]

/-- The chain selected, with new content: the bits that follow the select stay. -/
def withChain (s : State) (l : List Bool) : State :=
  { s with jtag := { s.jtag with
      chains := ((s.jtag.tile, s.jtag.chain), l) :: s.jtag.chains.filter (fun e => e.1 != (s.jtag.tile, s.jtag.chain)) } }

theorem chainBits_withChain (s : State) (l : List Bool) : chainBits (withChain s l) = l := by
  simp [chainBits, withChain, Jtag.tile, Jtag.chain]

theorem chainBits_of_jtag {s t : State} {l : List Bool} (h : t.jtag = (withChain s l).jtag) : chainBits t = l := by
  rw [← chainBits_withChain s l]
  simp only [chainBits, h]
  simp [withChain, Jtag.tile, Jtag.chain]

/-- The state after FRZ_MEMDATA: the word and its check bits shifted out, the address one word on. -/
def wordRead (s : State) (chk : BitVec 10) : State :=
  { drawn (scan s 0x84 ((memWord s).flatMap (fun b => lsbFirst 8 b.toNat) ++ lsbFirst 10 chk.toNat)) with
    jtag := { s.jtag with ir := 0x84, memaddr := s.jtag.memaddr + 128 } }

section Frozen

variable {s : State} (h : tapUp s = true) (hf : s.jade.frozen = true)

include h hf

theorem exec_frzSelect (v : BitVec 16) : exec (.frzSelect v) s =
    .next (settled { scan s 0x81 (lsbFirst 16 s.jtag.select.toNat) with jtag := { s.jtag with ir := 0x81, select := v &&& 0x03FF } }) := by
  show execFrzSelect v s = _
  exact frzScan_frozen h hf _ _

theorem exec_frzMemaddr (v : BitVec 64) : exec (.frzMemaddr v) s =
    .next (settled { scan s 0x83 (lsbFirst 64 s.jtag.memaddr.toNat) with jtag := { s.jtag with ir := 0x83, memaddr := v } }) := by
  show execFrzMemaddr v s = _
  exact frzScan_frozen h hf _ _

/-- FRZ_SHIFT on a chain that exists. -/
theorem exec_frzShift (hc : chainThere s = true) (tdi : List Bool) : exec (.frzShift tdi) s =
    .next (settled (withChain (drawn (scan s 0x82 ((chainBits s ++ tdi).take tdi.length))) ((chainBits s ++ tdi).drop tdi.length))) := by
  show execFrzShift tdi s = _
  refine (frzScan_frozen h hf _ _).trans ?_
  simp only [hc, Bool.not_true, Bool.false_eq_true, if_false]
  rfl

theorem exec_frzMemdata : ∃ chk, exec .frzMemdata s = .next (settled (wordRead s chk)) := by
  show ∃ chk, execFrzMemdata s = _
  exact ⟨_, frzScan_frozen h hf _ _⟩

theorem exec_frzInfo : exec .frzInfo s = .next (settled (scan s 0x85 (lsbFirst 64 (frzInfoWord s)))) := by
  show execFrzInfo s = _
  exact frzScan_frozen h hf _ _

end Frozen

/-- Settles O6: in freeze by the effect of the instruction, outside it by the scan of one zero. -/
theorem jtagFreeze : Obligations.JtagFreeze := by
  refine ⟨?select, ?addr, ?shift, ?data, ?info, ?outside⟩
  case select => exact fun s v h hf => ⟨_, exec_frzSelect h hf v, by rw [settled_jtag], by rw [settled_jtag], emits_scan rfl⟩
  case addr => exact fun s v h hf => ⟨_, exec_frzMemaddr h hf v, by rw [settled_jtag], by rw [settled_jtag], emits_scan rfl⟩
  case shift =>
    exact fun s tdi h hf hc => ⟨_, exec_frzShift h hf hc tdi, by rw [settled_jtag]; rfl,
      chainBits_of_jtag (s := drawn (scan s 0x82 _)) (by rw [settled_jtag]), emits_scan rfl⟩
  case data =>
    intro s h hf
    obtain ⟨chk, hrow⟩ := exec_frzMemdata h hf
    exact ⟨_, hrow, by rw [settled_jtag]; rfl, by rw [settled_jtag]; rfl, chk, emits_scan rfl⟩
  case info => exact fun s h hf => ⟨_, exec_frzInfo h hf, by rw [settled_jtag]; rfl, emits_scan rfl⟩
  case outside =>
    intro s c code h hf hc
    have hrow : ∃ f, exec c s = frzScan s code f := by
      rcases hc with ⟨v, rfl, rfl⟩ | ⟨l, rfl, rfl⟩ | ⟨v, rfl, rfl⟩ | ⟨rfl, rfl⟩ | ⟨rfl, rfl⟩
      · show ∃ f, execFrzSelect v s = _
        exact ⟨_, rfl⟩
      · show ∃ f, execFrzShift l s = _
        exact ⟨_, rfl⟩
      · show ∃ f, execFrzMemaddr v s = _
        exact ⟨_, rfl⟩
      · show ∃ f, execFrzMemdata s = _
        exact ⟨_, rfl⟩
      · show ∃ f, execFrzInfo s = _
        exact ⟨_, rfl⟩
    obtain ⟨f, hrow⟩ := hrow
    exact ⟨_, hrow.trans (frzScan_running h hf code f), by rw [settled_jtag, scan_jtag], emits_scan rfl⟩

end Sys2Proof.Machine
end

section
/-! PROOFS. The fault queue (R502, R503, R507, R510, R518): an entry read after the end of a command, then one equation per row. -/

namespace Sys2Proof.Machine

/-! ### Jade after the end of a command -/

/-- The end of a command leaves of Jade all but the standing of its timers. -/
theorem settled_jade_field {α : Type} (f : Jade → α) (hf : ∀ j q, f { j with queue := q } = f j) (s : State) :
    f (settled s).jade = f s.jade := by
  obtain ⟨q, h⟩ := settled_jade s
  rw [h, hf]

/-- An entry of the fault queue after the end of a command (R502). -/
theorem get?_queue_settled (s : State) (i : Nat) :
    Tab.get? (settled s).jade.queue i = (Tab.get? s.jade.queue i).map (settleEnt (hostAway s) s.clock) := by
  rw [settled, irqUpdate_jade]
  exact Tab.get?_map s.jade.queue (fun _ e => settleEnt (hostAway s) s.clock e) i

/-- An F3 entry has no timer to hold or to start. -/
theorem settleEnt_f3 (away : Bool) (now : Nat) {e : FaultEnt} (h : e.st = 3) : settleEnt away now e = e := by
  cases away <;> simp [settleEnt, h]

theorem wakeEvent_jade (s : State) : (wakeEvent s).jade = s.jade := by
  unfold wakeEvent
  split
  · rfl
  · split
    · rfl
    · dsimp only
      split <;> rfl

theorem not_f4_of_running {s : State} (h : running s = true) : s.jade.f4 = false := by
  unfold running at h
  cases hf : s.jade.f4 with
  | false => rfl
  | true => simp [hf] at h

theorem running_of_fwUp {s : State} (h : fwUp s = true) : running s = true := by
  unfold fwUp at h
  exact (Bool.and_eq_true_iff.1 h).1

/-- What F4 leaves (R510-R512). -/
theorem enterF4_leaves {s : State} (h : s.jade.f4 = false) (cause : Nat) :
    (enterF4 s cause).pins.faultN = false ∧ (enterF4 s cause).pins.alive = false ∧ (enterF4 s cause).pcie.linkUp = false ∧
      (enterF4 s cause).pins.bypassClosed = true ∧ (enterF4 s cause).moon.trained = false := by
  rw [enterF4, h]
  exact ⟨rfl, rfl, rfl, rfl, rfl⟩

/-! ### Acknowledgment (R518) -/

/-- An F2 entry acknowledged: recorded and freed. -/
def entryFreed (s : State) (id i : Nat) : State :=
  freeEntry (jetInfo s 0x8001 (srcJade 0) (leBytes 1 id ++ leBytes 2 (((Tab.get? s.jade.queue i).map FaultEnt.code).getD 0).toNat)) i

section Ack

variable {s : State} {v : W32}

/-- FAULT_ACK names the entry by the low byte of the word. -/
theorem ackFault_of_none (hn : f2Slot s.jade (v.toNat % 256) = none) :
    ackFault s v = { s with jade := { s.jade with ackErr := true } } := by
  have hid : bits v.toNat 7 0 = v.toNat % 256 := by simp [bits]
  simp only [ackFault, hid, hn]

theorem ackFault_of_some {i : Nat} (hi : f2Slot s.jade (v.toNat % 256) = some i) :
    ackFault s v = resend (entryFreed s (v.toNat % 256) i) 0 0 := by
  have hid : bits v.toNat 7 0 = v.toNat % 256 := by simp [bits]
  simp only [ackFault, hid, hi]
  rfl

theorem exec_faultAck (h : running s = true) (hd : canDma s 0 = true) : exec (.faultAck v) s = .next (settled (ackFault s v)) :=
  if_pos (by rw [h, hd]; rfl)

end Ack

/-! ### Escalation (R502) -/

/-- The record of an F2 timer that expires. -/
def expiryNoted (s : State) (e : FaultEnt) : State :=
  { jetRec s 0x8002 e.source 3 e.correlated true (leBytes 1 e.ident ++ leBytes 2 e.code.toNat) with
    jade := { s.jade with escalated := true } }

/-- The entry in slot `slot` as it becomes F3. -/
def entryRaised (s : State) (slot : Nat) (e : FaultEnt) : State :=
  modWin { s with jade := { s.jade with
      queue := Tab.set s.jade.queue slot { e with cls := 3, st := 3, since := s.clock }, f3Seen := true } }
    e.domKind e.domId (fun w => if w.slot = some slot then { w with cls := 3, escalated := true } else w)

section Expiry

variable {s : State} {slot : Nat} {e : FaultEnt} (h : running s = true) (he : Tab.get? s.jade.queue slot = some e)

include h he

/-- An F2 entry whose source can be contained becomes F3. -/
theorem exec_f2TimerExpiry (hst : e.st = 1) (ha : hostAway s = false) (hc : (uncontainable e.source && !e.acted) = false) :
    exec (.f2TimerExpiry slot) s = .next (settled (wakeEvent (entryRaised (expiryNoted s e) slot e))) := by
  show execF2TimerExpiry slot s = _
  simp only [execF2TimerExpiry, he, h, hst, ha, hc]
  rfl

/-- An F2 entry whose source has no containment action enters F4. -/
theorem exec_f2TimerExpiry_f4 (hst : e.st = 1) (ha : hostAway s = false) (hu : uncontainable e.source = true) (hn : e.acted = false) :
    exec (.f2TimerExpiry slot) s = .next (settled (enterF4 (expiryNoted s e) causeNoAction)) := by
  show execF2TimerExpiry slot s = _
  simp only [execF2TimerExpiry, he, h, hst, ha, hu, hn]
  rfl

/-- Containment that is not reported in time enters F4. -/
theorem exec_f3ContainmentTimeout (hst : e.st = 3) : exec (.f3ContainmentTimeout slot) s =
    .next (settled (enterF4 (jetRec s 0x8005 e.source 4 e.correlated false (leBytes 1 e.ident)) causeTimeout)) := by
  show execF3ContainmentTimeout slot s = _
  simp only [execF3ContainmentTimeout, he, h, hst]
  rfl

end Expiry

/-! ### Containment (R503) -/

/-- A contained F3 recorded and its entry freed. -/
def containedNoted (s t : State) (slot : Nat) (e : FaultEnt) : State :=
  freeEntry (jetInfo t 0x8004 (srcJade 0) (leBytes 1 e.ident ++ leBytes 4 ((s.clock - e.since) / 1000))) slot

section Contained

variable {s : State} {slot : Nat} {e : FaultEnt} (h : fwUp s = true) (he : Tab.get? s.jade.queue slot = some e) (hst : e.st = 3)

include h he hst

/-- Where the rule that raised the fault has contained it, the entry is freed. -/
theorem exec_f3Contained_acted (ha : e.acted = true) : exec (.f3Contained slot) s = .next (settled (containedNoted s s slot e)) := by
  have hf := not_f4_of_running (running_of_fwUp h)
  show execF3Contained slot s = _
  simp only [execF3Contained, he, h, hst, ha, if_true, hf]
  rfl

/-- Otherwise the action comes first, and the entry is freed where it has not led to F4. -/
theorem exec_f3Contained (ha : e.acted = false) : exec (.f3Contained slot) s =
    .next (settled (if (contain s e).jade.f4 then contain s e else containedNoted s (contain s e) slot e)) := by
  show execF3Contained slot s = _
  simp only [execF3Contained, he, h, hst, ha, Bool.false_eq_true, if_false]
  cases (contain s e).jade.f4 <;> rfl

end Contained

theorem exec_correlationWindowClose {s : State} {kind ident : Nat} (h : running s = true)
    (hw : (domWindow s.jade kind ident).isSome = true) : exec (.correlationWindowClose kind ident) s =
    .next (settled { s with jade := { s.jade with
      windows := s.jade.windows.filter (fun w => !(w.domKind == kind && w.domId == ident)) } }) :=
  if_pos (by rw [h, hw]; rfl)

/-- Settles O7: each row by its equation, and the queue, the windows or F4 after the end of the command. -/
theorem faultQueueRows : Obligations.FaultQueueRows := by
  refine ⟨?ackNone, ?ack, ?expiry, ?expiryF4, ?acted, ?contained, ?containedF4, ?timeout, ?window⟩
  case ackNone =>
    intro s v h hd hn
    refine ⟨_, exec_faultAck h hd, ?_⟩
    rw [settled_jade_field (·.ackErr) (fun _ _ => rfl), settled_jet, ackFault_of_none hn]
    exact ⟨rfl, rfl⟩
  case ack =>
    intro s v i h hd hi
    refine ⟨_, exec_faultAck h hd, ?_⟩
    rw [get?_queue_settled, settled_jade_field (·.ackErr) (fun _ _ => rfl), ackFault_of_some hi]
    simp [entryFreed, freeEntry, jetInfo, jetRec]
  case expiry =>
    intro s slot e h ha he hst hc
    refine ⟨_, exec_f2TimerExpiry h he hst ha hc, ?_⟩
    rw [get?_queue_settled, settled_jade_field (·.escalated) (fun _ _ => rfl), settled_jade_field (·.f3Seen) (fun _ _ => rfl), wakeEvent_jade]
    refine ⟨rfl, rfl, { e with cls := 3, st := 3, since := s.clock }, ?_, rfl, rfl, rfl, rfl⟩
    simp only [entryRaised, modWin, Tab.get?_set_self, Option.map_some]
    rw [settleEnt_f3 _ _ rfl]
    rfl
  case expiryF4 =>
    intro s slot e h he hst ha hu hn
    exact ⟨_, exec_f2TimerExpiry_f4 h he hst ha hu hn, (settled_f4_frozen _).1.trans (enterF4_f4 _ _)⟩
  case acted =>
    intro s slot e h he hst ha
    refine ⟨_, exec_f3Contained_acted h he hst ha, ?_, by simp only [settled_pools]; rfl, by simp only [settled_tiles]; rfl⟩
    simp [get?_queue_settled, containedNoted, freeEntry]
  case contained =>
    intro s slot e h he hst ha hf
    rw [exec_f3Contained h he hst ha, hf]
    rfl
  case containedF4 =>
    intro s slot e h he hst ha hf
    rw [exec_f3Contained h he hst ha, hf]
    rfl
  case timeout =>
    intro s slot e h he hst
    refine ⟨_, exec_f3ContainmentTimeout h he hst, ?_⟩
    rw [(settled_f4_frozen _).1, settled_pins, (settled_host _).1, settled_moon, enterF4_f4]
    exact ⟨rfl, enterF4_leaves (s := jetRec s _ _ _ _ _ _) (not_f4_of_running h) _⟩
  case window =>
    intro s kind ident h hw
    refine ⟨_, exec_correlationWindowClose h hw, ?_⟩
    obtain ⟨q, hj⟩ := settled_jade { s with jade := { s.jade with
      windows := s.jade.windows.filter (fun w => !(w.domKind == kind && w.domId == ident)) } }
    rw [hj]
    exact List.find?_eq_none.2 fun w hw => by simpa [not_and_or, imp_iff_not_or] using (List.mem_filter.1 hw).2

end Sys2Proof.Machine
end

section
/-! PROOFS. ALIVE, the watchdogs and the Jet window (R513, R515, R516, R521, R522): one equation per row. -/

namespace Sys2Proof.Machine

section Rows

variable {s : State} (h : running s = true)

include h

theorem exec_aliveToggle (ha : s.jade.aliveRunning = true) :
    exec .aliveToggle s = .next (settled { s with pins := { s.pins with alive := !s.pins.alive } }) :=
  if_pos (by rw [h, ha]; rfl)

theorem exec_hostWatchdog (he : s.jade.hwdogEn = true) (hr : s.jade.hwdogRunning = true) (ha : hostAway s = false) :
    exec .hostWatchdog s = .next (settled
      (fault0 { s with jade := { s.jade with hwdog := true, hwdogRunning := false } } 0x8008 1 (srcHost 0))) :=
  if_pos (by rw [h, he, hr, ha]; rfl)

theorem exec_aliveKick (hd : canDma s 0 = true) (v : W32) : exec (.aliveKick v) s = .next (settled (kick s)) :=
  if_pos (by rw [h, hd]; rfl)

theorem exec_jetDataRead (hd : canDma s 0 = true) {w : Nat} (hw : w < 8) :
    exec (.jetDataRead w) s = .next (settled (emit (jetData s w).2 (.readData ((jetData s w).1.setWidth 64)))) :=
  if_pos (by rw [h, hd, decide_eq_true hw]; rfl)

theorem exec_jetCursorWrite (hd : canDma s 0 = true) (v : W32) : exec (.jetCursorWrite v) s = .next (settled (writeCursor s v)) :=
  if_pos (by rw [h, hd]; rfl)

/-- The end of the suppression window: a record for each code suppressed in it (R521). -/
theorem exec_jetSuppressionWindow : exec .jetSuppressionWindow s = .next (settled (s.jet.suppressed.foldl
    (fun x e => jetInfo x 0x8006 (srcJade 0) (leBytes 2 e.1 ++ leBytes 4 e.2))
    { s with jet := { s.jet with written := [], suppressed := [] } })) :=
  if_neg (by rw [h]; simp)

end Rows

theorem exec_coreWatchdog {s : State} {tile core : Nat} (h : fwUp s = true) (ht : tileUp s tile = true) (hc : core < 4) :
    exec (.coreWatchdog tile core) s =
      .next (settled (declareLost s tile { code := 0x8009, cls := 3, src := srcCore tile core, data := leBytes 1 core })) :=
  if_pos (by rw [h, ht, decide_eq_true hc]; rfl)

/-- A fault leaves the host watchdog as it is. -/
theorem fault0_hwdog (s : State) (code : BitVec 16) (cls : Nat) (src : BitVec 16) :
    (fault0 s code cls src).jade.hwdog = s.jade.hwdog ∧ (fault0 s code cls src).jade.hwdogRunning = s.jade.hwdogRunning := by
  obtain ⟨_, _, _, _, _, _, _, _, _, _, _, _, _, _, _, _, _, _, _, _, _, _, h⟩ := fault_faultFrame s { code := code, cls := cls, src := src }
  rw [fault0, h]
  exact ⟨rfl, rfl⟩

/-- A read of JET_DATA gives the value it answers as the first thing emitted. -/
theorem emits_jetData (s : State) (w : Nat) : ∃ v, Emits s (settled (emit (jetData s w).2 (.readData ((jetData s w).1.setWidth 64)))) (.readData v) :=
  ⟨_, .settled List.prefix_rfl rfl⟩

/-- A word of the window but its last keeps the record latched and the cursor (R522). -/
theorem jetData_jet (s : State) {w : Nat} (hw : w < 7) :
    (jetData s w).2.jet.index = s.jet.index ∧ (jetData s w).2.jet.latched.isSome = true := by
  simp [jetData, hw.ne]

/-- The last word of the window drops the record latched and moves the cursor on (R522). -/
theorem jetData_last (s : State) :
    (jetData s 7).2.jet.index = (s.jet.index + 1) % areaSize s.jet.area ∧ (jetData s 7).2.jet.latched = none := ⟨rfl, rfl⟩

/-- A cursor within its area is taken (R522). -/
theorem writeCursor_jet {s : State} {v : W32} (h : bits v.toNat 11 0 < areaSize (bit v.toNat 12)) :
    (writeCursor s v).jet.area = bit v.toNat 12 ∧ (writeCursor s v).jet.index = bits v.toNat 11 0 := by
  simp [writeCursor, h]

/-- Settles O8: each row by its equation, then what it leaves of the pins, the watchdog or the window. -/
theorem aliveAndJetRows : Obligations.AliveAndJetRows := by
  refine ⟨?toggle, ?core, ?watchdog, ?kicked, ?read, ?readLast, ?cursor, ?quiet, ?window⟩
  case toggle => exact fun s h ha => ⟨_, exec_aliveToggle h ha, settled_pins _⟩
  case core => exact fun s tile core h ht hc => exec_coreWatchdog h ht hc
  case watchdog =>
    intro s h he hr ha
    refine ⟨_, exec_hostWatchdog h he hr ha, ?_⟩
    rw [settled_jade_field (·.hwdog) (fun _ _ => rfl), settled_jade_field (·.hwdogRunning) (fun _ _ => rfl)]
    exact fault0_hwdog _ _ _ _
  case kicked =>
    intro s v h hd
    exact ⟨_, exec_aliveKick h hd v, settled_jade_field (·.hwdogRunning) (fun _ _ => rfl) _, settled_pins _⟩
  case read =>
    intro s w h hd hw
    refine ⟨_, exec_jetDataRead h hd (by omega), ?_⟩
    obtain ⟨hindex, hlatched⟩ := jetData_jet s hw
    exact ⟨by rw [settled_jet]; exact hindex, by rw [settled_jet]; exact hlatched, emits_jetData s w⟩
  case readLast =>
    intro s h hd
    obtain ⟨hindex, hlatched⟩ := jetData_last s
    exact ⟨_, exec_jetDataRead h hd (by decide), by rw [settled_jet]; exact hindex, by rw [settled_jet]; exact hlatched, emits_jetData s 7⟩
  case cursor =>
    intro s v h hd hv
    refine ⟨_, exec_jetCursorWrite h hd v, ?_⟩
    rw [settled_jet]
    exact writeCursor_jet hv
  case quiet =>
    intro s h hs
    refine ⟨_, exec_jetSuppressionWindow h, ?_⟩
    rw [settled_jet, hs]
    simp [hs]
  case window => exact fun s h => exec_jetSuppressionWindow h

end Sys2Proof.Machine
end

section
/-! PROOFS. The self-test group of mailbox commands (R491-R493): one equation per command, then what each leaves. -/

namespace Sys2Proof.Machine

/-! ### Tests read back -/

@[simp] theorem getTest_setTest_self (s : State) (kind pool : Nat) (t : Test) : getTest (setTest s kind pool t) kind pool = t := by
  have hnone : (s.tests.filter (fun e => e.1 != (kind, pool))).find? (fun e => e.1 == (kind, pool)) = none := by
    simp [List.find?_eq_none]
  simp [getTest, setTest, List.find?_append, hnone]

@[simp] theorem getTest_mbxTake (s : State) (g : Go) (objs : List (Nat × Nat)) (r : Option Running) (kind pool : Nat) :
    getTest (mbxTake s g objs r) kind pool = getTest s kind pool := by simp [getTest]

@[simp] theorem getTest_settled (s : State) (kind pool : Nat) : getTest (settled s) kind pool = getTest s kind pool := by simp [getTest]

@[simp] theorem getTest_mbxOk (s : State) (mb : Nat) (data : List Byte) (kind pool : Nat) :
    getTest (mbxOk s mb data) kind pool = getTest s kind pool := by simp [getTest, mbxOk]

/-- Taking a command changes neither the budgets nor the clock that a new test starts from. -/
theorem newTest_mbxTake (s : State) (g : Go) (objs : List (Nat × Nat)) (r : Option Running) :
    newTest (mbxTake s g objs r) = newTest s := by simp [newTest, verifyOn]

theorem testBytes_mbxTake (s : State) (g : Go) (objs : List (Nat × Nat)) (r : Option Running) :
    testBytes (mbxTake s g objs r) = testBytes s := by
  funext kind t
  simp [testBytes, ranNs]

/-- An extended test past the pool's last row (R493). -/
def extendedDone (s : State) (pool : Nat) : State :=
  setTest s 2 pool { restTest s (getTest s 2 pool) (if (getTest s 2 pool).inconsistent = 0 then 3 else 4) with progress := 100 }

/-! ### The commands -/

section Commands

variable {s : State} {g : Go} {pool : Nat}

theorem exec_shortSelftest (h : GoReady s g false 4 []) (ha : testActive (getTest s 1 0) = false) : exec (.shortSelftest g 1 pool) s =
    .next (settled (mbxOk (setTest (mbxTake s g [] none) 1 0 (newTest s)) g.mb [])) := by
  show execShortSelftest g 1 pool s = _
  unfold execShortSelftest
  rw [if_neg (by decide), mbxRun_clear _ _ _ _ h rfl rfl (by simp [needFree, ha]), done_eq, newTest_mbxTake]

/-- A short test is refused while one is active (R491). -/
theorem exec_shortSelftest_active (h : GoReady s g false 4 []) (ha : testActive (getTest s 1 0) = true) :
    exec (.shortSelftest g 1 pool) s = .next (settled (mbxFinish (mbxTake s g [] (some .waiting)) g.mb 0x0102 0 [])) := by
  show execShortSelftest g 1 pool s = _
  unfold execShortSelftest
  rw [if_neg (by decide), mbxRun_fails (c := needFree true) _ _ _ _ h rfl rfl (by simp [firstFailing, needFree, ha])]
  rfl

/-- SELFTEST_COMPLETE of a short test that found nothing. -/
theorem exec_selftestComplete_short (hs : serving s = true) (hst : (getTest s 1 0).st = 1) :
    exec (.selftestComplete 1 pool [] [] []) s =
      .next (settled (setTest s 1 0 { restTest s (getTest s 1 0) 3 with progress := 100, failures := 0 })) := by
  show execSelftestComplete 1 pool [] [] [] s = _
  simp [execSelftestComplete, hs, hst, shortFindings, done_eq]

/-- SELFTEST_COMPLETE of an extended test past the pool's last row. -/
theorem exec_selftestComplete_extended (hs : serving s = true) (hst : (getTest s 2 pool).st = 1)
    (hr : (poolCfg s pool).poolRows ≤ (getTest s 2 pool).row) : exec (.selftestComplete 2 pool [] [] []) s =
      .next (settled (if (getTest s 2 pool).inconsistent = 0 then extendedDone s pool
        else fault0 (drawn (extendedDone s pool)) ((Config.free s.freeIx).setWidth 16) 2 (srcPool pool))) := by
  show execSelftestComplete 2 pool [] [] [] s = _
  simp only [execSelftestComplete, hs, hst, hr, decide_true, beq_self_eq_true, Bool.and_self, Bool.not_true, done_eq]
  rfl

theorem exec_selftestStatus_short (h : GoReady s g false 4 []) : exec (.selftestStatus g 1 pool) s =
    .next (settled (mbxOk (mbxTake s g [] none) g.mb (testBytes s 1 (getTest s 1 0)))) := by
  show execSelftestStatus g 1 pool s = _
  unfold execSelftestStatus
  show mbxRun s g false false 4 (testFields 1 pool) [] [] _ = _
  rw [mbxRun_clear _ _ _ _ h rfl rfl rfl]
  simp [done_eq, testBytes_mbxTake, testKey]

/-- SELFTEST_ABORT of the short test (R491). -/
theorem exec_selftestAbort_short (h : GoReady s g false 4 []) : exec (.selftestAbort g 1 pool) s =
    .next (settled (mbxOk (abortTest (mbxTake s g [] none) 1 0) g.mb [])) := by
  show execSelftestAbort g 1 pool s = _
  unfold execSelftestAbort
  show mbxRun s g false false 4 (testFields 1 pool) [] [] _ = _
  rw [mbxRun_clear _ _ _ _ h rfl rfl rfl]
  rfl

variable {c : PoolCfg} (hp : PoolReady s pool c)

include hp

theorem exec_extendedSelftest (h : GoReady s g false 4 [objPool pool]) (ha : testActive (getTest s 2 pool) = false)
    (hn : extendedTests s < 4) : exec (.extendedSelftest g 2 pool) s =
      .next (settled (mbxOk (setTest (mbxTake s g [objPool pool] none) 2 pool (newTest s)) g.mb [])) := by
  show execExtendedSelftest g 2 pool s = _
  unfold execExtendedSelftest
  rw [if_neg (by decide), mbxRun_clear _ _ _ _ h rfl]
  · simp only [done_eq, newTest_mbxTake]
  · simp [hp.number_clear]
  · rw [List.all_append, hp.poolObj_clear]
    simp [needFree, ha, hn]

/-- SELFTEST_STATUS and SELFTEST_ABORT of an extended test pass the checks of its fields. -/
theorem testFields_clear : (testFields 2 pool).all (fun f => !f.2) = true := by simp [testFields, hp.number_clear]

theorem exec_selftestStatus_extended (h : GoReady s g false 4 [objPool pool]) : exec (.selftestStatus g 2 pool) s =
    .next (settled (mbxOk (mbxTake s g [objPool pool] none) g.mb (testBytes s 2 (getTest s 2 pool)))) := by
  show execSelftestStatus g 2 pool s = _
  unfold execSelftestStatus
  show mbxRun s g false false 4 (testFields 2 pool) (poolObj s pool 2) [objPool pool] _ = _
  rw [mbxRun_clear _ _ _ _ h rfl (testFields_clear hp) (hp.poolObj_clear 2)]
  simp [done_eq, testBytes_mbxTake, testKey]

theorem exec_selftestAbort_extended (h : GoReady s g false 4 [objPool pool]) : exec (.selftestAbort g 2 pool) s =
    .next (settled (mbxOk (abortTest (mbxTake s g [objPool pool] none) 2 pool) g.mb [])) := by
  show execSelftestAbort g 2 pool s = _
  unfold execSelftestAbort
  show mbxRun s g false false 4 (testFields 2 pool) (poolObj s pool 2) [objPool pool] _ = _
  rw [mbxRun_clear _ _ _ _ h rfl (testFields_clear hp) (hp.poolObj_clear 2)]
  rfl

end Commands

/-! ### A test ended (R491) -/

theorem releaseRow_workFrame (s : State) (pool row : Nat) : WorkFrame s (releaseRow s pool row) := by
  unfold releaseRow
  exact .ite (.refl _ s) ((startSalvages_workFrame _ pool).after ((setPool_Frame ..).mono (by decide)))

/-- A test that ends without a row read keeps all but the tests. -/
theorem abortTest_idle {s : State} {kind pool : Nat} (ha : testActive (getTest s kind pool) = true)
    (hf : (getTest s kind pool).fetch = none) :
    abortTest s kind pool = setTest s kind pool (restTest s (getTest s kind pool) 5) := by
  simp [abortTest, dropTestRow, restTest, ha, hf]

/-- An active test that is aborted ends in state 5, and no mailbox changes. -/
theorem abortTest_ends {s : State} {kind pool : Nat} (ha : testActive (getTest s kind pool) = true) :
    (getTest (abortTest s kind pool) kind pool).st = 5 ∧ (abortTest s kind pool).mbx = s.mbx := by
  cases hf : (getTest s kind pool).fetch with
  | none =>
    rw [abortTest_idle ha hf]
    exact ⟨by rw [getTest_setTest_self]; rfl, rfl⟩
  | some f =>
    have hd : abortTest s kind pool = releaseRow (setTest (endFetch s f) kind pool
        { restTest s (getTest s kind pool) 5 with fetch := none }) pool (restTest s (getTest s kind pool) 5).row := by
      simp [abortTest, dropTestRow, restTest, ha, hf]
    have hw := releaseRow_workFrame (setTest (endFetch s f) kind pool { restTest s (getTest s kind pool) 5 with fetch := none }) pool
      (restTest s (getTest s kind pool) 5).row
    rw [hd, hw.mbx (by decide), getTest, hw.tests (by decide), ← getTest, getTest_setTest_self]
    exact ⟨rfl, rfl⟩

/-- Settles O48: each command by its equation, its test read back, its answer by the mailbox's endings. -/
theorem selftestRows : Obligations.SelftestRows := by
  refine ⟨?short, ?active, ?extended, ?shortDone, ?extendedDone, ?statusShort, ?statusExtended, ?abortShort, ?abort, ?abortIdle⟩
  case short =>
    intro s g pool h ha
    exact ⟨_, exec_shortSelftest h ha, mbxOk_answered_of_mbx _ rfl, by simp⟩
  case active =>
    intro s g pool h ha
    exact ⟨_, exec_shortSelftest_active h ha, by simp, by simp⟩
  case extended =>
    intro s g pool c h hp ha hn
    exact ⟨_, exec_extendedSelftest hp h ha hn, mbxOk_answered_of_mbx _ rfl, by simp⟩
  case shortDone =>
    intro s pool hs hst
    refine ⟨_, exec_selftestComplete_short hs hst, ?_⟩
    rw [getTest_settled, getTest_setTest_self, settled_tiles]
    exact ⟨rfl, rfl, rfl, rfl⟩
  case extendedDone =>
    intro s pool hs hst hr
    refine ⟨_, exec_selftestComplete_extended hs hst hr, ?_⟩
    have ht : ∀ u : State, u.tests = (extendedDone s pool).tests → (getTest (settled u) 2 pool).progress = 100 ∧
        (getTest (settled u) 2 pool).st = if (getTest s 2 pool).inconsistent = 0 then 3 else 4 := fun u hu => by
      rw [getTest_settled, getTest, hu, ← getTest, extendedDone, getTest_setTest_self]
      exact ⟨rfl, rfl⟩
    refine ht _ ?_
    split
    · rfl
    · exact (fault_Frame ..).tests (by decide)
  case statusShort =>
    intro s g pool h
    exact ⟨_, exec_selftestStatus_short h, by simp [mbxOk], mbxOk_mbxTake_answered _ _ _ _⟩
  case statusExtended =>
    intro s g pool c h hp
    exact ⟨_, exec_selftestStatus_extended hp h, by simp [mbxOk], mbxOk_mbxTake_answered _ _ _ _⟩
  case abortShort =>
    intro s g pool h ha
    obtain ⟨hst, hmbx⟩ := abortTest_ends (s := mbxTake s g [] none) (kind := 1) (pool := 0) (by simp [ha])
    exact ⟨_, exec_selftestAbort_short h, mbxOk_answered_of_mbx _ hmbx, by simpa using hst⟩
  case abort =>
    intro s g pool c h hp
    exact exec_selftestAbort_extended hp h
  case abortIdle =>
    intro s g pool c h hp ha hf
    have ha' : testActive (getTest (mbxTake s g [objPool pool] none) 2 pool) = true := by simp [ha]
    have hidle := abortTest_idle ha' (by simp [hf])
    obtain ⟨hst, hmbx⟩ := abortTest_ends ha'
    refine ⟨_, exec_selftestAbort_extended hp h, mbxOk_answered_of_mbx _ hmbx, by simpa using hst, ?_⟩
    rw [hidle]
    simp [mbxOk, setTest]

end Sys2Proof.Machine
end

section
/-! PROOFS. The event-log and firmware groups of mailbox commands (R494-R496, R499, R519, R523): one equation per command, then what
each leaves. -/

namespace Sys2Proof.Machine

/-! ### The event log (R499, R523) -/

/-- The log as JET_CLEAR leaves it: recording has stopped and every slot is zeroed (R523). -/
def jetCleared (j : Jet) : Jet :=
  { j with recording := false, token := none, pinned := [], circ := [], next := 0, lap := true, total := 0 }

/-- What record 0x8007 will carry of the log cleared (R523). -/
def clearedCounts (j : Jet) : List Byte := leBytes 2 j.pinned.length ++ leBytes 2 j.circ.length ++ leBytes 4 j.overwrites

/-- Record 0x8007, which the end of a JET_CLEAR by mailbox `mb` writes (R523). -/
def clearRecord (s : State) (mb : Nat) : JetRec :=
  { epoch := s.moon.epoch, offset := nowOffset s, code := 0x8007, source := srcJade 0, cls := 0, data := (getMbx s mb).data }

/-- The log with record 0x8007 as its first (R523). -/
def jetReopened (s : State) (mb : Nat) : Jet :=
  { s.jet with recording := true, lastClear := s.moon.epoch, pinned := [{ clearRecord s mb with lap := true }], total := s.jet.total + 1 }

section Jet

variable {s : State} {g : Go}

theorem exec_jetStatus (h : GoReady s g false 0 []) : exec (.jetStatus g) s = .next (settled (mbxOk (mbxTake s g [] none) g.mb
    (leBytes 2 s.jet.pinned.length ++ leBytes 2 s.jet.circ.length ++ leBytes 4 s.jet.total ++ leBytes 8 s.jet.lastClear.toNat))) := by
  show execJetStatus g s = _
  unfold execJetStatus
  rw [mbxRun_clear _ _ _ _ h rfl rfl rfl, done_eq, mbxTake_jet]

theorem exec_jetToken (h : GoReady s g false 0 []) : exec (.jetToken g) s = .next (settled (mbxOk
    { drawn (mbxTake s g [] none) with jet := { s.jet with token := some (Config.random32 s.freeIx) } } g.mb
    (leBytes 4 (Config.random32 s.freeIx).toNat))) := by
  show execJetToken g s = _
  unfold execJetToken
  rw [mbxRun_clear _ _ _ _ h rfl rfl rfl]
  simp [done_eq, drawn]

theorem exec_jetTokenExpiry {v : W32} (hr : running s = true) (ht : s.jet.token = some v) :
    exec .jetTokenExpiry s = .next (settled { s with jet := { s.jet with token := none } }) := by
  show execJetTokenExpiry s = _
  simp [execJetTokenExpiry, hr, ht, done_eq]

theorem exec_jetClear {v : W32} (h : GoReady s g false 4 []) (ht : s.jet.token = some v) : exec (.jetClear g v) s =
    .next (settled (mbxPark { mbxTake s g [] none with jet := jetCleared s.jet } g.mb .jetClear (clearedCounts s.jet))) := by
  show execJetClear g v s = _
  unfold execJetClear
  rw [mbxRun_clear _ _ _ _ h (by simp [ht]) rfl rfl]
  simp only [done_eq, mbxTake_jet]
  rfl

/-- A token that is not the one given out is refused (R499). -/
theorem exec_jetClear_refused {v : W32} (h : GoReady s g false 4 []) (ht : s.jet.token ≠ some v) :
    exec (.jetClear g v) s = .next (settled (mbxFinish (mbxTake s g [] (some .waiting)) g.mb 0x0101 0 [])) := by
  have hne : (s.jet.token != some v) = true := by simpa using ht
  show execJetClear g v s = _
  unfold execJetClear
  rw [hne, mbxRun_refused _ _ _ h]

/-- Nothing was buffered while the log was cleared: its first record is 0x8007. -/
theorem exec_jetClearDone {mb : Nat} (hr : running s = true) (hm : (getMbx s mb).running = some .jetClear) (hp : s.jet.pinned = [])
    (hb : s.jet.buffer = []) (ho : s.jet.overflow = []) : exec (.jetClearDone mb) s = .next (settled (mbxOk
      { s with jet := jetReopened s mb } mb [])) := by
  show execJetClearDone mb s = _
  simp [execJetClearDone, hr, hm, Jet.store, jetPinned, hp, hb, ho, flushBuffer, clearRecord, jetReopened, done_eq]
  rfl

end Jet

/-- Settles O49: each command by its equation, its answer by the mailbox's endings. -/
theorem jetCommandRows : Obligations.JetCommandRows := by
  refine ⟨?status, ?token, ?expiry, ?clear, ?refused, ?finished⟩
  case status =>
    intro s g h
    exact ⟨_, exec_jetStatus h, by simp [mbxOk], mbxOk_mbxTake_answered _ _ _ _⟩
  case token =>
    intro s g h
    exact ⟨_, _, exec_jetToken h, by simp [mbxOk], mbxOk_answered_of_mbx _ rfl⟩
  case expiry =>
    intro s v hr ht
    exact ⟨_, exec_jetTokenExpiry hr ht, settled_jet _⟩
  case clear =>
    intro s g v h ht
    have hj : (settled (mbxPark { mbxTake s g [] none with jet := jetCleared s.jet } g.mb .jetClear (clearedCounts s.jet))).jet =
      jetCleared s.jet := settled_jet _
    refine ⟨_, exec_jetClear h ht, ?_⟩
    rw [hj]
    exact ⟨rfl, rfl, rfl, rfl, mbxPark_runs_of_mbx _ _ rfl⟩
  case refused =>
    intro s g v h ht
    exact ⟨_, exec_jetClear_refused h ht, by simp, by simp⟩
  case finished =>
    intro s mb hr hm horph hp hb ho
    have hj : (settled (mbxOk { s with jet := jetReopened s mb } mb [])).jet = jetReopened s mb := by simp [mbxOk]
    obtain ⟨hbusy, hlast⟩ := mbxFinish_ended (s := { s with jet := jetReopened s mb }) (mb := mb) 0 0 [] horph
    refine ⟨_, { clearRecord s mb with lap := true }, exec_jetClearDone hr hm hp hb ho, ?_⟩
    rw [hj, getMbx_settled]
    exact ⟨rfl, rfl, rfl, rfl, rfl, hbusy, hlast⟩

/-! ### Firmware images (R494-R496) -/

section Firmware

variable {s : State} {g : Go}

theorem exec_fwInfo (h : GoReady s g false 0 []) : exec (.fwInfo g) s = .next (settled (mbxOk (mbxTake s g [] none) g.mb
    (leBytes 1 s.flash.active ++ leBytes 1 s.flash.pending ++ leBytes 2 s.sec.fusedSvn ++ leBytes 4 (slotVersion s.flash 0) ++
      leBytes 4 (slotSvn s.flash 0) ++ leBytes 4 (slotVersion s.flash 1) ++ leBytes 4 (slotSvn s.flash 1)))) := by
  show execFwInfo g s = _
  unfold execFwInfo
  rw [mbxRun_clear _ _ _ _ h rfl rfl rfl, done_eq, mbxTake_flash, mbxTake_sec]

/-- FW_DOWNLOAD while slot A is active: slot B takes the bytes, and is no longer pending (R495). -/
theorem exec_fwDownload {off len : Nat} {buf : SegDesc} (data : List Byte) (h : GoReady s g false 24 []) (ho : off % 4096 = 0)
    (hl : len % 4096 = 0) (ht : off < 32 * 2 ^ 20) (hl4 : len ≤ 4 * 2 ^ 20) (hol : off + len ≤ 32 * 2 ^ 20) (hb : badBuf buf = false)
    (hbl : len ≤ buf.segLen.toNat) (ha : s.flash.active = 0) : exec (.fwDownload g off len buf data) s =
      .next (settled (mbxOk { mbxTake s g [] none with flash := { s.flash with
        slotB := Mem.paste s.flash.slotB off len (Mem.ofList (data.take len))
        pending := if s.flash.pending = 2 then 0 else s.flash.pending } } g.mb [])) := by
  have hfields : List.all [(0, off % 4096 != 0 || decide (32 * 2 ^ 20 ≤ off)),
      (4, len % 4096 != 0 || decide (4 * 2 ^ 20 < len) || decide (32 * 2 ^ 20 < off + len)),
      (8, badBuf buf || decide (buf.segLen.toNat < len))] (fun f => !f.2) = true := by
    simp only [List.all_cons, List.all_nil, hb, ho, hl, decide_eq_false (Nat.not_le.2 ht), decide_eq_false (Nat.not_lt.2 hl4),
      decide_eq_false (Nat.not_lt.2 hol), decide_eq_false (Nat.not_lt.2 hbl)]
    rfl
  show execFwDownload g off len buf data s = _
  unfold execFwDownload
  rw [mbxRun_clear _ _ _ _ h rfl hfields rfl]
  simp [done_eq, Flash.inactive, Flash.slot, Flash.setSlot, ha]

theorem exec_fwVerifyPending (h : GoReady s g false 1 []) (hi : imageSlotGood s s.flash.inactive = true) : exec (.fwVerifyPending g 0) s =
    .next (settled (mbxOk { mbxTake s g [] none with flash := { s.flash with pending := s.flash.inactive + 1 } } g.mb [])) := by
  show execFwVerifyPending g 0 s = _
  unfold execFwVerifyPending
  rw [if_neg (by decide), mbxRun_clear _ _ _ _ h rfl rfl (by simp [refuse, hi]), done_eq, mbxTake_flash]

/-- An image that does not verify is refused (R496). -/
theorem exec_fwVerifyPending_bad (h : GoReady s g false 1 []) (hi : imageSlotGood s s.flash.inactive = false) :
    exec (.fwVerifyPending g 0) s = .next (settled (mbxFinish (mbxTake s g [] (some .waiting)) g.mb 0x0101 0 [])) := by
  show execFwVerifyPending g 0 s = _
  unfold execFwVerifyPending
  rw [if_neg (by decide), mbxRun_fails (c := refuse true 0x0101) _ _ _ _ h rfl rfl (by simp [firstFailing, refuse, hi])]
  rfl

theorem exec_fwClearPending (h : GoReady s g false 1 []) : exec (.fwClearPending g 1) s =
    .next (settled (mbxOk { mbxTake s g [] none with flash := { s.flash with pending := 0 } } g.mb [])) := by
  show execFwClearPending g 1 s = _
  unfold execFwClearPending
  rw [if_neg (by decide), mbxRun_clear _ _ _ _ h rfl rfl rfl, done_eq, mbxTake_flash]

theorem exec_fwConfirm (h : GoReady s g false 1 []) : exec (.fwConfirm g 2) s = .next (settled (mbxOk
    { mbxTake s g [] none with sec := { s.sec with fusedSvn := max s.sec.fusedSvn s.sec.svn } } g.mb [])) := by
  show execFwConfirm g 2 s = _
  unfold execFwConfirm
  rw [if_neg (by decide), mbxRun_clear _ _ _ _ h rfl rfl rfl, done_eq, mbxTake_sec]

end Firmware

/-- Settles O50: each command by its equation, its answer by the mailbox's endings. -/
theorem firmwareRows : Obligations.FirmwareRows := by
  refine ⟨?info, ?download, ?verify, ?bad, ?clear, ?confirm⟩
  case info =>
    intro s g h
    exact ⟨_, exec_fwInfo h, by simp [mbxOk], mbxOk_mbxTake_answered _ _ _ _⟩
  case download =>
    intro s g off len buf data h ho hl ht hl4 hol hb hbl ha
    refine ⟨_, exec_fwDownload data h ho hl ht hl4 hol hb hbl ha, mbxOk_answered_of_mbx _ rfl, ?_⟩
    simp [mbxOk]
  case verify =>
    intro s g h hi
    exact ⟨_, exec_fwVerifyPending h hi, mbxOk_answered_of_mbx _ rfl, by simp [mbxOk, Flash.inactive]⟩
  case bad =>
    intro s g h hi
    exact ⟨_, exec_fwVerifyPending_bad h hi, by simp, by simp⟩
  case clear =>
    intro s g h
    exact ⟨_, exec_fwClearPending h, mbxOk_answered_of_mbx _ rfl, by simp [mbxOk]⟩
  case confirm =>
    intro s g h
    exact ⟨_, exec_fwConfirm h, mbxOk_answered_of_mbx _ rfl, by simp [mbxOk], by simp [mbxOk]⟩

end Sys2Proof.Machine
end

section
/-! PROOFS. Changes of volumes (R488-R490): what each leaves of the configuration, the mailboxes and the pools, and the checks that the
commands on a volume share. -/

namespace Sys2Proof.Machine

/-! ### A change of a volume -/

theorem purgeVol_Frame (s : State) (t vol : Nat) : Frame [.tiles] s (purgeVol s t vol) := setTile_Frame ..

theorem releaseExtents_Frame (s : State) (pool : Nat) (es : List Nat) : Frame [.pools] s (releaseExtents s pool es) := setPool_Frame ..

/-- A volume altered: its description, then extents released, rows purged and its map. -/
theorem applyVol_alters {s : State} {v : Nat} {o : VolCfg} (c : VolCfg) (ho : volCfg? s v = some o) :
    Frame [.tiles, .pools, .vols] (setVolCfg s v c) (applyVol s v (some c)) := by
  simp only [applyVol, ho]
  refine .ite (.after ((setVol_Frame ..).mono (by decide)) ?_) ?_
  all_goals
    refine .ite ?_ (.after ((setVol_Frame ..).mono (by decide)) (.after ((purgeVol_Frame ..).mono (by decide)) ?_))
  all_goals
    exact .ite (.refl _ _) (.after ((purgeVol_Frame ..).mono (by decide)) ((releaseExtents_Frame ..).mono (by decide)))

/-- A volume's description after a change is the one the change names. -/
theorem volCfg?_applyVol (s : State) (v : Nat) (new : Option VolCfg) : volCfg? (applyVol s v new) v = new := by
  cases ho : volCfg? s v with
  | none =>
    cases new with
    | none => simp [applyVol, ho]
    | some c =>
      simp only [applyVol, ho]
      exact Tab.get?_set_self _ _ _
  | some o =>
    cases new with
    | none =>
      simp only [applyVol, ho]
      exact Tab.get?_erase_self _ _
    | some c =>
      rw [volCfg?, (applyVol_alters c ho).cfg (by decide)]
      exact Tab.get?_set_self _ _ _

theorem applyVol_mbx (s : State) (v : Nat) (new : Option VolCfg) : (applyVol s v new).mbx = s.mbx := by
  cases ho : volCfg? s v with
  | none =>
    simp only [applyVol, ho]
    cases new <;> rfl
  | some o =>
    cases new with
    | none =>
      simp only [applyVol, ho]
      rfl
    | some c => exact (applyVol_alters c ho).mbx (by decide)

/-- Extents released wait to be zeroed (R489). -/
theorem zeroing_releaseExtents (s : State) (pool : Nat) {es : List Nat} {e : Nat} (he : e ∈ es) :
    (getPool (releaseExtents s pool es) pool).zeroing.contains e = true := by
  simp only [releaseExtents, modPool_eq, getPool_setPool_self, List.contains_eq_mem, List.mem_append, List.mem_filter,
    Bool.not_eq_true', decide_eq_true_eq, decide_eq_false_iff_not]
  by_cases hz : e ∈ (getPool s pool).zeroing
  · exact .inl hz
  · exact .inr ⟨he, hz⟩

/-- The extents of a volume deleted are released to its pool (R489). -/
theorem zeroing_applyVol_none {s : State} {v : Nat} {o : VolCfg} (ho : volCfg? s v = some o) {e : Nat} (he : e ∈ o.extents) :
    (getPool (applyVol s v none) o.pool).zeroing.contains e = true := by
  simp only [applyVol, ho]
  exact zeroing_releaseExtents _ _ he

/-- Extents that a volume no longer names are released to its pool (R489). -/
theorem zeroing_applyVol_extents {s : State} {v : Nat} {o : VolCfg} (ho : volCfg? s v = some o) {l : List Nat} {e : Nat}
    (he : e ∈ o.extents) (hl : e ∉ l) : (getPool (applyVol s v (some { o with extents := l })) o.pool).zeroing.contains e = true := by
  have hne : l ≠ o.extents := fun h => hl (h ▸ he)
  have hx : applyVol s v (some { o with extents := l }) = purgeVol (releaseExtents (setVolCfg s v { o with extents := l }) o.pool
      (o.extents.filter (fun e => !l.contains e))) (homeTile (setVolCfg s v { o with extents := l }) v) v := by
    simp [applyVol, ho, hne]
  rw [hx, getPool, (purgeVol_Frame ..).pools (by decide)]
  exact zeroing_releaseExtents _ _ (by simp [he, hl])

/-- A change of a volume whose pool has no partner takes effect at once (R381). -/
theorem changePool_vol {s : State} {pool : Nat} (mb v : Nat) (c : Option VolCfg) (data : List Byte)
    (hp : (poolCfg s pool).partner = none) : changePool s mb pool (.vol v c) data = mbxStore (applyVol s v c) mb data := by
  simp only [changePool, hp, applyChange]

/-- A command that changes a volume at once waits for the configuration to be stored, and has changed it already. -/
theorem volChange_stored (s : State) (g : Go) (objs : List (Nat × Nat)) (v : Nat) (c : Option VolCfg) (data : List Byte) :
    Runs (settled (mbxStore (applyVol (mbxTake s g objs none) v c) g.mb data)) g (.config 0) data ∧
      volCfg? (settled (mbxStore (applyVol (mbxTake s g objs none) v c) g.mb data)) v = c := by
  refine ⟨mbxPark_runs_of_mbx _ _ (applyVol_mbx _ _ _), ?_⟩
  rw [volCfg?, settled_cfg]
  exact volCfg?_applyVol _ _ _

theorem getPool_mbxStore (s : State) (mb : Nat) (data : List Byte) (pool : Nat) :
    getPool (settled (mbxStore s mb data)) pool = getPool s pool := by
  rw [getPool_settled, mbxStore, getPool_mbxPark]

/-! ### A volume that a command names -/

@[simp] theorem volCfg?_mbxTake (s : State) (g : Go) (objs : List (Nat × Nat)) (r : Option Running) (v : Nat) :
    volCfg? (mbxTake s g objs r) v = volCfg? s v := by simp [volCfg?]

@[simp] theorem getVol_mbxTake (s : State) (g : Go) (objs : List (Nat × Nat)) (r : Option Running) (v : Nat) :
    getVol (mbxTake s g objs r) v = getVol s v := by simp [getVol]

theorem volCfg_of_get? {s : State} {v : Nat} {c : VolCfg} (h : volCfg? s v = some c) : volCfg s v = c := by
  rw [volCfg, h, Option.getD_some]

theorem VolReady.phase {s : State} {g : Go} {v : Nat} {c : VolCfg} (h : VolReady s g v c) : s.phase = .ready := h.1

theorem VolReady.present {s : State} {g : Go} {v : Nat} {c : VolCfg} (h : VolReady s g v c) : volExists s g.mb v = true := h.2.1

theorem VolReady.get? {s : State} {g : Go} {v : Nat} {c : VolCfg} (h : VolReady s g v c) : volCfg? s v = some c := h.2.2.1

theorem VolReady.volCfg_eq {s : State} {g : Go} {v : Nat} {c : VolCfg} (h : VolReady s g v c) : volCfg s v = c := volCfg_of_get? h.get?

theorem VolReady.partner {s : State} {g : Go} {v : Nat} {c : VolCfg} (h : VolReady s g v c) : (poolCfg s c.pool).partner = none :=
  h.2.2.2

/-- Checks that pass leave the answer to those after them. -/
theorem firstFailing_append {l : List Check} (m : List Check) (h : l.all (fun c => !c.fails) = true) :
    firstFailing (l ++ m) = firstFailing m := by
  induction l with
  | nil => rfl
  | cons c l ih =>
    simp only [List.all_cons, Bool.and_eq_true, Bool.not_eq_true'] at h
    obtain ⟨hc, hl⟩ := h
    simp [firstFailing, hc, ih hl]

/-- A volume of a pool without a partner may be changed (R381). -/
theorem VolReady.needPartner_clear {s : State} {g : Go} {v : Nat} {c : VolCfg} (h : VolReady s g v c) :
    (needPartner s c.pool).fails = false := by simp [needPartner, h.partner]

/-- A stopped volume passes the checks of its object and of its state. -/
theorem VolReady.stoppedVol_clear {s : State} {g : Go} {v : Nat} {c : VolCfg} (h : VolReady s g v c)
    (hst : (getVol s v).st = .stopped) : (stoppedVol s g v).all (fun c => !c.fails) = true := by
  rw [stoppedVol, List.all_append, volObj_clear h.phase h.present]
  simp [needStopped, hst]

end Sys2Proof.Machine
end

section
/-! PROOFS. The security group of mailbox commands (R494, R497, R498): one equation per command, then what each leaves. -/

namespace Sys2Proof.Machine

section Security

variable {s : State} {g : Go} {buf : SegDesc}

theorem exec_secPubkey (h : GoReady s g false 16 []) (hb : badBuf buf = false) : exec (.secPubkey g buf) s =
    .next (settled (mbxOk (writeBuf (mbxTake s g [] none) g.mb buf Config.pubKeyChain) g.mb (bytesField Config.pubKeyChain))) := by
  show execSecPubkey g buf s = _
  unfold execSecPubkey
  rw [mbxRun_clear _ _ _ _ h rfl (by simp [hb]) rfl, done_eq]

/-- The measurement log (R494). -/
def measurements (s : State) : List Byte := s.sec.measured.flatMap (fun d => beBytes 48 d.toNat)

theorem length_measurements (s : State) : (measurements s).length = 48 * s.sec.measured.length := by
  simp [measurements, List.length_flatMap, beBytes, length_leBytes, Nat.mul_comm]

theorem exec_secMeasure (h : GoReady s g false 16 []) (hb : badBuf buf = false) : exec (.secMeasure g buf) s =
    .next (settled (mbxOk (writeBuf (mbxTake s g [] none) g.mb buf (measurements s)) g.mb (bytesField (measurements s)))) := by
  show execSecMeasure g buf s = _
  unfold execSecMeasure
  rw [mbxRun_clear _ _ _ _ h rfl (by simp [hb]) rfl, done_eq, mbxTake_sec]
  rfl

/-- A KEK that unwraps while no volume holds a key (R497). -/
theorem exec_kekLoad {hp w : List Byte} {k : BitVec 256} (h : GoReady s g false 136 [])
    (hv : s.cfg.vols.any (fun e => e.2.key.isSome) = false) (hk : Config.kekUnwrap hp w = some k) : exec (.kekLoad g hp w) s =
      .next (settled (mbxStore { mbxTake s g [] none with cfg := { s.cfg with kek := some k } } g.mb [])) := by
  show execKekLoad g hp w s = _
  unfold execKekLoad
  rw [mbxRun_clear _ _ _ _ h rfl rfl (by simp [needFree, hv, hk]), done_eq, mbxTake_cfg, hk]

/-- A KEK that does not unwrap. -/
theorem exec_kekLoad_bad {hp w : List Byte} (h : GoReady s g false 136 []) (hv : s.cfg.vols.any (fun e => e.2.key.isSome) = false)
    (hk : Config.kekUnwrap hp w = none) : exec (.kekLoad g hp w) s =
      .next (settled (mbxFinish (mbxTake s g [] (some .waiting)) g.mb 0x0002 96 [])) := by
  show execKekLoad g hp w s = _
  unfold execKekLoad
  rw [mbxRun_fails (c := { fails := true, status := 0x0002, detail := 96 }) _ _ _ _ h rfl rfl
    (by simp [firstFailing, needFree, hv, hk]), done_eq]

/-- A KEK is not loaded while a volume holds a key (R497). -/
theorem exec_kekLoad_held {hp w : List Byte} (h : GoReady s g false 136 []) (hv : s.cfg.vols.any (fun e => e.2.key.isSome) = true) :
    exec (.kekLoad g hp w) s = .next (settled (mbxFinish (mbxTake s g [] (some .waiting)) g.mb 0x0102 0 [])) := by
  show execKekLoad g hp w s = _
  unfold execKekLoad
  rw [mbxRun_fails (c := needFree true) _ _ _ _ h rfl rfl (by simp only [needFree, hv]; rfl)]
  rfl

variable {vol : Nat} {c : VolCfg} (hv : VolReady s g vol c) (hst : (getVol s vol).st = .stopped)

include hv hst

/-- A key that unwraps, for a stopped volume with ENCRYPT (R498). -/
theorem exec_keyLoad {w : List Byte} {k : BitVec 512} (h : GoReady s g false 80 [objVol vol]) (he : c.attr.getLsbD 2 = true)
    (hk : unwrapKey s w = some k) : exec (.keyLoad g vol w) s =
      .next (settled (mbxStore (applyVol (mbxTake s g [objVol vol] none) vol (some { c with key := some k, wrapped := w })) g.mb [])) := by
  have hk' : unwrapKey (mbxTake s g [objVol vol] none) w = some k := by simpa [unwrapKey] using hk
  have hp : (poolCfg (mbxTake s g [objVol vol] none) c.pool).partner = none := by simpa using hv.partner
  show execKeyLoad g vol w s = _
  simp only [execKeyLoad, hv.volCfg_eq]
  rw [mbxRun_clear _ _ _ _ h rfl rfl]
  · simp only [volCfg_mbxTake, hv.volCfg_eq, hk', changePool_vol _ _ _ _ hp, done_eq]
  · rw [List.all_append, hv.stoppedVol_clear hst]
    simp [fieldsBad_clear, he, hk, hv.needPartner_clear]

/-- A key that does not unwrap. -/
theorem exec_keyLoad_bad {w : List Byte} (h : GoReady s g false 80 [objVol vol]) (he : c.attr.getLsbD 2 = true)
    (hk : unwrapKey s w = none) :
    exec (.keyLoad g vol w) s = .next (settled (mbxFinish (mbxTake s g [objVol vol] (some .waiting)) g.mb 0x0002 8 [])) := by
  show execKeyLoad g vol w s = _
  simp only [execKeyLoad, hv.volCfg_eq]
  rw [mbxRun_fails (c := { fails := true, status := 0x0002, detail := 8 }) _ _ _ _ h rfl rfl, done_eq]
  rw [firstFailing_append _ (hv.stoppedVol_clear hst)]
  simp [firstFailing, fieldsBad, lowestField, he, hk]

theorem exec_keyDestroy (h : GoReady s g false 2 [objVol vol]) : exec (.keyDestroy g vol) s =
    .next (settled (mbxStore (applyVol (mbxTake s g [objVol vol] none) vol (some { c with key := none, wrapped := [] })) g.mb [])) := by
  have hp : (poolCfg (mbxTake s g [objVol vol] none) c.pool).partner = none := by simpa using hv.partner
  show execKeyDestroy g vol s = _
  simp only [execKeyDestroy, hv.volCfg_eq]
  rw [mbxRun_clear _ _ _ _ h rfl rfl]
  · simp only [volCfg_mbxTake, hv.volCfg_eq, changePool_vol _ _ _ _ hp, done_eq]
  · rw [List.all_append, hv.stoppedVol_clear hst]
    simp [hv.needPartner_clear]

end Security

/-- Settles O51: each command by its equation, split on whether what it loads unwraps. -/
theorem keyRows : Obligations.KeyRows := by
  refine ⟨?pubkey, ?measure, ?kek, ?held, ?load, ?destroy⟩
  case pubkey =>
    intro s g buf h hb
    refine ⟨_, exec_secPubkey h hb, ?_, (mbxOk_writeBuf _ _ _ _ _ _).2⟩
    simp [mbxOk, (writeBuf_Frame (mbxTake s g [] none) g.mb buf Config.pubKeyChain).cfg]
  case measure =>
    intro s g buf h hb
    refine ⟨_, exec_secMeasure h hb, ?_, ?_⟩
    · simp [mbxOk, (writeBuf_Frame (mbxTake s g [] none) g.mb buf (measurements s)).sec]
    · rw [bytesField, length_measurements]
      exact (mbxOk_writeBuf _ _ _ _ _ _).2
  case kek =>
    intro s g hp w h hv
    cases hk : Config.kekUnwrap hp w with
    | none => exact ⟨_, exec_kekLoad_bad h hv hk, by simp, by simp⟩
    | some k => exact ⟨_, exec_kekLoad h hv hk, mbxStore_runs _ _ _ _ _, settled_cfg _⟩
  case held =>
    intro s g hp w h hv
    exact ⟨_, exec_kekLoad_held h hv, by simp, by simp⟩
  case load =>
    intro s g vol w c h hv hst he
    cases hk : unwrapKey s w with
    | none => exact ⟨_, exec_keyLoad_bad hv hst h he hk, by simp, by simp⟩
    | some k => exact ⟨_, exec_keyLoad hv hst h he hk, volChange_stored _ _ _ _ _ _⟩
  case destroy =>
    intro s g vol c h hv hst
    exact ⟨_, exec_keyDestroy hv hst h, volChange_stored _ _ _ _ _ _⟩

end Sys2Proof.Machine
end

section
/-! PROOFS. The volume group of mailbox commands (R480, R482, R488-R490, R579): one equation per command, then what each leaves. -/

namespace Sys2Proof.Machine

/-! ### What taking a command leaves -/

@[simp] theorem homeTile_mbxTake (s : State) (g : Go) (objs : List (Nat × Nat)) (r : Option Running) (v : Nat) :
    homeTile (mbxTake s g objs r) v = homeTile s v := by simp [homeTile]

@[simp] theorem tileUp_mbxTake (s : State) (g : Go) (objs : List (Nat × Nat)) (r : Option Running) :
    tileUp (mbxTake s g objs r) = tileUp s := by
  funext t
  simp only [tileUp, mbxTake_part, mbxTake_tiles]

theorem newHome_mbxTake (s : State) (g : Go) (objs : List (Nat × Nat)) (r : Option Running) (p : VolParams) :
    newHome (mbxTake s g objs r) p = newHome s p := by
  simp only [newHome, chooseHome, upTiles, tileUp_mbxTake, sealsOn, homeTile_mbxTake, mbxTake_part, mbxTake_cfg]
  rfl

theorem volCfg?_settled (s : State) (v : Nat) : volCfg? (settled s) v = volCfg? s v := by simp [volCfg?]

theorem volCfg_settled (s : State) (v : Nat) : volCfg (settled s) v = volCfg s v := by rw [volCfg, volCfg?_settled, volCfg]

theorem getVol_mbxPark (s : State) (mb : Nat) (r : Running) (data : List Byte) (v : Nat) :
    getVol (mbxPark s mb r data) v = getVol s v := rfl

theorem volCfg?_mbxPark (s : State) (mb : Nat) (r : Running) (data : List Byte) (v : Nat) :
    volCfg? (mbxPark s mb r data) v = volCfg? s v := rfl

theorem volCfg_mbxPark (s : State) (mb : Nat) (r : Running) (data : List Byte) (v : Nat) :
    volCfg (mbxPark s mb r data) v = volCfg s v := rfl

/-! ### Creation, deletion and change (R488-R490) -/

/-- A new volume starts stopped at its home. -/
theorem getVol_applyVol_new {s : State} {v : Nat} (c : VolCfg) (h : volCfg? s v = none) :
    getVol (applyVol s v (some c)) v = { home := c.home } := by
  simp [applyVol, h]

section Create

variable {s : State} {g : Go} {p : VolParams} {c : PoolCfg} {t : Nat} (h : GoReady s g false 32 [objVol p.vol, objPool p.pool])
  (hph : s.phase = .ready) (hpool : p.pool < 64) (hhome : badTile p.home true = false) (hup : p.home = 0xFF ∨ tileUp s p.home = true)
  (ht : newHome s p = some t) (ha : p.attr.toNat ≤ 7) (hseal : p.attr.getLsbD 0 = true → sealsOn s t < 2048) (hpol : p.policy ≤ 3)
  (he1 : 1 ≤ p.extents) (he2 : p.extents ≤ 2 ^ 20) (hb : badBuf p.buf = false) (hv : p.vol < s.part.volumes)
  (hnew : volCfg? s p.vol = none) (hc : poolCfg? s p.pool = some c) (hres : c.reserved = none) (hpart : c.partner = none)
  (hst : (getPool s p.pool).st = .running) (hx : badExtents s p.pool p.vol p.extents p.buf.segLen.toNat p.list = false)

include h hph hpool hhome hup ht ha hseal hpol he1 he2 hb hv hnew hc hres hpart hst hx

theorem exec_volumeCreate : exec (.volumeCreate g p) s = .next (settled (mbxStore
    (applyVol (mbxTake s g [objVol p.vol, objPool p.pool] none) p.vol
      (some { pool := p.pool, home := t, attr := p.attr, policy := p.policy, extents := p.list })) g.mb (leBytes 1 t))) := by
  have hcfg : poolCfg s p.pool = c := by rw [poolCfg, hc, Option.getD_some]
  have hp : (poolCfg (mbxTake s g [objVol p.vol, objPool p.pool] none) p.pool).partner = none := by simpa [hcfg] using hpart
  have hfull : (sealBit p.attr && decide (2048 ≤ sealsOn s t)) = false := by
    cases hs : p.attr.getLsbD 0
    · simp only [sealBit, hs, Bool.false_and]
    · simpa [sealBit, hs] using hseal hs
  have hnamed : (p.home != 0xFF && !tileUp s p.home) = false := by rcases hup with h | h <;> simp [h]
  show execVolumeCreate g p s = _
  simp only [execVolumeCreate, ht]
  rw [mbxRun_clear _ _ _ _ h rfl]
  · simp only [newHome_mbxTake, ht, Option.getD_some, changePool_vol _ _ _ _ hp, done_eq]
  · have hpool63 : p.pool ≤ 63 := Nat.lt_succ_iff.1 hpool
    simpa [extentFields, hhome, hb, hpool63, ha, hpol] using ⟨Nat.ne_of_gt he1, he2⟩
  · have hfirst := fieldsBad_clear (l := [(0, (volCfg? s p.vol).isSome), (2, (poolCfg? s p.pool).isNone || poolReserved s p.pool),
      (4, p.home != 0xFF && !tileUp s p.home)]) (by simp [hnamed, hnew, hc, poolReserved, hcfg, hres])
    have hsecond := fieldsBad_clear (l := [(5, sealBit p.attr && decide (2048 ≤ sealsOn s t)),
      (16, badExtents s p.pool p.vol p.extents p.buf.segLen.toNat p.list)]) (by simp [hfull, hx])
    simp [hfirst, hsecond, needVol, needReplay, refuse, needFree, needPartner, hv, hph, hst, hcfg, hpart]

theorem volumeCreate_creates : ∃ u, exec (.volumeCreate g p) s = .next u ∧ Runs u g (.config 0) (leBytes 1 t) ∧
    getVol u p.vol = { home := t } ∧
    volCfg? u p.vol = some { pool := p.pool, home := t, attr := p.attr, policy := p.policy, extents := p.list } := by
  obtain ⟨hruns, hcfg⟩ := volChange_stored s g [objVol p.vol, objPool p.pool] p.vol
    (some { pool := p.pool, home := t, attr := p.attr, policy := p.policy, extents := p.list }) (leBytes 1 t)
  refine ⟨_, exec_volumeCreate h hph hpool hhome hup ht ha hseal hpol he1 he2 hb hv hnew hc hres hpart hst hx, hruns, ?_, hcfg⟩
  rw [getVol_settled]
  exact getVol_applyVol_new _ (by simpa using hnew)

end Create

section Changes

variable {s : State} {g : Go} {vol : Nat} {c : VolCfg} (hv : VolReady s g vol c) (hst : (getVol s vol).st = .stopped)

include hv hst

theorem exec_volumeDelete (h : GoReady s g false 2 [objVol vol]) : exec (.volumeDelete g vol) s =
    .next (settled (mbxStore (applyVol (mbxTake s g [objVol vol] none) vol none) g.mb [])) := by
  have hp : (poolCfg (mbxTake s g [objVol vol] none) c.pool).partner = none := by simpa using hv.partner
  show execVolumeDelete g vol s = _
  simp only [execVolumeDelete, hv.volCfg_eq]
  rw [mbxRun_clear _ _ _ _ h rfl rfl]
  · simp only [volCfg_mbxTake, hv.volCfg_eq, changePool_vol _ _ _ _ hp, done_eq]
  · rw [List.all_append, hv.stoppedVol_clear hst]
    simp [hv.needPartner_clear]

theorem exec_volumeSet {mask home policy : Nat} {attr : BitVec 8} {h' p' : Nat} {a' : BitVec 8} (h : GoReady s g false 6 [objVol vol])
    (hm : mask ≤ 7) (hhome : mask % 2 = 1 → home < 8 ∧ tileUp s home = true) (hattr : mask / 2 % 2 = 1 → attr.toNat ≤ 7)
    (hpol : mask / 4 % 2 = 1 → policy ≤ 3) (hh : h' = if mask % 2 = 1 then home else c.home)
    (ha : a' = if mask / 2 % 2 = 1 then attr else c.attr) (hp' : p' = if mask / 4 % 2 = 1 then policy else c.policy)
    (hseal : a'.getLsbD 0 = true → (h' = c.home ∧ c.attr.getLsbD 0 = true) ∨ sealsOn s h' < 2048) :
    exec (.volumeSet g vol mask home attr policy) s = .next (settled (mbxStore (applyVol (mbxTake s g [objVol vol] none) vol
      (some { c with home := h', attr := a', policy := p' })) g.mb [])) := by
  have hp : (poolCfg (mbxTake s g [objVol vol] none) c.pool).partner = none := by simpa using hv.partner
  have b0 : bit mask 0 = decide (mask % 2 = 1) := by simp [bit]
  have b1 : bit mask 1 = decide (mask / 2 % 2 = 1) := rfl
  have b2 : bit mask 2 = decide (mask / 4 % 2 = 1) := rfl
  have hfull : (sealBit a' && (h' != c.home || !sealBit c.attr) && decide (2048 ≤ sealsOn s h')) = false := by
    cases hs : a'.getLsbD 0
    · simp only [sealBit, hs, Bool.false_and]
    · rcases hseal hs with ⟨hsame, hold⟩ | hlt
      · simp [sealBit, hsame, hold]
      · simp [hlt]
  have hbad : ∀ off, (fieldsBad [(off, sealBit a' && (h' != c.home || !sealBit c.attr) && decide (2048 ≤ sealsOn s h'))]).fails = false :=
    fun off => fieldsBad_clear (by simp only [hfull]; rfl)
  have hup : (fieldsBad [(3, decide (mask % 2 = 1) && !tileUp s home)]).fails = false := by
    refine fieldsBad_clear ?_
    by_cases hb : mask % 2 = 1
    · simp [(hhome hb).2]
    · simp [hb]
  have hhome : (decide (mask % 2 = 1) && badTile home false) = false :=
    Bool.and_eq_false_imp.2 fun hb => by simpa [badTile] using Nat.le_of_lt_succ (hhome (of_decide_eq_true hb)).1
  have hattr : (decide (mask / 2 % 2 = 1) && decide (7 < attr.toNat)) = false :=
    Bool.and_eq_false_imp.2 fun hb => decide_eq_false (Nat.not_lt.2 (hattr (of_decide_eq_true hb)))
  have hpol : (decide (mask / 4 % 2 = 1) && decide (3 < policy)) = false :=
    Bool.and_eq_false_imp.2 fun hb => decide_eq_false (Nat.not_lt.2 (hpol (of_decide_eq_true hb)))
  show execVolumeSet g vol mask home attr policy s = _
  simp only [execVolumeSet, hv.volCfg_eq, b0, b1, b2, decide_eq_true_eq, ← hh, ← ha]
  rw [mbxRun_clear _ _ _ _ h rfl]
  · simp only [volCfg_mbxTake, hv.volCfg_eq, changePool_vol _ _ _ _ hp, ← hp', done_eq]
  · simp [hhome, hattr, hpol, hm]
  · rw [List.all_append, volObj_clear hv.phase hv.present]
    simp [hup, hbad, needStopped, hst, hv.needPartner_clear]

theorem exec_volumeSetExtents {n : Nat} {buf : SegDesc} {l : List Nat} (h : GoReady s g false 24 [objVol vol]) (h1 : 1 ≤ n)
    (h2 : n ≤ 2 ^ 20) (hb : badBuf buf = false) (hx : badExtents s c.pool vol n buf.segLen.toNat l = false) :
    exec (.volumeSetExtents g vol n buf l) s =
      .next (settled (mbxStore (applyVol (mbxTake s g [objVol vol] none) vol (some { c with extents := l })) g.mb [])) := by
  have hp : (poolCfg (mbxTake s g [objVol vol] none) c.pool).partner = none := by simpa using hv.partner
  show execVolumeSetExtents g vol n buf l s = _
  simp only [execVolumeSetExtents, hv.volCfg_eq]
  rw [mbxRun_clear _ _ _ _ h rfl]
  · simp only [volCfg_mbxTake, hv.volCfg_eq, changePool_vol _ _ _ _ hp, done_eq]
  · simpa [extentFields, hb] using ⟨Nat.ne_of_gt h1, h2⟩
  · rw [List.all_append, hv.stoppedVol_clear hst]
    simp [fieldsBad_clear, hx, hv.needPartner_clear]

end Changes

/-! ### Start, stop and status (R480, R482, R579) -/

/-- A volume started, now and in the stored configuration (R482). -/
def startVol (s : State) (vol : Nat) : State :=
  modVol (setVolCfg s vol { volCfg s vol with running := true }) vol (fun v => { v with st := .running })

/-- A volume whose intake has ended (R480). -/
def stoppingVol (s : State) (vol : Nat) : State := modVol s vol (fun v => { v with st := .stopping, draining := true })

theorem startVol_mbx (s : State) (vol : Nat) : (startVol s vol).mbx = s.mbx := rfl

theorem stoppingVol_mbx (s : State) (vol : Nat) : (stoppingVol s vol).mbx = s.mbx := rfl

theorem stopVol_mbx (s : State) (vol : Nat) : (stopVol s vol).mbx = s.mbx := rfl

theorem startVol_started (s : State) (vol : Nat) : (getVol (startVol s vol) vol).st = .running ∧
    volCfg? (startVol s vol) vol = some { volCfg s vol with running := true } :=
  ⟨by simp [startVol], Tab.get?_set_self s.cfg.vols vol _⟩

theorem stopVol_stopped (s : State) (vol : Nat) :
    (getVol (stopVol s vol) vol).st = .stopped ∧ (getVol (stopVol s vol) vol).draining = false ∧
      (volCfg (stopVol s vol) vol).running = false := by
  have hcfg : volCfg (stopVol s vol) vol = { volCfg s vol with running := false } := volCfg_setVolCfg_self s vol _
  rw [hcfg]
  simp [stopVol]

section StartStop

variable {s : State} {g : Go} {vol : Nat}

section Named

variable (hph : s.phase = .ready) (hv : volExists s g.mb vol = true)

include hph hv

theorem exec_volumeStart (h : GoReady s g false 2 [objVol vol]) (hst : (getVol s vol).st = .stopped) (hk : keyless s vol = false)
    (hp : (getPool s (volCfg s vol).pool).st = .running) :
    exec (.volumeStart g vol) s = .next (settled (mbxStore (startVol (mbxTake s g [objVol vol] none) vol) g.mb [])) := by
  show execVolumeStart g vol s = _
  simp only [execVolumeStart, hst]
  rw [mbxRun_clear _ _ _ _ h (by simp [hk]) rfl]
  · rfl
  · rw [List.all_append, volObj_clear hph hv]
    simp [needStopped, needRunning, hp]

variable (h : GoReady s g false 2 [objVol vol, objCancel g.mb])

include h

theorem exec_volumeStop : exec (.volumeStop g vol) s = .next (settled (match (getVol s vol).st with
    | .stopped => mbxOk (mbxTake s g [objVol vol, objCancel g.mb] none) g.mb []
    | .offline => mbxStore (stopVol (mbxTake s g [objVol vol, objCancel g.mb] none) vol) g.mb []
    | _ => mbxPark (stoppingVol (mbxTake s g [objVol vol, objCancel g.mb] none) vol) g.mb (.volumeStop vol) [])) := by
  show execVolumeStop g vol s = _
  unfold execVolumeStop
  rw [mbxRun_clear _ _ _ _ h rfl rfl (volObj_clear hph hv 0)]
  simp only [getVol_mbxTake]
  cases (getVol s vol).st <;> rfl

end Named

/-- A volume with ENCRYPT that holds no key is not started (R482). -/
theorem exec_volumeStart_keyless (h : GoReady s g false 2 [objVol vol]) (hv : volExists s g.mb vol = true) (hk : keyless s vol = true) :
    exec (.volumeStart g vol) s = .next (settled (mbxFinish (mbxTake s g [objVol vol] (some .waiting)) g.mb 0x0101 0 [])) := by
  show execVolumeStart g vol s = _
  simp only [execVolumeStart, hv, hk, Bool.and_self]
  rw [mbxRun_refused _ _ _ h]

/-- The volume that a VOLUME_STOP waits for is offline, or has no work left (R480). -/
theorem exec_volumeStopComplete {mb : Nat} (hs : serving s = true) (hm : (getMbx s mb).running = some (.volumeStop vol))
    (hi : (getVol s vol).st = .offline ∨ (acceptedOf s vol = false ∧ dirtyVol s vol = false ∧ anyIntent s (· == vol) = false ∧
      s.destages.any (fun d => d.vol == vol) = false)) :
    exec (.volumeStopComplete mb) s = .next (settled (mbxPark (stopVol s vol) mb (.volumeStopped vol) [])) := by
  show execVolumeStopComplete mb s = _
  simp only [execVolumeStopComplete, hm, hs]
  obtain hoff | ⟨hacc, hdirty, hint, hdest⟩ := hi
  · rw [if_pos (by simp [hoff]), done_eq]
  · rw [if_pos (by simp only [hacc, hdirty, hint, hdest]; simp), done_eq]

/-- VOLUME_STATUS of a volume that exists. -/
theorem exec_volumeStatus {c : VolCfg} (h : GoReady s g true 2 [objVol vol]) (hph : s.phase = .ready) (hv : volExists s g.mb vol = true)
    (hc : volCfg? s vol = some c) : exec (.volumeStatus g vol) s = .next (settled (mbxOk (mbxTake s g [objVol vol] none) g.mb
      (leBytes 1 (volStateCode (getVol s vol).st) ++ leBytes 1 (getVol s vol).home ++ leBytes 1 c.attr.toNat ++ leBytes 1 c.policy ++
        leBytes 2 c.pool ++ leBytes 2 (if c.key.isSome then 1 else 0) ++ leBytes 4 c.extents.length))) := by
  simp only [volExists, Bool.and_eq_true, decide_eq_true_eq, Bool.not_eq_true'] at hv
  obtain ⟨⟨⟨hlt, -⟩, hfn⟩, hres⟩ := hv
  show execVolumeStatus g vol s = _
  unfold execVolumeStatus
  rw [mbxRun_clear _ _ _ _ h rfl rfl]
  · simp only [volCfg?_mbxTake, hc, getVol_mbxTake, flag, done_eq]
    rfl
  · simp [needVol, needReplay, hlt, hfn, hres, hph]

/-- VOLUME_STATUS of a volume that does not exist: zeros (R579). -/
theorem exec_volumeStatus_none (h : GoReady s g true 2 [objVol vol]) (hph : s.phase = .ready) (hlt : vol < s.part.volumes)
    (hfn : fnMayVol s g.mb vol = true) (hc : volCfg? s vol = none) :
    exec (.volumeStatus g vol) s = .next (settled (mbxOk (mbxTake s g [objVol vol] none) g.mb (leBytes 12 0))) := by
  show execVolumeStatus g vol s = _
  unfold execVolumeStatus
  rw [mbxRun_clear _ _ _ _ h rfl rfl]
  · simp only [volCfg?_mbxTake, hc, done_eq]
  · simp [needVol, needReplay, hlt, hfn, volReserved, hc, hph]

end StartStop

/-- Settles O46: each command by its equation, what it stores read back, its answer by the mailbox's endings. -/
theorem volumeCommandRows : Obligations.VolumeCommandRows := by
  refine ⟨?create, ?createChosen, ?delete, ?start, ?keyless, ?stop, ?stopStopped, ?stopOffline, ?stopped, ?set, ?status, ?statusNone,
    ?extents⟩
  case create =>
    intro s g p c h hph hpool hhome hup ha hseal hpol he1 he2 hb hv hnew hc hres hpart hst hx
    exact volumeCreate_creates h hph hpool (by simp [badTile, Nat.lt_succ_iff.1 hhome]) (.inr hup)
      (if_neg (by omega)) ha hseal hpol he1 he2 hb hv hnew hc hres hpart hst hx
  case createChosen =>
    intro s g p c t h hph hpool hhome ht ha hseal hpol he1 he2 hb hv hnew hc hres hpart hst hx
    exact volumeCreate_creates h hph hpool (by simp [badTile, hhome]) (.inl hhome)
      ((if_pos hhome).trans ht) ha hseal hpol he1 he2 hb hv hnew hc hres hpart hst hx
  case delete =>
    intro s g vol c h hv hst
    obtain ⟨hruns, hcfg⟩ := volChange_stored s g [objVol vol] vol none []
    refine ⟨_, exec_volumeDelete hv hst h, hruns, hcfg, fun e he => ?_⟩
    rw [getPool_mbxStore]
    exact zeroing_applyVol_none (by simpa using hv.get?) he
  case start =>
    intro s g vol c h hph hv hc hst hk hp
    have hcfg := volCfg_of_get? hc
    obtain ⟨hstart, hrun⟩ := startVol_started (mbxTake s g [objVol vol] none) vol
    rw [volCfg_mbxTake, hcfg] at hrun
    refine ⟨_, exec_volumeStart hph hv h hst hk (by rw [hcfg, hp]), mbxPark_runs_of_mbx _ _ (startVol_mbx _ _), ?_⟩
    rw [mbxStore, getVol_settled, volCfg?_settled, getVol_mbxPark, volCfg?_mbxPark]
    exact ⟨hstart, hrun⟩
  case keyless =>
    intro s g vol h hv hk
    exact ⟨_, exec_volumeStart_keyless h hv hk, by simp, by simp, by simp⟩
  case stop =>
    intro s g vol h hph hv hst
    have hex := exec_volumeStop hph hv h
    have hmatch : exec (.volumeStop g vol) s = .next (settled (mbxPark (stoppingVol (mbxTake s g [objVol vol, objCancel g.mb] none) vol) g.mb
        (.volumeStop vol) [])) := by rcases hst with hst | hst <;> simpa only [hst] using hex
    refine ⟨_, hmatch, mbxPark_runs_of_mbx _ _ (stoppingVol_mbx _ _), ?_⟩
    rw [getVol_settled, settled_cfg]
    have hvol : getVol (mbxPark (stoppingVol (mbxTake s g [objVol vol, objCancel g.mb] none) vol) g.mb (.volumeStop vol) []) vol =
      { getVol s vol with st := .stopping, draining := true } := by
      rw [← getVol_mbxTake s g [objVol vol, objCancel g.mb] none]
      exact getVol_setVol_self _ _ _
    rw [hvol]
    exact ⟨rfl, rfl, mbxTake_cfg s g [objVol vol, objCancel g.mb] none⟩
  case stopStopped =>
    intro s g vol h hph hv hst
    have hex := exec_volumeStop hph hv h
    simp only [hst] at hex
    exact ⟨_, hex, mbxOk_mbxTake_answered _ _ _ _, by simp [mbxOk]⟩
  case stopOffline =>
    intro s g vol h hph hv hst
    have hex := exec_volumeStop hph hv h
    simp only [hst] at hex
    obtain ⟨hstop, -, hrun⟩ := stopVol_stopped (mbxTake s g [objVol vol, objCancel g.mb] none) vol
    refine ⟨_, hex, mbxPark_runs_of_mbx _ _ (stopVol_mbx _ _), ?_⟩
    rw [mbxStore, getVol_settled, volCfg_settled, getVol_mbxPark, volCfg_mbxPark]
    exact ⟨hstop, hrun⟩
  case stopped =>
    intro s mb vol hs hm hi
    obtain ⟨hstop, hdrain, hrun⟩ := stopVol_stopped s vol
    refine ⟨_, exec_volumeStopComplete hs hm hi, ?_⟩
    rw [getVol_settled, volCfg_settled, getVol_mbxPark, volCfg_mbxPark, getMbx_settled]
    refine ⟨hstop, hdrain, hrun, ?_⟩
    simp [mbxPark]
  case set =>
    intro s g vol mask home policy h' p' attr a' c h hv hst hm hhome hattr hpol hh ha hp hseal
    exact ⟨_, exec_volumeSet hv hst h hm hhome hattr hpol hh ha hp hseal, volChange_stored _ _ _ _ _ _⟩
  case status =>
    intro s g vol c h hph hv hc
    exact ⟨_, exec_volumeStatus h hph hv hc, by simp [mbxOk], mbxOk_mbxTake_answered _ _ _ _⟩
  case statusNone =>
    intro s g vol h hph hlt hfn hc
    exact ⟨_, exec_volumeStatus_none h hph hlt hfn hc, by simp [mbxOk], mbxOk_mbxTake_answered _ _ _ _⟩
  case extents =>
    intro s g vol n buf l c h hv hst h1 h2 hb hx
    obtain ⟨hruns, hcfg⟩ := volChange_stored s g [objVol vol] vol (some { c with extents := l }) []
    refine ⟨_, exec_volumeSetExtents hv hst h h1 h2 hb hx, hruns, hcfg, fun e he hl => ?_⟩
    rw [getPool_mbxStore]
    exact zeroing_applyVol_extents (by simpa using hv.get?) he hl

end Sys2Proof.Machine
end

section
/-! PROOFS. Doorbells, the storing of changes, and what every GO meets (R470-R474, R478, R485, Table 11-6): what each answer leaves, then
one equation per row. -/

namespace Sys2Proof.Machine

/-! ### What every GO meets (R470, Table 11-6) -/

section Go

variable {s : State} {g : Go} {vf refused : Bool} {len : Nat} {fields : List (Nat × Bool)} {checks : List Check}
  {objs : List (Nat × Nat)} {effect : State → State} (hr : mbxReachable s g.mb = true)

include hr

/-- GO on a mailbox whose command has begun sets OVERRUN (R470). -/
theorem mbxRun_busy (hb : (getMbx s g.mb).busy = true) (hw : (getMbx s g.mb).running ≠ some .waiting) :
    mbxRun s g vf refused len fields checks objs effect =
      .next (settled (setMbx s g.mb { getMbx s g.mb with overrun := true })) := by
  simp [mbxRun, hr, hb, hw, done_eq]

/-- GO on a free mailbox that fails a check of the device, the header or the fields is answered at once (Table 11-6). -/
theorem mbxRun_answer {c : Check} (hb : (getMbx s g.mb).busy = false)
    (hc : firstFailing (gateChecks s g vf (refused && !mbxBlocked s g.mb objs s.nextId) ++ formChecks g len fields) = some c) :
    mbxRun s g vf refused len fields checks objs effect =
      .next (settled (mbxFinish (mbxTake s g objs (some .waiting)) g.mb c.status c.detail [])) := by
  simp [mbxRun, hr, hb, hc, done_eq]

end Go

/-- What the answer to a command just taken leaves in its mailbox. -/
theorem mbxFinish_mbxTake (s : State) (g : Go) (objs : List (Nat × Nat)) (r : Option Running) (st : Status) (d : Nat) (data : List Byte) :
    (getMbx (mbxFinish (mbxTake s g objs r) g.mb st d data) g.mb).busy = false ∧
      (getMbx (mbxFinish (mbxTake s g objs r) g.mb st d data) g.mb).done = true ∧
      (getMbx (mbxFinish (mbxTake s g objs r) g.mb st d data) g.mb).lastStatus = st ∧
      (getMbx (mbxFinish (mbxTake s g objs r) g.mb st d data) g.mb).resp.detail = BitVec.ofNat 32 d ∧
      (getMbx (mbxFinish (mbxTake s g objs r) g.mb st d data) g.mb).resp.data = if st = 0 then data else [] := by
  simp [mbxFinish]

section DevInfo

variable {s : State} {g : Go} (hr : mbxReachable s g.mb = true)

theorem exec_devInfo (h : GoReady s g true 0 []) : exec (.devInfo g) s = .next (settled (mbxOk (mbxTake s g [] none) g.mb
    (leBytes 4 s.sec.version ++ leBytes 4 s.flash.gen ++ leBytes 1 (if s.phase = .ready then 2 else 1) ++
      leBytes 1 (tileBits s (fun x => x.inService))))) := by
  show execDevInfo g s = _
  unfold execDevInfo
  rw [mbxRun_clear _ _ _ _ h rfl rfl rfl]
  simp [done_eq, tileBits]

include hr

theorem exec_devInfo_busy (hb : (getMbx s g.mb).busy = true) (hw : (getMbx s g.mb).running ≠ some .waiting) :
    exec (.devInfo g) s = .next (settled (setMbx s g.mb { getMbx s g.mb with overrun := true })) := by
  show execDevInfo g s = _
  exact mbxRun_busy hr hb hw

/-- While firmware is not up, every command is refused (R471). -/
theorem exec_devInfo_down (hb : (getMbx s g.mb).busy = false) (hf : fwUp s = false) :
    exec (.devInfo g) s = .next (settled (mbxFinish (mbxTake s g [] (some .waiting)) g.mb 0x0103 0 [])) := by
  show execDevInfo g s = _
  refine mbxRun_answer (c := { fails := true, status := 0x0103 }) hr hb ?_
  simp [gateChecks, firstFailing, hf]

/-- A reserved byte of the header that is not zero (R578). -/
theorem exec_devInfo_header {o : Nat} (hb : (getMbx s g.mb).busy = false) (hf : fwUp s = true) (hc : s.hk.closing = false)
    (hh : g.hdrReserved = some o) :
    exec (.devInfo g) s = .next (settled (mbxFinish (mbxTake s g [] (some .waiting)) g.mb 0x0002 (0x80000000 + o) [])) := by
  show execDevInfo g s = _
  refine mbxRun_answer (c := { fails := true, status := 0x0002, detail := 0x80000000 + o }) hr hb ?_
  simp [gateChecks, formChecks, firstFailing, hf, hc, hh]

/-- A PARAM_LEN that is not the command's (R478). -/
theorem exec_devInfo_length (hb : (getMbx s g.mb).busy = false) (hf : fwUp s = true) (hc : s.hk.closing = false)
    (hh : g.hdrReserved = none) (hl : g.paramLen ≠ 0) :
    exec (.devInfo g) s = .next (settled (mbxFinish (mbxTake s g [] (some .waiting)) g.mb 0x0002 0 [])) := by
  show execDevInfo g s = _
  refine mbxRun_answer (c := { fails := true, status := 0x0002 }) hr hb ?_
  simp [gateChecks, formChecks, firstFailing, hf, hc, hh, hl]

/-- A command of the device that a VF's mailbox may not issue. -/
theorem exec_rebuildConfig_vf {floor : Nat} (hb : (getMbx s g.mb).busy = false) (hf : fwUp s = true) (hmb : g.mb ≠ 0) :
    exec (.rebuildConfig g floor) s = .next (settled (mbxFinish (mbxTake s g [] (some .waiting)) g.mb 0x0101 0 [])) := by
  show execRebuildConfig g floor s = _
  refine mbxRun_answer (c := { fails := true, status := 0x0101 }) hr hb ?_
  simp [gateChecks, firstFailing, hf, hmb]

end DevInfo

/-! ### Doorbells (R470, R485) -/

/-- The GO bit of a doorbell write to a busy mailbox (R470). -/
def goSeen (s : State) (mb : Nat) (v : W32) : State :=
  if v.getLsbD 0 then setMbx s mb { getMbx s mb with overrun := true } else s

theorem goSeen_Frame (s : State) (mb : Nat) (v : W32) : Frame [.mbx] s (goSeen s mb v) := .ite (setMbx_Frame ..) (.refl _ _)

/-- A doorbell write changes nothing of the mailbox but OVERRUN. -/
theorem getMbx_goSeen (s : State) (mb : Nat) (v : W32) : ∃ o, getMbx (goSeen s mb v) mb = { getMbx s mb with overrun := o } := by
  unfold goSeen
  split
  · exact ⟨true, getMbx_setMbx_self ..⟩
  · exact ⟨_, rfl⟩

section Doorbell

variable {s : State} {mb : Nat} {v : W32} (hr : mbxReachable s mb = true) (hb : (getMbx s mb).busy = true)

include hr hb

/-- A doorbell write to a busy mailbox: OVERRUN for GO, and CANCEL for a command that was not taken away. -/
theorem doorbellRow_eq : doorbellRow s mb v = .next (settled (if v.getLsbD 1 && !(getMbx s mb).orphan
    then cancelRunning (goSeen s mb v) mb else goSeen s mb v)) := by
  simp only [doorbellRow, doorbell, goSeen, hr, hb, bit_toNat, done_eq, Bool.and_self, if_true, Bool.not_true, Bool.false_eq_true,
    if_false]

theorem exec_overrun (h0 : v.getLsbD 0 = true) (h1 : v.getLsbD 1 = false) :
    exec (.overrun mb v) s = .next (settled (setMbx s mb { getMbx s mb with overrun := true })) := by
  show execOverrun mb v s = _
  rw [execOverrun, bit_toNat, if_pos h0, doorbellRow_eq hr hb, h1, if_neg (by simp), goSeen, if_pos h0]

theorem exec_mailboxCancel (h1 : v.getLsbD 1 = true) (ho : (getMbx s mb).orphan = false) :
    exec (.mailboxCancel mb v) s = .next (settled (cancelRunning (goSeen s mb v) mb)) := by
  show execMailboxCancel mb v s = _
  rw [execMailboxCancel, bit_toNat, if_pos h1, doorbellRow_eq hr hb, h1, ho, if_pos (by rfl)]

/-- A change that only awaits its storing is not cancelled (R485). -/
theorem exec_mailboxCancel_stored {st : Status} (h0 : v.getLsbD 0 = false) (h1 : v.getLsbD 1 = true)
    (hm : (getMbx s mb).running = some (.config st)) : exec (.mailboxCancel mb v) s = .next (settled s) := by
  have hseen : goSeen s mb v = s := by rw [goSeen, if_neg (by simp only [h0]; decide)]
  have hcancel : cancelRunning s mb = s := by simp [cancelRunning, hm]
  show execMailboxCancel mb v s = _
  rw [execMailboxCancel, bit_toNat, if_pos h1, doorbellRow_eq hr hb, hseen, hcancel, ite_self]

end Doorbell

section Cancel

variable {s : State} {mb : Nat}

theorem cancelRunning_volumeStop {vol : Nat} (hm : (getMbx s mb).running = some (.volumeStop vol)) (hv : (getVol s vol).st = .stopping) :
    cancelRunning s mb = mbxFinish (setVol s vol { getVol s vol with st := .running, draining := false }) mb 0x0005 0 [] := by
  simp [cancelRunning, hm, hv]

theorem cancelRunning_power (hm : (getMbx s mb).running = some .power) :
    cancelRunning s mb = mbxFinish { s with hk := { s.hk with psPending := none } } mb 0x0005 0 [] := by
  simp [cancelRunning, hm]

/-- A command that waits behind another, and can be cancelled, ends at once (R485, log entry 140). -/
theorem cancelRunning_waiting (hm : (getMbx s mb).running = some .waiting) (ho : (getMbx s mb).objs.contains (objCancel mb) = true) :
    cancelRunning s mb = mbxFinish s mb 0x0005 0 [] := by
  simp only [cancelRunning, hm, ho, Bool.true_or, if_true]

/-- A command of a mailbox that is no orphan ends. -/
theorem mbxFinish_leaves (st : Status) (d : Nat) (data : List Byte) (h : (getMbx s mb).orphan = false) :
    (getMbx (mbxFinish s mb st d data) mb).busy = false ∧ (getMbx (mbxFinish s mb st d data) mb).done = true ∧
      (getMbx (mbxFinish s mb st d data) mb).lastStatus = st ∧
      (getMbx (mbxFinish s mb st d data) mb).resp.cmdId = (getMbx s mb).cmdId := by
  simp [mbxFinish, h]

end Cancel

/-! ### The storing of a change (R474) -/

theorem storeCfg_flash_gen (s : State) : (storeCfg s).flash.gen = s.flash.gen + 1 := by
  simp only [storeCfg]
  split <;> rfl

/-- One copy of the flash takes the configuration in force (R474). -/
theorem storeCfg_copy (s : State) : (storeCfg s).flash.copyA = .good (s.flash.gen + 1) s.cfg ∨
    (storeCfg s).flash.copyB = .good (s.flash.gen + 1) s.cfg := by
  simp only [storeCfg]
  split
  · exact .inr rfl
  · exact .inl rfl

section Stored

variable {s : State} {mb : Nat} (hf : fwUp s = true)

include hf

theorem exec_configStored {st : Status} (hm : (getMbx s mb).running = some (.config st)) :
    exec (.configStored mb) s = .next (settled (mbxFinish (storeCfg s) mb st 0 (getMbx s mb).data)) := by
  show execConfigStored mb s = _
  simp [execConfigStored, hf, hm, done_eq]

theorem exec_configStored_stopped {vol : Nat} (hm : (getMbx s mb).running = some (.volumeStopped vol)) :
    exec (.configStored mb) s = .next (settled (mbxFinish (storeCfg s) mb 0 0 [])) := by
  show execConfigStored mb s = _
  simp [execConfigStored, hf, hm, done_eq]

/-- POOL_CREATE whose metadata has been written (R486). -/
theorem exec_configStored_pool {pool : Nat} (hm : (getMbx s mb).running = some (.poolCreate pool)) (hw : s.mcmds = []) :
    exec (.configStored mb) s = .next (settled (mbxFinish (storeCfg s) mb 0 0 [])) := by
  show execConfigStored mb s = _
  simp [execConfigStored, hf, hm, hw, done_eq]

end Stored

/-- Settles O42: each row by its equation, the mailbox read back. -/
theorem mailboxRows : Obligations.MailboxRows := by
  refine ⟨?overrun, ?cancelStop, ?cancelPower, ?cancelWaiting, ?cancelStored, ?stored, ?storedStop, ?storedPool, ?busy, ?down, ?vf, ?header,
    ?length, ?info⟩
  case overrun =>
    intro s mb v hr hb h0 h1
    refine ⟨_, exec_overrun hr hb h0 h1, ?_⟩
    rw [getMbx_settled, getMbx_setMbx_self]
  case cancelStop =>
    intro s mb vol v hr hb h1 ho hm hst
    obtain ⟨o, hmb⟩ := getMbx_goSeen s mb v
    have hvol : getVol (goSeen s mb v) vol = getVol s vol := by rw [getVol, (goSeen_Frame s mb v).vols (by decide), getVol]
    have hex := exec_mailboxCancel hr hb h1 ho
    rw [cancelRunning_volumeStop (by rw [hmb, hm]) (by rw [hvol, hst])] at hex
    obtain ⟨hbusy, hdone, hlast, -⟩ := mbxFinish_leaves
      (s := setVol (goSeen s mb v) vol { getVol (goSeen s mb v) vol with st := .running, draining := false }) (mb := mb) 0x0005 0 []
      ((congrArg Mailbox.orphan hmb).trans ho)
    refine ⟨_, hex, ?_⟩
    rw [getVol_settled, getMbx_settled, getVol, mbxFinish_vols, ← getVol, getVol_setVol_self]
    exact ⟨rfl, rfl, hbusy, hdone, hlast⟩
  case cancelPower =>
    intro s mb v hr hb h1 ho hm
    obtain ⟨o, hmb⟩ := getMbx_goSeen s mb v
    have hhk := (goSeen_Frame s mb v).hk (by decide)
    have hex := exec_mailboxCancel hr hb h1 ho
    rw [cancelRunning_power (by rw [hmb, hm]), hhk] at hex
    obtain ⟨hbusy, -, hlast, -⟩ := mbxFinish_leaves (s := { goSeen s mb v with hk := { s.hk with psPending := none } }) (mb := mb) 0x0005 0 []
      ((congrArg Mailbox.orphan hmb).trans ho)
    refine ⟨_, hex, ?_⟩
    rw [settled_hk, getMbx_settled, mbxFinish_hk]
    exact ⟨rfl, rfl, hbusy, hlast⟩
  case cancelWaiting =>
    intro s mb v hr hb h1 ho hm hobj
    obtain ⟨o, hmb⟩ := getMbx_goSeen s mb v
    have hex := exec_mailboxCancel hr hb h1 ho
    rw [cancelRunning_waiting (by rw [hmb, hm]) (by rw [hmb, hobj])] at hex
    obtain ⟨hbusy, -, hlast, -⟩ := mbxFinish_leaves (s := goSeen s mb v) (mb := mb) 0x0005 0 [] (by rw [hmb, ho])
    refine ⟨_, hex, ?_⟩
    rw [settled_cfg, settled_vols, getMbx_settled, mbxFinish_cfg, mbxFinish_vols]
    exact ⟨(goSeen_Frame s mb v).cfg (by decide), (goSeen_Frame s mb v).vols (by decide), hbusy, hlast⟩
  case cancelStored =>
    intro s mb v st hr hb h1 h0 hm
    exact ⟨_, exec_mailboxCancel_stored hr hb h0 h1 hm, settled_mbx s, settled_cfg s⟩
  case stored =>
    intro s mb st hf hm ho
    obtain ⟨hbusy, -, hlast, hid⟩ := mbxFinish_leaves (s := storeCfg s) st 0 (getMbx s mb).data ho
    refine ⟨_, exec_configStored hf hm, ?_⟩
    rw [settled_flash, settled_cfg, getMbx_settled, mbxFinish_flash, mbxFinish_cfg]
    exact ⟨storeCfg_flash_gen s, rfl, storeCfg_copy s, hbusy, hlast, hid⟩
  case storedStop =>
    intro s mb vol hf hm ho
    obtain ⟨hbusy, -, hlast, -⟩ := mbxFinish_leaves (s := storeCfg s) (mb := mb) 0 0 [] ho
    refine ⟨_, exec_configStored_stopped hf hm, ?_⟩
    rw [settled_flash, settled_cfg, getMbx_settled, mbxFinish_flash, mbxFinish_cfg]
    exact ⟨storeCfg_flash_gen s, rfl, hbusy, hlast⟩
  case storedPool =>
    intro s mb pool hf hm ho hw
    obtain ⟨hbusy, -, hlast, -⟩ := mbxFinish_leaves (s := storeCfg s) (mb := mb) 0 0 [] ho
    refine ⟨_, exec_configStored_pool hf hm hw, ?_⟩
    rw [settled_flash, getMbx_settled, mbxFinish_flash]
    exact ⟨storeCfg_flash_gen s, hbusy, hlast⟩
  case busy =>
    intro s g hr hb hw
    refine ⟨_, exec_devInfo_busy hr hb hw, ?_⟩
    rw [getMbx_settled, getMbx_setMbx_self]
  case down =>
    intro s g hr hb hf
    obtain ⟨hbusy, hdone, hlast, -, hdata⟩ := mbxFinish_mbxTake s g [] (some .waiting) 0x0103 0 []
    refine ⟨_, exec_devInfo_down hr hb hf, ?_⟩
    rw [getMbx_settled]
    exact ⟨hbusy, hdone, hlast, hdata⟩
  case vf =>
    intro s g floor hr hb hf hmb
    exact ⟨_, exec_rebuildConfig_vf hr hb hf hmb, by simp, by simp⟩
  case header =>
    intro s g o hr hb hf hc hh _
    obtain ⟨-, -, hlast, hdetail, -⟩ := mbxFinish_mbxTake s g [] (some .waiting) 0x0002 (0x80000000 + o) []
    refine ⟨_, exec_devInfo_header hr hb hf hc hh, ?_⟩
    rw [getMbx_settled]
    exact ⟨hlast, hdetail⟩
  case length =>
    intro s g hr hb hf hc hh hl
    obtain ⟨-, -, hlast, hdetail, -⟩ := mbxFinish_mbxTake s g [] (some .waiting) 0x0002 0 []
    refine ⟨_, exec_devInfo_length hr hb hf hc hh hl, ?_⟩
    rw [getMbx_settled]
    exact ⟨hlast, hdetail⟩
  case info =>
    intro s g h
    exact ⟨_, exec_devInfo h, by simp [mbxOk], mbxOk_mbxTake_answered _ _ _ _⟩

end Sys2Proof.Machine
end

section
/-! PROOFS. What a change of one part of the state leaves unchanged. -/

namespace Sys2Proof.Machine

/-- A frame on top of another. -/
theorem Frame.on {l r : List Piece} {s t u : State} (k : Frame r t u) (h : Frame l s t) (hr : decide (r ⊆ l) = true) :
    Frame l s u :=
  h.trans (k.mono (of_decide_eq_true hr))

/-- The parts a fault may change. -/
def faultPieces : List Piece := [.pins, .moon, .links, .partners, .pcie, .jade, .jet]

/-- The parts a fault may change, and those of `l`. -/
def faultAnd (l : List Piece) : List Piece := faultPieces ++ l

/-- The parts that the reads and writes of rows may change. -/
def rowPieces : List Piece := faultAnd [.nextId, .tiles, .mcmds, .fetches, .destages, .budget, .pools]

/-- The parts that the reads and writes of rows may change, and those of `l`. -/
def rowAnd (l : List Piece) : List Piece := rowPieces ++ l

/-- The parts that a command of a tenant may change on its way through its home tile. -/
def tenantPieces : List Piece := rowAnd [.cmds, .maints, .vols, .live, .mbx, .cache]

/-- The parts that a tenant's command may change, and those of `l`. -/
def tenantAnd (l : List Piece) : List Piece := tenantPieces ++ l

/-- A fold on top of a frame keeps it, where each of its steps does. -/
theorem Frame.fold {α : Type} {l : List Piece} {s t : State} {f : State → α → State} {r : List α} (h : Frame l s t)
    (hf : ∀ u a, Frame l u (f u a)) : Frame l s (r.foldl f t) :=
  h.trans (.foldl f hf r t)

/-- The state of a pair that a function answers. -/
theorem Frame.of_fst {α : Type} {l : List Piece} {s t : State} {p : State × α} {a : α} (h : Frame l s p.1) (e : p = (t, a)) :
    Frame l s t := by
  subst e
  exact h

/-- A step that may answer no state leaves the one it was given. -/
theorem Frame.getD {l : List Piece} {s : State} {o : Option State} (h : ∀ t, o = some t → Frame l s t) : Frame l s (o.getD s) := by
  cases o with
  | none => exact .refl l s
  | some t => exact h t rfl

/-- Whatever next state `r` answers keeps the frame. -/
structure Framed (l : List Piece) (s : State) (r : Result) : Prop where
  next : ∀ t, r = .next t → Frame l s t

namespace Framed

theorem stays {l : List Piece} {s : State} : Framed l s (.next s) := ⟨fun _ h => by cases h; exact .refl l s⟩

theorem done {l : List Piece} {s u : State} (h : Frame l s u) : Framed l s (done u) := ⟨fun _ k => by cases k; exact h.settled⟩

theorem ite {l : List Piece} {s : State} {p : Prop} [Decidable p] {r q : Result} (hr : Framed l s r) (hq : Framed l s q) :
    Framed l s (if p then r else q) := by
  split
  exacts [hr, hq]

theorem mono {l m : List Piece} {s : State} {r : Result} (h : Framed l s r) (k : l ⊆ m) : Framed m s r :=
  ⟨fun t ht => (h.next t ht).mono k⟩

end Framed

/-- `s` with the parts that `l` lists taken from `u`, and with its interrupt records (R403) and F2 timers (R502). -/
def overlay (l : List Piece) (s u : State) : State :=
  { pending := s.pending
    out := s.out
    part := if .part ∈ l then u.part else s.part
    clock := if .clock ∈ l then u.clock else s.clock
    freeIx := if .freeIx ∈ l then u.freeIx else s.freeIx
    nextId := if .nextId ∈ l then u.nextId else s.nextId
    phase := if .phase ∈ l then u.phase else s.phase
    pins := if .pins ∈ l then u.pins else s.pins
    moon := if .moon ∈ l then u.moon else s.moon
    tiles := if .tiles ∈ l then u.tiles else s.tiles
    mesh := if .mesh ∈ l then u.mesh else s.mesh
    cmds := if .cmds ∈ l then u.cmds else s.cmds
    mcmds := if .mcmds ∈ l then u.mcmds else s.mcmds
    fetches := if .fetches ∈ l then u.fetches else s.fetches
    destages := if .destages ∈ l then u.destages else s.destages
    replays := if .replays ∈ l then u.replays else s.replays
    maints := if .maints ∈ l then u.maints else s.maints
    budget := if .budget ∈ l then u.budget else s.budget
    cfg := if .cfg ∈ l then u.cfg else s.cfg
    flash := if .flash ∈ l then u.flash else s.flash
    pools := if .pools ∈ l then u.pools else s.pools
    vols := if .vols ∈ l then u.vols else s.vols
    members := if .members ∈ l then u.members else s.members
    sbt := if .sbt ∈ l then u.sbt else s.sbt
    links := if .links ∈ l then u.links else s.links
    partners := if .partners ∈ l then u.partners else s.partners
    pcie := if .pcie ∈ l then u.pcie else { s.pcie with funcs := u.pcie.funcs }
    sqs := if .sqs ∈ l then u.sqs else s.sqs
    cqs := if .cqs ∈ l then u.cqs else s.cqs
    live := if .live ∈ l then u.live else s.live
    mbx := if .mbx ∈ l then u.mbx else s.mbx
    cache := if .cache ∈ l then u.cache else s.cache
    jade := if .jade ∈ l then u.jade else { s.jade with queue := u.jade.queue }
    jet := if .jet ∈ l then u.jet else s.jet
    jtag := if .jtag ∈ l then u.jtag else s.jtag
    hk := if .hk ∈ l then u.hk else s.hk
    tests := if .tests ∈ l then u.tests else s.tests
    sec := if .sec ∈ l then u.sec else s.sec }

theorem overlay_Frame (l : List Piece) (s u : State) : Frame l s (overlay l s u) := by
  constructor
  case pending => rfl
  case out => exact List.prefix_rfl
  case pcie | jade =>
    intro h
    simp [overlay, h]
  all_goals exact fun h => if_neg h

/-- A state keeps every part that `l` does not list where it is the first one with the parts of `l` replaced. -/
theorem Frame.of_overlay {l : List Piece} {s t : State} (h : overlay l s t = t) : Frame l s t :=
  h ▸ overlay_Frame l s t

theorem updPhase_Frame (s : State) (x) : Frame [.phase] s { s with phase := x } := .of_overlay rfl

theorem updPins_Frame (s : State) (x) : Frame [.pins] s { s with pins := x } := .of_overlay rfl

theorem updMoon_Frame (s : State) (x) : Frame [.moon] s { s with moon := x } := .of_overlay rfl

theorem updTiles_Frame (s : State) (x) : Frame [.tiles] s { s with tiles := x } := .of_overlay rfl

theorem updMesh_Frame (s : State) (x) : Frame [.mesh] s { s with mesh := x } := .of_overlay rfl

theorem updCmds_Frame (s : State) (x) : Frame [.cmds] s { s with cmds := x } := .of_overlay rfl

theorem updMcmds_Frame (s : State) (x) : Frame [.mcmds] s { s with mcmds := x } := .of_overlay rfl

theorem updFetches_Frame (s : State) (x) : Frame [.fetches] s { s with fetches := x } := .of_overlay rfl

theorem updDestages_Frame (s : State) (x) : Frame [.destages] s { s with destages := x } := .of_overlay rfl

theorem updReplays_Frame (s : State) (x) : Frame [.replays] s { s with replays := x } := .of_overlay rfl

theorem updMaints_Frame (s : State) (x) : Frame [.maints] s { s with maints := x } := .of_overlay rfl

theorem updBudget_Frame (s : State) (x) : Frame [.budget] s { s with budget := x } := .of_overlay rfl

theorem updCfg_Frame (s : State) (x) : Frame [.cfg] s { s with cfg := x } := .of_overlay rfl

theorem updFlash_Frame (s : State) (x) : Frame [.flash] s { s with flash := x } := .of_overlay rfl

theorem updPools_Frame (s : State) (x) : Frame [.pools] s { s with pools := x } := .of_overlay rfl

theorem updPartners_Frame (s : State) (x) : Frame [.partners] s { s with partners := x } := .of_overlay rfl

theorem updSqs_Frame (s : State) (x) : Frame [.sqs] s { s with sqs := x } := .of_overlay rfl

theorem updCqs_Frame (s : State) (x) : Frame [.cqs] s { s with cqs := x } := .of_overlay rfl

theorem updLive_Frame (s : State) (x) : Frame [.live] s { s with live := x } := .of_overlay rfl

theorem updCache_Frame (s : State) (x) : Frame [.cache] s { s with cache := x } := .of_overlay rfl

theorem updJet_Frame (s : State) (x) : Frame [.jet] s { s with jet := x } := .of_overlay rfl

theorem updJtag_Frame (s : State) (x) : Frame [.jtag] s { s with jtag := x } := .of_overlay rfl

theorem updHk_Frame (s : State) (x) : Frame [.hk] s { s with hk := x } := .of_overlay rfl

theorem updTests_Frame (s : State) (x) : Frame [.tests] s { s with tests := x } := .of_overlay rfl

theorem updSec_Frame (s : State) (x) : Frame [.sec] s { s with sec := x } := .of_overlay rfl

theorem updClock_Frame (s : State) (x) : Frame [.clock] s { s with clock := x } := .of_overlay rfl

theorem updPcie_Frame (s : State) (x) : Frame [.pcie] s { s with pcie := x } := .of_overlay rfl

theorem updJade_Frame (s : State) (x) : Frame [.jade] s { s with jade := x } := .of_overlay rfl

theorem updCfgVols_Frame (s : State) (x) (y) :
    Frame [.cfg, .vols] s { s with cfg := x, vols := y } := .of_overlay rfl

theorem updMcmdsFetchesCfgPoolsVolsMembers_Frame (s : State) (x) (y) (z) (w) (v) (u) :
    Frame [.mcmds, .fetches, .cfg, .pools, .vols, .members] s
      { s with mcmds := x, fetches := y, cfg := z, pools := w, vols := v, members := u } := .of_overlay rfl

theorem updMcmdsFetchesDestagesReplaysMaints_Frame (s : State) (x) (y) (z) (w) (v) :
    Frame [.mcmds, .fetches, .destages, .replays, .maints] s
        { s with mcmds := x, fetches := y, destages := z, replays := w, maints := v } :=
  .of_overlay rfl

theorem updPhaseTiles_Frame (s : State) (x) (y) :
    Frame [.phase, .tiles] s { s with phase := x, tiles := y } := .of_overlay rfl

theorem updPinsMoonPcie_Frame (s : State) (x) (y) (z) :
    Frame [.pins, .moon, .pcie] s { s with pins := x, moon := y, pcie := z } := .of_overlay rfl

theorem updPinsPcie_Frame (s : State) (x) (y) :
    Frame [.pins, .pcie] s { s with pins := x, pcie := y } := .of_overlay rfl

theorem updPinsJade_Frame (s : State) (x) (y) :
    Frame [.pins, .jade] s { s with pins := x, jade := y } := .of_overlay rfl

theorem updPinsSec_Frame (s : State) (x) (y) :
    Frame [.pins, .sec] s { s with pins := x, sec := y } := .of_overlay rfl

theorem updPoolsTests_Frame (s : State) (x) (y) :
    Frame [.pools, .tests] s { s with pools := x, tests := y } := .of_overlay rfl

theorem updSqsCqs_Frame (s : State) (x) (y) :
    Frame [.sqs, .cqs] s { s with sqs := x, cqs := y } := .of_overlay rfl

end Sys2Proof.Machine
end

section
/-! PROOFS. Frames: the shared operations. -/

namespace Sys2Proof.Machine

theorem modTile_Frame (s : State) (t : Nat) (f : Tile → Tile) : Frame [.tiles] s (modTile s t f) := setTile_Frame ..

theorem modTier_Frame (s : State) (t : Nat) (f : Tier → Tier) : Frame [.tiles] s (modTier s t f) := modTile_Frame ..

theorem modAmber_Frame (s : State) (t : Nat) (f : Amber → Amber) : Frame [.tiles] s (modAmber s t f) := modTile_Frame ..

theorem modPool_Frame (s : State) (p : Nat) (f : Pool → Pool) : Frame [.pools] s (modPool s p f) := setPool_Frame ..

theorem modVol_Frame (s : State) (v : Nat) (f : Vol → Vol) : Frame [.vols] s (modVol s v f) := setVol_Frame ..

theorem modMember_Frame (s : State) (m : Nat) (f : Member → Member) : Frame [.members] s (modMember s m f) := setMember_Frame ..

theorem modLink_Frame (s : State) (p : Nat) (f : Link → Link) : Frame [.links] s (modLink s p f) := setLink_Frame ..

theorem modPartner_Frame (s : State) (l : Nat) (f : Partner → Partner) : Frame [.partners] s (modPartner s l f) :=
  setPartner_Frame ..

theorem modFunc_Frame (s : State) (f : Nat) (g : Func → Func) : Frame [.pcie] s (modFunc s f g) := setFunc_Frame ..

theorem setWindow_Frame (s : State) (w : Nat) (x : Window) : Frame [.pcie] s (setWindow s w x) := updPcie_Frame ..

theorem modWindow_Frame (s : State) (w : Nat) (f : Window → Window) : Frame [.pcie] s (modWindow s w f) := setWindow_Frame ..

theorem modSq_Frame (s : State) (n : Nat) (f : Sq → Sq) : Frame [.sqs] s (modSq s n f) := setSq_Frame ..

theorem modCq_Frame (s : State) (n : Nat) (f : Cq → Cq) : Frame [.cqs] s (modCq s n f) := setCq_Frame ..

theorem modMbx_Frame (s : State) (n : Nat) (f : Mailbox → Mailbox) : Frame [.mbx] s (modMbx s n f) := setMbx_Frame ..

theorem modCmd_Frame (s : State) (id : Nat) (f : Cmd → Cmd) : Frame [.cmds] s (modCmd s id f) := updCmds_Frame ..

theorem modLive_Frame (s : State) (id : Nat) (f : Live → Live) : Frame [.live] s (modLive s id f) := updLive_Frame ..

theorem modMCmd_Frame (s : State) (id : Nat) (f : MCmd → MCmd) : Frame [.mcmds] s (modMCmd s id f) := updMcmds_Frame ..

theorem modFetch_Frame (s : State) (id : Nat) (f : Fetch → Fetch) : Frame [.fetches] s (modFetch s id f) := updFetches_Frame ..

theorem modDestage_Frame (s : State) (id : Nat) (f : Destage → Destage) : Frame [.destages] s (modDestage s id f) :=
  updDestages_Frame ..

end Sys2Proof.Machine
end

section
/-! PROOFS. Frames: the fault queue. -/

namespace Sys2Proof.Machine

theorem jetRec_Frame (s : State) (code : BitVec 16) (src : BitVec 16) (cls : Nat) (corr esc : Bool) (data : List Byte) :
    Frame [.jet] s (jetRec s code src cls corr esc data) := updJet_Frame ..

theorem enterF4_Frame (s : State) (cause : Nat) : Frame faultPieces s (enterF4 s cause) := by
  unfold enterF4
  extract_lets u
  refine .ite (.refl ..) (.after (t := u) ?_ ((jetRec_Frame ..).mono (by decide)))
  exact .of_overlay rfl

theorem modWin_Frame (s : State) (dk di : Nat) (f : CorrWin → CorrWin) : Frame [.jade] s (modWin s dk di f) := updJade_Frame ..

theorem freeEntry_Frame (s : State) (slot : Nat) : Frame [.jade] s (freeEntry s slot) := updJade_Frame ..

end Sys2Proof.Machine
end

section
/-! PROOFS. Frames: interrupts. -/

namespace Sys2Proof.Machine

/-- Messages sent or held change only the functions' interrupt records (R403). -/
theorem messages_Frame (s : State) (fs : Tab Func) (o : List Output) :
    Frame [] s { s with pcie := { s.pcie with funcs := fs }, out := s.out ++ o } := by
  constructor
  case out => exact List.prefix_append _ _
  all_goals
    intros
    rfl

theorem sendMsg_Frame (s : State) (fn v : Nat) : Frame [] s (sendMsg s fn v) := by
  obtain ⟨fs, o, h⟩ := sendMsg_frame s fn v
  exact h ▸ messages_Frame s fs o

theorem resend_Frame (s : State) (fn c : Nat) : Frame [] s (resend s fn c) := by
  obtain ⟨fs, o, h⟩ := resend_frame s fn c
  exact h ▸ messages_Frame s fs o

theorem wakeEvent_Frame (s : State) : Frame [.pins, .pcie] s (wakeEvent s) := by
  unfold wakeEvent
  refine .ite ((updPins_Frame ..).mono (by decide)) ?_
  split
  · exact .refl ..
  · exact .ite ((emit_Frame ..).on ((modFunc_Frame ..).mono (by decide)) rfl) ((modFunc_Frame ..).mono (by decide))

theorem fault0_Frame (s : State) (code : BitVec 16) (cls : Nat) (src : BitVec 16) : Frame faultPieces s (fault0 s code cls src) :=
  fault_Frame ..

end Sys2Proof.Machine
end

section
/-! PROOFS. Frames: the requester. -/

namespace Sys2Proof.Machine

theorem aer_Frame (s : State) (kind : Nat) : Frame [.pcie] s (aer s kind) := modPcie_Frame ..

theorem reqStatus_Frame (s : State) (fn b : Nat) : Frame [.pcie] s (reqStatus s fn b) := modFunc_Frame ..

theorem pumpDma_Frame (s : State) : Frame [.pcie] s (pumpDma s) :=
  .fold (.fold (.refl ..) fun _ _ => tryWrites_Frame ..) fun _ _ => tryRead_Frame ..

theorem voidReqs_Frame (s : State) (p : HostReq → Bool) : Frame [.pcie] s (voidReqs s p) := modPcie_Frame ..

end Sys2Proof.Machine
end

section
/-! PROOFS. Frames: checking operands. -/

namespace Sys2Proof.Machine

theorem mbxOk_Frame (s : State) (mb : Nat) (data : List Byte) : Frame [.mbx] s (mbxOk s mb data) := mbxFinish_Frame ..

theorem mbxStore_Frame (s : State) (mb : Nat) (data : List Byte) : Frame [.mbx] s (mbxStore s mb data) := mbxPark_Frame ..

/-- GO on a mailbox keeps a frame that the command's effect keeps. -/
theorem mbxRun_Framed {l : List Piece} {s : State} {g : Go} {vf refused : Bool} {len : Nat} {fields : List (Nat × Bool)}
    {checks : List Check} {objs : List (Nat × Nat)} {effect : State → State} (hl : [.nextId, .mbx] ⊆ l)
    (he : ∀ u, Frame l u (effect u)) : Framed l s (mbxRun s g vf refused len fields checks objs effect) :=
  ⟨fun _ h => mbxRun_Frame hl he h⟩

end Sys2Proof.Machine
end

section
/-! PROOFS. Frames: the journal. -/

namespace Sys2Proof.Machine

theorem sendRecord_Frame (s : State) (link tile : Nat) (r : Rec) : Frame [.partners] s (sendRecord s link tile r) :=
  .fold (.refl ..) fun _ _ => partnerSend_Frame ..

theorem appendRec_Frame (s : State) (t : Nat) (r : Rec) (wire : Mem) (trim : Bool) :
    Frame [.tiles, .partners] s (appendRec s t r wire trim) := by
  unfold appendRec
  dsimp only
  split
  · exact (modAmber_Frame ..).mono (by decide)
  · exact (sendAwaited_Frame ..).on ((modAmber_Frame ..).mono (by decide)) rfl

theorem openRec_Frame (s : State) (t : Nat) (r : Rec) : Frame [.tiles] s (openRec s t r) := modAmber_Frame ..

theorem fillRec_Frame (s : State) (t seq : Nat) (payload : Mem) : Frame [.tiles] s (fillRec s t seq payload) := modAmber_Frame ..

theorem closeRec_Frame (s : State) (t seq : Nat) (r : Rec) (wire : Mem) :
    Frame [.tiles, .partners] s (closeRec s t seq r wire) := by
  unfold closeRec
  dsimp only
  split
  · exact (modAmber_Frame ..).mono (by decide)
  · exact (sendAwaited_Frame ..).on ((modAmber_Frame ..).mono (by decide)) rfl

theorem newSetReady_Frame (s : State) (t : Nat) : Frame [.pools] s (newSetReady s t) := updPools_Frame ..

theorem drainCtl_Frame (s : State) (t : Nat) : Frame [.tiles, .pools, .partners] s (drainCtl s t) := by
  unfold drainCtl
  refine .ite (.refl ..) ?_
  refine (newSetReady_Frame ..).on ?_ rfl
  exact .fold (.refl ..) fun _ _ => .ite ((pushCtl_Frame ..).on ((modAmber_Frame ..).mono (by decide)) rfl) (.refl ..)

theorem commitRec_Frame (s : State) (t seq : Nat) : Frame [.tiles] s (commitRec s t seq) :=
  (reindex_Frame ..).on (modAmber_Frame ..) rfl

theorem partnerGiven_Frame (s : State) (t seq : Nat) : Frame [.tiles] s (partnerGiven s t seq) := modAmber_Frame ..

theorem retireRec_Frame (s : State) (t seq : Nat) : Frame [.tiles, .pools, .partners] s (retireRec s t seq) := by
  unfold retireRec
  split
  · exact .refl ..
  · refine .ite (.refl ..) ?_
    dsimp only
    split
    · exact (drainCtl_Frame ..).on ((reindex_Frame ..).on ((modAmber_Frame ..).mono (by decide)) rfl) rfl
    · exact (sendAwaited_Frame ..).on ((drainCtl_Frame ..).on ((reindex_Frame ..).on ((modAmber_Frame ..).mono (by decide)) rfl) rfl) rfl

/-- A place in the spill segment taken changes the pool alone. -/
theorem reserveSpill_Frame {s t : State} {pool k n o : Nat} {epoch : BitVec 48} (h : reserveSpill s pool k n epoch = some (o, t)) :
    Frame [.pools] s t := by
  simp only [reserveSpill] at h
  split at h
  · split at h
    · cases h
      exact setPool_Frame ..
    · cases h
  · cases h

theorem freeSpill_Frame (s : State) (pool ref : Nat) : Frame [.pools] s (freeSpill s pool ref) := by
  unfold freeSpill
  dsimp only
  exact modPool_Frame ..

theorem retireIntent_Frame (s : State) (t seq : Nat) : Frame [.tiles, .pools, .partners] s (retireIntent s t seq) := by
  unfold retireIntent
  split
  exacts [.refl .., .ite ((freeSpill_Frame ..).on (retireRec_Frame ..) rfl) (retireRec_Frame ..)]

end Sys2Proof.Machine
end

section
/-! PROOFS. Frames: member commands. -/

namespace Sys2Proof.Machine

theorem issueM_Frame (s : State) (pool member tile : Nat) (op : NvmeOp) (off len : Nat) (data : Mem) (purpose : Purpose) (pipe
    : Pipe) (cls : Nat) :
    Frame [.nextId, .mcmds, .budget] s (issueM s pool member tile op off len data purpose pipe cls) := by
  unfold issueM
  exact issue_Frame ..

theorem reissue_Frame (s : State) (m : MCmd) : Frame [.mcmds, .budget] s (reissue s m) := by
  unfold reissue
  refine .ite ?_ ((holdM_Frame ..).on ((dropMCmd_Frame ..).mono (by decide)) rfl)
  exact (sendM_Frame ..).on ((dropMCmd_Frame ..).mono (by decide)) rfl

theorem relaunch_Frame (s : State) (m : MCmd) : Frame [.mcmds, .budget] s (relaunch s m) :=
  (launch_Frame ..).on ((dropMCmd_Frame ..).mono (by decide)) rfl

theorem relaunchAll_Frame (s : State) : Frame [.mcmds, .budget] s (relaunchAll s) := .fold (.refl ..) fun _ _ => relaunch_Frame ..

theorem relaunchMember_Frame (s : State) (member : Nat) : Frame [.mcmds, .budget] s (relaunchMember s member) :=
  .fold (.refl ..) fun _ _ => relaunch_Frame ..

theorem sendTurn_Frame (s : State) (m : MCmd) : Frame [.mcmds, .budget] s (sendTurn s m) :=
  (sendM_Frame ..).on ((dropMCmd_Frame ..).mono (by decide)) rfl

theorem lstStore_Frame (s : State) (pool first last : Nat) (purpose : Purpose) :
    Frame [.nextId, .mcmds, .budget, .pools] s (lstStore s pool first last purpose) := (metaWrite_Frame ..).mono (by decide)

theorem readStrips_Frame (s : State) (f : Nat) (ps : List Nat) :
    Frame [.nextId, .mcmds, .fetches, .budget] s (readStrips s f ps) := by
  unfold readStrips
  split
  · exact .refl ..
  · refine .fold (.refl ..) fun _ _ => ?_
    refine .ite (.refl ..) ?_
    refine .ite ((modFetch_Frame ..).mono (by decide)) ?_
    split
    exacts [.fold (.refl ..) fun _ _ => (issueM_Frame ..).mono (by decide), .refl ..]

theorem readForRecovery_Frame (s : State) (f : Nat) : Frame [.nextId, .mcmds, .fetches, .budget] s (readForRecovery s f) := by
  unfold readForRecovery
  split
  exacts [.refl .., .ite (.refl ..) (readStrips_Frame ..)]

theorem parallelReads_Frame (s : State) (f : Nat) : Frame [.nextId, .mcmds, .fetches, .budget] s (parallelReads s f) := by
  unfold parallelReads
  split
  exacts [.refl .., .ite (readStrips_Frame ..) (.refl ..)]

theorem lstEnter_Frame (s : State) (pool row : Nat) (strips : List Nat) (cause : Nat) :
    Frame (faultAnd [.nextId, .mcmds, .budget, .pools]) s (lstEnter s pool row strips cause) := by
  unfold lstEnter
  refine .ite (.refl ..) ?_
  refine .ite ((fault0_Frame ..).on ((modPool_Frame ..).mono (by decide)) rfl) ?_
  exact (fault0_Frame ..).on ((lstStore_Frame ..).on ((modPool_Frame ..).mono (by decide)) rfl) rfl

theorem lstRemove_Frame (s : State) (pool row : Nat) (mask : BitVec 128) :
    Frame [.nextId, .mcmds, .budget, .pools] s (lstRemove s pool row mask) := by
  unfold lstRemove
  dsimp only
  split
  exacts [.refl .., (lstStore_Frame ..).on ((modPool_Frame ..).mono (by decide)) rfl]

theorem reportBroken_Frame (s : State) (pool : Nat) : Frame (faultAnd [.pools]) s (reportBroken s pool) :=
  .ite (.refl ..) ((fault0_Frame ..).on ((modPool_Frame ..).mono (by decide)) rfl)

theorem loseUnsynced_Frame (s : State) (pool row : Nat) :
    Frame (faultAnd [.nextId, .mcmds, .budget, .pools]) s (loseUnsynced s pool row) := .ite (lstEnter_Frame ..) (.refl ..)

theorem beginFetch_Frame (s : State) (x : Fetch) : Frame [.nextId, .mcmds, .fetches, .budget] s (beginFetch s x) := by
  unfold beginFetch
  refine (parallelReads_Frame ..).on ((readForRecovery_Frame ..).on ((readStrips_Frame ..).on ((bump_Frame ..).on ?_ rfl) rfl) rfl) rfl
  exact (updFetches_Frame ..).mono (by decide)

theorem startFetch_Frame (s : State) (pool row vol tile : Nat) (cols : BitVec 4) (want : List Nat) (dest : FetchDest) (pipe :
    Pipe) (cls : Nat) :
    Frame (faultAnd [.nextId, .mcmds, .fetches, .budget, .pools]) s (startFetch s pool row vol tile cols want dest pipe cls) := by
  unfold startFetch
  exact (beginFetch_Frame ..).on (.ite ((loseUnsynced_Frame ..).mono (by decide)) (.refl ..)) rfl

theorem endFetch_Frame (s : State) (f : Nat) : Frame [.mcmds, .fetches] s (endFetch s f) := by
  unfold endFetch
  exact .of_overlay rfl

end Sys2Proof.Machine
end

section
/-! PROOFS. Frames: epochs. -/

namespace Sys2Proof.Machine

theorem atInstant_Frame (s : State) (t : Nat) : Frame [.clock] s (atInstant s t) := updClock_Frame ..

theorem forwardFrame_Frame (s : State) (f : MoonFrame) (edits : List (Nat × Nat × Nat)) : Frame [] s (forwardFrame s f edits) :=
  emit_Frame ..

theorem heardFrame_Frame (s : State) : Frame [.moon] s (heardFrame s) := modMoon_Frame ..

theorem acceptEdge_Frame (s : State) (f : MoonFrame) (e : Int) : Frame [.moon, .jet] s (acceptEdge s f e) :=
  .ite ((jetInfo_Frame ..).on ((modMoon_Frame ..).mono (by decide)) rfl) ((modMoon_Frame ..).mono (by decide))

theorem strayFrame_Frame (s : State) (x : Int) : Frame [.moon] s (strayFrame s x) := modMoon_Frame ..

theorem behindFrame_Frame (s : State) : Frame faultPieces s (behindFrame s) :=
  (fault0_Frame ..).on ((modMoon_Frame ..).mono (by decide)) rfl

theorem judgeEdge_Frame (s : State) (f : MoonFrame) : Frame faultPieces s (judgeEdge s f) := by
  unfold judgeEdge
  refine .ite ((strayFrame_Frame ..).mono (by decide)) ?_
  exact .ite (behindFrame_Frame ..) (.ite ((modMoon_Frame ..).mono (by decide)) ((acceptEdge_Frame ..).mono (by decide)))

theorem refuseFrame_Frame (s : State) (f : MoonFrame) : Frame [.moon] s (refuseFrame s f) :=
  .ite (modMoon_Frame ..) ((forwardFrame_Frame ..).on (modMoon_Frame ..) rfl)

/-- A frame of the mesh keeps what its act keeps. -/
theorem onFrame_Framed {l : List Piece} {s : State} {f : MoonFrame} {act : State → State}
    (hl : [.clock, .moon] ⊆ l) (ha : ∀ u, Frame l u (act u)) : Framed l s (onFrame f act s) := by
  have hc : [.clock] ⊆ l := List.Subset.trans (by decide) hl
  have hm : [.moon] ⊆ l := List.Subset.trans (by decide) hl
  have hi := (atInstant_Frame s f.at_).mono hc
  unfold onFrame
  refine .ite (.done hi) (.ite (.done (.trans hi ((emit_Frame ..).mono (List.nil_subset l)))) (.ite .stays (.ite (.done ?_) (.done ?_))))
  · exact hi.trans ((refuseFrame_Frame ..).mono hm)
  · exact (hi.trans ((heardFrame_Frame ..).mono hm)).trans (ha _)

theorem onEdge_Frame (f : MoonFrame) (s : State) : Frame faultPieces s (onEdge f s) := by
  unfold onEdge
  refine .ite ?_ ?_
  · exact .ite ((modMoon_Frame ..).mono (by decide)) ((fault0_Frame ..).on ((modMoon_Frame ..).mono (by decide)) rfl)
  · exact .ite ((judgeEdge_Frame ..).on ((forwardFrame_Frame ..).mono (by decide)) rfl) ((forwardFrame_Frame ..).mono (by decide))

theorem execEdge_Framed (sync : MoonSync) (body : List Byte) (s : State) : Framed (faultAnd [.clock]) s (execEdge sync body s) :=
  .ite .stays (onFrame_Framed (by decide) fun _ => (onEdge_Frame ..).mono (by decide))

theorem execInvalidFrame_Framed (sync : MoonSync) (body : List Byte) (s : State) :
    Framed [.clock, .moon] s (execInvalidFrame sync body s) :=
  .ite .stays (onFrame_Framed (by decide) fun _ => .ite (.refl ..) ((forwardFrame_Frame ..).mono (by decide)))

theorem execMissLimit_Framed (s : State) : Framed faultPieces s (execMissLimit s) := .ite (.done (fault0_Frame ..)) .stays

theorem execUnsynchronised_Framed (s : State) : Framed faultPieces s (execUnsynchronised s) :=
  .ite (.done ((fault0_Frame ..).on ((modMoon_Frame ..).mono (by decide)) rfl)) .stays

theorem execHoldoverSend_Framed (s : State) : Framed [.moon] s (execHoldoverSend s) :=
  .ite (.done ((sendCtl_Frame ..).on (modMoon_Frame ..) rfl)) .stays

theorem execRephase_Framed (s : State) : Framed [.moon, .jet] s (execRephase s) := by
  unfold execRephase
  split
  · refine .ite .stays ?_
    refine .ite (.done ((modMoon_Frame ..).mono (by decide))) ?_
    exact .done ((jetInfo_Frame ..).on ((modMoon_Frame ..).mono (by decide)) rfl)
  · exact .stays

theorem onHoldover_Frame (f : MoonFrame) (s : State) : Frame [.moon, .jet] s (onHoldover f s) := by
  unfold onHoldover
  refine .ite (.refl ..) ?_
  refine .ite ?_ ((forwardFrame_Frame ..).mono (by decide))
  exact (jetInfo_Frame ..).on ((modMoon_Frame ..).on ((forwardFrame_Frame ..).mono (by decide)) rfl) rfl

theorem execHoldover_Framed (sync : MoonSync) (body : List Byte) (s : State) :
    Framed [.clock, .moon, .jet] s (execHoldover sync body s) :=
  .ite .stays (onFrame_Framed (by decide) fun _ => (onHoldover_Frame ..).mono (by decide))

theorem trainReturned_Frame (s : State) (f : MoonFrame) (t0 mb : Nat) : Frame (faultAnd [.mbx]) s (trainReturned s f t0 mb) := by
  unfold trainReturned
  refine .ite ?_ ?_
  · exact (mbxFinish_Frame ..).on ((fault0_Frame ..).on ((modMoon_Frame ..).mono (by decide)) rfl) rfl
  · exact (mbxOk_Frame ..).on ((jetInfo_Frame ..).on ((sendCtl_Frame ..).on ((modMoon_Frame ..).mono (by decide)) rfl) rfl) rfl

theorem trainCounted_Frame (s : State) (f : MoonFrame) : Frame [.moon] s (trainCounted s f) :=
  (forwardFrame_Frame ..).on (modMoon_Frame ..) rfl

theorem onTrainCount_Frame (f : MoonFrame) (s : State) : Frame (faultAnd [.mbx]) s (onTrainCount f s) := by
  unfold onTrainCount
  refine .ite ?_ ((trainCounted_Frame ..).mono (by decide))
  split
  exacts [trainReturned_Frame .., .refl ..]

theorem execTrainCount_Framed (f : MoonFrame) (s : State) : Framed (faultAnd [.clock, .mbx]) s (execTrainCount f s) :=
  .ite .stays (onFrame_Framed (by decide) fun _ => (onTrainCount_Frame ..).mono (by decide))

theorem trainFailed_Frame (s : State) : Frame faultPieces s (trainFailed s) :=
  (fault0_Frame ..).on ((modMoon_Frame ..).mono (by decide)) rfl

theorem onTrainResult_Frame (f : MoonFrame) (s : State) : Frame faultPieces s (onTrainResult f s) := by
  unfold onTrainResult
  refine .ite (.refl ..) ?_
  dsimp only
  split
  · exact (trainFailed_Frame ..).on ((forwardFrame_Frame ..).mono (by decide)) rfl
  · refine .ite ?_ ?_
    · exact (jetInfo_Frame ..).on ((modMoon_Frame ..).on ((forwardFrame_Frame ..).mono (by decide)) rfl) rfl
    · exact (trainFailed_Frame ..).on ((forwardFrame_Frame ..).mono (by decide)) rfl

theorem execTrainResult_Framed (at_ : Nat) (timed : Bool) (body : List Byte) (s : State) :
    Framed (faultAnd [.clock]) s (execTrainResult at_ timed body s) :=
  .ite .stays (onFrame_Framed (by decide) fun _ => (onTrainResult_Frame ..).mono (by decide))

theorem execTrainTimeout_Framed (s : State) : Framed (faultAnd [.mbx]) s (execTrainTimeout s) := by
  unfold execTrainTimeout
  split
  · exact .ite (.done ((mbxFinish_Frame ..).on ((fault0_Frame ..).on ((modMoon_Frame ..).mono (by decide)) rfl) rfl)) .stays
  · exact .stays

theorem joinSeal_Frame (s : State) (a : SealArgs) : Frame [.moon, .vols] s (joinSeal s a) := by
  unfold joinSeal
  dsimp only
  exact (modMoon_Frame ..).on ((mapVols_Frame ..).mono (by decide)) rfl

theorem onAnnounce_Frame (f : MoonFrame) (s : State) : Frame [.moon, .vols] s (onAnnounce f s) :=
  .ite (.ite ((modMoon_Frame ..).mono (by decide)) (.refl ..)) ((forwardFrame_Frame ..).on (joinSeal_Frame ..) rfl)

theorem execAnnounce_Framed (sync : MoonSync) (body : List Byte) (s : State) :
    Framed [.clock, .moon, .vols] s (execAnnounce sync body s) :=
  .ite .stays (onFrame_Framed (by decide) fun _ => (onAnnounce_Frame ..).mono (by decide))

theorem masterEnds_Frame (s : State) (ok : Bool) : Frame (faultAnd [.tiles, .vols]) s (masterEnds s ok) :=
  (endSeal_Frame ..).on ((sendCtl_Frame ..).mono (by decide)) rfl

theorem pollReturned_Frame (s : State) (f : MoonFrame) : Frame (faultAnd [.tiles, .vols]) s (pollReturned s f) := by
  unfold pollReturned
  refine .ite (.refl ..) ?_
  refine .ite ?_ ?_
  · exact (masterEnds_Frame ..).on ((modMoon_Frame ..).mono (by decide)) rfl
  · exact .ite ((masterEnds_Frame ..).on ((modMoon_Frame ..).mono (by decide)) rfl) ((modMoon_Frame ..).mono (by decide))

theorem onPoll_Frame (f : MoonFrame) (s : State) : Frame (faultAnd [.tiles, .vols]) s (onPoll f s) :=
  .ite (pollReturned_Frame ..) ((forwardFrame_Frame ..).on ((modMoon_Frame ..).mono (by decide)) rfl)

theorem execPoll_Framed (sync : MoonSync) (body : List Byte) (s : State) :
    Framed (faultAnd [.clock, .tiles, .vols]) s (execPoll sync body s) :=
  .ite .stays (onFrame_Framed (by decide) fun _ => (onPoll_Frame ..).mono (by decide))

theorem onSealEnd_Frame (f : MoonFrame) (ok : Bool) (s : State) : Frame (faultAnd [.tiles, .vols]) s (onSealEnd f ok s) := by
  unfold onSealEnd
  refine .ite (.refl ..) ?_
  refine .ite ?_ ((forwardFrame_Frame ..).mono (by decide))
  exact (endSeal_Frame ..).on ((modMoon_Frame ..).on ((forwardFrame_Frame ..).mono (by decide)) rfl) rfl

theorem execDone_Framed (sync : MoonSync) (body : List Byte) (s : State) :
    Framed (faultAnd [.clock, .tiles, .vols]) s (execDone sync body s) :=
  .ite .stays (onFrame_Framed (by decide) fun _ => (onSealEnd_Frame ..).mono (by decide))

theorem execFailed_Framed (sync : MoonSync) (body : List Byte) (s : State) :
    Framed (faultAnd [.clock, .tiles, .vols]) s (execFailed sync body s) :=
  .ite .stays (onFrame_Framed (by decide) fun _ => (onSealEnd_Frame ..).mono (by decide))

theorem execSealMapsStored_Framed (s : State) : Framed [.moon] s (execSealMapsStored s) := .ite (.done (modMoon_Frame ..)) .stays

theorem execSealTimeout_Framed (s : State) : Framed (faultAnd [.tiles, .vols]) s (execSealTimeout s) :=
  .ite (.done (masterEnds_Frame ..)) .stays

theorem execSealLocalEnd_Framed (s : State) : Framed (faultAnd [.tiles, .vols]) s (execSealLocalEnd s) :=
  .ite .stays (.ite (.done ((endSeal_Frame ..).mono (by decide))) (.done ((modMoon_Frame ..).mono (by decide))))

theorem execEpochNowRead_Framed (wide upper : Bool) (s : State) : Framed [.moon] s (execEpochNowRead wide upper s) := by
  unfold execEpochNowRead
  refine .ite .stays ?_
  refine .ite (.done ((emit_Frame ..).mono (by decide))) ?_
  exact .ite (.done ((emit_Frame ..).on (modMoon_Frame ..) rfl)) (.done ((emit_Frame ..).on (modMoon_Frame ..) rfl))

theorem execEpochConfig_Framed (g : Go) (p : EpochParams) (s : State) :
    Framed [.nextId, .moon, .cfg, .mbx] s (execEpochConfig g p s) := by
  unfold execEpochConfig
  refine mbxRun_Framed (by decide) fun _ => ?_
  refine (mbxStore_Frame ..).on ((modMoon_Frame ..).on ?_ rfl) rfl
  exact (updCfg_Frame ..).on (.ite ((sendCtl_Frame ..).mono (by decide)) (.refl ..)) rfl

theorem execEpochTrain_Framed (g : Go) (s : State) : Framed [.nextId, .moon, .mbx] s (execEpochTrain g s) :=
  mbxRun_Framed (by decide) fun _ => (mbxPark_Frame ..).on ((sendCtl_Frame ..).on ((modMoon_Frame ..).mono (by decide)) rfl) rfl

theorem execEpochSeal_Framed (g : Go) (action : Nat) (es : BitVec 64) (s : State) :
    Framed [.nextId, .moon, .vols, .mbx] s (execEpochSeal g action es s) :=
  mbxRun_Framed (by decide) fun _ => (mbxOk_Frame ..).on ((sendCtl_Frame ..).on ((joinSeal_Frame ..).mono (by decide)) rfl) rfl

theorem execSealFailRequest_Framed (g : Go) (action : Nat) (es : BitVec 64) (s : State) :
    Framed (faultAnd [.nextId, .tiles, .vols, .mbx]) s (execSealFailRequest g action es s) :=
  mbxRun_Framed (by decide) fun _ => (mbxOk_Frame ..).on ((masterEnds_Frame ..).mono (by decide)) rfl

theorem execEpochSealStatus_Framed (g : Go) (s : State) : Framed [.nextId, .mbx] s (execEpochSealStatus g s) :=
  mbxRun_Framed (by decide) fun _ => (mbxOk_Frame ..).mono (by decide)

theorem execEpochCmapRead_Framed (g : Go) (vol : Nat) (buf : SegDesc) (s : State) :
    Framed [.nextId, .pcie, .mbx] s (execEpochCmapRead g vol buf s) :=
  mbxRun_Framed (by decide) fun _ => (mbxOk_Frame ..).on ((writeBufMem_Frame ..).mono (by decide)) rfl

theorem execEpochStats_Framed (g : Go) (s : State) : Framed [.nextId, .mbx] s (execEpochStats g s) :=
  mbxRun_Framed (by decide) fun _ => (mbxOk_Frame ..).mono (by decide)

theorem missAtEdge_Frame (s : State) : Frame [.moon, .jet] s (missAtEdge s) := by
  unfold missAtEdge
  refine (modMoon_Frame ..).on ?_ rfl
  refine .ite ?_ (.refl ..)
  exact .ite ((jetInfo_Frame ..).on ((modMoon_Frame ..).mono (by decide)) rfl) ((modMoon_Frame ..).mono (by decide))

theorem advanceEpoch_Frame (s : State) : Frame [.clock, .moon] s (advanceEpoch s) := by
  unfold advanceEpoch
  dsimp only
  exact (modMoon_Frame ..).on ((atInstant_Frame ..).mono (by decide)) rfl

theorem storeMap_Frame (s : State) (v : Nat) (m : FrozenMap) (members : List Nat) :
    Frame [.nextId, .mcmds, .budget, .pools] s (storeMap s v m members) := (metaWrite_Frame ..).mono (by decide)

theorem freezeAtEdge_Frame (s : State) :
    Frame [.nextId, .moon, .tiles, .mcmds, .budget, .pools, .vols, .partners] s (freezeAtEdge s) := by
  unfold freezeAtEdge
  refine .ite ?_ (.refl ..)
  refine (sealRecord_Frame ..).on ((modMoon_Frame ..).on ?_ rfl) rfl
  refine .fold (.fold (.refl ..) fun _ _ => (modVol_Frame ..).mono (by decide)) fun _ _ => ?_
  split
  exacts [(storeMap_Frame ..).mono (by decide), .refl ..]

theorem sendEdge_Frame (s : State) : Frame [.moon] s (sendEdge s) := (emit_Frame ..).on (modMoon_Frame ..) rfl

theorem masterAtEdge_Frame (s : State) : Frame [.moon] s (masterAtEdge s) :=
  .ite (.ite ((sendCtl_Frame ..).on ((modMoon_Frame ..).on (sendEdge_Frame ..) rfl) rfl) (sendEdge_Frame ..)) (.refl ..)

theorem moonEdge_Frame (s : State) :
    Frame [.nextId, .clock, .moon, .tiles, .mcmds, .budget, .pools, .vols, .partners, .jet] s (moonEdge s) := by
  unfold moonEdge
  refine (masterAtEdge_Frame ..).on ((freezeAtEdge_Frame ..).on ((storeEpoch_Frame ..).on ((advanceEpoch_Frame ..).on ?_ rfl) rfl) rfl)
      rfl
  exact (missAtEdge_Frame ..).mono (by decide)

end Sys2Proof.Machine
end

section
/-! PROOFS. Frames: the cache tier. -/

namespace Sys2Proof.Machine

theorem execEvmodeSwitch_Framed (tile : Nat) (s : State) : Framed [.tiles] s (execEvmodeSwitch tile s) :=
  .ite (.done (modTier_Frame ..)) .stays

theorem loadLfsr_Frame (s : State) : Frame [.tiles] s (loadLfsr s) := modTiles_Frame ..

theorem setEvmode_Frame (s : State) (v : Bool) : Frame [.tiles, .cache] s (setEvmode s v) :=
  .ite (.refl ..) ((modTiles_Frame ..).on ((updCache_Frame ..).mono (by decide)) rfl)

theorem writeCacheCtl_Frame (s : State) (v : W32) : Frame [.tiles, .cache, .jet] s (writeCacheCtl s v) := by
  unfold writeCacheCtl
  refine .ite ((updCache_Frame ..).mono (by decide)) ?_
  refine .ite ?_ ?_
  · exact (setEvmode_Frame ..).on ((updCache_Frame ..).on (.ite (.refl ..) ((jetInfo_Frame ..).mono (by decide))) rfl) rfl
  · refine (loadLfsr_Frame ..).on ((setEvmode_Frame ..).on ?_ rfl) rfl
    exact (updCache_Frame ..).on (.ite (.refl ..) ((jetInfo_Frame ..).mono (by decide))) rfl

theorem cacheCtlRow_Framed (s : State) (v : W32) : Framed [.tiles, .cache, .jet] s (cacheCtlRow s v) :=
  .ite (.done (writeCacheCtl_Frame ..)) .stays

theorem execEnDirectClear_Framed (v : W32) (s : State) : Framed [.tiles, .cache, .jet] s (execEnDirectClear v s) :=
  .ite .stays (cacheCtlRow_Framed ..)

theorem execEnSet_Framed (v : W32) (s : State) : Framed [.tiles, .cache, .jet] s (execEnSet v s) :=
  .ite (cacheCtlRow_Framed ..) .stays

theorem execLfsrSeedLoad_Framed (v : W32) (s : State) : Framed [.tiles, .cache, .jet] s (execLfsrSeedLoad v s) :=
  .ite .stays (cacheCtlRow_Framed ..)

theorem execEvmodeChange_Framed (v : W32) (s : State) : Framed [.tiles, .cache, .jet] s (execEvmodeChange v s) :=
  .ite .stays (cacheCtlRow_Framed ..)

end Sys2Proof.Machine
end

section
/-! PROOFS. Frames: the home tile. -/

namespace Sys2Proof.Machine

theorem unlockCmd_Frame (s : State) (c : Cmd) : Frame [.tiles] s (unlockCmd s c) := modTile_Frame ..

theorem finishCmd_Frame (s : State) (id : Nat) (st : Status) : Frame [.cmds] s (finishCmd s id st) := modCmd_Frame ..

theorem noteStale_Frame (s : State) (c : Cmd) : Frame [.cache, .jet] s (noteStale s c) :=
  .ite (.refl ..) ((updCache_Frame ..).on (.ite (.refl ..) ((jetInfo_Frame ..).mono (by decide))) rfl)

theorem acceptCmd_Frame (s : State) (c : Cmd) : Frame [.tiles, .cmds, .cache, .jet] s (acceptCmd s c) := by
  unfold acceptCmd
  refine .ite ((modCmd_Frame ..).mono (by decide)) ?_
  exact (modCmd_Frame ..).on ((modTile_Frame ..).on ((noteStale_Frame ..).mono (by decide)) rfl) rfl

theorem flushProgress_Frame (s : State) : Frame [.cmds] s (flushProgress s) := updCmds_Frame ..

theorem removeCmd_Frame (s : State) (c : Cmd) : Frame [.tiles, .cmds] s (removeCmd s c) :=
  (flushProgress_Frame ..).on ((updCmds_Frame ..).on ((unlockCmd_Frame ..).on ((dropCmd_Frame ..).mono (by decide)) rfl) rfl) rfl

theorem settleCmd_Frame (s : State) (id : Nat) : Frame [.tiles, .cmds, .vols] s (settleCmd s id) := by
  unfold settleCmd
  split
  · exact .refl ..
  · refine .ite (.refl ..) ?_
    refine .ite ?_ ?_
    · exact (modCmd_Frame ..).on (.ite ((stampWrite_Frame ..).mono (by decide)) (.refl ..)) rfl
    · refine .ite ?_ ?_
      · exact (removeCmd_Frame ..).on (.ite ((stampWrite_Frame ..).mono (by decide)) (.refl ..)) rfl
      · refine .ite ((finishCmd_Frame ..).mono (by decide)) ?_
        exact .ite ((modCmd_Frame ..).mono (by decide)) ((modCmd_Frame ..).on ((stampWrite_Frame ..).mono (by decide)) rfl)

theorem lstCommit_Frame (s : State) (pool : Nat) : Frame [.tiles, .cmds, .pools, .vols] s (lstCommit s pool) := by
  unfold lstCommit
  refine .ite (.refl ..) ?_
  exact .fold ((modPool_Frame ..).mono (by decide)) fun _ _ => .ite ((settleCmd_Frame ..).mono (by decide)) (.refl ..)

theorem beginPart_Frame (s : State) (c : Cmd) (i : Nat) (p : RowPart) :
    Frame (faultAnd [.nextId, .tiles, .cmds, .mcmds, .fetches, .budget, .pools]) s (beginPart s c i p) := by
  unfold beginPart
  refine .ite ((modPart_Frame ..).mono (by decide)) ((modPart_Frame ..).on ?_ rfl)
  have hl : Frame (faultAnd [.nextId, .tiles, .cmds, .mcmds, .fetches, .budget, .pools]) s
      (if (reconStrips s (volCfg s c.vol).pool p).isEmpty then s
      else loseUnsynced s (volCfg s c.vol).pool p.row) := .ite (.refl ..) ((loseUnsynced_Frame ..).mono (by decide))
  have ha (u : State) (t : Nat) (r : Rec) (tr : Bool) (h : Frame (faultAnd [.nextId, .tiles, .cmds, .mcmds, .fetches, .budget, .pools])
      s u) : Frame (faultAnd [.nextId, .tiles, .cmds, .mcmds, .fetches, .budget, .pools]) s (appendRec u t r [] tr) :=
    (appendRec_Frame ..).on h rfl
  refine .ite (ha _ _ _ _ ?_) ((startFetch_Frame ..).on (ha _ _ _ _ ?_) rfl)
  all_goals
    split
    · exact (reserveSpill_Frame (by assumption)).on hl rfl
    · exact hl

theorem tierWrite_Frame (s : State) (c : Cmd) (p : RowPart) (data : Mem) : Frame [.tiles] s (tierWrite s c p data).2 := by
  have ht (f : Tier → Tier) (b : Bool) : Frame [.tiles] s (b, modTier s c.home f).2 := modTier_Frame s c.home f
  unfold tierWrite
  dsimp only
  split
  · exact ht ..
  · split
    · split
      exacts [.refl .., ht ..]
    · split
      exacts [.refl .., ht ..]

theorem zeroWins_Frame (s : State) (c : Cmd) (p : RowPart) : Frame [.tiles, .mcmds, .fetches] s (zeroWins s c p) := by
  unfold zeroWins
  split
  · exact .ite ((modTier_Frame ..).on (.fold (.refl ..) fun _ _ => (endFetch_Frame ..).mono (by decide)) rfl) (.refl ..)
  · exact .refl ..

theorem spillWrites_Frame (s : State) (t ref : Nat) (r : Rec) (purpose : Purpose) :
    Frame [.nextId, .mcmds, .budget] s (spillWrites s t ref r purpose) := .fold (.refl ..) fun _ _ => issueM_Frame ..

theorem brokenPart_Frame (s : State) (c : Cmd) (i : Nat) (p : RowPart) :
    Frame (faultAnd [.tiles, .cmds, .pools]) s (brokenPart s c i p) := by
  unfold brokenPart
  refine (modPart_Frame ..).on ?_ rfl
  split
  · exact (retireIntent_Frame ..).on ((reportBroken_Frame ..).mono (by decide)) rfl
  · exact (reportBroken_Frame ..).mono (by decide)

theorem clearLost_Frame (s : State) (pool row : Nat) (mask : BitVec 128) :
    Frame [.nextId, .mcmds, .budget, .pools] s (clearLost s pool row mask) :=
  .ite (.refl ..) ((modPool_Frame ..).on (lstRemove_Frame ..) rfl)

theorem waFree_Frame (s : State) (t vol row : Nat) : Frame [.tiles] s (waFree s t vol row) := .ite (.refl ..) (modTier_Frame ..)

theorem ackPart_Frame (s : State) (c : Cmd) (i : Nat) : Frame [.tiles, .cmds, .vols] s (ackPart s c i) := by
  unfold ackPart
  split
  · exact .refl ..
  · refine .ite (.refl ..) ?_
    refine .ite (.refl ..) ?_
    refine (settleCmd_Frame ..).on ?_ rfl
    exact .ite ((waFree_Frame ..).on ((modPart_Frame ..).mono (by decide)) rfl) ((modPart_Frame ..).mono (by decide))

theorem streamPart_Frame (s : State) (c : Cmd) (i : Nat) (p : RowPart) : Frame [.tiles, .cmds] s (streamPart s c i p) := by
  unfold streamPart
  refine .ite (.refl ..) ?_
  dsimp only
  split
  · exact (fillRec_Frame ..).mono (by decide)
  · exact .ite (.refl ..) ((modPart_Frame ..).on ((openRec_Frame ..).mono (by decide)) rfl)

theorem takePart_Frame (s : State) (c : Cmd) (i : Nat) (p : RowPart) :
    Frame (faultAnd [.nextId, .tiles, .cmds, .mcmds, .fetches, .budget, .pools, .vols]) s (takePart s c i p) := by
  unfold takePart
  refine .ite (.refl ..) (.ite ((settleCmd_Frame ..).on ((brokenPart_Frame ..).mono (by decide)) rfl) ?_)
  refine .ite ((modPart_Frame ..).mono (by decide)) ?_
  dsimp only
  refine .ite ((modPart_Frame ..).on ((tierWrite_Frame ..).mono (by decide)) rfl)
      ((ackPart_Frame ..).on ((modPart_Frame ..).on ?_ rfl) rfl)
  have hc : Frame (faultAnd [.nextId, .tiles, .cmds, .mcmds, .fetches, .budget, .pools, .vols]) s _ :=
    (clearLost_Frame (zeroWins (tierWrite s c (ucPart s c p) (partRow c i (ucPart s c p))).2 c (ucPart s c p))
      (volCfg s c.vol).pool (ucPart s c p).row (partMask (ucPart s c p))).on
          ((zeroWins_Frame ..).on ((tierWrite_Frame s c (ucPart s c p) (partRow c i (ucPart s c p))).mono (by decide)) rfl) rfl
  refine .ite ((spillWrites_Frame ..).on ?_ rfl) ?_
  all_goals exact .ite hc (.ite ((closeRec_Frame ..).on hc rfl) ((appendRec_Frame ..).on hc rfl))

theorem advancePart_Frame (s : State) (c : Cmd) (i : Nat) :
    Frame (faultAnd [.nextId, .tiles, .cmds, .mcmds, .fetches, .budget, .pools, .vols]) s (advancePart s c i) := by
  unfold advancePart
  split
  · exact .refl ..
  · dsimp only
    split
    · exact .ite ((beginPart_Frame ..).mono (by decide)) (.refl ..)
    · split
      · exact .ite ((beginPart_Frame ..).mono (by decide)) (.refl ..)
      · split
        · exact (takePart_Frame ..).on ((streamPart_Frame ..).on (.ite ((beginPart_Frame ..).mono (by decide)) (.refl ..)) rfl) rfl
        · exact (streamPart_Frame ..).on (.ite ((beginPart_Frame ..).mono (by decide)) (.refl ..)) rfl

theorem restoreBlock_Frame (s : State) (t vol row b : Nat) (img : Mem) :
    Frame (faultAnd [.tiles]) s (restoreBlock s t vol row b img) := (fault0_Frame ..).on ((modTier_Frame ..).mono (by decide)) rfl

theorem markUnrec_Frame (s : State) (t vol row b : Nat) : Frame (faultAnd [.tiles]) s (markUnrec s t vol row b) :=
  (fault_Frame ..).on ((modTier_Frame ..).mono (by decide)) rfl

theorem readUe_Frame (s : State) (t ring b which : Nat) (i : Rec) :
    Frame [.nextId, .mcmds, .budget] s (readUe s t ring b which i) := issueM_Frame ..

theorem uncorrectable_Frame (s : State) (t vol row b : Nat) :
    Frame (faultAnd [.nextId, .tiles, .mcmds, .budget, .cache]) s (uncorrectable s t vol row b) := by
  unfold uncorrectable
  refine .ite ?_ ?_
  · exact (modTier_Frame ..).on ((modTier_Frame ..).on ((updCache_Frame ..).mono (by decide)) rfl) rfl
  · dsimp only
    split
    · exact (restoreBlock_Frame ..).on ((modTier_Frame ..).on ((updCache_Frame ..).mono (by decide)) rfl) rfl
    · refine .ite ?_ ?_
      · exact (modTier_Frame ..).on ((updCache_Frame ..).mono (by decide)) rfl
      · exact (readUe_Frame ..).on ((modTier_Frame ..).on ((modTier_Frame ..).on ((updCache_Frame ..).mono (by decide)) rfl) rfl) rfl
    · exact (markUnrec_Frame ..).on ((modTier_Frame ..).on ((updCache_Frame ..).mono (by decide)) rfl) rfl

theorem countCe_Frame (s : State) (t line : Nat) : Frame [.tiles] s (countCe s t line) := modTier_Frame ..

theorem checkLine_Frame (s : State) (t line : Nat) : Frame [.freeIx, .tiles] s (checkLine s t line) :=
  .ite ((countCe_Frame ..).on ((drawn_Frame ..).mono (by decide)) rfl) ((drawn_Frame ..).mono (by decide))

theorem dropSlot_Frame (s : State) (t slot : Nat) : Frame (faultAnd [.freeIx, .tiles]) s (dropSlot s t slot) := by
  unfold dropSlot
  refine .ite (.refl ..) ?_
  refine .ite ?_ ((fault0_Frame ..).on ((modTier_Frame ..).mono (by decide)) rfl)
  exact (fault_Frame ..).on ((drawn_Frame ..).on ((fault0_Frame ..).on ((modTier_Frame ..).mono (by decide)) rfl) rfl) rfl

theorem checkSlot_Frame (s : State) (t slot : Nat) (c : CRow) :
    Frame (faultAnd [.freeIx, .nextId, .tiles, .mcmds, .budget, .cache]) s (checkSlot s t slot c) := by
  unfold checkSlot
  split
  · exact (drawn_Frame ..).mono (by decide)
  · refine .ite ?_ ((drawn_Frame ..).mono (by decide))
    exact (dropSlot_Frame ..).on ((uncorrectable_Frame ..).on ((drawn_Frame ..).mono (by decide)) rfl) rfl

theorem copyRead_Frame (s : State) (c : Cmd) (i : Nat) (p : RowPart) (mask : BitVec 128) (row : Mem) :
    Frame [.cmds] s (copyRead s c i p mask row) := modCmd_Frame ..

theorem fetchPart_Frame (s : State) (c : Cmd) (i : Nat) (p : RowPart) (mask : BitVec 128) :
    Frame (faultAnd [.nextId, .cmds, .mcmds, .fetches, .budget, .pools]) s (fetchPart s c i p mask) :=
  (modPart_Frame ..).on ((startFetch_Frame ..).mono (by decide)) rfl

theorem endPart_Frame (s : State) (c : Cmd) (i : Nat) (st : Status) : Frame [.cmds] s (endPart s c i st) := modPart_Frame ..

theorem fillLine_Frame (s : State) (t line pool row vol : Nat) (cols : BitVec 4) (strips : List Nat) :
    Frame (faultAnd [.nextId, .tiles, .mcmds, .fetches, .budget, .pools]) s (fillLine s t line pool row vol cols strips) := by
  unfold fillLine
  dsimp only
  exact (modTier_Frame ..).on ((startFetch_Frame ..).mono (by decide)) rfl

theorem serveFrom_Frame (s : State) (c : Cmd) (i : Nat) (p : RowPart) (need : BitVec 128) (r : CRow) :
    Frame (faultAnd [.nextId, .cmds, .mcmds, .fetches, .budget, .pools]) s (serveFrom s c i p need r) := by
  unfold serveFrom
  refine .ite ?_ ?_
  · exact (endPart_Frame ..).on ((copyRead_Frame ..).mono (by decide)) rfl
  · exact (modPart_Frame ..).on ((fetchPart_Frame ..).on ((copyRead_Frame ..).mono (by decide)) rfl) rfl

theorem waitRead_Frame (s : State) (c : Cmd) (i : Nat) : Frame [.cmds] s (waitRead s c i) := modPart_Frame ..

theorem lookupRead_Frame (s : State) (c : Cmd) (i : Nat) (p : RowPart) (need : BitVec 128) :
    Frame (faultAnd [.freeIx, .nextId, .tiles, .cmds, .mcmds, .fetches, .budget, .pools, .cache]) s (lookupRead s c i p need) := by
  unfold lookupRead
  dsimp only
  split
  · refine .ite ?_ ?_
    · refine (serveFrom_Frame ..).on ((checkLine_Frame ..).on ?_ rfl) rfl
      exact (modTier_Frame ..).on (.ite (.refl ..) ((modTier_Frame ..).mono (by decide))) rfl
    · split
      · exact (waitRead_Frame ..).on (.ite (.refl ..) ((modTier_Frame ..).mono (by decide))) rfl
      · exact (serveFrom_Frame ..).on (.ite (.refl ..) ((modTier_Frame ..).mono (by decide))) rfl
      · refine .ite ?_ ?_
        · exact (serveFrom_Frame ..).on (.ite (.refl ..) ((modTier_Frame ..).mono (by decide))) rfl
        · exact (waitRead_Frame ..).on ((fillLine_Frame ..).on (.ite (.refl ..) ((modTier_Frame ..).mono (by decide))) rfl) rfl
  · split
    · exact (serveFrom_Frame ..).on (.ite (.refl ..) ((modTier_Frame ..).mono (by decide))) rfl
    · refine .ite ?_ ?_
      · refine .ite ?_ ?_
        · exact (fetchPart_Frame ..).on ((modTier_Frame ..).on (.ite (.refl ..) ((modTier_Frame ..).mono (by decide))) rfl) rfl
        · split
          · refine (waitRead_Frame ..).on ((fillLine_Frame ..).on ((modTier_Frame ..).on ?_ rfl) rfl) rfl
            exact (modTier_Frame ..).on (.ite (.refl ..) ((modTier_Frame ..).mono (by decide))) rfl
          · refine (waitRead_Frame ..).on ((modTier_Frame ..).on ?_ rfl) rfl
            exact (modTier_Frame ..).on (.ite (.refl ..) ((modTier_Frame ..).mono (by decide))) rfl
      · refine .ite ?_ ?_
        · exact (serveFrom_Frame ..).on ((modTier_Frame ..).on (.ite (.refl ..) ((modTier_Frame ..).mono (by decide))) rfl) rfl
        · split
          · split
            · refine .ite ?_ ?_
              · refine (serveFrom_Frame ..).on ((checkLine_Frame ..).on ((modTier_Frame ..).on ((modTier_Frame ..).on ?_ rfl) rfl) rfl)
                  rfl
                exact (modTier_Frame ..).on (.ite (.refl ..) ((modTier_Frame ..).mono (by decide))) rfl
              · split
                · refine (waitRead_Frame ..).on ((modTier_Frame ..).on ?_ rfl) rfl
                  exact (modTier_Frame ..).on (.ite (.refl ..) ((modTier_Frame ..).mono (by decide))) rfl
                · refine (serveFrom_Frame ..).on ((modTier_Frame ..).on ?_ rfl) rfl
                  exact (modTier_Frame ..).on (.ite (.refl ..) ((modTier_Frame ..).mono (by decide))) rfl
                · refine .ite ?_ ?_
                  · refine (serveFrom_Frame ..).on ((modTier_Frame ..).on ?_ rfl) rfl
                    exact (modTier_Frame ..).on (.ite (.refl ..) ((modTier_Frame ..).mono (by decide))) rfl
                  · refine (waitRead_Frame ..).on ((fillLine_Frame ..).on ((modTier_Frame ..).on ?_ rfl) rfl) rfl
                    exact (modTier_Frame ..).on (.ite (.refl ..) ((modTier_Frame ..).mono (by decide))) rfl
            · refine (waitRead_Frame ..).on ((modTier_Frame ..).on ?_ rfl) rfl
              exact (modTier_Frame ..).on (.ite (.refl ..) ((modTier_Frame ..).mono (by decide))) rfl
          · refine (waitRead_Frame ..).on ((modTier_Frame ..).on ?_ rfl) rfl
            exact (modTier_Frame ..).on (.ite (.refl ..) ((modTier_Frame ..).mono (by decide))) rfl
    · refine .ite ?_ ?_
      · refine (waitRead_Frame ..).on ((checkSlot_Frame ..).on ?_ rfl) rfl
        exact (modTier_Frame ..).on (.ite (.refl ..) ((modTier_Frame ..).mono (by decide))) rfl
      · refine (serveFrom_Frame ..).on ((checkSlot_Frame ..).on ?_ rfl) rfl
        exact (modTier_Frame ..).on (.ite (.refl ..) ((modTier_Frame ..).mono (by decide))) rfl
    · refine .ite ?_ ?_
      · exact (fetchPart_Frame ..).on (.ite (.refl ..) ((modTier_Frame ..).mono (by decide))) rfl
      · split
        · refine (waitRead_Frame ..).on ((fillLine_Frame ..).on ?_ rfl) rfl
          exact (modTier_Frame ..).on (.ite (.refl ..) ((modTier_Frame ..).mono (by decide))) rfl
        · exact (waitRead_Frame ..).on ((modTier_Frame ..).on (.ite (.refl ..) ((modTier_Frame ..).mono (by decide))) rfl) rfl

theorem serveRead_Frame (s : State) (c : Cmd) (i : Nat) (p : RowPart) :
    Frame (faultAnd [.freeIx, .nextId, .tiles, .cmds, .mcmds, .fetches, .budget, .pools, .vols, .cache]) s (serveRead s c i p) := by
  unfold serveRead
  refine .ite ?_ ?_
  · exact (settleCmd_Frame ..).on ((endPart_Frame ..).mono (by decide)) rfl
  · refine .ite ?_ ?_
    · exact (settleCmd_Frame ..).on ((endPart_Frame ..).on ((reportBroken_Frame ..).mono (by decide)) rfl) rfl
    · refine (settleCmd_Frame ..).on ?_ rfl
      refine .ite ?_ ?_
      · exact (endPart_Frame ..).on (.ite (.refl ..) ((copyRead_Frame ..).mono (by decide))) rfl
      · refine .ite ?_ ?_
        · exact (waitRead_Frame ..).on (.ite (.refl ..) ((copyRead_Frame ..).mono (by decide))) rfl
        · refine .ite ?_ ?_
          · exact (fetchPart_Frame ..).on (.ite (.refl ..) ((copyRead_Frame ..).mono (by decide))) rfl
          · exact (lookupRead_Frame ..).on (.ite (.refl ..) ((copyRead_Frame ..).mono (by decide))) rfl

theorem resumeReads_Frame (s : State) (tile vol row : Nat) :
    Frame (faultAnd [.freeIx, .nextId, .tiles, .cmds, .mcmds, .fetches, .budget, .pools, .vols, .cache]) s (resumeReads s tile vol row)
        := by
  unfold resumeReads
  refine .fold (.refl ..) fun _ _ => ?_
  refine .ite ?_ (.refl ..)
  refine .fold (.refl ..) fun _ _ => ?_
  split
  · exact .refl ..
  · split
    exacts [.ite (serveRead_Frame ..) (.refl ..), .refl ..]

theorem gotUe_Frame (s : State) (ring seq vol row b which : Nat) (data : Option Mem) :
    Frame (faultAnd [.freeIx, .nextId, .tiles, .cmds, .mcmds, .fetches, .budget, .pools, .vols, .cache]) s
        (gotUe s ring seq vol row b which data) := by
  unfold gotUe
  refine .ite (.refl ..) ?_
  dsimp only
  split
  · exact (resumeReads_Frame ..).on ((modTier_Frame ..).on ((modTier_Frame ..).mono (by decide)) rfl) rfl
  · split
    · exact (resumeReads_Frame ..).on ((modTier_Frame ..).on ((restoreBlock_Frame ..).mono (by decide)) rfl) rfl
    · refine .ite ((readUe_Frame ..).mono (by decide)) ?_
      exact (resumeReads_Frame ..).on ((modTier_Frame ..).on ((markUnrec_Frame ..).mono (by decide)) rfl) rfl

theorem prefetchA_Frame (s : State) (t vol q : Nat) :
    Frame (faultAnd [.nextId, .tiles, .mcmds, .fetches, .budget, .pools]) s (prefetchA s t vol q) := by
  unfold prefetchA
  refine .ite (.refl ..) ?_
  split
  exacts [.refl .., (modTier_Frame ..).on ((startFetch_Frame ..).mono (by decide)) rfl]

theorem prefetchB_Frame (s : State) (t vol q : Nat) :
    Frame (faultAnd [.nextId, .tiles, .mcmds, .fetches, .budget, .pools]) s (prefetchB s t vol q) := by
  unfold prefetchB
  refine .ite (.refl ..) ?_
  split
  · exact (modTier_Frame ..).mono (by decide)
  · exact (fillLine_Frame ..).on ((modTier_Frame ..).mono (by decide)) rfl

theorem prefetch_Frame (s : State) (c : Cmd) (missed : List Nat) :
    Frame (faultAnd [.nextId, .tiles, .mcmds, .fetches, .budget, .pools]) s (prefetch s c missed) := by
  unfold prefetch
  refine .fold ?_ fun _ _ => .ite (prefetchB_Frame ..) (.refl ..)
  have hs (x : List (Nat × Nat × Nat)) : Frame (faultAnd [.nextId, .tiles, .mcmds, .fetches, .budget, .pools]) s
      (if c.op = .read then modTier s c.home (fun t => { t with streams := x }) else s) :=
    .ite ((modTier_Frame ..).mono (by decide)) (.refl ..)
  exact .ite (.fold (hs _) fun _ _ => .fold (.refl ..) fun _ _ => prefetchA_Frame ..) (hs _)

theorem forwardCmd_Frame (s : State) (c : Cmd) : Frame [.nextId, .cmds] s (forwardCmd s c) :=
  .ite ((modCmd_Frame ..).mono (by decide)) ((sendForward_Frame ..).on ((modCmd_Frame ..).mono (by decide)) rfl)

theorem execHomeTileAcceptance_Framed (id : Nat) (s : State) :
    Framed [.tiles, .cmds, .cache, .jet] s (execHomeTileAcceptance id s) := by
  unfold execHomeTileAcceptance
  split
  exacts [.stays, .ite (.done ((flushProgress_Frame ..).on (acceptCmd_Frame ..) rfl)) .stays]

theorem enterLock_Frame (s : State) (c : Cmd) : Frame [.tiles, .cmds] s (enterLock s c) :=
  (modCmd_Frame ..).on ((modTile_Frame ..).mono (by decide)) rfl

/-- What is done with each row of a command keeps a frame that every one keeps. -/
theorem eachPart_Frame {l : List Piece} {s : State} {id n : Nat} {f : State → Cmd → Nat → RowPart → State}
    (hf : ∀ u c i p, Frame l u (f u c i p)) : Frame l s (eachPart s id n f) := by
  unfold eachPart
  refine .fold (.refl ..) fun u i => ?_
  split
  · exact .refl ..
  · split
    exacts [hf .., .refl ..]

theorem beginWrite_Frame (s : State) (c : Cmd) (i : Nat) (p : RowPart) :
    Frame (faultAnd [.nextId, .tiles, .cmds, .mcmds, .fetches, .budget, .pools, .vols]) s (beginWrite s c i p) :=
  .ite ((settleCmd_Frame ..).on ((brokenPart_Frame ..).mono (by decide)) rfl) (advancePart_Frame ..)

theorem execRangeLockGrant_Framed (id : Nat) (s : State) :
    Framed (faultAnd [.freeIx, .nextId, .tiles, .cmds, .mcmds, .fetches, .budget, .pools, .vols, .cache]) s (execRangeLockGrant id s) :=
        by
  unfold execRangeLockGrant
  split
  · exact .stays
  · refine .ite .stays ?_
    refine .ite ?_ ?_
    · refine .done ?_
      refine (prefetch_Frame ..).on ?_ rfl
      exact .trans ((enterLock_Frame ..).mono (by decide)) (eachPart_Frame fun _ _ _ _ => serveRead_Frame ..)
    · refine .done ?_
      refine .trans ((enterLock_Frame ..).mono (by decide)) (eachPart_Frame fun _ _ _ _ => ?_)
      exact (beginWrite_Frame ..).mono (by decide)

theorem ackRecord_Frame (s : State) (tile seq : Nat) : Frame [.tiles, .cmds, .vols] s (ackRecord s tile seq) := by
  unfold ackRecord
  refine .fold (.refl ..) fun _ _ => ?_
  refine .ite ?_ (.refl ..)
  refine .fold (.refl ..) fun _ _ => ?_
  split
  exacts [.ite (ackPart_Frame ..) (.refl ..), .refl ..]

theorem execJournalSpaceWaitEnd_Framed (id part : Nat) (s : State) :
    Framed (faultAnd [.nextId, .tiles, .cmds, .mcmds, .fetches, .budget, .pools, .vols]) s (execJournalSpaceWaitEnd id part s) := by
  unfold execJournalSpaceWaitEnd
  split
  · exact .stays
  · split
    exacts [.stays, .ite (.done (advancePart_Frame ..)) .stays]

theorem execLineAllocation_Framed (id part : Nat) (s : State) :
    Framed (faultAnd [.freeIx, .nextId, .tiles, .cmds, .mcmds, .fetches, .budget, .pools, .vols, .cache]) s
        (execLineAllocation id part s) := by
  unfold execLineAllocation
  split
  · exact .stays
  · split
    · exact .stays
    · exact .ite .stays (.ite (.done (serveRead_Frame ..)) (.ite (.done ((takePart_Frame ..).mono (by decide))) .stays))

theorem execAckHoldRelease_Framed (id : Nat) (s : State) : Framed [.tiles, .cmds, .vols] s (execAckHoldRelease id s) := by
  unfold execAckHoldRelease
  split
  · exact .stays
  · exact .ite (.done ((modCmd_Frame ..).on ((stampWrite_Frame ..).mono (by decide)) rfl)) .stays

theorem sendWaiting_Frame (s : State) (src dst : Nat) : Frame [.nextId, .cmds] s (sendWaiting s src dst) :=
  .fold (.refl ..) fun _ _ => sendForward_Frame ..

theorem execRouteSwitch_Framed (src dst : Nat) (s : State) : Framed [.nextId, .mesh, .cmds] s (execRouteSwitch src dst s) :=
  .ite (.done ((sendWaiting_Frame ..).on ((updMesh_Frame ..).mono (by decide)) rfl)) .stays

theorem execMeshHeartbeat_Framed (tile : Nat) (s : State) : Framed [.tiles] s (execMeshHeartbeat tile s) :=
  .ite .stays (.ite .stays (.done ((emits_Frame ..).on (modTile_Frame ..) rfl)))

end Sys2Proof.Machine
end

section
/-! PROOFS. Frames: destage. -/

namespace Sys2Proof.Machine

theorem destageWrite_Frame (s : State) (d : Destage) (pos : Nat) (op : NvmeOp) (b n : Nat) (data : Mem) :
    Frame [.nextId, .mcmds, .destages, .budget] s (destageWrite s d pos op b n data) :=
  .fold (.refl ..) fun _ _ => (modDestage_Frame ..).on ((issueM_Frame ..).mono (by decide)) rfl

theorem stripWrites_Frame (s : State) (d : Destage) (zero : BitVec 128) (j : Nat) :
    Frame [.nextId, .mcmds, .destages, .budget] s (stripWrites s d zero j) :=
  .ite (destageWrite_Frame ..) (.fold (.fold (.refl ..) fun _ _ => destageWrite_Frame ..) fun _ _ => destageWrite_Frame ..)

theorem parityWrites_Frame (s : State) (d : Destage) (cols : BitVec 4) :
    Frame [.nextId, .mcmds, .destages, .budget] s (parityWrites s d cols) := by
  unfold parityWrites
  refine .fold (.refl ..) fun _ _ => ?_
  dsimp only
  exact .fold (.refl ..) fun _ _ => destageWrite_Frame ..

theorem issueDestage_Frame (s : State) (did : Nat) (got : List (Nat × Mem)) :
    Frame [.nextId, .tiles, .mcmds, .destages, .budget] s (issueDestage s did got) := by
  unfold issueDestage
  split
  · exact .refl ..
  · dsimp only
    refine (parityWrites_Frame ..).on ?_ rfl
    refine .fold ?_ fun _ _ => (stripWrites_Frame ..).mono (by decide)
    refine .ite ?_ ?_
    · refine .fold ((modTier_Frame ..).on ((modDestage_Frame ..).mono (by decide)) rfl) fun _ _ => ?_
      exact (destageWrite_Frame ..).mono (by decide)
    · exact .fold ((modDestage_Frame ..).mono (by decide)) fun _ _ => (destageWrite_Frame ..).mono (by decide)

theorem launchDestage_Frame (s : State) (d : Destage) (want : List Nat) (bad : List (Nat × BitVec 4)) :
    Frame rowPieces s (launchDestage s d want bad) := by
  unfold launchDestage
  refine .ite ?_ ?_
  · exact (issueDestage_Frame ..).on ((bump_Frame ..).on ((updDestages_Frame ..).mono (by decide)) rfl) rfl
  · refine (beginFetch_Frame ..).on ?_ rfl
    refine (modDestage_Frame ..).on ?_ rfl
    refine .ite ?_ ?_
    · exact (loseUnsynced_Frame ..).on ((bump_Frame ..).on ((updDestages_Frame ..).mono (by decide)) rfl) rfl
    · exact (bump_Frame ..).on ((updDestages_Frame ..).mono (by decide)) rfl

/-- A destage that starts marks its rows and reads the strips it wants. -/
theorem startDestage_Frame {s u : State} {t vol row : Nat} (h : startDestage s t vol row = some u) : Frame rowPieces s u := by
  have hl (f : Tier → Tier) (d : Destage) (want : List Nat) : Frame rowPieces s (launchDestage (modTier s t f) d want) :=
    (launchDestage_Frame ..).on ((modTier_Frame ..).mono (by decide)) rfl
  unfold startDestage at h
  dsimp only at h
  split at h
  · cases h
  · split at h
    · cases h
    · split at h
      · cases h
      · split at h
        all_goals
          cases h
          exact hl ..

theorem startResync_Frame (s : State) (d : Destage) : Frame rowPieces s (startResync s d) := launchDestage_Frame ..

theorem startSalvage_Frame (s : State) (pool row : Nat) (bad : List (Nat × BitVec 4)) (own : Bool) (pipe : Pipe) (cls : Nat) :
    Frame rowPieces s (startSalvage s pool row bad own pipe cls) :=
  .ite ((modPool_Frame ..).mono (by decide)) (launchDestage_Frame ..)

theorem startSalvages_Frame (s : State) (pool : Nat) : Frame rowPieces s (startSalvages s pool) :=
  .fold (.refl ..) fun _ _ => .ite (.refl ..) ((startSalvage_Frame ..).on ((modPool_Frame ..).mono (by decide)) rfl)

theorem cancelDestage_Frame (s : State) (did : Nat) :
    Frame [.tiles, .mcmds, .fetches, .destages, .pools] s (cancelDestage s did) := by
  unfold cancelDestage
  split
  · exact .refl ..
  · refine (modTier_Frame ..).on ((updDestages_Frame ..).on ?_ rfl) rfl
    refine .ite ?_ ?_
    · refine (modPool_Frame ..).on ?_ rfl
      split
      exacts [(endFetch_Frame ..).mono (by decide), .refl ..]
    · split
      exacts [(endFetch_Frame ..).mono (by decide), .refl ..]

theorem ackMembers_Frame (s : State) (d : Destage) (retires : List Nat) :
    Frame [.tiles, .cmds, .vols] s (ackMembers s d retires) := by
  unfold ackMembers
  refine .fold (.refl ..) fun _ _ => ?_
  refine .ite ?_ (.refl ..)
  refine .fold (.refl ..) fun _ _ => ?_
  split
  exacts [.refl .., .ite ((ackPart_Frame ..).on ((modPart_Frame ..).mono (by decide)) rfl) (.refl ..)]

theorem retireAll_Frame (s : State) (d : Destage) : Frame [.tiles, .pools, .partners] s (retireAll s d).1 :=
  Frame.foldl_fst _ (fun _ _ => retireIntent_Frame ..) _ (s, [])

theorem endDestage_Frame (s : State) (d : Destage) : Frame (rowAnd [.cmds, .vols]) s (endDestage s d) := by
  unfold endDestage
  dsimp only
  refine (startSalvages_Frame ..).on ((flushProgress_Frame ..).on ((ackMembers_Frame ..).on ((modTile_Frame ..).on ?_ rfl) rfl) rfl) rfl
  exact (modPool_Frame ..).on ((modPool_Frame ..).on ((modTier_Frame ..).on
      ((retireAll_Frame ..).on ((updDestages_Frame ..).mono (by decide)) rfl) rfl) rfl) rfl

theorem execDestageStart_Framed (vol row : Nat) (s : State) : Framed rowPieces s (execDestageStart vol row s) := by
  unfold execDestageStart
  refine .ite .stays ?_
  split
  next h => exact .done (startDestage_Frame h)
  next => exact .stays

theorem renameSeq_Frame (s : State) (t old new : Nat) : Frame [.tiles, .cmds, .destages, .maints] s (renameSeq s t old new) := by
  unfold renameSeq
  exact .of_overlay rfl

theorem copyRec_Frame (s : State) (t : Nat) (x : RingRec) (ref : Nat) : Frame [.tiles, .partners] s (copyRec s t x ref) := by
  unfold copyRec
  dsimp only
  split
  · exact (modAmber_Frame ..).mono (by decide)
  · exact (sendAwaited_Frame ..).on ((modAmber_Frame ..).mono (by decide)) rfl

theorem execRelocation_Framed (tile : Nat) (s : State) :
    Framed [.tiles, .cmds, .destages, .maints, .pools, .partners] s (execRelocation tile s) := by
  unfold execRelocation
  dsimp only
  split
  · refine .ite .stays (.done ((modAmber_Frame ..).on ?_ rfl))
    split
    · exact (renameSeq_Frame ..).on ((renameSeq_Frame ..).on
        ((retireRec_Frame ..).on ((copyRec_Frame ..).on ((copyRec_Frame ..).on ((modAmber_Frame ..).mono (by decide)) rfl) rfl) rfl)
        rfl) rfl
    · exact (renameSeq_Frame ..).on ((retireRec_Frame ..).on ((copyRec_Frame ..).on ((modAmber_Frame ..).mono (by decide)) rfl) rfl) rfl
  · exact .stays

theorem execMramCommitFailure_Framed (tile : Nat) (s : State) :
    Framed (faultAnd [.tiles, .cmds, .vols]) s (execMramCommitFailure tile s) := by
  unfold execMramCommitFailure
  refine .ite .stays ?_
  refine .done ?_
  refine (fault0_Frame ..).on ?_ rfl
  refine .fold ((updCmds_Frame ..).on ((modAmber_Frame ..).mono (by decide)) rfl) fun _ _ => ?_
  exact .ite ((settleCmd_Frame ..).mono (by decide)) (.refl ..)

end Sys2Proof.Machine
end

section
/-! PROOFS. Frames: maintenance of the tier. -/

namespace Sys2Proof.Machine

theorem reportMaint_Frame (s : State) (m : Maint) : Frame [.live, .mbx, .cache] s (reportMaint s m) := by
  unfold reportMaint
  dsimp only
  split
  · exact (modLive_Frame ..).mono (by decide)
  · exact (mbxFinish_Frame ..).on (.ite ((updCache_Frame ..).mono (by decide)) (.refl ..)) rfl

theorem endMaint_Frame (s : State) (m : Maint) : Frame [.maints, .live, .mbx, .cache] s (endMaint s m) :=
  (reportMaint_Frame ..).on ((updMaints_Frame ..).mono (by decide)) rfl

theorem killRow_Frame (s : State) (mid t vol row : Nat) : Frame [.tiles, .maints] s (killRow s mid t vol row) := by
  unfold killRow
  dsimp only
  refine (modTier_Frame ..).on ?_ rfl
  refine .ite ?_ (.refl ..)
  exact (modMaint_Frame ..).mono (by decide)

theorem maintWait_Frame {s u : State} {mid t vol row : Nat} (h : maintWait s mid t vol row = some u) : Frame [.tiles, .maints] s u := by
  unfold maintWait at h
  dsimp only at h
  have hk : Frame [.tiles, .maints] s (killRow s mid t vol row) := killRow_Frame ..
  split at h
  · split at h
    · cases h
      exact hk
    · split at h
      all_goals cases h
      exact .refl ..
  · split at h
    · cases h
      exact .refl ..
    · split at h
      · split at h
        all_goals cases h
        exact hk
      · split at h
        all_goals cases h
        exact .refl ..
      · cases h

theorem maintDestage_Frame (s : State) (mid t vol row : Nat) : Frame (rowAnd [.maints]) s (maintDestage s mid t vol row) := by
  unfold maintDestage
  split
  next h => exact (modMaint_Frame ..).on ((startDestage_Frame h).mono (by decide)) rfl
  next => exact .refl ..

theorem modDiscard_Frame (s : State) (mid row : Nat) (f : Discard → Discard) : Frame [.maints] s (modDiscard s mid row f) :=
  modMaint_Frame ..

theorem fetchDiscard_Frame (s : State) (mid t : Nat) (d : Discard) :
    Frame (faultAnd [.nextId, .mcmds, .fetches, .budget, .pools]) s (fetchDiscard s mid t d) := startFetch_Frame ..

theorem feedDiscard_Frame (s : State) (mid row : Nat) (recon : Mem) :
    Frame [.nextId, .tiles, .mcmds, .maints, .budget, .partners] s (feedDiscard s mid row recon) := by
  unfold feedDiscard
  split
  · exact .refl ..
  · dsimp only
    split
    · exact (modDiscard_Frame ..).on ((spillWrites_Frame ..).mono (by decide)) rfl
    · exact (modDiscard_Frame ..).on ((closeRec_Frame ..).mono (by decide)) rfl
    · exact .refl ..

theorem discardRow_Frame {s u : State} {m : Maint} {t vol row : Nat} {dirty : BitVec 128} (h : discardRow s m t vol row dirty = some u) :
    Frame (rowAnd [.maints, .vols]) s u := by
  unfold discardRow at h
  extract_lets a have_ left pool need n bytes lost fast res spilt k slots r d marked cleared q at h
  have hlost : Frame (rowAnd [.maints, .vols]) s lost := .ite (.refl ..) ((loseUnsynced_Frame ..).mono (by decide))
  have hspilt : Frame (rowAnd [.maints, .vols]) s spilt := by
    have hr : ∀ e, res = some e → Frame (rowAnd [.maints, .vols]) lost e.2 := fun e he => by
      simp only [res] at he
      split at he
      · cases he
      · exact (reserveSpill_Frame he).mono (by decide)
    dsimp only [spilt]
    cases hres : res with
    | none => exact hlost
    | some e => exact hlost.trans (hr e hres)
  have hcleared : Frame (rowAnd [.maints, .vols]) s cleared :=
    (modTier_Frame ..).on ((markRow_Frame ..).on ((appendRec_Frame ..).on hspilt rfl) rfl) rfl
  split at h
  · cases h
  · split at h
    · cases h
      exact .refl ..
    · split at h
      · cases h
      · split at h
        · exact Option.some.inj h ▸ hcleared
        · rw [← Option.some.inj h]
          exact (fetchDiscard_Frame ..).on ((modMaint_Frame ..).on (.ite hcleared ((openRec_Frame ..).on hcleared rfl)) rfl) rfl

theorem invalRow_Frame (s : State) (m : Maint) (vol q : Nat) : Frame (rowAnd [.maints, .vols]) s (invalRow s m vol q).1 := by
  have hm (u : State) (f : Maint → Maint) (h : Frame (rowAnd [.maints, .vols]) s u) (b : Bool) :
      Frame (rowAnd [.maints, .vols]) s (modMaint u m.id f, b).1 := (modMaint_Frame ..).on h rfl
  unfold invalRow
  extract_lets t row tier u dirty
  split
  · exact .refl ..
  · split
    · exact hm _ _ (.refl ..) _
    · split
      next h => exact (maintWait_Frame h).mono (by decide)
      next =>
        have hu : Frame (rowAnd [.maints, .vols]) s u := (modTier_Frame ..).mono (by decide)
        split
        · exact hm _ _ ((modTier_Frame ..).on hu rfl) _
        · split
          · split
            · exact hm _ _ hu _
            · split
              next => exact hu
              next h =>
                have hd := hu.trans (discardRow_Frame h)
                split
                · exact hd
                · exact hd.trans (.getD fun _ h => (startDestage_Frame h).mono (by decide))
          · exact hu.trans ((maintDestage_Frame ..).mono (by decide))

theorem cleanRow_Frame (s : State) (m : Maint) (vol q : Nat) : Frame (rowAnd [.maints]) s (cleanRow s m vol q).1 := by
  unfold cleanRow
  dsimp only
  split
  · exact .refl ..
  · split
    next h => exact (maintWait_Frame h).mono (by decide)
    next =>
      split
      exacts [Frame.mono (modMaint_Frame ..) (by decide), maintDestage_Frame ..]

theorem lockLine_Frame (s : State) (t i : Nat) : Frame [.tiles] s (lockLine s t i) := modTier_Frame ..

theorem lockRow_Frame (s : State) (m : Maint) (vol q : Nat) :
    Frame (faultAnd [.nextId, .tiles, .mcmds, .fetches, .maints, .budget, .pools]) s (lockRow s m vol q).1 := by
  have hm (u : State) (f : Tier → Tier) (b : Bool) :
      Frame (faultAnd [.nextId, .tiles, .mcmds, .fetches, .maints, .budget, .pools]) u (modTier u (homeTile s vol) f, b).1 :=
    (modTier_Frame ..).mono (by decide)
  unfold lockRow
  dsimp only
  split
  · exact .refl ..
  · split
    · exact (modMaint_Frame ..).mono (by decide)
    · split
      next x h => exact (maintWait_Frame h).mono (by decide)
      next => exact (lockLine_Frame ..).mono (by decide)
      next =>
        split
        · split
          · exact (lockLine_Frame ..).on ((modTier_Frame ..).mono (by decide)) rfl
          · exact hm ..
        · split
          · exact (lockLine_Frame ..).on ((fillLine_Frame ..).on ((modTier_Frame ..).mono (by decide)) rfl) rfl
          · exact hm ..

theorem unlockRow_Frame (s : State) (m : Maint) (vol q : Nat) : Frame [.tiles, .maints] s (unlockRow s m vol q).1 := by
  have hm (f : Tier → Tier) (b : Bool) : Frame [.tiles, .maints] s (modTier s (homeTile s vol) f, b).1 := (modTier_Frame ..).mono
      (by decide)
  unfold unlockRow
  dsimp only
  split
  next x h => exact maintWait_Frame h
  next => exact hm ..
  next => exact .refl ..

theorem maintRow_Frame (s : State) (m : Maint) (vol q : Nat) : Frame (rowAnd [.maints, .vols]) s (maintRow s m vol q).1 := by
  unfold maintRow
  split
  · exact (cleanRow_Frame ..).mono (by decide)
  · exact (cleanRow_Frame ..).mono (by decide)
  · exact (lockRow_Frame ..).mono (by decide)
  · exact (unlockRow_Frame ..).mono (by decide)
  · exact invalRow_Frame ..

theorem maintPass_Frame (s : State) (m : Maint) : Frame (rowAnd [.maints, .vols, .live, .mbx, .cache]) s (maintPass s m) := by
  unfold maintPass
  refine .ite (.refl ..) ?_
  have hp : Frame (rowAnd [.maints, .vols, .live, .mbx, .cache]) s (m.todo.foldl (fun s r =>
      match getMaint? s m.id with
      | none => s
      | some x =>
        let (s, fin) := maintRow s x r.1 r.2
        if fin then modMaint s m.id (fun m => { m with todo := m.todo.filter (· != r) }) else s) s) := by
    refine .fold (.refl ..) fun u r => ?_
    split
    · exact .refl ..
    · dsimp only
      exact .ite ((modMaint_Frame ..).on ((maintRow_Frame ..).mono (by decide)) rfl) ((maintRow_Frame ..).mono (by decide))
  dsimp only
  split
  · exact .ite ((endMaint_Frame ..).on hp rfl) hp
  · exact hp

theorem maintProgress_Frame (s : State) : Frame (rowAnd [.maints, .vols, .live, .mbx, .cache]) s (maintProgress s) :=
  .fold (.refl ..) fun _ _ => maintPass_Frame ..

theorem beginMaint_Frame (s : State) (src : MaintSrc) (op : Nat) (a : MaintArgs) :
    Frame tenantPieces s (beginMaint s src op a) := by
  unfold beginMaint
  refine .ite ?_ ?_
  · exact (maintPass_Frame ..).on ((bump_Frame ..).on ((updMaints_Frame ..).mono (by decide)) rfl) rfl
  · refine .ite ?_ ?_
    · exact (endMaint_Frame ..).on ((bump_Frame ..).on ((updMaints_Frame ..).mono (by decide)) rfl) rfl
    · refine .ite ?_ ?_
      · refine (acceptCmd_Frame ..).on ((bump_Frame ..).on ((updCmds_Frame ..).on ((bump_Frame ..).on ?_ rfl) rfl) rfl) rfl
        exact (updMaints_Frame ..).mono (by decide)
      · refine (forwardCmd_Frame ..).on ((bump_Frame ..).on ((updCmds_Frame ..).on ((bump_Frame ..).on ?_ rfl) rfl) rfl) rfl
        exact (updMaints_Frame ..).mono (by decide)

theorem maintStart_Framed (s : State) (src : MaintSrc) (op : Nat) (a : MaintArgs) :
    Framed tenantPieces s (maintStart s src op a) := by
  unfold maintStart
  split
  · split
    · exact .stays
    · exact .ite .stays (.done ((beginMaint_Frame ..).on ((modLive_Frame ..).mono (by decide)) rfl))
  · exact mbxRun_Framed (by decide) fun _ => (beginMaint_Frame ..).on ((mbxPark_Frame ..).mono (by decide)) rfl

theorem execZeroLine_Framed (src : MaintSrc) (a : MaintArgs) (s : State) : Framed tenantPieces s (execZeroLine src a s) :=
  maintStart_Framed ..

theorem execInvalKey_Framed (src : MaintSrc) (a : MaintArgs) (s : State) : Framed tenantPieces s (execInvalKey src a s) :=
  maintStart_Framed ..

theorem execInvalRange_Framed (src : MaintSrc) (a : MaintArgs) (s : State) : Framed tenantPieces s (execInvalRange src a s) :=
  maintStart_Framed ..

theorem execCleanKey_Framed (src : MaintSrc) (a : MaintArgs) (s : State) : Framed tenantPieces s (execCleanKey src a s) :=
  maintStart_Framed ..

theorem execCleanRange_Framed (src : MaintSrc) (a : MaintArgs) (s : State) : Framed tenantPieces s (execCleanRange src a s) :=
  maintStart_Framed ..

theorem execLock_Framed (src : MaintSrc) (a : MaintArgs) (s : State) : Framed tenantPieces s (execLock src a s) :=
  maintStart_Framed ..

theorem execUnlock_Framed (src : MaintSrc) (a : MaintArgs) (s : State) : Framed tenantPieces s (execUnlock src a s) :=
  maintStart_Framed ..

theorem execInvalAll_Framed (src : MaintSrc) (a : MaintArgs) (s : State) : Framed tenantPieces s (execInvalAll src a s) :=
  maintStart_Framed ..

theorem fillEnd_Frame (s : State) (t i : Nat) (l : Line) (fs : List Fetch) :
    Frame (faultAnd [.freeIx, .nextId, .tiles, .cmds, .mcmds, .fetches, .budget, .pools, .vols, .cache]) s (fillEnd s t i l fs) :=
  (resumeReads_Frame ..).on ((modTier_Frame ..).on (.fold (.refl ..) fun _ _ => (endFetch_Frame ..).mono (by decide)) rfl) rfl

theorem execLineFillComplete_Framed (tile line : Nat) (s : State) :
    Framed (tenantAnd [.freeIx]) s (execLineFillComplete tile line s) := by
  unfold execLineFillComplete
  refine .ite .stays ?_
  dsimp only
  split
  · refine .ite .stays ?_
    split
    exacts [.done ((maintProgress_Frame ..).on ((fillEnd_Frame ..).mono (by decide)) rfl), .stays]
  · refine .ite .stays ?_
    split
    · exact .stays
    · refine .done ?_
      refine (maintProgress_Frame ..).on ?_ rfl
      exact (modTier_Frame ..).on (.fold (.refl ..) fun _ _ => (endFetch_Frame ..).mono (by decide)) rfl
  · exact .stays

theorem execDestageComplete_Framed (d : Nat) (s : State) : Framed tenantPieces s (execDestageComplete d s) := by
  unfold execDestageComplete
  split
  · exact .stays
  · exact .ite (.done ((maintProgress_Frame ..).on ((endDestage_Frame ..).mono (by decide)) rfl)) .stays

theorem execDirectorySweep_Framed (tile : Nat) (s : State) : Framed rowPieces s (execDirectorySweep tile s) := by
  unfold execDirectorySweep
  refine .ite .stays (.done (.ite (.fold ((modTier_Frame ..).mono (by decide)) fun u e => ?_) ((modTier_Frame ..).mono (by decide))))
  exact .getD fun _ h => startDestage_Frame h

theorem execEvictionComplete_Framed (tile entry : Nat) (s : State) :
    Framed (rowAnd [.maints, .vols, .live, .mbx, .cache]) s (execEvictionComplete tile entry s) := by
  unfold execEvictionComplete
  extract_lets wait t
  have hw (c : CRow) : Framed (rowAnd [.maints, .vols, .live, .mbx, .cache]) s (wait c) := by
    dsimp only [wait]
    split
    · exact .ite (.done (.getD fun _ h => (startDestage_Frame h).mono (by decide))) .stays
    · exact .stays
  have hp (f : Tier → Tier) : Framed (rowAnd [.maints, .vols, .live, .mbx, .cache]) s (done (maintProgress (modTier s tile f))) :=
    .done ((maintProgress_Frame ..).on ((modTier_Frame ..).mono (by decide)) rfl)
  refine .ite .stays ?_
  split
  · split
    exacts [hw _, hp _]
  · refine .ite .stays ?_
    split
    exacts [hw _, hp _]
  · exact .stays

theorem retireLine_Frame {s u : State} {tile line cause word : Nat} : retireLine s tile line cause word = some u →
    Frame (faultAnd [.nextId, .tiles, .mcmds, .budget, .cache]) s u := by
  have hl (x : Option Line) : Frame (faultAnd [.nextId, .tiles, .mcmds, .budget, .cache]) s (match cause, x with
      | 2, some l => uncorrectable s tile l.c.vol l.c.row (word / 128)
      | _, _ => s) := by
    split
    exacts [uncorrectable_Frame .., .refl ..]
  intro h
  unfold retireLine at h
  extract_lets t row? lost t' moved at h
  have hlost : Frame (faultAnd [.nextId, .tiles, .mcmds, .budget, .cache]) s lost := hl row?
  clear_value moved t' lost row?
  split at h
  · cases h
  · revert h
    cases moved with
    | none =>
      intro h
      cases h
    | some x =>
      intro h
      rw [← Option.some.inj h]
      refine .ite ((jetInfo_Frame ..).on (.ite ((fault_Frame ..).on ?_ rfl) ?_) rfl) (.ite ((fault_Frame ..).on ?_ rfl) ?_)
      all_goals
        refine .ite ((fault_Frame ..).on ?_ rfl) (.ite ((fault_Frame ..).on ?_ rfl) ?_)
      all_goals exact (updCache_Frame ..).on ((modTier_Frame ..).on hlost rfl) rfl

theorem execLineRetirement_Framed (tile line cause word : Nat) (s : State) :
    Framed (faultAnd [.nextId, .tiles, .mcmds, .budget, .cache]) s (execLineRetirement tile line cause word s) := by
  unfold execLineRetirement
  split
  next h => exact .done (retireLine_Frame h)
  next => exact .stays

theorem execCacheDisable_Framed (g : Go) (s : State) : Framed [.nextId, .mbx, .cache] s (execCacheDisable g s) :=
  mbxRun_Framed (by decide) fun _ => (mbxPark_Frame ..).on ((updCache_Frame ..).mono (by decide)) rfl

theorem execCacheDisableQuiesced_Framed (mb : Nat) (s : State) :
    Framed (rowAnd [.maints, .vols, .live, .mbx, .cache]) s (execCacheDisableQuiesced mb s) := by
  unfold execCacheDisableQuiesced
  refine .ite .stays ?_
  refine .done ?_
  exact (maintProgress_Frame ..).on ((mbxOk_Frame ..).on ((updCache_Frame ..).on ((modTiles_Frame ..).mono (by decide)) rfl) rfl) rfl

theorem execCacheEnable_Framed (g : Go) (s : State) : Framed tenantPieces s (execCacheEnable g s) := by
  unfold execCacheEnable
  refine mbxRun_Framed (by decide) fun _ => ?_
  refine .ite ((mbxOk_Frame ..).mono (by decide)) ?_
  exact (beginMaint_Frame ..).on ((mbxPark_Frame ..).on ((updCache_Frame ..).mono (by decide)) rfl) rfl

theorem execCacheConfig_Framed (g : Go) (tile mask zGib delayUs : Nat) (s : State) :
    Framed [.nextId, .tiles, .cfg, .mbx] s (execCacheConfig g tile mask zGib delayUs s) := by
  unfold execCacheConfig
  refine mbxRun_Framed (by decide) fun _ => ?_
  refine (mbxStore_Frame ..).on ?_ rfl
  refine .ite ?_ ?_
  · refine .fold ?_ fun _ _ => (updCfg_Frame ..).mono (by decide)
    exact .ite (.fold (.refl ..) fun _ _ => (modTier_Frame ..).on ((updCfg_Frame ..).mono (by decide)) rfl) (.refl ..)
  · exact .ite (.fold (.refl ..) fun _ _ => (modTier_Frame ..).on ((updCfg_Frame ..).mono (by decide)) rfl) (.refl ..)

theorem execCacheRatGet_Framed (g : Go) (vol : Nat) (s : State) : Framed [.nextId, .mbx] s (execCacheRatGet g vol s) :=
  mbxRun_Framed (by decide) fun _ => (mbxOk_Frame ..).mono (by decide)

theorem execCacheStats_Framed (g : Go) (tile : Nat) (buf : SegDesc) (s : State) :
    Framed [.nextId, .pcie, .mbx] s (execCacheStats g tile buf s) :=
  mbxRun_Framed (by decide) fun _ => (mbxOk_Frame ..).on ((writeBuf_Frame ..).mono (by decide)) rfl

end Sys2Proof.Machine
end

section
/-! PROOFS. Frames: rebuild, copyback and scrub. -/

namespace Sys2Proof.Machine

theorem updPool_Frame (s : State) (pool : Nat) (f : Pool → Pool) : Frame [.pools] s (updPool s pool f) := modPool_Frame ..

theorem retable_Frame (s : State) (pool : Nat) : Frame [.nextId, .mcmds, .budget, .pools] s (retable s pool) :=
  (writeTable_Frame ..).mono (by decide)

theorem copyMeta_Frame (s : State) (pool : Nat) (ms : List Nat) :
    Frame [.nextId, .mcmds, .budget, .pools] s (copyMeta s pool ms) := by
  unfold copyMeta
  refine .ite (.refl ..) ?_
  refine .fold (.ite (.refl ..) ((metaWrite_Frame ..).mono (by decide))) fun _ _ => ?_
  split
  exacts [storeMap_Frame .., .refl ..]

theorem setTest_Frame (s : State) (kind pool : Nat) (t : Test) : Frame [.tests] s (setTest s kind pool t) := updTests_Frame ..

theorem releaseRow_Frame (s : State) (pool row : Nat) : Frame rowPieces s (releaseRow s pool row) :=
  .ite (.refl ..) ((startSalvages_Frame ..).on ((modPool_Frame ..).mono (by decide)) rfl)

theorem writeRepair_Frame (s : State) (pool : Nat) (r : Repair) : Frame [.nextId, .mcmds, .budget] s (writeRepair s pool r) :=
  .fold (.refl ..) fun _ _ => .fold (.refl ..) fun _ _ => issueM_Frame ..

theorem issueRepairs_Frame (s : State) (pool row : Nat) : Frame [.nextId, .mcmds, .budget, .pools] s (issueRepairs s pool row) :=
  .fold ((modPool_Frame ..).mono (by decide)) fun _ _ => (writeRepair_Frame ..).mono (by decide)

theorem askRepair_Frame (s : State) (pool : Nat) (r : Repair) :
    Frame [.nextId, .mcmds, .budget, .pools] s (askRepair s pool r) := by
  unfold askRepair
  refine .ite ?_ ((modPool_Frame ..).on ((modPool_Frame ..).mono (by decide)) rfl)
  exact (issueRepairs_Frame ..).on ((modPool_Frame ..).mono (by decide)) rfl

theorem testNext_Frame (s : State) (pool : Nat) (t : Test) : Frame (rowAnd [.tests]) s (testNext s pool t) := by
  unfold testNext
  refine (releaseRow_Frame ..).on ((setTest_Frame ..).on ?_ rfl) rfl
  split
  exacts [(endFetch_Frame ..).mono (by decide), .refl ..]

theorem judgeTest_Frame (s : State) (pool : Nat) (got : List (Nat × Mem)) : Frame (rowAnd [.tests]) s (judgeTest s pool got) :=
  testNext_Frame ..

theorem feedPart_Frame (s : State) (x : Fetch) (id i : Nat) :
    Frame (faultAnd [.nextId, .tiles, .cmds, .mcmds, .fetches, .budget, .pools, .vols]) s (feedPart s x id i) := by
  unfold feedPart
  split
  · exact (endFetch_Frame ..).mono (by decide)
  · split
    · exact (endFetch_Frame ..).mono (by decide)
    · refine .ite ?_ ?_
      · exact (settleCmd_Frame ..).on ((modPart_Frame ..).on ((endFetch_Frame ..).on ((copyRead_Frame ..).mono (by decide)) rfl) rfl) rfl
      · dsimp only
        split
        · exact (modPart_Frame ..).on ((endFetch_Frame ..).mono (by decide)) rfl
        · split
          · exact (takePart_Frame ..).on ((modPart_Frame ..).on ((endFetch_Frame ..).mono (by decide)) rfl) rfl
          · exact (modPart_Frame ..).on ((endFetch_Frame ..).mono (by decide)) rfl

theorem feedRebuild_Frame (s : State) (x : Fetch) : Frame [.nextId, .mcmds, .fetches, .budget, .pools] s (feedRebuild s x) := by
  unfold feedRebuild
  refine (modPool_Frame ..).on ?_ rfl
  refine .fold ((endFetch_Frame ..).mono (by decide)) fun _ _ => ?_
  dsimp only
  split
  exacts [.refl .., (modPool_Frame ..).on ((issueM_Frame ..).mono (by decide)) rfl]

theorem fetchRepairs_Frame (s : State) (x : Fetch) :
    Frame (faultAnd [.nextId, .mcmds, .budget, .pools, .members]) s (fetchRepairs s x) := by
  unfold fetchRepairs
  refine .fold (.refl ..) fun _ _ => ?_
  refine (askRepair_Frame ..).on ?_ rfl
  split
  · exact (modMember_Frame ..).on ((fault0_Frame ..).mono (by decide)) rfl
  · exact (fault0_Frame ..).mono (by decide)

theorem classBAfter_Frame (s : State) (x : Fetch) :
    Frame (faultAnd [.nextId, .tiles, .mcmds, .fetches, .budget, .pools]) s (classBAfter s x) := by
  unfold classBAfter
  dsimp only
  split
  exacts [.ite (.refl ..) (prefetchB_Frame ..), .ite (.refl ..) (prefetchB_Frame ..), .refl ..]

theorem finishFetch_Frame (s : State) (f : Nat) :
    Frame (rowAnd [.cmds, .maints, .vols, .members, .tests]) s (finishFetch s f) := by
  unfold finishFetch
  split
  · exact .refl ..
  · refine .ite (.refl ..) ?_
    dsimp only
    split
    · refine .ite ?_ ?_
      · exact (classBAfter_Frame ..).on ((modFetch_Frame ..).on ((fetchRepairs_Frame ..).mono (by decide)) rfl) rfl
      · exact (modFetch_Frame ..).on ((fetchRepairs_Frame ..).mono (by decide)) rfl
    · refine .ite ?_ ?_
      · exact (classBAfter_Frame ..).on ((modFetch_Frame ..).on ((fetchRepairs_Frame ..).mono (by decide)) rfl) rfl
      · exact (modFetch_Frame ..).on ((fetchRepairs_Frame ..).mono (by decide)) rfl
    · refine .ite ?_ ?_
      · exact (classBAfter_Frame ..).on ((modFetch_Frame ..).on ((fetchRepairs_Frame ..).mono (by decide)) rfl) rfl
      · exact (modFetch_Frame ..).on ((fetchRepairs_Frame ..).mono (by decide)) rfl
    · refine (judgeTest_Frame ..).on ?_ rfl
      refine .ite ?_ ?_
      · exact (classBAfter_Frame ..).on ((modFetch_Frame ..).on ((fetchRepairs_Frame ..).mono (by decide)) rfl) rfl
      · exact (modFetch_Frame ..).on ((fetchRepairs_Frame ..).mono (by decide)) rfl
    · refine (feedPart_Frame ..).on ?_ rfl
      refine .ite ?_ ?_
      · exact (classBAfter_Frame ..).on ((modFetch_Frame ..).on ((fetchRepairs_Frame ..).mono (by decide)) rfl) rfl
      · exact (modFetch_Frame ..).on ((fetchRepairs_Frame ..).mono (by decide)) rfl
    · refine (issueDestage_Frame ..).on ?_ rfl
      refine (endFetch_Frame ..).on ?_ rfl
      refine .ite ?_ ?_
      · exact (classBAfter_Frame ..).on ((modFetch_Frame ..).on ((fetchRepairs_Frame ..).mono (by decide)) rfl) rfl
      · exact (modFetch_Frame ..).on ((fetchRepairs_Frame ..).mono (by decide)) rfl
    · refine (feedDiscard_Frame ..).on ?_ rfl
      refine (endFetch_Frame ..).on ?_ rfl
      refine .ite ?_ ?_
      · exact (classBAfter_Frame ..).on ((modFetch_Frame ..).on ((fetchRepairs_Frame ..).mono (by decide)) rfl) rfl
      · exact (modFetch_Frame ..).on ((fetchRepairs_Frame ..).mono (by decide)) rfl
    · refine (feedRebuild_Frame ..).on ?_ rfl
      refine .ite ?_ ?_
      · exact (classBAfter_Frame ..).on ((modFetch_Frame ..).on ((fetchRepairs_Frame ..).mono (by decide)) rfl) rfl
      · exact (modFetch_Frame ..).on ((fetchRepairs_Frame ..).mono (by decide)) rfl

theorem dropWork_Frame (s : State) (pool f : Nat) : Frame rowPieces s (dropWork s pool f) :=
  .fold ((modPool_Frame ..).mono (by decide)) fun _ _ => releaseRow_Frame ..

theorem abandonFetch_Frame (s : State) (f : Nat) :
    Frame (rowAnd [.freeIx, .cmds, .maints, .vols, .cache, .tests]) s (abandonFetch s f) := by
  unfold abandonFetch
  split
  · exact .refl ..
  · dsimp only
    split
    · exact (resumeReads_Frame ..).on ((modTier_Frame ..).on ((endFetch_Frame ..).mono (by decide)) rfl) rfl
    · exact (modTier_Frame ..).on ((endFetch_Frame ..).mono (by decide)) rfl
    · split
      · exact (endFetch_Frame ..).mono (by decide)
      · refine .ite ?_ ?_
        · exact (serveRead_Frame ..).on ((modPart_Frame ..).on ((endFetch_Frame ..).mono (by decide)) rfl) rfl
        · exact (takePart_Frame ..).on ((modPart_Frame ..).on ((endFetch_Frame ..).mono (by decide)) rfl) rfl
    · split
      · exact (modDiscard_Frame ..).on ((endFetch_Frame ..).mono (by decide)) rfl
      · refine .ite ?_ ?_
        · exact (feedDiscard_Frame ..).on ((modDiscard_Frame ..).on ((endFetch_Frame ..).mono (by decide)) rfl) rfl
        · exact (fetchDiscard_Frame ..).on ((modDiscard_Frame ..).on ((endFetch_Frame ..).mono (by decide)) rfl) rfl
    · exact (cancelDestage_Frame ..).on ((endFetch_Frame ..).mono (by decide)) rfl
    · exact (dropWork_Frame ..).on ((endFetch_Frame ..).mono (by decide)) rfl
    · exact (dropWork_Frame ..).on ((endFetch_Frame ..).mono (by decide)) rfl
    · exact (testNext_Frame ..).on ((endFetch_Frame ..).mono (by decide)) rfl

theorem loseStrips_Frame (s : State) (x : Fetch) (gone : List Nat) (cause : Nat) (own : Bool) :
    Frame rowPieces s (loseStrips s x gone cause own) :=
  .ite ((startSalvage_Frame ..).on ((lstEnter_Frame ..).mono (by decide)) rfl) ((lstEnter_Frame ..).mono (by decide))

theorem resyncAgain_Frame (s : State) (did : Nat) (x : Fetch) (gone : List Nat) (cause : Nat) :
    Frame rowPieces s (resyncAgain s did x gone cause) := by
  unfold resyncAgain
  split
  · exact (endFetch_Frame ..).mono (by decide)
  · refine .ite ?_ ?_
    · refine (startResync_Frame ..).on ((updDestages_Frame ..).on ((endFetch_Frame ..).on ?_ rfl) rfl) rfl
      exact (lstEnter_Frame ..).mono (by decide)
    · exact (cancelDestage_Frame ..).on ((lstEnter_Frame ..).mono (by decide)) rfl

theorem failFetch_Frame (s : State) (f : Nat) :
    Frame (rowAnd [.freeIx, .cmds, .maints, .vols, .cache, .tests]) s (failFetch s f) := by
  unfold failFetch
  split
  · exact .refl ..
  · dsimp only
    split
    · exact .ite ((resyncAgain_Frame ..).mono (by decide)) ((loseStrips_Frame ..).on (abandonFetch_Frame ..) rfl)
    · exact (modPool_Frame ..).on ((loseStrips_Frame ..).on ((endFetch_Frame ..).mono (by decide)) rfl) rfl
    · exact (abandonFetch_Frame ..).on ((loseStrips_Frame ..).mono (by decide)) rfl
    · exact (abandonFetch_Frame ..).on ((loseStrips_Frame ..).mono (by decide)) rfl
    · exact (abandonFetch_Frame ..).on ((loseStrips_Frame ..).mono (by decide)) rfl

theorem salvageStep_Frame (s : State) (f : Nat) :
    Frame (rowAnd [.cmds, .maints, .vols, .members, .tests]) s (salvageStep s f) := by
  unfold salvageStep
  split
  exacts [.refl .., (finishFetch_Frame ..).on ((lstEnter_Frame ..).mono (by decide)) rfl]

theorem strikeFetch_Frame (s : State) (f pos : Nat) (hard : Bool) (cols : BitVec 4) :
    Frame (rowAnd [.freeIx, .cmds, .maints, .vols, .members, .cache, .tests]) s (strikeFetch s f pos hard cols) := by
  unfold strikeFetch
  split
  · exact .refl ..
  · refine .ite ?_ ?_
    · refine .ite (.ite ((modFetch_Frame ..).mono (by decide)) (.refl ..)) ?_
      exact (salvageStep_Frame ..).on ((modFetch_Frame ..).on (.ite ((modFetch_Frame ..).mono (by decide)) (.refl ..)) rfl) rfl
    · refine .ite ?_ ?_
      · refine .ite ?_ (.ite ((modFetch_Frame ..).mono (by decide)) (.refl ..))
        exact (failFetch_Frame ..).on (.ite ((modFetch_Frame ..).mono (by decide)) (.refl ..)) rfl
      · refine .ite ?_ ?_
        · exact (abandonFetch_Frame ..).on (.ite ((modFetch_Frame ..).mono (by decide)) (.refl ..)) rfl
        · refine .ite ?_ ?_
          · refine (finishFetch_Frame ..).on ((parallelReads_Frame ..).on ((readForRecovery_Frame ..).on ?_ rfl) rfl) rfl
            exact (modFetch_Frame ..).on (.ite ((modFetch_Frame ..).mono (by decide)) (.refl ..)) rfl
          · refine .ite ?_ ?_
            · refine (finishFetch_Frame ..).on ((parallelReads_Frame ..).on ((readForRecovery_Frame ..).on ?_ rfl) rfl) rfl
              exact (modFetch_Frame ..).on (.ite ((modFetch_Frame ..).mono (by decide)) (.refl ..)) rfl
            · refine .ite ?_ (.ite ((modFetch_Frame ..).mono (by decide)) (.refl ..))
              exact (failFetch_Frame ..).on (.ite ((modFetch_Frame ..).mono (by decide)) (.refl ..)) rfl

theorem listChange_Frame (s : State) (pool : Nat) (new : List FailEnt) : Frame rowPieces s (listChange s pool new) := by
  unfold listChange
  dsimp only
  split
  · refine (releaseRow_Frame ..).on ?_ rfl
    split
    · exact (endFetch_Frame ..).on ((updMcmds_Frame ..).on ((modPool_Frame ..).mono (by decide)) rfl) rfl
    · exact (updMcmds_Frame ..).on ((modPool_Frame ..).mono (by decide)) rfl
  · split
    · exact (endFetch_Frame ..).on ((updMcmds_Frame ..).on ((modPool_Frame ..).mono (by decide)) rfl) rfl
    · exact (updMcmds_Frame ..).on ((modPool_Frame ..).mono (by decide)) rfl

theorem offlinePart_Frame (s : State) (c : Cmd) (i : Nat) (p : RowPart) :
    Frame [.tiles, .cmds, .mcmds, .fetches, .pools, .partners] s (offlinePart s c i p) := by
  unfold offlinePart
  refine .ite (.refl ..) ?_
  refine (modPart_Frame ..).on ?_ rfl
  split
  · exact (retireIntent_Frame ..).on (.fold (.refl ..) fun _ _ => (endFetch_Frame ..).mono (by decide)) rfl
  · exact .fold (.refl ..) fun _ _ => (endFetch_Frame ..).mono (by decide)

theorem offlineCmd_Frame (s : State) (c : Cmd) :
    Frame [.tiles, .cmds, .mcmds, .fetches, .pools, .vols, .partners] s (offlineCmd s c) := by
  unfold offlineCmd
  split
  · exact (finishCmd_Frame ..).mono (by decide)
  · refine .ite ((finishCmd_Frame ..).mono (by decide)) ?_
    refine (settleCmd_Frame ..).on ?_ rfl
    refine .fold (.refl ..) fun _ _ => ?_
    split
    exacts [(offlinePart_Frame ..).mono (by decide), .refl ..]
  · exact .refl ..

theorem poolOffline_Frame (s : State) (pool : Nat) : Frame (rowAnd [.cmds, .vols]) s (poolOffline s pool) := by
  unfold poolOffline
  refine .fold ?_ fun _ _ => (offlineCmd_Frame ..).mono (by decide)
  refine .fold ?_ fun _ _ => (cancelDestage_Frame ..).mono (by decide)
  refine .fold ?_ fun _ _ => (releaseRow_Frame ..).mono (by decide)
  refine (updMcmds_Frame ..).on ?_ rfl
  refine .fold ?_ fun _ _ => (endFetch_Frame ..).mono (by decide)
  exact .fold ((modPool_Frame ..).mono (by decide)) fun _ _ => (modVol_Frame ..).mono (by decide)

theorem appendFailure_Frame (s : State) (pool ix : Nat) :
    Frame (rowAnd [.cmds, .vols, .members]) s (appendFailure s pool ix) := by
  unfold appendFailure
  refine .ite ?_ ?_
  · exact (fault_Frame ..).on ((poolOffline_Frame ..).mono (by decide)) rfl
  · refine (listChange_Frame ..).on ?_ rfl
    split
    exacts [(modMember_Frame ..).mono (by decide), .refl ..]

theorem replaceHome_Frame (s : State) (pool : Nat) (home : Nat) (new : Option Nat) :
    Frame (rowAnd [.members]) s (replaceHome s pool home new) := by
  unfold replaceHome
  refine (listChange_Frame ..).on ?_ rfl
  split
  exacts [(modMember_Frame ..).mono (by decide), .refl ..]

theorem endCopyback_Frame (s : State) (pool : Nat) : Frame rowPieces s (endCopyback s pool) := by
  unfold endCopyback
  dsimp only
  split
  · refine (releaseRow_Frame ..).on ?_ rfl
    split
    · exact (endFetch_Frame ..).on ((updPool_Frame ..).on ((updMcmds_Frame ..).mono (by decide)) rfl) rfl
    · exact (updPool_Frame ..).on ((updMcmds_Frame ..).mono (by decide)) rfl
  · exact (updPool_Frame ..).on ((updMcmds_Frame ..).mono (by decide)) rfl

theorem setMirror_Frame (s : State) (pool a b : Nat) : Frame [.cfg, .pools] s (setMirror s pool a b) :=
  (modPool_Frame ..).on ((setPoolCfg_Frame ..).mono (by decide)) rfl

theorem dropRecopy_Frame (s : State) (pool : Nat) : Frame [.mcmds] s (dropRecopy s pool) := updMcmds_Frame ..

theorem recopySegment_Frame (s : State) (pool surv t : Nat) : Frame [.nextId, .mcmds, .budget] s (recopySegment s pool surv t) :=
  .fold (.refl ..) fun _ _ => issueM_Frame ..

theorem gotRecopy_Frame (s : State) (pool t ref n : Nat) (data : Mem) :
    Frame [.nextId, .mcmds, .budget] s (gotRecopy s pool t ref n data) := .ite (issueM_Frame ..) (.refl ..)

theorem replaceMirror_Frame (s : State) (pool which : Nat) (first : Bool) :
    Frame (faultAnd [.nextId, .tiles, .mcmds, .budget, .cfg, .pools]) s (replaceMirror s pool which first) := by
  unfold replaceMirror
  dsimp only
  split
  · refine (jetInfo_Frame ..).on ?_ rfl
    refine .fold ?_ fun _ _ => (recopySegment_Frame ..).mono (by decide)
    refine .fold ?_ fun _ _ => (mirrorMove_Frame ..).mono (by decide)
    exact (modPool_Frame ..).on (.ite ((setMirror_Frame ..).mono (by decide)) ((setMirror_Frame ..).mono (by decide))) rfl
  · exact .ite ((fault0_Frame ..).on ((modPool_Frame ..).mono (by decide)) rfl) ((modPool_Frame ..).mono (by decide))

theorem newMirrorSet_Frame (s : State) (pool : Nat) (first : Bool) :
    Frame (faultAnd [.tiles, .cfg, .pools]) s (newMirrorSet s pool first) := by
  unfold newMirrorSet
  dsimp only
  split
  · refine .fold ?_ fun _ _ => (newSetReady_Frame ..).mono (by decide)
    refine (modPool_Frame ..).on ?_ rfl
    refine .fold ((setMirror_Frame ..).mono (by decide)) fun _ _ => ?_
    refine (mirrorMove_Frame ..).on ((mirrorMove_Frame ..).on ((mirrorMove_Frame ..).on ?_ rfl) rfl) rfl
    exact (mirrorMove_Frame ..).mono (by decide)
  · exact .ite ((fault0_Frame ..).on ((modPool_Frame ..).mono (by decide)) rfl) ((modPool_Frame ..).mono (by decide))

theorem destageSpilled_Frame (s : State) (pool : Nat) : Frame rowPieces s (destageSpilled s pool) :=
  .fold (.refl ..) fun _ _ => .getD fun _ h => startDestage_Frame h

theorem mirrorFailed_Frame (s : State) (pool ix : Nat) : Frame (rowAnd [.cfg]) s (mirrorFailed s pool ix) := by
  unfold mirrorFailed
  refine .ite (.refl ..) ?_
  refine .ite ((replaceMirror_Frame ..).mono (by decide)) ?_
  refine .ite ?_ ?_
  · exact .ite (.refl ..) ((fault0_Frame ..).on ((modPool_Frame ..).on ((dropRecopy_Frame ..).mono (by decide)) rfl) rfl)
  · refine (newMirrorSet_Frame ..).on ((destageSpilled_Frame ..).on ((fault0_Frame ..).on ?_ rfl) rfl) rfl
    exact (dropRecopy_Frame ..).mono (by decide)

theorem unspill_Frame (s : State) (m : Nat) : Frame [.cmds] s (unspill s m) := by
  unfold unspill
  refine .fold (.refl ..) fun _ _ => ?_
  split
  exacts [.ite (modPart_Frame ..) (.refl ..), .refl ..]

theorem execMirrorRecopyComplete_Framed (pool tile : Nat) (s : State) :
    Framed [.tiles, .pools, .partners, .jet] s (execMirrorRecopyComplete pool tile s) := by
  unfold execMirrorRecopyComplete
  refine .ite .stays ?_
  refine .ite ?_ ?_
  · exact .done ((jetInfo_Frame ..).on ((modPool_Frame ..).on ((modPool_Frame ..).on ((mirrorMove_Frame ..).mono (by decide)) rfl) rfl)
      rfl)
  · exact .done ((modPool_Frame ..).on ((mirrorMove_Frame ..).mono (by decide)) rfl)

theorem mirrorRetry_Frame (s : State) (pool : Nat) :
    Frame (faultAnd [.nextId, .tiles, .mcmds, .budget, .cfg, .pools]) s (mirrorRetry s pool) := by
  unfold mirrorRetry
  refine .ite (.refl ..) ?_
  split
  exacts [replaceMirror_Frame .., (newMirrorSet_Frame ..).mono (by decide), .refl ..]

theorem initCommand_Frame (s : State) (pool : Nat) : Frame [.nextId, .mcmds, .budget, .pools] s (initCommand s pool) := by
  unfold initCommand
  split
  exacts [.refl .., (issueM_Frame ..).on ((modPool_Frame ..).mono (by decide)) rfl]

theorem zeroCommand_Frame (s : State) (pool e : Nat) : Frame [.nextId, .mcmds, .budget, .pools] s (zeroCommand s pool e) :=
  .fold ((modPool_Frame ..).mono (by decide)) fun _ _ => (issueM_Frame ..).mono (by decide)

theorem chargeClass_Frame (s : State) (pool cls n : Nat) : Frame [.pools] s (chargeClass s pool cls n) := modPool_Frame ..

theorem sendNext_Frame (s : State) (pool cls : Nat) : Frame [.mcmds, .budget, .pools] s (sendNext s pool cls) := by
  unfold sendNext
  split
  exacts [(chargeClass_Frame ..).on ((sendTurn_Frame ..).mono (by decide)) rfl, .refl ..]

theorem setWork_Frame (s : State) (pool cls : Nat) (w : RowWork) : Frame [.pools] s (setWork s pool cls w) := modPool_Frame ..

theorem beginRow_Frame (s : State) (pool cls row : Nat) (want : List Nat) :
    Frame (faultAnd [.nextId, .mcmds, .fetches, .budget, .pools]) s (beginRow s pool cls row want) := by
  unfold beginRow
  refine .ite ((setWork_Frame ..).mono (by decide)) ?_
  exact (startFetch_Frame ..).on ((setWork_Frame ..).on (.ite ((loseUnsynced_Frame ..).mono (by decide)) (.refl ..)) rfl) rfl

theorem convertHeld_Frame (s : State) (pool row : Nat) (gone : List Nat) (d : Destage) (src : CRow) :
    Frame rowPieces s (convertHeld s pool row gone d src) := by
  unfold convertHeld
  dsimp only
  exact (startResync_Frame ..).on ((modTier_Frame ..).on ((modTier_Frame ..).on ((clearLost_Frame ..).mono (by decide)) rfl) rfl) rfl

theorem convertBroken_Frame (s : State) (pool row : Nat) : Frame rowPieces s (convertBroken s pool row) := by
  unfold convertBroken
  refine .ite ((lstEnter_Frame ..).mono (by decide)) ?_
  dsimp only
  split
  · exact (startResync_Frame ..).on ((modPool_Frame ..).on ((lstEnter_Frame ..).mono (by decide)) rfl) rfl
  · exact (convertHeld_Frame ..).on ((modPool_Frame ..).on ((lstEnter_Frame ..).mono (by decide)) rfl) rfl

theorem resyncRow_Frame (s : State) (pool row : Nat) (cls : Nat) : Frame rowPieces s (resyncRow s pool row cls) :=
  .ite ((lstEnter_Frame ..).mono (by decide)) ((startResync_Frame ..).on ((lstEnter_Frame ..).mono (by decide)) rfl)

theorem workRow_Frame (s : State) (pool cls row : Nat) : Frame rowPieces s (workRow s pool cls row) := by
  unfold workRow
  refine .ite ?_ ?_
  · exact (beginRow_Frame ..).on ((convertBroken_Frame ..).on (.ite ((reportBroken_Frame ..).mono (by decide)) (.refl ..)) rfl) rfl
  · refine .ite ?_ ?_
    · exact (beginRow_Frame ..).on ((resyncRow_Frame ..).on (.ite ((reportBroken_Frame ..).mono (by decide)) (.refl ..)) rfl) rfl
    · exact (beginRow_Frame ..).on (.ite ((reportBroken_Frame ..).mono (by decide)) (.refl ..)) rfl

theorem takeRow_Frame (s : State) (pool cls : Nat) : Frame rowPieces s (takeRow s pool cls) :=
  .ite (workRow_Frame ..) ((modPool_Frame ..).on ((setWork_Frame ..).mono (by decide)) rfl)

theorem produce_Frame (s : State) (pool cls : Nat) : Frame rowPieces s (produce s pool cls) := by
  unfold produce
  refine .ite (.refl ..) ?_
  refine .ite (takeRow_Frame ..) ?_
  refine .ite ?_ (.refl ..)
  split
  · exact (initCommand_Frame ..).mono (by decide)
  · exact (zeroCommand_Frame ..).mono (by decide)
  · exact .refl ..

theorem execRebuildCommandIssue_Framed (pool : Nat) (s : State) : Framed rowPieces s (execRebuildCommandIssue pool s) := by
  unfold execRebuildCommandIssue
  split
  exacts [.ite (.done ((sendNext_Frame ..).on (produce_Frame ..) rfl)) .stays, .stays]

theorem execRowInterlockGrant_Framed (pool row : Nat) (s : State) : Framed rowPieces s (execRowInterlockGrant pool row s) := by
  unfold execRowInterlockGrant
  refine .ite .stays ?_
  refine .done ?_
  refine (releaseRow_Frame ..).on ?_ rfl
  refine .ite ?_ ?_
  · refine (workRow_Frame ..).on ?_ rfl
    refine .ite ?_ ?_
    · refine (workRow_Frame ..).on ?_ rfl
      refine .ite ?_ ?_
      · exact (workRow_Frame ..).on ((issueRepairs_Frame ..).on ((modPool_Frame ..).mono (by decide)) rfl) rfl
      · exact (issueRepairs_Frame ..).on ((modPool_Frame ..).mono (by decide)) rfl
    · refine .ite ?_ ?_
      · exact (workRow_Frame ..).on ((issueRepairs_Frame ..).on ((modPool_Frame ..).mono (by decide)) rfl) rfl
      · exact (issueRepairs_Frame ..).on ((modPool_Frame ..).mono (by decide)) rfl
  · refine .ite ?_ ?_
    · refine (workRow_Frame ..).on ?_ rfl
      refine .ite ?_ ?_
      · exact (workRow_Frame ..).on ((issueRepairs_Frame ..).on ((modPool_Frame ..).mono (by decide)) rfl) rfl
      · exact (issueRepairs_Frame ..).on ((modPool_Frame ..).mono (by decide)) rfl
    · refine .ite ?_ ?_
      · exact (workRow_Frame ..).on ((issueRepairs_Frame ..).on ((modPool_Frame ..).mono (by decide)) rfl) rfl
      · exact (issueRepairs_Frame ..).on ((modPool_Frame ..).mono (by decide)) rfl

theorem peridotEnd_Frame (s : State) (pool : Nat) :
    Frame [.nextId, .mcmds, .budget, .cfg, .flash, .pools, .members] s (peridotEnd s pool) := by
  unfold peridotEnd
  refine .ite ?_ ?_
  · refine (retable_Frame ..).on ((storeCfg_Frame ..).on ?_ rfl) rfl
    refine .fold (.refl ..) fun _ _ => ?_
    split
    · exact .refl ..
    · exact (updPool_Frame ..).on ((modMember_Frame ..).on ((setPoolCfg_Frame ..).mono (by decide)) rfl) rfl
  · refine .fold (.refl ..) fun _ _ => ?_
    split
    · exact .refl ..
    · exact (updPool_Frame ..).on ((modMember_Frame ..).on ((setPoolCfg_Frame ..).mono (by decide)) rfl) rfl

theorem startCopyback_Frame (s : State) (pool ix m : Nat) :
    Frame [.nextId, .mcmds, .budget, .pools, .members] s (startCopyback s pool ix m) :=
  (retable_Frame ..).on ((updPool_Frame ..).on ((modMember_Frame ..).mono (by decide)) rfl) rfl

theorem passEnd_Frame (s : State) (pool : Nat) :
    Frame [.nextId, .mcmds, .budget, .cfg, .flash, .pools, .members, .jet] s (passEnd s pool) := by
  unfold passEnd
  refine .ite ?_ ?_
  · exact (peridotEnd_Frame ..).on ((jetInfo_Frame ..).on ((updPool_Frame ..).mono (by decide)) rfl) rfl
  · split
    · exact (startCopyback_Frame ..).on ((jetInfo_Frame ..).on ((updPool_Frame ..).mono (by decide)) rfl) rfl
    · exact (jetInfo_Frame ..).on ((updPool_Frame ..).mono (by decide)) rfl

theorem rowRebuilt_Frame (s : State) (pool row : Nat) : Frame rowPieces s (rowRebuilt s pool row) :=
  (releaseRow_Frame ..).on ((updPool_Frame ..).mono (by decide)) rfl

theorem stageEnd_Frame (s : State) (pool : Nat) :
    Frame [.nextId, .mcmds, .budget, .cfg, .flash, .pools, .members, .jet] s (stageEnd s pool) :=
  .ite ((updPool_Frame ..).mono (by decide)) (.ite (passEnd_Frame ..) (.refl ..))

theorem execRebuildRowComplete_Framed (pool : Nat) (s : State) :
    Framed (rowAnd [.maints, .cfg, .flash, .vols, .members, .live, .mbx, .cache]) s (execRebuildRowComplete pool s) := by
  unfold execRebuildRowComplete
  dsimp only
  split
  · exact .stays
  · exact .ite .stays (.done ((maintProgress_Frame ..).on ((stageEnd_Frame ..).on ((rowRebuilt_Frame ..).mono (by decide)) rfl) rfl))

theorem rowCopied_Frame (s : State) (pool row : Nat) : Frame rowPieces s (rowCopied s pool row) :=
  (releaseRow_Frame ..).on ((updPool_Frame ..).mono (by decide)) rfl

theorem copybackEnd_Frame (s : State) (pool ix m : Nat) :
    Frame (rowAnd [.cfg, .flash, .members]) s (copybackEnd s pool ix m) := by
  unfold copybackEnd
  refine (jetInfo_Frame ..).on ((retable_Frame ..).on ((storeCfg_Frame ..).on ((listChange_Frame ..).on ?_ rfl) rfl) rfl) rfl
  exact (modPool_Frame ..).on ((modMember_Frame ..).on ((setPoolCfg_Frame ..).mono (by decide)) rfl) rfl

theorem execCopybackRowComplete_Framed (pool : Nat) (s : State) :
    Framed (rowAnd [.cfg, .flash, .members]) s (execCopybackRowComplete pool s) := by
  unfold execCopybackRowComplete
  dsimp only
  split
  · refine .ite .stays ?_
    refine .done ?_
    exact .ite ((rowCopied_Frame ..).mono (by decide)) ((copybackEnd_Frame ..).on ((rowCopied_Frame ..).mono (by decide)) rfl)
  · exact .stays

theorem execCursorMetadataWrite_Framed (pool : Nat) (s : State) :
    Framed [.nextId, .mcmds, .budget, .pools] s (execCursorMetadataWrite pool s) :=
  .ite .stays (.done ((metaWrite_Frame ..).on ((modPool_Frame ..).mono (by decide)) rfl))

theorem scrubNext_Frame (s : State) (pool : Nat) : Frame [.pools] s (scrubNext s pool) := updPool_Frame ..

theorem scrubJudge_Frame (s : State) (pool : Nat) (x : Fetch) : Frame rowPieces s (scrubJudge s pool x) := by
  unfold scrubJudge
  refine (scrubNext_Frame ..).on ((releaseRow_Frame ..).on ?_ rfl) rfl
  dsimp only
  split
  · exact (modPool_Frame ..).on ((endFetch_Frame ..).mono (by decide)) rfl
  · refine .ite ?_ ?_
    · exact (askRepair_Frame ..).on ((askRepair_Frame ..).on ((modPool_Frame ..).on ((endFetch_Frame ..).mono (by decide)) rfl) rfl) rfl
    · split
      · exact (askRepair_Frame ..).on ((fault0_Frame ..).on ((modPool_Frame ..).on ((endFetch_Frame ..).mono (by decide)) rfl) rfl) rfl
      · refine (askRepair_Frame ..).on ((askRepair_Frame ..).on ((fault0_Frame ..).on ((modPool_Frame ..).on ?_ rfl) rfl) rfl) rfl
        exact (endFetch_Frame ..).mono (by decide)

theorem scrubPass_Frame (s : State) (pool row : Nat) : Frame rowPieces s (scrubPass s pool row) :=
  .ite ((scrubNext_Frame ..).on (resyncRow_Frame ..) rfl) ((scrubNext_Frame ..).on ((modPool_Frame ..).mono (by decide)) rfl)

theorem execScrubRow_Framed (pool row : Nat) (s : State) :
    Framed (rowAnd [.maints, .vols, .live, .mbx, .cache]) s (execScrubRow pool row s) := by
  unfold execScrubRow
  refine .ite .stays ?_
  split
  · split
    · exact .ite (.done ((maintProgress_Frame ..).on ((scrubJudge_Frame ..).mono (by decide)) rfl)) .stays
    · exact .stays
  · exact .ite .stays (.done ((scrubPass_Frame ..).mono (by decide)))

theorem passStart_Frame (s : State) (pool : Nat) : Frame [.pools, .jet] s (passStart s pool) :=
  .ite ((jetInfo_Frame ..).on ((updPool_Frame ..).mono (by decide)) rfl) (.refl ..)

end Sys2Proof.Machine
end

section
/-! PROOFS. Frames: replay. -/

namespace Sys2Proof.Machine

theorem readSpill_Frame (s : State) (x : ReplayRow) (ring : Nat) (i : Rec) (which : Nat) :
    Frame [.nextId, .mcmds, .budget] s (readSpill s x ring i which) := issueM_Frame ..

theorem finishReplayRow_Frame (s : State) (x : ReplayRow) : Frame (rowAnd [.replays]) s (finishReplayRow s x) := by
  unfold finishReplayRow
  dsimp only
  refine .ite ?_ ?_
  · exact (lstEnter_Frame ..).on ((updReplays_Frame ..).mono (by decide)) rfl
  · exact (startResync_Frame ..).on ((lstEnter_Frame ..).on ((updReplays_Frame ..).mono (by decide)) rfl) rfl

theorem beginReplayRow_Frame (s : State) (x : ReplayRow) : Frame (rowAnd [.replays]) s (beginReplayRow s x) := by
  unfold beginReplayRow
  dsimp only
  split
  · exact finishReplayRow_Frame ..
  · refine .ite (finishReplayRow_Frame ..) ?_
    exact .fold ((updReplays_Frame ..).mono (by decide)) fun _ _ => (readSpill_Frame ..).mono (by decide)

theorem endSpillRead_Frame (s : State) (ring seq : Nat) (got : Option Rec) :
    Frame (rowAnd [.replays]) s (endSpillRead s ring seq got) := by
  unfold endSpillRead
  split
  exacts [.refl .., .ite (finishReplayRow_Frame ..) ((updReplays_Frame ..).mono (by decide))]

theorem gotSpill_Frame (s : State) (ring seq which : Nat) (data : Option Mem) :
    Frame (rowAnd [.replays]) s (gotSpill s ring seq which data) := by
  unfold gotSpill
  split
  · split
    · exact endSpillRead_Frame ..
    · split
      exacts [(readSpill_Frame ..).mono (by decide), endSpillRead_Frame ..]
  · exact .refl ..

theorem replayRings_Frame (s : State) (rings : List Nat) (p : RingRec → Bool) :
    Frame (rowAnd [.replays]) s (replayRings s rings p) := .fold (.refl ..) fun _ _ => beginReplayRow_Frame ..

end Sys2Proof.Machine
end

section
/-! PROOFS. Frames: the members' rows. -/

namespace Sys2Proof.Machine

theorem modQueue_Frame (s : State) (m tile : Nat) (admin : Bool) (f : Queue → Queue) :
    Frame [.members] s (modQueue s m tile admin f) := modMember_Frame ..

theorem dropQueue_Frame (s : State) (m tile : Nat) (admin : Bool) : Frame [.members] s (dropQueue s m tile admin) :=
  modMember_Frame ..

theorem connected_Frame (s : State) (m tile : Nat) (admin : Bool) (f : Queue → Queue) :
    Frame [.mcmds, .budget, .members] s (connected s m tile admin f) :=
  (relaunchMember_Frame ..).on ((modQueue_Frame ..).mono (by decide)) rfl

theorem discardSpilled_Frame (s : State) (mid row : Nat) : Frame [.maints] s (discardSpilled s mid row) := modDiscard_Frame ..

theorem lessWrite_Frame (s : State) (x : MCmd) : Frame (rowAnd [.cmds, .maints, .vols]) s (lessWrite s x) := by
  unfold lessWrite
  dsimp only
  split
  · exact (modDestage_Frame ..).mono (by decide)
  · exact (modPool_Frame ..).mono (by decide)
  · exact (modPool_Frame ..).mono (by decide)
  · exact (releaseRow_Frame ..).mono (by decide)
  · exact (lstCommit_Frame ..).mono (by decide)
  · exact (discardSpilled_Frame ..).mono (by decide)
  · exact .refl ..

theorem abandon_Frame (s : State) (x : MCmd) :
    Frame (rowAnd [.freeIx, .cmds, .replays, .maints, .vols, .members, .cache, .tests]) s (abandon s x) := by
  unfold abandon
  split
  · exact (strikeFetch_Frame ..).mono (by decide)
  · exact (gotSpill_Frame ..).mono (by decide)
  · exact (gotUe_Frame ..).mono (by decide)
  · exact (lessWrite_Frame ..).mono (by decide)

theorem abandonAll_Frame (s : State) (m : Nat) :
    Frame (rowAnd [.freeIx, .cmds, .replays, .maints, .vols, .members, .cache, .tests]) s (abandonAll s m) :=
  .fold ((updMcmds_Frame ..).mono (by decide)) fun _ _ => abandon_Frame ..

theorem failInPool_Frame (s : State) (m pool : Nat) (was : MemberState) :
    Frame (rowAnd [.cmds, .cfg, .vols, .members]) s (failInPool s m pool was) := by
  unfold failInPool
  refine (retable_Frame ..).on ((copyMeta_Frame ..).on ?_ rfl) rfl
  split
  · refine .ite ?_ ?_
    · exact (endCopyback_Frame ..).on ((modPool_Frame ..).mono (by decide)) rfl
    · exact .ite ((replaceHome_Frame ..).on ((modPool_Frame ..).mono (by decide)) rfl) ((modPool_Frame ..).mono (by decide))
  · refine (mirrorFailed_Frame ..).on ?_ rfl
    refine (appendFailure_Frame ..).on ?_ rfl
    refine .ite ?_ ?_
    · exact (endCopyback_Frame ..).on ((modPool_Frame ..).mono (by decide)) rfl
    · exact .ite ((replaceHome_Frame ..).on ((modPool_Frame ..).mono (by decide)) rfl) ((modPool_Frame ..).mono (by decide))

theorem declareFailed_Frame (s : State) (m : Nat) :
    Frame (rowAnd [.freeIx, .cmds, .replays, .maints, .cfg, .vols, .members, .cache, .tests]) s (declareFailed s m) := by
  unfold declareFailed
  refine .ite (.refl ..) ?_
  refine (abandonAll_Frame ..).on ?_ rfl
  split
  · exact (unspill_Frame ..).on ((fault0_Frame ..).on ((modMember_Frame ..).mono (by decide)) rfl) rfl
  · exact (failInPool_Frame ..).on ((unspill_Frame ..).on ((fault0_Frame ..).on ((modMember_Frame ..).mono (by decide)) rfl) rfl) rfl

theorem memberGood_Frame (s : State) (m : Nat) : Frame [.members] s (memberGood s m) := modMember_Frame ..

theorem countTimeout_Frame (s : State) (m : Nat) :
    Frame (rowAnd [.freeIx, .cmds, .replays, .maints, .cfg, .vols, .members, .cache, .tests]) s (countTimeout s m) :=
  .ite ((declareFailed_Frame ..).on ((modMember_Frame ..).mono (by decide)) rfl) ((modMember_Frame ..).mono (by decide))

theorem readData_Frame (s : State) (x : MCmd) (data : Mem) :
    Frame (rowAnd [.freeIx, .cmds, .replays, .maints, .vols, .members, .cache, .tests]) s (readData s x data) := by
  unfold readData
  split
  · exact .ite ((finishFetch_Frame ..).on ((modFetch_Frame ..).mono (by decide)) rfl) (.refl ..)
  · exact (gotSpill_Frame ..).mono (by decide)
  · exact (gotUe_Frame ..).mono (by decide)
  · exact (gotRecopy_Frame ..).mono (by decide)
  · exact .refl ..

theorem writeDone_Frame (s : State) (x : MCmd) : Frame (rowAnd [.cmds, .maints, .vols]) s (writeDone s x) := by
  unfold writeDone
  split
  · dsimp only
    split
    · exact (ackPart_Frame ..).on ((modPart_Frame ..).mono (by decide)) rfl
    · exact (modPart_Frame ..).mono (by decide)
  · exact lessWrite_Frame ..

theorem renew_Frame (s : State) (x : MCmd) : Frame [.nextId, .mcmds, .destages, .budget, .pools] s (renew s x) := by
  unfold renew
  refine (launch_Frame ..).on ((bump_Frame ..).on ((dropMCmd_Frame ..).on ?_ rfl) rfl) rfl
  exact .of_overlay rfl

theorem dropRead_Frame (s : State) (x : MCmd) :
    Frame (rowAnd [.freeIx, .cmds, .replays, .maints, .vols, .members, .cache, .tests]) s (dropRead s x) := by
  unfold dropRead
  split
  · split
    · exact (dropMCmd_Frame ..).mono (by decide)
    · exact .ite ((strikeFetch_Frame ..).on ((dropMCmd_Frame ..).mono (by decide)) rfl) ((renew_Frame ..).mono (by decide))
  · exact (gotSpill_Frame ..).on ((dropMCmd_Frame ..).mono (by decide)) rfl
  · exact (gotUe_Frame ..).on ((dropMCmd_Frame ..).mono (by decide)) rfl
  · exact (dropMCmd_Frame ..).mono (by decide)

theorem writeAgain_Frame (s : State) (x : MCmd) : Frame [.nextId, .mcmds, .destages, .budget, .pools] s (writeAgain s x) :=
  .ite ((modMCmd_Frame ..).mono (by decide)) (renew_Frame ..)

theorem timedOut_Frame (s : State) (x : MCmd) :
    Frame (rowAnd [.freeIx, .cmds, .replays, .maints, .cfg, .vols, .members, .cache, .tests]) s (timedOut s x) :=
  (countTimeout_Frame ..).on (.ite ((dropRead_Frame ..).mono (by decide)) ((writeAgain_Frame ..).mono (by decide))) rfl

theorem applyCompletion_Frame (s : State) (x : MCmd) (st : NvmeStatus) (data : Mem) :
    Frame (rowAnd [.freeIx, .cmds, .replays, .maints, .cfg, .vols, .members, .cache, .tests]) s (applyCompletion s x st data) := by
  unfold applyCompletion
  dsimp only
  split
  · refine .ite ?_ ?_
    · exact (readData_Frame ..).on ((dropMCmd_Frame ..).on ((memberGood_Frame ..).mono (by decide)) rfl) rfl
    · refine .ite ?_ ?_
      · exact (launch_Frame ..).on ((dropMCmd_Frame ..).on ((memberGood_Frame ..).mono (by decide)) rfl) rfl
      · exact (writeDone_Frame ..).on ((dropMCmd_Frame ..).on ((memberGood_Frame ..).mono (by decide)) rfl) rfl
  · exact declareFailed_Frame ..
  · refine .ite (declareFailed_Frame ..) ?_
    refine .ite ((timedOut_Frame ..).on ((fault0_Frame ..).mono (by decide)) rfl) ?_
    split
    · exact (strikeFetch_Frame ..).on ((dropMCmd_Frame ..).mono (by decide)) rfl
    · exact (dropRead_Frame ..).mono (by decide)
  · exact .ite (timedOut_Frame ..) ((modMCmd_Frame ..).mono (by decide))
  · exact (timedOut_Frame ..).on ((fault0_Frame ..).mono (by decide)) rfl
  · exact .ite (.refl ..) (.ite (timedOut_Frame ..) ((relaunch_Frame ..).mono (by decide)))

theorem readErrorLog_Frame (s : State) (m : Nat) (st : NvmeStatus) : Frame [] s (readErrorLog s m st) :=
  .ite (emit_Frame ..) (.refl ..)

theorem execMemberCommandCompletion_Framed (m : Nat) (st : NvmeStatus) (data : Mem) (s : State) :
    Framed (tenantAnd [.freeIx, .replays, .cfg, .members, .tests]) s (execMemberCommandCompletion m st data s) := by
  unfold execMemberCommandCompletion
  split
  · exact .stays
  · refine .ite .stays ?_
    refine .done ?_
    refine (maintProgress_Frame ..).on ((relaunchMember_Frame ..).on ((applyCompletion_Frame ..).on ?_ rfl) rfl) rfl
    exact (readErrorLog_Frame ..).mono (by decide)

theorem execMemberCommandTimeout_Framed (m : Nat) (s : State) :
    Framed (tenantAnd [.freeIx, .replays, .cfg, .members, .tests]) s (execMemberCommandTimeout m s) := by
  unfold execMemberCommandTimeout
  split
  · exact .stays
  · exact .ite (.done ((maintProgress_Frame ..).on ((timedOut_Frame ..).mono (by decide)) rfl)) .stays

theorem lateRead_Frame (s : State) (x : MCmd) : Frame [.mcmds, .members, .jet] s (lateRead s x) := by
  unfold lateRead
  refine .ite ?_ ?_
  · exact (jetInfo_Frame ..).on ((modMember_Frame ..).on ((modMCmd_Frame ..).mono (by decide)) rfl) rfl
  · exact (modMember_Frame ..).on ((modMCmd_Frame ..).mono (by decide)) rfl

theorem execReadDeadline_Framed (m : Nat) (s : State) :
    Framed (rowAnd [.freeIx, .cmds, .maints, .vols, .members, .cache, .tests]) s (execReadDeadline m s) := by
  unfold execReadDeadline
  split
  · exact .stays
  · refine .ite .stays ?_
    split
    · exact .done ((strikeFetch_Frame ..).on ((lateRead_Frame ..).mono (by decide)) rfl)
    · exact .done ((lateRead_Frame ..).mono (by decide))

theorem execMemberReachTimeout_Framed (member : Nat) (s : State) :
    Framed (tenantAnd [.freeIx, .replays, .cfg, .members, .tests]) s (execMemberReachTimeout member s) :=
  .ite (.done ((maintProgress_Frame ..).on ((declareFailed_Frame ..).mono (by decide)) rfl)) .stays

theorem execSmartLogPoll_Framed (member : Nat) (warning : Byte) (s : State) :
    Framed (tenantAnd [.freeIx, .replays, .cfg, .members, .tests]) s (execSmartLogPoll member warning s) := by
  unfold execSmartLogPoll
  refine .ite .stays ?_
  refine .done ?_
  refine .ite ?_ ((memberGood_Frame ..).on ((emit_Frame ..).mono (by decide)) rfl)
  exact (maintProgress_Frame ..).on ((declareFailed_Frame ..).on ((memberGood_Frame ..).on ((emit_Frame ..).mono (by decide)) rfl) rfl)
      rfl

theorem execMemberReissue_Framed (m : Nat) (s : State) : Framed [.mcmds, .budget] s (execMemberReissue m s) := by
  unfold execMemberReissue
  split
  exacts [.stays, .ite (.done (relaunch_Frame ..)) .stays]

theorem sendSetup_Frame (s : State) (m tile : Nat) (admin : Bool) (port : Nat) (l : List SetupMsg) :
    Frame [] s (sendSetup s m tile admin port l) := emits_Frame ..

theorem setupStep_Frame (s : State) (m tile pool : Nat) (admin : Bool) (q : Queue) (step : QueueStep) :
    Frame (faultAnd [.mcmds, .budget, .members]) s (setupStep s m tile pool admin q step) := by
  unfold setupStep
  split
  · exact .refl ..
  · refine .ite (.refl ..) ?_
    refine .ite ?_ ?_
    · exact (sendSetup_Frame ..).on ((modMember_Frame ..).on ((modQueue_Frame ..).mono (by decide)) rfl) rfl
    · exact (fault0_Frame ..).on ((dropQueue_Frame ..).on ((modMember_Frame ..).mono (by decide)) rfl) rfl
  · refine .ite (.refl ..) ?_
    refine .ite ((dropQueue_Frame ..).mono (by decide)) ?_
    refine .ite ?_ ?_
    · refine (sendSetup_Frame ..).on ?_ rfl
      exact .ite ((modMember_Frame ..).on ((modQueue_Frame ..).mono (by decide)) rfl) ((modQueue_Frame ..).mono (by decide))
    · refine (connected_Frame ..).on ?_ rfl
      exact .ite ((modMember_Frame ..).on ((modQueue_Frame ..).mono (by decide)) rfl) ((modQueue_Frame ..).mono (by decide))
  · refine .ite (.refl ..) ?_
    exact .ite ((sendSetup_Frame ..).on ((modQueue_Frame ..).mono (by decide)) rfl) ((sendSetup_Frame ..).mono (by decide))
  · exact .ite ((connected_Frame ..).on ((modMember_Frame ..).mono (by decide)) rfl) (.refl ..)

theorem execMemberQueueSetup_Framed (member tile : Nat) (admin : Bool) (step : QueueStep) (s : State) :
    Framed (faultAnd [.mcmds, .budget, .members]) s (execMemberQueueSetup member tile admin step s) := by
  unfold execMemberQueueSetup
  split
  · exact .stays
  · refine .ite .stays ?_
    dsimp only
    split
    · exact .done ((sendSetup_Frame ..).on ((modMember_Frame ..).mono (by decide)) rfl)
    · exact .ite .stays (.done (setupStep_Frame ..))
    · exact .stays

theorem execKeepAlive_Framed (member : Nat) (s : State) : Framed [.members] s (execKeepAlive member s) :=
  .ite (.done ((memberGood_Frame ..).on ((emit_Frame ..).on (modMember_Frame ..) rfl) rfl)) .stays

theorem breakQueue_Frame (s : State) (m tile : Nat) (admin : Bool) :
    Frame [.mcmds, .budget, .members, .jet] s (breakQueue s m tile admin) :=
  .fold ((jetInfo_Frame ..).on ((modQueue_Frame ..).mono (by decide)) rfl) fun _ _ => (reissue_Frame ..).mono (by decide)

theorem execMemberQueueBreak_Framed (member tile : Nat) (admin : Bool) (_cause : BreakCause) (s : State) :
    Framed [.mcmds, .budget, .members, .jet] s (execMemberQueueBreak member tile admin _cause s) := by
  unfold execMemberQueueBreak
  split
  exacts [.ite (.done (breakQueue_Frame ..)) .stays, .stays]

theorem execMemberReconnectAttempt_Framed (member tile : Nat) (ok : Bool) (s : State) :
    Framed [.mcmds, .budget, .members, .jet] s (execMemberReconnectAttempt member tile ok s) := by
  unfold execMemberReconnectAttempt
  dsimp only
  split
  · refine .ite .stays ?_
    split
    · exact .stays
    · refine .ite ?_ ?_
      · exact .done ((jetInfo_Frame ..).on ((connected_Frame ..).on ((sendSetup_Frame ..).mono (by decide)) rfl) rfl)
      · exact .done ((modQueue_Frame ..).on ((sendSetup_Frame ..).mono (by decide)) rfl)
  · exact .stays

theorem execPoolInitComplete_Framed (pool : Nat) (s : State) : Framed [.pools] s (execPoolInitComplete pool s) :=
  .ite (.done (modPool_Frame ..)) .stays

theorem execExtentZeroingComplete_Framed (pool extent : Nat) (s : State) :
    Framed [.pools] s (execExtentZeroingComplete pool extent s) := .ite (.done (modPool_Frame ..)) .stays

theorem beginTestRow_Frame (s : State) (pool : Nat) (t : Test) :
    Frame (faultAnd [.nextId, .mcmds, .fetches, .budget, .pools, .tests]) s (beginTestRow s pool t) :=
  (startFetch_Frame ..).on ((setTest_Frame ..).on ((modPool_Frame ..).mono (by decide)) rfl) rfl

theorem sendVerify_Frame (s : State) (pool port : Nat) : Frame [.mcmds, .budget] s (sendVerify s pool port) := by
  unfold sendVerify
  split
  exacts [sendTurn_Frame .., .refl ..]

theorem execSelftestCommandIssue_Framed (pool port : Nat) (s : State) :
    Framed (rowAnd [.tests]) s (execSelftestCommandIssue pool port s) := by
  unfold execSelftestCommandIssue
  refine .ite .stays ?_
  refine .ite (.done ((sendVerify_Frame ..).mono (by decide))) ?_
  refine .ite .stays ?_
  exact .ite (.done (testNext_Frame ..)) (.done ((sendVerify_Frame ..).on ((beginTestRow_Frame ..).mono (by decide)) rfl))

end Sys2Proof.Machine
end

section
/-! PROOFS. Frames: the transport. -/

namespace Sys2Proof.Machine

theorem tally_Frame (s : State) (tile kind : Nat) : Frame [.sbt] s (tally s tile kind) := modSbt_Frame ..

theorem sendAck_Frame (s : State) (id : W32) : Frame [.sbt] s (sendAck s id) := by
  unfold sendAck
  split
  exacts [emitPkt_Frame .., .refl ..]

theorem sendStatus_Frame (s : State) (id : W32) (tag : BitVec 16) (st : Status) : Frame [.sbt] s (sendStatus s id tag st) :=
  sbtSend_Frame ..

theorem sendCredit_Frame (s : State) (id : W32) (limit reason : Nat) : Frame [.sbt] s (sendCredit s id limit reason) := by
  unfold sendCredit
  split
  exacts [.refl .., (modConn_Frame ..).on (sbtSend_Frame ..) rfl]

theorem pumpCmds_Frame (s : State) (id : W32) : Frame [.nextId, .cmds] s (pumpCmds s id) :=
  .fold (.refl ..) fun _ _ => .ite (forwardCmd_Frame ..) (.refl ..)

theorem dropPart_Frame (s : State) (c : Cmd) (i : Nat) (p : RowPart) :
    Frame [.tiles, .cmds, .mcmds, .fetches, .pools, .partners] s (dropPart s c i p) := by
  unfold dropPart
  refine .ite (.refl ..) ?_
  refine (modPart_Frame ..).on ?_ rfl
  split
  · exact (retireIntent_Frame ..).on (.fold (.refl ..) fun _ _ => (endFetch_Frame ..).mono (by decide)) rfl
  · exact .fold (.refl ..) fun _ _ => (endFetch_Frame ..).mono (by decide)

theorem endStarted_Frame (s : State) (c : Cmd) (answer : Bool) :
    Frame [.tiles, .cmds, .mcmds, .fetches, .pools, .vols, .partners] s (endStarted s c answer) := by
  unfold endStarted
  dsimp only
  split
  · refine .ite ?_ ?_
    · refine (settleCmd_Frame ..).on ?_ rfl
      refine .ite ?_ ((modCmd_Frame ..).mono (by decide))
      refine .fold ((modCmd_Frame ..).mono (by decide)) fun _ _ => ?_
      split
      exacts [(dropPart_Frame ..).mono (by decide), .refl ..]
    · refine .ite ?_ ?_
      · exact (modCmd_Frame ..).on (.fold (.refl ..) fun _ _ => (endFetch_Frame ..).mono (by decide)) rfl
      · exact (removeCmd_Frame ..).on (.fold (.refl ..) fun _ _ => (endFetch_Frame ..).mono (by decide)) rfl
  · refine .ite ?_ ?_
    · exact (modCmd_Frame ..).on ((stampWrite_Frame ..).mono (by decide)) rfl
    · exact (removeCmd_Frame ..).on ((stampWrite_Frame ..).mono (by decide)) rfl
  · exact .ite ((modCmd_Frame ..).mono (by decide)) ((removeCmd_Frame ..).mono (by decide))

theorem endCmds_Frame (s : State) (id : W32) :
    Frame [.tiles, .cmds, .mcmds, .fetches, .pools, .vols, .partners] s (endCmds s id) := by
  unfold endCmds
  refine .fold (.refl ..) fun _ _ => ?_
  refine .ite ((modCmd_Frame ..).mono (by decide)) ?_
  split
  · exact (dropCmd_Frame ..).mono (by decide)
  · exact (dropCmd_Frame ..).mono (by decide)
  · exact endStarted_Frame ..

theorem sweepMute_Frame (s : State) : Frame [.tiles, .cmds] s (sweepMute s) := .fold (.refl ..) fun _ _ => removeCmd_Frame ..

theorem freeConn_Frame (s : State) (c : Conn) : Frame [.sbt] s (freeConn s c) := modSbt_Frame ..

theorem closeConn_Frame (s : State) (id : W32) (reason : Nat) :
    Frame [.tiles, .cmds, .mcmds, .fetches, .pools, .vols, .sbt, .partners] s (closeConn s id reason) := by
  unfold closeConn
  split
  · exact .refl ..
  · refine .ite (.refl ..) ?_
    exact (sbtSend_Frame ..).on ((sweepMute_Frame ..).on ((endCmds_Frame ..).on ((modConn_Frame ..).mono (by decide)) rfl) rfl) rfl

theorem protocolError_Frame (s : State) (id : W32) :
    Frame [.tiles, .cmds, .mcmds, .fetches, .pools, .vols, .sbt, .partners, .jet] s (protocolError s id) := by
  unfold protocolError
  split
  exacts [.refl .., (jetInfo_Frame ..).on ((closeConn_Frame ..).mono (by decide)) rfl]

theorem loseConn_Frame (s : State) (c : Conn) :
    Frame [.tiles, .cmds, .mcmds, .fetches, .pools, .vols, .sbt, .partners] s (loseConn s c) :=
  (freeConn_Frame ..).on ((sweepMute_Frame ..).on ((endCmds_Frame ..).on ((modConn_Frame ..).mono (by decide)) rfl) rfl) rfl

theorem sendSlow_Frame (s : State) (id : W32) (reason target grace duration : Nat) :
    Frame [.sbt, .jet] s (sendSlow s id reason target grace duration) := by
  unfold sendSlow
  split
  · exact .refl ..
  · exact (jetInfo_Frame ..).on ((sbtSend_Frame ..).on ((modConn_Frame ..).mono (by decide)) rfl) rfl

theorem enforceConn_Frame (s : State) (id : W32) : Frame [.sbt, .jet] s (enforceConn s id) := by
  unfold enforceConn
  split
  · exact .refl ..
  · dsimp only
    split
    · refine .ite ?_ ?_
      · refine .ite ?_ ?_
        · split
          · refine .ite ?_ ?_
            · refine (sendCredit_Frame ..).on ((modConn_Frame ..).on ((modConn_Frame ..).on ?_ rfl) rfl) rfl
              exact (modConn_Frame ..).mono (by decide)
            · exact (modConn_Frame ..).on ((modConn_Frame ..).on ((modConn_Frame ..).mono (by decide)) rfl) rfl
          · exact (modConn_Frame ..).on ((modConn_Frame ..).on ((modConn_Frame ..).mono (by decide)) rfl) rfl
        · refine (jetInfo_Frame ..).on ((sendCredit_Frame ..).on ((modConn_Frame ..).on ((modConn_Frame ..).on ?_ rfl) rfl) rfl) rfl
          exact (modConn_Frame ..).mono (by decide)
      · split
        · exact (modConn_Frame ..).on ((modConn_Frame ..).mono (by decide)) rfl
        · exact (modConn_Frame ..).mono (by decide)
    · split
      · exact (modConn_Frame ..).mono (by decide)
      · refine .ite ?_ ((modConn_Frame ..).on ((modConn_Frame ..).mono (by decide)) rfl)
        refine .ite ?_ ?_
        · exact (sendCredit_Frame ..).on ((modConn_Frame ..).on ((modConn_Frame ..).on ((modConn_Frame ..).mono (by decide)) rfl) rfl) rfl
        · split
          · refine .ite ?_ ?_
            · refine (sendCredit_Frame ..).on ((modConn_Frame ..).on ((modConn_Frame ..).on ?_ rfl) rfl) rfl
              exact (modConn_Frame ..).mono (by decide)
            · exact (modConn_Frame ..).on ((modConn_Frame ..).on ((modConn_Frame ..).mono (by decide)) rfl) rfl
          · exact (modConn_Frame ..).on ((modConn_Frame ..).on ((modConn_Frame ..).mono (by decide)) rfl) rfl

theorem resendPkt_Frame (s : State) (id : W32) (p : TxPkt) : Frame [.sbt] s (resendPkt s id p) := by
  unfold resendPkt
  split
  exacts [emitPkt_Frame .., .refl ..]

theorem processAck_Frame (s : State) (id : W32) (h : SbtHdr) : Frame [.sbt] s (processAck s id h) := by
  unfold processAck
  split
  · exact .refl ..
  · refine .ite (.refl ..) ?_
    refine .ite ((freeConn_Frame ..).on (modConn_Frame ..) rfl) ?_
    refine (pumpConn_Frame ..).on ?_ rfl
    exact .fold (.ite (modConn_Frame ..) ((modConn_Frame ..).on (modConn_Frame ..) rfl)) fun _ _ => resendPkt_Frame ..

theorem deliverCmd_Frame (s : State) (id : W32) (k : Conn) (o : BlockOp) (c : Capsule) :
    Frame [.nextId, .tiles, .cmds, .mcmds, .fetches, .pools, .vols, .sbt, .partners, .jet] s (deliverCmd s id k o c) := by
  unfold deliverCmd
  refine .ite ((sendStatus_Frame ..).mono (by decide)) ?_
  refine .ite ((protocolError_Frame ..).mono (by decide)) ?_
  refine .ite ((sendStatus_Frame ..).mono (by decide)) ?_
  exact (pumpCmds_Frame ..).on ((bump_Frame ..).on ((updCmds_Frame ..).mono (by decide)) rfl) rfl

theorem storeData_Frame (s : State) (c : Cmd) (offset : Nat) (data : Mem) (len : Nat) :
    Frame (faultAnd [.nextId, .tiles, .cmds, .mcmds, .fetches, .budget, .pools, .vols]) s (storeData s c offset data len) := by
  unfold storeData
  refine .fold ((modCmd_Frame ..).mono (by decide)) fun _ _ => ?_
  split
  exacts [.ite (advancePart_Frame ..) (.refl ..), .refl ..]

theorem deliverData_Frame (s : State) (id : W32) (k : Conn) (tag : BitVec 16) (offset : Nat) (payload : List Byte) :
    Frame (faultAnd [.nextId, .tiles, .cmds, .mcmds, .fetches, .budget, .pools, .vols, .sbt]) s (deliverData s id k tag offset payload)
        := by
  unfold deliverData
  refine .ite ((protocolError_Frame ..).mono (by decide)) ?_
  dsimp only
  split
  · exact (modConn_Frame ..).mono (by decide)
  · refine .ite ?_ ?_
    · exact (storeData_Frame ..).on ((modConn_Frame ..).mono (by decide)) rfl
    · exact (tallyConn_Frame ..).on ((modConn_Frame ..).mono (by decide)) rfl

theorem sendErrlog_Frame (s : State) (id : W32) (state kind page : Nat) : Frame [.sbt] s (sendErrlog s id state kind page) := by
  unfold sendErrlog
  split
  exacts [.refl .., sbtSend_Frame ..]

theorem settleConn_Frame (s : State) (id : W32) : Frame [.sbt] s (settleConn s id) := by
  unfold settleConn
  split
  exacts [.ite ((sendErrlog_Frame ..).on (modConn_Frame ..) rfl) (.refl ..), .refl ..]

theorem freezeWith_Frame (s : State) (id : W32) (k : Conn) (c : Cmd) (tag : BitVec 16) : Frame [.sbt, .jet] s
    (freezeWith s id k c tag).1 := by
  unfold freezeWith
  dsimp only
  split
  · exact (modConn_Frame ..).mono (by decide)
  · exact (jetInfo_Frame ..).on ((tallyConn_Frame ..).on ((modConn_Frame ..).mono (by decide)) rfl) rfl

theorem deliverResume_Frame (s : State) (id : W32) (k : Conn) (disposition : Byte) (freezeId : BitVec 16) :
    Frame [.nextId, .cmds, .sbt] s (deliverResume s id k disposition freezeId) := by
  unfold deliverResume
  refine .ite ?_ ((sendErrlog_Frame ..).mono (by decide))
  refine .ite ?_ ?_
  · exact (pumpCmds_Frame ..).on ((modConn_Frame ..).on ((sendErrlog_Frame ..).mono (by decide)) rfl) rfl
  · refine .fold ((modConn_Frame ..).on ((sendErrlog_Frame ..).mono (by decide)) rfl) fun _ _ => ?_
    split
    exacts [(sendStatus_Frame ..).on ((dropCmd_Frame ..).mono (by decide)) rfl, .refl ..]

theorem deliverAbort_Frame (s : State) (id : W32) (tag : BitVec 16) :
    Frame [.nextId, .tiles, .cmds, .mcmds, .fetches, .pools, .vols, .sbt, .partners] s (deliverAbort s id tag) := by
  unfold deliverAbort
  dsimp only
  split
  · exact (sbtSend_Frame ..).mono (by decide)
  · refine (settleConn_Frame ..).on ((pumpCmds_Frame ..).on ?_ rfl) rfl
    split
    · exact (sbtSend_Frame ..).on ((dropCmd_Frame ..).mono (by decide)) rfl
    · exact (sbtSend_Frame ..).on ((dropCmd_Frame ..).mono (by decide)) rfl
    · exact (modConn_Frame ..).mono (by decide)
    · exact (modConn_Frame ..).mono (by decide)
    · exact (endStarted_Frame ..).on ((modConn_Frame ..).mono (by decide)) rfl

theorem deliver_Frame (s : State) (id : W32) (b : RxBody) :
    Frame (faultAnd [.nextId, .tiles, .cmds, .mcmds, .fetches, .budget, .pools, .vols, .sbt]) s (deliver s id b) := by
  unfold deliver
  split
  · exact .refl ..
  · split
    · exact (closeConn_Frame ..).mono (by decide)
    · exact .ite ((deliverCmd_Frame ..).mono (by decide)) (.refl ..)
    · exact .ite (deliverData_Frame ..) (.refl ..)
    · exact .ite ((deliverAbort_Frame ..).mono (by decide)) (.refl ..)
    · exact .ite ((sendErrlog_Frame ..).mono (by decide)) (.refl ..)
    · exact .ite ((deliverResume_Frame ..).mono (by decide)) (.refl ..)

/-- The packets kept behind a gap, delivered in turn. -/
theorem deliverAll_Frame (n : Nat) (s : State) (id : W32) : Frame
    (faultAnd [.nextId, .tiles, .cmds, .mcmds, .fetches, .budget, .pools, .vols, .sbt])
    s (deliverAll n s id) := by
  induction n generalizing s with
  | zero => exact .refl ..
  | succ n ih =>
    unfold deliverAll
    split
    · exact .refl ..
    · split
      · exact .refl ..
      · exact .trans ((deliver_Frame ..).on ((modConn_Frame ..).mono (by decide)) rfl) (ih _)

theorem receive_Frame (s : State) (id : W32) (h : SbtHdr) (b : RxBody) :
    Frame (faultAnd [.nextId, .tiles, .cmds, .mcmds, .fetches, .budget, .pools, .vols, .sbt]) s (receive s id h b) := by
  unfold receive
  dsimp only
  split
  · exact (processAck_Frame ..).mono (by decide)
  · refine .ite ?_ ?_
    · exact (sendAck_Frame ..).on ((processAck_Frame ..).mono (by decide)) rfl
    · refine .ite ((processAck_Frame ..).mono (by decide)) ?_
      refine .ite ?_ ?_
      · refine (sendAck_Frame ..).on ((modConn_Frame ..).on ?_ rfl) rfl
        refine .ite ?_ ?_
        · refine (tallyConn_Frame ..).on ?_ rfl
          refine .ite ((processAck_Frame ..).mono (by decide)) ?_
          exact (sendAck_Frame ..).on ((processAck_Frame ..).mono (by decide)) rfl
        · refine .ite ((processAck_Frame ..).mono (by decide)) ?_
          exact (sendAck_Frame ..).on ((processAck_Frame ..).mono (by decide)) rfl
      · split
        · refine .ite ?_ ?_
          · refine (sendAck_Frame ..).on ((deliverAll_Frame ..).on ((modConn_Frame ..).on ((modConn_Frame ..).on ?_ rfl) rfl) rfl) rfl
            refine .ite ?_ ?_
            · refine (tallyConn_Frame ..).on ?_ rfl
              refine .ite ((processAck_Frame ..).mono (by decide)) ?_
              exact (sendAck_Frame ..).on ((processAck_Frame ..).mono (by decide)) rfl
            · refine .ite ((processAck_Frame ..).mono (by decide)) ?_
              exact (sendAck_Frame ..).on ((processAck_Frame ..).mono (by decide)) rfl
          · refine (deliverAll_Frame ..).on ((modConn_Frame ..).on ((modConn_Frame ..).on ?_ rfl) rfl) rfl
            refine .ite ?_ ?_
            · refine (tallyConn_Frame ..).on ?_ rfl
              refine .ite ((processAck_Frame ..).mono (by decide)) ?_
              exact (sendAck_Frame ..).on ((processAck_Frame ..).mono (by decide)) rfl
            · refine .ite ((processAck_Frame ..).mono (by decide)) ?_
              exact (sendAck_Frame ..).on ((processAck_Frame ..).mono (by decide)) rfl
        · refine (deliverAll_Frame ..).on ((modConn_Frame ..).on ((modConn_Frame ..).on ?_ rfl) rfl) rfl
          refine .ite ?_ ?_
          · refine (tallyConn_Frame ..).on ?_ rfl
            refine .ite ((processAck_Frame ..).mono (by decide)) ?_
            exact (sendAck_Frame ..).on ((processAck_Frame ..).mono (by decide)) rfl
          · refine .ite ((processAck_Frame ..).mono (by decide)) ?_
            exact (sendAck_Frame ..).on ((processAck_Frame ..).mono (by decide)) rfl

theorem discardPkt_Frame (s : State) (port cause : Nat) : Frame [.sbt] s (discardPkt s port cause) := tally_Frame ..

theorem unknownPacket_Frame (s : State) (h : SbtHdr) (isClose5 : Bool) : Frame [.sbt, .jet] s (unknownPacket s h isClose5) := by
  obtain ⟨u, rate, jt, hu, he⟩ := unknownPacket_eq s h isClose5
  have hc : Frame [.sbt, .jet] s u := by
    subst hu
    exact .of_overlay rfl
  rw [he]
  exact .ite hc ((emit_Frame ..).on ((modSbt_Frame ..).on hc rfl) rfl)

/-- A packet keeps what its effect keeps, besides the counts. -/
theorem enterPkt_Framed {l : List Piece} {s : State} {h : SbtHdr} {type len : Nat} {any : Bool} {f : State → State}
    (hl : [.sbt, .links] ⊆ l) (hf : ∀ u, Frame l u (f u)) : Framed l s (enterPkt s h type len any f) := by
  have hs : [.sbt] ⊆ l := List.Subset.trans (by decide) hl
  have hk : [.links] ⊆ l := List.Subset.trans (by decide) hl
  have hc : Frame l s (counted s h) := (counted_Frame s h).mono hl
  unfold enterPkt
  refine .ite .stays ?_
  split
  · exact .done ((dropFrame_Frame ..).mono hk)
  · exact .ite (.done (hc.trans ((discardPkt_Frame ..).mono hs)))
      (.ite (.done (hc.trans ((discardPkt_Frame ..).mono hs))) (.done (hc.trans (hf _))))

theorem arrive_Framed {l : List Piece} {s : State} {h : SbtHdr} {type len : Nat} {f : State → State}
    (hl : [.sbt, .links, .jet] ⊆ l) (hf : ∀ u, Frame l u (f u)) : Framed l s (arrive s h type len f) :=
  enterPkt_Framed (List.Subset.trans (by decide) hl)
    fun _ => .ite ((unknownPacket_Frame ..).mono (List.Subset.trans (by decide) hl)) (hf _)

theorem arriveSeq_Framed (s : State) (h : SbtHdr) (type len : Nat) (b : RxBody) :
    Framed (tenantAnd [.sbt]) s (arriveSeq s h type len b) :=
  arrive_Framed (by decide) fun _ => (maintProgress_Frame ..).on ((receive_Frame ..).mono (by decide)) rfl

theorem arriveCmd_Framed (s : State) (h : SbtHdr) (o : BlockOp) (c : Capsule) : Framed (tenantAnd [.sbt]) s (arriveCmd s h o c) :=
  .ite .stays (arriveSeq_Framed ..)

theorem execRead_Framed (h : SbtHdr) (c : Capsule) (s : State) : Framed (tenantAnd [.sbt]) s (execRead h c s) :=
  arriveCmd_Framed ..

theorem execWrite_Framed (h : SbtHdr) (c : Capsule) (s : State) : Framed (tenantAnd [.sbt]) s (execWrite h c s) :=
  arriveCmd_Framed ..

theorem execFlush_Framed (h : SbtHdr) (c : Capsule) (s : State) : Framed (tenantAnd [.sbt]) s (execFlush h c s) :=
  arriveCmd_Framed ..

theorem execWriteZeroes_Framed (h : SbtHdr) (c : Capsule) (s : State) : Framed (tenantAnd [.sbt]) s (execWriteZeroes h c s) :=
  arriveCmd_Framed ..

theorem execDeallocate_Framed (h : SbtHdr) (c : Capsule) (s : State) : Framed (tenantAnd [.sbt]) s (execDeallocate h c s) :=
  arriveCmd_Framed ..

theorem execVerify_Framed (h : SbtHdr) (c : Capsule) (s : State) : Framed (tenantAnd [.sbt]) s (execVerify h c s) :=
  arriveCmd_Framed ..

theorem execDataOut_Framed (h : SbtHdr) (tag : BitVec 16) (offset : W32) (ddgst : W32) (payload : List Byte) (s : State) :
    Framed (tenantAnd [.sbt]) s (execDataOut h tag offset ddgst payload s) :=
  .ite (arrive_Framed (by decide) fun _ => (tallyConn_Frame ..).mono (by decide)) (arriveSeq_Framed ..)

theorem execAbort_Framed (h : SbtHdr) (tag : BitVec 16) (s : State) : Framed (tenantAnd [.sbt]) s (execAbort h tag s) :=
  arriveSeq_Framed ..

theorem execErrlogReq_Framed (h : SbtHdr) (kind : Byte) (page : BitVec 16) (s : State) :
    Framed (tenantAnd [.sbt]) s (execErrlogReq h kind page s) := arriveSeq_Framed ..

theorem execResume_Framed (h : SbtHdr) (disposition : Byte) (freezeId : BitVec 16) (s : State) :
    Framed (tenantAnd [.sbt]) s (execResume h disposition freezeId s) := arriveSeq_Framed ..

theorem execClose_Framed (h : SbtHdr) (reason : Byte) (s : State) : Framed (tenantAnd [.sbt]) s (execClose h reason s) :=
  .ite (enterPkt_Framed (by decide) fun _ => .ite ((unknownPacket_Frame ..).mono (by decide)) (.refl ..)) (arriveSeq_Framed ..)

theorem execAck_Framed (h : SbtHdr) (s : State) : Framed [.sbt, .links, .jet] s (execAck h s) :=
  arrive_Framed (by decide) fun _ => (processAck_Frame ..).mono (by decide)

theorem execSbtPacketDiscard_Framed (port : Nat) (cause : DiscardCause) (s : State) :
    Framed [.sbt] s (execSbtPacketDiscard port cause s) := .ite (.done (discardPkt_Frame ..)) .stays

theorem execUnknownConnectionPacket_Framed (h : SbtHdr) (isClose5 : Bool) (s : State) :
    Framed [.sbt, .links, .jet] s (execUnknownConnectionPacket h isClose5 s) :=
  enterPkt_Framed (by decide) fun _ => .ite ((unknownPacket_Frame ..).mono (by decide)) (.refl ..)

theorem openConn_Frame (s : State) (c : Conn) : Frame [.sbt, .jet] s (openConn s c) := by
  unfold openConn
  refine .ite ?_ ((sbtSend_Frame ..).on ((modSbt_Frame ..).mono (by decide)) rfl)
  exact (sendSlow_Frame ..).on ((sbtSend_Frame ..).on ((modSbt_Frame ..).mono (by decide)) rfl) rfl

theorem connectTaken_Frame (s : State) (h : SbtHdr) (b : ConnectBody) : Frame [.freeIx, .sbt, .jet] s (connectTaken s h b) := by
  unfold connectTaken
  dsimp only
  split
  · exact (emitPkt_Frame ..).mono (by decide)
  · exact (emit_Frame ..).mono (by decide)
  · split
    · exact (openConn_Frame ..).on ((drawn_Frame ..).mono (by decide)) rfl
    · exact (emit_Frame ..).on ((tally_Frame ..).on ((modSbt_Frame ..).on ((drawn_Frame ..).mono (by decide)) rfl) rfl) rfl

theorem execConnect_Framed (h : SbtHdr) (b : ConnectBody) (s : State) :
    Framed [.freeIx, .sbt, .links, .jet] s (execConnect h b s) :=
  enterPkt_Framed (by decide) fun _ => (connectTaken_Frame ..).mono (by decide)

theorem execRefusalRetentionExpiry_Framed (addr : BitVec 128) (udp : BitVec 16) (tenantConn seq : W32) (s : State) :
    Framed [.sbt] s (execRefusalRetentionExpiry addr udp tenantConn seq s) := .ite (.done (modSbt_Frame ..)) .stays

theorem execIndexReuse_Framed (tile index : Nat) (s : State) : Framed [.sbt] s (execIndexReuse tile index s) :=
  .ite (.done (modSbt_Frame ..)) .stays

theorem execDelayedAck_Framed (conn : W32) (s : State) : Framed [.sbt] s (execDelayedAck conn s) := by
  unfold execDelayedAck
  split
  exacts [.ite (.done (sendAck_Frame ..)) .stays, .stays]

theorem execRetransmitTimeout_Framed (conn : W32) (seq : W32) (s : State) :
    Framed [.sbt] s (execRetransmitTimeout conn seq s) := by
  unfold execRetransmitTimeout
  split
  · exact .stays
  · split
    exacts [.stays, .done ((resendPkt_Frame ..).on ((tallyConn_Frame ..).on (modConn_Frame ..) rfl) rfl)]

theorem execConnectionLoss_Framed (conn : W32) (s : State) : Framed (tenantAnd [.sbt]) s (execConnectionLoss conn s) := by
  unfold execConnectionLoss
  split
  · exact .stays
  · refine .ite .stays ?_
    refine .ite (.done ((freeConn_Frame ..).mono (by decide))) ?_
    exact .done ((maintProgress_Frame ..).on ((jetInfo_Frame ..).on ((loseConn_Frame ..).mono (by decide)) rfl) rfl)

theorem execCreditProbe_Framed (conn : W32) (s : State) : Framed [.sbt] s (execCreditProbe conn s) := by
  unfold execCreditProbe
  split
  exacts [.ite (.done (sbtSend_Frame ..)) .stays, .stays]

theorem execXferRdy_Framed (id : Nat) (offset length : Nat) (s : State) :
    Framed [.cmds, .sbt] s (execXferRdy id offset length s) := by
  unfold execXferRdy
  split
  · exact .stays
  · split
    · split
      · exact .stays
      · exact .ite .stays (.done ((sbtSend_Frame ..).on ((modConn_Frame ..).on ((modCmd_Frame ..).mono (by decide)) rfl) rfl))
    · exact .stays

theorem sendDataIn_Frame (n : Nat) (s : State) (id : W32) (tag : BitVec 16) (c : Cmd) : Frame [.cmds, .sbt] s (sendDataIn n s id tag c)
    := by
  induction n generalizing s c with
  | zero => exact .refl ..
  | succ n ih =>
    unfold sendDataIn
    split
    · exact .refl ..
    · exact .ite (.refl ..) (.trans ((modCmd_Frame ..).on ((modConn_Frame ..).on ((sbtSend_Frame ..).mono (by decide)) rfl) rfl) (ih ..))

theorem respond_Frame (s : State) (id : W32) (k : Conn) (tag : BitVec 16) (c : Cmd) :
    Frame [.nextId, .tiles, .cmds, .sbt, .jet] s (respond s id k tag c) := by
  unfold respond
  dsimp only
  have hf : Frame [.nextId, .tiles, .cmds, .sbt, .jet] s (if (decide (0x0040 ≤ c.status.toNat) && decide (c.status.toNat ≤ 0x0044)) = true
      then freezeWith s id k c tag else (s, 0)).1 := by
    split
    exacts [(freezeWith_Frame ..).mono (by decide), .refl ..]
  refine (settleConn_Frame ..).on ((pumpCmds_Frame ..).on ?_ rfl) rfl
  exact .fold ((modConn_Frame ..).on ((removeCmd_Frame ..).on ((sbtSend_Frame ..).on hf rfl) rfl) rfl) fun _ _ =>
      (sbtSend_Frame ..).mono (by decide)

theorem completeSbt_Frame (s : State) (id : W32) (tag : BitVec 16) (c : Cmd) :
    Frame [.nextId, .tiles, .cmds, .sbt, .jet] s (completeSbt s id tag c) := by
  unfold completeSbt
  split
  · exact (removeCmd_Frame ..).mono (by decide)
  · refine .ite ?_ ?_
    · refine (settleConn_Frame ..).on ((pumpCmds_Frame ..).on ((modConn_Frame ..).on ((sbtSend_Frame ..).on ?_ rfl) rfl) rfl) rfl
      exact (removeCmd_Frame ..).mono (by decide)
    · dsimp only
      split
      · exact .ite ((sendDataIn_Frame ..).mono (by decide)) (.refl ..)
      · refine .ite (.ite ((sendDataIn_Frame ..).mono (by decide)) (.refl ..)) ?_
        exact (respond_Frame ..).on (.ite ((sendDataIn_Frame ..).mono (by decide)) (.refl ..)) rfl

theorem execSbtConfig_Framed (g : Go) (udpPort credit lossMs : Nat) (s : State) :
    Framed [.nextId, .cfg, .mbx] s (execSbtConfig g udpPort credit lossMs s) :=
  mbxRun_Framed (by decide) fun _ => (mbxStore_Frame ..).on ((updCfg_Frame ..).mono (by decide)) rfl

theorem execSbtTenantSet_Framed (g : Go) (index : Nat) (tenantId : BitVec 128) (ranges : List (Nat × Nat)) (s : State) :
    Framed [.nextId, .cfg, .mbx] s (execSbtTenantSet g index tenantId ranges s) :=
  mbxRun_Framed (by decide) fun _ => (mbxStore_Frame ..).on ((updCfg_Frame ..).mono (by decide)) rfl

theorem execSbtTenantRemove_Framed (g : Go) (index : Nat) (_tenantId : BitVec 128) (ranges : List (Nat × Nat)) (s : State) :
    Framed [.nextId, .cfg, .mbx] s (execSbtTenantRemove g index _tenantId ranges s) :=
  mbxRun_Framed (by decide) fun _ => (mbxStore_Frame ..).on ((updCfg_Frame ..).mono (by decide)) rfl

theorem execSbtConnList_Framed (g : Go) (tile : Nat) (buf : SegDesc) (s : State) :
    Framed [.nextId, .pcie, .mbx] s (execSbtConnList g tile buf s) :=
  mbxRun_Framed (by decide) fun _ => (mbxOk_Frame ..).on ((writeBuf_Frame ..).mono (by decide)) rfl

theorem execSbtConnClose_Framed (g : Go) (conn : W32) (s : State) :
    Framed [.nextId, .tiles, .cmds, .mcmds, .fetches, .pools, .vols, .sbt, .partners, .mbx] s (execSbtConnClose g conn s) :=
  mbxRun_Framed (by decide) fun _ => (mbxOk_Frame ..).on ((closeConn_Frame ..).mono (by decide)) rfl

theorem hostSlow_Frame (s : State) (id : W32) (target grace duration : Nat) :
    Frame [.sbt, .jet] s (hostSlow s id target grace duration) := by
  unfold hostSlow
  dsimp only
  split
  · refine .ite ?_ ?_
    · exact (sendSlow_Frame ..).on ((modConn_Frame ..).mono (by decide)) rfl
    · exact (sendSlow_Frame ..).on ((modConn_Frame ..).mono (by decide)) rfl
  · exact (modConn_Frame ..).mono (by decide)

theorem execSbtThrottle_Framed (g : Go) (scope target : Nat) (ident : W32) (grace duration : Nat) (s : State) :
    Framed [.nextId, .sbt, .mbx, .jet] s (execSbtThrottle g scope target ident grace duration s) :=
  mbxRun_Framed (by decide) fun _ => (mbxOk_Frame ..).on (.fold (.refl ..) fun _ _ => (hostSlow_Frame ..).mono (by decide)) rfl

theorem execSbtStats_Framed (g : Go) (scope : Nat) (ident : W32) (buf : SegDesc) (s : State) :
    Framed [.nextId, .pcie, .mbx] s (execSbtStats g scope ident buf s) :=
  mbxRun_Framed (by decide) fun _ => (mbxOk_Frame ..).on ((writeBuf_Frame ..).mono (by decide)) rfl

end Sys2Proof.Machine
end

section
/-! PROOFS. Frames: the work rings. -/

namespace Sys2Proof.Machine

theorem publish_Frame (s : State) (n : Nat) : Frame [.pcie, .sqs] s (publish s n) :=
  (hostWrite_Frame ..).on ((modSq_Frame ..).mono (by decide)) rfl

theorem startScan_Frame (s : State) (n : Nat) : Frame [.pcie, .sqs] s (startScan s n) := by
  unfold startScan
  refine .ite (.refl ..) ?_
  refine .ite ((modSq_Frame ..).mono (by decide)) ?_
  exact .ite ((modSq_Frame ..).mono (by decide)) ((hostRead_Frame ..).on ((modSq_Frame ..).mono (by decide)) rfl)

theorem resumeScan_Frame (s : State) (n : Nat) : Frame [.pcie, .sqs] s (resumeScan s n) := .ite (startScan_Frame ..) (.refl ..)

theorem endScan_Frame (s : State) (n : Nat) : Frame [.pcie, .sqs] s (endScan s n) := by
  unfold endScan
  refine .ite ?_ ((publish_Frame ..).on ((modSq_Frame ..).mono (by decide)) rfl)
  exact (resumeScan_Frame ..).on ((publish_Frame ..).on ((modSq_Frame ..).mono (by decide)) rfl) rfl

theorem cqMessage_Frame (s : State) (n : Nat) : Frame [.cqs] s (cqMessage s n) := (sendMsg_Frame ..).on (modCq_Frame ..) rfl

theorem writeCqe_Frame (s : State) (n : Nat) (c : Cqe) : Frame [.pcie, .cqs] s (writeCqe s n c) := by
  unfold writeCqe
  dsimp only
  refine .ite ?_ ((modCq_Frame ..).on ((hostWrite_Frame ..).mono (by decide)) rfl)
  exact (cqMessage_Frame ..).on ((modCq_Frame ..).on ((hostWrite_Frame ..).mono (by decide)) rfl) rfl

theorem postCqe_Frame (s : State) (n : Nat) (c : Cqe) : Frame [.pcie, .cqs, .jet] s (postCqe s n c) := by
  unfold postCqe
  refine .ite ((writeCqe_Frame ..).mono (by decide)) ?_
  refine .ite ?_ ((modCq_Frame ..).mono (by decide))
  exact (jetInfo_Frame ..).on ((modCq_Frame ..).on ((modCq_Frame ..).mono (by decide)) rfl) rfl

theorem drainCq_Frame (f : Nat) (s : State) (n : Nat) : Frame [.pcie, .cqs] s (drainCq f s n) := by
  induction f generalizing s with
  | zero => exact .refl ..
  | succ f ih =>
    unfold drainCq
    dsimp only
    split
    · exact .ite (.refl ..) (.trans ((writeCqe_Frame ..).on ((modCq_Frame ..).mono (by decide)) rfl) (ih _))
    · exact .refl ..

theorem relieveCq_Frame (s : State) (n : Nat) : Frame [.pcie, .sqs, .cqs] s (relieveCq s n) := by
  unfold relieveCq
  refine .ite ?_ ((drainCq_Frame ..).mono (by decide))
  exact .fold ((modCq_Frame ..).on ((drainCq_Frame ..).mono (by decide)) rfl) fun _ _ => (resumeScan_Frame ..).mono (by decide)

theorem postAlone_Frame (s : State) (n cq : Nat) : Frame [.pcie, .cqs, .live, .jet] s (postAlone s n cq) := by
  unfold postAlone
  refine .fold (.refl ..) fun _ _ => ?_
  split
  exacts [.ite (.refl ..) ((postCqe_Frame ..).on ((modLive_Frame ..).mono (by decide)) rfl), .refl ..]

theorem postBatch_Frame (s : State) (n cq : Nat) (b : List Live × Bool × Bool) :
    Frame [.pcie, .cqs, .live, .jet] s (postBatch s n cq b) := by
  unfold postBatch
  dsimp only
  refine .ite (.refl ..) ?_
  split
  · exact (updLive_Frame ..).mono (by decide)
  · exact (postCqe_Frame ..).on ((updLive_Frame ..).mono (by decide)) rfl

theorem closeBatches_Frame (s : State) (n : Nat) : Frame [.pcie, .cqs, .live, .jet] s (closeBatches s n) := by
  unfold closeBatches
  split
  exacts [.refl .., .fold (postAlone_Frame ..) fun _ _ => postBatch_Frame ..]

theorem stopSq_Frame (s : State) (n : Nat) : Frame [.pcie, .sqs, .cqs, .live, .jet] s (stopSq s n) :=
  (closeBatches_Frame ..).on ((voidReqs_Frame ..).on ((modSq_Frame ..).mono (by decide)) rfl) rfl

theorem stopAtHead_Frame (s : State) (n : Nat) : Frame (faultAnd [.sqs, .cqs, .live]) s (stopAtHead s n) := by
  unfold stopAtHead
  split
  · refine .ite ?_ ?_
    · exact (fault0_Frame ..).on ((modSq_Frame ..).on ((stopSq_Frame ..).mono (by decide)) rfl) rfl
    · exact .ite ((fault0_Frame ..).on ((modSq_Frame ..).on ((stopSq_Frame ..).mono (by decide)) rfl) rfl) (.refl ..)
  · exact .refl ..

theorem takeEntry_Frame (s : State) (n : Nat) (e : Entry) : Frame (faultAnd [.sqs, .cqs, .live]) s (takeEntry s n e) := by
  unfold takeEntry
  refine .ite ?_ ?_
  · exact (stopAtHead_Frame ..).on ((publish_Frame ..).on ((modSq_Frame ..).mono (by decide)) rfl) rfl
  · dsimp only
    exact (startScan_Frame ..).on ((modSq_Frame ..).mono (by decide)) rfl

theorem gotHeader_Frame (s : State) (n : Nat) (b : List Byte) : Frame (faultAnd [.sqs, .cqs, .live]) s (gotHeader s n b) := by
  unfold gotHeader
  refine .ite (.refl ..) ?_
  refine .ite ((endScan_Frame ..).mono (by decide)) ?_
  refine .ite (takeEntry_Frame ..) ?_
  refine .ite ((modSq_Frame ..).mono (by decide)) ?_
  exact .ite (takeEntry_Frame ..) ((hostRead_Frame ..).on ((modSq_Frame ..).mono (by decide)) rfl)

theorem gotBody_Frame (s : State) (n base : Nat) (b : List Byte) :
    Frame (faultAnd [.sqs, .cqs, .live]) s (gotBody s n base b) := by
  unfold gotBody
  refine .ite (.refl ..) ?_
  refine .ite ((modSq_Frame ..).mono (by decide)) ?_
  exact (takeEntry_Frame ..).on ((modSq_Frame ..).on ((modSq_Frame ..).mono (by decide)) rfl) rfl

theorem dispatchNext_Frame (s : State) (n : Nat) :
    Frame (faultAnd [.nextId, .tiles, .sqs, .cqs, .live]) s (dispatchNext s n) := by
  unfold dispatchNext
  dsimp only
  split
  · exact .refl ..
  · refine (stopAtHead_Frame ..).on ?_ rfl
    refine (resumeScan_Frame ..).on ?_ rfl
    refine .ite ?_ ?_
    · refine .ite ?_ ?_
      · refine (publish_Frame ..).on ((modTile_Frame ..).on ((modSq_Frame ..).on ((bump_Frame ..).on ?_ rfl) rfl) rfl) rfl
        exact (updLive_Frame ..).mono (by decide)
      · exact (modTile_Frame ..).on ((modSq_Frame ..).on ((bump_Frame ..).on ((updLive_Frame ..).mono (by decide)) rfl) rfl) rfl
    · refine (closeBatches_Frame ..).on ?_ rfl
      refine .ite ?_ ?_
      · refine (publish_Frame ..).on ((modTile_Frame ..).on ((modSq_Frame ..).on ((bump_Frame ..).on ?_ rfl) rfl) rfl) rfl
        exact (updLive_Frame ..).mono (by decide)
      · exact (modTile_Frame ..).on ((modSq_Frame ..).on ((bump_Frame ..).on ((updLive_Frame ..).mono (by decide)) rfl) rfl) rfl

theorem dispatchBurst_Frame (f : Nat) (s : State) (n left : Nat) : Frame (faultAnd [.nextId, .tiles, .sqs, .cqs, .live]) s
    (dispatchBurst f s n left) := by
  induction f generalizing s left with
  | zero => exact .refl ..
  | succ f ih =>
    unfold dispatchBurst
    exact .ite (.refl ..) (.trans ((dispatchNext_Frame ..).mono (by decide)) (ih ..))

theorem arbPass_Frame {s u : State} {tile : Nat} (h : arbPass s tile = some u) : Frame (faultAnd [.nextId, .tiles, .sqs, .cqs, .live]) s
    u := by
  unfold arbPass at h
  dsimp only at h
  split at h
  · cases h
  · cases h
    exact (modTile_Frame ..).on (dispatchBurst_Frame ..) rfl

theorem refreshCredits_Frame (s : State) (tile : Nat) : Frame [.sqs] s (refreshCredits s tile) := updSqs_Frame ..

theorem execSqDispatch_Framed (tile : Nat) (s : State) :
    Framed (faultAnd [.nextId, .tiles, .sqs, .cqs, .live]) s (execSqDispatch tile s) := by
  unfold execSqDispatch
  refine .ite .stays ?_
  split
  next h => exact .done (arbPass_Frame h)
  next =>
    split
    next h => exact .done (.trans ((refreshCredits_Frame ..).mono (by decide)) (arbPass_Frame h))
    next => exact .stays

theorem execSqDb_Framed (fn sq : Nat) (s : State) : Framed [.pcie, .sqs] s (execSqDb fn sq s) :=
  .ite (.done (startScan_Frame ..)) .stays

theorem stagingWrite_Frame (s : State) (tile off len : Nat) (data : Mem) : Frame [.tiles] s (stagingWrite s tile off len data) :=
  modTier_Frame ..

theorem keepData_Frame (s : State) (id base len : Nat) (d : Mem) : Frame [.live] s (keepData s id base len d) := modLive_Frame ..

theorem fetchSources_Frame (s : State) (l : Live) : Frame [.pcie, .live] s (fetchSources s l) := by
  unfold fetchSources
  refine .fold (.refl ..) fun _ _ => ?_
  split
  · exact .refl ..
  · split
    exacts [(keepData_Frame ..).mono (by decide), (hostRead_Frame ..).mono (by decide)]

theorem writeSeg_Frame (s : State) (l : Live) (x : Seg) (d : Mem) : Frame [.tiles, .pcie] s (writeSeg s l x d) := by
  unfold writeSeg
  split
  · exact (stagingWrite_Frame ..).mono (by decide)
  · exact .ite ((hostWrite_Frame ..).mono (by decide)) (.refl ..)

theorem finishEntry_Frame (s : State) (id : Nat) (st : Status) : Frame [.pcie, .cqs, .live, .jet] s (finishEntry s id st) := by
  unfold finishEntry
  dsimp only
  split
  · exact (closeBatches_Frame ..).on ((modLive_Frame ..).mono (by decide)) rfl
  · exact (modLive_Frame ..).mono (by decide)

theorem flushEntries_Frame (s : State) : Frame [.pcie, .cqs, .live, .jet] s (flushEntries s) := by
  unfold flushEntries
  refine .fold (.refl ..) fun _ _ => ?_
  split
  exacts [.ite (.refl ..) (finishEntry_Frame ..), .refl ..]

theorem failEntry_Frame (s : State) (id : Nat) :
    Frame [.tiles, .cmds, .mcmds, .fetches, .pools, .vols, .partners, .pcie, .cqs, .live, .jet] s (failEntry s id) := by
  unfold failEntry
  dsimp only
  split
  · refine .ite ?_ ?_
    · split
      · split
        · exact (dropCmd_Frame ..).on ((modPcie_Frame ..).on ((voidReqs_Frame ..).mono (by decide)) rfl) rfl
        · exact (dropCmd_Frame ..).on ((modPcie_Frame ..).on ((voidReqs_Frame ..).mono (by decide)) rfl) rfl
        · exact (endStarted_Frame ..).on ((modPcie_Frame ..).on ((voidReqs_Frame ..).mono (by decide)) rfl) rfl
      · exact (modPcie_Frame ..).on ((voidReqs_Frame ..).mono (by decide)) rfl
    · refine (finishEntry_Frame ..).on ?_ rfl
      split
      · split
        · exact (dropCmd_Frame ..).on ((modPcie_Frame ..).on ((voidReqs_Frame ..).mono (by decide)) rfl) rfl
        · exact (dropCmd_Frame ..).on ((modPcie_Frame ..).on ((voidReqs_Frame ..).mono (by decide)) rfl) rfl
        · exact (endStarted_Frame ..).on ((modPcie_Frame ..).on ((voidReqs_Frame ..).mono (by decide)) rfl) rfl
      · exact (modPcie_Frame ..).on ((voidReqs_Frame ..).mono (by decide)) rfl
  · split
    · split
      · exact (dropCmd_Frame ..).on ((modPcie_Frame ..).on ((voidReqs_Frame ..).mono (by decide)) rfl) rfl
      · exact (dropCmd_Frame ..).on ((modPcie_Frame ..).on ((voidReqs_Frame ..).mono (by decide)) rfl) rfl
      · exact (endStarted_Frame ..).on ((modPcie_Frame ..).on ((voidReqs_Frame ..).mono (by decide)) rfl) rfl
    · exact (modPcie_Frame ..).on ((voidReqs_Frame ..).mono (by decide)) rfl

theorem runOffload_Frame (s : State) (l : Live) : Frame [.freeIx, .tiles, .pcie, .cqs, .live, .jet] s (runOffload s l) := by
  unfold runOffload
  refine .ite ((finishEntry_Frame ..).mono (by decide)) ?_
  refine (finishEntry_Frame ..).on ?_ rfl
  dsimp only
  split
  · exact (writeSeg_Frame ..).on ((writeSeg_Frame ..).mono (by decide)) rfl
  · exact .fold (.refl ..) fun _ _ => (writeSeg_Frame ..).mono (by decide)
  · exact .ite ((writeSeg_Frame ..).on ((drawn_Frame ..).mono (by decide)) rfl) ((writeSeg_Frame ..).mono (by decide))

theorem beginOffload_Frame (s : State) (l : Live) : Frame [.freeIx, .tiles, .pcie, .cqs, .live, .jet] s (beginOffload s l) := by
  unfold beginOffload
  dsimp only
  split
  · refine .ite ?_ ?_
    · exact (fetchSources_Frame ..).on ((modLive_Frame ..).mono (by decide)) rfl
    · exact (runOffload_Frame ..).on ((fetchSources_Frame ..).on ((modLive_Frame ..).mono (by decide)) rfl) rfl
  · exact (fetchSources_Frame ..).on ((modLive_Frame ..).mono (by decide)) rfl

theorem startOffload_Framed (s : State) (id opc : Nat) :
    Framed [.freeIx, .tiles, .pcie, .cqs, .live, .jet] s (startOffload s id opc) := by
  unfold startOffload
  split
  exacts [.stays, .ite (.done (beginOffload_Frame ..)) .stays]

theorem execPqCompute_Framed (id : Nat) (s : State) : Framed [.freeIx, .tiles, .pcie, .cqs, .live, .jet] s (execPqCompute id s) :=
  startOffload_Framed ..

theorem execReconstruct_Framed (id : Nat) (s : State) :
    Framed [.freeIx, .tiles, .pcie, .cqs, .live, .jet] s (execReconstruct id s) := startOffload_Framed ..

theorem execCopy_Framed (id : Nat) (s : State) : Framed [.freeIx, .tiles, .pcie, .cqs, .live, .jet] s (execCopy id s) :=
  startOffload_Framed ..

theorem execSkip_Framed (id : Nat) (s : State) : Framed [.pcie, .cqs, .live, .jet] s (execSkip id s) := by
  unfold execSkip
  split
  · exact .ite (.done ((finishEntry_Frame ..).on ((modLive_Frame ..).mono (by decide)) rfl)) .stays
  · exact .stays

theorem fetchWrite_Frame (s : State) (l : Live) :
    Frame (faultAnd [.nextId, .tiles, .cmds, .mcmds, .fetches, .budget, .pools, .vols, .cqs, .live]) s (fetchWrite s l) := by
  unfold fetchWrite
  refine .ite ((failEntry_Frame ..).mono (by decide)) ?_
  dsimp only
  split
  · exact (fetchSources_Frame ..).mono (by decide)
  · refine .fold ((fetchSources_Frame ..).mono (by decide)) fun _ _ => ?_
    split
    exacts [.ite ((storeData_Frame ..).mono (by decide)) (.refl ..), .refl ..]

theorem endLive_Frame (s : State) (l : Live) :
    Frame [.tiles, .cmds, .mcmds, .fetches, .pools, .vols, .partners, .pcie, .live] s (endLive s l) := by
  unfold endLive
  refine (updLive_Frame ..).on ?_ rfl
  dsimp only
  split
  · exact (modPcie_Frame ..).on ((voidReqs_Frame ..).mono (by decide)) rfl
  · split
    · refine .ite ?_ ?_
      · exact (modCmd_Frame ..).on ((modPcie_Frame ..).on ((voidReqs_Frame ..).mono (by decide)) rfl) rfl
      · exact (removeCmd_Frame ..).on ((modPcie_Frame ..).on ((voidReqs_Frame ..).mono (by decide)) rfl) rfl
    · refine .ite ?_ ?_
      · exact (modCmd_Frame ..).on ((modPcie_Frame ..).on ((voidReqs_Frame ..).mono (by decide)) rfl) rfl
      · exact (removeCmd_Frame ..).on ((modPcie_Frame ..).on ((voidReqs_Frame ..).mono (by decide)) rfl) rfl
    · refine .ite ?_ ?_
      · exact (modCmd_Frame ..).on ((modPcie_Frame ..).on ((voidReqs_Frame ..).mono (by decide)) rfl) rfl
      · exact (removeCmd_Frame ..).on ((modPcie_Frame ..).on ((voidReqs_Frame ..).mono (by decide)) rfl) rfl
    · exact (endStarted_Frame ..).on ((modPcie_Frame ..).on ((voidReqs_Frame ..).mono (by decide)) rfl) rfl

theorem enterBlock_Frame (s : State) (l : Live) (op : BlockOp) : Frame [.nextId, .cmds, .live] s (enterBlock s l op) :=
  (modLive_Frame ..).on ((forwardCmd_Frame ..).on ((bump_Frame ..).on ((updCmds_Frame ..).mono (by decide)) rfl) rfl) rfl

theorem startBlock_Framed (s : State) (id opc : Nat) (op : BlockOp) :
    Framed [.nextId, .cmds, .live] s (startBlock s id opc op) := by
  unfold startBlock
  split
  exacts [.stays, .ite (.done (enterBlock_Frame ..)) .stays]

theorem startData_Frame (s : State) :
    Frame (faultAnd [.nextId, .tiles, .cmds, .mcmds, .fetches, .budget, .pools, .vols, .cqs, .live]) s (startData s) := by
  unfold startData
  refine .fold (.refl ..) fun _ _ => ?_
  split
  · split
    exacts [(fetchWrite_Frame ..).on ((modCmd_Frame ..).mono (by decide)) rfl, .refl ..]
  · exact .refl ..

theorem execRecordCommit_Framed (tile seq : Nat) (s : State) :
    Framed (faultAnd [.nextId, .tiles, .cmds, .mcmds, .fetches, .budget, .pools, .vols, .cqs, .live]) s (execRecordCommit tile seq s) :=
        by
  unfold execRecordCommit
  split
  · exact .stays
  · refine .ite .stays ?_
    refine .done ?_
    refine (startData_Frame ..).on ((ackRecord_Frame ..).on ?_ rfl) rfl
    split
    · exact (partnerSend_Frame ..).on ((commitRec_Frame ..).mono (by decide)) rfl
    · exact (commitRec_Frame ..).mono (by decide)

theorem execRingRead_Framed (id : Nat) (s : State) : Framed [.nextId, .cmds, .live] s (execRingRead id s) := startBlock_Framed ..

theorem execRingWrite_Framed (id : Nat) (s : State) : Framed [.nextId, .cmds, .live] s (execRingWrite id s) :=
  startBlock_Framed ..

theorem execRingFlush_Framed (id : Nat) (s : State) : Framed [.nextId, .cmds, .live] s (execRingFlush id s) :=
  startBlock_Framed ..

theorem execRingWriteZeroes_Framed (id : Nat) (s : State) : Framed [.nextId, .cmds, .live] s (execRingWriteZeroes id s) :=
  startBlock_Framed ..

theorem execRingDeallocate_Framed (id : Nat) (s : State) : Framed [.nextId, .cmds, .live] s (execRingDeallocate id s) :=
  startBlock_Framed ..

theorem gotData_Frame (s : State) (id seg base : Nat) (b : List Byte) :
    Frame (faultAnd [.freeIx, .nextId, .tiles, .cmds, .mcmds, .fetches, .budget, .pools, .vols, .cqs, .live]) s
        (gotData s id seg base b) := by
  unfold gotData
  split
  · exact .refl ..
  · dsimp only
    split
    · exact (keepData_Frame ..).mono (by decide)
    · refine .ite ?_ ?_
      · refine .ite ((keepData_Frame ..).mono (by decide)) ?_
        split
        · exact (storeData_Frame ..).on ((keepData_Frame ..).mono (by decide)) rfl
        · exact (keepData_Frame ..).mono (by decide)
      · exact .ite ((keepData_Frame ..).mono (by decide)) ((runOffload_Frame ..).on ((keepData_Frame ..).mono (by decide)) rfl)

theorem completeRing_Frame (s : State) (id : Nat) (c : Cmd) :
    Frame [.tiles, .cmds, .pcie, .cqs, .live, .jet] s (completeRing s id c) := by
  unfold completeRing
  dsimp only
  split
  · exact (removeCmd_Frame ..).mono (by decide)
  · refine .ite ((removeCmd_Frame ..).mono (by decide)) ?_
    refine .ite ?_ ?_
    · exact (finishEntry_Frame ..).on ((removeCmd_Frame ..).mono (by decide)) rfl
    · refine (finishEntry_Frame ..).on ((modLive_Frame ..).on ?_ rfl) rfl
      refine .ite ?_ ((removeCmd_Frame ..).mono (by decide))
      refine .fold ((removeCmd_Frame ..).mono (by decide)) fun _ _ => ?_
      split
      exacts [(writeSeg_Frame ..).mono (by decide), .refl ..]

theorem execCommandCompletion_Framed (id : Nat) (s : State) : Framed (tenantAnd [.sbt, .cqs]) s (execCommandCompletion id s) := by
  unfold execCommandCompletion
  split
  · refine .ite .stays ?_
    split
    · exact .done ((maintProgress_Frame ..).on ((completeSbt_Frame ..).mono (by decide)) rfl)
    · exact .done ((maintProgress_Frame ..).on ((completeRing_Frame ..).mono (by decide)) rfl)
    · dsimp only
      split
      · exact .done ((maintProgress_Frame ..).on ((endMaint_Frame ..).on ((removeCmd_Frame ..).mono (by decide)) rfl) rfl)
      · exact .done ((removeCmd_Frame ..).mono (by decide))
  · split
    exacts [.ite (.done ((closeBatches_Frame ..).mono (by decide))) .stays, .stays]

theorem cqHeadDb_Frame (s : State) (cq : Nat) (v : Nat) : Frame [.pcie, .sqs, .cqs] s (cqHeadDb s cq v) :=
  .ite (.refl ..) (.ite ((modCq_Frame ..).mono (by decide)) ((relieveCq_Frame ..).on ((modCq_Frame ..).mono (by decide)) rfl))

theorem execCqHeadDb_Framed (fn cq : Nat) (v : W32) (s : State) : Framed [.pcie, .sqs, .cqs] s (execCqHeadDb fn cq v s) :=
  .ite (.done (cqHeadDb_Frame ..)) .stays

theorem execCqAggTimer_Framed (cq : Nat) (s : State) : Framed [.cqs] s (execCqAggTimer cq s) :=
  .ite (.done (cqMessage_Frame ..)) .stays

theorem enableSq_Frame (s : State) (n : Nat) : Frame [.pcie, .sqs] s (enableSq s n) := by
  unfold enableSq
  refine .ite ((modSq_Frame ..).mono (by decide)) ?_
  exact .ite ((modSq_Frame ..).mono (by decide)) ((startScan_Frame ..).on ((modSq_Frame ..).mono (by decide)) rfl)

theorem writeSqCtl_Frame (s : State) (n : Nat) (v : Nat) : Frame [.pcie, .sqs, .cqs, .live, .jet] s (writeSqCtl s n v) := by
  unfold writeSqCtl
  refine .ite ((enableSq_Frame ..).mono (by decide)) ?_
  exact .ite (stopSq_Frame ..) (.ite ((modSq_Frame ..).mono (by decide)) ((modSq_Frame ..).mono (by decide)))

theorem writeCqCtl_Frame (s : State) (n : Nat) (v : Nat) : Frame [.cqs] s (writeCqCtl s n v) := by
  unfold writeCqCtl
  refine .ite (.ite (modCq_Frame ..) (modCq_Frame ..)) ?_
  exact .ite (.ite (modCq_Frame ..) (modCq_Frame ..)) (.ite (modCq_Frame ..) (modCq_Frame ..))

theorem execSqDisable_Framed (fn sq : Nat) (v : W32) (s : State) :
    Framed [.pcie, .sqs, .cqs, .live, .jet] s (execSqDisable fn sq v s) := .ite (.done (writeSqCtl_Frame ..)) .stays

theorem execSqDrainComplete_Framed (sq : Nat) (s : State) : Framed [.pcie, .sqs] s (execSqDrainComplete sq s) :=
  .ite (.done ((publish_Frame ..).on ((modSq_Frame ..).mono (by decide)) rfl)) .stays

theorem execSqEnable_Framed (fn sq : Nat) (v : W32) (s : State) :
    Framed [.pcie, .sqs, .cqs, .live, .jet] s (execSqEnable fn sq v s) := .ite (.done (writeSqCtl_Frame ..)) .stays

theorem execCqEnable_Framed (fn cq : Nat) (v : W32) (s : State) : Framed [.cqs] s (execCqEnable fn cq v s) :=
  .ite (.done (writeCqCtl_Frame ..)) .stays

theorem execCqDisable_Framed (fn cq : Nat) (v : W32) (s : State) : Framed [.cqs] s (execCqDisable fn cq v s) :=
  .ite (.done (writeCqCtl_Frame ..)) .stays

end Sys2Proof.Machine
end

section
/-! PROOFS. Frames: the endpoint. -/

namespace Sys2Proof.Machine

theorem sendHeld_Frame (s : State) (fn : Nat) : Frame [.pcie] s (sendHeld s fn) :=
  .ite (.fold (modFunc_Frame ..) fun _ _ => (emit_Frame ..).mono (by decide)) (.refl ..)

theorem wakeHost_Frame (s : State) : Frame [.pcie, .sqs, .cqs, .live, .jet] s (wakeHost s) := by
  unfold wakeHost
  refine .fold ?_ fun _ _ => (sendHeld_Frame ..).mono (by decide)
  refine .fold ?_ fun _ _ => (resumeScan_Frame ..).mono (by decide)
  refine .fold ((flushEntries_Frame ..).on ((pumpDma_Frame ..).mono (by decide)) rfl) fun _ _ => ?_
  exact (relieveCq_Frame ..).mono (by decide)

theorem pumpHost_Frame (s : State) : Frame [.pcie, .cqs, .live, .jet] s (pumpHost s) :=
  (flushEntries_Frame ..).on ((pumpDma_Frame ..).mono (by decide)) rfl

theorem execPcieLinkUp_Framed (rate width : Nat) (s : State) :
    Framed [.pcie, .sqs, .cqs, .live, .jet] s (execPcieLinkUp rate width s) :=
  .ite (.done ((wakeHost_Frame ..).on ((modPcie_Frame ..).mono (by decide)) rfl)) .stays

theorem execPcieLinkDown_Framed (rate width : Nat) (s : State) : Framed faultPieces s (execPcieLinkDown rate width s) :=
  .ite .stays (.done ((fault0_Frame ..).on ((modPcie_Frame ..).mono (by decide)) rfl))

theorem execDStateEntry_Framed (fn : Nat) (d : DState) (s : State) : Framed [.pcie] s (execDStateEntry fn d s) :=
  .ite (.done (modFunc_Frame ..)) .stays

theorem execD0Return_Framed (fn : Nat) (s : State) : Framed [.pcie, .sqs, .cqs, .live, .jet] s (execD0Return fn s) :=
  .ite (.done ((wakeHost_Frame ..).on ((modFunc_Frame ..).mono (by decide)) rfl)) .stays

theorem dropReq_Frame (s : State) (r : HostReq) : Frame [.pcie] s (dropReq s r) := modPcie_Frame ..

theorem failReq_Frame (s : State) (r : HostReq) :
    Frame (faultAnd [.tiles, .cmds, .mcmds, .fetches, .pools, .vols, .sqs, .cqs, .live]) s (failReq s r) := by
  unfold failReq
  split
  · exact .ite ((takeEntry_Frame ..).on ((voidReqs_Frame ..).mono (by decide)) rfl) (.refl ..)
  · exact .ite ((takeEntry_Frame ..).on ((voidReqs_Frame ..).mono (by decide)) rfl) (.refl ..)
  · exact (failEntry_Frame ..).mono (by decide)

theorem gotRead_Frame (s : State) (r : HostReq) :
    Frame (faultAnd [.freeIx, .nextId, .tiles, .cmds, .mcmds, .fetches, .budget, .pools, .vols, .sqs, .cqs, .live]) s (gotRead s r) := by
  unfold gotRead
  split
  · exact (gotHeader_Frame ..).mono (by decide)
  · exact (gotBody_Frame ..).mono (by decide)
  · exact (gotData_Frame ..).mono (by decide)

theorem unexpected_Frame (s : State) (fn : Nat) : Frame [.pcie] s (unexpected s fn) := (aer_Frame ..).on (reqStatus_Frame ..) rfl

theorem execHostCompletion_Framed (c : HostCpl) (s : State) :
    Framed (faultAnd [.freeIx, .nextId, .tiles, .cmds, .mcmds, .fetches, .budget, .pools, .vols, .sqs, .cqs, .live]) s
        (execHostCompletion c s) := by
  unfold execHostCompletion
  refine .ite .stays ?_
  split
  · split
    · exact .done ((jetInfo_Frame ..).on ((modFunc_Frame ..).on ((unexpected_Frame ..).mono (by decide)) rfl) rfl)
    · exact .done ((aer_Frame ..).mono (by decide))
  · refine .ite ?_ ?_
    · refine .done ?_
      exact (pumpHost_Frame ..).on ((failReq_Frame ..).on ((reqStatus_Frame ..).on ((dropReq_Frame ..).mono (by decide)) rfl) rfl) rfl
    · refine .ite ?_ ?_
      · refine .done ?_
        refine (pumpHost_Frame ..).on ((failReq_Frame ..).on ((aer_Frame ..).on ((reqStatus_Frame ..).on ?_ rfl) rfl) rfl) rfl
        exact (dropReq_Frame ..).mono (by decide)
      · refine .ite ?_ ?_
        · refine .done ?_
          exact (pumpHost_Frame ..).on ((failReq_Frame ..).on ((unexpected_Frame ..).on ((dropReq_Frame ..).mono (by decide)) rfl) rfl)
              rfl
        · refine .ite (.done ((modPcie_Frame ..).mono (by decide))) ?_
          exact .done ((pumpHost_Frame ..).on ((gotRead_Frame ..).on ((dropReq_Frame ..).mono (by decide)) rfl) rfl)

theorem timeOutReq_Frame (s : State) (r : HostReq) :
    Frame (faultAnd [.tiles, .cmds, .mcmds, .fetches, .pools, .vols, .sqs, .cqs, .live]) s (timeOutReq s r) := by
  unfold timeOutReq
  refine (failReq_Frame ..).on ((fault_Frame ..).on ((modPcie_Frame ..).on ((modFunc_Frame ..).on ((aer_Frame ..).on ?_ rfl) rfl) rfl)
      rfl) rfl
  exact (reqStatus_Frame ..).on ((dropReq_Frame ..).mono (by decide)) rfl

theorem execCompletionTimeout_Framed (tag : Nat) (s : State) :
    Framed (faultAnd [.tiles, .cmds, .mcmds, .fetches, .pools, .vols, .sqs, .cqs, .live]) s (execCompletionTimeout tag s) := by
  unfold execCompletionTimeout
  split
  exacts [.ite (.done ((pumpHost_Frame ..).on (timeOutReq_Frame ..) rfl)) .stays, .stays]

theorem execTagQuarantineEnd_Framed (tag : Nat) (s : State) : Framed [.pcie, .cqs, .live, .jet] s (execTagQuarantineEnd tag s) :=
  .ite (.done ((pumpHost_Frame ..).on ((modPcie_Frame ..).mono (by decide)) rfl)) .stays

theorem atcInsert_Frame (s : State) (e : AtcEnt) : Frame [.pcie] s (atcInsert s e) := modPcie_Frame ..

theorem refuseTranslation_Frame (s : State) (t : TrReq) :
    Frame (faultAnd [.tiles, .cmds, .mcmds, .fetches, .pools, .vols, .sqs, .cqs, .live]) s (refuseTranslation s t) := by
  unfold refuseTranslation
  refine .ite ?_ ?_
  · refine .fold ?_ fun _ _ => (failEntry_Frame ..).mono (by decide)
    exact (modPcie_Frame ..).on ((fault_Frame ..).on ((modFunc_Frame ..).on ((reqStatus_Frame ..).mono (by decide)) rfl) rfl) rfl
  · refine .fold ?_ fun _ _ => failReq_Frame ..
    exact (modPcie_Frame ..).on ((fault_Frame ..).on ((modFunc_Frame ..).on ((reqStatus_Frame ..).mono (by decide)) rfl) rfl) rfl

theorem execTranslationCompletion_Framed (t : Translation) (s : State) :
    Framed (faultAnd [.tiles, .cmds, .mcmds, .fetches, .pools, .vols, .sqs, .cqs, .live]) s (execTranslationCompletion t s) := by
  unfold execTranslationCompletion
  split
  · exact .stays
  · refine .ite .stays ?_
    refine .ite ?_ ?_
    · exact .done ((pumpHost_Frame ..).on ((atcInsert_Frame ..).on ((modPcie_Frame ..).mono (by decide)) rfl) rfl)
    · exact .done ((pumpHost_Frame ..).on ((refuseTranslation_Frame ..).on ((modPcie_Frame ..).mono (by decide)) rfl) rfl)

theorem execInvalidationRequest_Framed (fn itag : Nat) (page : BitVec 52) (pages : Nat) (s : State) :
    Framed (faultAnd [.tiles, .cmds, .mcmds, .fetches, .pools, .vols, .sqs, .cqs, .live]) s
        (execInvalidationRequest fn itag page pages s) := by
  unfold execInvalidationRequest
  refine .ite .stays ?_
  refine .done ?_
  exact (pumpHost_Frame ..).on ((emit_Frame ..).on (.fold ((modPcie_Frame ..).mono (by decide)) fun _ _ => timeOutReq_Frame ..) rfl) rfl

theorem winRefused_Frame (s : State) (t : WinTlp) (write : Bool) : Frame [.pcie, .jet] s (winRefused s t write) :=
  (jetInfo_Frame ..).on ((modWindow_Frame ..).on ((aer_Frame ..).mono (by decide)) rfl) rfl

theorem execWindowWrite_Framed (t : WinTlp) (data : List (Option Byte)) (s : State) :
    Framed [.tiles, .pcie, .jet] s (execWindowWrite t data s) := by
  unfold execWindowWrite
  refine .ite .stays ?_
  dsimp only
  exact .ite (.done ((winRefused_Frame ..).mono (by decide))) (.done ((modTier_Frame ..).mono (by decide)))

theorem execWindowRead_Framed (t : WinTlp) (len : Nat) (s : State) : Framed [.pcie, .jet] s (execWindowRead t len s) :=
  .ite .stays (.ite (.done ((emit_Frame ..).on (winRefused_Frame ..) rfl)) (.done ((emit_Frame ..).mono (by decide))))

theorem commitWindow_Frame (s : State) (w : Nat) : Frame [.pcie] s (commitWindow s w) :=
  .ite (modWindow_Frame ..) (modWindow_Frame ..)

theorem execWinCommit_Framed (fn window : Nat) (v : W32) (s : State) : Framed [.pcie] s (execWinCommit fn window v s) :=
  .ite (.done (commitWindow_Frame ..)) .stays

theorem directWindow_Frame (s : State) (fn w : Nat) : Frame [.pcie, .jet] s (directWindow s fn w) :=
  (jetInfo_Frame ..).on ((modWindow_Frame ..).mono (by decide)) rfl

theorem execWindowDirectWrite_Framed (fn window offset : Nat) (_v : W32) (s : State) :
    Framed [.pcie, .jet] s (execWindowDirectWrite fn window offset _v s) := .ite (.done (directWindow_Frame ..)) .stays

end Sys2Proof.Machine
end

section
/-! PROOFS. Frames: the partner links. -/

namespace Sys2Proof.Machine

theorem applyVol_Frame (s : State) (v : Nat) (new : Option VolCfg) :
    Frame [.tiles, .cfg, .pools, .vols] s (applyVol s v new) := by
  unfold applyVol
  dsimp only
  split
  · exact (setVol_Frame ..).on ((updCfg_Frame ..).mono (by decide)) rfl
  · exact (releaseExtents_Frame ..).on ((updCfgVols_Frame ..).on ((purgeVol_Frame ..).mono (by decide)) rfl) rfl
  · refine .ite ?_ ?_
    · refine (modVol_Frame ..).on ?_ rfl
      refine .ite ?_ ?_
      · refine .ite ((setVolCfg_Frame ..).mono (by decide)) ?_
        exact (purgeVol_Frame ..).on ((releaseExtents_Frame ..).on ((setVolCfg_Frame ..).mono (by decide)) rfl) rfl
      · refine (modVol_Frame ..).on ?_ rfl
        refine (purgeVol_Frame ..).on ?_ rfl
        refine .ite ((setVolCfg_Frame ..).mono (by decide)) ?_
        exact (purgeVol_Frame ..).on ((releaseExtents_Frame ..).on ((setVolCfg_Frame ..).mono (by decide)) rfl) rfl
    · refine .ite ?_ ?_
      · refine .ite ((setVolCfg_Frame ..).mono (by decide)) ?_
        exact (purgeVol_Frame ..).on ((releaseExtents_Frame ..).on ((setVolCfg_Frame ..).mono (by decide)) rfl) rfl
      · refine (modVol_Frame ..).on ?_ rfl
        refine (purgeVol_Frame ..).on ?_ rfl
        refine .ite ((setVolCfg_Frame ..).mono (by decide)) ?_
        exact (purgeVol_Frame ..).on ((releaseExtents_Frame ..).on ((setVolCfg_Frame ..).mono (by decide)) rfl) rfl
  · exact .refl ..

theorem replaceAt_Frame (s : State) (pool ix m : Nat) : Frame (rowAnd [.members]) s (replaceAt s pool ix m) := by
  unfold replaceAt
  refine .ite ?_ ?_
  · refine (retable_Frame ..).on ((writeHeader_Frame ..).on ((listChange_Frame ..).on ((modMember_Frame ..).on ?_ rfl) rfl) rfl) rfl
    split
    exacts [(modMember_Frame ..).mono (by decide), .refl ..]
  · exact (writeHeader_Frame ..).on ((startCopyback_Frame ..).mono (by decide)) rfl

theorem applyChange_Frame (s : State) (ch : CfgChange) : Frame (rowAnd [.cfg, .vols, .members]) s (applyChange s ch) := by
  unfold applyChange
  split
  · exact (applyVol_Frame ..).mono (by decide)
  · dsimp only
    split
    · refine .ite ?_ ?_
      · exact .ite ((modPool_Frame ..).on ((setPoolCfg_Frame ..).mono (by decide)) rfl) ((setPoolCfg_Frame ..).mono (by decide))
      · refine (partnerSend_Frame ..).on ?_ rfl
        exact .ite ((modPool_Frame ..).on ((setPoolCfg_Frame ..).mono (by decide)) rfl) ((setPoolCfg_Frame ..).mono (by decide))
    · exact .ite ((modPool_Frame ..).on ((setPoolCfg_Frame ..).mono (by decide)) rfl) ((setPoolCfg_Frame ..).mono (by decide))
  · exact (replaceAt_Frame ..).mono (by decide)

theorem sendOffer_Frame (s : State) (mb link pool : Nat) (ch : CfgChange) (data : List Byte) :
    Frame [.partners, .mbx] s (sendOffer s mb link pool ch data) := by
  unfold sendOffer
  dsimp only
  exact (modMbx_Frame ..).on ((mbxPark_Frame ..).on ((modPartner_Frame ..).on ((partnerSend_Frame ..).mono (by decide)) rfl) rfl) rfl

theorem changePool_Frame (s : State) (mb pool : Nat) (ch : CfgChange) (data : List Byte) :
    Frame (rowAnd [.cfg, .vols, .members, .mbx]) s (changePool s mb pool ch data) := by
  unfold changePool
  split
  · exact (mbxStore_Frame ..).on ((applyChange_Frame ..).mono (by decide)) rfl
  · exact (sendOffer_Frame ..).mono (by decide)

/-- A change of a volume leaves the members, the reads and writes of rows and the tile's work as they are. -/
theorem changePool_volFrame (s : State) (mb pool v : Nat) (c : Option VolCfg) (data : List Byte) :
    Frame [.tiles, .cfg, .pools, .vols, .partners, .mbx] s (changePool s mb pool (.vol v c) data) := by
  unfold changePool
  split
  · exact (mbxStore_Frame ..).on ((applyVol_Frame ..).mono (by decide)) rfl
  · exact (sendOffer_Frame ..).mono (by decide)

theorem applyChange_poolFrame (s : State) (pool : Nat) (c : PoolCfg) : Frame [.cfg, .pools, .partners] s (applyChange s (.pool pool c))
    := by
  have hm : Frame [.cfg, .pools, .partners] s (if (c.mirror0 != (poolCfg s pool).mirror0 || c.mirror1 != (poolCfg s pool).mirror1) = true
      then modPool (setPoolCfg s pool c) pool (mirrorNamed c) else setPoolCfg s pool c) :=
    .ite ((modPool_Frame ..).on ((setPoolCfg_Frame ..).mono (by decide)) rfl) ((setPoolCfg_Frame ..).mono (by decide))
  unfold applyChange
  dsimp only
  split
  · exact .ite hm ((partnerSend_Frame ..).on hm rfl)
  · exact hm

/-- A change of a pool's own description leaves its volumes as well. -/
theorem changePool_poolFrame (s : State) (mb pool : Nat) (c : PoolCfg) (data : List Byte) :
    Frame [.cfg, .pools, .partners, .mbx] s (changePool s mb pool (.pool pool c) data) := by
  unfold changePool
  split
  · exact (mbxStore_Frame ..).on ((applyChange_poolFrame ..).mono (by decide)) rfl
  · exact (sendOffer_Frame ..).mono (by decide)

theorem partnerDown_Frame (s : State) (link : Nat) : Frame faultPieces s (partnerDown s link) :=
  .ite ((fault0_Frame ..).on ((modPartner_Frame ..).mono (by decide)) rfl) (.refl ..)

theorem resumeMirror_Frame (s : State) (link pool : Nat) :
    Frame [.nextId, .mcmds, .budget, .pools, .partners, .jet] s (resumeMirror s link pool) := by
  unfold resumeMirror
  refine (jetInfo_Frame ..).on ((writeHeader_Frame ..).on ?_ rfl) rfl
  exact (modPool_Frame ..).on (.fold (.refl ..) fun _ _ => .fold (.refl ..) fun _ _ => (sendRecord_Frame ..).mono (by decide)) rfl

theorem partnerGood_Frame (s : State) (link : Nat) :
    Frame [.nextId, .mcmds, .budget, .pools, .partners, .jet] s (partnerGood s link) :=
  .fold (.ite (.refl ..) ((jetInfo_Frame ..).on ((modPartner_Frame ..).mono (by decide)) rfl)) fun _ _ => resumeMirror_Frame ..

theorem takeLack_Frame (s : State) (link : Nat) (lack : W32) : Frame [.partners] s (takeLack s link lack) :=
  .ite ((emits_Frame ..).on (modPartner_Frame ..) rfl) (modPartner_Frame ..)

theorem resendFrom_Frame (s : State) (link : Nat) (from_ : W32) : Frame [] s (resendFrom s link from_) :=
  .ite (emits_Frame ..) (.refl ..)

theorem takeFrame_Frame (s : State) (h : PartnerHdr) (type : Nat) (body : List Byte) :
    Frame (faultAnd [.nextId, .mcmds, .budget, .pools]) s (takeFrame s h type body).1 := by
  unfold takeFrame
  split
  · exact .refl ..
  · split
    · exact .refl ..
    · split
      · exact .refl ..
      · dsimp only
        split
        · exact (emit_Frame ..).on ((countFrame_Frame ..).mono (by decide)) rfl
        · split
          · exact (partnerDown_Frame ..).on ((countFrame_Frame ..).mono (by decide)) rfl
          · exact (takeLack_Frame ..).on ((partnerGood_Frame ..).on ((countFrame_Frame ..).mono (by decide)) rfl) rfl

/-- A numbered frame of a partner keeps what its effect keeps, besides the link's state. -/
theorem takeSeq_Framed {l : List Piece} {s : State} {h : PartnerHdr} {b : PartnerBody} {f : State → Nat → State}
    (hl : faultAnd [.nextId, .mcmds, .budget, .pools] ⊆ l) (hf : ∀ u k, Frame l u (f u k)) :
    Framed l s (takeSeq s h b f) := by
  have hp : [.partners] ⊆ l := List.Subset.trans (by decide) hl
  have ht : Frame l s (takeFrame s h (partnerBytes b).1 (partnerBytes b).2).1 := (takeFrame_Frame ..).mono hl
  unfold takeSeq
  split
  next e => exact .done (ht.of_fst e)
  next e =>
    have hu := ht.of_fst e
    refine .ite (.done (.trans (hu.trans ((modPartner_Frame ..).mono hp)) (hf ..))) (.ite (.done ?_) (.done hu))
    exact hu.trans ((emit_Frame ..).mono (List.nil_subset l))

theorem execHello_Framed (h : PartnerHdr) (s : State) : Framed (faultAnd [.nextId, .mcmds, .budget, .pools]) s (execHello h s) :=
  .done (takeFrame_Frame ..)

theorem execNack_Framed (h : PartnerHdr) (s : State) : Framed (faultAnd [.nextId, .mcmds, .budget, .pools]) s (execNack h s) := by
  have ht := takeFrame_Frame s h 2 []
  unfold execNack
  split
  next e => exact .done ((resendFrom_Frame ..).on (ht.of_fst e) rfl)
  next e => exact .done (ht.of_fst e)

theorem execPartnerResendTimer_Framed (link : Nat) (s : State) : Framed [] s (execPartnerResendTimer link s) := by
  unfold execPartnerResendTimer
  split
  exacts [.ite (.done (resendFrom_Frame ..)) .stays, .stays]

theorem execHelloSend_Framed (link : Nat) (s : State) : Framed [] s (execHelloSend link s) := .ite (.done (emit_Frame ..)) .stays

theorem execPartnerLinkTimeout_Framed (link : Nat) (s : State) : Framed faultPieces s (execPartnerLinkTimeout link s) :=
  .ite (.done (partnerDown_Frame ..)) .stays

theorem dropReserved_Frame (s : State) (pool : Nat) : Frame [.cfg, .pools, .vols, .members] s (dropReserved s pool) := by
  unfold dropReserved
  exact .of_overlay rfl

theorem reservePool_Frame (s : State) (link pool : Nat) (d : PoolDesc) :
    Frame [.cfg, .flash, .pools, .vols, .members] s (reservePool s link pool d) := by
  unfold reservePool
  refine (storeCfg_Frame ..).on ((setPool_Frame ..).on ?_ rfl) rfl
  exact (updCfg_Frame ..).on (.ite ((dropReserved_Frame ..).mono (by decide)) (.refl ..)) rfl

theorem offerTaken_Frame (s : State) (link pool : Nat) (d : PoolDesc) :
    Frame [.cfg, .flash, .pools, .vols, .members, .partners] s (offerTaken s link pool d) :=
  (partnerSend_Frame ..).on (.ite ((reservePool_Frame ..).mono (by decide)) (.refl ..)) rfl

theorem execPoolOffer_Framed (h : PartnerHdr) (pool : Nat) (d : PoolDesc) (s : State) :
    Framed (faultAnd [.nextId, .mcmds, .budget, .cfg, .flash, .pools, .vols, .members]) s (execPoolOffer h pool d s) :=
  takeSeq_Framed (by decide) fun _ _ => (offerTaken_Frame ..).mono (by decide)

theorem replyTaken_Frame (s : State) (link pool result : Nat) :
    Frame (rowAnd [.cfg, .vols, .members, .mbx]) s (replyTaken s link pool result) := by
  unfold replyTaken
  split
  · exact .refl ..
  · refine .ite ((modPartner_Frame ..).mono (by decide)) ?_
    refine .ite ?_ ?_
    · exact (mbxFinish_Frame ..).on ((modMbx_Frame ..).on ((modPartner_Frame ..).mono (by decide)) rfl) rfl
    · refine (mbxStore_Frame ..).on ?_ rfl
      split
      · exact (applyChange_Frame ..).on ((modMbx_Frame ..).on ((modPartner_Frame ..).mono (by decide)) rfl) rfl
      · exact (modMbx_Frame ..).on ((modPartner_Frame ..).mono (by decide)) rfl

theorem execPoolReply_Framed (h : PartnerHdr) (pool result : Nat) (s : State) :
    Framed (rowAnd [.cfg, .vols, .members, .mbx]) s (execPoolReply h pool result s) :=
  takeSeq_Framed (by decide) fun _ _ => replyTaken_Frame ..

theorem retirePartner_Frame (s : State) (pool : Nat) : Frame [.tiles, .pools, .partners] s (retirePartner s pool) :=
  .fold (.refl ..) fun _ _ => .fold (.refl ..) fun _ _ => retireRec_Frame ..

theorem withdrawTaken_Frame (s : State) (link pool : Nat) :
    Frame [.tiles, .cfg, .flash, .pools, .vols, .members, .partners] s (withdrawTaken s link pool) :=
  .ite ((storeCfg_Frame ..).on ((dropReserved_Frame ..).on ((retirePartner_Frame ..).mono (by decide)) rfl) rfl) (.refl ..)

theorem execPoolWithdraw_Framed (h : PartnerHdr) (pool : Nat) (s : State) :
    Framed (faultAnd [.nextId, .tiles, .mcmds, .budget, .cfg, .flash, .pools, .vols, .members]) s (execPoolWithdraw h pool s) :=
  takeSeq_Framed (by decide) fun _ _ => (withdrawTaken_Frame ..).mono (by decide)

theorem storePartner_Frame (s : State) (l seq origin : Nat) (r : Rec) :
    Frame [.tiles, .pools, .partners] s (storePartner s l seq origin r) := by
  unfold storePartner
  refine .ite (.refl ..) ?_
  split
  · refine (partnerSend_Frame ..).on ?_ rfl
    split
    exacts [retireRec_Frame .., .refl ..]
  · split
    · exact .refl ..
    · exact .ite ((partnerSend_Frame ..).mono (by decide)) (.ite (.refl ..) ((modAmber_Frame ..).mono (by decide)))
  · split
    exacts [.refl .., (modAmber_Frame ..).mono (by decide)]
  · exact (partnerSend_Frame ..).mono (by decide)

theorem execRecord_Framed (h : PartnerHdr) (seq fragOffset originTile : Nat) (last : Bool) (r : Rec) (s : State) :
    Framed (faultAnd [.nextId, .tiles, .mcmds, .budget, .pools]) s (execRecord h seq fragOffset originTile last r s) :=
  takeSeq_Framed (by decide) fun _ _ => .ite ((storePartner_Frame ..).mono (by decide)) (.refl ..)

theorem dataRefused_Frame (s : State) (tile seq : Nat) : Frame [.cmds] s (dataRefused s tile seq) := updCmds_Frame ..

theorem confirmed_Frame (s : State) (l tile seq result : Nat) :
    Frame (faultAnd [.nextId, .tiles, .cmds, .mcmds, .fetches, .budget, .pools, .vols, .cqs, .live]) s (confirmed s l tile seq result)
        := by
  unfold confirmed
  refine .ite (.refl ..) ?_
  refine (startData_Frame ..).on ((ackRecord_Frame ..).on ?_ rfl) rfl
  refine (partnerGiven_Frame ..).on ?_ rfl
  exact .ite ((modPartner_Frame ..).mono (by decide)) ((dataRefused_Frame ..).on ((modPartner_Frame ..).mono (by decide)) rfl)

theorem execConfirm_Framed (h : PartnerHdr) (seq originTile result : Nat) (s : State) :
    Framed (faultAnd [.nextId, .tiles, .cmds, .mcmds, .fetches, .budget, .pools, .vols, .cqs, .live]) s
        (execConfirm h seq originTile result s) := by
  unfold execConfirm
  exact takeSeq_Framed (by decide) fun _ _ => confirmed_Frame ..

theorem suspendPool_Frame (s : State) (pool : Nat) (marked : Bool) :
    Frame (faultAnd [.nextId, .mcmds, .budget, .pools]) s (suspendPool s pool marked) :=
  .ite (.refl ..) ((writeHeader_Frame ..).on ((fault_Frame ..).on ((modPool_Frame ..).mono (by decide)) rfl) rfl)

theorem waiveConfirm_Frame (s : State) (tile seq : Nat) : Frame [.tiles, .partners] s (waiveConfirm s tile seq) :=
  (updPartners_Frame ..).on ((partnerGiven_Frame ..).mono (by decide)) rfl

theorem execPartnerConfirmTimeout_Framed (tile seq : Nat) (s : State) :
    Framed (faultAnd [.nextId, .tiles, .cmds, .mcmds, .fetches, .budget, .pools, .vols, .cqs, .live]) s
        (execPartnerConfirmTimeout tile seq s) := by
  unfold execPartnerConfirmTimeout
  split
  · exact .stays
  · refine .ite .stays ?_
    refine .done ?_
    refine (startData_Frame ..).on ((ackRecord_Frame ..).on ((suspendPool_Frame ..).on ?_ rfl) rfl) rfl
    exact (waiveConfirm_Frame ..).mono (by decide)

theorem execLeaseRenewal_Framed (pool completed : Nat) (owner : BitVec 64) (s : State) :
    Framed [.nextId, .mcmds, .budget, .pools] s (execLeaseRenewal pool completed owner s) := by
  unfold execLeaseRenewal
  refine .ite .stays ?_
  refine .ite ?_ (.done ((modPool_Frame ..).mono (by decide)))
  exact .done ((writeHeader_Frame ..).on ((modPool_Frame ..).on ((modPool_Frame ..).mono (by decide)) rfl) rfl)

theorem execLeaseLoss_Framed (pool : Nat) (s : State) : Framed (rowAnd [.cmds, .vols]) s (execLeaseLoss pool s) :=
  .ite (.done ((fault_Frame ..).on ((modPool_Frame ..).on (poolOffline_Frame ..) rfl) rfl)) .stays

theorem ownRecords_Frame (s : State) (pool : Nat) : Frame [.tiles] s (ownRecords s pool) :=
  .fold (.refl ..) fun _ _ => modAmber_Frame ..

theorem importReplay_Frame (s : State) (pool : Nat) : Frame (rowAnd [.replays]) s (importReplay s pool) := replayRings_Frame ..

theorem importPool_Frame (s : State) (pool : Nat) (hd : PoolHeader) :
    Frame (rowAnd [.replays, .cfg, .flash, .vols]) s (importPool s pool hd) := by
  unfold importPool
  refine .ite ?_ ?_
  · refine (fault_Frame ..).on ((jetInfo_Frame ..).on ((storeCfg_Frame ..).on ((importReplay_Frame ..).on ?_ rfl) rfl) rfl) rfl
    refine (ownRecords_Frame ..).on ?_ rfl
    refine .fold ?_ fun _ _ => (setVol_Frame ..).on ((setVolCfg_Frame ..).mono (by decide)) rfl
    exact (writeHeader_Frame ..).on ((modPool_Frame ..).on ((setPoolCfg_Frame ..).mono (by decide)) rfl) rfl
  · refine (jetInfo_Frame ..).on ((storeCfg_Frame ..).on ((importReplay_Frame ..).on ?_ rfl) rfl) rfl
    refine (ownRecords_Frame ..).on ?_ rfl
    refine .fold ?_ fun _ _ => (setVol_Frame ..).on ((setVolCfg_Frame ..).mono (by decide)) rfl
    exact (writeHeader_Frame ..).on ((modPool_Frame ..).on ((setPoolCfg_Frame ..).mono (by decide)) rfl) rfl

theorem releaseTaken_Frame (s : State) (link pool : Nat) (hds : List PoolHeader) :
    Frame (rowAnd [.replays, .cfg, .flash, .vols]) s (releaseTaken s link pool hds) := by
  unfold releaseTaken
  split
  · exact .ite ((partnerSend_Frame ..).on (importPool_Frame ..) rfl) ((partnerSend_Frame ..).mono (by decide))
  · exact (partnerSend_Frame ..).mono (by decide)

theorem execRelease_Framed (h : PartnerHdr) (pool : Nat) (hds : List PoolHeader) (s : State) :
    Framed (rowAnd [.replays, .cfg, .flash, .vols]) s (execRelease h pool hds s) :=
  takeSeq_Framed (by decide) fun _ _ => releaseTaken_Frame ..

theorem removePool_Frame (s : State) (pool : Nat) :
    Frame [.tiles, .mcmds, .fetches, .cfg, .pools, .vols, .members] s (removePool s pool) :=
  (updMcmdsFetchesCfgPoolsVolsMembers_Frame ..).on (.fold (.refl ..) fun _ _ => (purgeVol_Frame ..).mono (by decide)) rfl

theorem releaseEnd_Frame (s : State) (link pool result : Nat) :
    Frame [.tiles, .mcmds, .fetches, .cfg, .pools, .vols, .members, .partners, .mbx] s (releaseEnd s link pool result) := by
  unfold releaseEnd
  split
  · exact .refl ..
  · refine .ite ((modPartner_Frame ..).mono (by decide)) ?_
    refine .ite ?_ ?_
    · exact (mbxStore_Frame ..).on ((removePool_Frame ..).on ((modPartner_Frame ..).mono (by decide)) rfl) rfl
    · exact (mbxFinish_Frame ..).on ((modPartner_Frame ..).mono (by decide)) rfl

theorem execReleaseAck_Framed (h : PartnerHdr) (pool result : Nat) (s : State) :
    Framed (faultAnd [.nextId, .tiles, .mcmds, .fetches, .budget, .cfg, .pools, .vols, .members, .mbx]) s
        (execReleaseAck h pool result s) := by
  unfold execReleaseAck
  exact takeSeq_Framed (by decide) fun _ _ => (releaseEnd_Frame ..).mono (by decide)

theorem execAutoImport_Framed (pool : Nat) (hds : List PoolHeader) (s : State) :
    Framed [.pools] s (execAutoImport pool hds s) := by
  unfold execAutoImport
  split
  exacts [.ite (.done (modPool_Frame ..)) .stays, .stays]

theorem execImportCheck_Framed (pool : Nat) (hds : List PoolHeader) (s : State) :
    Framed (rowAnd [.replays, .cfg, .flash, .vols, .mbx]) s (execImportCheck pool hds s) := by
  unfold execImportCheck
  dsimp only
  split
  · exact .stays
  · refine .ite .stays ?_
    split
    · refine .ite ?_ ?_
      · exact .done ((mbxStore_Frame ..).on ((importPool_Frame ..).mono (by decide)) rfl)
      · exact .done ((mbxFinish_Frame ..).on ((modPool_Frame ..).mono (by decide)) rfl)
    · refine .ite (.done ((modPool_Frame ..).mono (by decide))) ?_
      exact .ite (.done ((importPool_Frame ..).mono (by decide))) (.done ((modPool_Frame ..).mono (by decide)))

theorem execPartnerConfig_Framed (g : Go) (port link : Nat) (autoImport : Bool) (identity : BitVec 64) (s : State) :
    Framed [.nextId, .cfg, .mbx] s (execPartnerConfig g port link autoImport identity s) :=
  mbxRun_Framed (by decide) fun _ => (mbxStore_Frame ..).on ((updCfg_Frame ..).mono (by decide)) rfl

theorem execPartnerStatus_Framed (g : Go) (link : Nat) (s : State) : Framed [.nextId, .mbx] s (execPartnerStatus g link s) :=
  mbxRun_Framed (by decide) fun _ => (mbxOk_Frame ..).mono (by decide)

theorem execPoolImport_Framed (g : Go) (pool : Nat) (hds : List PoolHeader) (s : State) :
    Framed [.nextId, .pools, .mbx] s (execPoolImport g pool hds s) :=
  mbxRun_Framed (by decide) fun _ => (mbxPark_Frame ..).on ((modPool_Frame ..).mono (by decide)) rfl

theorem execPoolRelease_Framed (g : Go) (pool : Nat) (s : State) :
    Framed [.nextId, .partners, .mbx] s (execPoolRelease g pool s) :=
  mbxRun_Framed (by decide) fun _ => (mbxPark_Frame ..).on ((modPartner_Frame ..).on ((partnerSend_Frame ..).mono (by decide)) rfl) rfl

theorem execJournalPartner_Framed (g : Go) (pool link : Nat) (s : State) :
    Framed [.nextId, .pools, .partners, .mbx] s (execJournalPartner g pool link s) :=
  mbxRun_Framed (by decide) fun _ => (sendOffer_Frame ..).on ((modPool_Frame ..).mono (by decide)) rfl

theorem execJournalPartnerClear_Framed (g : Go) (pool link : Nat) (s : State) :
    Framed [.nextId, .cfg, .pools, .partners, .mbx] s (execJournalPartnerClear g pool link s) :=
  mbxRun_Framed (by decide) fun _ => (mbxStore_Frame ..).on ((modPool_Frame ..).on ((applyChange_poolFrame ..).mono (by decide)) rfl) rfl

end Sys2Proof.Machine
end

section
/-! PROOFS. Frames: the ports. -/

namespace Sys2Proof.Machine

theorem dropDependents_Frame (s : State) (port : Nat) :
    Frame (faultAnd [.mcmds, .budget, .members]) s (dropDependents s port) := by
  unfold dropDependents
  split
  · refine .fold (.refl ..) fun _ _ => ?_
    exact .fold (.refl ..) fun _ _ => .ite ((breakQueue_Frame ..).mono (by decide)) ((dropQueue_Frame ..).mono (by decide))
  · split
    exacts [(partnerDown_Frame ..).mono (by decide), .refl ..]
  · exact .refl ..

theorem downLink_Frame (s : State) (port : Nat) : Frame (faultAnd [.mcmds, .budget, .members]) s (downLink s port) :=
  .ite ((dropDependents_Frame ..).on ((jetInfo_Frame ..).on ((modLink_Frame ..).mono (by decide)) rfl) rfl) (.refl ..)

theorem execLinkUp_Framed (port : Nat) (s : State) : Framed [.links, .jet] s (execLinkUp port s) :=
  .ite (.done ((jetInfo_Frame ..).on ((modLink_Frame ..).mono (by decide)) rfl)) .stays

theorem execLinkDown_Framed (port : Nat) (s : State) : Framed (faultAnd [.mcmds, .budget, .members]) s (execLinkDown port s) :=
  .ite (.done (downLink_Frame ..)) .stays

theorem execFecErrorSecond_Framed (port codewords : Nat) (s : State) :
    Framed faultPieces s (execFecErrorSecond port codewords s) := by
  unfold execFecErrorSecond
  refine .ite ?_ .stays
  exact .done (.ite ((fault0_Frame ..).on ((modLink_Frame ..).mono (by decide)) rfl) ((modLink_Frame ..).mono (by decide)))

theorem execPfcFrame_Framed (port : Nat) (classes : BitVec 8) (quanta : Nat) (s : State) :
    Framed [.links] s (execPfcFrame port classes quanta s) := .ite .stays (.done (modLink_Frame ..))

theorem sendPfc_Frame (s : State) (port quanta : Nat) : Frame [.links] s (sendPfc s port quanta) :=
  (emit_Frame ..).on (modLink_Frame ..) rfl

theorem execPfcRepeat_Framed (port occupancyKib : Nat) (s : State) :
    Framed faultPieces s (execPfcRepeat port occupancyKib s) := by
  unfold execPfcRepeat
  refine .ite .stays ?_
  refine .ite ?_ ?_
  · refine .done ?_
    refine .ite ?_ ?_
    · refine (fault0_Frame ..).on ?_ rfl
      exact .ite ((dropFrame_Frame ..).on ((modLink_Frame ..).mono (by decide)) rfl) ((modLink_Frame ..).mono (by decide))
    · exact .ite ((dropFrame_Frame ..).on ((modLink_Frame ..).mono (by decide)) rfl) ((modLink_Frame ..).mono (by decide))
  · refine .ite ?_ ?_
    · refine .done ?_
      refine (sendPfc_Frame ..).on ?_ rfl
      refine (modLink_Frame ..).on ?_ rfl
      refine .ite ?_ ?_
      · refine (fault0_Frame ..).on ?_ rfl
        exact .ite ((dropFrame_Frame ..).on ((modLink_Frame ..).mono (by decide)) rfl) ((modLink_Frame ..).mono (by decide))
      · exact .ite ((dropFrame_Frame ..).on ((modLink_Frame ..).mono (by decide)) rfl) ((modLink_Frame ..).mono (by decide))
    · refine .ite ?_ ?_
      · refine .done ?_
        refine .ite ?_ ?_
        · refine (fault0_Frame ..).on ?_ rfl
          exact .ite ((dropFrame_Frame ..).on ((modLink_Frame ..).mono (by decide)) rfl) ((modLink_Frame ..).mono (by decide))
        · exact .ite ((dropFrame_Frame ..).on ((modLink_Frame ..).mono (by decide)) rfl) ((modLink_Frame ..).mono (by decide))
      · refine .ite ?_ ?_
        · refine .done ?_
          refine (sendPfc_Frame ..).on ?_ rfl
          refine (modLink_Frame ..).on ?_ rfl
          refine .ite ?_ ?_
          · refine (fault0_Frame ..).on ?_ rfl
            exact .ite ((dropFrame_Frame ..).on ((modLink_Frame ..).mono (by decide)) rfl) ((modLink_Frame ..).mono (by decide))
          · exact .ite ((dropFrame_Frame ..).on ((modLink_Frame ..).mono (by decide)) rfl) ((modLink_Frame ..).mono (by decide))
        · refine .done ?_
          refine (sendPfc_Frame ..).on ?_ rfl
          refine .ite ?_ ?_
          · refine (fault0_Frame ..).on ?_ rfl
            exact .ite ((dropFrame_Frame ..).on ((modLink_Frame ..).mono (by decide)) rfl) ((modLink_Frame ..).mono (by decide))
          · exact .ite ((dropFrame_Frame ..).on ((modLink_Frame ..).mono (by decide)) rfl) ((modLink_Frame ..).mono (by decide))

/-- An Ethernet frame keeps what its effect keeps, besides the link's counts. -/
theorem takeEthernet_Framed {l : List Piece} {s : State} {a : Arrival} {f : State → State} (hl : [.links] ⊆ l)
    (hf : ∀ u, Frame l u (f u)) : Framed l s (takeEthernet s a f) := by
  unfold takeEthernet
  refine .ite .stays ?_
  split
  exacts [.done ((dropFrame_Frame ..).mono hl), .done (hf _)]

theorem execNeighbourResolve_Framed (tile : Nat) (addr : BitVec 128) (s : State) :
    Framed [] s (execNeighbourResolve tile addr s) := by
  unfold execNeighbourResolve
  split
  exacts [.ite (.done (emit_Frame ..)) .stays, .stays]

theorem execNeighbourDiscovery_Framed (a : Arrival) (m : NeighbourMsg) (s : State) :
    Framed [.tiles, .links] s (execNeighbourDiscovery a m s) := by
  unfold execNeighbourDiscovery
  refine takeEthernet_Framed (by decide) fun _ => ?_
  split
  · exact .ite ((emit_Frame ..).on ((countFrame_Frame ..).mono (by decide)) rfl) ((dropFrame_Frame ..).mono (by decide))
  · exact (modTile_Frame ..).on ((countFrame_Frame ..).mono (by decide)) rfl

theorem execEchoRequest_Framed (a : Arrival) (src dst : BitVec 128) (payload : List Byte) (s : State) :
    Framed [.links] s (execEchoRequest a src dst payload s) :=
  takeEthernet_Framed (by decide) fun _ => .ite ((emit_Frame ..).on (countFrame_Frame ..) rfl) (dropFrame_Frame ..)

theorem execPortConfig_Framed (g : Go) (p : PortParams) (s : State) : Framed [.nextId, .cfg, .mbx] s (execPortConfig g p s) :=
  mbxRun_Framed (by decide) fun _ => (mbxStore_Frame ..).on ((updCfg_Frame ..).mono (by decide)) rfl

theorem setStarted_Frame (s : State) (port : Nat) (on : Bool) : Frame [.cfg, .links] s (setStarted s port on) := by
  unfold setStarted
  dsimp only
  exact (modLink_Frame ..).on ((updCfg_Frame ..).mono (by decide)) rfl

theorem execPortStop_Framed (g : Go) (port : Nat) (s : State) :
    Framed (faultAnd [.nextId, .tiles, .cmds, .mcmds, .fetches, .budget, .cfg, .pools, .vols, .members, .sbt, .mbx]) s
        (execPortStop g port s) := by
  unfold execPortStop
  refine mbxRun_Framed (by decide) fun _ => ?_
  refine (mbxStore_Frame ..).on ((setStarted_Frame ..).on ?_ rfl) rfl
  exact (downLink_Frame ..).on (.ite (.fold (.refl ..) fun _ _ => (closeConn_Frame ..).mono (by decide)) (.refl ..)) rfl

theorem execPortStart_Framed (g : Go) (port : Nat) (s : State) :
    Framed [.nextId, .cfg, .links, .partners, .mbx] s (execPortStart g port s) := by
  unfold execPortStart
  refine mbxRun_Framed (by decide) fun _ => ?_
  refine (mbxStore_Frame ..).on ((setStarted_Frame ..).on ?_ rfl) rfl
  split
  exacts [(modPartner_Frame ..).mono (by decide), .refl ..]

theorem execPortStatus_Framed (g : Go) (port : Nat) (s : State) : Framed [.nextId, .mbx] s (execPortStatus g port s) :=
  mbxRun_Framed (by decide) fun _ => (mbxOk_Frame ..).mono (by decide)

theorem execPortStats_Framed (g : Go) (port : Nat) (buf : SegDesc) (s : State) :
    Framed [.freeIx, .nextId, .pcie, .mbx] s (execPortStats g port buf s) :=
  mbxRun_Framed (by decide) fun _ => (mbxOk_Frame ..).on ((writeBuf_Frame ..).on ((drawn_Frame ..).mono (by decide)) rfl) rfl

theorem execPortTest_Framed (g : Go) (port pattern _seconds : Nat) (s : State) :
    Framed [.nextId, .links, .mbx] s (execPortTest g port pattern _seconds s) :=
  mbxRun_Framed (by decide) fun _ => (mbxPark_Frame ..).on ((modLink_Frame ..).mono (by decide)) rfl

theorem execPortTestComplete_Framed (mb : Nat) (counts : List (Nat × Nat)) (s : State) :
    Framed [.links, .mbx] s (execPortTestComplete mb counts s) := by
  unfold execPortTestComplete
  split
  exacts [.ite (.done ((mbxOk_Frame ..).on ((modLink_Frame ..).mono (by decide)) rfl)) .stays, .stays]

end Sys2Proof.Machine
end

section
/-! PROOFS. Frames: the pool group. -/

namespace Sys2Proof.Machine

theorem takeMember_Frame (found : List MemberIdent) (st : MemberState) (s : State) (m : Nat) :
    Frame [.members] s (takeMember found st s m) := by
  unfold takeMember
  dsimp only
  exact modMember_Frame ..

theorem makePool_Frame (s : State) (p : PoolParams) (found : List MemberIdent) :
    Frame [.freeIx, .nextId, .mcmds, .budget, .cfg, .pools, .members] s (makePool s p found) := by
  unfold makePool
  refine (writeHeader_Frame ..).on ((writeTable_Frame ..).on ((setPool_Frame ..).on ?_ rfl) rfl) rfl
  refine (setPoolCfg_Frame ..).on ?_ rfl
  refine .fold ?_ fun _ _ => (takeMember_Frame ..).mono (by decide)
  exact .fold (.ite ((drawn_Frame ..).mono (by decide)) (.refl ..)) fun _ _ => (takeMember_Frame ..).mono (by decide)

theorem execPoolCreate_Framed (g : Go) (p : PoolParams) (found : List MemberIdent) (s : State) :
    Framed [.freeIx, .nextId, .mcmds, .budget, .cfg, .pools, .members, .mbx] s (execPoolCreate g p found s) :=
  mbxRun_Framed (by decide) fun _ => (mbxPark_Frame ..).on ((makePool_Frame ..).mono (by decide)) rfl

theorem execPoolDelete_Framed (g : Go) (pool : Nat) (s : State) :
    Framed [.nextId, .tiles, .mcmds, .fetches, .budget, .cfg, .pools, .vols, .members, .partners, .mbx] s (execPoolDelete g pool s) := by
  unfold execPoolDelete
  refine mbxRun_Framed (by decide) fun _ => ?_
  refine (mbxStore_Frame ..).on ?_ rfl
  refine .fold ?_ fun _ _ => (issue_Frame ..).mono (by decide)
  refine (removePool_Frame ..).on ?_ rfl
  split
  exacts [(partnerSend_Frame ..).mono (by decide), .refl ..]

theorem setRunning_Frame (s : State) (pool : Nat) (on : Bool) : Frame [.cfg, .pools] s (setRunning s pool on) :=
  (setPoolCfg_Frame ..).on ((modPool_Frame ..).mono (by decide)) rfl

theorem execPoolStart_Framed (g : Go) (pool : Nat) (s : State) :
    Framed [.nextId, .cfg, .pools, .mbx] s (execPoolStart g pool s) := by
  unfold execPoolStart
  dsimp only
  refine mbxRun_Framed (by decide) fun _ => ?_
  refine .ite ((mbxOk_Frame ..).mono (by decide)) ?_
  exact (mbxStore_Frame ..).on ((setRunning_Frame ..).mono (by decide)) rfl

theorem execPoolStop_Framed (g : Go) (pool : Nat) (s : State) :
    Framed [.nextId, .cfg, .pools, .mbx] s (execPoolStop g pool s) := by
  unfold execPoolStop
  refine mbxRun_Framed (by decide) fun _ => ?_
  split
  · exact (mbxStore_Frame ..).on ((setRunning_Frame ..).mono (by decide)) rfl
  · exact (mbxStore_Frame ..).on ((setRunning_Frame ..).mono (by decide)) rfl
  · exact (mbxOk_Frame ..).mono (by decide)

theorem execPoolStatus_Framed (g : Go) (pool : Nat) (s : State) : Framed [.nextId, .mbx] s (execPoolStatus g pool s) :=
  mbxRun_Framed (by decide) fun _ => (mbxOk_Frame ..).mono (by decide)

theorem execMemberStatus_Framed (g : Go) (member : Nat) (s : State) : Framed [.nextId, .mbx] s (execMemberStatus g member s) :=
  mbxRun_Framed (by decide) fun _ => (mbxOk_Frame ..).mono (by decide)

theorem execMemberDefine_Framed (g : Go) (p : MemberParams) (s : State) :
    Framed [.nextId, .cfg, .members, .mbx] s (execMemberDefine g p s) := by
  unfold execMemberDefine
  refine mbxRun_Framed (by decide) fun _ => ?_
  refine (mbxStore_Frame ..).on ?_ rfl
  exact .of_overlay rfl

theorem execMemberFail_Framed (g : Go) (member : Nat) (s : State) :
    Framed (rowAnd [.freeIx, .cmds, .replays, .maints, .cfg, .vols, .members, .mbx, .cache, .tests]) s (execMemberFail g member s) := by
  unfold execMemberFail
  dsimp only
  exact mbxRun_Framed (by decide) fun _ => (mbxOk_Frame ..).on ((declareFailed_Frame ..).mono (by decide)) rfl

theorem execMemberReplace_Framed (g : Go) (pool index member : Nat) (found : MemberIdent) (s : State) :
    Framed (rowAnd [.cfg, .vols, .members, .mbx]) s (execMemberReplace g pool index member found s) :=
  mbxRun_Framed (by decide) fun _ => (changePool_Frame ..).on ((takeMember_Frame ..).mono (by decide)) rfl

theorem execHotspareSet_Framed (g : Go) (pool : Nat) (members : List Nat) (found : List MemberIdent) (s : State) :
    Framed [.nextId, .mcmds, .budget, .cfg, .pools, .members, .mbx] s (execHotspareSet g pool members found s) := by
  unfold execHotspareSet
  refine mbxRun_Framed (by decide) fun _ => ?_
  refine (mbxStore_Frame ..).on ((writeTable_Frame ..).on ((writeHeader_Frame ..).on ?_ rfl) rfl) rfl
  exact (setPoolCfg_Frame ..).on (.fold (.refl ..) fun _ _ => (takeMember_Frame ..).mono (by decide)) rfl

theorem execPoolDegradedConfig_Framed (g : Go) (pool deadlineUs scrubDays : Nat) (s : State) :
    Framed [.nextId, .cfg, .mbx] s (execPoolDegradedConfig g pool deadlineUs scrubDays s) :=
  mbxRun_Framed (by decide) fun _ => (mbxStore_Frame ..).on ((setPoolCfg_Frame ..).mono (by decide)) rfl

theorem execRebuildConfig_Framed (g : Go) (floorPct : Nat) (s : State) :
    Framed [.nextId, .cfg, .mbx] s (execRebuildConfig g floorPct s) :=
  mbxRun_Framed (by decide) fun _ => (mbxStore_Frame ..).on ((updCfg_Frame ..).mono (by decide)) rfl

theorem execRebuildStatus_Framed (g : Go) (pool : Nat) (buf : SegDesc) (s : State) :
    Framed [.nextId, .pcie, .mbx] s (execRebuildStatus g pool buf s) :=
  mbxRun_Framed (by decide) fun _ => (mbxOk_Frame ..).on ((writeBuf_Frame ..).mono (by decide)) rfl

theorem scrubControl_Framed {l : List Piece} {s : State} {g : Go} {pool : Nat} {f : State → State} (hl : [.nextId, .mbx] ⊆ l)
    (hf : ∀ u, Frame l u (f u)) : Framed l s (scrubControl s g pool f) :=
  mbxRun_Framed hl fun _ => (hf _).trans ((mbxOk_Frame ..).mono (List.Subset.trans (by decide) hl))

theorem restartScrub_Frame (s : State) (pool : Nat) : Frame rowPieces s (restartScrub s pool) := by
  unfold restartScrub
  dsimp only
  split
  · exact (releaseRow_Frame ..).on (.fold ((updPool_Frame ..).mono (by decide)) fun _ _ => (endFetch_Frame ..).mono (by decide)) rfl
  · exact (updPool_Frame ..).mono (by decide)

theorem execScrubStart_Framed (g : Go) (pool : Nat) (s : State) : Framed (rowAnd [.mbx]) s (execScrubStart g pool s) :=
  scrubControl_Framed (by decide) fun _ => (restartScrub_Frame ..).mono (by decide)

theorem execScrubPause_Framed (g : Go) (pool : Nat) (s : State) : Framed [.nextId, .pools, .mbx] s (execScrubPause g pool s) :=
  scrubControl_Framed (by decide) fun _ => (modPool_Frame ..).mono (by decide)

theorem execScrubResume_Framed (g : Go) (pool : Nat) (s : State) : Framed [.nextId, .pools, .mbx] s (execScrubResume g pool s) :=
  scrubControl_Framed (by decide) fun _ => (modPool_Frame ..).mono (by decide)

theorem execLstRead_Framed (g : Go) (pool first : Nat) (buf : SegDesc) (s : State) :
    Framed [.nextId, .pcie, .mbx] s (execLstRead g pool first buf s) :=
  mbxRun_Framed (by decide) fun _ => (mbxOk_Frame ..).on ((writeBuf_Frame ..).mono (by decide)) rfl

end Sys2Proof.Machine
end

section
/-! PROOFS. Frames: the volume group. -/

namespace Sys2Proof.Machine

theorem execVolumeCreate_Framed (g : Go) (p : VolParams) (s : State) :
    Framed [.nextId, .tiles, .cfg, .pools, .vols, .partners, .mbx] s (execVolumeCreate g p s) := by
  unfold execVolumeCreate
  exact mbxRun_Framed (by decide) fun _ => (changePool_volFrame ..).mono (by decide)

theorem execVolumeDelete_Framed (g : Go) (vol : Nat) (s : State) :
    Framed [.nextId, .tiles, .cfg, .pools, .vols, .partners, .mbx] s (execVolumeDelete g vol s) := by
  unfold execVolumeDelete
  exact mbxRun_Framed (by decide) fun _ => (changePool_volFrame ..).mono (by decide)

theorem execVolumeSet_Framed (g : Go) (vol mask home : Nat) (attr : BitVec 8) (policy : Nat) (s : State) :
    Framed [.nextId, .tiles, .cfg, .pools, .vols, .partners, .mbx] s (execVolumeSet g vol mask home attr policy s) := by
  unfold execVolumeSet
  exact mbxRun_Framed (by decide) fun _ => (changePool_volFrame ..).mono (by decide)

theorem execVolumeSetExtents_Framed (g : Go) (vol extents : Nat) (buf : SegDesc) (list : List Nat) (s : State) :
    Framed [.nextId, .tiles, .cfg, .pools, .vols, .partners, .mbx] s (execVolumeSetExtents g vol extents buf list s) := by
  unfold execVolumeSetExtents
  exact mbxRun_Framed (by decide) fun _ => (changePool_volFrame ..).mono (by decide)

theorem execCacheRatSet_Framed (g : Go) (vol policy : Nat) (entries : List RatEntry) (s : State) :
    Framed [.nextId, .tiles, .cfg, .pools, .vols, .partners, .mbx] s (execCacheRatSet g vol policy entries s) := by
  unfold execCacheRatSet
  exact mbxRun_Framed (by decide) fun _ => (changePool_volFrame ..).mono (by decide)

theorem execVolumeStart_Framed (g : Go) (vol : Nat) (s : State) :
    Framed [.nextId, .cfg, .vols, .mbx] s (execVolumeStart g vol s) := by
  unfold execVolumeStart
  refine mbxRun_Framed (by decide) fun _ => ?_
  refine .ite ((mbxOk_Frame ..).mono (by decide)) ?_
  exact (mbxStore_Frame ..).on ((modVol_Frame ..).on ((setVolCfg_Frame ..).mono (by decide)) rfl) rfl

theorem stopVol_Frame (s : State) (vol : Nat) : Frame [.cfg, .vols] s (stopVol s vol) :=
  (modVol_Frame ..).on ((setVolCfg_Frame ..).mono (by decide)) rfl

theorem execVolumeStop_Framed (g : Go) (vol : Nat) (s : State) :
    Framed [.nextId, .cfg, .vols, .mbx] s (execVolumeStop g vol s) := by
  unfold execVolumeStop
  refine mbxRun_Framed (by decide) fun _ => ?_
  split
  · exact (mbxOk_Frame ..).mono (by decide)
  · exact (mbxStore_Frame ..).on ((stopVol_Frame ..).mono (by decide)) rfl
  · exact (mbxPark_Frame ..).on ((modVol_Frame ..).mono (by decide)) rfl

theorem execVolumeStopComplete_Framed (mb : Nat) (s : State) : Framed [.cfg, .vols, .mbx] s (execVolumeStopComplete mb s) := by
  unfold execVolumeStopComplete
  split
  · exact .ite (.done ((mbxPark_Frame ..).on ((stopVol_Frame ..).mono (by decide)) rfl)) .stays
  · exact .stays

theorem execVolumeStatus_Framed (g : Go) (vol : Nat) (s : State) : Framed [.nextId, .mbx] s (execVolumeStatus g vol s) := by
  unfold execVolumeStatus
  refine mbxRun_Framed (by decide) fun _ => ?_
  split <;> exact (mbxOk_Frame ..).mono (by decide)

theorem execJournalStatus_Framed (g : Go) (scope ident : Nat) (buf : SegDesc) (s : State) :
    Framed [.nextId, .pcie, .mbx] s (execJournalStatus g scope ident buf s) :=
  mbxRun_Framed (by decide) fun _ => (mbxOk_Frame ..).on ((writeBuf_Frame ..).mono (by decide)) rfl

theorem execJournalMirrorSet_Framed (g : Go) (pool index0 index1 : Nat) (s : State) :
    Framed [.nextId, .cfg, .pools, .partners, .mbx] s (execJournalMirrorSet g pool index0 index1 s) :=
  mbxRun_Framed (by decide) fun _ => (changePool_poolFrame ..).mono (by decide)

theorem execJournalDrain_Framed (g : Go) (scope ident : Nat) (s : State) :
    Framed [.nextId, .vols, .mbx] s (execJournalDrain g scope ident s) :=
  mbxRun_Framed (by decide) fun _ => (mbxPark_Frame ..).on (.fold (.refl ..) fun _ _ => (modVol_Frame ..).mono (by decide)) rfl

theorem endDrain_Frame (s : State) (vols : List Nat) : Frame [.vols] s (endDrain s vols) :=
  .fold (.refl ..) fun _ _ => modVol_Frame ..

theorem execJournalDrainComplete_Framed (mb : Nat) (s : State) : Framed [.vols, .mbx] s (execJournalDrainComplete mb s) := by
  unfold execJournalDrainComplete
  split
  exacts [.ite (.done ((mbxOk_Frame ..).on ((endDrain_Frame ..).mono (by decide)) rfl)) .stays, .stays]

theorem execDevInfo_Framed (g : Go) (s : State) : Framed [.nextId, .mbx] s (execDevInfo g s) :=
  mbxRun_Framed (by decide) fun _ => (mbxOk_Frame ..).mono (by decide)

theorem execConfigStored_Framed (mb : Nat) (s : State) : Framed [.flash, .mbx] s (execConfigStored mb s) := by
  unfold execConfigStored
  refine .ite .stays ?_
  split
  · exact .done ((mbxFinish_Frame ..).on ((storeCfg_Frame ..).mono (by decide)) rfl)
  · exact .done ((mbxFinish_Frame ..).on ((storeCfg_Frame ..).mono (by decide)) rfl)
  · exact .ite .stays (.done ((mbxFinish_Frame ..).on ((storeCfg_Frame ..).mono (by decide)) rfl))
  · exact .stays

theorem cancelRunning_Frame (s : State) (mb : Nat) : Frame [.cfg, .vols, .mbx, .hk] s (cancelRunning s mb) := by
  unfold cancelRunning
  dsimp only
  split
  · exact .ite ((mbxFinish_Frame ..).mono (by decide)) (.refl ..)
  · exact (mbxFinish_Frame ..).on ((modVol_Frame ..).mono (by decide)) rfl
  · exact (mbxFinish_Frame ..).on ((modVol_Frame ..).on ((setVolCfg_Frame ..).mono (by decide)) rfl) rfl
  · exact (mbxFinish_Frame ..).on ((endDrain_Frame ..).mono (by decide)) rfl
  · exact (mbxFinish_Frame ..).on ((updHk_Frame ..).mono (by decide)) rfl
  · exact .refl ..

theorem doorbell_Frame (s : State) (mb : Nat) (v : W32) : Frame [.cfg, .vols, .mbx, .hk] s (doorbell s mb v) := by
  unfold doorbell
  refine .ite (.refl ..) ?_
  refine .ite ?_ (.ite ((setMbx_Frame ..).mono (by decide)) (.refl ..))
  exact (cancelRunning_Frame ..).on (.ite ((setMbx_Frame ..).mono (by decide)) (.refl ..)) rfl

theorem doorbellRow_Framed (s : State) (mb : Nat) (v : W32) : Framed [.cfg, .vols, .mbx, .hk] s (doorbellRow s mb v) :=
  .ite (.done (doorbell_Frame ..)) .stays

theorem execMailboxCancel_Framed (mb : Nat) (v : W32) (s : State) :
    Framed [.cfg, .vols, .mbx, .hk] s (execMailboxCancel mb v s) := .ite (doorbellRow_Framed ..) .stays

theorem execOverrun_Framed (mb : Nat) (v : W32) (s : State) : Framed [.cfg, .vols, .mbx, .hk] s (execOverrun mb v s) :=
  .ite (doorbellRow_Framed ..) .stays

theorem setOwners_Frame (s : State) (kind : Nat) (ns : List Nat) (vf : Nat) : Frame [.pcie] s (setOwners s kind ns vf) := by
  unfold setOwners
  split <;> exact updPcie_Frame ..

theorem setRanges_Frame (s : State) (vf : Nat) (l : List (Nat × Nat)) : Frame [.pcie] s (setRanges s vf l) := updPcie_Frame ..

theorem execFuncAssign_Framed (g : Go) (vf kind op first last : Nat) (s : State) :
    Framed [.nextId, .pcie, .mbx] s (execFuncAssign g vf kind op first last s) := by
  unfold execFuncAssign
  refine .ite .stays ?_
  refine mbxRun_Framed (by decide) fun _ => ?_
  refine .ite ?_ ((mbxOk_Frame ..).on ((setOwners_Frame ..).mono (by decide)) rfl)
  exact (mbxOk_Frame ..).on ((setRanges_Frame ..).mono (by decide)) rfl

theorem execWithdraw_Framed (g : Go) (vf kind op first last : Nat) (s : State) :
    Framed [.nextId, .pcie, .mbx] s (execWithdraw g vf kind op first last s) := by
  unfold execWithdraw
  refine .ite .stays ?_
  refine mbxRun_Framed (by decide) fun _ => ?_
  refine .ite ?_ ((mbxOk_Frame ..).on ((setOwners_Frame ..).mono (by decide)) rfl)
  exact (mbxOk_Frame ..).on ((setRanges_Frame ..).mono (by decide)) rfl

end Sys2Proof.Machine
end

section
/-! PROOFS. Frames: the device group. -/

namespace Sys2Proof.Machine

theorem execShortSelftest_Framed (g : Go) (kind _pool : Nat) (s : State) :
    Framed [.nextId, .mbx, .tests] s (execShortSelftest g kind _pool s) :=
  .ite .stays (mbxRun_Framed (by decide) fun _ => (mbxOk_Frame ..).on ((setTest_Frame ..).mono (by decide)) rfl)

theorem execExtendedSelftest_Framed (g : Go) (kind pool : Nat) (s : State) :
    Framed [.nextId, .mbx, .tests] s (execExtendedSelftest g kind pool s) :=
  .ite .stays (mbxRun_Framed (by decide) fun _ => (mbxOk_Frame ..).on ((setTest_Frame ..).mono (by decide)) rfl)

theorem dropTestRow_Frame (s : State) (kind pool : Nat) (t : Test) : Frame (rowAnd [.tests]) s (dropTestRow s kind pool t) := by
  unfold dropTestRow
  split
  · exact (releaseRow_Frame ..).on ((setTest_Frame ..).on ((endFetch_Frame ..).mono (by decide)) rfl) rfl
  · exact (setTest_Frame ..).mono (by decide)

theorem shortFindings_Frame (s : State) (badLines : List (Nat × Nat)) (badMram : List Nat) (badCitrine : List (Nat × Nat)) :
    Frame (faultAnd [.freeIx, .nextId, .tiles, .mcmds, .budget, .cache]) s (shortFindings s badLines badMram badCitrine) := by
  unfold shortFindings
  refine .fold (.fold (.fold (.refl ..) ?_) ?_) ?_
  · exact fun u e => .getD fun _ h => (retireLine_Frame h).mono (by decide)
  · exact fun u t => (fault0_Frame ..).mono (by decide)
  · exact fun u e => (fault0_Frame ..).on ((drawn_Frame ..).mono (by decide)) rfl

theorem execSelftestComplete_Framed (kind pool : Nat) (badLines : List (Nat × Nat)) (badMram : List Nat) (badCitrine : List
    (Nat × Nat)) (s : State) :
    Framed (faultAnd [.freeIx, .nextId, .tiles, .mcmds, .budget, .cache, .tests]) s
        (execSelftestComplete kind pool badLines badMram badCitrine s) := by
  unfold execSelftestComplete
  refine .ite ?_ ?_
  · exact .ite .stays (.done ((shortFindings_Frame ..).on ((setTest_Frame ..).mono (by decide)) rfl))
  · refine .ite .stays ?_
    refine .done ?_
    refine .ite ((setTest_Frame ..).mono (by decide)) ?_
    exact (fault0_Frame ..).on ((drawn_Frame ..).on ((setTest_Frame ..).mono (by decide)) rfl) rfl

theorem execSelftestStatus_Framed (g : Go) (kind pool : Nat) (s : State) :
    Framed [.nextId, .mbx] s (execSelftestStatus g kind pool s) := mbxRun_Framed (by decide) fun _ => (mbxOk_Frame ..).mono (by decide)

theorem abortTest_Frame (s : State) (kind pool : Nat) : Frame (rowAnd [.tests]) s (abortTest s kind pool) :=
  .ite (dropTestRow_Frame ..) (.refl ..)

theorem execSelftestAbort_Framed (g : Go) (kind pool : Nat) (s : State) :
    Framed (rowAnd [.mbx, .tests]) s (execSelftestAbort g kind pool s) :=
  mbxRun_Framed (by decide) fun _ => (mbxOk_Frame ..).on ((abortTest_Frame ..).mono (by decide)) rfl

theorem execJetStatus_Framed (g : Go) (s : State) : Framed [.nextId, .mbx] s (execJetStatus g s) :=
  mbxRun_Framed (by decide) fun _ => (mbxOk_Frame ..).mono (by decide)

theorem execJetToken_Framed (g : Go) (s : State) : Framed [.freeIx, .nextId, .mbx, .jet] s (execJetToken g s) :=
  mbxRun_Framed (by decide) fun _ => (mbxOk_Frame ..).on ((updJet_Frame ..).on ((drawn_Frame ..).mono (by decide)) rfl) rfl

theorem execJetTokenExpiry_Framed (s : State) : Framed [.jet] s (execJetTokenExpiry s) := .ite (.done (updJet_Frame ..)) .stays

theorem execJetClear_Framed (g : Go) (token : W32) (s : State) : Framed [.nextId, .mbx, .jet] s (execJetClear g token s) :=
  mbxRun_Framed (by decide) fun _ => (mbxPark_Frame ..).on ((updJet_Frame ..).mono (by decide)) rfl

theorem flushBuffer_Frame (s : State) : Frame [.jet] s (flushBuffer s) := .fold (updJet_Frame ..) fun _ _ => jetInfo_Frame ..

theorem execJetClearDone_Framed (mb : Nat) (s : State) : Framed [.mbx, .jet] s (execJetClearDone mb s) := by
  unfold execJetClearDone
  refine .ite .stays ?_
  exact .done ((mbxOk_Frame ..).on ((flushBuffer_Frame ..).on ((updJet_Frame ..).on ((updJet_Frame ..).mono (by decide)) rfl) rfl) rfl)

theorem execFwInfo_Framed (g : Go) (s : State) : Framed [.nextId, .mbx] s (execFwInfo g s) :=
  mbxRun_Framed (by decide) fun _ => (mbxOk_Frame ..).mono (by decide)

theorem execFwDownload_Framed (g : Go) (offset length : Nat) (buf : SegDesc) (data : List Byte) (s : State) :
    Framed [.nextId, .flash, .mbx] s (execFwDownload g offset length buf data s) := by
  unfold execFwDownload
  dsimp only
  exact mbxRun_Framed (by decide) fun _ => (mbxOk_Frame ..).on ((updFlash_Frame ..).mono (by decide)) rfl

theorem execFwVerifyPending_Framed (g : Go) (action : Nat) (s : State) :
    Framed [.nextId, .flash, .mbx] s (execFwVerifyPending g action s) :=
  .ite .stays (mbxRun_Framed (by decide) fun _ => (mbxOk_Frame ..).on ((updFlash_Frame ..).mono (by decide)) rfl)

theorem execFwClearPending_Framed (g : Go) (action : Nat) (s : State) :
    Framed [.nextId, .flash, .mbx] s (execFwClearPending g action s) :=
  .ite .stays (mbxRun_Framed (by decide) fun _ => (mbxOk_Frame ..).on ((updFlash_Frame ..).mono (by decide)) rfl)

theorem execFwConfirm_Framed (g : Go) (action : Nat) (s : State) : Framed [.nextId, .mbx, .sec] s (execFwConfirm g action s) :=
  .ite .stays (mbxRun_Framed (by decide) fun _ => (mbxOk_Frame ..).on ((updSec_Frame ..).mono (by decide)) rfl)

theorem execSecPubkey_Framed (g : Go) (buf : SegDesc) (s : State) : Framed [.nextId, .pcie, .mbx] s (execSecPubkey g buf s) :=
  mbxRun_Framed (by decide) fun _ => (mbxOk_Frame ..).on ((writeBuf_Frame ..).mono (by decide)) rfl

theorem execSecMeasure_Framed (g : Go) (buf : SegDesc) (s : State) : Framed [.nextId, .pcie, .mbx] s (execSecMeasure g buf s) :=
  mbxRun_Framed (by decide) fun _ => (mbxOk_Frame ..).on ((writeBuf_Frame ..).mono (by decide)) rfl

theorem execKekLoad_Framed (g : Go) (hostPub wrapped : List Byte) (s : State) :
    Framed [.nextId, .cfg, .mbx] s (execKekLoad g hostPub wrapped s) :=
  mbxRun_Framed (by decide) fun _ => (mbxStore_Frame ..).on ((updCfg_Frame ..).mono (by decide)) rfl

theorem execKeyLoad_Framed (g : Go) (vol : Nat) (wrapped : List Byte) (s : State) :
    Framed [.nextId, .tiles, .cfg, .pools, .vols, .partners, .mbx] s (execKeyLoad g vol wrapped s) := by
  unfold execKeyLoad
  exact mbxRun_Framed (by decide) fun _ => (changePool_volFrame ..).mono (by decide)

theorem execKeyDestroy_Framed (g : Go) (vol : Nat) (s : State) :
    Framed [.nextId, .tiles, .cfg, .pools, .vols, .partners, .mbx] s (execKeyDestroy g vol s) := by
  unfold execKeyDestroy
  exact mbxRun_Framed (by decide) fun _ => (changePool_volFrame ..).mono (by decide)

theorem enterPs_Frame (s : State) (p : Ps) : Frame [.jet, .hk] s (enterPs s p) :=
  (jetInfo_Frame ..).on ((updHk_Frame ..).mono (by decide)) rfl

theorem execPowerStateSet_Framed (g : Go) (st : Nat) (s : State) :
    Framed [.nextId, .mbx, .jet, .hk] s (execPowerStateSet g st s) := by
  unfold execPowerStateSet
  refine mbxRun_Framed (by decide) fun _ => ?_
  refine .ite ((mbxOk_Frame ..).mono (by decide)) ?_
  refine .ite ?_ ((mbxPark_Frame ..).on ((updHk_Frame ..).mono (by decide)) rfl)
  exact (mbxOk_Frame ..).on ((enterPs_Frame ..).mono (by decide)) rfl

theorem execPowerStateEntry_Framed (s : State) : Framed [.mbx, .jet, .hk] s (execPowerStateEntry s) := by
  unfold execPowerStateEntry
  split
  exacts [.ite (.done ((mbxOk_Frame ..).on ((enterPs_Frame ..).mono (by decide)) rfl)) .stays, .stays]

theorem execPowerStatus_Framed (g : Go) (s : State) : Framed [.nextId, .mbx] s (execPowerStatus g s) :=
  mbxRun_Framed (by decide) fun _ => (mbxOk_Frame ..).mono (by decide)

theorem execPowerD3cold_Framed (g : Go) (enable : Nat) (s : State) :
    Framed [.nextId, .cfg, .mbx] s (execPowerD3cold g enable s) :=
  mbxRun_Framed (by decide) fun _ => (mbxStore_Frame ..).on ((updCfg_Frame ..).mono (by decide)) rfl

theorem execThermalConfig_Framed (g : Go) (warn throttle critical graceMs : Nat) (s : State) :
    Framed [.nextId, .cfg, .mbx] s (execThermalConfig g warn throttle critical graceMs s) :=
  mbxRun_Framed (by decide) fun _ => (mbxStore_Frame ..).on ((updCfg_Frame ..).mono (by decide)) rfl

end Sys2Proof.Machine
end

section
/-! PROOFS. Frames: the tiles and the mesh. -/

namespace Sys2Proof.Machine

theorem reroute_Frame (old s : State) : Frame (faultAnd [.mesh]) s (reroute old s) := by
  unfold reroute
  exact .ite ((enterF4_Frame ..).on ((jetRec_Frame ..).on ((updMesh_Frame ..).mono (by decide)) rfl) rfl)
      ((updMesh_Frame ..).mono (by decide))

theorem execMeshLinkLoss_Framed (a b : Nat) (s : State) : Framed (faultAnd [.mesh]) s (execMeshLinkLoss a b s) :=
  .ite (.done ((reroute_Frame s _).on ((updMesh_Frame ..).mono (by decide)) rfl)) .stays

theorem keepSalvages_Frame (s : State) (t : Nat) : Frame [.pools] s (keepSalvages s t) :=
  .fold (.refl ..) fun _ _ => modPool_Frame ..

theorem dropTileWork_Frame (s : State) (t b : Nat) :
    Frame [.mcmds, .fetches, .destages, .replays, .maints, .pools] s (dropTileWork s t b) :=
  (updMcmdsFetchesDestagesReplaysMaints_Frame ..).on ((keepSalvages_Frame ..).mono (by decide)) rfl

theorem movePool_Frame (s : State) (b pool : Nat) : Frame rowPieces s (movePool s b pool) :=
  (startSalvages_Frame ..).on ((modPool_Frame ..).mono (by decide)) rfl

theorem forgetCmd_Frame (s : State) (c : Cmd) : Frame [.tiles, .cmds, .maints] s (forgetCmd s c) := by
  unfold forgetCmd
  dsimp only
  split
  · exact (updMaints_Frame ..).on ((removeCmd_Frame ..).mono (by decide)) rfl
  · exact (removeCmd_Frame ..).mono (by decide)

theorem reforward_Frame (s : State) (t : Nat) (moved : List Nat) (c : Cmd) :
    Frame [.nextId, .tiles, .cmds, .maints, .pcie] s (reforward s t moved c) := by
  unfold reforward
  refine .ite (.refl ..) ?_
  refine .ite ((forgetCmd_Frame ..).mono (by decide)) ?_
  dsimp only
  split
  · exact (voidReqs_Frame ..).on ((forwardCmd_Frame ..).on ((modCmd_Frame ..).mono (by decide)) rfl) rfl
  · exact (forwardCmd_Frame ..).on ((modCmd_Frame ..).mono (by decide)) rfl

theorem adopt_Frame (s : State) (t b : Nat) : Frame (rowAnd [.replays]) s (adopt s t b) := by
  unfold adopt
  refine .ite ?_ ?_
  · exact (replayRings_Frame ..).on ((modTile_Frame ..).on ((updPartners_Frame ..).on ((modAmber_Frame ..).mono (by decide)) rfl) rfl) rfl
  · exact (replayRings_Frame ..).on ((modTile_Frame ..).on ((updPartners_Frame ..).on ((modAmber_Frame ..).mono (by decide)) rfl) rfl) rfl

theorem takeVol_Frame (s : State) (t b v : Nat) : Frame [.vols] s (takeVol s t b v) :=
  .ite (.refl ..) ((modVol_Frame ..).on (modVol_Frame ..) rfl)

theorem loseVol_Frame (s : State) (t v : Nat) : Frame [.vols] s (loseVol s t v) := .ite (modVol_Frame ..) (.refl ..)

theorem rehostSq_Frame (s : State) (n : Nat) :
    Frame [.tiles, .cmds, .mcmds, .fetches, .pools, .vols, .partners, .pcie, .sqs, .cqs, .live, .jet] s (rehostSq s n) := by
  unfold rehostSq
  refine .ite ?_ ?_
  · exact (voidReqs_Frame ..).on (.fold (.refl ..) fun _ _ => (endLive_Frame ..).mono (by decide)) rfl
  · refine (startScan_Frame ..).on ?_ rfl
    split
    · refine (postCqe_Frame ..).on ((publish_Frame ..).on ((modSq_Frame ..).on ?_ rfl) rfl) rfl
      exact (voidReqs_Frame ..).on (.fold (.refl ..) fun _ _ => (endLive_Frame ..).mono (by decide)) rfl
    · refine (publish_Frame ..).on ((modSq_Frame ..).on ?_ rfl) rfl
      exact (voidReqs_Frame ..).on (.fold (.refl ..) fun _ _ => (endLive_Frame ..).mono (by decide)) rfl

theorem rehost_Frame (s : State) (t b : Nat) :
    Frame (faultAnd [.tiles, .cmds, .mcmds, .fetches, .pools, .vols, .sqs, .cqs, .live]) s (rehost s t b) := by
  unfold rehost
  refine .ite ?_ ?_
  · refine .ite ?_ ?_
    · exact .fold ((updCqs_Frame ..).mono (by decide)) fun _ _ => (rehostSq_Frame ..).mono (by decide)
    · exact (fault0_Frame ..).on (.fold ((updCqs_Frame ..).mono (by decide)) fun _ _ => (rehostSq_Frame ..).mono (by decide)) rfl
  · refine .fold ((updCqs_Frame ..).mono (by decide)) fun _ _ => ?_
    exact (voidReqs_Frame ..).on (.fold (.refl ..) fun _ _ => (endLive_Frame ..).mono (by decide)) rfl

theorem stopWindows_Frame (s : State) (t : Nat) : Frame [.pcie] s (stopWindows s t) := updPcie_Frame ..

theorem dropConns_Frame (s : State) (t : Nat) :
    Frame [.tiles, .cmds, .mcmds, .fetches, .pools, .vols, .sbt, .partners] s (dropConns s t) :=
  .fold (.refl ..) fun _ _ => loseConn_Frame ..

theorem dropPorts_Frame (s : State) (t : Nat) : Frame (faultAnd [.mcmds, .budget, .members]) s (dropPorts s t) := by
  unfold dropPorts
  refine .fold (.fold (.refl ..) fun _ _ => downLink_Frame ..) fun _ _ => ?_
  exact .fold (.refl ..) fun _ _ => (dropQueue_Frame ..).mono (by decide)

theorem loseT0_Frame (s : State) : Frame (faultAnd [.tiles, .vols]) s (loseT0 s) :=
  (updPinsMoonPcie_Frame ..).on (.ite ((endSeal_Frame ..).mono (by decide)) (.refl ..)) rfl

/-- A tile lost (R125, R126): its tests, connections and work dropped, its volumes taken up by its buddy, its commands, pools and ports
moved, then the routes. -/
theorem loseTile_Frame (s0 : State) (t : Nat) :
    Frame (rowAnd [.mesh, .cmds, .replays, .maints, .vols, .members, .sbt, .sqs, .cqs, .live, .tests]) s0 (loseTile s0 t) := by
  unfold loseTile
  refine .ite (.refl ..) ?_
  extract_lets b tested closed dropped cleared vols moved taken stopped rehosted forwarded pooled unported adopted flushed
  have hcleared : Frame (rowAnd [.mesh, .cmds, .replays, .maints, .vols, .members, .sbt, .sqs, .cqs, .live, .tests]) s0 cleared :=
    (modTile_Frame ..).on ((dropTileWork_Frame ..).on ((dropConns_Frame ..).on
        (.fold (.refl ..) fun _ _ => (abortTest_Frame ..).mono (by decide)) rfl) rfl) rfl
  have htaken : Frame (rowAnd [.mesh, .cmds, .replays, .maints, .vols, .members, .sbt, .sqs, .cqs, .live, .tests]) s0 taken :=
    .ite (.fold hcleared fun _ _ => (takeVol_Frame ..).mono (by decide)) (.fold hcleared fun _ _ => (loseVol_Frame ..).mono (by decide))
  have hforwarded : Frame (rowAnd [.mesh, .cmds, .replays, .maints, .vols, .members, .sbt, .sqs, .cqs, .live, .tests]) s0 forwarded :=
    .fold ((rehost_Frame ..).on ((stopWindows_Frame ..).on htaken rfl) rfl) fun _ _ => (reforward_Frame ..).mono (by decide)
  have hunported : Frame (rowAnd [.mesh, .cmds, .replays, .maints, .vols, .members, .sbt, .sqs, .cqs, .live, .tests]) s0 unported :=
    (dropPorts_Frame ..).on (.fold hforwarded fun _ _ => (movePool_Frame ..).mono (by decide)) rfl
  have hflushed : Frame (rowAnd [.mesh, .cmds, .replays, .maints, .vols, .members, .sbt, .sqs, .cqs, .live, .tests]) s0 flushed :=
      (flushProgress_Frame ..).on (.ite ((adopt_Frame ..).on hunported rfl) hunported) rfl
  exact (reroute_Frame ..).on (.ite ((loseT0_Frame ..).on hflushed rfl) hflushed) rfl

theorem declareLost_Frame (s : State) (t : Nat) (a : FaultArg) :
    Frame (rowAnd [.mesh, .cmds, .replays, .maints, .vols, .members, .sbt, .sqs, .cqs, .live, .tests]) s (declareLost s t a) :=
  (loseTile_Frame ..).on ((fault_Frame ..).on (.ite ((updJet_Frame ..).mono (by decide)) (.refl ..)) rfl) rfl

theorem execHeartbeatTimeout_Framed (tile : Nat) (s : State) :
    Framed (rowAnd [.freeIx, .mesh, .cmds, .replays, .maints, .vols, .members, .sbt, .sqs, .cqs, .live, .tests]) s
        (execHeartbeatTimeout tile s) := by
  unfold execHeartbeatTimeout
  exact .ite (.done ((declareLost_Frame ..).on ((drawn_Frame ..).mono (by decide)) rfl)) .stays

end Sys2Proof.Machine
end

section
/-! PROOFS. Frames: the fault rows. -/

namespace Sys2Proof.Machine

theorem ackFault_Frame (s : State) (v : W32) : Frame [.jade, .jet] s (ackFault s v) := by
  unfold ackFault
  dsimp only
  split
  · exact (updJade_Frame ..).mono (by decide)
  · exact (resend_Frame ..).on ((freeEntry_Frame ..).on ((jetInfo_Frame ..).mono (by decide)) rfl) rfl

theorem execFaultAck_Framed (v : W32) (s : State) : Framed [.jade, .jet] s (execFaultAck v s) :=
  .ite (.done (ackFault_Frame ..)) .stays

theorem execF2TimerExpiry_Framed (slot : Nat) (s : State) : Framed faultPieces s (execF2TimerExpiry slot s) := by
  unfold execF2TimerExpiry
  split
  · exact .stays
  · refine .ite .stays ?_
    refine .ite ?_ ?_
    · exact .done ((enterF4_Frame ..).on ((updJade_Frame ..).on ((jetRec_Frame ..).mono (by decide)) rfl) rfl)
    · refine .done ?_
      refine (wakeEvent_Frame ..).on ((modWin_Frame ..).on ((updJade_Frame ..).on ((updJade_Frame ..).on ?_ rfl) rfl) rfl) rfl
      exact (jetRec_Frame ..).mono (by decide)

theorem stopLink_Frame (s : State) (port : Nat) :
    Frame (faultAnd [.tiles, .cmds, .mcmds, .fetches, .budget, .pools, .vols, .members, .sbt]) s (stopLink s port) := by
  unfold stopLink
  dsimp only
  refine (modLink_Frame ..).on ((downLink_Frame ..).on ?_ rfl) rfl
  refine .ite ?_ (.refl ..)
  refine .fold (.refl ..) fun _ _ => ?_
  exact (closeConn_Frame ..).mono (by decide)

theorem stopFunction_Frame (s : State) (fn : Nat) : Frame [.pcie, .sqs, .cqs, .live, .jet] s (stopFunction s fn) :=
  (updPcie_Frame ..).on (.fold (.refl ..) fun _ _ => stopSq_Frame ..) rfl

theorem stopMoon_Frame (s : State) : Frame (faultAnd [.tiles, .vols]) s (stopMoon s) := by
  unfold stopMoon
  dsimp only
  refine (modMoon_Frame ..).on ?_ rfl
  refine .ite ?_ (.refl ..)
  exact (endSeal_Frame ..).mono (by decide)

theorem stopPartner_Frame (s : State) (l : Nat) : Frame (faultAnd [.nextId, .mcmds, .budget, .pools]) s (stopPartner s l) :=
  .fold ((modPartner_Frame ..).mono (by decide)) fun _ _ => suspendPool_Frame ..

theorem contain_Frame (s : State) (e : FaultEnt) :
    Frame (rowAnd [.mesh, .cmds, .replays, .maints, .vols, .members, .sbt, .sqs, .cqs, .live, .tests]) s (contain s e) := by
  unfold contain
  split
  · exact (poolOffline_Frame ..).mono (by decide)
  · exact (poolOffline_Frame ..).mono (by decide)
  · exact (stopLink_Frame ..).mono (by decide)
  · exact (stopFunction_Frame ..).mono (by decide)
  · exact (stopMoon_Frame ..).mono (by decide)
  · exact (stopPartner_Frame ..).mono (by decide)
  · exact loseTile_Frame ..

theorem execF3Contained_Framed (slot : Nat) (s : State) :
    Framed (rowAnd [.mesh, .cmds, .replays, .maints, .vols, .members, .sbt, .sqs, .cqs, .live, .tests]) s (execF3Contained slot s) := by
  unfold execF3Contained
  split
  · exact .stays
  · refine .ite .stays ?_
    refine .ite (.done (.ite (.refl ..) (contain_Frame ..))) ?_
    exact .done ((freeEntry_Frame ..).on ((jetInfo_Frame ..).on (.ite (.refl ..) (contain_Frame ..)) rfl) rfl)

theorem execF3ContainmentTimeout_Framed (slot : Nat) (s : State) : Framed faultPieces s (execF3ContainmentTimeout slot s) := by
  unfold execF3ContainmentTimeout
  split
  exacts [.stays, .ite (.done ((enterF4_Frame ..).on ((jetRec_Frame ..).mono (by decide)) rfl)) .stays]

theorem execCorrelationWindowClose_Framed (kind ident : Nat) (s : State) :
    Framed [.jade] s (execCorrelationWindowClose kind ident s) := .ite (.done (updJade_Frame ..)) .stays

theorem execAliveToggle_Framed (s : State) : Framed [.pins] s (execAliveToggle s) := .ite (.done (updPins_Frame ..)) .stays

theorem execCoreWatchdog_Framed (tile core : Nat) (s : State) :
    Framed (rowAnd [.mesh, .cmds, .replays, .maints, .vols, .members, .sbt, .sqs, .cqs, .live, .tests]) s (execCoreWatchdog tile core s)
        := by
  unfold execCoreWatchdog
  exact .ite (.done (declareLost_Frame ..)) .stays

theorem execHostWatchdog_Framed (s : State) : Framed faultPieces s (execHostWatchdog s) :=
  .ite (.done ((fault0_Frame ..).on ((updJade_Frame ..).mono (by decide)) rfl)) .stays

theorem kick_Frame (s : State) : Frame [.jade] s (kick s) := updJade_Frame ..

theorem execAliveKick_Framed (_v : W32) (s : State) : Framed [.jade] s (execAliveKick _v s) := .ite (.done (kick_Frame ..)) .stays

theorem jetData_Frame (s : State) (i : Nat) : Frame [.jet] s (jetData s i).2 := updJet_Frame ..

theorem execJetDataRead_Framed (word : Nat) (s : State) : Framed [.jet] s (execJetDataRead word s) :=
  .ite (.done ((emit_Frame ..).on (jetData_Frame ..) rfl)) .stays

theorem writeCursor_Frame (s : State) (v : W32) : Frame [.jet] s (writeCursor s v) := updJet_Frame ..

theorem execJetCursorWrite_Framed (v : W32) (s : State) : Framed [.jet] s (execJetCursorWrite v s) :=
  .ite (.done (writeCursor_Frame ..)) .stays

theorem execJetSuppressionWindow_Framed (s : State) : Framed [.jet] s (execJetSuppressionWindow s) :=
  .ite .stays (.done (.fold (updJet_Frame ..) fun _ _ => jetInfo_Frame ..))

end Sys2Proof.Machine
end

section
/-! PROOFS. Frames: the registers. -/

namespace Sys2Proof.Machine

theorem dropHalf_Frame (s : State) (l : Loc) : Frame [.pcie] s (dropHalf s l) := modPcie_Frame ..

theorem holdHalf_Frame (s : State) (l : Loc) (v : W32) : Frame [.pcie] s (holdHalf s l v) := by
  unfold holdHalf
  dsimp only
  exact (modPcie_Frame ..).on (dropHalf_Frame ..) rfl

theorem goIdle_Frame (s : State) (mb : Nat) : Frame [.nextId, .mbx] s (goIdle s mb) := by
  unfold goIdle
  refine .ite ?_ ?_
  · exact (mbxFinish_Frame ..).on ((setMbx_Frame ..).on ((bump_Frame ..).mono (by decide)) rfl) rfl
  · refine .ite ?_ ?_
    · exact (mbxFinish_Frame ..).on ((setMbx_Frame ..).on ((bump_Frame ..).mono (by decide)) rfl) rfl
    · dsimp only
      split
      · exact (mbxFinish_Frame ..).on ((setMbx_Frame ..).on ((bump_Frame ..).mono (by decide)) rfl) rfl
      · exact (setMbx_Frame ..).on ((bump_Frame ..).mono (by decide)) rfl

theorem writeMbx_Frame (s : State) (mb off : Nat) (v : W32) :
    Frame [.nextId, .cfg, .vols, .mbx, .hk] s (writeMbx s mb off v) := by
  unfold writeMbx
  refine .ite ?_ ?_
  · exact .ite ((setMbx_Frame ..).mono (by decide)) ((setMbx_Frame ..).mono (by decide))
  · refine .ite ?_ ?_
    · exact .ite ((doorbell_Frame ..).mono (by decide)) (.ite ((goIdle_Frame ..).mono (by decide)) (.refl ..))
    · exact .ite ((resend_Frame ..).on ((setMbx_Frame ..).mono (by decide)) rfl) (.refl ..)

theorem writeSq64_Frame (s : State) (n off : Nat) (v : BitVec 64) : Frame [.sqs] s (writeSq64 s n off v) :=
  .ite (setSq_Frame ..) (setSq_Frame ..)

theorem writeSq32_Frame (s : State) (n off : Nat) (v : Nat) : Frame [.pcie, .sqs, .cqs, .live, .jet] s (writeSq32 s n off v) := by
  unfold writeSq32
  dsimp only
  split
  · exact writeSqCtl_Frame ..
  · exact (setSq_Frame ..).mono (by decide)
  · exact .ite ((setSq_Frame ..).mono (by decide)) ((setSq_Frame ..).mono (by decide))
  · exact (setSq_Frame ..).mono (by decide)
  · exact .refl ..

theorem writeCq64_Frame (s : State) (n : Nat) (v : BitVec 64) : Frame [.cqs] s (writeCq64 s n v) :=
  .ite (setCq_Frame ..) (setCq_Frame ..)

theorem writeCq32_Frame (s : State) (n off : Nat) (v : Nat) : Frame [.cqs] s (writeCq32 s n off v) := by
  unfold writeCq32
  dsimp only
  split
  exacts [writeCqCtl_Frame .., .ite (setCq_Frame ..) (setCq_Frame ..), setCq_Frame .., .refl ..]

theorem modShadow_Frame (s : State) (n : Nat) (f : WinRegs → WinRegs) : Frame [.pcie] s (modShadow s n f) := modWindow_Frame ..

theorem writeWin32_Frame (s : State) (fn n off : Nat) (v : W32) : Frame [.pcie, .jet] s (writeWin32 s fn n off v) := by
  unfold writeWin32
  split
  · exact directWindow_Frame ..
  · exact directWindow_Frame ..
  · exact directWindow_Frame ..
  · exact (resend_Frame ..).on ((modWindow_Frame ..).mono (by decide)) rfl
  · exact .ite ((commitWindow_Frame ..).mono (by decide)) (.refl ..)
  · exact (modShadow_Frame ..).mono (by decide)
  · exact (modShadow_Frame ..).mono (by decide)
  · exact (modShadow_Frame ..).mono (by decide)
  · exact .refl ..

theorem writeWin64_Frame (s : State) (fn n off : Nat) (v : BitVec 64) : Frame [.pcie, .jet] s (writeWin64 s fn n off v) :=
  .ite ((modShadow_Frame ..).mono (by decide)) (directWindow_Frame ..)

theorem writeLocal_Frame (s : State) (fn off : Nat) (v : Nat) : Frame [.pcie] s (writeLocal s fn off v) :=
  .ite (modFunc_Frame ..) (.ite (modFunc_Frame ..) (.ite ((resend_Frame ..).on (modFunc_Frame ..) rfl) (.refl ..)))

theorem writeFaultStatus_Frame (s : State) (v : Nat) : Frame [.jade] s (writeFaultStatus s v) :=
  (resend_Frame ..).on (updJade_Frame ..) rfl

theorem writeAliveCtl_Frame (s : State) (v : Nat) : Frame [.jade] s (writeAliveCtl s v) := updJade_Frame ..

theorem writeHkStatus_Frame (s : State) (v : Nat) : Frame [.hk] s (writeHkStatus s v) := (resend_Frame ..).on (updHk_Frame ..) rfl

theorem writeHkFaults_Frame (s : State) (v : Nat) : Frame [.hk] s (writeHkFaults s v) := updHk_Frame ..

theorem writeChanSel_Frame (s : State) (v : Nat) : Frame [.hk] s (writeChanSel s v) := updHk_Frame ..

theorem writeEpochStatus_Frame (s : State) (v : Nat) : Frame [.moon] s (writeEpochStatus s v) :=
  (resend_Frame ..).on (modMoon_Frame ..) rfl

theorem writeCacheStatus_Frame (s : State) (v : BitVec 64) : Frame [.cache] s (writeCacheStatus s v) :=
  (resend_Frame ..).on (updCache_Frame ..) rfl

theorem writeBlock_Frame (s : State) (off : Nat) (v : W32) :
    Frame [.moon, .tiles, .pcie, .cache, .jade, .jet, .hk] s (writeBlock s off v) := by
  unfold writeBlock
  dsimp only
  split
  · exact (writeFaultStatus_Frame ..).mono (by decide)
  · exact (ackFault_Frame ..).mono (by decide)
  · exact .ite ((updJade_Frame ..).mono (by decide)) (.refl ..)
  · exact (writeAliveCtl_Frame ..).mono (by decide)
  · exact (kick_Frame ..).mono (by decide)
  · exact (writeHkStatus_Frame ..).mono (by decide)
  · exact (writeHkFaults_Frame ..).mono (by decide)
  · exact (writeChanSel_Frame ..).mono (by decide)
  · exact (writeEpochStatus_Frame ..).mono (by decide)
  · exact (writeCacheCtl_Frame ..).mono (by decide)
  · exact (writeLocal_Frame ..).mono (by decide)

theorem write32_Frame (s : State) (fn : Nat) (l : Loc) (v : W32) :
    Frame [.nextId, .moon, .tiles, .cfg, .vols, .pcie, .sqs, .cqs, .live, .mbx, .cache, .jade, .jet, .hk] s (write32 s fn l v) := by
  unfold write32
  split
  · exact (writeBlock_Frame ..).mono (by decide)
  · exact (writeLocal_Frame ..).mono (by decide)
  · exact .ite ((writeCursor_Frame ..).mono (by decide)) (.refl ..)
  · exact (writeMbx_Frame ..).mono (by decide)
  · exact .ite ((startScan_Frame ..).mono (by decide)) (.refl ..)
  · exact .ite ((cqHeadDb_Frame ..).mono (by decide)) (.refl ..)
  · exact .ite ((writeSq32_Frame ..).mono (by decide)) (.refl ..)
  · exact .ite ((writeCq32_Frame ..).mono (by decide)) (.refl ..)
  · exact (writeWin32_Frame ..).mono (by decide)

theorem write64_Frame (s : State) (fn : Nat) (l : Loc) (v : BitVec 64) :
    Frame [.pcie, .sqs, .cqs, .cache, .jet] s (write64 s fn l v) := by
  unfold write64
  split
  · exact .ite ((writeCacheStatus_Frame ..).mono (by decide)) (.refl ..)
  · exact .ite ((writeSq64_Frame ..).mono (by decide)) (.refl ..)
  · exact .ite ((writeCq64_Frame ..).mono (by decide)) (.refl ..)
  · exact (writeWin64_Frame ..).mono (by decide)
  · exact .refl ..

theorem writeWord_Frame (s : State) (fn : Nat) (l : Loc) (v : W32) :
    Frame [.nextId, .moon, .tiles, .cfg, .vols, .pcie, .sqs, .cqs, .live, .mbx, .cache, .jade, .jet, .hk] s (writeWord s fn l v) := by
  unfold writeWord
  refine .ite ((holdHalf_Frame ..).mono (by decide)) ?_
  exact .ite ((write64_Frame ..).on ((dropHalf_Frame ..).mono (by decide)) rfl) (write32_Frame ..)

theorem writeReg_Frame (s : State) (fn off width : Nat) (v : BitVec 64) :
    Frame [.nextId, .moon, .tiles, .cfg, .vols, .pcie, .sqs, .cqs, .live, .mbx, .cache, .jade, .jet, .hk] s (writeReg s fn off width v)
        := by
  unfold writeReg
  refine .ite ?_ ?_
  · dsimp only
    split
    exacts [writeWord_Frame .., .refl ..]
  · refine .ite ?_ (.refl ..)
    dsimp only
    split
    · refine .ite ?_ ?_
      · exact (write64_Frame ..).on ((dropHalf_Frame ..).mono (by decide)) rfl
      · split
        exacts [(writeWord_Frame ..).on (writeWord_Frame ..) rfl, writeWord_Frame ..]
    · split
      exacts [writeWord_Frame .., .refl ..]

theorem writeCfg_Frame (s : State) (fn : Nat) (f : CfgField) (v : Nat) :
    Frame [.pcie, .cqs, .live, .jet] s (writeCfg s fn f v) := by
  unfold writeCfg
  split
  · exact .ite ((modFunc_Frame ..).mono (by decide)) (.refl ..)
  · exact .ite ((modFunc_Frame ..).mono (by decide)) (.refl ..)
  · exact (modFunc_Frame ..).mono (by decide)
  · exact (pumpHost_Frame ..).on ((modFunc_Frame ..).mono (by decide)) rfl
  · exact .ite ((modFunc_Frame ..).mono (by decide)) (.refl ..)
  · exact (pumpHost_Frame ..).on ((modFunc_Frame ..).mono (by decide)) rfl
  · exact (modFunc_Frame ..).mono (by decide)
  · exact (modFunc_Frame ..).mono (by decide)
  · exact (sendHeld_Frame ..).on ((modFunc_Frame ..).mono (by decide)) rfl
  · exact (sendHeld_Frame ..).on ((modFunc_Frame ..).mono (by decide)) rfl
  · exact .ite ((modPcie_Frame ..).mono (by decide)) (.refl ..)

theorem writeVector_Frame (s : State) (fn k v : Nat) : Frame [.pcie] s (writeVector s fn k v) :=
  .ite ((sendHeld_Frame ..).on (modFunc_Frame ..) rfl) (.refl ..)

theorem execRegisterWrite_Framed (fn : Nat) (p : RegPlace) (width : Nat) (v : BitVec 64) (s : State) :
    Framed [.nextId, .moon, .tiles, .cfg, .vols, .pcie, .sqs, .cqs, .live, .mbx, .cache, .jade, .jet, .hk] s
        (execRegisterWrite fn p width v s) := by
  unfold execRegisterWrite
  refine .ite .stays ?_
  split
  · exact .ite (.done (writeReg_Frame ..)) .stays
  · exact .ite (.done ((writeCfg_Frame ..).mono (by decide))) .stays
  · exact .ite (.done ((writeVector_Frame ..).mono (by decide))) .stays

end Sys2Proof.Machine
end

section
/-! PROOFS. Frames: housekeeping. -/

namespace Sys2Proof.Machine

theorem execChannelConversion_Framed (tile : Nat) (v : BitVec 16) (s : State) : Framed [.hk] s (execChannelConversion tile v s) :=
  .ite (.done (setSlice_Frame ..)) .stays

theorem powerGate_Frame (s : State) (p : Phase) :
    Frame [.phase, .pins, .moon, .links, .partners, .pcie, .jade, .hk] s (powerGate s p) := by
  unfold powerGate
  exact .of_overlay rfl

theorem powerDown_Frame (s : State) (tile diode cause : Nat) : Frame (faultAnd [.phase, .hk]) s (powerDown s tile diode cause) :=
  (jetRec_Frame ..).on ((updJade_Frame ..).on ((powerGate_Frame ..).on ((updHk_Frame ..).mono (by decide)) rfl) rfl) rfl

theorem execTripComparator_Framed (tile diode : Nat) (s : State) :
    Framed (faultAnd [.phase, .hk]) s (execTripComparator tile diode s) := .ite (.done (powerDown_Frame ..)) .stays

theorem dropPsEntry_Frame (s : State) : Frame [.mbx, .hk] s (dropPsEntry s) := by
  unfold dropPsEntry
  split
  exacts [(mbxFinish_Frame ..).on ((updHk_Frame ..).mono (by decide)) rfl, .refl ..]

theorem beginClose_Frame (s : State) : Frame (rowAnd [.mbx, .hk, .tests]) s (beginClose s) :=
  .fold ((dropPsEntry_Frame ..).on ((updHk_Frame ..).mono (by decide)) rfl) fun _ _ => (abortTest_Frame ..).mono (by decide)

theorem closeJournal_Frame (s : State) (t : Nat) : Frame [.tiles] s (closeJournal s t) := modAmber_Frame ..

theorem execShutdownClose_Framed (s : State) :
    Framed (faultAnd [.phase, .tiles, .cmds, .mcmds, .fetches, .pools, .vols, .sbt, .live, .hk]) s (execShutdownClose s) := by
  unfold execShutdownClose
  refine .ite .stays ?_
  refine .ite ?_ ?_
  · refine .done ?_
    refine (jetInfo_Frame ..).on ?_ rfl
    refine (powerGate_Frame ..).on ?_ rfl
    refine .fold ?_ fun _ _ => (writeStore_Frame ..).mono (by decide)
    refine .fold ?_ fun _ _ => (closeJournal_Frame ..).mono (by decide)
    refine .fold (.fold (.refl ..) fun _ _ => (closeConn_Frame ..).mono (by decide)) fun _ _ => ?_
    exact (endLive_Frame ..).mono (by decide)
  · refine .done ?_
    refine (powerGate_Frame ..).on ?_ rfl
    refine (updHk_Frame ..).on ?_ rfl
    refine .fold ?_ fun _ _ => (writeStore_Frame ..).mono (by decide)
    refine .fold ?_ fun _ _ => (closeJournal_Frame ..).mono (by decide)
    refine .fold (.fold (.refl ..) fun _ _ => (closeConn_Frame ..).mono (by decide)) fun _ _ => ?_
    exact (endLive_Frame ..).mono (by decide)

theorem execAuxTempPoll_Framed (v : BitVec 11) (s : State) : Framed [.hk] s (execAuxTempPoll v s) := by
  unfold execAuxTempPoll
  split
  exacts [.stays, .stays, .stays, .done (updHk_Frame ..)]

theorem thermalSlow_Frame (s : State) (target grace : Nat) : Frame [.sbt, .jet] s (thermalSlow s target grace) :=
  .fold (.refl ..) fun _ _ => sendSlow_Frame ..

theorem thermalEnd_Frame (s : State) (was : Nat) : Frame [.sbt, .jet] s (thermalEnd s was) := by
  unfold thermalEnd
  refine .fold (.refl ..) fun _ _ => ?_
  split
  exacts [sendSlow_Frame .., .ite (.refl ..) (sendSlow_Frame ..)]

theorem startThrottle_Frame (s : State) (src : BitVec 16) : Frame [.tiles, .sbt, .jet, .hk] s (startThrottle s src) :=
  (jetInfo_Frame ..).on ((thermalSlow_Frame ..).on ((modTiles_Frame ..).on ((updHk_Frame ..).mono (by decide)) rfl) rfl) rfl

theorem countRound_Frame (s : State) : Frame [.sbt, .jet, .hk] s (countRound s) := by
  unfold countRound
  refine .ite ((updHk_Frame ..).mono (by decide)) ?_
  exact .ite ((updHk_Frame ..).mono (by decide)) ((thermalSlow_Frame ..).on ((updHk_Frame ..).mono (by decide)) rfl)

theorem throttleRound_Frame (s : State) (count : Bool) (src : BitVec 16) :
    Frame [.tiles, .sbt, .jet, .hk] s (throttleRound s count src) := by
  unfold throttleRound
  refine .ite (.ite (startThrottle_Frame ..) (.refl ..)) ?_
  refine .ite ?_ (.ite ((countRound_Frame ..).mono (by decide)) (.refl ..))
  exact (jetInfo_Frame ..).on ((thermalEnd_Frame ..).on ((updHk_Frame ..).mono (by decide)) rfl) rfl

theorem levelRound_Frame (s : State) : Frame (rowAnd [.mbx, .hk, .tests]) s (levelRound s) := by
  unfold levelRound
  dsimp only
  refine .ite ?_ ?_
  · refine (fault0_Frame ..).on ((beginClose_Frame ..).on ?_ rfl) rfl
    refine (wakeEvent_Frame ..).on ?_ rfl
    refine .ite ?_ ?_
    · refine (wakeEvent_Frame ..).on ?_ rfl
      refine .ite ?_ ((updHk_Frame ..).mono (by decide))
      exact (wakeEvent_Frame ..).on ((jetInfo_Frame ..).on ((updHk_Frame ..).on ((updHk_Frame ..).mono (by decide)) rfl) rfl) rfl
    · refine .ite ?_ ((updHk_Frame ..).mono (by decide))
      exact (wakeEvent_Frame ..).on ((jetInfo_Frame ..).on ((updHk_Frame ..).on ((updHk_Frame ..).mono (by decide)) rfl) rfl) rfl
  · refine .ite ?_ ?_
    · refine (wakeEvent_Frame ..).on ?_ rfl
      refine .ite ?_ ((updHk_Frame ..).mono (by decide))
      exact (wakeEvent_Frame ..).on ((jetInfo_Frame ..).on ((updHk_Frame ..).on ((updHk_Frame ..).mono (by decide)) rfl) rfl) rfl
    · refine .ite ?_ ((updHk_Frame ..).mono (by decide))
      exact (wakeEvent_Frame ..).on ((jetInfo_Frame ..).on ((updHk_Frame ..).on ((updHk_Frame ..).mono (by decide)) rfl) rfl) rfl

theorem execRoundEnd_Framed (tile : Nat) (s : State) :
    Framed (rowAnd [.phase, .sbt, .mbx, .hk, .tests]) s (execRoundEnd tile s) := by
  unfold execRoundEnd
  refine .ite .stays ?_
  refine .ite ?_ ?_
  · exact .done ((powerDown_Frame ..).on ((setSlice_Frame ..).on ((updHk_Frame ..).on ((updHk_Frame ..).mono (by decide)) rfl) rfl) rfl)
  · refine .ite ?_ ?_
    · refine .done ?_
      refine .fold ?_ fun _ _ => (fault_Frame ..).mono (by decide)
      exact (setSlice_Frame ..).on ((updHk_Frame ..).on ((updHk_Frame ..).mono (by decide)) rfl) rfl
    · refine .ite ?_ ?_
      · refine .done ?_
        refine (levelRound_Frame ..).on ?_ rfl
        refine .ite ?_ ?_
        · refine (fault0_Frame ..).on ?_ rfl
          refine (updHk_Frame ..).on ?_ rfl
          refine .fold ?_ fun _ _ => (fault_Frame ..).mono (by decide)
          exact (setSlice_Frame ..).on ((updHk_Frame ..).on ((updHk_Frame ..).mono (by decide)) rfl) rfl
        · refine .fold ?_ fun _ _ => (fault_Frame ..).mono (by decide)
          exact (setSlice_Frame ..).on ((updHk_Frame ..).on ((updHk_Frame ..).mono (by decide)) rfl) rfl
      · refine .done ?_
        refine (throttleRound_Frame ..).on ?_ rfl
        refine (levelRound_Frame ..).on ?_ rfl
        refine .ite ?_ ?_
        · refine (fault0_Frame ..).on ?_ rfl
          refine (updHk_Frame ..).on ?_ rfl
          refine .fold ?_ fun _ _ => (fault_Frame ..).mono (by decide)
          exact (setSlice_Frame ..).on ((updHk_Frame ..).on ((updHk_Frame ..).mono (by decide)) rfl) rfl
        · refine .fold ?_ fun _ _ => (fault_Frame ..).mono (by decide)
          exact (setSlice_Frame ..).on ((updHk_Frame ..).on ((updHk_Frame ..).mono (by decide)) rfl) rfl

theorem execPs2Wake_Framed (s : State) : Framed [.hk] s (execPs2Wake s) := .ite (.done (updHk_Frame ..)) .stays

theorem execPs2Idle_Framed (s : State) : Framed [.hk] s (execPs2Idle s) := .ite (.done (updHk_Frame ..)) .stays

end Sys2Proof.Machine
end

section
/-! PROOFS. Frames: JTAG. -/

namespace Sys2Proof.Machine

theorem scan_Frame (s : State) (code : BitVec 8) (bits : List Bool) : Frame [.jtag] s (scan s code bits) :=
  (emit_Frame ..).on (updJtag_Frame ..) rfl

theorem frzScan_Framed {l : List Piece} {s : State} {code : BitVec 8} {f : State → State} (hl : [.jtag] ⊆ l)
    (hf : ∀ u, Frame l u (f u)) : Framed l s (frzScan s code f) :=
  .ite .stays (.ite (.done (hf _)) (.done ((scan_Frame ..).mono hl)))

theorem execTestLogicReset_Framed (s : State) : Framed [.jtag] s (execTestLogicReset s) := .ite (.done (updJtag_Frame ..)) .stays

theorem scanBoundary_Frame (s : State) (code : BitVec 8) (tdi : List Bool) : Frame [.freeIx, .jtag] s (scanBoundary s code tdi) :=
  (drawn_Frame ..).on ((updJtag_Frame ..).on ((scan_Frame ..).mono (by decide)) rfl) rfl

theorem execExtest_Framed (tdi : List Bool) (s : State) : Framed [.freeIx, .jtag] s (execExtest tdi s) :=
  .ite (.done (scanBoundary_Frame ..)) .stays

theorem execSamplePreload_Framed (tdi : List Bool) (s : State) : Framed [.freeIx, .jtag] s (execSamplePreload tdi s) :=
  .ite (.done (scanBoundary_Frame ..)) .stays

theorem execIdcode_Framed (s : State) : Framed [.jtag] s (execIdcode s) := .ite (.done (scan_Frame ..)) .stays

theorem execClamp_Framed (s : State) : Framed [.jtag] s (execClamp s) := .ite (.done (scan_Frame ..)) .stays

theorem execHighz_Framed (s : State) : Framed [.jtag] s (execHighz s) := .ite (.done (scan_Frame ..)) .stays

theorem execFrzStatus_Framed (s : State) : Framed [.jtag] s (execFrzStatus s) := .ite (.done (scan_Frame ..)) .stays

theorem execFrzSelect_Framed (v : BitVec 16) (s : State) : Framed [.jtag] s (execFrzSelect v s) :=
  frzScan_Framed (by decide) fun _ => (updJtag_Frame ..).on (scan_Frame ..) rfl

theorem execFrzShift_Framed (tdi : List Bool) (s : State) : Framed [.freeIx, .jtag] s (execFrzShift tdi s) := by
  unfold execFrzShift
  refine frzScan_Framed (by decide) fun _ => ?_
  exact .ite ((scan_Frame ..).mono (by decide)) ((updJtag_Frame ..).on ((drawn_Frame ..).on ((scan_Frame ..).mono (by decide)) rfl) rfl)

theorem execFrzMemaddr_Framed (v : BitVec 64) (s : State) : Framed [.jtag] s (execFrzMemaddr v s) :=
  frzScan_Framed (by decide) fun _ => (updJtag_Frame ..).on (scan_Frame ..) rfl

theorem execFrzMemdata_Framed (s : State) : Framed [.freeIx, .jtag] s (execFrzMemdata s) :=
  frzScan_Framed (by decide) fun _ => (updJtag_Frame ..).on ((drawn_Frame ..).on ((scan_Frame ..).mono (by decide)) rfl) rfl

theorem execFrzInfo_Framed (s : State) : Framed [.jtag] s (execFrzInfo s) := frzScan_Framed (by decide) fun _ => scan_Frame ..

end Sys2Proof.Machine
end

section
/-! PROOFS. Frames: reset and start. -/

namespace Sys2Proof.Machine

/-- What a reset leaves: the part, the clock, the identifiers, the configuration and the flash (Table 1-7). -/
theorem afterReset_Frame (s : State) (phase : Phase) :
    Frame (faultAnd [.freeIx, .phase, .tiles, .mesh, .cmds, .mcmds, .fetches, .destages, .replays, .maints, .budget, .pools, .vols,
      .members, .sbt, .sqs, .cqs, .live, .mbx, .cache, .jtag, .hk, .tests, .sec]) s (afterReset s phase) :=
  .of_overlay rfl

theorem execPwrOkLoss_Framed (s : State) :
    Framed (faultAnd [.freeIx, .phase, .tiles, .mesh, .cmds, .mcmds, .fetches, .destages, .replays, .maints, .budget, .pools, .vols,
        .members, .sbt, .sqs, .cqs, .live, .mbx, .cache, .jtag, .hk, .tests, .sec]) s (execPwrOkLoss s) := by
  unfold execPwrOkLoss
  dsimp only
  split
  · exact .stays
  · exact .done ((updPins_Frame ..).on (afterReset_Frame ..) rfl)

theorem execSysResetNAssert_Framed (s : State) :
    Framed (faultAnd [.freeIx, .phase, .tiles, .mesh, .cmds, .mcmds, .fetches, .destages, .replays, .maints, .budget, .pools, .vols,
        .members, .sbt, .sqs, .cqs, .live, .mbx, .cache, .jtag, .hk, .tests, .sec]) s (execSysResetNAssert s) := by
  unfold execSysResetNAssert
  dsimp only
  refine .ite .stays ?_
  exact .done ((updPins_Frame ..).on (afterReset_Frame ..) rfl)

theorem startJet_Frame (s : State) : Frame [.jet] s (startJet s) := by
  unfold startJet
  refine .ite (.fold (updJet_Frame ..) fun _ _ => jetInfo_Frame ..) ?_
  exact (jetInfo_Frame ..).on ((updJet_Frame ..).on (.fold (updJet_Frame ..) fun _ _ => jetInfo_Frame ..) rfl) rfl

theorem measure_Frame (s : State) (i : Nat) : Frame [.sec] s (measure s i) := updSec_Frame ..

theorem loadSlot_Frame (s : State) (i : Nat) : Frame [.flash, .sec] s (loadSlot s i) := by
  unfold loadSlot
  exact .of_overlay rfl

theorem bootLoad_Frame (s : State) : Frame [.pins, .flash, .sec] s (bootLoad s) := by
  unfold bootLoad
  refine .ite ?_ ?_
  · exact (loadSlot_Frame ..).on ((measure_Frame ..).mono (by decide)) rfl
  · refine .ite ?_ ?_
    · exact (loadSlot_Frame ..).on ((measure_Frame ..).on ((measure_Frame ..).mono (by decide)) rfl) rfl
    · exact (updPinsSec_Frame ..).on ((measure_Frame ..).on ((measure_Frame ..).mono (by decide)) rfl) rfl

theorem startDevice_Frame (s : State) (failed : List Nat) :
    Frame (faultAnd [.phase, .tiles, .flash, .hk, .sec]) s (startDevice s failed) := by
  unfold startDevice
  refine .ite ?_ ?_
  · exact (enterF4_Frame ..).on ((startJet_Frame ..).on ((updMoon_Frame ..).on ((updPhaseTiles_Frame ..).mono (by decide)) rfl) rfl) rfl
  · refine (bootLoad_Frame ..).on ?_ rfl
    refine .ite ?_ ?_
    · refine .ite ?_ ?_
      · refine (jetInfo_Frame ..).on ?_ rfl
        refine .ite ?_ ?_
        · refine (fault0_Frame ..).on ((updTiles_Frame ..).on ((startJet_Frame ..).on ((updMoon_Frame ..).on ?_ rfl) rfl) rfl) rfl
          exact (updPhaseTiles_Frame ..).mono (by decide)
        · refine (updTiles_Frame ..).on ((startJet_Frame ..).on ((updMoon_Frame ..).on ?_ rfl) rfl) rfl
          exact (updPhaseTiles_Frame ..).mono (by decide)
      · refine .ite ?_ ?_
        · refine (fault0_Frame ..).on ((updTiles_Frame ..).on ((startJet_Frame ..).on ((updMoon_Frame ..).on ?_ rfl) rfl) rfl) rfl
          exact (updPhaseTiles_Frame ..).mono (by decide)
        · refine (updTiles_Frame ..).on ((startJet_Frame ..).on ((updMoon_Frame ..).on ?_ rfl) rfl) rfl
          exact (updPhaseTiles_Frame ..).mono (by decide)
    · refine (jetInfo_Frame ..).on ?_ rfl
      refine (updHk_Frame ..).on ?_ rfl
      refine .ite ?_ ?_
      · refine (jetInfo_Frame ..).on ?_ rfl
        refine .ite ?_ ?_
        · refine (fault0_Frame ..).on ((updTiles_Frame ..).on ((startJet_Frame ..).on ((updMoon_Frame ..).on ?_ rfl) rfl) rfl) rfl
          exact (updPhaseTiles_Frame ..).mono (by decide)
        · refine (updTiles_Frame ..).on ((startJet_Frame ..).on ((updMoon_Frame ..).on ?_ rfl) rfl) rfl
          exact (updPhaseTiles_Frame ..).mono (by decide)
      · refine .ite ?_ ?_
        · refine (fault0_Frame ..).on ((updTiles_Frame ..).on ((startJet_Frame ..).on ((updMoon_Frame ..).on ?_ rfl) rfl) rfl) rfl
          exact (updPhaseTiles_Frame ..).mono (by decide)
        · refine (updTiles_Frame ..).on ((startJet_Frame ..).on ((updMoon_Frame ..).on ?_ rfl) rfl) rfl
          exact (updPhaseTiles_Frame ..).mono (by decide)

theorem execDeviceStart_Framed (failed : List Nat) (s : State) :
    Framed (faultAnd [.phase, .tiles, .flash, .hk, .sec]) s (execDeviceStart failed s) :=
  .ite (.done ((startDevice_Frame ..).on ((updPins_Frame ..).mono (by decide)) rfl)) .stays

theorem applyConfig_Frame (s : State) : Frame (faultAnd [.cfg, .flash]) s (applyConfig s) := by
  unfold applyConfig
  split
  · exact .of_overlay rfl
  · refine .ite ?_ ?_
    · refine (jetInfo_Frame ..).on ?_ rfl
      exact .of_overlay rfl
    · refine (fault0_Frame ..).on ?_ rfl
      exact .of_overlay rfl

theorem layConfig_pieces (s : State) : Frame [.moon, .tiles, .cfg, .pools, .vols, .members, .links, .hk] s (layConfig s) := by
  unfold layConfig
  refine .fold ?_ fun _ _ => (modVol_Frame ..).mono (by decide)
  refine .fold ?_ fun _ _ => (journalMirror_Frame ..).on ((modPool_Frame ..).mono (by decide)) rfl
  refine (modTiles_Frame ..).on ?_ rfl
  exact .of_overlay rfl

theorem disown_Frame (s : State) (pool : Nat) : Frame (faultAnd [.tiles, .pools]) s (disown s pool) :=
  (fault_Frame ..).on ((modTiles_Frame ..).on ((modPool_Frame ..).mono (by decide)) rfl) rfl

theorem checkOwners_Frame (s : State) (headers : List (Nat × PoolHeader)) :
    Frame (faultAnd [.tiles, .pools]) s (checkOwners s headers) := by
  unfold checkOwners
  refine .fold (.refl ..) fun _ _ => ?_
  dsimp only
  split
  exacts [.ite (.ite ((modPool_Frame ..).mono (by decide)) (disown_Frame ..)) (.refl ..), .refl ..]

theorem trimSegments_Frame (s : State) : Frame [.pools] s (trimSegments s) := updPools_Frame ..

theorem walkRings_Frame (s : State) : Frame [.tiles] s (walkRings s) := .fold (.refl ..) fun _ _ => modAmber_Frame ..

theorem execFirmwareUp_Framed (headers : List (Nat × PoolHeader)) (s : State) :
    Framed (rowAnd [.phase, .replays, .cfg, .flash, .vols, .members, .hk]) s (execFirmwareUp headers s) := by
  refine .ite .stays (.done ?_)
  refine (replayRings_Frame ..).on ((walkRings_Frame ..).on ((trimSegments_Frame ..).on ((checkOwners_Frame ..).on ?_ rfl) rfl) rfl) rfl
  refine (updPinsJade_Frame ..).on ((layConfig_pieces ..).on ((applyConfig_Frame ..).on ((updPhase_Frame ..).mono (by decide)) rfl) rfl)
      rfl

theorem poolAtStart_Frame (s : State) (p : Nat) : Frame rowPieces s (poolAtStart s p) := by
  unfold poolAtStart
  refine (startSalvages_Frame ..).on ?_ rfl
  split
  · refine .fold ((modPool_Frame ..).on ((modPool_Frame ..).mono (by decide)) rfl) fun _ _ => ?_
    exact (recopySegment_Frame ..).mono (by decide)
  · exact (modPool_Frame ..).mono (by decide)

theorem volAtStart_Frame (s : State) (v : Nat) : Frame [.vols] s (volAtStart s v) := by
  unfold volAtStart
  dsimp only
  exact modVol_Frame ..

theorem execReplayComplete_Framed (s : State) : Framed (rowAnd [.phase, .vols]) s (execReplayComplete s) := by
  unfold execReplayComplete
  refine .ite .stays ?_
  refine .done ?_
  refine (jetInfo_Frame ..).on ?_ rfl
  refine .fold ?_ fun _ _ => (volAtStart_Frame ..).mono (by decide)
  refine .fold ?_ fun _ _ => (poolAtStart_Frame ..).mono (by decide)
  exact .fold ((modTiles_Frame ..).on ((updPhase_Frame ..).mono (by decide)) rfl) fun _ _ => (reindex_Frame ..).mono (by decide)

theorem resetMbx_Frame (s : State) (n : Nat) : Frame [.cfg, .flash, .vols, .mbx, .hk] s (resetMbx s n) := by
  have idle : Frame [.cfg, .flash, .vols, .mbx, .hk] s (setMbx s n {}) := (setMbx_Frame ..).mono (by decide)
  have kept (m : Mailbox) : Frame [.cfg, .flash, .vols, .mbx, .hk] s (setMbx s n m) := (setMbx_Frame ..).mono (by decide)
  have ended : Frame [.cfg, .flash, .vols, .mbx, .hk] s (setMbx (cancelRunning s n) n {}) :=
    (setMbx_Frame ..).on ((cancelRunning_Frame ..).mono (by decide)) rfl
  have stored : Frame [.cfg, .flash, .vols, .mbx, .hk] s (setMbx (storeCfg s) n {}) :=
    (setMbx_Frame ..).on ((storeCfg_Frame ..).mono (by decide)) rfl
  unfold resetMbx
  generalize getMbx s n = m
  dsimp only
  refine .ite idle ?_
  generalize m.running = r
  rcases r with _ | r
  · exact idle
  · cases r
    case config => exact stored
    case waiting => exact idle
    case volumeStop | volumeStopped | drain | power => exact ended
    all_goals exact kept _

theorem resetFunction_Frame (s : State) (fn : Nat) :
    Frame [.tiles, .cmds, .mcmds, .fetches, .cfg, .flash, .pools, .vols, .partners, .pcie, .sqs, .cqs, .live, .mbx, .hk] s
        (resetFunction s fn) := by
  unfold resetFunction
  refine (resetMbx_Frame ..).on ((updSqsCqs_Frame ..).on ?_ rfl) rfl
  refine (modPcie_Frame ..).on ?_ rfl
  exact .fold (.fold (.refl ..) fun _ _ => (endLive_Frame ..).mono (by decide)) fun _ _ => (voidReqs_Frame ..).mono (by decide)

theorem resetAllFunctions_Frame (s : State) :
    Frame [.tiles, .cmds, .mcmds, .fetches, .cfg, .flash, .pools, .vols, .partners, .pcie, .sqs, .cqs, .live, .mbx, .hk] s
        (resetAllFunctions s) := by
  unfold resetAllFunctions
  refine (modPcie_Frame ..).on ?_ rfl
  exact .fold (.fold (.refl ..) fun _ _ => resetFunction_Frame ..) fun _ _ => (resetMbx_Frame ..).mono (by decide)

theorem removeVf_Frame (s : State) (vf : Nat) :
    Frame [.tiles, .cmds, .mcmds, .fetches, .cfg, .flash, .pools, .vols, .partners, .pcie, .sqs, .cqs, .live, .mbx, .hk] s
        (removeVf s vf) := by
  unfold removeVf
  exact (modPcie_Frame ..).on (resetFunction_Frame ..) rfl

theorem execVfEnable_Framed (enable : Bool) (numVfs : Nat) (s : State) :
    Framed [.tiles, .cmds, .mcmds, .fetches, .cfg, .flash, .pools, .vols, .partners, .pcie, .sqs, .cqs, .live, .mbx, .hk] s
        (execVfEnable enable numVfs s) := by
  unfold execVfEnable
  exact .ite .stays (.done ((modPcie_Frame ..).on (.fold (.refl ..) fun _ _ => removeVf_Frame ..) rfl))

theorem execFunctionLevelReset_Framed (fn : Nat) (s : State) :
    Framed [.tiles, .cmds, .mcmds, .fetches, .cfg, .flash, .pools, .vols, .partners, .pcie, .sqs, .cqs, .live, .mbx, .hk] s
        (execFunctionLevelReset fn s) := by
  unfold execFunctionLevelReset
  exact .ite .stays (.done (.ite (resetAllFunctions_Frame ..) (resetFunction_Frame ..)))

theorem execPerstNAssert_Framed (s : State) :
    Framed (rowAnd [.cmds, .cfg, .flash, .vols, .sqs, .cqs, .live, .mbx, .hk, .tests]) s (execPerstNAssert s) := by
  unfold execPerstNAssert
  refine .ite .stays ?_
  refine .ite (.done ((updPinsPcie_Frame ..).mono (by decide))) ?_
  refine .ite ?_ ?_
  · exact .done ((beginClose_Frame ..).on ((updHk_Frame ..).on ((updPinsPcie_Frame ..).mono (by decide)) rfl) rfl)
  · exact .done ((modPcie_Frame ..).on ((resetAllFunctions_Frame ..).on ((updPinsPcie_Frame ..).mono (by decide)) rfl) rfl)

theorem execPerstNRelease_Framed (s : State) :
    Framed (faultAnd [.freeIx, .phase, .tiles, .mesh, .cmds, .mcmds, .fetches, .destages, .replays, .maints, .budget, .flash, .pools,
        .vols, .members, .sbt, .sqs, .cqs, .live, .mbx, .cache, .jtag, .hk, .tests, .sec]) s (execPerstNRelease s) := by
  unfold execPerstNRelease
  dsimp only
  refine .ite .stays ?_
  refine .ite ?_ (.done ((updPins_Frame ..).mono (by decide)))
  exact .done ((startDevice_Frame ..).on ((afterReset_Frame ..).on ((updPins_Frame ..).mono (by decide)) rfl) rfl)

theorem execFreezeNLow_Framed (s : State) :
    Framed [.pins, .moon, .tiles, .links, .partners, .pcie, .jade] s (execFreezeNLow s) := by
  unfold execFreezeNLow
  refine .ite .stays ?_
  refine .done ?_
  exact .of_overlay rfl

theorem execRefclkLoss_Framed (c : RefClk) (s : State) :
    Framed (faultAnd [.mcmds, .budget, .members]) s (execRefclkLoss c s) := by
  unfold execRefclkLoss
  split
  · refine .ite ?_ .stays
    refine .ite ?_ (.done ((updPins_Frame ..).mono (by decide)))
    exact .done (.fold ((updPins_Frame ..).mono (by decide)) fun _ _ => downLink_Frame ..)
  · refine .ite .stays ?_
    refine .ite ?_ (.done ((updPins_Frame ..).mono (by decide)))
    exact .done ((fault0_Frame ..).on ((modPcie_Frame ..).on ((updPins_Frame ..).mono (by decide)) rfl) rfl)

theorem execRefclkReturn_Framed (c : RefClk) (s : State) : Framed [.pins] s (execRefclkReturn c s) := by
  unfold execRefclkReturn
  split
  exacts [.ite (.done (updPins_Frame ..)) .stays, .done (updPins_Frame ..)]

theorem execSmbusBlockRead_Framed (command : Byte) (s : State) : Framed [] s (execSmbusBlockRead command s) :=
  .done (emit_Frame ..)

end Sys2Proof.Machine
end

section
/-! PROOFS. Frames: the epoch edge. -/

namespace Sys2Proof.Machine

theorem budgetEdge_Frame (s : State) : Frame [.budget, .pools, .tests] s (budgetEdge s) :=
  (updPoolsTests_Frame ..).on ((updBudget_Frame ..).mono (by decide)) rfl

theorem creditEdge_Frame (s : State) : Frame [.sqs] s (creditEdge s) := updSqs_Frame ..

theorem enforcing_Frame (s : State) : Frame [.hk] s (enforcing s) := updHk_Frame ..

theorem throttleEdge_Frame (s : State) : Frame [.tiles, .sbt, .jet] s (throttleEdge s) :=
  .fold ((modTiles_Frame ..).mono (by decide)) fun _ _ => (enforceConn_Frame ..).mono (by decide)

theorem divideJournal_Frame (s : State) (p : Nat) : Frame [.nextId, .mcmds, .budget, .pools] s (divideJournal s p) :=
  .ite ((writeHeader_Frame ..).on ((modPool_Frame ..).mono (by decide)) rfl) (.refl ..)

theorem poolEdge_Frame (s : State) (p : Nat) :
    Frame (faultAnd [.nextId, .tiles, .mcmds, .budget, .cfg, .pools]) s (poolEdge s p) :=
  (divideJournal_Frame ..).on ((mirrorRetry_Frame ..).on ((passStart_Frame ..).mono (by decide)) rfl) rfl

theorem edgeWork_Frame (s : State) :
    Frame (faultAnd [.nextId, .clock, .tiles, .mcmds, .budget, .cfg, .pools, .vols, .sbt, .sqs, .hk, .tests]) s (edgeWork s) := by
  unfold edgeWork
  refine .ite ?_ ?_
  · refine .fold ?_ fun _ _ => (poolEdge_Frame ..).mono (by decide)
    refine (creditEdge_Frame ..).on ((throttleEdge_Frame ..).on ((budgetEdge_Frame ..).on ((enforcing_Frame ..).on ?_ rfl) rfl) rfl) rfl
    exact (moonEdge_Frame ..).mono (by decide)
  · refine (creditEdge_Frame ..).on ((throttleEdge_Frame ..).on ((budgetEdge_Frame ..).on ((enforcing_Frame ..).on ?_ rfl) rfl) rfl) rfl
    exact (moonEdge_Frame ..).mono (by decide)

theorem execEpochEdge_Framed (s : State) :
    Framed (faultAnd [.nextId, .clock, .tiles, .mcmds, .budget, .cfg, .pools, .vols, .sbt, .sqs, .hk, .tests]) s (execEpochEdge s) := by
  unfold execEpochEdge
  refine .ite .stays ?_
  refine .ite ?_ (.done ((relaunchAll_Frame ..).on (edgeWork_Frame ..) rfl))
  exact .done ((storeEpoch_Frame ..).on ((advanceEpoch_Frame ..).mono (by decide)) rfl)

end Sys2Proof.Machine
end

section
/-! PROOFS. What each command leaves unchanged. -/

namespace Sys2Proof.Machine

/-- The frame of a command, read at the state the command answers. -/
theorem Framed.at {l m : List Piece} {s t : State} {r : Result} (f : Framed l s r) (h : r = .next t) (hl : decide (l ⊆ m) = true) :
    Frame m s t :=
  (f.next t h).mono (of_decide_eq_true hl)

/-- Settles O57, by the frame of each command. -/
theorem frameMailbox : Obligations.FrameMailbox :=
  ⟨fun _ _ _ h => (execDevInfo_Framed ..).at h rfl,
   fun _ _ _ _ _ _ _ _ h => (execFuncAssign_Framed ..).at h rfl,
   fun _ _ _ _ _ _ _ _ h => (execWithdraw_Framed ..).at h rfl,
   fun _ _ _ _ h => (execPortConfig_Framed ..).at h rfl,
   fun _ _ _ _ h => (execPortStart_Framed ..).at h rfl,
   fun _ _ _ _ h => (execPortStatus_Framed ..).at h rfl,
   fun _ _ _ _ _ h => (execPortStats_Framed ..).at h rfl,
   fun s _ g port pattern seconds k => (execPortTest_Framed g port pattern seconds s).at k rfl,
   fun _ _ _ _ _ _ h => (execSbtConfig_Framed ..).at h rfl,
   fun _ _ _ _ _ _ h => (execSbtTenantSet_Framed ..).at h rfl,
   fun s _ g index tenantId ranges k => (execSbtTenantRemove_Framed g index tenantId ranges s).at k rfl,
   fun _ _ _ _ _ h => (execSbtConnList_Framed ..).at h rfl,
   fun _ _ _ _ _ _ _ _ h => (execSbtThrottle_Framed ..).at h rfl,
   fun _ _ _ _ _ _ h => (execSbtStats_Framed ..).at h rfl,
   fun _ _ _ _ h => (execPoolStart_Framed ..).at h rfl,
   fun _ _ _ _ h => (execPoolStop_Framed ..).at h rfl,
   fun _ _ _ _ h => (execPoolStatus_Framed ..).at h rfl,
   fun _ _ _ _ _ _ h => (execPoolDegradedConfig_Framed ..).at h rfl,
   fun _ _ _ _ h => (execRebuildConfig_Framed ..).at h rfl,
   fun _ _ _ _ _ h => (execRebuildStatus_Framed ..).at h rfl,
   fun _ _ _ _ h => (execScrubStart_Framed ..).at h rfl,
   fun _ _ _ _ h => (execScrubPause_Framed ..).at h rfl,
   fun _ _ _ _ h => (execScrubResume_Framed ..).at h rfl,
   fun _ _ _ _ _ _ h => (execLstRead_Framed ..).at h rfl,
   fun _ _ _ _ h => (execVolumeStart_Framed ..).at h rfl,
   fun _ _ _ _ h => (execVolumeStop_Framed ..).at h rfl,
   fun _ _ _ _ h => (execVolumeStatus_Framed ..).at h rfl,
   fun _ _ _ _ h => (execMemberDefine_Framed ..).at h rfl,
   fun _ _ _ _ h => (execMemberStatus_Framed ..).at h rfl,
   fun _ _ _ _ _ _ _ h => (execPartnerConfig_Framed ..).at h rfl,
   fun _ _ _ _ h => (execPartnerStatus_Framed ..).at h rfl,
   fun _ _ _ _ _ h => (execPoolImport_Framed ..).at h rfl,
   fun _ _ _ _ h => (execPoolRelease_Framed ..).at h rfl,
   fun _ _ _ _ h => (execEpochConfig_Framed ..).at h rfl,
   fun _ _ _ h => (execEpochTrain_Framed ..).at h rfl,
   fun _ _ _ _ _ h => (execEpochSeal_Framed ..).at h rfl,
   fun _ _ _ _ _ h => (execSealFailRequest_Framed ..).at h rfl,
   fun _ _ _ h => (execEpochSealStatus_Framed ..).at h rfl,
   fun _ _ _ _ _ h => (execEpochCmapRead_Framed ..).at h rfl,
   fun _ _ _ h => (execEpochStats_Framed ..).at h rfl,
   fun _ _ _ _ _ _ h => (execJournalStatus_Framed ..).at h rfl,
   fun _ _ _ _ _ h => (execJournalDrain_Framed ..).at h rfl,
   fun _ _ _ h => (execCacheDisable_Framed ..).at h rfl,
   fun _ _ _ _ _ _ _ h => (execCacheConfig_Framed ..).at h rfl,
   fun _ _ _ _ h => (execCacheRatGet_Framed ..).at h rfl,
   fun _ _ _ _ _ h => (execCacheStats_Framed ..).at h rfl,
   fun s _ g kind pool k => (execShortSelftest_Framed g kind pool s).at k rfl,
   fun _ _ _ _ _ h => (execExtendedSelftest_Framed ..).at h rfl,
   fun _ _ _ _ _ h => (execSelftestStatus_Framed ..).at h rfl,
   fun _ _ _ _ _ h => (execSelftestAbort_Framed ..).at h rfl,
   fun _ _ _ h => (execJetStatus_Framed ..).at h rfl,
   fun _ _ _ h => (execJetToken_Framed ..).at h rfl,
   fun _ _ _ _ h => (execJetClear_Framed ..).at h rfl,
   fun _ _ _ h => (execFwInfo_Framed ..).at h rfl,
   fun _ _ _ _ _ _ _ h => (execFwDownload_Framed ..).at h rfl,
   fun _ _ _ _ h => (execFwVerifyPending_Framed ..).at h rfl,
   fun _ _ _ _ h => (execFwClearPending_Framed ..).at h rfl,
   fun _ _ _ _ h => (execFwConfirm_Framed ..).at h rfl,
   fun _ _ _ _ h => (execSecPubkey_Framed ..).at h rfl,
   fun _ _ _ _ _ h => (execKekLoad_Framed ..).at h rfl,
   fun _ _ _ _ h => (execSecMeasure_Framed ..).at h rfl,
   fun _ _ _ _ h => (execPowerStateSet_Framed ..).at h rfl,
   fun _ _ _ h => (execPowerStatus_Framed ..).at h rfl,
   fun _ _ _ _ h => (execPowerD3cold_Framed ..).at h rfl,
   fun _ _ _ _ _ _ _ h => (execThermalConfig_Framed ..).at h rfl⟩

/-- Settles O58, by the frame of each command. -/
theorem frameDevice : Obligations.FrameDevice :=
  ⟨fun _ _ _ h => (execHomeTileAcceptance_Framed ..).at h rfl,
   fun _ _ _ _ h => (execRouteSwitch_Framed ..).at h rfl,
   fun _ _ _ h => (execMeshHeartbeat_Framed ..).at h rfl,
   fun _ _ _ _ h => (execRecordCommit_Framed ..).at h rfl,
   fun _ _ _ h => (execAckHoldRelease_Framed ..).at h rfl,
   fun _ _ _ h => (execRelocation_Framed ..).at h rfl,
   fun _ _ _ _ h => (execMirrorRecopyComplete_Framed ..).at h rfl,
   fun _ _ _ _ h => (execInvalidFrame_Framed ..).at h rfl,
   fun _ _ _ _ h => (execAnnounce_Framed ..).at h rfl,
   fun _ _ _ _ h => (execPoll_Framed ..).at h rfl,
   fun _ _ _ _ h => (execDone_Framed ..).at h rfl,
   fun _ _ _ _ h => (execFailed_Framed ..).at h rfl,
   fun _ _ _ _ h => (execHoldover_Framed ..).at h rfl,
   fun _ _ _ h => (execTrainCount_Framed ..).at h rfl,
   fun _ _ _ _ _ h => (execTrainResult_Framed ..).at h rfl,
   fun _ _ _ _ h => (execEpochNowRead_Framed ..).at h rfl,
   fun _ _ _ h => (execCursorMetadataWrite_Framed ..).at h rfl,
   fun _ _ _ _ h => (execEvictionComplete_Framed ..).at h rfl,
   fun _ _ _ h => (execEvmodeSwitch_Framed ..).at h rfl,
   fun _ _ _ h => (execEnDirectClear_Framed ..).at h rfl,
   fun _ _ _ h => (execEnSet_Framed ..).at h rfl,
   fun _ _ _ h => (execLfsrSeedLoad_Framed ..).at h rfl,
   fun _ _ _ h => (execEvmodeChange_Framed ..).at h rfl,
   fun _ _ _ _ h => (execMailboxCancel_Framed ..).at h rfl,
   fun _ _ _ _ h => (execOverrun_Framed ..).at h rfl,
   fun _ _ _ h => (execConfigStored_Framed ..).at h rfl,
   fun _ _ _ h => (execVolumeStopComplete_Framed ..).at h rfl,
   fun _ _ _ h => (execJournalDrainComplete_Framed ..).at h rfl,
   fun _ _ _ h => (execJetClearDone_Framed ..).at h rfl,
   fun _ _ _ h => (execFaultAck_Framed ..).at h rfl,
   fun _ _ _ _ h => (execCorrelationWindowClose_Framed ..).at h rfl,
   fun s _ v k => (execAliveKick_Framed v s).at k rfl,
   fun _ _ _ h => (execJetDataRead_Framed ..).at h rfl,
   fun _ _ _ h => (execJetCursorWrite_Framed ..).at h rfl,
   fun _ _ _ _ h => (execChannelConversion_Framed ..).at h rfl,
   fun _ _ _ h => (execExtest_Framed ..).at h rfl,
   fun _ _ _ h => (execSamplePreload_Framed ..).at h rfl,
   fun _ _ _ h => (execFrzSelect_Framed ..).at h rfl,
   fun _ _ _ h => (execFrzShift_Framed ..).at h rfl,
   fun _ _ _ h => (execFrzMemaddr_Framed ..).at h rfl,
   fun _ _ _ h => (execAuxTempPoll_Framed ..).at h rfl,
   fun _ _ _ h => (execSmbusBlockRead_Framed ..).at h rfl,
   fun _ _ _ h => (execRefclkReturn_Framed ..).at h rfl,
   fun _ _ _ _ _ _ h => (execEchoRequest_Framed ..).at h rfl,
   fun _ _ _ _ h => (execNeighbourDiscovery_Framed ..).at h rfl,
   fun _ _ _ _ h => (execPortTestComplete_Framed ..).at h rfl,
   fun _ _ _ _ h => (execSelftestCommandIssue_Framed ..).at h rfl,
   fun _ _ h => (execReplayComplete_Framed ..).at h rfl,
   fun _ _ h => (execHoldoverSend_Framed ..).at h rfl,
   fun _ _ h => (execRephase_Framed ..).at h rfl,
   fun _ _ h => (execTrainTimeout_Framed ..).at h rfl,
   fun _ _ h => (execSealMapsStored_Framed ..).at h rfl,
   fun _ _ h => (execSealTimeout_Framed ..).at h rfl,
   fun _ _ h => (execSealLocalEnd_Framed ..).at h rfl,
   fun _ _ h => (execPowerStateEntry_Framed ..).at h rfl,
   fun _ _ h => (execJetTokenExpiry_Framed ..).at h rfl,
   fun _ _ h => (execAliveToggle_Framed ..).at h rfl,
   fun _ _ h => (execJetSuppressionWindow_Framed ..).at h rfl,
   fun _ _ h => (execIdcode_Framed ..).at h rfl,
   fun _ _ h => (execClamp_Framed ..).at h rfl,
   fun _ _ h => (execHighz_Framed ..).at h rfl,
   fun _ _ h => (execFrzStatus_Framed ..).at h rfl,
   fun _ _ h => (execFrzMemdata_Framed ..).at h rfl,
   fun _ _ h => (execFrzInfo_Framed ..).at h rfl,
   fun _ _ h => (execPs2Wake_Framed ..).at h rfl,
   fun _ _ h => (execPs2Idle_Framed ..).at h rfl,
   fun _ _ h => (execTestLogicReset_Framed ..).at h rfl⟩

/-- Settles O59, by the frame of each command. -/
theorem frameTransport : Obligations.FrameTransport :=
  ⟨fun _ _ _ _ h => (execConnect_Framed ..).at h rfl,
   fun _ _ _ h => (execAck_Framed ..).at h rfl,
   fun _ _ _ _ h => (execSbtPacketDiscard_Framed ..).at h rfl,
   fun _ _ _ _ h => (execUnknownConnectionPacket_Framed ..).at h rfl,
   fun _ _ _ h => (execDelayedAck_Framed ..).at h rfl,
   fun _ _ _ _ h => (execRetransmitTimeout_Framed ..).at h rfl,
   fun _ _ _ h => (execCreditProbe_Framed ..).at h rfl,
   fun _ _ _ _ _ _ h => (execRefusalRetentionExpiry_Framed ..).at h rfl,
   fun _ _ _ _ h => (execIndexReuse_Framed ..).at h rfl,
   fun _ _ _ _ _ h => (execXferRdy_Framed ..).at h rfl,
   fun _ _ _ h => (execLinkUp_Framed ..).at h rfl,
   fun _ _ _ _ _ h => (execPfcFrame_Framed ..).at h rfl,
   fun _ _ _ _ h => (execNeighbourResolve_Framed ..).at h rfl,
   fun _ _ _ h => (execKeepAlive_Framed ..).at h rfl,
   fun s _ member tile admin cause k => (execMemberQueueBreak_Framed member tile admin cause s).at k rfl,
   fun _ _ _ _ _ h => (execMemberReconnectAttempt_Framed ..).at h rfl,
   fun _ _ _ h => (execMemberReissue_Framed ..).at h rfl,
   fun _ _ _ h => (execPoolInitComplete_Framed ..).at h rfl,
   fun _ _ _ _ h => (execExtentZeroingComplete_Framed ..).at h rfl,
   fun _ _ _ h => (execPartnerResendTimer_Framed ..).at h rfl,
   fun _ _ _ h => (execHelloSend_Framed ..).at h rfl,
   fun _ _ _ _ _ h => (execLeaseRenewal_Framed ..).at h rfl,
   fun _ _ _ _ h => (execAutoImport_Framed ..).at h rfl,
   fun _ _ _ _ h => (execPcieLinkUp_Framed ..).at h rfl,
   fun _ _ _ _ h => (execDStateEntry_Framed ..).at h rfl,
   fun _ _ _ h => (execD0Return_Framed ..).at h rfl,
   fun _ _ _ h => (execTagQuarantineEnd_Framed ..).at h rfl,
   fun _ _ _ _ h => (execWindowWrite_Framed ..).at h rfl,
   fun _ _ _ _ h => (execWindowRead_Framed ..).at h rfl,
   fun _ _ _ _ _ h => (execWinCommit_Framed ..).at h rfl,
   fun s _ fn window offset v k => (execWindowDirectWrite_Framed fn window offset v s).at k rfl,
   fun _ _ _ _ h => (execSqDb_Framed ..).at h rfl,
   fun _ _ _ h => (execPqCompute_Framed ..).at h rfl,
   fun _ _ _ h => (execReconstruct_Framed ..).at h rfl,
   fun _ _ _ h => (execCopy_Framed ..).at h rfl,
   fun _ _ _ h => (execSkip_Framed ..).at h rfl,
   fun _ _ _ _ _ h => (execCqHeadDb_Framed ..).at h rfl,
   fun _ _ _ h => (execCqAggTimer_Framed ..).at h rfl,
   fun _ _ _ _ _ h => (execSqDisable_Framed ..).at h rfl,
   fun _ _ _ h => (execSqDrainComplete_Framed ..).at h rfl,
   fun _ _ _ _ _ h => (execSqEnable_Framed ..).at h rfl,
   fun _ _ _ _ _ h => (execCqEnable_Framed ..).at h rfl,
   fun _ _ _ _ _ h => (execCqDisable_Framed ..).at h rfl⟩

/-- Settles O60, by the frame of each command. -/
theorem frameData : Obligations.FrameData :=
  ⟨fun _ _ _ h => (execDeviceStart_Framed ..).at h rfl,
   fun _ _ _ h => (execRefclkLoss_Framed ..).at h rfl,
   fun _ _ _ h => (execFirmwareUp_Framed ..).at h rfl,
   fun _ _ _ h => (execHeartbeatTimeout_Framed ..).at h rfl,
   fun _ _ _ h => (execRangeLockGrant_Framed ..).at h rfl,
   fun _ _ _ _ h => (execPartnerConfirmTimeout_Framed ..).at h rfl,
   fun _ _ _ _ h => (execJournalSpaceWaitEnd_Framed ..).at h rfl,
   fun _ _ _ h => (execMramCommitFailure_Framed ..).at h rfl,
   fun _ _ _ _ h => (execDestageStart_Framed ..).at h rfl,
   fun _ _ _ h => (execDestageComplete_Framed ..).at h rfl,
   fun _ _ _ h => (execReadDeadline_Framed ..).at h rfl,
   fun _ _ _ _ h => (execEdge_Framed ..).at h rfl,
   fun _ _ _ _ _ h => (execMemberCommandCompletion_Framed ..).at h rfl,
   fun _ _ _ h => (execMemberCommandTimeout_Framed ..).at h rfl,
   fun _ _ _ h => (execMemberReachTimeout_Framed ..).at h rfl,
   fun _ _ _ _ h => (execSmartLogPoll_Framed ..).at h rfl,
   fun _ _ _ h => (execRebuildCommandIssue_Framed ..).at h rfl,
   fun _ _ _ h => (execRebuildRowComplete_Framed ..).at h rfl,
   fun _ _ _ _ h => (execRowInterlockGrant_Framed ..).at h rfl,
   fun _ _ _ h => (execCopybackRowComplete_Framed ..).at h rfl,
   fun _ _ _ _ h => (execScrubRow_Framed ..).at h rfl,
   fun _ _ _ _ h => (execLineFillComplete_Framed ..).at h rfl,
   fun _ _ _ _ h => (execLineAllocation_Framed ..).at h rfl,
   fun _ _ _ h => (execDirectorySweep_Framed ..).at h rfl,
   fun _ _ _ _ _ _ h => (execLineRetirement_Framed ..).at h rfl,
   fun _ _ _ _ h => (execZeroLine_Framed ..).at h rfl,
   fun _ _ _ _ h => (execInvalKey_Framed ..).at h rfl,
   fun _ _ _ _ h => (execInvalRange_Framed ..).at h rfl,
   fun _ _ _ _ h => (execCleanKey_Framed ..).at h rfl,
   fun _ _ _ _ h => (execCleanRange_Framed ..).at h rfl,
   fun _ _ _ _ h => (execLock_Framed ..).at h rfl,
   fun _ _ _ _ h => (execUnlock_Framed ..).at h rfl,
   fun _ _ _ _ h => (execInvalAll_Framed ..).at h rfl,
   fun _ _ _ _ h => (execClose_Framed ..).at h rfl,
   fun _ _ _ _ h => (execRead_Framed ..).at h rfl,
   fun _ _ _ _ h => (execWrite_Framed ..).at h rfl,
   fun _ _ _ _ h => (execFlush_Framed ..).at h rfl,
   fun _ _ _ _ h => (execWriteZeroes_Framed ..).at h rfl,
   fun _ _ _ _ h => (execDeallocate_Framed ..).at h rfl,
   fun _ _ _ _ h => (execVerify_Framed ..).at h rfl,
   fun _ _ _ _ _ _ _ h => (execDataOut_Framed ..).at h rfl,
   fun _ _ _ _ h => (execAbort_Framed ..).at h rfl,
   fun _ _ _ _ _ h => (execErrlogReq_Framed ..).at h rfl,
   fun _ _ _ _ _ h => (execResume_Framed ..).at h rfl,
   fun _ _ _ h => (execConnectionLoss_Framed ..).at h rfl,
   fun _ _ _ h => (execCommandCompletion_Framed ..).at h rfl,
   fun _ _ _ h => (execLinkDown_Framed ..).at h rfl,
   fun _ _ _ _ h => (execFecErrorSecond_Framed ..).at h rfl,
   fun _ _ _ _ h => (execPfcRepeat_Framed ..).at h rfl,
   fun _ _ _ _ _ _ h => (execMemberQueueSetup_Framed ..).at h rfl,
   fun _ _ _ h => (execHello_Framed ..).at h rfl,
   fun _ _ _ h => (execNack_Framed ..).at h rfl,
   fun _ _ _ _ _ h => (execPoolOffer_Framed ..).at h rfl,
   fun _ _ _ _ _ h => (execPoolReply_Framed ..).at h rfl,
   fun _ _ _ _ h => (execPoolWithdraw_Framed ..).at h rfl,
   fun _ _ _ _ _ _ _ _ h => (execRecord_Framed ..).at h rfl,
   fun _ _ _ _ _ _ h => (execConfirm_Framed ..).at h rfl,
   fun _ _ _ _ _ h => (execRelease_Framed ..).at h rfl,
   fun _ _ _ _ _ h => (execReleaseAck_Framed ..).at h rfl,
   fun _ _ _ h => (execPartnerLinkTimeout_Framed ..).at h rfl,
   fun _ _ _ h => (execLeaseLoss_Framed ..).at h rfl,
   fun _ _ _ _ h => (execImportCheck_Framed ..).at h rfl,
   fun _ _ _ _ h => (execPcieLinkDown_Framed ..).at h rfl,
   fun _ _ _ _ h => (execVfEnable_Framed ..).at h rfl,
   fun _ _ _ h => (execFunctionLevelReset_Framed ..).at h rfl,
   fun _ _ _ h => (execHostCompletion_Framed ..).at h rfl,
   fun _ _ _ h => (execCompletionTimeout_Framed ..).at h rfl,
   fun _ _ _ h => (execTranslationCompletion_Framed ..).at h rfl,
   fun _ _ _ _ _ _ h => (execInvalidationRequest_Framed ..).at h rfl,
   fun _ _ _ h => (execSqDispatch_Framed ..).at h rfl,
   fun _ _ _ h => (execRingRead_Framed ..).at h rfl,
   fun _ _ _ h => (execRingWrite_Framed ..).at h rfl,
   fun _ _ _ h => (execRingFlush_Framed ..).at h rfl,
   fun _ _ _ h => (execRingWriteZeroes_Framed ..).at h rfl,
   fun _ _ _ h => (execRingDeallocate_Framed ..).at h rfl,
   fun _ _ _ _ h => (execPortStop_Framed ..).at h rfl,
   fun _ _ _ _ h => (execSbtConnClose_Framed ..).at h rfl,
   fun _ _ _ _ _ h => (execPoolCreate_Framed ..).at h rfl,
   fun _ _ _ _ h => (execPoolDelete_Framed ..).at h rfl,
   fun _ _ _ _ _ _ h => (execHotspareSet_Framed ..).at h rfl,
   fun _ _ _ _ h => (execVolumeCreate_Framed ..).at h rfl,
   fun _ _ _ _ h => (execVolumeDelete_Framed ..).at h rfl,
   fun _ _ _ _ _ _ _ _ h => (execVolumeSet_Framed ..).at h rfl,
   fun _ _ _ _ _ _ _ h => (execVolumeSetExtents_Framed ..).at h rfl,
   fun _ _ _ _ h => (execMemberFail_Framed ..).at h rfl,
   fun _ _ _ _ _ _ _ h => (execMemberReplace_Framed ..).at h rfl,
   fun _ _ _ _ _ _ h => (execJournalMirrorSet_Framed ..).at h rfl,
   fun _ _ _ _ _ h => (execJournalPartner_Framed ..).at h rfl,
   fun _ _ _ _ _ h => (execJournalPartnerClear_Framed ..).at h rfl,
   fun _ _ _ h => (execCacheDisableQuiesced_Framed ..).at h rfl,
   fun _ _ _ h => (execCacheEnable_Framed ..).at h rfl,
   fun _ _ _ _ _ _ h => (execCacheRatSet_Framed ..).at h rfl,
   fun _ _ _ _ _ _ _ h => (execSelftestComplete_Framed ..).at h rfl,
   fun _ _ _ _ _ h => (execKeyLoad_Framed ..).at h rfl,
   fun _ _ _ _ h => (execKeyDestroy_Framed ..).at h rfl,
   fun _ _ _ h => (execF2TimerExpiry_Framed ..).at h rfl,
   fun _ _ _ h => (execF3Contained_Framed ..).at h rfl,
   fun _ _ _ h => (execF3ContainmentTimeout_Framed ..).at h rfl,
   fun _ _ _ h => (execRoundEnd_Framed ..).at h rfl,
   fun _ _ _ _ h => (execTripComparator_Framed ..).at h rfl,
   fun _ _ _ _ _ _ h => (execRegisterWrite_Framed ..).at h rfl,
   fun _ _ _ _ h => (execCoreWatchdog_Framed ..).at h rfl,
   fun _ _ _ _ h => (execMeshLinkLoss_Framed ..).at h rfl,
   fun _ _ h => (execPwrOkLoss_Framed ..).at h rfl,
   fun _ _ h => (execSysResetNAssert_Framed ..).at h rfl,
   fun _ _ h => (execPerstNAssert_Framed ..).at h rfl,
   fun _ _ h => (execPerstNRelease_Framed ..).at h rfl,
   fun _ _ h => (execFreezeNLow_Framed ..).at h rfl,
   fun _ _ h => (execEpochEdge_Framed ..).at h rfl,
   fun _ _ h => (execMissLimit_Framed ..).at h rfl,
   fun _ _ h => (execUnsynchronised_Framed ..).at h rfl,
   fun _ _ h => (execHostWatchdog_Framed ..).at h rfl,
   fun _ _ h => (execShutdownClose_Framed ..).at h rfl⟩

end Sys2Proof.Machine
end

section
/-! PROOFS. Power-down, the close and the single readings (R530, R537, R541-R543, R546, R575): one equation per row, then what each
leaves. -/

namespace Sys2Proof.Machine

@[simp] theorem getSlice_settled (s : State) (t : Nat) : getSlice (settled s) t = getSlice s t := by
  simp [getSlice]

theorem exec_channelConversion {s : State} {tile : Nat} (v : BitVec 16) (h : fwUp s = true) (ht : tileUp s tile = true)
    (hn : (getSlice s tile).next < 24) :
    exec (.channelConversion tile v) s = .next (settled (setSlice s tile { getSlice s tile with
      readings := Tab.set (getSlice s tile).readings (getSlice s tile).next (if (getSlice s tile).next = 23 then 0 else v)
      next := (getSlice s tile).next + 1 })) := by
  show execChannelConversion tile v s = _
  simp [execChannelConversion, h, ht, hn, done]

theorem exec_tripComparator {s : State} {tile diode : Nat} (h : powered s = true) (ht : tile < s.part.tiles) (hd : diode < 8)
    (hx : (getSlice s tile).excluded.contains diode = false) :
    exec (.tripComparator tile diode) s = .next (settled (powerDown s tile diode 2)) := by
  show execTripComparator tile diode s = _
  rw [execTripComparator, h, hx, decide_eq_true ht, decide_eq_true hd]
  rfl

theorem exec_auxTempPoll {s : State} (v : BitVec 11) (h : powered s = false) :
    exec (.auxTempPoll v) s = .next (settled { s with hk := { s.hk with auxTemp := v } }) := by
  show execAuxTempPoll v s = _
  unfold execAuxTempPoll
  unfold powered at h
  cases hp : s.phase <;> simp [hp] at h ⊢ <;> rfl

theorem exec_ps2Wake {s : State} (h : fwUp s = true) (hp : s.hk.ps = .ps2) (hi : s.hk.ps2Idle = true) :
    exec .ps2Wake s = .next (settled { s with hk := { s.hk with ps2Idle := false } }) := by
  show execPs2Wake s = _
  simp [execPs2Wake, h, hp, hi, done]

theorem exec_ps2Idle {s : State} (h : fwUp s = true) (hp : s.hk.ps = .ps2) (hi : s.hk.ps2Idle = false) (hn : idleNow s = true) :
    exec .ps2Idle s = .next (settled { s with hk := { s.hk with ps2Idle := true } }) := by
  show execPs2Idle s = _
  simp [execPs2Idle, h, hp, hi, hn, done]

theorem length_smbusBlock (s : State) : (smbusBlock s).length = 40 := by
  unfold smbusBlock
  split <;> simp [length_leBytes, List.length_flatMap]

/-! ### Power-down (R541-R543, Table 13-6) -/

/-- What the power gate leaves in a phase without power. -/
structure PoweredDown (p : Phase) (t : State) : Prop where
  phase : t.phase = p
  alive : t.pins.alive = false
  bypass : t.pins.bypassClosed = true
  host : t.pcie.linkUp = false
  links : ∀ e ∈ t.links, e.2.up = false
  closing : t.hk.closing = false

theorem powerGate_poweredDown (s : State) (p : Phase) : PoweredDown p (powerGate s p) where
  phase := rfl
  alive := rfl
  bypass := rfl
  host := rfl
  links := List.forall_mem_map.2 fun _ _ => rfl
  closing := rfl

theorem PoweredDown.settled {p : Phase} {t : State} (h : PoweredDown p t) : PoweredDown p (settled t) where
  phase := by simpa using h.phase
  alive := by simpa using h.alive
  bypass := by simpa using h.bypass
  host := (settled_host t).1.trans h.host
  links := by simpa using h.links
  closing := by simpa using h.closing

theorem powerDown_poweredDown (s : State) (tile diode cause : Nat) : PoweredDown .shutdown (powerDown s tile diode cause) :=
  { powerGate_poweredDown { s with hk := { s.hk with storedCause := cause } } .shutdown with }

/-! ### The close (Table 13-6 steps 3 and 4) -/

/-- The connections, the commands and the journals closed. -/
def closedWork (s : State) : State :=
  let s := (s.sbt.conns.map connIdOf).foldl (fun s id => closeConn s id 3) s
  let s := s.live.foldl endLive s
  (upTiles s).foldl writeStore ((upTiles s).foldl closeJournal s)

theorem closedWork_Frame (s : State) :
    Frame [.tiles, .cmds, .mcmds, .fetches, .pools, .vols, .sbt, .partners, .pcie, .live] s (closedWork s) := by
  refine .fold (.fold (.fold (.fold (.refl ..) fun _ _ => ?_) fun _ _ => ?_) fun _ _ => ?_) fun _ _ => ?_
  · exact (closeConn_Frame ..).mono (by decide)
  · exact (endLive_Frame ..).mono (by decide)
  · exact (closeJournal_Frame ..).mono (by decide)
  · exact (writeStore_Frame ..).mono (by decide)

theorem closedWork_hk (s : State) : (closedWork s).hk = s.hk := (closedWork_Frame s).hk (by decide)

theorem exec_shutdownClose {s : State} (h : running s = true) (hc : s.hk.closing = true) :
    exec .shutdownClose s =
      if s.hk.toD3cold then .next (settled (jetInfo (powerGate (closedWork s) .d3cold) 0x5007 (srcHost 0) []))
      else .next (settled (powerGate { closedWork s with hk := { s.hk with storedCause := 1 } } .shutdown)) := by
  show execShutdownClose s = _
  rw [← closedWork_hk s]
  simp only [execShutdownClose, h, hc]
  rfl

end Sys2Proof.Machine
end

section
/-! PROOFS. The end of a round (R530-R538): what each of its stages leaves of the slices and of the thresholds. -/

namespace Sys2Proof.Machine

/-- The state once a round's readings are taken: thresholds in force, HK_FAULTS and the slice after its round. -/
def roundTaken (s : State) (tile : Nat) : State :=
  let refclk := s.pins.sdRefclk.getD (tile / 2) false
  setSlice { s with hk := markFaults { s.hk with
      tWarn := s.cfg.warn, tThrottle := s.cfg.throttle, tCritical := s.cfg.critical, graceMs := s.cfg.graceMs
      rounds := if tile = 0 then s.hk.rounds + 1 else s.hk.rounds } (getSlice s tile) tile refclk } tile
    (closeRound (getSlice s tile) tile s.cfg.warn refclk)

/-- The slice of the tile after its round. -/
def roundSlice (s : State) (tile : Nat) : HkSlice :=
  closeRound (getSlice s tile) tile s.cfg.warn (s.pins.sdRefclk.getD (tile / 2) false)

/-- The faults of the round's channels raised. -/
def roundRaised (s : State) (tile : Nat) : State :=
  (roundFaults (getSlice s tile) tile (s.pins.sdRefclk.getD (tile / 2) false)).foldl fault (roundTaken s tile)

/-- RISE recorded and its fault raised where the tile's alarm begins with this round. -/
def riseRaised (s u : State) (tile : Nat) : State :=
  if (getSlice u tile).alarm && !(getSlice s tile).alarm then
    fault0 { u with hk := { u.hk with rise := true } } 0x7003 1 (srcCarnelian tile (getSlice u tile).diode)
  else u

/-- The levels and the throttle sequence at the end of a round. -/
def roundClosed (u : State) (tile : Nat) : State :=
  if (levelRound u).hk.closing then levelRound u
  else throttleRound (levelRound u) ((upTiles (levelRound u)).head? == some tile) (srcCarnelian (deviceHot u).1 (deviceHot u).2.1)

section
variable {s : State} {tile : Nat} (h : fwUp s = true) (ht : tileUp s tile = true) (hn : (getSlice s tile).next = 24)
include h ht hn

theorem exec_roundEnd_fast (hf : fastRise (getSlice s tile) = true) :
    exec (.roundEnd tile) s = .next (settled (powerDown (roundTaken s tile) tile (getSlice (roundTaken s tile) tile).diode 3)) := by
  show execRoundEnd tile s = _
  simp only [execRoundEnd, h, ht, hn, hf]
  rfl

theorem exec_roundEnd (hf : fastRise (getSlice s tile) = false) :
    exec (.roundEnd tile) s = .next (settled (if (roundRaised s tile).jade.f4 then roundRaised s tile
      else roundClosed (riseRaised s (roundRaised s tile) tile) tile)) := by
  show execRoundEnd tile s = _
  unfold execRoundEnd
  extract_lets x refclk hk₁ s₁ s₂ s₃ s₄ hk₄ s₅ src s₆
  rw [if_neg (by simp [x, h, ht, hn]), if_neg (by simp [x, hf])]
  have h₄ : s₄ = roundRaised s tile := rfl
  clear_value s₄
  subst h₄
  have h₅ : s₅ = riseRaised s (roundRaised s tile) tile := rfl
  clear_value s₅
  subst h₅
  unfold roundClosed
  split
  · rfl
  · split <;> rfl

end

end Sys2Proof.Machine
end

section
/-! PROOFS. Rounds that reach no level, and rounds of a device that closes (R530-R536): the hottest diode, then what the levels keep. -/

namespace Sys2Proof.Machine

/-! ### The hottest of a list -/

theorem hottest_mem {f : Nat → Int} {l : List Nat} {p : Nat × Int} (h : hottest f l = some p) : p.1 ∈ l ∧ p.2 = f p.1 := by
  induction l generalizing p with
  | nil => cases h
  | cons c l ih =>
    rw [hottest] at h
    split at h
    next d v hd =>
      obtain ⟨hm, hv⟩ := ih hd
      split at h <;> cases h
      exacts [⟨List.mem_cons_self, rfl⟩, ⟨List.mem_cons_of_mem _ hm, hv⟩]
    next =>
      cases h
      exact ⟨List.mem_cons_self, rfl⟩

theorem hottest_of_ne_nil {f : Nat → Int} {l : List Nat} (h : l ≠ []) : ∃ p, hottest f l = some p := by
  cases l with
  | nil => exact absurd rfl h
  | cons c l =>
    rw [hottest]
    split
    · split <;> exact ⟨_, rfl⟩
    · exact ⟨_, rfl⟩

/-- The hottest of a list keeps a bound that every member keeps. -/
theorem hottest_getD_lt {f : Nat → Int} {l : List Nat} {b : Int} {d : Nat × Int} (h : ∀ c ∈ l, f c < b) (hl : l ≠ []) :
    ((hottest f l).getD d).2 < b := by
  obtain ⟨p, hp⟩ := hottest_of_ne_nil (f := f) hl
  obtain ⟨hm, hv⟩ := hottest_mem hp
  rw [hp]
  exact lt_of_eq_of_lt hv (h p.1 hm)

theorem tileUp_of_mem_upTiles {s : State} {t : Nat} (h : t ∈ upTiles s) : tileUp s t = true := (List.mem_filter.1 h).2

theorem upTiles_ne_nil {s : State} {t : Nat} (h : tileUp s t = true) : upTiles s ≠ [] := by
  have ht : t < s.part.tiles := of_decide_eq_true (Bool.and_eq_true_iff.1 h).1
  exact List.ne_nil_of_mem (List.mem_filter.2 ⟨List.mem_range.2 ht, h⟩)

theorem deviceHot_lt {s : State} {t : Nat} {b : Int} (ht : tileUp s t = true) (h : ∀ k, tileUp s k = true → (getSlice s k).temp < b) :
    (deviceHot s).2.2 < b := by
  obtain ⟨p, hp⟩ := hottest_of_ne_nil (f := fun t => (getSlice s t).temp) (upTiles_ne_nil ht)
  obtain ⟨hm, hv⟩ := hottest_mem hp
  rw [deviceHot, hp]
  exact lt_of_eq_of_lt hv (h p.1 (tileUp_of_mem_upTiles hm))

/-! ### The slice after its round -/

theorem lt_eight_of_mem_diodes {x : HkSlice} {d : Nat} (h : d ∈ x.diodes) : d < 8 := List.mem_range.1 (List.mem_filter.1 h).1

theorem noBadDiode {x : HkSlice} {tile : Nat} {refclk : Bool} (h : roundFaults x tile refclk = []) :
    x.diodes.filter (diodeBad x) = [] := by
  simp only [roundFaults, List.append_eq_nil_iff, List.map_eq_nil_iff] at h
  exact h.1.1.1

section
variable {x : HkSlice} {tile w : Nat} {refclk : Bool} (h : x.diodes.filter (diodeBad x) = [])
include h

theorem closeRound_temp : (closeRound x tile w refclk).temp = ((hottest x.reading x.diodes).getD (x.diode, x.temp)).2 := by
  simp only [closeRound, h, List.append_nil]

theorem closeRound_good : (closeRound x tile w refclk).good = x.diodes.length := by
  simp only [closeRound, h, List.append_nil]

theorem closeRound_alarm (hw : ∀ d, d < 8 → x.reading d < 4 * (w : Int)) : (closeRound x tile w refclk).alarm = false := by
  simp only [closeRound, h, List.append_nil, List.any_eq_false]
  intro d hd
  have := hw d (lt_eight_of_mem_diodes hd)
  rw [decide_eq_false (not_le.2 this)]
  simp

end

/-! ### What a round leaves of the slices and of the thresholds -/

/-- The slices, the two lower thresholds and the close as they were. -/
structure SameBands (s t : State) : Prop where
  slices : t.hk.slices = s.hk.slices
  warn : t.hk.tWarn = s.hk.tWarn
  throttle : t.hk.tThrottle = s.hk.tThrottle
  closing : t.hk.closing = s.hk.closing

namespace SameBands

theorem of_hk {s t : State} (h : t.hk = s.hk) : SameBands s t := by
  constructor <;> rw [h]

theorem refl (s : State) : SameBands s s := .of_hk rfl

/-- What keeps the slices and the thresholds on top of what keeps them. -/
theorem on {s t u : State} (k : SameBands t u) (h : SameBands s t) : SameBands s u :=
  ⟨k.slices.trans h.slices, k.warn.trans h.warn, k.throttle.trans h.throttle, k.closing.trans h.closing⟩

theorem ite {s t u : State} {p : Prop} [Decidable p] (h : SameBands s t) (k : SameBands s u) : SameBands s (if p then t else u) := by
  split
  exacts [h, k]

theorem getSlice {s t : State} (h : SameBands s t) (k : Nat) : getSlice t k = Machine.getSlice s k := by
  rw [Machine.getSlice, h.slices, ← Machine.getSlice]

end SameBands

theorem wakeEvent_sameBands (s : State) : SameBands s (wakeEvent s) := .of_hk ((wakeEvent_Frame s).hk (by decide))

theorem fault0_sameBands (s : State) (code : BitVec 16) (cls : Nat) (src : BitVec 16) : SameBands s (fault0 s code cls src) :=
  .of_hk ((fault0_Frame ..).hk (by decide))

theorem riseRaised_sameBands (s u : State) (tile : Nat) : SameBands u (riseRaised s u tile) :=
  .ite ((fault0_sameBands ..).on ⟨rfl, rfl, rfl, rfl⟩) (.refl u)

theorem roundRaised_hk (s : State) (tile : Nat) : (roundRaised s tile).hk = (roundTaken s tile).hk :=
  (Frame.foldl fault fault_Frame _ _).hk (by decide)

theorem getSlice_roundTaken (s : State) (tile : Nat) : getSlice (roundTaken s tile) tile = roundSlice s tile :=
  getSlice_setSlice_self ..

/-! ### Levels (R533-R536) -/

/-- The levels set, before Critical is judged. -/
def levelled (s : State) : State :=
  let (t, d, v) := deviceHot s
  let new := levelOf s.hk v
  let u := { s with hk := { s.hk with level := new } }
  let u := if s.hk.level = 0 ∧ 0 < new then
    wakeEvent (jetInfo { u with hk := { u.hk with warn := true } } 0x7001 (srcCarnelian t d) []) else u
  if s.hk.level < 2 ∧ new = 2 then wakeEvent u else u

theorem levelRound_eq (s : State) : levelRound s =
    if 4 * ((levelled s).hk.tCritical : Int) ≤ (deviceHot s).2.2 ∧ !(levelled s).hk.closing then
      fault0 (beginClose (wakeEvent (levelled s))) 0x7005 1 (srcCarnelian (deviceHot s).1 (deviceHot s).2.1)
    else levelled s := rfl

theorem levelled_sameBands (s : State) : SameBands s (levelled s) := by
  refine .ite ((wakeEvent_sameBands _).on ?_) ?_
  all_goals exact .ite ((wakeEvent_sameBands _).on ⟨rfl, rfl, rfl, rfl⟩) ⟨rfl, rfl, rfl, rfl⟩

theorem levelRound_sameBands {s : State} (h : s.hk.closing = true) : SameBands s (levelRound s) := by
  have hl := levelled_sameBands s
  rw [levelRound_eq, if_neg (by simp [hl.closing, h])]
  exact hl

/-- Readings more than 3 °C below Warn reach no level and leave every level. -/
theorem levelOf_cool {k : Hk} {v : Int} (hv : v < 4 * (k.tWarn : Int) - 12) (h : k.tWarn ≤ k.tThrottle) : levelOf k v = 0 := by
  have h₂ : atLevel k.level 2 k.tThrottle v = false := by
    simp only [atLevel, Bool.or_eq_false_iff, Bool.and_eq_false_iff, decide_eq_false_iff_not]
    omega
  have h₁ : atLevel k.level 1 k.tWarn v = false := by
    simp only [atLevel, Bool.or_eq_false_iff, Bool.and_eq_false_iff, decide_eq_false_iff_not]
    omega
  simp [levelOf, h₁, h₂]

/-- The device at level 0. -/
def levelNone (s : State) : State := { s with hk := { s.hk with level := 0 } }

theorem levelRound_cool {s : State} (hv : (deviceHot s).2.2 < 4 * (s.hk.tWarn : Int) - 12) (h : s.hk.tWarn ≤ s.hk.tThrottle)
    (hc : s.hk.tThrottle ≤ s.hk.tCritical) : levelRound s = levelNone s := by
  have hl : levelled s = levelNone s := by
    simp [levelled, levelOf_cool hv h, levelNone]
  rw [levelRound_eq, hl, if_neg]
  rintro ⟨hle, -⟩
  change 4 * (s.hk.tCritical : Int) ≤ _ at hle
  omega

/-- No round below Throttle and without an alarm starts the throttle sequence. -/
theorem throttleRound_idle {s : State} {src : BitVec 16} {count : Bool} (hr : s.hk.running = false) (hl : s.hk.level ≠ 2)
    (ha : ∀ k, tileUp s k = true → (getSlice s k).alarm = false) : throttleRound s count src = s := by
  have hn : (upTiles s).any (fun t => (getSlice s t).alarm) = false :=
    List.any_eq_false.2 fun k hk => by simp [ha k (tileUp_of_mem_upTiles hk)]
  simp [throttleRound, hr, hl, hn]

end Sys2Proof.Machine
end

section
/-! PROOFS. Housekeeping (R530, R537, R541, R543, R546, R575): each row by its equation. -/

namespace Sys2Proof.Machine

/-- A round of a device that closes keeps the close, the slices and the thresholds it has taken (R534). -/
theorem roundEnd_closing {s : State} {tile : Nat} (h : fwUp s = true) (ht : tileUp s tile = true)
    (hn : (getSlice s tile).next = 24) (hf : fastRise (getSlice s tile) = false) (hc : s.hk.closing = true) :
    ∃ u, exec (.roundEnd tile) s = .next (settled u) ∧ SameBands (roundTaken s tile) u := by
  have hr : SameBands (roundTaken s tile) (roundRaised s tile) := .of_hk (roundRaised_hk s tile)
  have hrise := (riseRaised_sameBands s (roundRaised s tile) tile).on hr
  have hcl : (riseRaised s (roundRaised s tile) tile).hk.closing = true := hrise.closing.trans hc
  have hlev := levelRound_sameBands hcl
  refine ⟨_, exec_roundEnd h ht hn hf, .ite hr ?_⟩
  rw [roundClosed, if_pos (hlev.closing.trans hcl)]
  exact hlev.on hrise

section
variable {s : State} {tile : Nat} (h : fwUp s = true) (ht : tileUp s tile = true) (hn : (getSlice s tile).next = 24)
  (hf : fastRise (getSlice s tile) = false) (hc : s.hk.closing = false) (hr : s.hk.running = false)
  (hx : roundFaults (getSlice s tile) tile (s.pins.sdRefclk.getD (tile / 2) false) = [])
  (ho : ∀ k, tileUp s k = true → k ≠ tile → (getSlice s k).temp < 4 * (s.cfg.warn : Int) - 12 ∧ (getSlice s k).alarm = false)
  (hd : ∀ d, d < 8 → (getSlice s tile).reading d < 4 * (s.cfg.warn : Int) - 12) (hne : (getSlice s tile).diodes ≠ [])

include hx ho hd hne in
/-- After a round without faults every tile stays below Warn and without an alarm. -/
theorem roundTaken_cool (k : Nat) (hk : tileUp s k = true) :
    (getSlice (roundTaken s tile) k).temp < 4 * (s.cfg.warn : Int) - 12 ∧ (getSlice (roundTaken s tile) k).alarm = false := by
  have hb := noBadDiode hx
  by_cases he : k = tile
  · rw [he, getSlice_roundTaken]
    exact ⟨(closeRound_temp hb).trans_lt (hottest_getD_lt (fun d k => hd d (lt_eight_of_mem_diodes k)) hne),
      closeRound_alarm hb fun d k => by linarith [hd d k]⟩
  · rw [show getSlice (roundTaken s tile) k = getSlice s k from getSlice_setSlice_ne _ _ _ _ he]
    exact ho k hk he

include h ht hn hf hc hr hx ho hd hne in
/-- A round without faults, alarms or a temperature near Warn sets level 0 and does nothing else (R535, R538). -/
theorem exec_roundEnd_quiet (hwt : s.cfg.warn ≤ s.cfg.throttle) (htc : s.cfg.throttle ≤ s.cfg.critical) :
    exec (.roundEnd tile) s = .next (settled (levelNone (roundTaken s tile))) := by
  have cool := roundTaken_cool hx ho hd hne
  have hraised : roundRaised s tile = roundTaken s tile := by rw [roundRaised, hx, List.foldl_nil]
  have hf4 : (roundTaken s tile).jade.f4 = false := not_f4_of_running (s := s) (running_of_fwUp h)
  have hrise : riseRaised s (roundTaken s tile) tile = roundTaken s tile := by
    rw [riseRaised, (cool tile ht).2]
    rfl
  have hlev := levelRound_cool (s := roundTaken s tile) (deviceHot_lt (t := tile) ht fun k hk => (cool k hk).1) hwt htc
  have hcl : (levelNone (roundTaken s tile)).hk.closing = false := hc
  rw [exec_roundEnd h ht hn hf, hraised, hf4, if_neg Bool.false_ne_true, hrise, roundClosed, hlev, hcl, if_neg Bool.false_ne_true,
    throttleRound_idle (s := levelNone (roundTaken s tile)) hr (by simp [levelNone]) fun k hk => (cool k hk).2]

end

/-- Settles O12, each row by its equation. -/
theorem housekeepingRows : Obligations.HousekeepingRows := by
  refine ⟨?_, ?_, ?_, ?_, ?_, ?_, ?_, ?_, ?_, ?_, ?_, ?_⟩
  case refine_1 =>
    intro s tile v h ht hn
    refine ⟨_, exec_channelConversion v h ht hn, by simp, ?_⟩
    simp only [getSlice_settled, getSlice_setSlice_self, HkSlice.reading, Tab.getD_set_self]
    split <;> rfl
  case refine_2 =>
    intro s tile diode h ht hd hx
    have hp := (powerDown_poweredDown s tile diode 2).settled
    refine ⟨_, exec_tripComparator h ht hd hx, hp.phase, ?_, hp.alive, hp.bypass, hp.host, ?_, hp.links⟩
    · rw [settled_hk]
      rfl
    · exact settled_jade_field (·.f1Seen) (fun _ _ => rfl) _
  case refine_3 => exact fun s v h => ⟨_, exec_auxTempPoll v h, settled_hk _⟩
  case refine_4 => exact fun s h hp hi => ⟨_, exec_ps2Wake h hp hi, settled_hk _⟩
  case refine_5 => exact fun s h hp hi hn => ⟨_, exec_ps2Idle h hp hi hn, settled_hk _⟩
  case refine_6 => exact fun s => ⟨_, rfl, .settled List.prefix_rfl rfl, length_smbusBlock s⟩
  case refine_7 =>
    intro s c hc
    refine ⟨_, rfl, .settled (u := emit s .smbusNack) ?_ rfl⟩
    rw [if_neg hc]
  case refine_8 =>
    intro s h hc hd
    have hp := (powerGate_poweredDown { closedWork s with hk := { s.hk with storedCause := 1 } } .shutdown).settled
    refine ⟨_, (exec_shutdownClose h hc).trans (if_neg (by simp [hd])), hp.phase, ?_, hp.closing, hp.host⟩
    rw [settled_hk]
    rfl
  case refine_9 =>
    intro s h hc hd
    have hp : PoweredDown .d3cold (jetInfo (powerGate (closedWork s) .d3cold) 0x5007 (srcHost 0) []) :=
      { powerGate_poweredDown (closedWork s) .d3cold with }
    exact ⟨_, (exec_shutdownClose h hc).trans (if_pos hd), hp.settled.phase, hp.settled.closing, hp.settled.host⟩
  case refine_10 =>
    intro s tile h ht hn hf
    refine ⟨_, exec_roundEnd_fast h ht hn hf, (powerDown_poweredDown ..).settled.phase, ?_⟩
    rw [settled_hk]
    rfl
  case refine_11 =>
    intro s tile h ht hn hf hc
    obtain ⟨u, hu, hb⟩ := roundEnd_closing h ht hn hf hc
    refine ⟨_, hu, ?_, ?_, ?_⟩
    · rw [getSlice_settled, hb.getSlice, getSlice_roundTaken]
      rfl
    · rw [settled_hk, hb.warn]
      rfl
    · rw [settled_hk, hb.throttle]
      rfl
  case refine_12 =>
    intro s tile h ht hn hf hc hr hx ho hd hne hwt htc
    have hs : getSlice (settled (levelNone (roundTaken s tile))) tile = roundSlice s tile :=
      (getSlice_settled ..).trans (getSlice_roundTaken s tile)
    refine ⟨_, exec_roundEnd_quiet h ht hn hf hc hr hx ho hd hne hwt htc, ?_⟩
    rw [hs, settled_hk, settled_jet, settled_pins]
    exact ⟨rfl, rfl, hr, rfl, rfl, rfl, rfl, closeRound_good (noBadDiode hx), rfl⟩

end Sys2Proof.Machine
end
